-- ==== Sys2Proof/Word.lean ====
section
/-! DEFINITION. The word and byte types of the ZM-640 (R1, R38). -/

namespace Sys2Proof

/-- A 64-bit word: a scalar register, an address, a system register. -/
abbrev Word := BitVec 64

/-- One byte of memory. -/
abbrev Byte := BitVec 8

end Sys2Proof
end

