-- ==== Sys2Proof/Syntax.lean ====
section
/-! DEFINITION. The instructions and device events of the ZM-640: one constructor of `Instr` for each
row of the table of operations and events. Operand fields follow the formats of R140 to R143. -/

namespace Sys2Proof

/-- A scalar register field, s0 to s63. -/
abbrev Reg := BitVec 6

/-- A 14-bit tile-line operand (R141). -/
structure Line where
  tile : BitVec 4
  dir : BitVec 2
  fromReg : Bool
  idx : BitVec 6
  last : Bool
  deriving DecidableEq, Repr

/-- A 13-bit destination line: a tile-line operand without the last-use bit (R141). -/
structure DLine where
  tile : BitVec 4
  dir : BitVec 2
  fromReg : Bool
  idx : BitVec 6
  deriving DecidableEq, Repr

/-- The token bits of an engine word (R138). -/
structure Tok where
  wl : Bool
  wr : Bool
  gl : Bool
  gr : Bool
  deriving DecidableEq, Repr

/-- RR form naming D, A, B (R140). -/
structure FR3 where
  sp : Bool
  d : BitVec 6
  a : BitVec 6
  b : BitVec 6
  deriving DecidableEq, Repr

/-- RR form naming D, A. -/
structure FR2 where
  sp : Bool
  d : BitVec 6
  a : BitVec 6
  deriving DecidableEq, Repr

/-- RR form with LEN. -/
structure FR2L where
  sp : Bool
  d : BitVec 6
  a : BitVec 6
  len : BitVec 6
  deriving DecidableEq, Repr

/-- RR form with D, A, B, LEN. -/
structure FR3L where
  sp : Bool
  d : BitVec 6
  a : BitVec 6
  b : BitVec 6
  len : BitVec 6
  deriving DecidableEq, Repr

/-- RR form with POS and LEN. -/
structure FR2PL where
  sp : Bool
  d : BitVec 6
  a : BitVec 6
  pos : BitVec 6
  len : BitVec 6
  deriving DecidableEq, Repr

/-- RR form with D, A, B, C. -/
structure FR4 where
  sp : Bool
  d : BitVec 6
  a : BitVec 6
  b : BitVec 6
  c : BitVec 6
  deriving DecidableEq, Repr

/-- RI form with D, A, IMM. -/
structure FRI where
  sp : Bool
  d : BitVec 6
  a : BitVec 6
  imm : BitVec 36
  deriving DecidableEq, Repr

/-- RI form with D, IMM. -/
structure FRI1 where
  sp : Bool
  d : BitVec 6
  imm : BitVec 36
  deriving DecidableEq, Repr

/-- BR form with OFF alone. -/
structure FOff where
  off : BitVec 30
  deriving DecidableEq, Repr

/-- BR form with D, OFF. -/
structure FDOff where
  d : BitVec 6
  off : BitVec 30
  deriving DecidableEq, Repr

/-- RI form with A, IMM. -/
structure FAImm where
  a : BitVec 6
  imm : BitVec 36
  deriving DecidableEq, Repr

/-- RI form with D, A, IMM, no SP. -/
structure FDAImm where
  d : BitVec 6
  a : BitVec 6
  imm : BitVec 36
  deriving DecidableEq, Repr

/-- BR form with A, B, OFF. -/
structure FABOff where
  a : BitVec 6
  b : BitVec 6
  off : BitVec 30
  deriving DecidableEq, Repr

/-- BR form with A, OFF. -/
structure FAOff where
  a : BitVec 6
  off : BitVec 30
  deriving DecidableEq, Repr

/-- RI form with IMM alone. -/
structure FImm where
  imm : BitVec 36
  deriving DecidableEq, Repr

/-- RR form with D alone. -/
structure FD1 where
  d : BitVec 6
  deriving DecidableEq, Repr

/-- RR form with A alone. -/
structure FA1 where
  a : BitVec 6
  deriving DecidableEq, Repr

/-- RR form with D, A, no SP. -/
structure FDA where
  d : BitVec 6
  a : BitVec 6
  deriving DecidableEq, Repr

/-- RR form with A, B. -/
structure FAB where
  a : BitVec 6
  b : BitVec 6
  deriving DecidableEq, Repr

/-- RR form with D, A, B, no SP. -/
structure FDAB where
  d : BitVec 6
  a : BitVec 6
  b : BitVec 6
  deriving DecidableEq, Repr

/-- RR form with D, A, B, C, no SP. -/
structure FDABC where
  d : BitVec 6
  a : BitVec 6
  b : BitVec 6
  c : BitVec 6
  deriving DecidableEq, Repr

/-- RR form with D, A, C. -/
structure FDAC where
  d : BitVec 6
  a : BitVec 6
  c : BitVec 6
  deriving DecidableEq, Repr

/-- QPOP fields (R146). -/
structure FQPop where
  scope : BitVec 3
  d : BitVec 6
  a : BitVec 6
  tryF : Bool
  deriving DecidableEq, Repr

/-- QPUSH fields. -/
structure FQPush where
  scope : BitVec 3
  d : BitVec 6
  a : BitVec 6
  b : BitVec 6
  tryF : Bool
  deriving DecidableEq, Repr

/-- QBIND fields. -/
structure FQBind where
  scope : BitVec 3
  a : BitVec 6
  unb : Bool
  q : BitVec 2
  deriving DecidableEq, Repr

/-- PHASE fields. -/
structure FPhase where
  d : BitVec 6
  tag : Bool
  wait : Bool
  deriving DecidableEq, Repr

/-- token count N (R148). -/
structure FTk where
  n : BitVec 4
  deriving DecidableEq, Repr

/-- MO form of a load. -/
structure FMLd where
  sp : Bool
  d : BitVec 6
  a : BitVec 6
  w : BitVec 2
  off : BitVec 24
  deriving DecidableEq, Repr

/-- MO form of a store. -/
structure FMSt where
  a : BitVec 6
  b : BitVec 6
  w : BitVec 2
  off : BitVec 24
  deriving DecidableEq, Repr

/-- MO form of an atomic; OPX is fixed by the instruction. -/
structure FMAt where
  scope : BitVec 3
  d : BitVec 6
  a : BitVec 6
  b : BitVec 6
  w : BitVec 2
  off : BitVec 24
  deriving DecidableEq, Repr

/-- MO form of CSIG and CWAIT. -/
structure FMCs where
  scope : BitVec 3
  a : BitVec 6
  b : BitVec 6
  off : BitVec 24
  deriving DecidableEq, Repr

/-- MO form of CREAD. -/
structure FMCr where
  scope : BitVec 3
  d : BitVec 6
  a : BitVec 6
  off : BitVec 24
  deriving DecidableEq, Repr

/-- scope alone (FENCE). -/
structure FSc where
  scope : BitVec 3
  deriving DecidableEq, Repr

/-- VE form of VLD. -/
structure FVLd where
  sp : Bool
  scope : BitVec 3
  d : BitVec 6
  a : BitVec 6
  b : BitVec 6
  mode : BitVec 2
  line : Line
  deriving DecidableEq, Repr

/-- VW form of VLDS. -/
structure FVLds where
  sp : Bool
  scope : BitVec 3
  d : BitVec 6
  a : BitVec 6
  b : BitVec 6
  c : BitVec 6
  mode : BitVec 2
  deriving DecidableEq, Repr

/-- VE form of VST. -/
structure FVSt where
  scope : BitVec 3
  a : BitVec 6
  b : BitVec 6
  line : Line
  deriving DecidableEq, Repr

/-- VW form of VSTS. -/
structure FVSts where
  scope : BitVec 3
  a : BitVec 6
  b : BitVec 6
  c : BitVec 6
  fin : Bool
  deriving DecidableEq, Repr

/-- BK form: KIND, IDX. -/
structure FBk where
  kind : Bool
  idx : BitVec 6
  deriving DecidableEq, Repr

/-- BK form with POL. -/
structure FBkPol where
  pol : BitVec 2
  kind : Bool
  idx : BitVec 6
  deriving DecidableEq, Repr

/-- BK form with D. -/
structure FBkD where
  d : BitVec 6
  kind : Bool
  idx : BitVec 6
  deriving DecidableEq, Repr

/-- GU form of GWAIT and GREL. -/
structure FGu where
  a : BitVec 6
  idx : BitVec 6
  n : BitVec 12
  deriving DecidableEq, Repr

/-- GU form with D, IDX. -/
structure FGuD where
  d : BitVec 6
  idx : BitVec 6
  deriving DecidableEq, Repr

/-- GU form with IDX. -/
structure FGuI where
  idx : BitVec 6
  deriving DecidableEq, Repr

/-- CSRR fields. -/
structure FCsrD where
  d : BitVec 6
  csr : BitVec 12
  deriving DecidableEq, Repr

/-- CSRW fields. -/
structure FCsrA where
  a : BitVec 6
  csr : BitVec 12
  deriving DecidableEq, Repr

/-- CSRS and CSRC fields. -/
structure FCsrDA where
  d : BitVec 6
  a : BitVec 6
  csr : BitVec 12
  deriving DecidableEq, Repr

/-- FWCALL with its service fixed by the instruction. -/
structure FDAfw where
  d : BitVec 6
  a : BitVec 6
  deriving DecidableEq, Repr

/-- TLBINV fields. -/
structure FScAB where
  scope : BitVec 3
  a : BitVec 6
  b : BitVec 6
  deriving DecidableEq, Repr

/-- CKICK fields. -/
structure FChA where
  a : BitVec 6
  ch : BitVec 3
  deriving DecidableEq, Repr

/-- a channel alone. -/
structure FCh where
  ch : BitVec 3
  deriving DecidableEq, Repr

/-- CSTAT fields. -/
structure FChD where
  d : BitVec 6
  ch : BitVec 3
  deriving DecidableEq, Repr

/-- CZERO fields. -/
structure FChAB where
  a : BitVec 6
  b : BitVec 6
  ch : BitVec 3
  deriving DecidableEq, Repr

/-- CPFL2 fields. -/
structure FCpf where
  scope : BitVec 3
  a : BitVec 6
  b : BitVec 6
  c : BitVec 6
  val : BitVec 24
  deriving DecidableEq, Repr

/-- CSRW to GCFGn. -/
structure FCsrG where
  a : BitVec 6
  n : BitVec 4
  deriving DecidableEq, Repr

/-- CSRW to LBDn. -/
structure FCsrL where
  a : BitVec 6
  n : BitVec 5
  deriving DecidableEq, Repr

/-- CSRR of one fixed register. -/
structure FD1x where
  d : BitVec 6
  deriving DecidableEq, Repr

/-- CSRW of one fixed register. -/
structure FA1x where
  a : BitVec 6
  deriving DecidableEq, Repr

/-- LN form of the L and S engines (R142). -/
structure FLN where
  tok : Tok
  acq : Bool
  rel : Bool
  scope : BitVec 3
  line : Line
  a : BitVec 6
  off : BitVec 16
  slu : Bool
  param : BitVec 6
  deriving DecidableEq, Repr

/-- SA form of SACC. -/
structure FSA where
  tok : Tok
  acq : Bool
  rel : Bool
  scope : BitVec 3
  p : Bool
  dir : Bool
  idx : BitVec 7
  h : Bool
  a : BitVec 6
  off : BitVec 16
  dt : BitVec 5
  deriving DecidableEq, Repr

/-- XM form of the X engine. -/
structure FXM where
  tok : Tok
  p : Bool
  line : Line
  at_ : BitVec 5
  bt : BitVec 5
  nstep : BitVec 8
  param : BitVec 12
  deriving DecidableEq, Repr

/-- V three-line form. -/
structure FV3 where
  tok : Tok
  dst : DLine
  src1 : Line
  src2 : Line
  et : BitVec 3
  sat : Bool
  k : BitVec 3
  deriving DecidableEq, Repr

/-- V3 form of a compare: KD at [47:45]. -/
structure FVCm where
  tok : Tok
  kd : BitVec 3
  src1 : Line
  src2 : Line
  et : BitVec 3
  sat : Bool
  k : BitVec 3
  deriving DecidableEq, Repr

/-- VC form of VCVT. -/
structure FVC where
  tok : Tok
  dst : DLine
  src : Line
  dt : BitVec 5
  st : BitVec 5
  sat : Bool
  k : BitVec 3
  deriving DecidableEq, Repr

/-- VX form: a line and a scalar. -/
structure FVX where
  tok : Tok
  line : Line
  s : BitVec 6
  lane : BitVec 6
  et : BitVec 3
  k : BitVec 3
  deriving DecidableEq, Repr

/-- VK form: mask registers. -/
structure FVK where
  tok : Tok
  kd : BitVec 3
  ka : BitVec 3
  kb : BitVec 3
  s : BitVec 6
  deriving DecidableEq, Repr

/-- VA form of VACC. -/
structure FVA where
  tok : Tok
  dst : DLine
  p : Bool
  dir : Bool
  idx : BitVec 7
  h : Bool
  dt : BitVec 5
  sat : Bool
  k : BitVec 3
  deriving DecidableEq, Repr

/-- Who holds a creation that waits for capacity (R103). -/
inductive Creator where
  | ctx (c : Nat)
  | channel (c ch : Nat)
  | network (handle : BitVec 32)
  deriving DecidableEq, Repr

/-- A unit that asks its cluster's arbiter for current (R341). -/
inductive PowerUnit where
  | x
  | v
  | copy
  deriving DecidableEq, Repr

/-- A host register without a row of its own (R389, R390, R399, R414). -/
inductive HostReg where
  | hqbase (vd q : Nat)
  | hqctl (vd q : Nat)
  | drvfeat (vd : Nat)
  | imgaddr
  | imglen
  | other (offset : Nat)
  deriving DecidableEq, Repr

/-- The unit an uncorrectable error strikes (R357). -/
inductive ErrorSite where
  | memory (sector : Nat)
  | l1Byte (c pa : Nat)
  | tileCell (c t cell : Nat)
  | planeCell (c p cell : Nat)
  | granule (c g : Nat)
  | scalar (c r : Nat)
  | mask (c k : Nat) (bits : BitVec 64)
  | bare (c : Nat)
  deriving DecidableEq, Repr

/-- A defect found by self test, or named by the device record (R415, R417). -/
structure Defect where
  kind : Nat
  location : Nat
  count : Nat
  deriving DecidableEq, Repr

/-- What a PTP event message tells: the port of the module that timestamped it, 0 to 7, and the correction of package time in
ns that follows (R384, R400): an input of the model. -/
structure PtpMsg where
  port : Nat
  correction : Int
  deriving DecidableEq, Repr

/-- What power-on meets in the silicon: whether each die reads the flash as it stands, whether HBM controllers, ring stops
and die link work, the defects that self test finds (R413, R417, R418): inputs of the model. -/
structure Bist where
  read0 : Bool
  read1 : Bool
  fabricOk : Bool
  defects : List Defect
  deriving DecidableEq, Repr

/-- One step of the part: an instruction word as decoded, or a move of another agent (an event). -/
inductive Instr where
  /-- NOP, R144. -/
  | nop
  /-- ADD, R158. -/
  | add (f : FR3)
  /-- SUB, R158. -/
  | sub (f : FR3)
  /-- MUL, R158. -/
  | mul (f : FR3)
  /-- MULH, R158. -/
  | mulh (f : FR3)
  /-- MULHN, R158. -/
  | mulhn (f : FR3)
  /-- DIV, R159. -/
  | div (f : FR3)
  /-- DIVN, R159. -/
  | divn (f : FR3)
  /-- REM, R159. -/
  | rem (f : FR3)
  /-- REMN, R159. -/
  | remn (f : FR3)
  /-- AND, R160. -/
  | and (f : FR3)
  /-- OR, R160. -/
  | or (f : FR3)
  /-- XOR, R160. -/
  | xor (f : FR3)
  /-- ANDN, R160. -/
  | andn (f : FR3)
  /-- SHL, R160. -/
  | shl (f : FR3)
  /-- SHR, R160. -/
  | shr (f : FR3)
  /-- SHRA, R160. -/
  | shra (f : FR3)
  /-- ROTL, R160. -/
  | rotl (f : FR3)
  /-- CLZ, R160. -/
  | clz (f : FR2)
  /-- CTZ, R160. -/
  | ctz (f : FR2)
  /-- POPC, R160. -/
  | popc (f : FR2)
  /-- SEXT, R161. -/
  | sext (f : FR2L)
  /-- ZEXT, R161. -/
  | zext (f : FR2L)
  /-- MIN, R158. -/
  | min (f : FR3)
  /-- MAX, R158. -/
  | max (f : FR3)
  /-- MINN, R158. -/
  | minn (f : FR3)
  /-- MAXN, R158. -/
  | maxn (f : FR3)
  /-- SETEQ, R163. -/
  | seteq (f : FR3)
  /-- SETLT, R163. -/
  | setlt (f : FR3)
  /-- SETLTN, R163. -/
  | setltn (f : FR3)
  /-- CSEL, R163. -/
  | csel (f : FR4)
  /-- ADDSH, R158. -/
  | addsh (f : FR3L)
  /-- BFX, R161. -/
  | bfx (f : FR2PL)
  /-- BFI, R161. -/
  | bfi (f : FR2PL)
  /-- POIS, R164. -/
  | pois (f : FR2)
  /-- UNPOIS, R164. -/
  | unpois (f : FR2)
  /-- CHASH, R165. -/
  | chash (f : FR4)
  /-- ADDI, R158. -/
  | addi (f : FRI)
  /-- ANDI, R160. -/
  | andi (f : FRI)
  /-- ORI, R160. -/
  | ori (f : FRI)
  /-- XORI, R160. -/
  | xori (f : FRI)
  /-- SHLI, R160. -/
  | shli (f : FRI)
  /-- SHRI, R160. -/
  | shri (f : FRI)
  /-- SHRAI, R160. -/
  | shrai (f : FRI)
  /-- LI, R162. -/
  | li (f : FRI1)
  /-- LIH, R162. -/
  | lih (f : FRI)
  /-- J, R167. -/
  | j (f : FOff)
  /-- JL, R167. -/
  | jl (f : FDOff)
  /-- JR, R167. -/
  | jr (f : FAImm)
  /-- JLR, R167. -/
  | jlr (f : FDAImm)
  /-- BEQ, R168. -/
  | beq (f : FABOff)
  /-- BNE, R168. -/
  | bne (f : FABOff)
  /-- BLT, R168. -/
  | blt (f : FABOff)
  /-- BGE, R168. -/
  | bge (f : FABOff)
  /-- BLTN, R168. -/
  | bltn (f : FABOff)
  /-- BGEN, R168. -/
  | bgen (f : FABOff)
  /-- LOOP, R169. -/
  | loop (f : FAOff)
  /-- HALT, R171. -/
  | halt
  /-- YIELD, R172. -/
  | yield
  /-- BEAT, R173. -/
  | beat
  /-- BRK, R174. -/
  | brk (f : FImm)
  /-- TIME, R175. -/
  | time (f : FD1)
  /-- VCYC, R176. -/
  | vcyc (f : FD1)
  /-- WAITT, R177. -/
  | waitt (f : FA1)
  /-- QPOP, R180. -/
  | qpop (f : FQPop)
  /-- QPUSH, R181. -/
  | qpush (f : FQPush)
  /-- QBIND, R182. -/
  | qbind (f : FQBind)
  /-- SPAWN, R184. -/
  | spawn (f : FDAB)
  /-- PHASE, R186. -/
  | phase (f : FPhase)
  /-- TKGIVE, R148. -/
  | tkgive (f : FTk)
  /-- TKTAKE, R148. -/
  | tktake (f : FTk)
  /-- LD, R191. -/
  | ld (f : FMLd)
  /-- LDS, R191. -/
  | lds (f : FMLd)
  /-- ST, R192. -/
  | st (f : FMSt)
  /-- LDL, R194. -/
  | ldl (f : FMLd)
  /-- STL, R194. -/
  | stl (f : FMSt)
  /-- ATOM_ADD, R196. -/
  | atomAdd (f : FMAt)
  /-- ATOM_AND, R196. -/
  | atomAnd (f : FMAt)
  /-- ATOM_OR, R196. -/
  | atomOr (f : FMAt)
  /-- ATOM_XOR, R196. -/
  | atomXor (f : FMAt)
  /-- ATOM_MIN, R196. -/
  | atomMin (f : FMAt)
  /-- ATOM_MAX, R196. -/
  | atomMax (f : FMAt)
  /-- ATOM_MINN, R196. -/
  | atomMinn (f : FMAt)
  /-- ATOM_MAXN, R196. -/
  | atomMaxn (f : FMAt)
  /-- ATOM_SWAP, R196. -/
  | atomSwap (f : FMAt)
  /-- CAS, R197. -/
  | cas (f : FMAt)
  /-- CSIG, R200. -/
  | csig (f : FMCs)
  /-- CWAIT, R201. -/
  | cwait (f : FMCs)
  /-- CREAD, R202. -/
  | cread (f : FMCr)
  /-- FENCE, R203. -/
  | fence (f : FSc)
  /-- BIND, R204. -/
  | bind (f : FDABC)
  /-- UNBIND, R204. -/
  | unbind (f : FDAC)
  /-- VREGION, R205. -/
  | vregion (f : FDAImm)
  /-- VLD, R207. -/
  | vld (f : FVLd)
  /-- VLDS, R208. -/
  | vlds (f : FVLds)
  /-- VST, R209. -/
  | vst (f : FVSt)
  /-- VSTS, R210. -/
  | vsts (f : FVSts)
  /-- VFLOOR, R211. -/
  | vfloor (f : FAB)
  /-- VNEWEST, R212. -/
  | vnewest (f : FDA)
  /-- BPOL, R214. -/
  | bpol (f : FBkPol)
  /-- BWAKE, R215. -/
  | bwake (f : FBk)
  /-- BDROP, R216. -/
  | bdrop (f : FBk)
  /-- BSTATE, R217. -/
  | bstate (f : FBkD)
  /-- GWAIT, R218. -/
  | gwait (f : FGu)
  /-- GREL, R219. -/
  | grel (f : FGu)
  /-- GSTAT, R220. -/
  | gstat (f : FGuD)
  /-- LBFREE, R221. -/
  | lbfree (f : FGuI)
  /-- LBUSY, R222. -/
  | lbusy (f : FGuD)
  /-- CSRR, R302. -/
  | csrr (f : FCsrD)
  /-- CSRW, R302. -/
  | csrw (f : FCsrA)
  /-- CSRS, R302. -/
  | csrs (f : FCsrDA)
  /-- CSRC, R302. -/
  | csrc (f : FCsrDA)
  /-- ECALL, R314. -/
  | ecall (f : FImm)
  /-- TRET, R315. -/
  | tret
  /-- SRET, R316. -/
  | sret
  /-- FWCALL_IDENTITY, R416. -/
  | fwcallIdentity (f : FDAImm)
  /-- FWCALL_MEASUREMENT_LOG, R416. -/
  | fwcallMeasurementLog (f : FDAfw)
  /-- FWCALL_QUOTE, R416. -/
  | fwcallQuote (f : FDAfw)
  /-- FWCALL_REPAIR_MAP, R416. -/
  | fwcallRepairMap (f : FDAfw)
  /-- STAGE2_MAP, R368. -/
  | stage2Map (f : FDAfw)
  /-- STAGE2_UNMAP, R368. -/
  | stage2Unmap (f : FDAfw)
  /-- MOVE_TO_TIER1, R368. -/
  | moveToTier1 (f : FDAfw)
  /-- MOVE_TO_TIER2, R368. -/
  | moveToTier2 (f : FDAfw)
  /-- SET_PERMISSIONS, R367. -/
  | setPermissions (f : FDAfw)
  /-- PAGE_RETIREMENT, R368. -/
  | pageRetirement (f : FDAfw)
  /-- WINDOW_DECLARE, R408. -/
  | windowDeclare (f : FDAfw)
  /-- WINDOW_REMOVE, R408. -/
  | windowRemove (f : FDAfw)
  /-- TSPILL, R317. -/
  | tspill (f : FBk)
  /-- TFILL, R317. -/
  | tfill (f : FBk)
  /-- CTXSAVE, R318. -/
  | ctxsave (f : FDA)
  /-- CTXLOAD, R319. -/
  | ctxload (f : FDA)
  /-- TLBINV, R320. -/
  | tlbinv (f : FScAB)
  /-- ZERORANGE, R321. -/
  | zerorange (f : FAB)
  /-- PSYNC, R322. -/
  | psync
  /-- WDOG, R323. -/
  | wdog (f : FA1)
  /-- DLVL, R324. -/
  | dlvl (f : FAB)
  /-- CANCEL, R325. -/
  | cancel (f : FDAB)
  /-- CANCEL_CLEAR, R325. -/
  | cancelClear (f : FDAB)
  /-- LLINE, R226. -/
  | lline (f : FLN)
  /-- LTILE, R226. -/
  | ltile (f : FLN)
  /-- LTRANS, R226. -/
  | ltrans (f : FLN)
  /-- LFEED, R230. -/
  | lfeed (f : FLN)
  /-- LSETF, R229. -/
  | lsetf (f : FLN)
  /-- LWGT, R231. -/
  | lwgt (f : FLN)
  /-- LGATH, R232. -/
  | lgath (f : FLN)
  /-- LMASK, R233. -/
  | lmask (f : FLN)
  /-- LVC, R228. -/
  | lvc (f : FLN)
  /-- LZERO, R227. -/
  | lzero (f : FLN)
  /-- XMMA, R235. -/
  | xmma (f : FXM)
  /-- XMMAM, R236. -/
  | xmmam (f : FXM)
  /-- XSPMM, R236. -/
  | xspmm (f : FXM)
  /-- XSWAP, R241. -/
  | xswap (f : FXM)
  /-- XSHAPE, R242. -/
  | xshape (f : FXM)
  /-- XCLR, R243. -/
  | xclr (f : FXM)
  /-- XBIAS, R244. -/
  | xbias (f : FXM)
  /-- VADD, R249. -/
  | vadd (f : FV3)
  /-- VSUB, R249. -/
  | vsub (f : FV3)
  /-- VMUL, R249. -/
  | vmul (f : FV3)
  /-- VFMA, R249. -/
  | vfma (f : FV3)
  /-- VFMS, R249. -/
  | vfms (f : FV3)
  /-- VFNMA, R249. -/
  | vfnma (f : FV3)
  /-- VMIN, R250. -/
  | vmin (f : FV3)
  /-- VMAX, R250. -/
  | vmax (f : FV3)
  /-- VABS, R249. -/
  | vabs (f : FV3)
  /-- VNEG, R249. -/
  | vneg (f : FV3)
  /-- VAND, R251. -/
  | vand (f : FV3)
  /-- VOR, R251. -/
  | vor (f : FV3)
  /-- VXOR, R251. -/
  | vxor (f : FV3)
  /-- VNOT, R251. -/
  | vnot (f : FV3)
  /-- VSHL, R251. -/
  | vshl (f : FV3)
  /-- VSHR, R251. -/
  | vshr (f : FV3)
  /-- VSHRA, R251. -/
  | vshra (f : FV3)
  /-- VRSH, R252. -/
  | vrsh (f : FV3)
  /-- VCMPEQ, R253. -/
  | vcmpeq (f : FVCm)
  /-- VCMPNE, R253. -/
  | vcmpne (f : FVCm)
  /-- VCMPLT, R253. -/
  | vcmplt (f : FVCm)
  /-- VCMPLE, R253. -/
  | vcmple (f : FVCm)
  /-- VSEL, R254. -/
  | vsel (f : FV3)
  /-- VCVT, R256. -/
  | vcvt (f : FVC)
  /-- VEXP2, R258. -/
  | vexp2 (f : FV3)
  /-- VLOG2, R258. -/
  | vlog2 (f : FV3)
  /-- VRCP, R258. -/
  | vrcp (f : FV3)
  /-- VRSQ, R258. -/
  | vrsq (f : FV3)
  /-- VTANH, R258. -/
  | vtanh (f : FV3)
  /-- VREDSUM, R259. -/
  | vredsum (f : FV3)
  /-- VREDMAX, R259. -/
  | vredmax (f : FV3)
  /-- VREDMIN, R259. -/
  | vredmin (f : FV3)
  /-- VSCANADD, R260. -/
  | vscanadd (f : FV3)
  /-- VBCAST, R261. -/
  | vbcast (f : FVX)
  /-- VMOV, R261. -/
  | vmov (f : FV3)
  /-- VPERM, R261. -/
  | vperm (f : FV3)
  /-- VIOTA, R261. -/
  | viota (f : FV3)
  /-- VGETS, R261. -/
  | vgets (f : FVX)
  /-- VSETS, R261. -/
  | vsets (f : FVX)
  /-- VKAND, R255. -/
  | vkand (f : FVK)
  /-- VKOR, R255. -/
  | vkor (f : FVK)
  /-- VKXOR, R255. -/
  | vkxor (f : FVK)
  /-- VKNOT, R255. -/
  | vknot (f : FVK)
  /-- VKPOPC, R255. -/
  | vkpopc (f : FVK)
  /-- VKFIRST, R255. -/
  | vkfirst (f : FVK)
  /-- VACC, R263. -/
  | vacc (f : FVA)
  /-- VPOIS, R262. -/
  | vpois (f : FV3)
  /-- VHASH, R264. -/
  | vhash (f : FV3)
  /-- SLINE, R266. -/
  | sline (f : FLN)
  /-- STILE, R266. -/
  | stile (f : FLN)
  /-- STRANS, R266. -/
  | strans (f : FLN)
  /-- SACC, R268. -/
  | sacc (f : FSA)
  /-- CKICK, R282. -/
  | ckick (f : FChA)
  /-- CSTOP, R282. -/
  | cstop (f : FCh)
  /-- CSTAT, R282. -/
  | cstat (f : FChD)
  /-- CPFL2, R283. -/
  | cpfl2 (f : FCpf)
  /-- CZERO, R282. -/
  | czero (f : FChAB)
  /-- CWAITCH, R282. -/
  | cwaitch (f : FCh)
  /-- NSEND, R284. -/
  | nsend (f : FDABC)
  /-- NSTAT, R285. -/
  | nstat (f : FDA)
  /-- GCFG_WRITE, R90. -/
  | gcfgWrite (f : FCsrG)
  /-- LBD_WRITE, R94. -/
  | lbdWrite (f : FCsrL)
  /-- CPFSTAT_READ, R283. -/
  | cpfstatRead (f : FD1x)
  /-- SEVBASE_WRITE, R311. -/
  | sevbaseWrite (f : FA1x)
  /-- SEVLOST_READ, R311. -/
  | sevlostRead (f : FD1x)
  /-- HQLAUNCH, R391. -/
  | hqlaunch (vd q : Nat) (pkt : BitVec 512) (whole : Bool)
  /-- HQDOOR, R391. -/
  | hqdoor (vd q : Nat) (widx : BitVec 32)
  /-- START, R390. -/
  | hqStart (vd q : Nat)
  /-- STOP, R390. -/
  | hqStop (vd q : Nat)
  /-- CLRQ, R397. -/
  | hqClrq (vd q : Nat)
  /-- ACCEPT, R399. -/
  | accept (vd : Nat)
  /-- FEATURE_RESET, R399. -/
  | featureReset (vd : Nat)
  /-- LOAD, R414. -/
  | recoveryLoad (vd : Nat)
  /-- RESET, R414. -/
  | recoveryReset (bist : Bist)
  /-- HOST_REGISTER_WRITE, R389. -/
  | hostRegisterWrite (r : HostReg) (value : BitVec 128)
  /-- NOP_PACKET, R393. -/
  | nopPacket (vd q : Nat)
  /-- LAUNCH, R393. -/
  | launch (vd q : Nat)
  /-- COPY_PACKET, R393. -/
  | copyPacket (vd q : Nat)
  /-- SIGNAL, R393. -/
  | signal (vd q : Nat)
  /-- WAIT, R393. -/
  | wait (vd q : Nat)
  /-- BIND_PACKET, R393. -/
  | bindPacket (vd q : Nat)
  /-- CANCEL_PACKET, R393. -/
  | cancelPacket (vd q : Nat)
  /-- FENCE_PACKET, R394. -/
  | fencePacket (vd q : Nat)
  /-- WAIT_SATISFIED, R393. -/
  | waitSatisfied (vd q : Nat)
  /-- WAIT_TIMEOUT, R393. -/
  | waitTimeout (vd q : Nat)
  /-- COPY_CHAIN_END, R396. -/
  | copyChainEnd (die ch : Nat)
  /-- FIRMWARE_RESTART, R396. -/
  | firmwareRestart (vd q : Nat)
  /-- QUEUE_MAP, R388. -/
  | queueMap (vd q thread : Nat)
  /-- QUEUE_UNMAP, R388. -/
  | queueUnmap (vd q : Nat)
  /-- TASK_RELEASE, R333. -/
  | taskRelease (t : Nat)
  /-- HELD_TASK_RELEASE, R31. -/
  | heldTaskRelease (t : Nat)
  /-- SCHEDULER_SELECTION, R334. -/
  | schedulerSelection (p die : Nat)
  /-- DEADLINE_MISS, R339. -/
  | deadlineMiss (t : Nat)
  /-- PROGRESS, R340. -/
  | progress (t : Nat)
  /-- BUDGET_OVERRUN, R338. -/
  | budgetOverrun (t : Nat)
  /-- ADMISSION_EVALUATION, R338. -/
  | admissionEvaluation (p die : Nat)
  /-- QUARANTINE_ROTATION, R397. -/
  | quarantineRotation (die : Nat)
  /-- SLICE_END, R383. -/
  | sliceEnd (p : Nat)
  /-- SLICE_START, R383. -/
  | sliceStart (p : Nat)
  /-- FORCED_SAVE, R351. -/
  | forcedSave (c : Nat)
  /-- TAKE_PENDING_CAUSE, R345. -/
  | takePendingCause (c : Nat)
  /-- BANK_WAKE_COMPLETE, R55. -/
  | bankWakeComplete (c : Nat) (pad : Bool) (idx : Nat)
  /-- CWAIT_SATISFIED, R127. -/
  | cwaitSatisfied (c : Nat)
  /-- QUEUE_ENTRY_DELIVERED, R33. -/
  | queueEntryDelivered (c : Nat)
  /-- WAITT_EXPIRY, R177. -/
  | waittExpiry (c : Nat)
  /-- GWAIT_SATISFIED, R218. -/
  | gwaitSatisfied (c : Nat)
  /-- VERSION_WAIT_WAKE, R109. -/
  | versionWaitWake (c : Nat)
  /-- VERSION_WAIT_RETRY, R109. -/
  | versionWaitRetry (c : Nat)
  /-- CREATION_RETRY, R103. -/
  | creationRetry (who : Creator)
  /-- VERSION_TIMEOUT, R103. -/
  | versionTimeout (who : Creator)
  /-- TRANSFER_RECORD, R276. -/
  | transferRecord (c ch : Nat) (bad : List Nat)
  /-- GUTTER_CLAIM, R92. -/
  | gutterClaim (c g : Nat)
  /-- GUTTER_FILL, R93. -/
  | gutterFill (c g : Nat) (bad : List Nat)
  /-- MULTICAST_LANDING, R95. -/
  | multicastLanding (c ch : Nat) (bad : List Nat)
  /-- PREFETCH_RESIDENT, R87. -/
  | prefetchResident (c : Nat) (failed : Nat)
  /-- ENDPOINT_TAKE, R285. -/
  | endpointTake (c slot : Nat)
  /-- TRANSMISSION_START, R285. -/
  | transmissionStart (c slot : Nat)
  /-- SEND_ACKNOWLEDGED, R285. -/
  | sendAcknowledged (c slot : Nat)
  /-- INBOUND_MESSAGE, R403. -/
  | inboundMessage (handle : BitVec 32) (word : BitVec 64) (bytes : List (BitVec 8))
  /-- PTP_MESSAGE, R400. -/
  | ptpMessage (msg : PtpMsg)
  /-- REDUCTION_GROUP, R136. -/
  | reductionGroup (win : Nat)
  /-- LINK_RETIRED, R407. -/
  | linkRetired (link : Nat)
  /-- HEARTBEAT, R406. -/
  | heartbeat (die : Nat)
  /-- DIE_FAILED, R406. -/
  | dieFailed (die : Nat)
  /-- PARTITION_COMMIT, R322. -/
  | partitionCommit
  /-- DEVICE_QUIET, R385. -/
  | deviceQuiet (v : Nat)
  /-- THERMAL_REPORT, R379. -/
  | thermalReport (h : Nat) (tenths : Int)
  /-- POWER_CAP, R410. -/
  | powerCap (watts : Nat)
  /-- RESERVATION_REQUEST, R341. -/
  | reservationRequest (c : Nat) (u : PowerUnit)
  /-- RESERVATION_GRANT, R341. -/
  | reservationGrant (cluster : Nat)
  /-- DROOP, R411. -/
  | droop (cluster : Nat)
  /-- DROOP_FREEZE_END, R411. -/
  | droopFreezeEnd (cluster : Nat)
  /-- UNCORRECTABLE_ERROR, R357. -/
  | uncorrectableError (where_ : ErrorSite)
  /-- WATCHDOG, R323. -/
  | watchdog (die : Nat)
  /-- POWER_ON, R418. -/
  | powerOn (bist : Bist)
  /-- SEND_FAILED, R404. -/
  | sendFailed (c slot : Nat) (code : Nat)
  deriving DecidableEq, Repr

end Sys2Proof
end

