-- ==== Sys2Proof/Decode.lean ====
section
/-! DEFINITION. Instruction words: the decoder (R137 to R146) and, after it, the encoder. A word's
reserved bits are checked by encoding what was read and comparing (`decode`). -/

namespace Sys2Proof

/-- Bits [lo + n - 1 : lo] of a word. -/
def fld (w : BitVec 64) (lo n : Nat) : BitVec n := w.extractLsb' lo n

/-- Bit i of a word. -/
def bitAt (w : BitVec 64) (i : Nat) : Bool := w.getLsbD i

/-- The tile-line operand at bits [lo + 13 : lo] (R141). -/
def decLine (w : BitVec 64) (lo : Nat) : Line :=
  { tile := fld w (lo + 10) 4, dir := fld w (lo + 8) 2, fromReg := bitAt w (lo + 7),
    idx := fld w (lo + 1) 6, last := bitAt w lo }

/-- The destination line at bits [lo + 12 : lo] (R141). -/
def decDLine (w : BitVec 64) (lo : Nat) : DLine :=
  { tile := fld w (lo + 9) 4, dir := fld w (lo + 7) 2, fromReg := bitAt w (lo + 6),
    idx := fld w lo 6 }

/-- The token bits [51:48] (R138). (DEDUCED, log 46) -/
def decTok (w : BitVec 64) : Tok :=
  { wl := bitAt w 51, wr := bitAt w 50, gl := bitAt w 49, gr := bitAt w 48 }

/-- Fields of the R3 form. -/
def decR3 (w : BitVec 64) : FR3 :=
  { sp := bitAt w 51, d := fld w 42 6, a := fld w 36 6, b := fld w 30 6 }

/-- Fields of the R2 form. -/
def decR2 (w : BitVec 64) : FR2 :=
  { sp := bitAt w 51, d := fld w 42 6, a := fld w 36 6 }

/-- Fields of the R2L form. -/
def decR2L (w : BitVec 64) : FR2L :=
  { sp := bitAt w 51, d := fld w 42 6, a := fld w 36 6, len := fld w 0 6 }

/-- Fields of the R3L form. -/
def decR3L (w : BitVec 64) : FR3L :=
  { sp := bitAt w 51, d := fld w 42 6, a := fld w 36 6, b := fld w 30 6, len := fld w 0 6 }

/-- Fields of the R2PL form. -/
def decR2PL (w : BitVec 64) : FR2PL :=
  { sp := bitAt w 51, d := fld w 42 6, a := fld w 36 6, pos := fld w 6 6, len := fld w 0 6 }

/-- Fields of the R4 form. -/
def decR4 (w : BitVec 64) : FR4 :=
  { sp := bitAt w 51, d := fld w 42 6, a := fld w 36 6, b := fld w 30 6, c := fld w 24 6 }

/-- Fields of the RI form. -/
def decRI (w : BitVec 64) : FRI :=
  { sp := bitAt w 51, d := fld w 42 6, a := fld w 36 6, imm := fld w 0 36 }

/-- Fields of the RI1 form. -/
def decRI1 (w : BitVec 64) : FRI1 :=
  { sp := bitAt w 51, d := fld w 42 6, imm := fld w 0 36 }

/-- Fields of the Off form. -/
def decOff (w : BitVec 64) : FOff :=
  { off := fld w 0 30 }

/-- Fields of the DOff form. -/
def decDOff (w : BitVec 64) : FDOff :=
  { d := fld w 42 6, off := fld w 0 30 }

/-- Fields of the AImm form. -/
def decAImm (w : BitVec 64) : FAImm :=
  { a := fld w 36 6, imm := fld w 0 36 }

/-- Fields of the DAImm form. -/
def decDAImm (w : BitVec 64) : FDAImm :=
  { d := fld w 42 6, a := fld w 36 6, imm := fld w 0 36 }

/-- Fields of the ABOff form. -/
def decABOff (w : BitVec 64) : FABOff :=
  { a := fld w 36 6, b := fld w 30 6, off := fld w 0 30 }

/-- Fields of the AOff form. -/
def decAOff (w : BitVec 64) : FAOff :=
  { a := fld w 36 6, off := fld w 0 30 }

/-- Fields of the Imm form. -/
def decImm (w : BitVec 64) : FImm :=
  { imm := fld w 0 36 }

/-- Fields of the D1 form. -/
def decD1 (w : BitVec 64) : FD1 :=
  { d := fld w 42 6 }

/-- Fields of the A1 form. -/
def decA1 (w : BitVec 64) : FA1 :=
  { a := fld w 36 6 }

/-- Fields of the DA form. -/
def decDA (w : BitVec 64) : FDA :=
  { d := fld w 42 6, a := fld w 36 6 }

/-- Fields of the AB form. -/
def decAB (w : BitVec 64) : FAB :=
  { a := fld w 36 6, b := fld w 30 6 }

/-- Fields of the DAB form. -/
def decDAB (w : BitVec 64) : FDAB :=
  { d := fld w 42 6, a := fld w 36 6, b := fld w 30 6 }

/-- Fields of the DABC form. -/
def decDABC (w : BitVec 64) : FDABC :=
  { d := fld w 42 6, a := fld w 36 6, b := fld w 30 6, c := fld w 24 6 }

/-- Fields of the DAC form. -/
def decDAC (w : BitVec 64) : FDAC :=
  { d := fld w 42 6, a := fld w 36 6, c := fld w 24 6 }

/-- Fields of the QPop form. -/
def decQPop (w : BitVec 64) : FQPop :=
  { scope := fld w 48 3, d := fld w 42 6, a := fld w 36 6, tryF := bitAt w 0 }

/-- Fields of the QPush form. -/
def decQPush (w : BitVec 64) : FQPush :=
  { scope := fld w 48 3, d := fld w 42 6, a := fld w 36 6, b := fld w 30 6, tryF := bitAt w 0 }

/-- Fields of the QBind form. -/
def decQBind (w : BitVec 64) : FQBind :=
  { scope := fld w 48 3, a := fld w 36 6, unb := bitAt w 2, q := fld w 0 2 }

/-- Fields of the Phase form. -/
def decPhase (w : BitVec 64) : FPhase :=
  { d := fld w 42 6, tag := bitAt w 1, wait := bitAt w 0 }

/-- Fields of the Tk form. -/
def decTk (w : BitVec 64) : FTk :=
  { n := fld w 0 4 }

/-- Fields of the MLd form. -/
def decMLd (w : BitVec 64) : FMLd :=
  { sp := bitAt w 51, d := fld w 42 6, a := fld w 36 6, w := fld w 28 2, off := fld w 0 24 }

/-- Fields of the MSt form. -/
def decMSt (w : BitVec 64) : FMSt :=
  { a := fld w 36 6, b := fld w 30 6, w := fld w 28 2, off := fld w 0 24 }

/-- Fields of the MAt form. -/
def decMAt (w : BitVec 64) : FMAt :=
  { scope := fld w 48 3, d := fld w 42 6, a := fld w 36 6, b := fld w 30 6, w := fld w 28 2, off := fld w 0 24 }

/-- Fields of the MCs form. -/
def decMCs (w : BitVec 64) : FMCs :=
  { scope := fld w 48 3, a := fld w 36 6, b := fld w 30 6, off := fld w 0 24 }

/-- Fields of the MCr form. -/
def decMCr (w : BitVec 64) : FMCr :=
  { scope := fld w 48 3, d := fld w 42 6, a := fld w 36 6, off := fld w 0 24 }

/-- Fields of the Sc form. -/
def decSc (w : BitVec 64) : FSc :=
  { scope := fld w 48 3 }

/-- Fields of the VLd form. -/
def decVLd (w : BitVec 64) : FVLd :=
  { sp := bitAt w 51, scope := fld w 48 3, d := fld w 42 6, a := fld w 36 6, b := fld w 30 6, mode := fld w 28 2, line := decLine w 14 }

/-- Fields of the VLds form. -/
def decVLds (w : BitVec 64) : FVLds :=
  { sp := bitAt w 51, scope := fld w 48 3, d := fld w 42 6, a := fld w 36 6, b := fld w 30 6, c := fld w 24 6, mode := fld w 22 2 }

/-- Fields of the VSt form. -/
def decVSt (w : BitVec 64) : FVSt :=
  { scope := fld w 48 3, a := fld w 36 6, b := fld w 30 6, line := decLine w 14 }

/-- Fields of the VSts form. -/
def decVSts (w : BitVec 64) : FVSts :=
  { scope := fld w 48 3, a := fld w 36 6, b := fld w 30 6, c := fld w 24 6, fin := bitAt w 21 }

/-- Fields of the Bk form. -/
def decBk (w : BitVec 64) : FBk :=
  { kind := bitAt w 29, idx := fld w 23 6 }

/-- Fields of the BkPol form. -/
def decBkPol (w : BitVec 64) : FBkPol :=
  { pol := fld w 34 2, kind := bitAt w 29, idx := fld w 23 6 }

/-- Fields of the BkD form. -/
def decBkD (w : BitVec 64) : FBkD :=
  { d := fld w 42 6, kind := bitAt w 29, idx := fld w 23 6 }

/-- Fields of the Gu form. -/
def decGu (w : BitVec 64) : FGu :=
  { a := fld w 36 6, idx := fld w 24 6, n := fld w 12 12 }

/-- Fields of the GuD form. -/
def decGuD (w : BitVec 64) : FGuD :=
  { d := fld w 42 6, idx := fld w 24 6 }

/-- Fields of the GuI form. -/
def decGuI (w : BitVec 64) : FGuI :=
  { idx := fld w 24 6 }

/-- Fields of the CsrD form. -/
def decCsrD (w : BitVec 64) : FCsrD :=
  { d := fld w 42 6, csr := fld w 0 12 }

/-- Fields of the CsrA form. -/
def decCsrA (w : BitVec 64) : FCsrA :=
  { a := fld w 36 6, csr := fld w 0 12 }

/-- Fields of the CsrDA form. -/
def decCsrDA (w : BitVec 64) : FCsrDA :=
  { d := fld w 42 6, a := fld w 36 6, csr := fld w 0 12 }

/-- Fields of the DAfw form. -/
def decDAfw (w : BitVec 64) : FDAfw :=
  { d := fld w 42 6, a := fld w 36 6 }

/-- Fields of the ScAB form. -/
def decScAB (w : BitVec 64) : FScAB :=
  { scope := fld w 48 3, a := fld w 36 6, b := fld w 30 6 }

/-- Fields of the ChA form. -/
def decChA (w : BitVec 64) : FChA :=
  { a := fld w 36 6, ch := fld w 0 3 }

/-- Fields of the Ch form. -/
def decCh (w : BitVec 64) : FCh :=
  { ch := fld w 0 3 }

/-- Fields of the ChD form. -/
def decChD (w : BitVec 64) : FChD :=
  { d := fld w 42 6, ch := fld w 0 3 }

/-- Fields of the ChAB form. -/
def decChAB (w : BitVec 64) : FChAB :=
  { a := fld w 36 6, b := fld w 30 6, ch := fld w 0 3 }

/-- Fields of the Cpf form. -/
def decCpf (w : BitVec 64) : FCpf :=
  { scope := fld w 48 3, a := fld w 36 6, b := fld w 30 6, c := fld w 24 6, val := fld w 0 24 }

/-- Fields of the CsrG form. -/
def decCsrG (w : BitVec 64) : FCsrG :=
  { a := fld w 36 6, n := fld w 0 4 }

/-- Fields of the CsrL form. -/
def decCsrL (w : BitVec 64) : FCsrL :=
  { a := fld w 36 6, n := fld w 0 5 }

/-- Fields of the D1x form. -/
def decD1x (w : BitVec 64) : FD1x :=
  { d := fld w 42 6 }

/-- Fields of the A1x form. -/
def decA1x (w : BitVec 64) : FA1x :=
  { a := fld w 36 6 }

/-- Fields of the LN form. -/
def decLN (w : BitVec 64) : FLN :=
  { tok := decTok w, acq := bitAt w 47, rel := bitAt w 46, scope := fld w 43 3, line := decLine w 29, a := fld w 23 6, off := fld w 7 16, slu := bitAt w 6, param := fld w 0 6 }

/-- Fields of the SA form. -/
def decSA (w : BitVec 64) : FSA :=
  { tok := decTok w, acq := bitAt w 47, rel := bitAt w 46, scope := fld w 43 3, p := bitAt w 42, dir := bitAt w 41, idx := fld w 34 7, h := bitAt w 33, a := fld w 23 6, off := fld w 7 16, dt := fld w 2 5 }

/-- Fields of the XM form. -/
def decXM (w : BitVec 64) : FXM :=
  { tok := decTok w, p := bitAt w 47, line := decLine w 30, at_ := fld w 25 5, bt := fld w 20 5, nstep := fld w 12 8, param := fld w 0 12 }

/-- Fields of the V3 form. -/
def decV3 (w : BitVec 64) : FV3 :=
  { tok := decTok w, dst := decDLine w 35, src1 := decLine w 21, src2 := decLine w 7, et := fld w 4 3, sat := bitAt w 3, k := fld w 0 3 }

/-- Fields of the VCm form. -/
def decVCm (w : BitVec 64) : FVCm :=
  { tok := decTok w, kd := fld w 45 3, src1 := decLine w 21, src2 := decLine w 7, et := fld w 4 3, sat := bitAt w 3, k := fld w 0 3 }

/-- Fields of the VC form. -/
def decVC (w : BitVec 64) : FVC :=
  { tok := decTok w, dst := decDLine w 35, src := decLine w 21, dt := fld w 16 5, st := fld w 11 5, sat := bitAt w 3, k := fld w 0 3 }

/-- Fields of the VX form. -/
def decVX (w : BitVec 64) : FVX :=
  { tok := decTok w, line := decLine w 34, s := fld w 28 6, lane := fld w 22 6, et := fld w 4 3, k := fld w 0 3 }

/-- Fields of the VK form. -/
def decVK (w : BitVec 64) : FVK :=
  { tok := decTok w, kd := fld w 45 3, ka := fld w 42 3, kb := fld w 39 3, s := fld w 28 6 }

/-- Fields of the VA form. -/
def decVA (w : BitVec 64) : FVA :=
  { tok := decTok w, dst := decDLine w 35, p := bitAt w 34, dir := bitAt w 33, idx := fld w 26 7, h := bitAt w 25, dt := fld w 7 5, sat := bitAt w 3, k := fld w 0 3 }

/-- Opcodes of class 0x0 (R146). -/
def decSaluOp (w : BitVec 64) (op : Nat) : Option Instr :=
  match op with
  | 0x00 => some .nop
  | 0x01 => some (.add (decR3 w))
  | 0x02 => some (.sub (decR3 w))
  | 0x03 => some (.mul (decR3 w))
  | 0x04 => some (.mulh (decR3 w))
  | 0x05 => some (.mulhn (decR3 w))
  | 0x06 => some (.div (decR3 w))
  | 0x07 => some (.divn (decR3 w))
  | 0x08 => some (.rem (decR3 w))
  | 0x09 => some (.remn (decR3 w))
  | 0x10 => some (.and (decR3 w))
  | 0x11 => some (.or (decR3 w))
  | 0x12 => some (.xor (decR3 w))
  | 0x13 => some (.andn (decR3 w))
  | 0x14 => some (.shl (decR3 w))
  | 0x15 => some (.shr (decR3 w))
  | 0x16 => some (.shra (decR3 w))
  | 0x17 => some (.rotl (decR3 w))
  | 0x18 => some (.clz (decR2 w))
  | 0x19 => some (.ctz (decR2 w))
  | 0x1A => some (.popc (decR2 w))
  | 0x1B => some (.sext (decR2L w))
  | 0x1C => some (.zext (decR2L w))
  | 0x20 => some (.min (decR3 w))
  | 0x21 => some (.max (decR3 w))
  | 0x22 => some (.minn (decR3 w))
  | 0x23 => some (.maxn (decR3 w))
  | 0x24 => some (.seteq (decR3 w))
  | 0x25 => some (.setlt (decR3 w))
  | 0x26 => some (.setltn (decR3 w))
  | 0x27 => some (.csel (decR4 w))
  | 0x28 => some (.addsh (decR3L w))
  | 0x29 => some (.bfx (decR2PL w))
  | 0x2A => some (.bfi (decR2PL w))
  | 0x30 => some (.pois (decR2 w))
  | 0x31 => some (.unpois (decR2 w))
  | 0x32 => some (.chash (decR4 w))
  | 0x40 => some (.addi (decRI w))
  | 0x41 => some (.andi (decRI w))
  | 0x42 => some (.ori (decRI w))
  | 0x43 => some (.xori (decRI w))
  | 0x44 => some (.shli (decRI w))
  | 0x45 => some (.shri (decRI w))
  | 0x46 => some (.shrai (decRI w))
  | 0x47 => some (.li (decRI1 w))
  | 0x48 => some (.lih (decRI w))
  | _ => none

/-- Opcodes of class 0x1 (R146). -/
def decCtrlOp (w : BitVec 64) (op : Nat) : Option Instr :=
  match op with
  | 0x00 => some (.j (decOff w))
  | 0x01 => some (.jl (decDOff w))
  | 0x02 => some (.jr (decAImm w))
  | 0x03 => some (.jlr (decDAImm w))
  | 0x04 => some (.beq (decABOff w))
  | 0x05 => some (.bne (decABOff w))
  | 0x06 => some (.blt (decABOff w))
  | 0x07 => some (.bge (decABOff w))
  | 0x08 => some (.bltn (decABOff w))
  | 0x09 => some (.bgen (decABOff w))
  | 0x0A => some (.loop (decAOff w))
  | 0x10 => some .halt
  | 0x11 => some .yield
  | 0x12 => some .beat
  | 0x13 => some (.brk (decImm w))
  | 0x18 => some (.time (decD1 w))
  | 0x19 => some (.vcyc (decD1 w))
  | 0x1A => some (.waitt (decA1 w))
  | 0x20 => some (.qpop (decQPop w))
  | 0x21 => some (.qpush (decQPush w))
  | 0x22 => some (.qbind (decQBind w))
  | 0x28 => some (.spawn (decDAB w))
  | 0x29 => some (.phase (decPhase w))
  | 0x30 => some (.tkgive (decTk w))
  | 0x31 => some (.tktake (decTk w))
  | _ => none

/-- ATOM by OPX (R140): OPX 9 to 15 name no operation. They read here as the OPX 8 form, whose
encoding differs from the word, so that `decode` reports a reserved field. -/
def decAtom (w : BitVec 64) : Option Instr :=
  let f := decMAt w
  match (fld w 24 4).toNat with
  | 0 => some (.atomAdd f)
  | 1 => some (.atomAnd f)
  | 2 => some (.atomOr f)
  | 3 => some (.atomXor f)
  | 4 => some (.atomMin f)
  | 5 => some (.atomMax f)
  | 6 => some (.atomMinn f)
  | 7 => some (.atomMaxn f)
  | _ => some (.atomSwap f)

/-- FWCALL by service number (R326). A service's variants by OP of its argument block share one word;
the step resolves them (`resolve`). An unknown service reads as the identity form, which keeps IMM. -/
def decFwcall (w : BitVec 64) : Instr :=
  match (fld w 0 36).toNat with
  | 1 => .fwcallMeasurementLog (decDAfw w)
  | 2 => .fwcallQuote (decDAfw w)
  | 3 => .fwcallRepairMap (decDAfw w)
  | 4 => .stage2Map (decDAfw w)
  | 5 => .pageRetirement (decDAfw w)
  | 6 => .windowDeclare (decDAfw w)
  | _ => .fwcallIdentity (decDAImm w)

/-- CSRR: the two read-and-clear registers have rows of their own (R283, R311). -/
def decCsrr (w : BitVec 64) : Instr :=
  match (fld w 0 12).toNat with
  | 0x00D => .cpfstatRead (decD1x w)
  | 0x303 => .sevlostRead (decD1x w)
  | _ => .csrr (decCsrD w)

/-- CSRW: GCFGn, LBDn and SEVBASE have rows of their own (R90, R94, R311). -/
def decCsrw (w : BitVec 64) : Instr :=
  if (fld w 4 8) = 0x01#8 then .gcfgWrite (decCsrG w)
  else if (fld w 5 7) = 0x01#7 then .lbdWrite (decCsrL w)
  else if (fld w 0 12) = 0x300#12 then .sevbaseWrite (decA1x w)
  else .csrw (decCsrA w)

/-- Opcodes of class 0x2 (R146). -/
def decMemOp (w : BitVec 64) (op : Nat) : Option Instr :=
  match op with
  | 0x00 => some (.ld (decMLd w))
  | 0x01 => some (.lds (decMLd w))
  | 0x02 => some (.st (decMSt w))
  | 0x03 => some (.ldl (decMLd w))
  | 0x04 => some (.stl (decMSt w))
  | 0x08 => decAtom w
  | 0x09 => some (.cas (decMAt w))
  | 0x10 => some (.csig (decMCs w))
  | 0x11 => some (.cwait (decMCs w))
  | 0x12 => some (.cread (decMCr w))
  | 0x13 => some (.fence (decSc w))
  | 0x14 => some (.bind (decDABC w))
  | 0x15 => some (.unbind (decDAC w))
  | 0x20 => some (.vregion (decDAImm w))
  | 0x21 => some (.vld (decVLd w))
  | 0x22 => some (.vlds (decVLds w))
  | 0x23 => some (.vst (decVSt w))
  | 0x24 => some (.vsts (decVSts w))
  | 0x25 => some (.vfloor (decAB w))
  | 0x26 => some (.vnewest (decDA w))
  | 0x30 => some (.bpol (decBkPol w))
  | 0x31 => some (.bwake (decBk w))
  | 0x32 => some (.bdrop (decBk w))
  | 0x33 => some (.bstate (decBkD w))
  | 0x38 => some (.gwait (decGu w))
  | 0x39 => some (.grel (decGu w))
  | 0x3A => some (.gstat (decGuD w))
  | 0x3B => some (.lbfree (decGuI w))
  | 0x3C => some (.lbusy (decGuD w))
  | _ => none

/-- Opcodes of class 0x3 (R146). -/
def decSysOp (w : BitVec 64) (op : Nat) : Option Instr :=
  match op with
  | 0x00 => some (decCsrr w)
  | 0x01 => some (decCsrw w)
  | 0x02 => some (.csrs (decCsrDA w))
  | 0x03 => some (.csrc (decCsrDA w))
  | 0x08 => some (.ecall (decImm w))
  | 0x09 => some .tret
  | 0x0A => some .sret
  | 0x0B => some (decFwcall w)
  | 0x10 => some (.tspill (decBk w))
  | 0x11 => some (.tfill (decBk w))
  | 0x12 => some (.ctxsave (decDA w))
  | 0x13 => some (.ctxload (decDA w))
  | 0x18 => some (.tlbinv (decScAB w))
  | 0x19 => some (.zerorange (decAB w))
  | 0x1A => some .psync
  | 0x1B => some (.wdog (decA1 w))
  | 0x1C => some (.dlvl (decAB w))
  | 0x1D => some (.cancel (decDAB w))
  | _ => none

/-- Opcodes of class 0x4 (R146). -/
def decLOp (w : BitVec 64) (op : Nat) : Option Instr :=
  match op with
  | 0x00 => some (.lline (decLN w))
  | 0x01 => some (.ltile (decLN w))
  | 0x02 => some (.ltrans (decLN w))
  | 0x03 => some (.lfeed (decLN w))
  | 0x04 => some (.lsetf (decLN w))
  | 0x05 => some (.lwgt (decLN w))
  | 0x06 => some (.lgath (decLN w))
  | 0x07 => some (.lmask (decLN w))
  | 0x08 => some (.lvc (decLN w))
  | 0x09 => some (.lzero (decLN w))
  | _ => none

/-- Opcodes of class 0x5 (R146). -/
def decXOp (w : BitVec 64) (op : Nat) : Option Instr :=
  match op with
  | 0x00 => some (.xmma (decXM w))
  | 0x01 => some (.xmmam (decXM w))
  | 0x02 => some (.xspmm (decXM w))
  | 0x03 => some (.xswap (decXM w))
  | 0x04 => some (.xshape (decXM w))
  | 0x05 => some (.xclr (decXM w))
  | 0x06 => some (.xbias (decXM w))
  | _ => none

/-- Opcodes of class 0x6 (R146). -/
def decVOp (w : BitVec 64) (op : Nat) : Option Instr :=
  match op with
  | 0x00 => some (.vadd (decV3 w))
  | 0x01 => some (.vsub (decV3 w))
  | 0x02 => some (.vmul (decV3 w))
  | 0x03 => some (.vfma (decV3 w))
  | 0x04 => some (.vfms (decV3 w))
  | 0x05 => some (.vfnma (decV3 w))
  | 0x06 => some (.vmin (decV3 w))
  | 0x07 => some (.vmax (decV3 w))
  | 0x08 => some (.vabs (decV3 w))
  | 0x09 => some (.vneg (decV3 w))
  | 0x10 => some (.vand (decV3 w))
  | 0x11 => some (.vor (decV3 w))
  | 0x12 => some (.vxor (decV3 w))
  | 0x13 => some (.vnot (decV3 w))
  | 0x14 => some (.vshl (decV3 w))
  | 0x15 => some (.vshr (decV3 w))
  | 0x16 => some (.vshra (decV3 w))
  | 0x17 => some (.vrsh (decV3 w))
  | 0x20 => some (.vcmpeq (decVCm w))
  | 0x21 => some (.vcmpne (decVCm w))
  | 0x22 => some (.vcmplt (decVCm w))
  | 0x23 => some (.vcmple (decVCm w))
  | 0x24 => some (.vsel (decV3 w))
  | 0x28 => some (.vcvt (decVC w))
  | 0x30 => some (.vexp2 (decV3 w))
  | 0x31 => some (.vlog2 (decV3 w))
  | 0x32 => some (.vrcp (decV3 w))
  | 0x33 => some (.vrsq (decV3 w))
  | 0x34 => some (.vtanh (decV3 w))
  | 0x38 => some (.vredsum (decV3 w))
  | 0x39 => some (.vredmax (decV3 w))
  | 0x3A => some (.vredmin (decV3 w))
  | 0x3B => some (.vscanadd (decV3 w))
  | 0x40 => some (.vbcast (decVX w))
  | 0x41 => some (.vmov (decV3 w))
  | 0x42 => some (.vperm (decV3 w))
  | 0x43 => some (.viota (decV3 w))
  | 0x44 => some (.vgets (decVX w))
  | 0x45 => some (.vsets (decVX w))
  | 0x48 => some (.vkand (decVK w))
  | 0x49 => some (.vkor (decVK w))
  | 0x4A => some (.vkxor (decVK w))
  | 0x4B => some (.vknot (decVK w))
  | 0x4C => some (.vkpopc (decVK w))
  | 0x4D => some (.vkfirst (decVK w))
  | 0x50 => some (.vacc (decVA w))
  | 0x51 => some (.vpois (decV3 w))
  | 0x52 => some (.vhash (decV3 w))
  | _ => none

/-- Opcodes of class 0x7 (R146). -/
def decSOp (w : BitVec 64) (op : Nat) : Option Instr :=
  match op with
  | 0x00 => some (.sline (decLN w))
  | 0x01 => some (.stile (decLN w))
  | 0x02 => some (.strans (decLN w))
  | 0x03 => some (.sacc (decSA w))
  | _ => none

/-- Opcodes of class 0x8 (R146). -/
def decCOp (w : BitVec 64) (op : Nat) : Option Instr :=
  match op with
  | 0x00 => some (.ckick (decChA w))
  | 0x01 => some (.cstop (decCh w))
  | 0x02 => some (.cstat (decChD w))
  | 0x03 => some (.cpfl2 (decCpf w))
  | 0x04 => some (.czero (decChAB w))
  | 0x05 => some (.cwaitch (decCh w))
  | _ => none

/-- Opcodes of class 0x9 (R146). -/
def decNOp (w : BitVec 64) (op : Nat) : Option Instr :=
  match op with
  | 0x00 => some (.nsend (decDABC w))
  | 0x01 => some (.nstat (decDA w))
  | _ => none

/-- The instruction a word's class and opcode name, whatever its reserved bits hold; none where R144
check 1 finds no instruction. -/
def rawDecode (w : BitVec 64) : Option Instr :=
  let op := (fld w 52 8).toNat
  match (fld w 60 4).toNat with
  | 0 => decSaluOp w op
  | 1 => decCtrlOp w op
  | 2 => decMemOp w op
  | 3 => decSysOp w op
  | 4 => decLOp w op
  | 5 => decXOp w op
  | 6 => decVOp w op
  | 7 => decSOp w op
  | 8 => decCOp w op
  | 9 => decNOp w op
  | _ => none

/-! ### The encoder -/

/-- A tile-line operand as 14 bits. -/
def encLine (l : Line) : BitVec 14 :=
  l.tile ++ l.dir ++ BitVec.ofBool l.fromReg ++ l.idx ++ BitVec.ofBool l.last

/-- A destination line as 13 bits. -/
def encDLine (l : DLine) : BitVec 13 :=
  l.tile ++ l.dir ++ BitVec.ofBool l.fromReg ++ l.idx

/-- The token bits. (DEDUCED, log 46) -/
def encTok (t : Tok) : BitVec 4 :=
  BitVec.ofBool t.wl ++ BitVec.ofBool t.wr ++ BitVec.ofBool t.gl ++ BitVec.ofBool t.gr

/-- A word of the R3 form. -/
def encR3 (cls : BitVec 4) (op : BitVec 8) (f : FR3) : BitVec 64 :=
  cls ++ op ++ BitVec.ofBool f.sp ++ 0#3 ++ f.d ++ f.a ++ f.b ++ 0#30

/-- A word of the R2 form. -/
def encR2 (cls : BitVec 4) (op : BitVec 8) (f : FR2) : BitVec 64 :=
  cls ++ op ++ BitVec.ofBool f.sp ++ 0#3 ++ f.d ++ f.a ++ 0#36

/-- A word of the R2L form. -/
def encR2L (cls : BitVec 4) (op : BitVec 8) (f : FR2L) : BitVec 64 :=
  cls ++ op ++ BitVec.ofBool f.sp ++ 0#3 ++ f.d ++ f.a ++ 0#30 ++ f.len

/-- A word of the R3L form. -/
def encR3L (cls : BitVec 4) (op : BitVec 8) (f : FR3L) : BitVec 64 :=
  cls ++ op ++ BitVec.ofBool f.sp ++ 0#3 ++ f.d ++ f.a ++ f.b ++ 0#24 ++ f.len

/-- A word of the R2PL form. -/
def encR2PL (cls : BitVec 4) (op : BitVec 8) (f : FR2PL) : BitVec 64 :=
  cls ++ op ++ BitVec.ofBool f.sp ++ 0#3 ++ f.d ++ f.a ++ 0#24 ++ f.pos ++ f.len

/-- A word of the R4 form. -/
def encR4 (cls : BitVec 4) (op : BitVec 8) (f : FR4) : BitVec 64 :=
  cls ++ op ++ BitVec.ofBool f.sp ++ 0#3 ++ f.d ++ f.a ++ f.b ++ f.c ++ 0#24

/-- A word of the RI form. -/
def encRI (cls : BitVec 4) (op : BitVec 8) (f : FRI) : BitVec 64 :=
  cls ++ op ++ BitVec.ofBool f.sp ++ 0#3 ++ f.d ++ f.a ++ f.imm

/-- A word of the RI1 form. -/
def encRI1 (cls : BitVec 4) (op : BitVec 8) (f : FRI1) : BitVec 64 :=
  cls ++ op ++ BitVec.ofBool f.sp ++ 0#3 ++ f.d ++ 0#6 ++ f.imm

/-- A word of the Off form. -/
def encOff (cls : BitVec 4) (op : BitVec 8) (f : FOff) : BitVec 64 :=
  cls ++ op ++ 0#4 ++ 0#18 ++ f.off

/-- A word of the DOff form. -/
def encDOff (cls : BitVec 4) (op : BitVec 8) (f : FDOff) : BitVec 64 :=
  cls ++ op ++ 0#4 ++ f.d ++ 0#12 ++ f.off

/-- A word of the AImm form. -/
def encAImm (cls : BitVec 4) (op : BitVec 8) (f : FAImm) : BitVec 64 :=
  cls ++ op ++ 0#4 ++ 0#6 ++ f.a ++ f.imm

/-- A word of the DAImm form. -/
def encDAImm (cls : BitVec 4) (op : BitVec 8) (f : FDAImm) : BitVec 64 :=
  cls ++ op ++ 0#4 ++ f.d ++ f.a ++ f.imm

/-- A word of the ABOff form. -/
def encABOff (cls : BitVec 4) (op : BitVec 8) (f : FABOff) : BitVec 64 :=
  cls ++ op ++ 0#4 ++ 0#6 ++ f.a ++ f.b ++ f.off

/-- A word of the AOff form. -/
def encAOff (cls : BitVec 4) (op : BitVec 8) (f : FAOff) : BitVec 64 :=
  cls ++ op ++ 0#4 ++ 0#6 ++ f.a ++ 0#6 ++ f.off

/-- A word of the Imm form. -/
def encImm (cls : BitVec 4) (op : BitVec 8) (f : FImm) : BitVec 64 :=
  cls ++ op ++ 0#4 ++ 0#12 ++ f.imm

/-- A word of the D1 form. -/
def encD1 (cls : BitVec 4) (op : BitVec 8) (f : FD1) : BitVec 64 :=
  cls ++ op ++ 0#4 ++ f.d ++ 0#42

/-- A word of the A1 form. -/
def encA1 (cls : BitVec 4) (op : BitVec 8) (f : FA1) : BitVec 64 :=
  cls ++ op ++ 0#4 ++ 0#6 ++ f.a ++ 0#36

/-- A word of the DA form. -/
def encDA (cls : BitVec 4) (op : BitVec 8) (f : FDA) : BitVec 64 :=
  cls ++ op ++ 0#4 ++ f.d ++ f.a ++ 0#36

/-- A word of the AB form. -/
def encAB (cls : BitVec 4) (op : BitVec 8) (f : FAB) : BitVec 64 :=
  cls ++ op ++ 0#4 ++ 0#6 ++ f.a ++ f.b ++ 0#30

/-- A word of the DAB form. -/
def encDAB (cls : BitVec 4) (op : BitVec 8) (f : FDAB) : BitVec 64 :=
  cls ++ op ++ 0#4 ++ f.d ++ f.a ++ f.b ++ 0#30

/-- A word of the DABC form. -/
def encDABC (cls : BitVec 4) (op : BitVec 8) (f : FDABC) : BitVec 64 :=
  cls ++ op ++ 0#4 ++ f.d ++ f.a ++ f.b ++ f.c ++ 0#24

/-- A word of the DAC form. -/
def encDAC (cls : BitVec 4) (op : BitVec 8) (f : FDAC) : BitVec 64 :=
  cls ++ op ++ 0#4 ++ f.d ++ f.a ++ 0#6 ++ f.c ++ 0#24

/-- A word of the QPop form. -/
def encQPop (cls : BitVec 4) (op : BitVec 8) (f : FQPop) : BitVec 64 :=
  cls ++ op ++ 0#1 ++ f.scope ++ f.d ++ f.a ++ 0#35 ++ BitVec.ofBool f.tryF

/-- A word of the QPush form. -/
def encQPush (cls : BitVec 4) (op : BitVec 8) (f : FQPush) : BitVec 64 :=
  cls ++ op ++ 0#1 ++ f.scope ++ f.d ++ f.a ++ f.b ++ 0#29 ++ BitVec.ofBool f.tryF

/-- A word of the QBind form. -/
def encQBind (cls : BitVec 4) (op : BitVec 8) (f : FQBind) : BitVec 64 :=
  cls ++ op ++ 0#1 ++ f.scope ++ 0#6 ++ f.a ++ 0#33 ++ BitVec.ofBool f.unb ++ f.q

/-- A word of the Phase form. -/
def encPhase (cls : BitVec 4) (op : BitVec 8) (f : FPhase) : BitVec 64 :=
  cls ++ op ++ 0#4 ++ f.d ++ 0#40 ++ BitVec.ofBool f.tag ++ BitVec.ofBool f.wait

/-- A word of the Tk form. -/
def encTk (cls : BitVec 4) (op : BitVec 8) (f : FTk) : BitVec 64 :=
  cls ++ op ++ 0#4 ++ 0#44 ++ f.n

/-- A word of the MLd form. -/
def encMLd (cls : BitVec 4) (op : BitVec 8) (f : FMLd) : BitVec 64 :=
  cls ++ op ++ BitVec.ofBool f.sp ++ 0#3 ++ f.d ++ f.a ++ 0#6 ++ f.w ++ 0#4 ++ f.off

/-- A word of the MSt form. -/
def encMSt (cls : BitVec 4) (op : BitVec 8) (f : FMSt) : BitVec 64 :=
  cls ++ op ++ 0#4 ++ 0#6 ++ f.a ++ f.b ++ f.w ++ 0#4 ++ f.off

/-- A word of the MAt form. -/
def encMAt (cls : BitVec 4) (op : BitVec 8) (k : BitVec 4) (f : FMAt) : BitVec 64 :=
  cls ++ op ++ 0#1 ++ f.scope ++ f.d ++ f.a ++ f.b ++ f.w ++ k ++ f.off

/-- A word of the MCs form. -/
def encMCs (cls : BitVec 4) (op : BitVec 8) (f : FMCs) : BitVec 64 :=
  cls ++ op ++ 0#1 ++ f.scope ++ 0#6 ++ f.a ++ f.b ++ 0#6 ++ f.off

/-- A word of the MCr form. -/
def encMCr (cls : BitVec 4) (op : BitVec 8) (f : FMCr) : BitVec 64 :=
  cls ++ op ++ 0#1 ++ f.scope ++ f.d ++ f.a ++ 0#12 ++ f.off

/-- A word of the Sc form. -/
def encSc (cls : BitVec 4) (op : BitVec 8) (f : FSc) : BitVec 64 :=
  cls ++ op ++ 0#1 ++ f.scope ++ 0#48

/-- A word of the VLd form. -/
def encVLd (cls : BitVec 4) (op : BitVec 8) (f : FVLd) : BitVec 64 :=
  cls ++ op ++ BitVec.ofBool f.sp ++ f.scope ++ f.d ++
    f.a ++ f.b ++ f.mode ++ encLine f.line ++ 0#14

/-- A word of the VLds form. -/
def encVLds (cls : BitVec 4) (op : BitVec 8) (f : FVLds) : BitVec 64 :=
  cls ++ op ++ BitVec.ofBool f.sp ++ f.scope ++ f.d ++ f.a ++ f.b ++ f.c ++ f.mode ++ 0#22

/-- A word of the VSt form. -/
def encVSt (cls : BitVec 4) (op : BitVec 8) (f : FVSt) : BitVec 64 :=
  cls ++ op ++ 0#1 ++ f.scope ++ 0#6 ++ f.a ++ f.b ++ 0#2 ++ encLine f.line ++ 0#14

/-- A word of the VSts form. -/
def encVSts (cls : BitVec 4) (op : BitVec 8) (f : FVSts) : BitVec 64 :=
  cls ++ op ++ 0#1 ++ f.scope ++ 0#6 ++
    f.a ++ f.b ++ f.c ++ 0#2 ++ BitVec.ofBool f.fin ++ 0#21

/-- A word of the Bk form. -/
def encBk (cls : BitVec 4) (op : BitVec 8) (f : FBk) : BitVec 64 :=
  cls ++ op ++ 0#4 ++ 0#18 ++ BitVec.ofBool f.kind ++ f.idx ++ 0#23

/-- A word of the BkPol form. -/
def encBkPol (cls : BitVec 4) (op : BitVec 8) (f : FBkPol) : BitVec 64 :=
  cls ++ op ++ 0#4 ++ 0#12 ++ f.pol ++ 0#4 ++ BitVec.ofBool f.kind ++ f.idx ++ 0#23

/-- A word of the BkD form. -/
def encBkD (cls : BitVec 4) (op : BitVec 8) (f : FBkD) : BitVec 64 :=
  cls ++ op ++ 0#4 ++ f.d ++ 0#12 ++ BitVec.ofBool f.kind ++ f.idx ++ 0#23

/-- A word of the Gu form. -/
def encGu (cls : BitVec 4) (op : BitVec 8) (f : FGu) : BitVec 64 :=
  cls ++ op ++ 0#4 ++ 0#6 ++ f.a ++ 0#6 ++ f.idx ++ f.n ++ 0#12

/-- A word of the GuD form. -/
def encGuD (cls : BitVec 4) (op : BitVec 8) (f : FGuD) : BitVec 64 :=
  cls ++ op ++ 0#4 ++ f.d ++ 0#12 ++ f.idx ++ 0#24

/-- A word of the GuI form. -/
def encGuI (cls : BitVec 4) (op : BitVec 8) (f : FGuI) : BitVec 64 :=
  cls ++ op ++ 0#4 ++ 0#18 ++ f.idx ++ 0#24

/-- A word of the CsrD form. -/
def encCsrD (cls : BitVec 4) (op : BitVec 8) (f : FCsrD) : BitVec 64 :=
  cls ++ op ++ 0#4 ++ f.d ++ 0#30 ++ f.csr

/-- A word of the CsrA form. -/
def encCsrA (cls : BitVec 4) (op : BitVec 8) (f : FCsrA) : BitVec 64 :=
  cls ++ op ++ 0#4 ++ 0#6 ++ f.a ++ 0#24 ++ f.csr

/-- A word of the CsrDA form. -/
def encCsrDA (cls : BitVec 4) (op : BitVec 8) (f : FCsrDA) : BitVec 64 :=
  cls ++ op ++ 0#4 ++ f.d ++ f.a ++ 0#24 ++ f.csr

/-- A word of the DAfw form. -/
def encDAfw (cls : BitVec 4) (op : BitVec 8) (k : BitVec 36) (f : FDAfw) : BitVec 64 :=
  cls ++ op ++ 0#4 ++ f.d ++ f.a ++ k

/-- A word of the ScAB form. -/
def encScAB (cls : BitVec 4) (op : BitVec 8) (f : FScAB) : BitVec 64 :=
  cls ++ op ++ 0#1 ++ f.scope ++ 0#6 ++ f.a ++ f.b ++ 0#30

/-- A word of the ChA form. -/
def encChA (cls : BitVec 4) (op : BitVec 8) (f : FChA) : BitVec 64 :=
  cls ++ op ++ 0#4 ++ 0#6 ++ f.a ++ 0#33 ++ f.ch

/-- A word of the Ch form. -/
def encCh (cls : BitVec 4) (op : BitVec 8) (f : FCh) : BitVec 64 :=
  cls ++ op ++ 0#4 ++ 0#45 ++ f.ch

/-- A word of the ChD form. -/
def encChD (cls : BitVec 4) (op : BitVec 8) (f : FChD) : BitVec 64 :=
  cls ++ op ++ 0#4 ++ f.d ++ 0#39 ++ f.ch

/-- A word of the ChAB form. -/
def encChAB (cls : BitVec 4) (op : BitVec 8) (f : FChAB) : BitVec 64 :=
  cls ++ op ++ 0#4 ++ 0#6 ++ f.a ++ f.b ++ 0#27 ++ f.ch

/-- A word of the Cpf form. -/
def encCpf (cls : BitVec 4) (op : BitVec 8) (f : FCpf) : BitVec 64 :=
  cls ++ op ++ 0#1 ++ f.scope ++ 0#6 ++ f.a ++ f.b ++ f.c ++ f.val

/-- A word of the CsrG form. -/
def encCsrG (cls : BitVec 4) (op : BitVec 8) (f : FCsrG) : BitVec 64 :=
  cls ++ op ++ 0#4 ++ 0#6 ++ f.a ++ 0#24 ++ 0x01#8 ++ f.n

/-- A word of the CsrL form. -/
def encCsrL (cls : BitVec 4) (op : BitVec 8) (f : FCsrL) : BitVec 64 :=
  cls ++ op ++ 0#4 ++ 0#6 ++ f.a ++ 0#24 ++ 0x01#7 ++ f.n

/-- A word of the D1x form. -/
def encD1x (cls : BitVec 4) (op : BitVec 8) (k : BitVec 12) (f : FD1x) : BitVec 64 :=
  cls ++ op ++ 0#4 ++ f.d ++ 0#30 ++ k

/-- A word of the A1x form. -/
def encA1x (cls : BitVec 4) (op : BitVec 8) (k : BitVec 12) (f : FA1x) : BitVec 64 :=
  cls ++ op ++ 0#4 ++ 0#6 ++ f.a ++ 0#24 ++ k

/-- A word of the LN form. -/
def encLN (cls : BitVec 4) (op : BitVec 8) (f : FLN) : BitVec 64 :=
  cls ++ op ++ encTok f.tok ++ BitVec.ofBool f.acq ++ BitVec.ofBool f.rel ++
    f.scope ++ encLine f.line ++ f.a ++ f.off ++ BitVec.ofBool f.slu ++ f.param

/-- A word of the SA form. -/
def encSA (cls : BitVec 4) (op : BitVec 8) (f : FSA) : BitVec 64 :=
  cls ++ op ++ encTok f.tok ++ BitVec.ofBool f.acq ++ BitVec.ofBool f.rel ++ f.scope ++ BitVec.ofBool f.p ++
    BitVec.ofBool f.dir ++ f.idx ++ BitVec.ofBool f.h ++ 0#4 ++ f.a ++ f.off ++ f.dt ++ 0#2

/-- A word of the XM form. -/
def encXM (cls : BitVec 4) (op : BitVec 8) (f : FXM) : BitVec 64 :=
  cls ++ op ++ encTok f.tok ++ BitVec.ofBool f.p ++ 0#3 ++
    encLine f.line ++ f.at_ ++ f.bt ++ f.nstep ++ f.param

/-- A word of the V3 form. -/
def encV3 (cls : BitVec 4) (op : BitVec 8) (f : FV3) : BitVec 64 :=
  cls ++ op ++ encTok f.tok ++ encDLine f.dst ++
    encLine f.src1 ++ encLine f.src2 ++ f.et ++ BitVec.ofBool f.sat ++ f.k

/-- A word of the VCm form. -/
def encVCm (cls : BitVec 4) (op : BitVec 8) (f : FVCm) : BitVec 64 :=
  cls ++ op ++ encTok f.tok ++ f.kd ++ 0#10 ++
    encLine f.src1 ++ encLine f.src2 ++ f.et ++ BitVec.ofBool f.sat ++ f.k

/-- A word of the VC form. -/
def encVC (cls : BitVec 4) (op : BitVec 8) (f : FVC) : BitVec 64 :=
  cls ++ op ++ encTok f.tok ++ encDLine f.dst ++ encLine f.src ++
    f.dt ++ f.st ++ 0#7 ++ BitVec.ofBool f.sat ++ f.k

/-- A word of the VX form. -/
def encVX (cls : BitVec 4) (op : BitVec 8) (f : FVX) : BitVec 64 :=
  cls ++ op ++ encTok f.tok ++ encLine f.line ++ f.s ++
    f.lane ++ 0#15 ++ f.et ++ 0#1 ++ f.k

/-- A word of the VK form. -/
def encVK (cls : BitVec 4) (op : BitVec 8) (f : FVK) : BitVec 64 :=
  cls ++ op ++ encTok f.tok ++ f.kd ++ f.ka ++ f.kb ++ 0#5 ++ f.s ++ 0#28

/-- A word of the VA form. -/
def encVA (cls : BitVec 4) (op : BitVec 8) (f : FVA) : BitVec 64 :=
  cls ++ op ++ encTok f.tok ++ encDLine f.dst ++ BitVec.ofBool f.p ++ BitVec.ofBool f.dir ++
    f.idx ++ BitVec.ofBool f.h ++ 0#13 ++ f.dt ++ 0#3 ++ BitVec.ofBool f.sat ++ f.k

/-- The word of an instruction. An event has no word; it encodes as the all-ones word, whose class
names no instruction. -/
def encode : Instr → BitVec 64
  | .nop => 0x0#4 ++ 0x00#8 ++ 0#52
  | .add f => encR3 0x0#4 0x01#8 f
  | .sub f => encR3 0x0#4 0x02#8 f
  | .mul f => encR3 0x0#4 0x03#8 f
  | .mulh f => encR3 0x0#4 0x04#8 f
  | .mulhn f => encR3 0x0#4 0x05#8 f
  | .div f => encR3 0x0#4 0x06#8 f
  | .divn f => encR3 0x0#4 0x07#8 f
  | .rem f => encR3 0x0#4 0x08#8 f
  | .remn f => encR3 0x0#4 0x09#8 f
  | .and f => encR3 0x0#4 0x10#8 f
  | .or f => encR3 0x0#4 0x11#8 f
  | .xor f => encR3 0x0#4 0x12#8 f
  | .andn f => encR3 0x0#4 0x13#8 f
  | .shl f => encR3 0x0#4 0x14#8 f
  | .shr f => encR3 0x0#4 0x15#8 f
  | .shra f => encR3 0x0#4 0x16#8 f
  | .rotl f => encR3 0x0#4 0x17#8 f
  | .clz f => encR2 0x0#4 0x18#8 f
  | .ctz f => encR2 0x0#4 0x19#8 f
  | .popc f => encR2 0x0#4 0x1A#8 f
  | .sext f => encR2L 0x0#4 0x1B#8 f
  | .zext f => encR2L 0x0#4 0x1C#8 f
  | .min f => encR3 0x0#4 0x20#8 f
  | .max f => encR3 0x0#4 0x21#8 f
  | .minn f => encR3 0x0#4 0x22#8 f
  | .maxn f => encR3 0x0#4 0x23#8 f
  | .seteq f => encR3 0x0#4 0x24#8 f
  | .setlt f => encR3 0x0#4 0x25#8 f
  | .setltn f => encR3 0x0#4 0x26#8 f
  | .csel f => encR4 0x0#4 0x27#8 f
  | .addsh f => encR3L 0x0#4 0x28#8 f
  | .bfx f => encR2PL 0x0#4 0x29#8 f
  | .bfi f => encR2PL 0x0#4 0x2A#8 f
  | .pois f => encR2 0x0#4 0x30#8 f
  | .unpois f => encR2 0x0#4 0x31#8 f
  | .chash f => encR4 0x0#4 0x32#8 f
  | .addi f => encRI 0x0#4 0x40#8 f
  | .andi f => encRI 0x0#4 0x41#8 f
  | .ori f => encRI 0x0#4 0x42#8 f
  | .xori f => encRI 0x0#4 0x43#8 f
  | .shli f => encRI 0x0#4 0x44#8 f
  | .shri f => encRI 0x0#4 0x45#8 f
  | .shrai f => encRI 0x0#4 0x46#8 f
  | .li f => encRI1 0x0#4 0x47#8 f
  | .lih f => encRI 0x0#4 0x48#8 f
  | .j f => encOff 0x1#4 0x00#8 f
  | .jl f => encDOff 0x1#4 0x01#8 f
  | .jr f => encAImm 0x1#4 0x02#8 f
  | .jlr f => encDAImm 0x1#4 0x03#8 f
  | .beq f => encABOff 0x1#4 0x04#8 f
  | .bne f => encABOff 0x1#4 0x05#8 f
  | .blt f => encABOff 0x1#4 0x06#8 f
  | .bge f => encABOff 0x1#4 0x07#8 f
  | .bltn f => encABOff 0x1#4 0x08#8 f
  | .bgen f => encABOff 0x1#4 0x09#8 f
  | .loop f => encAOff 0x1#4 0x0A#8 f
  | .halt => 0x1#4 ++ 0x10#8 ++ 0#52
  | .yield => 0x1#4 ++ 0x11#8 ++ 0#52
  | .beat => 0x1#4 ++ 0x12#8 ++ 0#52
  | .brk f => encImm 0x1#4 0x13#8 f
  | .time f => encD1 0x1#4 0x18#8 f
  | .vcyc f => encD1 0x1#4 0x19#8 f
  | .waitt f => encA1 0x1#4 0x1A#8 f
  | .qpop f => encQPop 0x1#4 0x20#8 f
  | .qpush f => encQPush 0x1#4 0x21#8 f
  | .qbind f => encQBind 0x1#4 0x22#8 f
  | .spawn f => encDAB 0x1#4 0x28#8 f
  | .phase f => encPhase 0x1#4 0x29#8 f
  | .tkgive f => encTk 0x1#4 0x30#8 f
  | .tktake f => encTk 0x1#4 0x31#8 f
  | .ld f => encMLd 0x2#4 0x00#8 f
  | .lds f => encMLd 0x2#4 0x01#8 f
  | .st f => encMSt 0x2#4 0x02#8 f
  | .ldl f => encMLd 0x2#4 0x03#8 f
  | .stl f => encMSt 0x2#4 0x04#8 f
  | .atomAdd f => encMAt 0x2#4 0x08#8 0x0#4 f
  | .atomAnd f => encMAt 0x2#4 0x08#8 0x1#4 f
  | .atomOr f => encMAt 0x2#4 0x08#8 0x2#4 f
  | .atomXor f => encMAt 0x2#4 0x08#8 0x3#4 f
  | .atomMin f => encMAt 0x2#4 0x08#8 0x4#4 f
  | .atomMax f => encMAt 0x2#4 0x08#8 0x5#4 f
  | .atomMinn f => encMAt 0x2#4 0x08#8 0x6#4 f
  | .atomMaxn f => encMAt 0x2#4 0x08#8 0x7#4 f
  | .atomSwap f => encMAt 0x2#4 0x08#8 0x8#4 f
  | .cas f => encMAt 0x2#4 0x09#8 0x0#4 f
  | .csig f => encMCs 0x2#4 0x10#8 f
  | .cwait f => encMCs 0x2#4 0x11#8 f
  | .cread f => encMCr 0x2#4 0x12#8 f
  | .fence f => encSc 0x2#4 0x13#8 f
  | .bind f => encDABC 0x2#4 0x14#8 f
  | .unbind f => encDAC 0x2#4 0x15#8 f
  | .vregion f => encDAImm 0x2#4 0x20#8 f
  | .vld f => encVLd 0x2#4 0x21#8 f
  | .vlds f => encVLds 0x2#4 0x22#8 f
  | .vst f => encVSt 0x2#4 0x23#8 f
  | .vsts f => encVSts 0x2#4 0x24#8 f
  | .vfloor f => encAB 0x2#4 0x25#8 f
  | .vnewest f => encDA 0x2#4 0x26#8 f
  | .bpol f => encBkPol 0x2#4 0x30#8 f
  | .bwake f => encBk 0x2#4 0x31#8 f
  | .bdrop f => encBk 0x2#4 0x32#8 f
  | .bstate f => encBkD 0x2#4 0x33#8 f
  | .gwait f => encGu 0x2#4 0x38#8 f
  | .grel f => encGu 0x2#4 0x39#8 f
  | .gstat f => encGuD 0x2#4 0x3A#8 f
  | .lbfree f => encGuI 0x2#4 0x3B#8 f
  | .lbusy f => encGuD 0x2#4 0x3C#8 f
  | .csrr f => encCsrD 0x3#4 0x00#8 f
  | .csrw f => encCsrA 0x3#4 0x01#8 f
  | .csrs f => encCsrDA 0x3#4 0x02#8 f
  | .csrc f => encCsrDA 0x3#4 0x03#8 f
  | .ecall f => encImm 0x3#4 0x08#8 f
  | .tret => 0x3#4 ++ 0x09#8 ++ 0#52
  | .sret => 0x3#4 ++ 0x0A#8 ++ 0#52
  | .fwcallIdentity f => encDAImm 0x3#4 0x0B#8 f
  | .fwcallMeasurementLog f => encDAfw 0x3#4 0x0B#8 0x1#36 f
  | .fwcallQuote f => encDAfw 0x3#4 0x0B#8 0x2#36 f
  | .fwcallRepairMap f => encDAfw 0x3#4 0x0B#8 0x3#36 f
  | .stage2Map f => encDAfw 0x3#4 0x0B#8 0x4#36 f
  | .stage2Unmap f => encDAfw 0x3#4 0x0B#8 0x4#36 f
  | .moveToTier1 f => encDAfw 0x3#4 0x0B#8 0x4#36 f
  | .moveToTier2 f => encDAfw 0x3#4 0x0B#8 0x4#36 f
  | .setPermissions f => encDAfw 0x3#4 0x0B#8 0x4#36 f
  | .pageRetirement f => encDAfw 0x3#4 0x0B#8 0x5#36 f
  | .windowDeclare f => encDAfw 0x3#4 0x0B#8 0x6#36 f
  | .windowRemove f => encDAfw 0x3#4 0x0B#8 0x6#36 f
  | .tspill f => encBk 0x3#4 0x10#8 f
  | .tfill f => encBk 0x3#4 0x11#8 f
  | .ctxsave f => encDA 0x3#4 0x12#8 f
  | .ctxload f => encDA 0x3#4 0x13#8 f
  | .tlbinv f => encScAB 0x3#4 0x18#8 f
  | .zerorange f => encAB 0x3#4 0x19#8 f
  | .psync => 0x3#4 ++ 0x1A#8 ++ 0#52
  | .wdog f => encA1 0x3#4 0x1B#8 f
  | .dlvl f => encAB 0x3#4 0x1C#8 f
  | .cancel f => encDAB 0x3#4 0x1D#8 f
  | .cancelClear f => encDAB 0x3#4 0x1D#8 f
  | .lline f => encLN 0x4#4 0x00#8 f
  | .ltile f => encLN 0x4#4 0x01#8 f
  | .ltrans f => encLN 0x4#4 0x02#8 f
  | .lfeed f => encLN 0x4#4 0x03#8 f
  | .lsetf f => encLN 0x4#4 0x04#8 f
  | .lwgt f => encLN 0x4#4 0x05#8 f
  | .lgath f => encLN 0x4#4 0x06#8 f
  | .lmask f => encLN 0x4#4 0x07#8 f
  | .lvc f => encLN 0x4#4 0x08#8 f
  | .lzero f => encLN 0x4#4 0x09#8 f
  | .xmma f => encXM 0x5#4 0x00#8 f
  | .xmmam f => encXM 0x5#4 0x01#8 f
  | .xspmm f => encXM 0x5#4 0x02#8 f
  | .xswap f => encXM 0x5#4 0x03#8 f
  | .xshape f => encXM 0x5#4 0x04#8 f
  | .xclr f => encXM 0x5#4 0x05#8 f
  | .xbias f => encXM 0x5#4 0x06#8 f
  | .vadd f => encV3 0x6#4 0x00#8 f
  | .vsub f => encV3 0x6#4 0x01#8 f
  | .vmul f => encV3 0x6#4 0x02#8 f
  | .vfma f => encV3 0x6#4 0x03#8 f
  | .vfms f => encV3 0x6#4 0x04#8 f
  | .vfnma f => encV3 0x6#4 0x05#8 f
  | .vmin f => encV3 0x6#4 0x06#8 f
  | .vmax f => encV3 0x6#4 0x07#8 f
  | .vabs f => encV3 0x6#4 0x08#8 f
  | .vneg f => encV3 0x6#4 0x09#8 f
  | .vand f => encV3 0x6#4 0x10#8 f
  | .vor f => encV3 0x6#4 0x11#8 f
  | .vxor f => encV3 0x6#4 0x12#8 f
  | .vnot f => encV3 0x6#4 0x13#8 f
  | .vshl f => encV3 0x6#4 0x14#8 f
  | .vshr f => encV3 0x6#4 0x15#8 f
  | .vshra f => encV3 0x6#4 0x16#8 f
  | .vrsh f => encV3 0x6#4 0x17#8 f
  | .vcmpeq f => encVCm 0x6#4 0x20#8 f
  | .vcmpne f => encVCm 0x6#4 0x21#8 f
  | .vcmplt f => encVCm 0x6#4 0x22#8 f
  | .vcmple f => encVCm 0x6#4 0x23#8 f
  | .vsel f => encV3 0x6#4 0x24#8 f
  | .vcvt f => encVC 0x6#4 0x28#8 f
  | .vexp2 f => encV3 0x6#4 0x30#8 f
  | .vlog2 f => encV3 0x6#4 0x31#8 f
  | .vrcp f => encV3 0x6#4 0x32#8 f
  | .vrsq f => encV3 0x6#4 0x33#8 f
  | .vtanh f => encV3 0x6#4 0x34#8 f
  | .vredsum f => encV3 0x6#4 0x38#8 f
  | .vredmax f => encV3 0x6#4 0x39#8 f
  | .vredmin f => encV3 0x6#4 0x3A#8 f
  | .vscanadd f => encV3 0x6#4 0x3B#8 f
  | .vbcast f => encVX 0x6#4 0x40#8 f
  | .vmov f => encV3 0x6#4 0x41#8 f
  | .vperm f => encV3 0x6#4 0x42#8 f
  | .viota f => encV3 0x6#4 0x43#8 f
  | .vgets f => encVX 0x6#4 0x44#8 f
  | .vsets f => encVX 0x6#4 0x45#8 f
  | .vkand f => encVK 0x6#4 0x48#8 f
  | .vkor f => encVK 0x6#4 0x49#8 f
  | .vkxor f => encVK 0x6#4 0x4A#8 f
  | .vknot f => encVK 0x6#4 0x4B#8 f
  | .vkpopc f => encVK 0x6#4 0x4C#8 f
  | .vkfirst f => encVK 0x6#4 0x4D#8 f
  | .vacc f => encVA 0x6#4 0x50#8 f
  | .vpois f => encV3 0x6#4 0x51#8 f
  | .vhash f => encV3 0x6#4 0x52#8 f
  | .sline f => encLN 0x7#4 0x00#8 f
  | .stile f => encLN 0x7#4 0x01#8 f
  | .strans f => encLN 0x7#4 0x02#8 f
  | .sacc f => encSA 0x7#4 0x03#8 f
  | .ckick f => encChA 0x8#4 0x00#8 f
  | .cstop f => encCh 0x8#4 0x01#8 f
  | .cstat f => encChD 0x8#4 0x02#8 f
  | .cpfl2 f => encCpf 0x8#4 0x03#8 f
  | .czero f => encChAB 0x8#4 0x04#8 f
  | .cwaitch f => encCh 0x8#4 0x05#8 f
  | .nsend f => encDABC 0x9#4 0x00#8 f
  | .nstat f => encDA 0x9#4 0x01#8 f
  | .gcfgWrite f => encCsrG 0x3#4 0x01#8 f
  | .lbdWrite f => encCsrL 0x3#4 0x01#8 f
  | .cpfstatRead f => encD1x 0x3#4 0x00#8 0xD#12 f
  | .sevbaseWrite f => encA1x 0x3#4 0x01#8 0x300#12 f
  | .sevlostRead f => encD1x 0x3#4 0x00#8 0x303#12 f
  | .hqlaunch _ _ _ _ => BitVec.allOnes 64
  | .hqdoor _ _ _ => BitVec.allOnes 64
  | .hqStart _ _ => BitVec.allOnes 64
  | .hqStop _ _ => BitVec.allOnes 64
  | .hqClrq _ _ => BitVec.allOnes 64
  | .accept _ => BitVec.allOnes 64
  | .featureReset _ => BitVec.allOnes 64
  | .recoveryLoad _ => BitVec.allOnes 64
  | .recoveryReset _ => BitVec.allOnes 64
  | .hostRegisterWrite _ _ => BitVec.allOnes 64
  | .nopPacket _ _ => BitVec.allOnes 64
  | .launch _ _ => BitVec.allOnes 64
  | .copyPacket _ _ => BitVec.allOnes 64
  | .signal _ _ => BitVec.allOnes 64
  | .wait _ _ => BitVec.allOnes 64
  | .bindPacket _ _ => BitVec.allOnes 64
  | .cancelPacket _ _ => BitVec.allOnes 64
  | .fencePacket _ _ => BitVec.allOnes 64
  | .waitSatisfied _ _ => BitVec.allOnes 64
  | .waitTimeout _ _ => BitVec.allOnes 64
  | .copyChainEnd _ _ => BitVec.allOnes 64
  | .firmwareRestart _ _ => BitVec.allOnes 64
  | .queueMap _ _ _ => BitVec.allOnes 64
  | .queueUnmap _ _ => BitVec.allOnes 64
  | .taskRelease _ => BitVec.allOnes 64
  | .heldTaskRelease _ => BitVec.allOnes 64
  | .schedulerSelection _ _ => BitVec.allOnes 64
  | .deadlineMiss _ => BitVec.allOnes 64
  | .progress _ => BitVec.allOnes 64
  | .budgetOverrun _ => BitVec.allOnes 64
  | .admissionEvaluation _ _ => BitVec.allOnes 64
  | .quarantineRotation _ => BitVec.allOnes 64
  | .sliceEnd _ => BitVec.allOnes 64
  | .sliceStart _ => BitVec.allOnes 64
  | .forcedSave _ => BitVec.allOnes 64
  | .takePendingCause _ => BitVec.allOnes 64
  | .bankWakeComplete _ _ _ => BitVec.allOnes 64
  | .cwaitSatisfied _ => BitVec.allOnes 64
  | .queueEntryDelivered _ => BitVec.allOnes 64
  | .waittExpiry _ => BitVec.allOnes 64
  | .gwaitSatisfied _ => BitVec.allOnes 64
  | .versionWaitWake _ => BitVec.allOnes 64
  | .versionWaitRetry _ => BitVec.allOnes 64
  | .creationRetry _ => BitVec.allOnes 64
  | .versionTimeout _ => BitVec.allOnes 64
  | .transferRecord _ _ _ => BitVec.allOnes 64
  | .gutterClaim _ _ => BitVec.allOnes 64
  | .gutterFill _ _ _ => BitVec.allOnes 64
  | .multicastLanding _ _ _ => BitVec.allOnes 64
  | .prefetchResident _ _ => BitVec.allOnes 64
  | .endpointTake _ _ => BitVec.allOnes 64
  | .transmissionStart _ _ => BitVec.allOnes 64
  | .sendAcknowledged _ _ => BitVec.allOnes 64
  | .inboundMessage _ _ _ => BitVec.allOnes 64
  | .ptpMessage _ => BitVec.allOnes 64
  | .reductionGroup _ => BitVec.allOnes 64
  | .linkRetired _ => BitVec.allOnes 64
  | .heartbeat _ => BitVec.allOnes 64
  | .dieFailed _ => BitVec.allOnes 64
  | .partitionCommit => BitVec.allOnes 64
  | .deviceQuiet _ => BitVec.allOnes 64
  | .thermalReport _ _ => BitVec.allOnes 64
  | .powerCap _ => BitVec.allOnes 64
  | .reservationRequest _ _ => BitVec.allOnes 64
  | .reservationGrant _ => BitVec.allOnes 64
  | .droop _ => BitVec.allOnes 64
  | .droopFreezeEnd _ => BitVec.allOnes 64
  | .uncorrectableError _ => BitVec.allOnes 64
  | .watchdog _ => BitVec.allOnes 64
  | .powerOn _ => BitVec.allOnes 64
  | .sendFailed _ _ _ => BitVec.allOnes 64

/-! ### The fate of a word (R144) -/

/-- Whether a number stands in the system register map (R300, R370). -/
def csrAssigned (n : Nat) : Bool :=
  n ≤ 0x004 || (0x008 ≤ n && n ≤ 0x04F) || (0x100 ≤ n && n ≤ 0x105) || (0x200 ≤ n && n ≤ 0x204) ||
  n == 0x210 || (0x300 ≤ n && n ≤ 0x304) || (0x400 ≤ n && n ≤ 0x450) ||
  (0x460 ≤ n && n ≤ 0x487) || (0x500 ≤ n && n ≤ 0x59F) || (0x5C0 ≤ n && n ≤ 0x67F) ||
  (0x680 ≤ n && n ≤ 0x69F) || (0xF00 ≤ n && n ≤ 0xFFF)

/-- Access of a level to a system register: 0 none, 1 read, 2 read and write (R300). -/
def csrAccess (steward : Bool) (n : Nat) : Nat :=
  if n ≤ 0x004 then 2
  else if n = 0x00B ∨ n = 0x00F ∨ (0x040 ≤ n ∧ n ≤ 0x04F) then (if steward then 2 else 1)
  else if n = 0x00C ∨ (0x010 ≤ n ∧ n ≤ 0x03F) then 2
  else if n = 0x008 ∨ n = 0x009 ∨ n = 0x00A ∨ n = 0x00D ∨ n = 0x00E then 1
  else if n = 0x100 ∨ n = 0x101 ∨ n = 0x104 then 2
  else if n = 0x102 ∨ n = 0x103 ∨ n = 0x105 then 1
  else if 0xF00 ≤ n then 0
  else if ¬ steward then 0
  else if n = 0x202 ∨ n = 0x203 ∨ n = 0x301 ∨ n = 0x303 then 1
  else 2

/-- Whether a context at the level lacks the privilege for an instruction (R145, R301, R313). -/
def privilegeFails (steward : Bool) : Instr → Bool
  | .csrr f => csrAssigned f.csr.toNat && csrAccess steward f.csr.toNat == 0
  | .csrw f => csrAssigned f.csr.toNat && csrAccess steward f.csr.toNat != 2
  | .csrs f => csrAssigned f.csr.toNat && csrAccess steward f.csr.toNat != 2
  | .csrc f => csrAssigned f.csr.toNat && csrAccess steward f.csr.toNat != 2
  | .sevbaseWrite _ | .sevlostRead _ | .sret | .fwcallIdentity _ | .fwcallMeasurementLog _
  | .fwcallQuote _ | .fwcallRepairMap _ | .stage2Map _ | .stage2Unmap _ | .moveToTier1 _
  | .moveToTier2 _ | .setPermissions _ | .pageRetirement _ | .windowDeclare _ | .windowRemove _
  | .ctxsave _ | .ctxload _ | .tlbinv _ | .zerorange _ | .psync | .wdog _ | .dlvl _ | .cancel _
  | .cancelClear _ => !steward
  | _ => false

/-- A scope field holds a scope of R131. -/
def scopeOk (s : BitVec 3) : Bool := s.toNat ≤ 4

/-- SCOPE of an engine entry: zero without ACQ and REL, else a scope (R142). -/
def relOk (acq rel : Bool) (s : BitVec 3) : Bool := if acq || rel then scopeOk s else s == 0#3

/-- The whole-tile form of a line (R141); it may carry last-use. -/
def Line.whole (l : Line) : Bool := l.dir == 0#2 && !l.fromReg && l.idx == 0#6

/-- The all-zero line field. -/
def Line.isZero (l : Line) : Bool := l.whole && l.tile == 0#4 && !l.last

/-- IDX and H of a plane line (R142). -/
def planeLineOk (dir : Bool) (idx : BitVec 7) (h : Bool) : Bool :=
  if dir then !h else idx.toNat < 64

/-- KIND and IDX of a bank (R140). -/
def bankOk (kind : Bool) (idx : BitVec 6) : Bool := if kind then idx.toNat ≤ 47 else idx.toNat ≤ 15

/-- PITCH and ES of LTRANS and STRANS (R226). -/
def transOk (p : BitVec 6) : Bool :=
  let es := (p >>> 4).toNat
  es != 3 && (4 >>> es) ≤ (p &&& 15#6).toNat + 1

/-- PARAM of LWGT (R231). -/
def lwgtOk (p : BitVec 6) : Bool :=
  let course := (p &&& 3#6).toNat
  let all := p.getLsbD 2
  let scale := p.getLsbD 3
  let w16 := p.getLsbD 4
  !p.getLsbD 5 && !(scale && (all || w16 || course != 0)) && !(all && course != 0)

/-- Array element families of R72: 1 e2m1, 2 8-bit float, 3 f16, 4 bf16, 5 i8, 6 MXINT8; 0 none. -/
def arrayFamily (t : Nat) : Nat :=
  match t with
  | 8 | 16 => 1
  | 9 | 10 | 17 | 18 => 2
  | 11 => 3
  | 12 => 4
  | 0 => 5
  | 14 => 6
  | _ => 0

/-- Types that carry a block scale (R64). -/
def scaledType (t : Nat) : Bool := t == 14 || t == 16 || t == 17 || t == 18

/-- The decode checks of a macro-operation (R235). -/
def xmmaOk (f : FXM) : Bool :=
  let a := f.at_.toNat
  let fam := arrayFamily a
  let kb := (f.param &&& 3#12).toNat
  let feed := f.param.getLsbD 2
  let rb := ((f.param >>> 3) &&& 3#12).toNat
  let stile := ((f.param >>> 6) &&& 15#12).toNat
  fam != 0 && fam == arrayFamily f.bt.toNat && f.nstep != 0#8 && rb + f.nstep.toNat ≤ 4 &&
  (if fam == 3 || fam == 4 then kb ≤ 1 else true) &&
  (if feed then f.line.isZero && kb == 0 && !scaledType a else f.line.whole) &&
  (stile == 0 || scaledType a) && (f.param >>> 10) == 0#12

/-- Types of VCVT (R256, R257). -/
def vcvtOk (f : FVC) : Bool :=
  let d := f.dt.toNat
  let s := f.st.toNat
  (s ≤ 6 || (8 ≤ s && s ≤ 13)) && (d ≤ 6 || (8 ≤ d && d ≤ 14) || (16 ≤ d && d ≤ 18)) &&
  (!scaledType d || ((s == 11 || s == 12 || s == 13) && f.k == 0#3))

/-- LN fields an L instruction that names no line must leave zero. -/
def lnNoLine (f : FLN) : Bool := f.line.isZero && relOk f.acq f.rel f.scope

/-- LN fields of LSETF and LVC: only A, OFF and PARAM (R146). -/
def lnBare (f : FLN) : Bool :=
  f.line.isZero && !f.slu && !f.acq && !f.rel && f.scope == 0#3

/-- S-class LN fields: no right neighbour, no SLU (R144, R146). -/
def lnStore (f : FLN) : Bool :=
  !f.tok.wr && !f.tok.gr && !f.slu && relOk f.acq f.rel f.scope

/-- The field values an instruction accepts (R139 to R143 and its own description): where this is
false, the word raises RESERVED_FIELD. -/
def fieldsOk : Instr → Bool
  | .shli f | .shri f | .shrai f => f.imm.toNat < 64
  | .bfx f | .bfi f => f.pos.toNat + (if f.len = 0#6 then 64 else f.len.toNat) ≤ 64
  | .lih f => f.imm.toNat < 2 ^ 28
  | .loop f => f.a != 0#6
  | .qpop f => scopeOk f.scope
  | .qpush f => scopeOk f.scope
  | .qbind f => scopeOk f.scope && (!f.unb || f.a == 0#6)
  | .tkgive f | .tktake f => 1 ≤ f.n.toNat && f.n.toNat ≤ 8
  | .atomAdd f | .atomAnd f | .atomOr f | .atomXor f | .atomMin f | .atomMax f | .atomMinn f
  | .atomMaxn f | .atomSwap f | .cas f => scopeOk f.scope && 2 ≤ f.w.toNat
  | .csig f | .cwait f => scopeOk f.scope
  | .cread f => scopeOk f.scope
  | .fence f => scopeOk f.scope
  | .vregion f => f.imm.toNat < 64
  | .vld f => scopeOk f.scope && f.mode != 3#2 && (f.mode != 2#2 || f.b == 0#6) && !f.line.last
  | .vlds f => scopeOk f.scope && f.mode != 3#2 && (f.mode != 2#2 || f.b == 0#6)
  | .vst f => scopeOk f.scope
  | .vsts f => scopeOk f.scope
  | .bpol f => bankOk f.kind f.idx && f.pol != 3#2
  | .bwake f | .bdrop f => bankOk f.kind f.idx
  | .bstate f => bankOk f.kind f.idx
  | .gwait f | .grel f => f.idx.toNat < 16
  | .gstat f => f.idx.toNat < 16
  | .lbfree f => f.idx.toNat < 32
  | .lbusy f => f.idx.toNat < 32
  | .csrr f => csrAssigned f.csr.toNat
  | .csrw f => csrAssigned f.csr.toNat
  | .csrs f | .csrc f => csrAssigned f.csr.toNat
  | .fwcallIdentity f => f.imm == 0#36 || 7 ≤ f.imm.toNat
  | .tspill f | .tfill f => if f.kind then f.idx.toNat ≤ 1 else f.idx.toNat ≤ 15
  | .tlbinv f => f.scope.toNat ≤ 3
  | .cpfl2 f => scopeOk f.scope
  | .lline f => relOk f.acq f.rel f.scope && !f.line.last && f.param == 0#6
  | .ltile f => relOk f.acq f.rel f.scope && f.line.whole && !f.line.last
  | .ltrans f => relOk f.acq f.rel f.scope && f.line.whole && !f.line.last && transOk f.param
  | .lfeed f => lnNoLine f
  | .lsetf f => lnBare f && !f.param.getLsbD 5 && (!f.param.getLsbD 3 || (f.param &&& 7#6) == 0#6)
  | .lwgt f => lnNoLine f && lwgtOk f.param
  | .lgath f => lnNoLine f && f.param.toNat ≤ 1
  | .lmask f => lnNoLine f && f.param == 0#6
  | .lvc f => lnBare f && f.param == 0#6
  | .lzero f => f.line.whole && !f.line.last && f.a == 0#6 && f.off == 0#16 && !f.slu &&
      f.param == 0#6 && !f.acq && !f.rel && f.scope == 0#3
  | .xmma f | .xmmam f | .xspmm f => xmmaOk f
  | .xswap f => !f.p && f.line.isZero && f.at_ == 0#5 && f.bt == 0#5 && f.nstep == 0#8 &&
      f.param == 0#12
  | .xshape f => !f.p && f.line.isZero && f.at_ == 0#5 && f.bt == 0#5 && f.nstep == 0#8 &&
      f.param.toNat < 16
  | .xclr f => f.line.isZero && f.at_ == 0#5 && f.bt == 0#5 && f.nstep == 0#8 && f.param == 0#12
  | .xbias f => (f.at_ == 2#5 || f.at_ == 4#5 || f.at_ == 11#5 || f.at_ == 12#5 || f.at_ == 13#5) &&
      f.bt == 0#5 && f.nstep == 0#8 && f.param == 0#12
  | .vabs f | .vneg f => f.src2.isZero
  | .vand f | .vor f | .vxor f => !f.sat
  | .vnot f => !f.sat && f.src2.isZero
  | .vshl f | .vshr f | .vshra f => f.et.toNat ≤ 4
  | .vrsh f => f.et == 4#3
  | .vcmpeq f | .vcmpne f | .vcmplt f | .vcmple f => !f.sat
  | .vsel f => !f.sat
  | .vcvt f => vcvtOk f
  | .vexp2 f | .vlog2 f | .vrcp f | .vrsq f | .vtanh f => 5 ≤ f.et.toNat && !f.sat && f.src2.isZero
  | .vredsum f | .vredmax f | .vredmin f | .vscanadd f => !f.sat && f.src2.isZero
  | .vbcast f => !f.line.last && f.lane == 0#6
  | .vmov f => f.et == 0#3 && !f.sat && f.src2.isZero
  | .vperm f => !f.sat
  | .viota f => !f.sat && f.src1.isZero && f.src2.isZero
  | .vgets f => f.k == 0#3
  | .vsets f => !f.line.last && f.k == 0#3
  | .vkand f | .vkor f | .vkxor f => f.s == 0#6
  | .vknot f => f.kb == 0#3 && f.s == 0#6
  | .vkpopc f | .vkfirst f => f.kd == 0#3 && f.kb == 0#3
  | .vacc f => (f.dt == 4#5 || f.dt == 5#5 || f.dt == 13#5) && planeLineOk f.dir f.idx f.h
  | .vpois f => f.et == 0#3 && !f.sat && f.src2.isZero
  | .vhash f => f.et == 0#3 && !f.sat
  | .sline f => lnStore f && f.param == 0#6
  | .stile f => lnStore f && f.line.whole
  | .strans f => lnStore f && f.line.whole && transOk f.param
  | .sacc f => !f.tok.wr && !f.tok.gr && relOk f.acq f.rel f.scope && planeLineOk f.dir f.idx f.h &&
      (f.dt.toNat ≤ 4 || f.dt == 6#5 || (9 ≤ f.dt.toNat && f.dt.toNat ≤ 13))
  | _ => true

/-- What a fetched word is (R144 checks 1 to 3). -/
inductive Decoded where
  | ok (i : Instr)
  | illegal
  | privilege
  | reserved
  deriving DecidableEq, Repr

/-- The fate of a word at a privilege level, the checks in the order of R144. -/
def decodeAt (steward : Bool) (w : BitVec 64) : Decoded :=
  match rawDecode w with
  | none => .illegal
  | some i =>
    if privilegeFails steward i then .privilege
    else if encode i = w ∧ fieldsOk i = true then .ok i
    else .reserved

/-- The word's instruction, where its fields are in order. -/
def decode (w : BitVec 64) : Option Instr :=
  match rawDecode w with
  | none => none
  | some i => if encode i = w ∧ fieldsOk i = true then some i else none

/-- Eight bytes, lowest address first, as a word (R1, R137). -/
def wordOfBytes (bs : List (BitVec 8)) : BitVec 64 :=
  bs.foldr (fun b acc => (acc <<< 8) ||| b.setWidth 64) 0#64

/-- The bytes of a word, lowest address first (R1). -/
def bytesOfWord (w : BitVec 64) : List (BitVec 8) :=
  (List.range 8).map (fun i => fld w (8 * i) 8)

/-- A fetch of bytes: the instruction of the first eight, and what follows; by name where there is
none. -/
def decodeBytes (bs : List (BitVec 8)) : Decoded × List (BitVec 8) :=
  if bs.length < 8 then (.illegal, bs)
  else (decodeAt true (wordOfBytes (bs.take 8)), bs.drop 8)

/-- The instruction of the table's bits: a word of this part is always 64 bits. -/
def decodeTableWord (nbits w : Nat) : Option Instr :=
  if nbits ≤ 64 then decode (wordOfBytes (bytesOfWord (BitVec.ofNat 64 w))) else none

end Sys2Proof
end

