-- ==== Sys2Proof/Config.lean ====
section
/-! DEFINITION. What an implementation of the ZM-640 fixes: the figures the manual states, and the
free values of what it leaves open. A free value is a constant with no body: nothing can be proved
of it. -/

namespace Sys2Proof.Config

/-- Value bits of a poisoned result (R51, R190: unspecified), by counter and position. (DESIGN CHOICE, log 6) -/
opaque freeBits : Nat → Nat → BitVec 64

/-- Which result within the error bound a transcendental gives (R77): by function, format and
operand, one fixed function. (DESIGN CHOICE, log 7) -/
opaque freeUlp : Nat → Nat → Nat → Nat

/-- Device physical page frames that firmware takes (R368), by counter. (DESIGN CHOICE, log 11) -/
opaque freePage : Nat → Nat

/-- Device physical addresses of the table pages that firmware takes (R367), by counter. (DESIGN CHOICE, log 11) -/
opaque freeTable : Nat → Nat

/-- Bytes of the version heap that the scope records of a device at rest take (R374, R385), by device and the number of
records. (DESIGN CHOICE, log 84) -/
opaque restHeap : Nat → Nat → Nat

/-- Voltage setpoints that firmware chooses (R409), by core and course. (DESIGN CHOICE, log 63) -/
opaque freeVolts : Nat → Nat → Nat

/-- How long a course takes to power up, at most 16 ns (R409), by counter. (DESIGN CHOICE, log 63) -/
opaque freePowerUp : Nat → Nat

/-- SHAKE256 with 512 bits of output (R413, R416, R420). (DESIGN CHOICE, log 12) -/
opaque shake256 : List (BitVec 8) → BitVec 512

/-- The 1,793-byte Falcon-1024 identity public key that a die derives from its fuses at power-on (R414, R415).
(DESIGN CHOICE, log 12) -/
opaque dieKey : Nat → List (BitVec 8)

/-- Whether a Falcon-1024 signature of an image verifies (R413). (DESIGN CHOICE, log 12) -/
opaque imageVerifies : List (BitVec 8) → Bool

/-- The Falcon-1024 signature, padded to 1,280 bytes, made with the module identity (R416).
(DESIGN CHOICE, log 12) -/
opaque falconSign : List (BitVec 8) → List (BitVec 8)

/-- The firmware version word (R416). (DESIGN CHOICE, log 12) -/
opaque firmwareVersion : BitVec 64

/-- The digest of the boot ROM (R416). (DESIGN CHOICE, log 12) -/
opaque romDigest : BitVec 512

/-- The digest of the device record, by its identity key, die 1's, its defects and its signature (R415, R416).
(DESIGN CHOICE, log 12) -/
opaque recordDigest : List (BitVec 8) → List (BitVec 8) → List (Nat × Nat × Nat) → List (BitVec 8) → BitVec 512

/-- The feature set each function offers (R399); bits 6 to 127 are never offered. (DESIGN CHOICE, log 12) -/
opaque offeredFeatures : BitVec 6

/-- Cores of a die, of a cluster, clusters of a die (R7, R9). -/
def coresPerDie : Nat := 320
def coresPerCluster : Nat := 16
def clustersPerDie : Nat := 20
def coreCount : Nat := 640

/-- Queue depths of L, X, V, S and of a handler's shelves (R10, R349). -/
def depthL : Nat := 32
def depthX : Nat := 16
def depthV : Nat := 32
def depthS : Nat := 32
def depthShelf : Nat := 8

/-- Depth of a token FIFO (R11, R147). -/
def fifoDepth : Nat := 8

/-- Bytes of a scratchpad bank and of a granule (R12, R81). -/
def bankBytes : Nat := 16384
def granule : Nat := 256

/-- Bytes of a save area (R353). -/
def saveAreaBytes : Nat := 1228800

/-- HBM capacity in 64 KiB pages and tier-2 capacity in 64 KiB pages (R7, R358). -/
def hbmGiB : Nat := 512
def tier2GiB : Nat := 1024

/-- Heap entries of a die and cancel records of a partition (R332, R29). -/
def heapEntries : Nat := 4096
def cancelRecords : Nat := 64

/-- Cluster current limit, its step, and the reservation amounts in mA (R410). -/
def clusterLimit : Nat := 38400
def limitStep : Nat := 1200
def ampX8 : Nat := 480
def ampX16 : Nat := 300
def ampV : Nat := 120
def ampCopy : Nat := 40

end Sys2Proof.Config
end

