-- ==== Sys2Proof/Machine/Sparse.lean ====
section
/-! DEFINITION. Sparse tables: a list of (key, value) pairs with keys strictly rising and no entry equal
to what an unlisted key holds. Memory, registers, cells and marks are all held so, and equal tables
are equal lists. -/

namespace Sys2Proof.Machine

/-- A sparse table of values. -/
abbrev Sparse (α : Type) := List (Nat × α)

/-- The value at a key: the listed one, else the default's. -/
def Sparse.get {α : Type} (d : Nat → α) : Sparse α → Nat → α
  | [], k => d k
  | (j, v) :: t, k => if j = k then v else Sparse.get d t k

/-- The table without a key. -/
def Sparse.erase {α : Type} (m : Sparse α) (k : Nat) : Sparse α := m.filter (fun e => e.1 != k)

/-- Inserts a pair before the first larger key. -/
def Sparse.insert {α : Type} : Sparse α → Nat → α → Sparse α
  | [], k, v => [(k, v)]
  | (j, u) :: t, k, v => if k < j then (k, v) :: (j, u) :: t else (j, u) :: Sparse.insert t k v

/-- The table with one key's value replaced; a value equal to the default is not listed. -/
def Sparse.set {α : Type} [DecidableEq α] (d : Nat → α) (m : Sparse α) (k : Nat) (v : α) : Sparse α :=
  if v = d k then Sparse.erase m k else Sparse.insert (Sparse.erase m k) k v

/-- Writes a list of values at consecutive keys. -/
def Sparse.setList {α : Type} [DecidableEq α] (d : Nat → α) (m : Sparse α) (k : Nat) : List α → Sparse α
  | [] => m
  | v :: vs => Sparse.setList d (Sparse.set d m k v) (k + 1) vs

/-- The values at n consecutive keys. -/
def Sparse.getList {α : Type} (d : Nat → α) (m : Sparse α) (k n : Nat) : List α :=
  (List.range n).map (fun i => Sparse.get d m (k + i))

/-- Clears n consecutive keys to the default. -/
def Sparse.clear {α : Type} (m : Sparse α) (k n : Nat) : Sparse α :=
  m.filter (fun e => !(k ≤ e.1 && e.1 < k + n))

/-- The canonical form: keys strictly rising, no entry equal to its default. -/
def Sparse.wf {α : Type} [DecidableEq α] (d : Nat → α) : Sparse α → Bool
  | [] => true
  | (k, v) :: t => decide (v ≠ d k) && t.all (fun e => k < e.1) && Sparse.wf d t

end Sys2Proof.Machine
end

