-- ==== Sys2Proof/Machine/State.lean ====
section
/-! DEFINITION. The state of the module as plain data: contexts, memories, homes, dies, configuration,
tasks, host queues; the reasons a step can stop; the state after reset. Rules stand at each piece. -/

namespace Sys2Proof.Machine

/-! ### Registers and cells -/

/-- A scalar register: 64 bits and a poison bit (R38). -/
structure SReg where
  bits : Word
  pois : Bool
  deriving DecidableEq, Repr

/-- A mask register: a bit and a poison bit for each lane (R39). -/
structure KReg where
  bits : Word
  pois : Word
  deriving DecidableEq, Repr

/-- A supply state or a policy (R54). -/
inductive Supply where
  | full
  | retain
  | off
  | absent
  deriving DecidableEq, Repr

/-- A 32-bit tile cell with its poison bit (R40). -/
structure Cell where
  bits : BitVec 32
  pois : Bool
  deriving DecidableEq, Repr

/-- A 48-bit plane cell with its poison bit (R43). -/
structure PCell where
  bits : BitVec 48
  pois : Bool
  deriving DecidableEq, Repr

/-- The counts of the eight token FIFOs (R147). -/
structure Fifos where
  sl : Nat
  ls : Nat
  lx : Nat
  xl : Nat
  xv : Nat
  vx : Nat
  vs : Nat
  sv : Nat
  deriving DecidableEq, Repr

/-- The four engines with queues, left to right (R11). -/
inductive Eng where
  | l
  | x
  | v
  | s
  deriving DecidableEq, Repr

/-- What an entry carries from its issue (R44, R267). -/
structure Stamp where
  vc : BitVec 7
  ashape : BitVec 4
  emode : BitVec 4
  sqp : BitVec 12
  deriving DecidableEq, Repr

/-- A cell that an entry has given its value and not yet written: of a tile register below 16, of plane p at
16 + p; its number in it, its value, its poison (R248). -/
structure LateCell where
  reg : Nat
  cell : Nat
  bits : Nat
  pois : Bool
  deriving DecidableEq, Repr

/-- What a started entry waits for that a counter counts: nothing, a wake (R55), a lock (R50). -/
inductive Stall where
  | none
  | wake
  | lock
  deriving DecidableEq, Repr

/-- An engine-queue entry (R353): the instruction, what the sequencer read at forwarding, and its progress.
`offs` holds the source banks that the entry has found OFF and also writes (R54, R267); `late` the cells it has
yet to write (R248); `stall` what it waits for. An entry with pushes owed has done its work: until it has tried
them, its pops read as untaken (R147, R240). -/
structure Entry where
  instr : Instr
  val : Word
  i1 : BitVec 6
  i2 : BitVec 6
  idst : BitVec 6
  bad : Bool
  sPend : Bool
  popsTaken : Bool
  pushOwed : Bool
  rows : Nat
  offs : List Nat
  late : List LateCell
  stall : Stall
  stamp : Stamp
  addr : Word
  deriving DecidableEq, Repr

/-! ### Waits -/

/-- Who makes an access: a core, an agent of a die off the cores, the host or a switch (R120, R131). -/
inductive Who where
  | core (p : Nat)
  | die (d : Nat)
  | outside
  deriving DecidableEq, Repr

/-- A version of a sector: reserved or existing (R102), bytes, marks by 64-byte sector, creation scope
and creator (R114); `only` names the die where a MIRROR version exists while the other's home has it not
yet (R117). -/
structure Ver where
  num : Nat
  exist : Bool
  data : BitVec 2048
  marks : BitVec 4
  scope : Nat
  who : Who
  only : Option Nat
  deriving DecidableEq, Repr

/-- What the instruction at pc waits for (R22, R354 WAITST): a counter by its physical address; an entry, or
room for one, of a queue by the physical address of its descriptor, with the scope of a pop; a version by its
sector's address; a channel's pending head to empty (CKICK, CZERO), a channel to end (CWAITCH), a send slot
(R282, R284); the rest of an access made in parts (R121); the second home of a MIRROR creation (R117); a wait read
from a save area, which does not say its kind (R354); a source not yet written, a full engine queue, a wake (R308);
any other wait that does not park. -/
inductive Wait where
  | counter (pa : Nat) (need : Word)
  | pop (desc : Word) (bound : Option Nat) (scope : BitVec 3)
  | push (desc : Word)
  | time (t : Word)
  | gutter (g k : Nat)
  | version (va : Word) (mode v : Nat)
  | creation (va : Word) (v : Nat)
  | kick (ch : Nat)
  | chanIdle (ch : Nat)
  | sendSlot
  | part
  | mirror (va : Word) (v : Nat)
  | restored
  | source
  | full
  | wake
  | other
  deriving DecidableEq, Repr

/-- What a wait has been given already: nothing; its counter has been reached (R124); the entry delivered to it
(R33); the version it is to read, or that there is none to wait for (R107); the time of an unrecorded load's next
retry (R109); the bytes of an access made in parts so far (R121). -/
inductive Given where
  | nothing
  | met
  | entry (v : SReg)
  | line (v : Ver)
  | missing
  | retry (t : Nat)
  | bytes (bs : List Byte) (pois : Bool)
  deriving DecidableEq, Repr

/-- A wait in progress: the waiting instruction's address, its kind, when it began, whether its scope
check has been made (WCHK), the ranges a CWAIT covers (R127), what it has been given. -/
structure WaitSt where
  pc : Word
  kind : Wait
  since : Nat
  checked : Bool
  cover : List (Word × Word)
  given : Given
  deriving DecidableEq, Repr

/-- The registers a handler has its own copy of (R349), and the wait of its code. -/
structure RegBank where
  s : Sparse SReg
  k : Sparse KReg
  vc : BitVec 7
  ashape : BitVec 4
  emode : BitVec 4
  estat : BitVec 7
  sqp : BitVec 12
  fifo : Fifos
  qL : List Entry
  qX : List Entry
  qV : List Entry
  qS : List Entry
  wait : Option WaitSt
  deriving DecidableEq, Repr

/-- What TSPILL saved of a tile register or plane (R317); of a plane `lock` keeps the ZMASK bit. -/
structure Spill where
  cells : Sparse Cell
  pcells : Sparse PCell
  state : Supply
  lock : Bool
  deriving DecidableEq, Repr

/-- A tile register: cells at key 64 * row + column, supply, lock, a move to the policy state due when
the lock clears, the copy TSPILL saved (R40, R50, R54, R317). It is protected while a handler is open
and no copy is saved. -/
structure Tile where
  cells : Sparse Cell
  state : Supply
  pol : Supply
  waking : Bool
  dropAtWake : Bool
  lock : Bool
  moveDue : Bool
  spill : Option Spill
  deriving DecidableEq, Repr

/-- An accumulator plane: cells at key 128 * row + column (R43), its ZMASK bit (R354). -/
structure Plane where
  cells : Sparse PCell
  zmask : Bool
  spill : Option Spill
  deriving DecidableEq, Repr

/-- A weight plane: storage byte 256 * row + n, poison of group 64 * row + k, scales, presence (R223). -/
structure WPlane where
  bytes : Sparse Byte
  pois : Sparse Bool
  scales : Sparse Byte
  spois : Sparse Bool
  presence : BitVec 32
  zmask : Bool
  deriving DecidableEq, Repr

/-- The mask parameter block (R223, R233). -/
structure MaskBlock where
  rows : Sparse Word
  fill : BitVec 48
  half : Bool
  out : Bool
  pois : Bool
  zmask : Bool
  deriving DecidableEq, Repr

/-- A row of the matrix-feed slot: 128 bytes, poison of each group of 4 (R223). -/
structure FeedRow where
  bytes : Sparse Byte
  pois : Sparse Bool
  deriving DecidableEq, Repr

/-- An engine's fault latch (R344). -/
structure Latch where
  code : BitVec 8
  sub : BitVec 8
  addr : Word
  deriving DecidableEq, Repr

/-- A posted cause (R345): its code, SUB, TVAL, unit and copy channel (R307). -/
structure Posted where
  code : BitVec 8
  sub : BitVec 8
  val : Word
  unit : Nat
  ch : Nat
  deriving DecidableEq, Repr

/-! ### Scratchpad, gutters, landing buffers, caches -/

/-- A scratchpad bank's supply (R54). -/
structure PadBank where
  state : Supply
  pol : Supply
  waking : Bool
  dropAtWake : Bool
  deriving DecidableEq, Repr

/-- A byte held in L1, with the virtual address it was reached by (R84). -/
structure L1Byte where
  val : Byte
  dirty : Bool
  pois : Bool
  va : Nat
  deriving DecidableEq, Repr

/-- A producer for a gutter (R92): a copy channel of a context, or a held inbound message by its arrival. -/
inductive Producer where
  | chan (c ch : Nat)
  | net (arrival : Nat) (handle : BitVec 32) (word : BitVec 64) (bytes : List Byte)
  deriving DecidableEq, Repr

/-- A landing whose slots are in flight (R93); `ended` holds the bytes it has landed once its record has ended
before it completed (R280). -/
structure GLanding where
  slot : Nat
  slots : Nat
  prod : Producer
  ended : Option (List (Nat × Byte × Bool))
  deriving DecidableEq, Repr

/-- A gutter: configuration, status, recorded lengths by slot, landings in claim order, waiting
producers in order (R89 to R93). -/
structure Gutter where
  en : Bool
  base : BitVec 12
  slotg : BitVec 8
  nslot : BitVec 12
  err : Bool
  free : Nat
  filled : Nat
  head : Nat
  lens : Sparse Nat
  flight : List GLanding
  waiters : List Producer
  deriving DecidableEq, Repr

/-- A landing-buffer descriptor (R94). -/
structure LBuf where
  en : Bool
  inuse : Bool
  base : BitVec 12
  sizeg : BitVec 9
  deriving DecidableEq, Repr

/-- A binding-table entry (R125). -/
structure Binding where
  base : Word
  len : Word
  cnt : Word
  deriving DecidableEq, Repr

/-- A queue binding of q0 to q3 with its held entry (R156, R182). -/
structure QBinding where
  desc : Option Word
  scope : BitVec 3
  held : Option SReg
  deriving DecidableEq, Repr

/-- An open VSTS build (R104): merged bytes with the mask of 8-byte words written, poison by 64-byte
sector. -/
structure Build where
  sector : Word
  version : BitVec 32
  scope : BitVec 3
  words : BitVec 32
  pois : BitVec 4
  data : BitVec 2048
  deriving DecidableEq, Repr

/-! ### Copy channels and sends -/

/-- A chain head: a record in memory, or the record CZERO enqueues (R282). -/
inductive Chain where
  | record (addr : Word)
  | zero (a b : Word)
  deriving DecidableEq, Repr

/-- How far a channel's current record has come (R276): before its fetch, held under R31, in its walk, waiting
for gutter slots, its slots claimed, its source read and waiting for its landing time, waiting for a version
creation since a time and up to a limit in ns (0: none). -/
inductive RecPhase where
  | start
  | held
  | walk
  | gutter
  | claimed
  | landing
  | version (since lim : Nat)
  deriving DecidableEq, Repr

/-- A dimension of a tensor map (R274). -/
structure TDim where
  bound : Nat
  stride : Int
  start : Int
  wcount : Nat
  wsize : Nat
  wstride : Nat
  dil : Nat
  deriving DecidableEq, Repr

/-- A tensor map: element bytes, space, base, dimensions (R274). -/
structure TMap where
  esize : Nat
  space : Nat
  base : Nat
  dims : List TDim
  deriving DecidableEq, Repr

/-- A record's maps (R274). -/
structure RecMaps where
  src : TMap
  dst : Option TMap
  deriving DecidableEq, Repr

/-- A record as its channel has fetched it, with its maps (R276). -/
structure Fetched where
  head : BitVec 1024
  maps : RecMaps
  deriving DecidableEq, Repr

/-- A copy channel (R270, R282): STATE is read from `phase` and `err`; `ptag` is the tag of a record that
names its own, `resv` the sectors its publication has reserved, each with its version, `fetched` the record that it has
under way, `vlim` the limit in ns of that record's waits for versions, read at the first (R103), `stalled` whether its
next access waits for a bank's wake (R55, R309). Of a record in its walk: the elements done, the
bytes written, the destination units found bad, BADOFF, the bytes that wait for its completion, and the code of
a walk that is over (R270, R276, R281). -/
structure Chan where
  run : Bool
  err : Bool
  phase : RecPhase
  ecode : BitVec 8
  donecnt : BitVec 16
  cur : Option Chain
  pend : Option Chain
  elems : Nat
  bytes : Nat
  bad : List Nat
  badoff : Nat
  held : List (Nat × Byte × Bool)
  code : Option Nat
  ptag : Option Bool
  resv : List (Word × Nat)
  fetched : Option Fetched
  vlim : Option Nat
  stalled : Bool
  deriving DecidableEq, Repr

/-- A buffer of a send (R284). -/
structure SendBuf where
  addr : Nat
  len : Nat
  lu : Bool
  deriving DecidableEq, Repr

/-- A send slot (R285): generation, NSTAT fields, the message; `due` is its time T in package time, converted once
when the send was accepted, the moment of its acceptance where it goes at once (R285, R384); `shadow` says that it was
accepted on the shadow side of a replicated connection (R405, R406). -/
structure SendSlot where
  gen : BitVec 8
  used : Bool
  taken : Bool
  sent : Bool
  delivered : Bool
  late : Bool
  err : Bool
  ecode : BitVec 8
  tstamp : BitVec 48
  handle : BitVec 32
  bufs : List SendBuf
  time : Word
  due : Int
  shadow : Bool
  ver : BitVec 32
  msg : List Byte
  pois : Bool
  deriving DecidableEq, Repr

/-- A CPFL2 whose lines are not yet resident (R283). -/
structure Prefetch where
  cnt : Word
  val : Word
  lines : Nat
  deriving DecidableEq, Repr

/-- A send taken and not yet delivered whose context has ended: the send as it stood; it still carries its tag, and
belongs to its task's phase counter (R30, R31, R404). -/
structure Flying where
  ctx : Nat
  slot : Nat
  send : SendSlot
  part : Nat
  tag : Bool
  phase : Word
  deriving DecidableEq, Repr

/-- Privilege levels of contexts (R298); FIRMWARE runs on no core. -/
inductive Level where
  | tenant
  | steward
  deriving DecidableEq, Repr

/-- Where a context is: nowhere yet, in memory, or resident on a physical core. -/
inductive Place where
  | nowhere
  | memory
  | core (p : Nat)
  deriving DecidableEq, Repr

/-! ### Contexts -/

/-- A context: everything R353 and R354 make its own. `id` is the device-physical address of its save
area, by which CTXSAVE and CTXLOAD name it; `kept` says that it has migrated and keeps its logical core number
(R290), `saveReq` that a CTXSAVE waits for its handler's end (R318), `sliceOld` that the slice's PREEMPT was posted
before its tenant handler opened (R352), `risen` that an SRET has left its code at STEWARD level (R316). -/
structure Ctx where
  id : Nat
  place : Place
  pc : Word
  base : RegBank
  tbank : RegBank
  sbank : RegBank
  tiles : Sparse Tile
  acc : Sparse Plane
  active : WPlane
  shadow : WPlane
  mask : MaskBlock
  feed : List FeedRow
  foff : Sparse (BitVec 32)
  prog : Option Nat
  latches : Sparse (Option Latch)
  pad : Sparse Byte
  gpois : Sparse Bool
  glive : Sparse Bool
  banks : Sparse PadBank
  spbanks : Nat
  l1size : BitVec 2
  l1 : Sparse (Option L1Byte)
  gutters : Sparse Gutter
  lbufs : Sparse LBuf
  bindings : List Binding
  qbinds : Sparse QBinding
  qterm : BitVec 4
  qlast : BitVec 2
  cpfail : BitVec 32
  vwlim : BitVec 20
  pbud : BitVec 18
  spmsel : BitVec 6
  rslots : Sparse (Option Word)
  builds : List Build
  chans : Sparse Chan
  sends : Sparse SendSlot
  prefetches : List Prefetch
  tvec : Word
  tepc : Word
  tcause : Word
  tval : Word
  tscr : Word
  tbudget : Nat
  svec : Word
  sepc : Word
  scause : Word
  sval : Word
  sscr : Word
  thnd : Bool
  shnd : Bool
  level : Level
  vdn : BitVec 6
  part : BitVec 4
  queue : BitVec 6
  disp : BitVec 2
  lcore : BitVec 16
  kept : Bool
  crewIx : Nat
  crewSz : Nat
  trec : Word
  fullt : Bool
  regabs : Bool
  held : Bool
  saveReq : Bool
  sliceOld : Bool
  risen : Bool
  forced : Bool
  sliced : Bool
  vcyc : Nat
  posted : List Posted
  progT : Nat
  progX : Nat
  task : Option Nat
  halted : Bool
  savet : Nat
  deriving DecidableEq, Repr

/-! ### Homes -/

/-- The instance of a scope (R131): of an agent on core p, of an agent of a die, or outside. -/
inductive Inst where
  | core (p : Nat)
  | cluster (n : Nat)
  | die (d : Nat)
  | package
  | system
  deriving DecidableEq, Repr

/-- A synchronisation line's scope record, with the 8-byte words of the line that synchronising accesses have
named (R132). (DEDUCED, log 51) -/
structure ScopeRec where
  scope : Nat
  inst : Inst
  words : BitVec 8
  deriving DecidableEq, Repr

/-- A sector's directory entry: versions by rising number, recorded waiters in order (R109, R119). -/
structure Sector where
  vers : List Ver
  waiters : List Nat
  deriving DecidableEq, Repr

/-- A region's state, the partition's own (R98). -/
structure Region where
  part : Nat
  base : Word
  sectors : Nat
  floor : Nat
  retain : Nat
  mirror : Bool
  atts : List Nat
  secs : Sparse Sector
  deriving DecidableEq, Repr

/-- A TLB entry: the core's or the cluster's, its device, page, combined translation and permissions
(R363). -/
structure TlbEntry where
  core : Bool
  unit : Nat
  vdn : Nat
  vbase : Nat
  size : Nat
  pa : Nat
  r : Bool
  w : Bool
  x : Bool
  nl1 : Bool
  m : Bool
  deriving DecidableEq, Repr

/-- A table entry that a die's walk caches hold: its stage, the device (stage one) or the partition (stage two)
whose walks read it, where it stands, its bits, and the addresses its subtree translates (R363). -/
structure WalkEntry where
  die : Nat
  stage : Nat
  owner : Nat
  addr : Nat
  val : Nat
  vbase : Nat
  size : Nat
  deriving DecidableEq, Repr

/-- A physical core: resident contexts and repair (R336, R417); the supply switches of its four courses, the
time at which the ones last switched on have powered up, their voltage setpoints in mV (R409). -/
structure CoreSlot where
  run : Option Nat
  second : Option Nat
  disabled : Bool
  noT15 : Bool
  removed : Nat
  courses : BitVec 4
  courseAt : Nat
  volts : Sparse Nat
  deriving DecidableEq, Repr

/-- A die's steward-event registers, watchdog and heartbeat (R311, R323, R406). -/
structure Die where
  sevbase : Word
  sevprod : BitVec 32
  sevcons : BitVec 32
  sevlost : BitVec 32
  sevcnt : Word
  wdog : Option Nat
  wdogAt : Nat
  wdogX : Nat
  beatAt : Nat
  alive : Bool
  deriving DecidableEq, Repr

/-- A cancel record (R29), kept alike on both dies. -/
structure CancelRec where
  part : Nat
  addr : Word
  level : Nat
  deriving DecidableEq, Repr

/-! ### Tasks -/

/-- The states of a task (R333). -/
inductive TState where
  | held
  | pending
  | waiting
  | ready
  | running
  | parked
  | complete
  deriving DecidableEq, Repr

/-- An input-version pair (R328). -/
structure Pair where
  base : Word
  first : Nat
  count : Nat
  mode : Nat
  version : Nat
  deriving DecidableEq, Repr

/-- A posted task: what the scheduler read of its record (R327) and its progress. `id` is its posting
order; `members` are its unfinished members, `slots` the contexts whose save areas it keeps until it completes
(R373), `pfw` the words of its LAUNCH packet's prefetch (R393), `yielded` says that it retired a YIELD in a handler whose
switch waits for that handler's end (R172, R352), `paused` that a pause wrote it to the overflow list (R385). -/
structure Task where
  id : Nat
  record : Word
  part : Nat
  queue : Nat
  vdn : Nat
  die : Nat
  entry0 : Word
  entry1 : Option Word
  entry2 : Option Word
  entry3 : Option Word
  arg : Word
  release : Nat
  deadline : Nat
  sched : Nat
  budget : Nat
  prog : Nat
  cls : Nat
  miss : Nat
  fullt : Bool
  regabs : Bool
  ptag : Bool
  pairs : List Pair
  crew : Nat
  lnote : BitVec 32
  claunch : Word
  cgraph : Word
  cphase : Word
  cjob : Word
  state : TState
  disp : Nat
  dispatched : Bool
  members : List Nat
  slots : List Nat
  missed : Bool
  used : Nat
  overflow : Bool
  pfw : Nat
  yielded : Bool
  paused : Bool
  hostq : Option (Nat × Nat)
  deadTold : Bool
  overTold : Bool
  deriving DecidableEq, Repr

/-- A scheduler queue's level and floor (R324, R330). -/
structure QLevel where
  level : Nat
  floor : Nat
  deriving DecidableEq, Repr

/-- A scheduler queue as its table entry configures it, read at the commit (R373, R376). -/
structure QCfg where
  en : Bool
  die : Nat
  cls : Nat
  lvl : Nat
  vd : Nat
  l1 : Nat
  sp : Nat
  ssh : Nat
  tp : Word
  stack : Word
  deriving DecidableEq, Repr

/-- The slice of a partition's current device (R383). -/
structure SliceSt where
  vdn : Nat
  start : Nat
  ended : Bool
  deriving DecidableEq, Repr

/-! ### Host queues, network, fabric, power -/

/-- A copy of a queue control block (R395), with its reserved bits. -/
structure QBlock where
  rbase : Word
  log2cap : BitVec 5
  hostr : Bool
  state : BitVec 2
  vdn : BitVec 6
  qnum : BitVec 6
  rsv84 : BitVec 4
  ridx : BitVec 32
  widx : BitVec 32
  ecode : BitVec 8
  msix : BitVec 8
  ncnt : Word
  outc : Nat
  rsv235 : BitVec 277
  deriving DecidableEq, Repr

/-- A blocked WAIT packet (R393). -/
structure PktWait where
  cnt : Word
  value : Word
  since : Nat
  tmo : Nat
  deriving DecidableEq, Repr

/-- A host queue: window registers, control blocks with SEQ of the commit word, latch, hardware effect index; `begun` says
that the packet at RIDX has been taken up and is not complete, `idle` is the time that its thread has spent without
completing a packet, blocked in WAIT apart (R388 to R396). -/
structure HQueue where
  base : Word
  hostr : Bool
  log2cap : BitVec 5
  msix : BitVec 8
  work : QBlock
  blkA : QBlock
  blkB : QBlock
  sel : Bool
  seq : BitVec 63
  thread : Option Nat
  inline : Option (BitVec 32 × BitVec 512)
  eidx : BitVec 32
  eph : Bool
  waiting : Option PktWait
  stopReq : Bool
  begun : Bool
  idle : Nat
  deriving DecidableEq, Repr

/-- A host copy channel (R393): its chain and the COPY packet it serves. -/
structure HostChan where
  chan : Chan
  vd : Nat
  q : Nat
  notify : Bool
  busy : Bool
  deriving DecidableEq, Repr

/-- A function's negotiated features (R399): what the driver names, what an ACCEPT has enabled. -/
structure Feat where
  drv : BitVec 128
  on : BitVec 128
  accept : Bool
  refused : Bool
  deriving DecidableEq, Repr

/-- A connection table entry (R401); ingress 0 none, 1 gutter, 2 region; `xport` the transport state of bytes 24 to 63,
which firmware owns. -/
structure Conn where
  isOpen : Bool
  txver : Bool
  repl : Bool
  shadow : Bool
  ingress : Nat
  vdn : Nat
  lcore : Nat
  gutter : Nat
  base : Word
  sector : Nat
  rxerr : Nat
  xport : BitVec 320
  deriving DecidableEq, Repr

/-- A held inbound message: its connection, header word, bytes; whether its creation has begun, the start of the
creation's wait, the sectors it has reserved (R103, R104), whether the region's state has been discarded meanwhile
(R99). -/
structure NetHold where
  handle : BitVec 32
  word : BitVec 64
  bytes : List Byte
  begun : Bool
  since : Nat
  got : Nat
  lost : Bool
  deriving DecidableEq, Repr

/-- A reduction window, with the partition and the device of its declaration (R136, R408). -/
structure Window where
  ident : Nat
  part : Nat
  vdn : Nat
  base : Nat
  size : Nat
  w64 : Bool
  home : Nat
  deriving DecidableEq, Repr

/-- A contribution to a window, not yet performed: its element's place in memory and in the window, the context
that made it, its partition, its task's phase tag and phase counter (R30, R31, R136). -/
structure Contrib where
  ident : Nat
  pa : Nat
  off : Nat
  op : Nat
  val : Word
  ctx : Nat
  part : Nat
  tag : Bool
  phase : Word
  deriving DecidableEq, Repr

/-- A current reservation, held or asked for; `bank` is the register bank whose entry asks: the base code's (0), the
tenant handler's (1), the steward handler's (2) (R341, R349, R410). -/
structure Reserve where
  core : Nat
  ctx : Nat
  bank : Nat
  unit : PowerUnit
  amount : Nat
  deriving DecidableEq, Repr

/-- A cluster's current limit, reservations and droop freeze (R410, R411). -/
structure Cluster where
  limit : Nat
  held : List Reserve
  pending : List Reserve
  freezeEnd : Nat
  dfrz : Nat
  deriving DecidableEq, Repr

/-- What left the module: a message, an MSI-X, a report to the host, a contribution to a window whose home is
another module, the value of a register that the host has read. -/
inductive Out where
  | contribution (ident off op : Nat) (val : Word)
  | hostRead (vd off : Nat) (val : Word)
  | message (handle : BitVec 32) (word : BitVec 64) (bytes : List Byte)
  | msix (vd vector : Nat)
  | stewardFailed (die : Nat)
  | linkDown
  deriving DecidableEq, Repr

/-- The module's power state (R414, R418). -/
inductive Boot where
  | off
  | recovery (cause : Nat)
  | running
  deriving DecidableEq, Repr

/-- The device record in flash: the module's identity key, die 1's, the factory defects, Onpol's signature (R415). -/
structure DeviceRec where
  identity : List Byte
  die1 : List Byte
  defects : List Defect
  sign : List Byte
  deriving DecidableEq, Repr

/-- What a target partition must present as the source did: logical cores, HBMGIB, T2GIB, T2SLOT, reserved batten slots
of each die, reserved slots of each HBM controller (R386). -/
structure Shape where
  cores : Nat
  hbm : Nat
  t2 : Nat
  t2slot : Nat
  batt : List Nat
  frames : List Nat
  deriving DecidableEq, Repr

/-- What a live migration brings of a device beside its pages and save areas: the source partition's shape, region
state, scope records, tasks, counter bank (R116, R309, R385, R386). -/
structure Carried where
  shape : Shape
  regions : List Region
  scopes : List (Nat × ScopeRec)
  tasks : List Task
  pmc : List Word
  deriving DecidableEq, Repr

/-- Who moves next: a core's sequencer, an engine, a host queue's thread, the passage of time, a fill of a core's or
its cluster's TLB, a TLB eviction, a fill of a die's walk caches, an L1 eviction, a steward's connection table, the
keys it installs for one, its choice of the time source and of the functions enabled, the host's own memory, a register
that the host reads, a control-block commit, cycles that a core's pipeline waited, a member module's contribution to a
window of this one, the end of a promotion after a die's failure, what a migration brings, a cluster's DFRZ, the flash as
the module leaves its factory, the next part of a recovery's LOAD, an event of the table; or the next part of what a move could do whole (R117, R121, R248, R270, R321).
(DESIGN CHOICE, log 3) -/
inductive Turn where
  | seq (core : Nat)
  | engine (core : Nat) (e : Eng)
  | thread (vd q : Nat)
  | event (i : Instr)
  | tick (ns : Nat)
  | tlbFill (core va : Nat) (own : Bool)
  | tlbEvict (i : Nat)
  | walkFill (die vdn va : Nat)
  | l1Evict (core line : Nat)
  | openConn (handle : Nat) (conn : Conn)
  | hostStore (addr : Nat) (bytes : List Byte)
  | hostRead (vd off : Nat)
  | commitBlock (vd q : Nat)
  | stall (core ctr n : Nat)
  | installKey (handle : Nat) (key : BitVec 256)
  | timeSource (port : Nat)
  | functions (n : Nat)
  | farContribution (ident off op : Nat) (val : Word)
  | promotion
  | carried (vd : Nat) (c : Carried)
  | setFreeze (cluster cycles : Nat)
  | factory (image : List Byte) (record : DeviceRec)
  | recovery (bist : Bist)
  | part (t : Turn)
  deriving DecidableEq, Repr

/-! ### The module -/

/-- The state of the module. `ctx` is the context whose sequencer moves; `ctxs` holds every other
context. `acting` is none while the sequencer executes a word, and names the entry while an engine runs
it; `parts` is set while a move performs only the next part of what it could (R117, R121, R248, R270, R321).
`residues` hold what the gutters and landing buffers of an ended context leave for its next task (R17),
`frames` the 64 KiB frames of memory that firmware has given out (R368), `stores` the accepted host-queue stores in
order, each its queue's key and the index it offered (R388), `shapes` what the partition of a paused device presented
(R386), `identity` the public identity keys that the dies derived at power-on, die 0's first (R415); `slewAcc` is the
part of 5,000 ns that slews have not used yet (R384), `promoting` the die declared failed whose promotion has not ended,
`promoEnd` the end of the last promotion (R406). -/
structure State where
  now : Nat
  ctx : Ctx
  ctxs : List Ctx
  residues : List Ctx
  flying : List Flying
  acting : Option (Eng × Entry)
  parts : Bool
  agenda : List Turn
  free : Nat
  mem : List Host.Cell
  marks : Sparse Bool
  scopes : Sparse (Option ScopeRec)
  tlb : List TlbEntry
  walks : List WalkEntry
  cores : Sparse CoreSlot
  dies : Sparse Die
  cancels : List CancelRec
  staged : Sparse Word
  committed : Sparse Word
  pcstat : Word
  psyncs : List (Nat × Sparse Word)
  qlevels : Sparse QLevel
  qcfgs : Sparse QCfg
  tasks : List Task
  postSeq : Nat
  slices : Sparse (Option SliceSt)
  admAt : Sparse Nat
  pmc : Sparse Word
  regions : List Region
  windows : List Window
  contribs : List Contrib
  conns : Sparse Conn
  netHolds : List NetHold
  netSeq : Nat
  tssKeys : Sparse (BitVec 256)
  timePort : Option Nat
  promoting : Option Nat
  promoEnd : Nat
  node : Nat
  links : BitVec 16
  hqs : Sparse HQueue
  hostChans : Sparse HostChan
  feats : Sparse Feat
  functions : Nat
  stores : List (Nat × BitVec 32)
  atRest : List Nat
  shapes : Sparse (Option Shape)
  demoted : List (Nat × Nat)
  demCur : Nat
  demAt : Nat
  boot : Boot
  rstate : BitVec 8
  imgaddr : Word
  imglen : BitVec 32
  flash : List Byte
  devRec : DeviceRec
  identity : List (List Byte)
  hostMem : Sparse Byte
  mlog : List (BitVec 512)
  repair : List Defect
  thermal : Sparse Nat
  clusters : Sparse Cluster
  voff : Sparse Int
  slew : Int
  slewAcc : Nat
  retired : List Nat
  frames : List Nat
  quotaUsed : Sparse Nat
  outbox : List Out
  deriving DecidableEq, Repr

/-- Why the machine stops. (DESIGN CHOICE, log 50) -/
inductive Fault where
  /-- Raised by `step` for a turn that names a core on which no context runs: there is no instruction
  to execute. Safe: no such move of the hardware exists. -/
  | noContext
  deriving DecidableEq, Repr

/-- Why an instruction has no meaning. -/
inductive Refusal where
  /-- Raised by `exec` for an instruction not modelled yet. Safe: nothing can be proved of it. -/
  | notModelled (mnemonic : String)
  deriving DecidableEq, Repr

/-! ### Values at reset -/

/-- A clean zero scalar. -/
def SReg.zero : SReg := { bits := 0#64, pois := false }

/-- A clean zero mask. -/
def KReg.zero : KReg := { bits := 0#64, pois := 0#64 }

/-- A clean zero cell. -/
def Cell.zero : Cell := { bits := 0#32, pois := false }

/-- A clean zero plane cell. -/
def PCell.zero : PCell := { bits := 0#48, pois := false }

/-- Empty token FIFOs. -/
def Fifos.zero : Fifos := { sl := 0, ls := 0, lx := 0, xl := 0, xv := 0, vx := 0, vs := 0, sv := 0 }

/-- A register bank as at task entry: VC 64, ASHAPE 0xF, all else zero (R17, R45, R46, R349). -/
def RegBank.entry : RegBank :=
  { s := [], k := [], vc := 64#7, ashape := 15#4, emode := 0#4, estat := 0#7, sqp := 0#12,
    fifo := Fifos.zero, qL := [], qX := [], qV := [], qS := [], wait := none }

/-- A tile register at task entry: OFF, default policy OFF (R17, R54). -/
def Tile.entry : Tile :=
  { cells := [], state := .off, pol := .off, waking := false, dropAtWake := false, lock := false,
    moveDue := false, spill := none }

/-- A plane at task entry: zero (R17), ZMASK set (R354). -/
def Plane.entry : Plane := { cells := [], zmask := true, spill := none }

/-- A weight plane at task entry: zero, poison clear (R223). -/
def WPlane.entry : WPlane :=
  { bytes := [], pois := [], scales := [], spois := [], presence := 0#32, zmask := true }

/-- The mask parameter block at task entry (R223). -/
def MaskBlock.entry : MaskBlock :=
  { rows := [], fill := 0#48, half := false, out := false, pois := false, zmask := true }

/-- A scratchpad bank at task entry: OFF, policy OFF (R17, R54). -/
def PadBank.entry : PadBank := { state := .off, pol := .off, waking := false, dropAtWake := false }

/-- A gutter at reset: disabled, every field zero (R89, R91). -/
def Gutter.zero : Gutter :=
  { en := false, base := 0#12, slotg := 0#8, nslot := 0#12, err := false, free := 0, filled := 0,
    head := 0, lens := [], flight := [], waiters := [] }

/-- A landing-buffer descriptor at reset (R94). -/
def LBuf.zero : LBuf := { en := false, inuse := false, base := 0#12, sizeg := 0#9 }

/-- An unbound queue register. -/
def QBinding.zero : QBinding := { desc := none, scope := 0#3, held := none }

/-- An idle copy channel (R282). -/
def Chan.idle : Chan :=
  { run := false, err := false, phase := .start, ecode := 0#8, donecnt := 0#16, cur := none,
    pend := none, elems := 0, bytes := 0, bad := [], badoff := 2 ^ 64 - 1, held := [], code := none, ptag := none,
    resv := [], fetched := none, vlim := none, stalled := false }

/-- A send slot never used (R285). (DESIGN CHOICE, log 1) -/
def SendSlot.zero : SendSlot :=
  { gen := 0#8, used := false, taken := false, sent := false, delivered := false, late := false,
    err := false, ecode := 0#8, tstamp := 0#48, handle := 0#32, bufs := [], time := 0#64, due := 0, shadow := false, ver := 0#32,
    msg := [], pois := false }

/-- A context as created: the entry state of R17, VCFG 1,000 (R101), PBUD 20,000 (R306), SRAMCFG 48
banks and no L1 (R82); every register the manual gives no value for is zero (DESIGN CHOICE, log 1). -/
def Ctx.blank : Ctx :=
  { id := 0, place := .nowhere, pc := 0#64, base := RegBank.entry, tbank := RegBank.entry,
    sbank := RegBank.entry, tiles := [], acc := [], active := WPlane.entry, shadow := WPlane.entry,
    mask := MaskBlock.entry, feed := [], foff := [], prog := none, latches := [], pad := [],
    gpois := [], glive := [], banks := [], spbanks := 48, l1size := 0#2, l1 := [], gutters := [],
    lbufs := [], bindings := [], qbinds := [], qterm := 0#4, qlast := 0#2, cpfail := 0#32,
    vwlim := 1000#20, pbud := 20000#18, spmsel := 0#6, rslots := [], builds := [], chans := [],
    sends := [], prefetches := [], tvec := 0#64, tepc := 0#64, tcause := 0#64, tval := 0#64,
    tscr := 0#64, tbudget := 0, svec := 0#64, sepc := 0#64, scause := 0#64, sval := 0#64,
    sscr := 0#64, thnd := false, shnd := false, level := .tenant, vdn := 0#6, part := 0#4,
    queue := 0#6, disp := 0#2, lcore := 0#16, kept := false, crewIx := 0, crewSz := 0, trec := 0#64, fullt := false,
    regabs := false, held := false, saveReq := false, sliceOld := false, risen := false, forced := false, sliced := false, vcyc := 0, posted := [],
    progT := 0, progX := 0, task := none, halted := false, savet := 0 }

/-- A core with no resident context and no defect (DESIGN CHOICE, log 1). -/
def CoreSlot.zero : CoreSlot :=
  { run := none, second := none, disabled := false, noT15 := false, removed := 0, courses := 15#4
    courseAt := 0, volts := [] }

/-- A die at reset: event registers zero (R311), watchdog disarmed, alive (DESIGN CHOICE, log 1). -/
def Die.zero : Die :=
  { sevbase := 0#64, sevprod := 0#32, sevcons := 0#32, sevlost := 0#32, sevcnt := 0#64, wdog := none,
    wdogAt := 0, wdogX := 0, beatAt := 0, alive := true }

/-- An empty sector. -/
def Sector.zero : Sector := { vers := [], waiters := [] }

/-- A control block at reset (R395). -/
def QBlock.zero : QBlock :=
  { rbase := 0#64, log2cap := 0#5, hostr := false, state := 0#2, vdn := 0#6, qnum := 0#6, rsv84 := 0#4,
    ridx := 0#32, widx := 0#32, ecode := 0#8, msix := 0xFF#8, ncnt := 0#64, outc := 0, rsv235 := 0#277 }

/-- A host queue at reset (R390, R395). (DESIGN CHOICE, log 1) -/
def HQueue.zero : HQueue :=
  { base := 0#64, hostr := false, log2cap := 4#5, msix := 0xFF#8, work := QBlock.zero,
    blkA := QBlock.zero, blkB := QBlock.zero, sel := false, seq := 0#63, thread := none, inline := none,
    eidx := 0#32, eph := false, waiting := none, stopReq := false, begun := false, idle := 0 }

/-- A host copy channel, idle. -/
def HostChan.idle : HostChan := { chan := Chan.idle, vd := 0, q := 0, notify := false, busy := false }

/-- A function with no feature enabled (R399). -/
def Feat.zero : Feat := { drv := 0#128, on := 0#128, accept := false, refused := false }

/-- A closed connection. -/
def Conn.closed : Conn :=
  { isOpen := false, txver := false, repl := false, shadow := false, ingress := 0, vdn := 0, lcore := 0,
    gutter := 0, base := 0#64, sector := 0, rxerr := 0, xport := 0#320 }

/-- A cluster at reset: the limit and DFRZ of R410 and R411, no reservation. -/
def Cluster.zero : Cluster :=
  { limit := Config.clusterLimit, held := [], pending := [], freezeEnd := 0, dfrz := 32 }

/-- A device record of no content. (DESIGN CHOICE, log 1) -/
def DeviceRec.blank : DeviceRec := { identity := [], die1 := [], defects := [], sign := [] }

/-- A queue that no table configures. -/
def QCfg.zero : QCfg :=
  { en := false, die := 0, cls := 0, lvl := 0, vd := 0, l1 := 0, sp := 0, ssh := 0, tp := 0#64, stack := 0#64 }

/-- A queue at level 0 with floor 0 (R324). -/
def QLevel.zero : QLevel := { level := 0, floor := 0 }

/-- What an unlisted byte of memory reads as: the zero of R97 and R122. (DEDUCED, log 5) -/
def memDefault : Nat → Byte := fun _ => 0#8

/-- The canonical form of memory. (DEDUCED, log 5) -/
abbrev Memory.wf (m : List Host.Cell) : Bool := Sparse.wf memDefault m

/-- Reset value of a partition configuration register (R371 to R374, R382): PCTL has UCAP 1,000,
WIN 10, HORIZ 100, and EN where it always reads 1. -/
def cfgReset (n : Nat) : Word :=
  if 0x400 ≤ n ∧ n ≤ 0x40F then
    (1000#64 <<< 30) ||| (10#64 <<< 20) ||| (100#64 <<< 4) |||
      (if n = 0x400 ∨ n = 0x40F then 1#64 <<< 63 else 0#64)
  else 0#64

/-- The module after reset, before firmware runs: no context exists, memory lists nothing. (DESIGN CHOICE, log 1) -/
def State.reset : State :=
  { now := 0, ctx := Ctx.blank, ctxs := [], residues := [], flying := [], acting := none, parts := false, agenda := [], free := 0, mem := [],
    marks := [], scopes := [], tlb := [], walks := [], cores := [], dies := [], cancels := [], staged := [],
    committed := [], pcstat := 1#64 <<< 63, psyncs := [], qlevels := [],
    qcfgs := [], tasks := [], postSeq := 0, slices := [], admAt := [], pmc := [], regions := [], windows := [], contribs := [],
    conns := [], netHolds := [], netSeq := 0, tssKeys := [], timePort := none, promoting := none, promoEnd := 0, node := 0,
    links := 0#16, hqs := [], hostChans := [], feats := [], functions := 0, stores := [], atRest := [], shapes := [], demoted := [], demCur := 0, demAt := 0, boot := .off, rstate := 1#8, imgaddr := 0#64,
    imglen := 0#32, flash := [], devRec := DeviceRec.blank, identity := [], hostMem := [], mlog := [], repair := [], thermal := [],
    clusters := [], voff := [], slew := 0, slewAcc := 0, retired := [], frames := [], quotaUsed := [], outbox := [] }

end Sys2Proof.Machine
end

