-- ==== Sys2Proof/Machine/Num.lean ====
section
/-! DEFINITION. Number formats, rounding, conversion, requantisation and the transcendentals (R60 to R79),
computed exactly on integers and rounded once. -/

namespace Sys2Proof.Machine

/-! ### Bits and flags -/

/-- The signed value of a bit pattern of width n. -/
def signedOf (n : Nat) (v : Nat) : Int := if v < 2 ^ (n - 1) then (v : Int) else (v : Int) - 2 ^ n

/-- The pattern of width n of an integer, modulo 2ⁿ. -/
def wrapTo (n : Nat) (v : Int) : Nat := (v % (2 ^ n : Int)).toNat

/-- Flag bits of ESTAT (R48). -/
def flagNV : BitVec 7 := 1#7
def flagDZ : BitVec 7 := 2#7
def flagOF : BitVec 7 := 4#7
def flagUF : BitVec 7 := 8#7
def flagNX : BitVec 7 := 16#7
def flagSAT : BitVec 7 := 32#7
def flagIOV : BitVec 7 := 64#7

/-- Rounding modes by EMODE.RM (R47, R67). -/
inductive Rm where
  | rne
  | rtz
  | rdn
  | rup
  | rna
  deriving DecidableEq, Repr

/-- The mode of EMODE[2:0] (R47); the field never holds 5 to 7. -/
def rmOf : Nat → Rm
  | 1 => .rtz
  | 2 => .rdn
  | 3 => .rup
  | 4 => .rna
  | _ => .rne

/-- A floating-point format: exponent and fraction widths, bias, and what the top exponent means: 0
ordinary numbers, 1 ordinary but for the NaN of e4m3, 2 infinity and NaN (R61). -/
structure Fmt where
  e : Nat
  f : Nat
  bias : Nat
  top : Nat
  deriving DecidableEq, Repr

def fE2M1 : Fmt := { e := 2, f := 1, bias := 1, top := 0 }
def fE4M3 : Fmt := { e := 4, f := 3, bias := 7, top := 1 }
def fE5M2 : Fmt := { e := 5, f := 2, bias := 15, top := 2 }
def fF16 : Fmt := { e := 5, f := 10, bias := 15, top := 2 }
def fBF16 : Fmt := { e := 8, f := 7, bias := 127, top := 2 }
def fF32 : Fmt := { e := 8, f := 23, bias := 127, top := 2 }
def fF48 : Fmt := { e := 10, f := 37, bias := 511, top := 2 }

/-- A value: NaN (made by an invalid operation or not), an infinity, or sign and magnitude m × 2ᵉ. -/
inductive Val where
  | nan (made : Bool)
  | inf (neg : Bool)
  | fin (neg : Bool) (m : Nat) (e : Int)
  deriving DecidableEq, Repr

/-- Width of a format in bits. -/
def Fmt.width (t : Fmt) : Nat := 1 + t.e + t.f

/-- The value of a bit pattern (R61). -/
def Fmt.decode (t : Fmt) (bits : Nat) : Val :=
  let neg := bits / 2 ^ (t.e + t.f) % 2 == 1
  let ex := bits / 2 ^ t.f % 2 ^ t.e
  let fr := bits % 2 ^ t.f
  if t.top = 2 ∧ ex = 2 ^ t.e - 1 then (if fr = 0 then .inf neg else .nan false)
  else if t.top = 1 ∧ ex = 2 ^ t.e - 1 ∧ fr = 2 ^ t.f - 1 then .nan false
  else if ex = 0 then .fin neg fr (1 - (t.bias : Int) - t.f)
  else .fin neg (2 ^ t.f + fr) ((ex : Int) - t.bias - t.f)

/-- The canonical NaN (R62); e2m1 has none, and a NaN becomes +0 there (R68). -/
def Fmt.nanBits (t : Fmt) : Nat :=
  if t.top = 2 then (2 ^ t.e - 1) * 2 ^ t.f + 2 ^ (t.f - 1)
  else if t.top = 1 then 2 ^ (t.e + t.f) - 1
  else 0

/-- The largest finite magnitude's pattern (R61). -/
def Fmt.maxBits (t : Fmt) : Nat :=
  if t.top = 2 then (2 ^ t.e - 1) * 2 ^ t.f - 1
  else if t.top = 1 then 2 ^ (t.e + t.f) - 2
  else 2 ^ (t.e + t.f) - 1

/-- The sign bit in place. -/
def Fmt.signBit (t : Fmt) (neg : Bool) : Nat := if neg then 2 ^ (t.e + t.f) else 0

/-- Whether a quotient q with remainder rem of 2ˢ rounds up in magnitude (R67). -/
def roundUp (md : Rm) (neg : Bool) (q rem s : Nat) : Bool :=
  if rem = 0 then false
  else match md with
    | .rtz => false
    | .rdn => neg
    | .rup => !neg
    | .rne => 2 * rem > 2 ^ s || (2 * rem == 2 ^ s && q % 2 == 1)
    | .rna => 2 * rem ≥ 2 ^ s

/-- m × 2ᵉ rounded to a multiple of 2^q: the multiple and whether it is inexact. -/
def roundAt (md : Rm) (neg : Bool) (m : Nat) (e q : Int) : Nat × Bool :=
  if q ≤ e then (m * 2 ^ (e - q).toNat, false)
  else
    let s := (q - e).toNat
    let k := m / 2 ^ s
    let r := m % 2 ^ s
    (if roundUp md neg k r s then k + 1 else k, r != 0)

/-- The exponent of the last place of a magnitude m × 2ᵉ in a format, unbounded above (R67). -/
def Fmt.quantum (t : Fmt) (m : Nat) (e : Int) : Int :=
  max ((Nat.log2 m : Int) + e - t.f) (1 - (t.bias : Int) - t.f)

/-- What an overflowing result becomes (R68). -/
def Fmt.overflow (t : Fmt) (md : Rm) (sat neg : Bool) : Nat × BitVec 7 :=
  let mx := t.signBit neg + t.maxBits
  let infb := t.signBit neg + (2 ^ t.e - 1) * 2 ^ t.f
  let fl := flagOF ||| flagNX
  if t.top = 0 then (mx, fl ||| flagSAT)
  else if t.top = 1 then (if sat then (mx, fl ||| flagSAT) else (t.nanBits, fl))
  else match md with
    | .rtz => (mx, fl)
    | .rdn => if sat then (mx, fl ||| flagSAT) else (if neg then infb else mx, fl)
    | .rup => if sat then (mx, fl ||| flagSAT) else (if neg then mx else infb, fl)
    | _ => if sat then (mx, fl ||| flagSAT) else (infb, fl)

/-- A finite magnitude rounded into a format, with the flags of R68 and R69. -/
def Fmt.roundFin (t : Fmt) (md : Rm) (sat neg : Bool) (m : Nat) (e : Int) : Nat × BitVec 7 :=
  if m = 0 then (t.signBit neg, 0#7)
  else
    let q := t.quantum m e
    let (k, nx) := roundAt md neg m e q
    let (k, q) := if 2 ^ (t.f + 1) ≤ k then (k / 2, q + 1) else (k, q)
    let mag := if k < 2 ^ t.f then k else ((q + t.f + t.bias).toNat - 1) * 2 ^ t.f + k
    if t.maxBits < mag then t.overflow md sat neg
    else
      let tiny := decide ((Nat.log2 m : Int) + e < 1 - (t.bias : Int))
      (t.signBit neg + mag,
        (if nx then flagNX else 0#7) ||| (if nx && tiny then flagUF else 0#7))

/-- A value rounded into a format; infinities and NaNs by R62 and R68. A NaN that an operation made sets
NV. -/
def Fmt.round (t : Fmt) (md : Rm) (sat : Bool) : Val → Nat × BitVec 7
  | .nan made => (t.nanBits, if made || t.top == 0 then flagNV else 0#7)
  | .inf neg =>
    if t.top = 0 then (t.signBit neg + t.maxBits, flagNV ||| flagSAT)
    else if t.top = 1 then
      (if sat then (t.signBit neg + t.maxBits, flagNV ||| flagSAT) else (t.nanBits, flagNV))
    else if sat then (t.signBit neg + t.maxBits, flagSAT)
    else (t.signBit neg + (2 ^ t.e - 1) * 2 ^ t.f, 0#7)
  | .fin neg m e => t.roundFin md sat neg m e

/-! ### Exact arithmetic -/

/-- A magnitude with its sign as an integer. -/
def signedMag (neg : Bool) (m : Nat) : Int := if neg then -(m : Int) else m

/-- The sign of an exact sum of zero (R63). -/
def zeroSign (md : Rm) (a b : Bool) : Bool := if a = b then a else md == .rdn

/-- The exact sum (R63, R69, R74). A NaN made by a product keeps its NV beside a NaN operand.
(DESIGN CHOICE, log 56) -/
def Val.add (md : Rm) : Val → Val → Val
  | .nan x, .nan y => .nan (x || y)
  | .nan x, _ => .nan x
  | _, .nan y => .nan y
  | .inf a, .inf b => if a = b then .inf a else .nan true
  | .inf a, _ => .inf a
  | _, .inf b => .inf b
  | .fin a m e, .fin b n g =>
    let q := min e g
    let s := signedMag a (m * 2 ^ (e - q).toNat) + signedMag b (n * 2 ^ (g - q).toNat)
    if s = 0 then .fin (if m = 0 ∧ n = 0 then zeroSign md a b else md == .rdn) 0 q
    else .fin (decide (s < 0)) s.natAbs q

/-- The exact product (R69, R74). -/
def Val.mul : Val → Val → Val
  | .nan x, .nan y => .nan (x || y)
  | .nan x, _ => .nan x
  | _, .nan y => .nan y
  | .inf a, .inf b => .inf (a != b)
  | .inf a, .fin b n _ => if n = 0 then .nan true else .inf (a != b)
  | .fin a m _, .inf b => if m = 0 then .nan true else .inf (a != b)
  | .fin a m e, .fin b n g => .fin (a != b) (m * n) (e + g)

/-- The value with its sign changed. -/
def Val.neg : Val → Val
  | .nan x => .nan x
  | .inf a => .inf !a
  | .fin a m e => .fin (!a) m e

/-- The value times 2ᵏ. -/
def Val.scale (k : Int) : Val → Val
  | .fin a m e => .fin a m (e + k)
  | v => v

/-- An integer as a value. -/
def Val.ofInt (i : Int) : Val := .fin (decide (i < 0)) i.natAbs 0

/-- The value of an integer pattern of width n, signed or not. -/
def intOf (signed : Bool) (n v : Nat) : Int := if signed then signedOf n v else (v : Int)

/-- Less than on finite values and infinities; NaN is less than nothing. -/
def Val.lt : Val → Val → Bool
  | .nan _, _ => false
  | _, .nan _ => false
  | .inf a, .inf b => a && !b
  | .inf a, .fin _ _ _ => a
  | .fin _ _ _, .inf b => !b
  | .fin a m e, .fin b n g =>
    let q := min e g
    decide (signedMag a (m * 2 ^ (e - q).toNat) < signedMag b (n * 2 ^ (g - q).toNat))

/-- Whether a value is NaN. -/
def Val.isNan : Val → Bool
  | .nan _ => true
  | _ => false

/-- Whether a value's sign bit is set. -/
def Val.sign : Val → Bool
  | .nan _ => false
  | .inf a => a
  | .fin a _ _ => a

/-! ### Requantisation (R76) -/

/-- RoundShift: t / 2^sh rounded; the flag is NX. -/
def roundShift (t : Int) (sh : Nat) (md : Rm) : Int × Bool :=
  if sh = 0 then (t, false)
  else
    let q := t / (2 ^ sh : Int)
    let rem := (t % (2 ^ sh : Int)).toNat
    if rem = 0 then (q, false)
    else match md with
      | .rdn => (q, true)
      | .rup => (q + 1, true)
      | .rtz => (if t < 0 then q + 1 else q, true)
      | .rna =>
        (if 2 * rem > 2 ^ sh then q + 1 else if 2 * rem < 2 ^ sh then q
         else if t < 0 then q else q + 1, true)
      | .rne =>
        (if 2 * rem > 2 ^ sh then q + 1 else if 2 * rem < 2 ^ sh then q
         else if q % 2 = 0 then q else q + 1, true)

/-- Clamps to a range; the flag is SAT. -/
def clampTo (lo hi v : Int) : Int × Bool :=
  if hi < v then (hi, true) else if v < lo then (lo, true) else (v, false)

/-- Requant of R76 into an integer range, with its flags. -/
def requant (x m z : Int) (sh : Nat) (lo hi : Int) (md : Rm) : Int × BitVec 7 :=
  let (y, nx) := roundShift (x * m + z * 2 ^ sh) sh md
  let (v, st) := clampTo lo hi y
  (v, (if nx then flagNX else 0#7) ||| (if st then flagSAT else 0#7))

/-- Range of an integer type of width n. -/
def minOf (signed : Bool) (n : Nat) : Int := if signed then -(2 ^ (n - 1) : Int) else 0
def maxOf (signed : Bool) (n : Nat) : Int := if signed then (2 ^ (n - 1) : Int) - 1 else (2 ^ n : Int) - 1

/-! ### Element types (R143) -/

/-- An element type: an integer of a width, a float of a format. -/
inductive ETy where
  | int (signed : Bool) (w : Nat)
  | flt (t : Fmt)
  deriving DecidableEq, Repr

/-- Width of an element. -/
def ETy.width : ETy → Nat
  | .int _ w => w
  | .flt t => t.width

/-- The type of an ET code. -/
def etOf : Nat → ETy
  | 0 => .int true 8
  | 1 => .int false 8
  | 2 => .int true 16
  | 3 => .int false 16
  | 4 => .int true 32
  | 5 => .flt fF32
  | 6 => .flt fF16
  | _ => .flt fBF16

/-- The element type of a 5-bit code; a scaled type gives its element. -/
def dtOf : Nat → ETy
  | 0 => .int true 8
  | 1 => .int false 8
  | 2 => .int true 16
  | 3 => .int false 16
  | 4 => .int true 32
  | 5 => .int false 32
  | 6 => .int true 4
  | 8 => .flt fE2M1
  | 9 => .flt fE4M3
  | 10 => .flt fE5M2
  | 11 => .flt fF16
  | 12 => .flt fBF16
  | 13 => .flt fF32
  | 14 => .int true 8
  | 16 => .flt fE2M1
  | 17 => .flt fE4M3
  | 18 => .flt fE5M2
  | _ => .int true 32

/-! ### Conversions (R70) -/

/-- A float to an integer type: rounded, saturated (R70). (DEDUCED, log 47) -/
def floatToInt (signed : Bool) (w : Nat) (md : Rm) : Val → Int × BitVec 7
  | .nan _ => (0, flagNV)
  | .inf neg => (if neg then minOf signed w else maxOf signed w, flagNV ||| flagSAT)
  | .fin neg m e =>
    let (k, nx) := roundAt md neg m e 0
    let (v, st) := clampTo (minOf signed w) (maxOf signed w) (signedMag neg k)
    (v, (if nx then flagNX else 0#7) ||| (if st then flagNV ||| flagSAT else 0#7))

/-- VCVT of one element (R70): the destination pattern and flags. An infinite element saturates under SAT whatever the
types (R68, R256). (DEDUCED, log 73) -/
def convert (src dst : ETy) (md : Rm) (sat : Bool) (bits : Nat) : Nat × BitVec 7 :=
  match src, dst with
  | .flt s, .flt d => d.round md sat (s.decode bits)
  | .flt s, .int sg w =>
    let (v, fl) := floatToInt sg w md (s.decode bits)
    (wrapTo w v, fl)
  | .int sg w, .flt d => d.round md sat (Val.ofInt (intOf sg w bits))
  | .int sg w, .int sg' w' =>
    let v := intOf sg w bits
    if sat then
      let (c, st) := clampTo (minOf sg' w') (maxOf sg' w') v
      (wrapTo w' c, if st then flagSAT else 0#7)
    else (wrapTo w' v, 0#7)

/-! ### Element arithmetic (R71, R249, R250) -/

/-- An exact integer result narrowed: wrapped, or clamped with SAT (R71). -/
def narrow (signed : Bool) (w : Nat) (sat : Bool) (v : Int) : Nat × BitVec 7 :=
  if sat then
    let (c, st) := clampTo (minOf signed w) (maxOf signed w) v
    (wrapTo w c, if st then flagSAT else 0#7)
  else (wrapTo w v, 0#7)

/-- A binary operation on elements: integer exactly and narrowed, float exactly and rounded once. -/
def arith2 (ty : ETy) (md : Rm) (sat : Bool) (fi : Int → Int → Int) (ff : Val → Val → Val)
    (a b : Nat) : Nat × BitVec 7 :=
  match ty with
  | .int sg w => narrow sg w sat (fi (intOf sg w a) (intOf sg w b))
  | .flt t => t.round md sat (ff (t.decode a) (t.decode b))

/-- A fused operation on three elements (R249). -/
def arith3 (ty : ETy) (md : Rm) (sat : Bool) (fi : Int → Int → Int → Int)
    (ff : Val → Val → Val → Val) (a b d : Nat) : Nat × BitVec 7 :=
  match ty with
  | .int sg w => narrow sg w sat (fi (intOf sg w a) (intOf sg w b) (intOf sg w d))
  | .flt t => t.round md sat (ff (t.decode a) (t.decode b) (t.decode d))

/-- Order of VMIN and VMAX on floats: −0 below +0 (R250). -/
def fltLess (t : Fmt) (a b : Nat) : Bool :=
  let x := t.decode a
  let y := t.decode b
  if x.lt y then true else if y.lt x then false else x.sign && !y.sign

/-- VMIN or VMAX of two elements (R250). -/
def minMax (ty : ETy) (isMax : Bool) (a b : Nat) : Nat :=
  match ty with
  | .int sg w =>
    let less := decide (intOf sg w a < intOf sg w b)
    if less != isMax then a else b
  | .flt t =>
    let na := (t.decode a).isNan
    let nb := (t.decode b).isNan
    if na && nb then t.nanBits
    else if na then b
    else if nb then a
    else if fltLess t a b != isMax then a else b

/-- VMIN's or VMAX's result under the saturate bit: an infinite one becomes the largest finite value (R68).
(DEDUCED, log 47) -/
def extremeElem (ty : ETy) (isMax sat : Bool) (a b : Nat) : Nat × BitVec 7 :=
  let v := minMax ty isMax a b
  match ty with
  | .int _ _ => (v, 0#7)
  | .flt t => if sat then t.round .rne true (t.decode v) else (v, 0#7)

/-- VABS of an element (R249). -/
def absElem (ty : ETy) (sat : Bool) (a : Nat) : Nat × BitVec 7 :=
  match ty with
  | .int sg w => narrow sg w sat (intOf sg w a).natAbs
  | .flt t => if (t.decode a).isNan then (t.nanBits, 0#7) else (a % 2 ^ (t.e + t.f), 0#7)

/-- VNEG of an element (R249). -/
def negElem (ty : ETy) (sat : Bool) (a : Nat) : Nat × BitVec 7 :=
  match ty with
  | .int sg w => narrow sg w sat (-(intOf sg w a))
  | .flt t => if (t.decode a).isNan then (t.nanBits, 0#7)
              else ((a + 2 ^ (t.e + t.f)) % 2 ^ t.width, 0#7)

/-- The relation of a compare on one element, and whether NV is set (R253): 0 EQ, 1 LT, 2 LE. -/
def relElem (ty : ETy) (rel : Nat) (a b : Nat) : Bool × Bool :=
  match ty with
  | .int sg w =>
    let x := intOf sg w a
    let y := intOf sg w b
    (if rel = 0 then decide (x = y) else if rel = 1 then decide (x < y) else decide (x ≤ y), false)
  | .flt t =>
    let x := t.decode a
    let y := t.decode b
    if x.isNan || y.isNan then (false, rel != 0)
    else (if rel = 0 then !x.lt y && !y.lt x else if rel = 1 then x.lt y else !y.lt x, false)

/-- An element shift (R251): 0 left, 1 right, 2 right arithmetic; c is unsigned. -/
def shiftElem (ty : ETy) (kind : Nat) (sat : Bool) (a c : Nat) : Nat × BitVec 7 :=
  match ty with
  | .flt _ => (a, 0#7)
  | .int sg w =>
    if kind = 0 then
      if sat then
        if w ≤ c then
          (if a = 0 then (0, 0#7)
           else (wrapTo w (if intOf sg w a < 0 then minOf sg w else maxOf sg w), flagSAT))
        else narrow sg w true (intOf sg w a * 2 ^ c)
      else (if w ≤ c then 0 else a * 2 ^ c % 2 ^ w, 0#7)
    else if kind = 1 then (if w ≤ c then 0 else a / 2 ^ c, 0#7)
    else (wrapTo w (intOf sg w a / (2 ^ min c w : Int)), 0#7)

/-! ### Block scales (R64 to R66) -/

/-- The value of an e8m0 scale. -/
def scaleVal (e : Nat) : Option Int := if e = 255 then none else some ((e : Int) - 127)

/-- An element under a scale (R65); MXINT8 elements have six fraction bits (R64). -/
def scaledVal (code : Nat) (bits : Nat) (scale : Option Nat) : Val :=
  let base := match dtOf code with
    | .flt t => t.decode bits
    | .int sg w => (Val.ofInt (intOf sg w bits)).scale (if code = 14 then -6 else 0)
  match scale with
  | none => base
  | some e => match scaleVal e with
    | none => .nan false
    | some k => base.scale k

/-- emax of a scaled type (R66). -/
def emaxOf (code : Nat) : Int := if code = 16 then 2 else if code = 17 then 8 else if code = 18 then 15 else 0

/-- The magnitude of a finite source value, an infinity taken as the largest finite value (R66). -/
def blockFinite (t : Fmt) : Val → Val
  | .inf neg => match t.decode t.maxBits with
    | .fin _ m e => .fin neg m e
    | v => v
  | v => v

/-- floor(log₂ |v|) of a nonzero finite value. -/
def Val.floorLog2 : Val → Option Int
  | .fin _ m e => if m = 0 then none else some ((Nat.log2 m : Int) + e)
  | _ => none

/-- One element of a scaled block: divided by 2ˣ, rounded, saturated to the largest finite magnitude of the element
type (R66); an MXINT8 element past its range sets SAT, and NX where it is inexact, and −128 stays.
(DESIGN CHOICE, log 55) -/
def blockElem (code : Nat) (md : Rm) (x : Int) (v : Val) : Nat × BitVec 7 :=
  match dtOf code with
  | .flt t => t.round md true (v.scale (-x))
  | .int sg w =>
    match v.scale (6 - x) with
    | .fin neg m e =>
      let (k, nx) := roundAt md neg m e 0
      let (c, st) := clampTo (minOf sg w) (maxOf sg w) (signedMag neg k)
      (wrapTo w c, (if nx then flagNX else 0#7) ||| (if st then flagSAT else 0#7))
    | _ => (0, 0#7)

/-- A block of source values converted to a scaled type: the scale byte, the elements and flags; a block that holds a
NaN sets none. (DESIGN CHOICE, log 55) -/
def blockConvert (src : Fmt) (code : Nat) (md : Rm) (vals : List Val) : Nat × List (Nat × BitVec 7) :=
  if vals.any Val.isNan then (255, vals.map (fun _ => (0, 0#7)))
  else
    let fs := vals.map (blockFinite src)
    match (fs.filterMap Val.floorLog2).max? with
    | none => (0, vals.map (fun _ => (0, 0#7)))
    | some l =>
      let x := max (-127) (min 127 (l - emaxOf code))
      ((x + 127).toNat, fs.map (blockElem code md x))

/-! ### Course sums (R73, R74) -/

/-- RoundF48 under RNE; X sets only NV and OF from it (R74). -/
def roundF48 (v : Val) : Nat × BitVec 7 :=
  let (b, fl) := fF48.round .rne false v
  (b, fl &&& (flagNV ||| flagOF))

/-- The exact sum of a course's products, taken in K order: a NaN operand before the second infinity leaves NV clear.
(DESIGN CHOICE, log 56) -/
def courseSum (ps : List Val) : Val :=
  match ps with
  | [] => .fin false 0 0
  | p :: t => t.foldl (fun s v => s.add .rne v) p

/-- The chain over the selected courses in ascending order. -/
def courseChain (courses : List (List Val)) : Nat × BitVec 7 :=
  match courses.map (fun c => roundF48 (courseSum c)) with
  | [] => (0, 0#7)
  | (b, fl) :: t =>
    t.foldl (fun acc p =>
      let (s, f) := roundF48 ((fF48.decode acc.1).add .rne (fF48.decode p.1))
      (s, acc.2 ||| p.2 ||| f)) (b, fl)

/-- A float added to a plane cell: RoundF48 of the sum. -/
def addF48 (old s : Nat) : Nat × BitVec 7 := roundF48 ((fF48.decode old).add .rne (fF48.decode s))

/-- An exact integer added to an i48 cell, with IOV (R75). -/
def addI48 (old : Nat) (s : Int) : Nat × BitVec 7 :=
  let v := signedOf 48 old + s
  (wrapTo 48 v, if v < minOf true 48 ∨ maxOf true 48 < v then flagIOV else 0#7)

/-! ### Transcendentals (R77, R78) -/

/-- Fraction bits of the working precision. -/
def tP : Nat := 256

/-- One in the working precision. -/
def tOne : Nat := 2 ^ 256

/-- ln 2 in the working precision: the series of 1 / (k × 2ᵏ). -/
def tLn2 : Nat := (List.range 264).foldl (fun s k => s + tOne / ((k + 1) * 2 ^ (k + 1))) 0

/-- exp y for 0 ≤ y ≤ 1 in the working precision. -/
def tExp (y : Nat) : Nat :=
  ((List.range 70).foldl (fun (st : Nat × Nat) k =>
    let t := st.2 * y / tOne / (k + 1)
    (st.1 + t, t)) (tOne, tOne)).1

/-- ln of m in [1, 2), in the working precision: 2 atanh((m − 1) / (m + 1)). -/
def tLn (m : Nat) : Nat :=
  let z := (m - tOne) * tOne / (m + tOne)
  let z2 := z * z / tOne
  2 * ((List.range 90).foldl (fun (st : Nat × Nat) k =>
    (st.1 + st.2 / (2 * k + 1), st.2 * z2 / tOne)) (0, z)).1

/-- Integer square root, one bit a round. -/
def isqrt (n : Nat) : Nat :=
  (List.range (Nat.log2 n / 2 + 1)).reverse.foldl (fun r i =>
    if (r + 2 ^ i) * (r + 2 ^ i) ≤ n then r + 2 ^ i else r) 0

/-- A magnitude m × 2ᵉ in the working precision, cut off below it. -/
def toFix (m : Nat) (e : Int) : Nat :=
  if 0 ≤ e + tP then m * 2 ^ (e + tP).toNat else m / 2 ^ (-(e + tP)).toNat

/-- An inexact result just above a fixed-point magnitude: one more place, set. -/
def stickyFix (k : Nat) (e : Int) : Nat × Int := (2 * k + 1, e - 1)

/-- 2^x of a finite x, not one of the exact cases. -/
def exp2Approx (neg : Bool) (m : Nat) (e : Int) : Nat × Int :=
  let a := toFix m e
  let fl := if neg then -((a / tOne : Nat) : Int) - (if a % tOne = 0 then 0 else 1) else (a / tOne : Nat)
  let fr := if neg then (if a % tOne = 0 then 0 else tOne - a % tOne) else a % tOne
  stickyFix (tExp (fr * tLn2 / tOne)) (fl - tP)

/-- log₂ of a positive m × 2ᵉ that is no power of two: sign, magnitude, exponent. -/
def log2Approx (m : Nat) (e : Int) : Bool × Nat × Int :=
  let l := Nat.log2 m
  let mant := m * tOne / 2 ^ l
  let v : Int := ((l : Int) + e) * tOne + ((tLn mant * tOne / tLn2 : Nat) : Int)
  let (k, g) := stickyFix v.natAbs (-tP)
  (decide (v < 0), k, g)

/-- tanh of a nonzero magnitude; of one below 2⁻⁴⁰, just below it. -/
def tanhApprox (m : Nat) (e : Int) : Nat × Int :=
  if (Nat.log2 m : Int) + e < -40 then (m * 2 ^ 200 - 1, e - 200)
  else
  let y := 2 * toFix m e
  let n := y / tLn2 + 1
  let t := if 1000 < n then 0 else tExp (n * tLn2 - y) / 2 ^ n
  stickyFix ((tOne - t) * tOne / (tOne + t)) (-tP)

/-- Whether two finite values lie within a distance n × 2ᵠ of each other. -/
def within (v w : Val) (n : Nat) (q : Int) : Bool := match v.add .rne w.neg with
  | .fin _ d g => !(Val.fin false n q).lt (.fin false d g)
  | _ => false

/-- A correctly rounded result, or, where the manual gives only a bound, any within it that the free value picks
(R77): the nearest result moved by some places, those below a binade's edge being half an ulp, or, where the bound is an absolute one, any pattern; taken where it
keeps the bound. (DESIGN CHOICE, log 7) -/
def withinUlps (t : Fmt) (fn : Nat) (op ulps : Nat) (wide : Bool) (neg : Bool) (m : Nat) (e : Int) :
    Nat × BitVec 7 :=
  let r := t.round .rne false (.fin neg m e)
  if ulps = 0 then (r.1, r.2 ||| flagNX)
  else
    let k := Config.freeUlp fn (64 * t.e + t.f) op
    let mag := r.1 % 2 ^ (t.e + t.f) + k % (4 * ulps + 3)
    let cand := if wide then k % 2 ^ t.width else t.signBit neg + (mag - (2 * ulps + 1))
    let near := within (t.decode cand) (.fin neg m e)
    if near ulps (t.quantum m e) || (wide && near 1 (-23)) then (cand, r.2 ||| flagNX) else (r.1, r.2 ||| flagNX)

/-- Whether a magnitude is a power of two. -/
def isPow2 (m : Nat) : Bool := m != 0 && m == 2 ^ Nat.log2 m

/-- An exact result: rounded, no flag. -/
def exactly (t : Fmt) (v : Val) : Nat × BitVec 7 := ((t.round .rne false v).1, 0#7)

/-- Whether a finite value is held exactly by a format. (DESIGN CHOICE, log 7) -/
def fits (t : Fmt) (v : Val) : Bool := (t.round .rne false v).2 == 0#7

/-- VEXP2. -/
def vexp2Elem (t : Fmt) (op : Nat) : Nat × BitVec 7 :=
  match t.decode op with
  | .nan _ => (t.nanBits, 0#7)
  | .inf neg => if neg then (0, 0#7) else exactly t (.inf false)
  | .fin neg m e =>
    if m = 0 then exactly t (.fin false 1 0)
    else if 2 ^ 20 ≤ toFix m e / tOne then t.round .rne false (.fin false 1 (if neg then -4096 else 4096))
    else
      let whole := toFix m e % tOne = 0 ∧ -(tP : Int) ≤ e
      let n := signedMag neg (toFix m e / tOne)
      if whole ∧ fits t (.fin false 1 n) = true then exactly t (.fin false 1 n)
      else if whole then
        if n = -(t.bias : Int) - t.f then withinUlps t 0 op (if t = fF32 then 1 else 0) false false 1 n
        else t.round .rne false (.fin false 1 n)
      else
        let (k, g) := exp2Approx neg m e
        let r := t.round .rne false (.fin false k g)
        if r.1 = 0 ∨ r.2 &&& flagOF = flagOF then r else withinUlps t 0 op (if t = fF32 then 1 else 0) false false k g

/-- VLOG2. -/
def vlog2Elem (t : Fmt) (op : Nat) : Nat × BitVec 7 :=
  match t.decode op with
  | .nan _ => (t.nanBits, 0#7)
  | .inf neg => if neg then (t.nanBits, flagNV) else exactly t (.inf false)
  | .fin neg m e =>
    if m = 0 then ((exactly t (.inf true)).1, flagDZ)
    else if neg then (t.nanBits, flagNV)
    else if isPow2 m then exactly t (Val.ofInt ((Nat.log2 m : Int) + e))
    else
      let (sg, k, g) := log2Approx m e
      let l := (Nat.log2 m : Int) + e
      withinUlps t 1 op (if t = fF32 then 2 else 0) (decide (l = 0 ∨ l = -1)) sg k g

/-- VRCP. -/
def vrcpElem (t : Fmt) (op : Nat) : Nat × BitVec 7 :=
  match t.decode op with
  | .nan _ => (t.nanBits, 0#7)
  | .inf neg => (t.signBit neg, 0#7)
  | .fin neg m e =>
    if m = 0 then ((exactly t (.inf neg)).1, flagDZ)
    else if isPow2 m ∧ fits t (.fin neg 1 (-(Nat.log2 m : Int) - e)) = true then
      exactly t (.fin neg 1 (-(Nat.log2 m : Int) - e))
    else
      let (k, g) := if isPow2 m then (1, -(Nat.log2 m : Int) - e) else stickyFix (tOne / m) (-(tP : Int) - e)
      match t.round .rne false (.fin neg k g) with
      | (b, fl) => if fl &&& flagOF = flagOF then (b, fl)
                   else withinUlps t 2 op (if t = fF32 then 1 else 0) false neg k g

/-- VRSQ. -/
def vrsqElem (t : Fmt) (op : Nat) : Nat × BitVec 7 :=
  match t.decode op with
  | .nan _ => (t.nanBits, 0#7)
  | .inf neg => if neg then (t.nanBits, flagNV) else (0, 0#7)
  | .fin neg m e =>
    if m = 0 then ((exactly t (.inf neg)).1, flagDZ)
    else if neg then (t.nanBits, flagNV)
    else
      let m2 := if e % 2 = 0 then m else 2 * m
      let e2 := if e % 2 = 0 then e else e - 1
      if isPow2 m2 ∧ Nat.log2 m2 % 2 = 0 then
        exactly t (.fin false 1 (-((Nat.log2 m2 : Int) / 2) - e2 / 2))
      else
        let (k, g) := stickyFix (isqrt (2 ^ (2 * tP) / m2)) (-(tP : Int) - e2 / 2)
        withinUlps t 3 op (if t = fF32 then 1 else 0) false false k g

/-- VTANH. -/
def vtanhElem (t : Fmt) (op : Nat) : Nat × BitVec 7 :=
  match t.decode op with
  | .nan _ => (t.nanBits, 0#7)
  | .inf neg => exactly t (.fin neg 1 0)
  | .fin neg m e =>
    if m = 0 then (t.signBit neg, 0#7)
    else
      let (k, g) := tanhApprox m e
      let r := t.round .rne false (.fin neg k g)
      if r.1 = (exactly t (.fin neg 1 0)).1 then (r.1, flagNX)
      else withinUlps t 4 op (if t = fF32 then 2 else 1) false neg k g

end Sys2Proof.Machine
end

