-- ==== Sys2Proof/Machine/Base.lean ====
section
/-! DEFINITION. Accessors over the state: bytes, contexts, register banks, cores, clusters, counters of the
counter bank. -/

namespace Sys2Proof.Machine

/-! ### Bytes -/

/-- The number of a little-endian byte list (R1). -/
def natOfBytes : List Byte → Nat
  | [] => 0
  | b :: bs => b.toNat + 256 * natOfBytes bs

/-- The n little-endian bytes of a number (R1). -/
def bytesOfNat (n v : Nat) : List Byte :=
  (List.range n).map (fun i => BitVec.ofNat 8 (v / 256 ^ i))

/-- A field [lo + n - 1 : lo] of a number. -/
def bitsOf (v lo n : Nat) : Nat := v / 2 ^ lo % 2 ^ n

/-- Bit i of a number. -/
def bitOf (v i : Nat) : Bool := v / 2 ^ i % 2 == 1

/-- A Bool as a number. -/
def b2n (b : Bool) : Nat := if b then 1 else 0

/-- The ceiling of a quotient. -/
def ceilDiv (a b : Nat) : Nat := (a + b - 1) / b

/-- Replaces the element at an index; past the end nothing changes. -/
def putAt {α : Type} (l : List α) (i : Nat) (v : α) : List α := l.set i v

/-- A packed list of equal bit fields, the first lowest. -/
def packBits (w : Nat) : List Nat → Nat
  | [] => 0
  | v :: vs => v % 2 ^ w + 2 ^ w * packBits w vs

/-! ### Register banks (R349) -/

/-- The bank of the code that runs: the innermost open handler's, else the base bank. -/
def Ctx.bank (c : Ctx) : RegBank := if c.shnd then c.sbank else if c.thnd then c.tbank else c.base

/-- The number of the running code's bank: 0 of base code, 1 of the tenant handler, 2 of the steward handler. -/
def Ctx.bankIx (c : Ctx) : Nat := if c.shnd then 2 else if c.thnd then 1 else 0

/-- The bank whose entries a unit serves: the copy engine has none of its own (R349, R410). -/
def Ctx.unitBank (c : Ctx) (u : PowerUnit) : Nat := if u = .copy then 0 else c.bankIx

/-- Replaces the running code's bank. -/
def Ctx.setBank (c : Ctx) (b : RegBank) : Ctx :=
  if c.shnd then { c with sbank := b } else if c.thnd then { c with tbank := b } else { c with base := b }

/-- Whether a handler of the context is open (R299). -/
def Ctx.inHandler (c : Ctx) : Bool := c.thnd || c.shnd

/-- Whether the running code has STEWARD level (R298, R316, R346). -/
def Ctx.atSteward (c : Ctx) : Bool := c.level == .steward || c.shnd || c.risen

/-- The bank of the running code. -/
def State.bank (s : State) : RegBank := s.ctx.bank

/-- Replaces the context whose sequencer moves. -/
def State.setCtx (s : State) (c : Ctx) : State := { s with ctx := c }

/-- Replaces the running code's bank. -/
def State.setBank (s : State) (b : RegBank) : State := { s with ctx := s.ctx.setBank b }

/-- Moves the program counter. -/
def State.setPc (s : State) (pc : Word) : State := { s with ctx := { s.ctx with pc := pc } }

/-- Replaces memory's bytes. -/
def State.setMem (s : State) (m : List Host.Cell) : State := { s with mem := m }

/-- The value of a scalar register slot, unlisted ones clean zero. -/
def RegBank.getS (b : RegBank) (r : Nat) : SReg := Sparse.get (fun _ => SReg.zero) b.s r

/-- Writes a scalar register slot. -/
def RegBank.setS (b : RegBank) (r : Nat) (v : SReg) : RegBank :=
  { b with s := Sparse.set (fun _ => SReg.zero) b.s r v }

/-- The value of a mask register; k0 reads all ones, clean (R39). -/
def RegBank.getK (b : RegBank) (k : Nat) : KReg :=
  if k = 0 then { bits := BitVec.allOnes 64, pois := 0#64 } else Sparse.get (fun _ => KReg.zero) b.k k

/-- Writes a mask register; a write to k0 is discarded (R39). -/
def RegBank.setK (b : RegBank) (k : Nat) (v : KReg) : RegBank :=
  if k = 0 then b else { b with k := Sparse.set (fun _ => KReg.zero) b.k k v }

/-! ### Bound queue registers and scalar reads (R34, R38, R156) -/

/-- A binding's slot, 0 to 3, of a register that carries an alias q0 to q3 (R38). -/
def queueSlot (r : Reg) : Option Nat :=
  if 56 ≤ r.toNat ∧ r.toNat ≤ 59 then some (r.toNat - 56) else none

/-- The binding of a queue register. -/
def Ctx.qbind (c : Ctx) (n : Nat) : QBinding := Sparse.get (fun _ => QBinding.zero) c.qbinds n

/-- Replaces a binding. -/
def Ctx.setQbind (c : Ctx) (n : Nat) (b : QBinding) : Ctx :=
  { c with qbinds := Sparse.set (fun _ => QBinding.zero) c.qbinds n b }

/-- The binding slot of a register that is bound. -/
def Ctx.boundSlot (c : Ctx) (r : Reg) : Option Nat :=
  match queueSlot r with
  | some n => if (c.qbind n).desc.isSome then some n else none
  | none => none

/-- The value of a scalar register as a source: s0 is clean zero, a bound register its held entry
(R38, R156). -/
def Ctx.readS (c : Ctx) (r : Reg) : SReg :=
  if r = 0#6 then SReg.zero
  else match c.boundSlot r with
    | some n => ((c.qbind n).held).getD SReg.zero
    | none => c.bank.getS r.toNat

/-- Writes a scalar register: s0 discards (R38). The slot of a bound register holds the value until the
instruction pushes it. -/
def Ctx.writeS (c : Ctx) (r : Reg) (v : SReg) : Ctx :=
  if r = 0#6 then c else c.setBank (c.bank.setS r.toNat v)

/-- A scalar source. -/
def State.rd (s : State) (r : Reg) : SReg := s.ctx.readS r

/-- A scalar write. -/
def State.wr (s : State) (r : Reg) (v : SReg) : State := { s with ctx := s.ctx.writeS r v }

/-- A clean scalar write. -/
def State.wrc (s : State) (r : Reg) (v : Word) : State := s.wr r { bits := v, pois := false }

/-! ### Contexts -/

/-- The context with an identity, resident or in memory. -/
def State.findCtx (s : State) (id : Nat) : Option Ctx :=
  if s.ctx.id = id then some s.ctx else s.ctxs.find? (fun c => c.id == id)

/-- Replaces the context of the same identity. -/
def State.putCtx (s : State) (c : Ctx) : State :=
  if s.ctx.id = c.id then { s with ctx := c }
  else { s with ctxs := s.ctxs.map (fun d => if d.id = c.id then c else d) }

/-- Changes a context where there is one. -/
def State.mapCtx (s : State) (id : Nat) (f : Ctx → Ctx) : State :=
  match s.findCtx id with
  | some c => s.putCtx (f c)
  | none => s

/-- Makes a context the one whose sequencer moves. -/
def State.focus (s : State) (id : Nat) : State :=
  if s.ctx.id = id then s
  else match s.ctxs.find? (fun c => c.id == id) with
    | some c => { s with ctx := c, ctxs := s.ctx :: s.ctxs.filter (fun d => d.id != id) }
    | none => s

/-- Runs a step of another context and turns back to the first. -/
def State.onCtx (s : State) (id : Nat) (f : State → State) : State :=
  match s.findCtx id with
  | none => s
  | some _ => (f (s.focus id)).focus s.ctx.id

/-- Every context. -/
def State.allCtxs (s : State) : List Ctx := s.ctx :: s.ctxs

/-! ### Cores, dies, clusters (R7, R9) -/

/-- The physical core of a context, core 0 where it is on none. -/
def Ctx.core (c : Ctx) : Nat := match c.place with
  | .core p => p
  | _ => 0

/-- Whether a context holds a core. -/
def Ctx.resident (c : Ctx) : Bool := match c.place with
  | .core _ => true
  | _ => false

/-- The die of a physical core. -/
def dieOf (p : Nat) : Nat := p / Config.coresPerDie

/-- The cluster of a physical core, over the module. -/
def clusterOf (p : Nat) : Nat := p / Config.coresPerCluster

/-- A physical core's slot. -/
def State.coreSlot (s : State) (p : Nat) : CoreSlot := Sparse.get (fun _ => CoreSlot.zero) s.cores p

/-- Replaces a core's slot. -/
def State.setCore (s : State) (p : Nat) (c : CoreSlot) : State :=
  { s with cores := Sparse.set (fun _ => CoreSlot.zero) s.cores p c }

/-- Whether a context runs on its core (it may be resident yet idle). -/
def State.running (s : State) (c : Ctx) : Bool := match c.place with
  | .core p => (s.coreSlot p).run == some c.id
  | _ => false

/-- A die's registers. -/
def State.die (s : State) (d : Nat) : Die := Sparse.get (fun _ => Die.zero) s.dies d

/-- Replaces a die's registers. -/
def State.setDie (s : State) (d : Nat) (v : Die) : State :=
  { s with dies := Sparse.set (fun _ => Die.zero) s.dies d v }

/-- A cluster's power state. -/
def State.cluster (s : State) (n : Nat) : Cluster := Sparse.get (fun _ => Cluster.zero) s.clusters n

/-- Replaces a cluster's power state. -/
def State.setCluster (s : State) (n : Nat) (v : Cluster) : State :=
  { s with clusters := Sparse.set (fun _ => Cluster.zero) s.clusters n v }

/-! ### Virtual devices and configuration -/

/-- The virtual device of the running code: 0 at STEWARD (R304). (DEDUCED, log 15) -/
def Ctx.device (c : Ctx) : Nat := if c.atSteward then 0 else c.vdn.toNat

/-- The partition of the running code's accesses: 0 at STEWARD. (DEDUCED, log 15) -/
def Ctx.partition (c : Ctx) : Nat := if c.atSteward then 0 else c.part.toNat

/-- A committed partition configuration register (R370). -/
def State.cfg (s : State) (n : Nat) : Word := Sparse.get cfgReset s.committed n

/-- A staged partition configuration register (R370). -/
def State.stg (s : State) (n : Nat) : Word := Sparse.get cfgReset s.staged n

/-- Adds to a counter of a device's bank, modulo 2⁶⁴ (R308, R309). -/
def State.pmcAdd (s : State) (v i n : Nat) : State :=
  let k := v * 16 + i
  { s with pmc := Sparse.set (fun _ => 0#64) s.pmc k (Sparse.get (fun _ => 0#64) s.pmc k + BitVec.ofNat 64 n) }

/-- A counter of a device's bank. -/
def State.pmcGet (s : State) (v i : Nat) : Word := Sparse.get (fun _ => 0#64) s.pmc (v * 16 + i)

/-- A queue's degradation level and floor. -/
def State.qlevel (s : State) (p q : Nat) : QLevel := Sparse.get (fun _ => QLevel.zero) s.qlevels (p * 64 + q)

/-- Replaces a queue's level. -/
def State.setQlevel (s : State) (p q : Nat) (v : QLevel) : State :=
  { s with qlevels := Sparse.set (fun _ => QLevel.zero) s.qlevels (p * 64 + q) v }

/-- The next free value and the state with the counter advanced. (DESIGN CHOICE, log 6) -/
def State.freshBits (s : State) (i : Nat) : Word := Config.freeBits s.free i

/-- Counts one free value used. (DESIGN CHOICE, log 6) -/
def State.useFree (s : State) : State := { s with free := s.free + 1 }

/-- A unit of the running context frees its current reservation (R341). -/
def State.freeReserve (s : State) (u : PowerUnit) : State :=
  let n := clusterOf s.ctx.core
  let k := s.cluster n
  let mine (r : Reserve) : Bool := r.ctx == s.ctx.id && r.unit == u && r.bank == s.ctx.unitBank u
  if k.held.any mine || k.pending.any mine then
    s.setCluster n { k with held := k.held.filter (fun r => !mine r), pending := k.pending.filter (fun r => !mine r) }
  else s

/-! ### Tasks -/

/-- A task by its posting order. -/
def State.findTask (s : State) (t : Nat) : Option Task := s.tasks.find? (fun k => k.id == t)

/-- Replaces a task of the same identity. -/
def State.putTask (s : State) (k : Task) : State :=
  { s with tasks := s.tasks.map (fun j => if j.id = k.id then k else j) }

/-- The progress interval of the running task begins anew (R340). -/
def State.restartInterval (s : State) : State :=
  { s with ctx := { s.ctx with progT := match s.ctx.task with
      | some t => match s.findTask t with
        | some k => k.prog * 1000
        | none => 0
      | none => 0 } }

/-- A progress event of the running task (R32): the expiries are cleared, the interval begins anew. -/
def State.progressEvent (s : State) : State :=
  let s1 := s.restartInterval
  { s1 with ctx := { s1.ctx with progX := 0 } }

/-- Sends something out of the module. -/
def State.emit (s : State) (o : Out) : State := { s with outbox := s.outbox ++ [o] }

end Sys2Proof.Machine
end

