-- ==== Sys2Proof/Machine/Translate.lean ====
section
/-! DEFINITION. Address translation: the two table walks, permissions and TLBs (R358 to R366). -/

namespace Sys2Proof.Machine

/-! ### Physical memory -/

/-- One byte of device physical memory. -/
def State.byteAt (s : State) (pa : Nat) : Byte := Sparse.get memDefault s.mem pa

/-- n bytes of device physical memory. -/
def State.bytesAt (s : State) (pa n : Nat) : List Byte := Sparse.getList memDefault s.mem pa n

/-- The little-endian number of n bytes of device physical memory. -/
def State.natAt (s : State) (pa n : Nat) : Nat := natOfBytes (s.bytesAt pa n)

/-- Whether the 64-byte sector of an address carries a poison mark (R53). -/
def State.marked (s : State) (pa : Nat) : Bool := Sparse.get (fun _ => false) s.marks (pa / 64)

/-- Whether any sector of n bytes at an address carries a mark. -/
def State.anyMarked (s : State) (pa n : Nat) : Bool :=
  (List.range ((pa + n - 1) / 64 + 1 - pa / 64)).any (fun i => s.marked (pa + 64 * i))

/-- HBM of the device physical map (R358). -/
def isHbm (pa : Nat) : Bool := pa < 2 ^ 39

/-- Tier 2 of the device physical map (R358). -/
def isTier2 (pa : Nat) : Bool := 2 ^ 40 ≤ pa && pa < 2 ^ 41

/-- The device physical map (R358). -/
def isMemory (pa : Nat) : Bool := isHbm pa || isTier2 pa

/-- The home die of a line (R85): of HBM by bit 38, of tier 2 by channel. -/
def homeDie (pa : Nat) : Nat := if isHbm pa then pa / 2 ^ 38 % 2 else pa / 2 ^ 39 % 2

/-! ### Walks -/

/-- What an access needs of both leaves (R361). -/
inductive Need where
  | x
  | r
  | w
  | rw
  deriving DecidableEq, Repr

/-- Why a translation fails (R360, R366, R96). -/
inductive XFail where
  | stage (n : Nat)
  | malformed (n : Nat) (addr : Nat)
  | uncorrectable (addr : Nat) (inter : Bool)
  deriving DecidableEq, Repr

/-- A leaf found by a walk: output address of the access, page size, permissions, bit 5. -/
structure Leaf where
  out : Nat
  size : Nat
  r : Bool
  w : Bool
  x : Bool
  b5 : Bool
  deriving DecidableEq, Repr

/-- Index position, index bits and level of the four levels (R359). -/
def walkLevels : List (Nat × Nat × Nat) := [(39, 9, 0), (30, 9, 1), (21, 9, 2), (16, 5, 3)]

/-- Whether an entry that is valid is malformed (R360). -/
def entryMalformed (stage lvl lo : Nat) (e : Nat) : Bool :=
  let t := bitOf e 1
  let oa := bitsOf e 8 48 * 256
  let pageOk := if stage = 1 then decide (oa < 2 ^ 48) else isMemory oa
  bitsOf e 56 8 != 0 || bitsOf e 6 2 != 0 || (if t then lvl == 3 else lvl == 0) ||
  !pageOk ||
  (if t then oa % (if lvl = 2 then 256 else 4096) != 0 || bitsOf e 2 4 != 0
   else oa % 2 ^ lo != 0 || (stage == 2 && bitOf e 5 && !isHbm oa))

/-- Walks the levels that remain. `read` gives a table entry's bytes or why it cannot be read. -/
def walkFrom (stage : Nat) (read : Nat → Except XFail Nat) (a : Nat) :
    List (Nat × Nat × Nat) → Nat → Except XFail Leaf
  | [], _ => .error (.stage stage)
  | (lo, nb, lvl) :: rest, table =>
    let addr := table + 8 * bitsOf a lo nb
    match read addr with
    | .error f => .error f
    | .ok e =>
      if !bitOf e 0 then .error (.stage stage)
      else if entryMalformed stage lvl lo e then .error (.malformed stage addr)
      else
        let oa := bitsOf e 8 48 * 256
        if bitOf e 1 then walkFrom stage read a rest oa
        else .ok { out := oa + a % 2 ^ lo, size := 2 ^ lo, r := bitOf e 2, w := bitOf e 3, x := bitOf e 4,
                   b5 := bitOf e 5 }

/-- The table entry that a die's walk caches hold of an address (R363). -/
def State.cachedEntry (s : State) (die stage owner addr : Nat) : Option Nat :=
  (s.walks.find? (fun e => e.die == die && e.stage == stage && e.owner == owner && e.addr == addr)).map WalkEntry.val

/-- A stage-two table entry, read at its device physical address; a poison mark on its line is
uncorrectable (R96, R366). A walk that uses a die's walk caches takes the entry from there where they hold it
(R363, R365). -/
def State.readEntry2 (s : State) (die : Option Nat) (part pa : Nat) : Except XFail Nat :=
  match die.bind (fun d => s.cachedEntry d 2 part pa) with
  | some e => .ok e
  | none => if s.marked pa then .error (.uncorrectable pa false) else .ok (s.natAt pa 8)

/-- Stage two: an intermediate physical address to a leaf of the partition's tables (R359). -/
def State.stage2By (s : State) (die : Option Nat) (part ipa : Nat) : Except XFail Leaf :=
  if 2 ^ 48 ≤ ipa then .error (.stage 2)
  else walkFrom 2 (s.readEntry2 die part) ipa walkLevels (s.cfg (0x440 + part)).toNat

/-- Stage two from the tables. -/
def State.stage2 (s : State) (part ipa : Nat) : Except XFail Leaf := s.stage2By none part ipa

/-- A stage-one table entry: its address is intermediate physical and is translated by stage two
(R359). -/
def State.readEntry1 (s : State) (die : Option Nat) (vdn part ipa : Nat) : Except XFail Nat :=
  match die.bind (fun d => s.cachedEntry d 1 vdn ipa) with
  | some e => .ok e
  | none => match s.stage2By die part ipa with
    | .error f => .error f
    | .ok l => if s.marked l.out then .error (.uncorrectable ipa true) else .ok (s.natAt l.out 8)

/-- Stage one: a virtual address of a device to an intermediate physical leaf (R358, R359). -/
def State.stage1By (s : State) (die : Option Nat) (vdn part va : Nat) : Except XFail Leaf :=
  if 2 ^ 48 ≤ va then .error (.stage 1)
  else walkFrom 1 (s.readEntry1 die vdn part) va walkLevels (s.cfg (0x600 + vdn)).toNat

/-- Stage one from the tables. -/
def State.stage1 (s : State) (vdn part va : Nat) : Except XFail Leaf := s.stage1By none vdn part va

/-- Whether a leaf's permissions grant a need. -/
def Need.grants (n : Need) (r w x : Bool) : Bool := match n with
  | .x => x
  | .r => r
  | .w => w
  | .rw => r && w

/-- A granted translation: device physical address, whether L1 may not allocate, mirror bit. -/
structure XOk where
  pa : Nat
  nl1 : Bool
  m : Bool
  deriving DecidableEq, Repr

/-- The full walk of both stages with the permission check (R361), from the tables or, where a die is named,
with its walk caches. -/
def State.walkBy (s : State) (die : Option Nat) (vdn part va : Nat) (n : Need) : Except XFail XOk :=
  match s.stage1By die vdn part va with
  | .error f => .error f
  | .ok l1 =>
    match s.stage2By die part l1.out with
    | .error f => .error f
    | .ok l2 =>
      if !n.grants l1.r l1.w l1.x then .error (.stage 1)
      else if !n.grants l2.r l2.w l2.x then .error (.stage 2)
      else .ok { pa := l2.out, nl1 := l1.b5, m := l2.b5 }

/-- The full walk from the tables. -/
def State.walk (s : State) (vdn part va : Nat) (n : Need) : Except XFail XOk := s.walkBy none vdn part va n

/-- The table entries that a walk reads and passes or ends at, with what each translates: none from the first
entry on that is invalid, malformed or unreadable (R363). -/
def walkTrace (stage : Nat) (read : Nat → Except XFail Nat) (a : Nat) :
    List (Nat × Nat × Nat) → Nat → List (Nat × Nat × Nat × Nat)
  | [], _ => []
  | (lo, nb, lvl) :: rest, table =>
    let addr := table + 8 * bitsOf a lo nb
    match read addr with
    | .error _ => []
    | .ok e =>
      if !bitOf e 0 || entryMalformed stage lvl lo e then []
      else
        let here := (addr, e, a / 2 ^ lo * 2 ^ lo, 2 ^ lo)
        if bitOf e 1 then here :: walkTrace stage read a rest (bitsOf e 8 48 * 256) else [here]

/-- The walk caches of a die take in the entries of a walk (R363). (DESIGN CHOICE, log 8) -/
def State.fillWalks (s : State) (die vdn part va : Nat) : State :=
  let one (stage owner : Nat) (x : Nat × Nat × Nat × Nat) : WalkEntry :=
    { die := die, stage := stage, owner := owner, addr := x.1, val := x.2.1, vbase := x.2.2.1, size := x.2.2.2 }
  let first := walkTrace 1 (s.readEntry1 none vdn part) va walkLevels (s.cfg (0x600 + vdn)).toNat
  let ipas := first.map Prod.fst ++ (match s.stage1 vdn part va with
    | .ok l => [l.out]
    | .error _ => [])
  let second := ipas.flatMap (fun i => walkTrace 2 (s.readEntry2 none part) i walkLevels (s.cfg (0x440 + part)).toNat)
  { s with walks := s.walks ++ if 2 ^ 48 ≤ va then [] else first.map (one 1 vdn) ++ second.map (one 2 part) }

/-- Entries that a TLB holds: 64 of a core, 4,096 of a cluster (R363). -/
def tlbCapacity (core : Bool) : Nat := if core then 64 else 4096

/-- What a TLB would hold of an address: the combined translation, of the smaller leaf (R363).
(DESIGN CHOICE, log 8) -/
def State.tlbFor (s : State) (core : Bool) (unit vdn part va : Nat) : Option TlbEntry :=
  match s.stage1 vdn part va with
  | .error _ => none
  | .ok l1 =>
    match s.stage2 part l1.out with
    | .error _ => none
    | .ok l2 =>
      let sz := min l1.size l2.size
      some { core := core, unit := unit, vdn := vdn, vbase := va / sz * sz, size := sz,
             pa := l2.out / sz * sz, r := l1.r && l2.r, w := l1.w && l2.w, x := l1.x && l2.x,
             nl1 := l1.b5, m := l2.b5 }

/-- A TLB takes in an entry; a full one gives up its oldest. (DESIGN CHOICE, log 8) -/
def State.tlbPut (s : State) (e : TlbEntry) : State :=
  let mine (x : TlbEntry) : Bool := x.core == e.core && x.unit == e.unit
  let kept := if (s.tlb.filter mine).length < tlbCapacity e.core then s.tlb
    else match s.tlb.findIdx? mine with
      | some i => s.tlb.eraseIdx i
      | none => s.tlb
  { s with tlb := kept ++ [e] }

/-- Whether a TLB entry serves an access from a core (R363). -/
def TlbEntry.serves (e : TlbEntry) (p vdn va : Nat) : Bool :=
  (if e.core then e.unit == p else e.unit == clusterOf p) && e.vdn == vdn && e.vbase ≤ va &&
    va < e.vbase + e.size

/-- Translation of an access from a core: a TLB hit that grants is used as it stands, then a walk with the walk
caches of its die that grants; else the tables are walked (R365). (DESIGN CHOICE, log 8) -/
def State.xlateAt (s : State) (p vdn part va : Nat) (n : Need) : Except XFail XOk :=
  match s.tlb.find? (fun e => e.serves p vdn va && n.grants e.r e.w e.x) with
  | some e => .ok { pa := e.pa + (va - e.vbase), nl1 := e.nl1, m := e.m }
  | none =>
    if s.walks.isEmpty then s.walk vdn part va n
    else match s.walkBy (some (dieOf p)) vdn part va n with
      | .ok o => .ok o
      | .error _ => s.walk vdn part va n

/-- Translation of an access of the running code. -/
def State.xlate (s : State) (va : Nat) (n : Need) : Except XFail XOk :=
  s.xlateAt s.ctx.core s.ctx.device s.ctx.partition va n

/-- The page starts of n bytes at an address, in rising order, the address itself first (R366). -/
def pagesOf (va n : Nat) : List Nat :=
  va :: (List.range ((va + n - 1) / 65536 - va / 65536)).map (fun i => (va / 65536 + 1 + i) * 65536)

/-- Translates every page of an access with a translator: each page's virtual start and its result, or
the first failure with its address (R366). -/
def xlatePages (tr : Nat → Except XFail XOk) : List Nat → Except (Nat × XFail) (List (Nat × XOk))
  | [] => .ok []
  | p :: ps =>
    match tr p with
    | .error f => .error (p, f)
    | .ok o =>
      match xlatePages tr ps with
      | .error e => .error e
      | .ok os => .ok ((p, o) :: os)

/-- The physical address of a byte of a translated range. -/
def physOf (ps : List (Nat × XOk)) (va : Nat) : Nat :=
  match ps.find? (fun p => p.1 / 65536 == va / 65536) with
  | some (v, o) => o.pa + va - v
  | none => 0

/-- Virtual address arithmetic is modulo 2⁶⁴ (R191). -/
def vaWrap (va : Nat) : Nat := va % 2 ^ 64

end Sys2Proof.Machine
end

