-- ==== Sys2Proof/Machine/Memory.lean ====
section
/-! DEFINITION. Global memory as one access finds it: home reads and writes, poison marks, L1, scope
records, counters, releases and acquires, steward events (R53, R84, R96, R120 to R136, R191 to R203,
R311). -/

namespace Sys2Proof.Machine

/-! ### Causes (R342) -/

/-- A trap's report: code, subcode, unit, copy channel, whether it was posted, value. -/
structure Cause where
  code : BitVec 8
  sub : BitVec 8
  unit : Nat
  ch : Nat
  async : Bool
  val : Word
  deriving DecidableEq, Repr

/-- A fault of the sequencer. -/
def Cause.seq (code : BitVec 8) (sub : Nat) (val : Word) : Cause :=
  { code := code, sub := BitVec.ofNat 8 sub, unit := 0, ch := 0, async := false, val := val }

/-- The codes of R342. -/
def cILLEGAL : BitVec 8 := 0x01#8
def cRESERVED : BitVec 8 := 0x02#8
def cPRIVILEGE : BitVec 8 := 0x03#8
def cFETCH : BitVec 8 := 0x04#8
def cDATA : BitVec 8 := 0x05#8
def cALIGN : BitVec 8 := 0x06#8
def cPOISON : BitVec 8 := 0x07#8
def cDROPPED : BitVec 8 := 0x08#8
def cABSENT : BitVec 8 := 0x09#8
def cMISSING : BitVec 8 := 0x0A#8
def cDUPLICATE : BitVec 8 := 0x0B#8
def cVTIMEOUT : BitVec 8 := 0x0C#8
def cEXHAUSTED : BitVec 8 := 0x0D#8
def cSCOPE : BitVec 8 := 0x0E#8
def cLOCK : BitVec 8 := 0x0F#8
def cPROGRESS : BitVec 8 := 0x10#8
def cDEADLINE : BitVec 8 := 0x11#8
def cPREEMPT : BitVec 8 := 0x12#8
def cUNCORR : BitVec 8 := 0x13#8
def cECALL : BitVec 8 := 0x14#8
def cBRK : BitVec 8 := 0x15#8
def cCOPY : BitVec 8 := 0x16#8
def cFABRIC : BitVec 8 := 0x17#8
def cWATCHDOG : BitVec 8 := 0x19#8
def cLANDING : BitVec 8 := 0x1A#8

/-- POISON_CONSUMED with its operand (R347). -/
def Cause.poison (operand : Nat) : Cause := Cause.seq cPOISON operand 0#64

/-! ### Marks and home writes -/

/-- The 64-byte sectors that n bytes at an address touch. -/
def sectorsOf (pa n : Nat) : List Nat :=
  if n = 0 then [] else (List.range ((pa + n - 1) / 64 + 1 - pa / 64)).map (fun i => pa / 64 + i)

/-- Sets or clears the mark of a sector. -/
def State.setMark (s : State) (sec : Nat) (v : Bool) : State :=
  { s with marks := Sparse.set (fun _ => false) s.marks sec v }

/-- The marks after a write of n bytes: set where the data is poisoned, cleared where a whole unit is
written clean (R53). -/
def State.markWrite (s : State) (pa n : Nat) (pois : Bool) : State :=
  (sectorsOf pa n).foldl (fun s sec =>
    if pois then s.setMark sec true
    else if pa ≤ 64 * sec ∧ 64 * sec + 64 ≤ pa + n then s.setMark sec false
    else s) s

/-- Bytes into memory, marks and scope records untouched. -/
def State.rawWrite (s : State) (pa : Nat) (bs : List Byte) : State :=
  { s with mem := Sparse.setList memDefault s.mem pa bs }

/-- The 8-byte words of a 64-byte line that n bytes at an address touch. -/
def wordsMask (sec pa n : Nat) : BitVec 8 :=
  BitVec.ofNat 8 (packBits 1 ((List.range 8).map (fun i =>
    b2n (decide (64 * sec + 8 * i < pa + n) && decide (pa < 64 * sec + 8 * i + 8)))))

/-- Clears the scope record of each line where a store writes bytes of what the record's accesses named
(R124, R132). (DEDUCED, log 51) -/
def State.clearScopes (s : State) (pa n : Nat) : State :=
  { s with scopes := (sectorsOf pa n).foldl (fun m sec => match Sparse.get (fun _ => none) m sec with
      | some r => if r.words &&& wordsMask sec pa n = 0#8 then m else Sparse.set (fun _ => none) m sec none
      | none => m) s.scopes }

/-- An ordinary store performed at its home (R122, R53, R132). -/
def State.homeWrite (s : State) (pa : Nat) (bs : List Byte) (pois : Bool) : State :=
  ((s.rawWrite pa bs).markWrite pa bs.length pois).clearScopes pa bs.length

/-- A range of physical memory zeroed, its marks cleared (R97, R321). -/
def State.zeroRange (s : State) (pa n : Nat) : State :=
  { s with mem := Sparse.clear s.mem pa n, marks := Sparse.clear s.marks (pa / 64) (n / 64),
           scopes := Sparse.clear s.scopes (pa / 64) (n / 64) }

/-- Writes a range whose bytes may fall on several pages. -/
def State.pagedWrite (s : State) (ps : List (Nat × XOk)) (va : Nat) (bs : List Byte) (pois : Bool) : State :=
  match bs with
  | [] => s
  | _ =>
    let split := 65536 - va % 65536
    let s1 := s.homeWrite (physOf ps va) (bs.take split) pois
    if bs.length ≤ split then s1 else s1.homeWrite (physOf ps (va + split)) (bs.drop split) pois

/-! ### Scope records (R131, R132) -/

/-- The instance of a scope around an agent (R131). An agent off the cores stands in none of CORE or CLUSTER scope: such
a scope of its record is the SYSTEM instance (R132). (DESIGN CHOICE, log 79) -/
def instOf (w : Who) (sc : Nat) : Inst :=
  match w with
  | .core p => match sc with
    | 0 => .core p
    | 1 => .cluster (clusterOf p)
    | 2 => .die (dieOf p)
    | 3 => .package
    | _ => .system
  | .die d => match sc with
    | 2 => .die d
    | 3 => .package
    | _ => .system
  | .outside => .system

/-- Whether an agent lies in an instance. -/
def inInst (w : Who) (i : Inst) : Bool :=
  match i with
  | .core p => w == .core p
  | .cluster n => match w with
    | .core p => clusterOf p == n
    | _ => false
  | .die d => match w with
    | .core p => dieOf p == d
    | .die e => e == d
    | .outside => false
  | .package => w != .outside
  | .system => true

/-- The scope record of a line. -/
def State.scopeRec (s : State) (pa : Nat) : Option ScopeRec := Sparse.get (fun _ => none) s.scopes (pa / 64)

/-- Whether a synchronising access is accepted (R132). -/
def State.scopeOk (s : State) (w : Who) (sc pa : Nat) : Bool :=
  match w with
  | .core _ => match s.scopeRec pa with
    | none => true
    | some r => inInst w r.inst && decide (r.scope ≤ sc)
  | _ => true

/-- The record after an accepted access to n bytes of a line; an agent off the cores never narrows it
(R132). -/
def State.scopeTakeN (s : State) (w : Who) (sc pa n : Nat) : State :=
  let old := s.scopeRec pa
  let ws := wordsMask (pa / 64) pa n ||| old.elim 0#8 ScopeRec.words
  let narrow : Bool := match w with
    | .core _ => false
    | _ => old.any (fun (r : ScopeRec) => decide (sc < r.scope))
  let r : Option ScopeRec :=
    if narrow then old.map (fun (r : ScopeRec) => { r with words := ws })
    else some { scope := sc, inst := instOf w sc, words := ws }
  { s with scopes := Sparse.set (fun _ => none) s.scopes (pa / 64) r }

/-- The record after an accepted access to a counter or to an atomic's granule (R132). -/
def State.scopeTake (s : State) (w : Who) (sc pa : Nat) : State := s.scopeTakeN w sc (pa / 8 * 8) 8

/-! ### Counters (R124) -/

/-- A signal-add at a counter's home: saturating, the scope record taken. -/
def State.signalAt (s : State) (w : Who) (sc pa n : Nat) : State :=
  (s.rawWrite pa (bytesOfNat 8 (min (s.natAt pa 8 + n) (2 ^ 64 - 1)))).scopeTake w sc pa

/-! ### Steward events (R311, R312) -/

/-- The bytes of an event entry (R311). -/
def eventBytes (s : State) (die code part vd a0 a1 : Nat) : List Byte :=
  bytesOfNat 2 code ++ bytesOfNat 1 part ++ bytesOfNat 1 vd ++ bytesOfNat 1 die ++ bytesOfNat 3 0 ++
    bytesOfNat 8 s.now ++ bytesOfNat 8 a0 ++ bytesOfNat 8 a1

/-- Capacity of a die's event ring; 0 where there is none (R311). -/
def Die.ringCap (d : Die) : Nat :=
  let k := (d.sevbase &&& 31#64).toNat
  if k = 0 then 0 else 2 ^ k

/-- Whether a die's event ring has room. -/
def State.eventRoom (s : State) (die : Nat) : Bool := decide (((s.die die).sevprod - (s.die die).sevcons).toNat < (s.die die).ringCap)

/-- An event takes an entry of the die's ring, or is a loss (R311). -/
def State.ringEvent (s : State) (die code part vd a0 a1 : Nat) : State :=
  let d := s.die die
  if s.eventRoom die then
    let pa := (d.sevbase >>> 12 <<< 12).toNat + 32 * (d.sevprod.toNat % d.ringCap)
    (s.homeWrite pa (eventBytes s die code part vd a0 a1) false).setDie die { d with sevprod := d.sevprod + 1#32 }
  else s.setDie die { d with sevlost := if d.sevlost = BitVec.allOnes 32 then d.sevlost else d.sevlost + 1#32 }

/-- Whether a failure arose at stage two. -/
def XFail.isStage2 : XFail → Bool
  | .stage n => n == 2
  | .malformed n _ => n == 2
  | .uncorrectable _ _ => false

/-- What a scheduler's signal to SEVCNT that fails to translate puts in the ring: its own events, which signal no more
(R311, R360, R366). (DEDUCED, log 67) -/
def State.sevFails (s : State) (die va : Nat) (f : XFail) : State :=
  let s1 := match f with
    | .malformed n a => s.ringEvent die 0x0A 0 0 a n
    | _ => s
  if f.isStage2 then s1.ringEvent die 0x0B 0 0 va 7 else s1

/-- Sends an event to the steward: an entry of the die's ring, with the signal to SEVCNT, or a loss (R311). 0xFF names no
partition and no device. -/
def State.event (s : State) (die code part vd a0 a1 : Nat) : State :=
  let s1 := s.ringEvent die code part vd a0 a1
  let c := ((s.die die).sevcnt >>> 3 <<< 3).toNat
  if s.eventRoom die = false ∨ c = 0 then s1
  else match s1.walk 0 0 c .rw with
    | .ok o => s1.signalAt (.die die) 3 o.pa 1
    | .error f => s1.sevFails die c f

/-- An event of the running context. -/
def State.ctxEvent (s : State) (code a0 a1 : Nat) : State :=
  s.event (dieOf s.ctx.core) code s.ctx.part.toNat s.ctx.vdn.toNat a0 a1

/-- The event of a malformed table entry (R360); other failures send none of their own. -/
def State.xEvent (s : State) (die part vd : Nat) : XFail → State
  | .malformed n a => s.event die 0x0A part vd a n
  | _ => s

/-- The cause of a failed data access of the sequencer (R342, R366). -/
def XFail.cause (f : XFail) (code : BitVec 8) (va : Nat) : Cause :=
  match f with
  | .uncorrectable a i => Cause.seq cUNCORR (b2n i) (BitVec.ofNat 64 a)
  | _ => Cause.seq code (b2n f.isStage2) (BitVec.ofNat 64 va)

/-! ### L1 (R84, R193) -/

/-- A byte of the L1 of the running context. -/
def State.l1At (s : State) (pa : Nat) : Option L1Byte := Sparse.get (fun _ => none) s.ctx.l1 pa

/-- Replaces L1. -/
def State.setL1 (s : State) (m : Sparse (Option L1Byte)) : State := { s with ctx := { s.ctx with l1 := m } }

/-- Whether an access uses L1 (R84): the context has one and the page allows it. -/
def State.usesL1 (s : State) (o : XOk) : Bool := s.ctx.l1size != 0#2 && !o.nl1

/-- Poison of the sector of a byte as L1 holds it: any byte of the sector held poisoned, or the home's
mark where L1 does not hold the whole sector (R53, R96). -/
def State.l1Poison (s : State) (pa : Nat) : Bool :=
  let bs := (List.range 64).map (fun i => s.l1At (pa / 64 * 64 + i))
  bs.any (fun b => match b with
    | some x => x.pois
    | none => false) || (bs.any Option.isNone && s.marked pa)

/-- Performs dirty L1 bytes at their homes: those a predicate picks; they stay, clean (R84). -/
def State.writeBack (s : State) (p : Nat → L1Byte → Bool) : State :=
  let picks := s.ctx.l1.filterMap (fun e => match e.2 with
    | some b => if b.dirty && p e.1 b then some (e.1, b) else none
    | none => none)
  let s1 := picks.foldl (fun s e => (s.rawWrite e.1 [e.2.val]).clearScopes e.1 1) s
  let secs := (picks.map (fun e => e.1 / 64)).dedup
  let s2 := secs.foldl (fun s sec =>
    let mine := picks.filter (fun e => e.1 / 64 == sec)
    if mine.any (fun e => e.2.pois) then s.setMark sec true
    else if mine.length = 64 then s.setMark sec false else s) s1
  s2.setL1 (s2.ctx.l1.map (fun e => (e.1, match e.2 with
    | some b => if b.dirty && p e.1 b then some { b with dirty := false } else some b
    | none => none)))

/-- Discards clean L1 bytes that a predicate picks; dirty bytes are kept (R127). -/
def State.dropClean (s : State) (p : Nat → L1Byte → Bool) : State :=
  s.setL1 (s.ctx.l1.filter (fun e => match e.2 with
    | some b => b.dirty || !p e.1 b
    | none => false))

/-- L1 gives up a line: its dirty bytes are performed at the home, the copy is discarded (R84, R276).
(DESIGN CHOICE, log 9) -/
def State.evictLine (s : State) (line : Nat) : State :=
  let s1 := s.writeBack (fun a _ => a / 256 == line)
  s1.setL1 (s1.ctx.l1.filter (fun e => e.1 / 256 != line))

/-- The 256-byte lines that L1 holds bytes of. -/
def Ctx.l1Lines (c : Ctx) : List Nat := (c.l1.map (fun e => e.1 / 256)).dedup

/-- Lines that an L1 of a size holds: 64, 128 or 256 KiB (R12, R82). -/
def l1Capacity (l1size : BitVec 2) : Nat := match l1size.toNat with
  | 0 => 0
  | n + 1 => 256 * 2 ^ n

/-- Whether a line is in L1, or L1 has room for it. -/
def Ctx.l1Has (c : Ctx) (line : Nat) : Bool :=
  c.l1Lines.contains line || decide (c.l1Lines.length < l1Capacity c.l1size)

/-- Room for a line: a full L1 gives up one of its lines; which one is free (R84). (DESIGN CHOICE, log 9) -/
def State.l1Room (s : State) (line : Nat) : State :=
  if s.ctx.l1Has line then s
  else
    let ls := s.ctx.l1Lines
    (s.evictLine (ls.getD ((s.freshBits 0).toNat % ls.length) 0)).useFree

/-- Fetches the bytes of a 256-byte line that L1 does not hold (R193). (DESIGN CHOICE, log 9) -/
def State.l1Fill (sa : State) (va pa : Nat) : State :=
  let s := sa.l1Room (pa / 256)
  let base := pa / 256 * 256
  let vb := va / 256 * 256
  let line := (List.range 256).map (fun i => match s.l1At (base + i) with
    | some b => some b
    | none => some { val := s.byteAt (base + i), dirty := false, pois := s.marked (base + i), va := vb + i })
  s.setL1 (Sparse.setList (fun _ => none) s.ctx.l1 base line)

/-- Allocates written bytes dirty in L1; a mark of a sector written in part stays (R53, R193).
(DESIGN CHOICE, log 9) -/
def State.l1Write (sa : State) (va pa : Nat) (bs : List Byte) (pois : Bool) : State :=
  let s := sa.l1Room (pa / 256)
  let one (i : Nat) (b : Byte) : Option L1Byte :=
    let sec := (pa + i) / 64 * 64
    let whole := decide (pa ≤ sec ∧ sec + 64 ≤ pa + bs.length)
    some { val := b, dirty := true, pois := pois || (!whole && s.l1Poison (pa + i)), va := va + i }
  s.setL1 (Sparse.setList (fun _ => none) s.ctx.l1 pa
    (bs.mapIdx (fun i b => one i b)))

/-! ### Reduction windows (R136) -/

/-- The new value of an atomic on w bits, by OPX (R196). -/
def atomNew (op w old v : Nat) : Nat :=
  let o := BitVec.ofNat w old
  let b := BitVec.ofNat w v
  (match op with
    | 0 => o + b
    | 1 => o &&& b
    | 2 => o ||| b
    | 3 => o ^^^ b
    | 4 => if o.toInt ≤ b.toInt then o else b
    | 5 => if o.toInt ≤ b.toInt then b else o
    | 6 => if o.toNat ≤ b.toNat then o else b
    | 7 => if o.toNat ≤ b.toNat then b else o
    | _ => b).toNat

/-- Whether a window's home is this module (R408). -/
def State.homeHere (s : State) (w : Window) : Bool := w.home == s.node

/-- Performs a contribution: at the window's home memory, where this module is the home, else it goes out to
the home module (R136, R408). -/
def State.contribute (s : State) (c : Contrib) : State :=
  match s.windows.find? (fun w => w.ident == c.ident) with
  | none => s
  | some w =>
    let n := if w.w64 then 8 else 4
    if s.homeHere w then s.rawWrite c.pa (bytesOfNat n (atomNew c.op (8 * n) (s.natAt c.pa n) c.val.toNat))
    else s.emit (.contribution c.ident c.off c.op c.val)

/-- Performs the contributions a predicate picks, in the order they were made. -/
def State.performContribs (s : State) (p : Contrib → Bool) : State :=
  (s.contribs.filter p).foldl State.contribute { s with contribs := s.contribs.filter (fun c => !p c) }

/-! ### Releases and acquires (R126 to R129) -/

/-- A release of all memory at a scope: at CORE nothing need leave L1, wider the dirty bytes are
performed at their homes; contributions to windows are performed at SYSTEM (R131, R136). -/
def State.releaseAll (s : State) (sc : Nat) : State :=
  if sc = 0 then s
  else
    let s1 := s.writeBack (fun _ _ => true)
    if sc = 4 then s1.performContribs (fun c => c.ctx == s.ctx.id) else s1

/-- An acquire of all memory: every clean byte is discarded (R128). -/
def State.acquireAll (s : State) : State := s.dropClean (fun _ _ => true)

/-- Whether a virtual address lies in a range bound to a counter (R125). -/
def Ctx.boundTo (c : Ctx) (ctr va : Nat) : Bool :=
  c.bindings.any (fun b => b.cnt.toNat == ctr && b.base.toNat ≤ va && va < b.base.toNat + b.len.toNat)

/-- The release of a CSIG: the bytes bound to its counter; at SYSTEM its issuer's contributions to windows are
performed as well (R126, R136). -/
def State.releaseBound (s : State) (sc ctr : Nat) : State :=
  if sc = 0 then s
  else
    let s1 := s.writeBack (fun _ b => s.ctx.boundTo ctr b.va)
    if sc = 4 then s1.performContribs (fun c => c.ctx == s.ctx.id) else s1

/-- The ranges bound to a counter: the coverage of a CWAIT when it issues (R127). -/
def Ctx.coverOf (c : Ctx) (ctr : Nat) : List (Word × Word) :=
  (c.bindings.filter (fun b => b.cnt.toNat == ctr)).map (fun b => (b.base, b.len))

/-- Whether a range of a coverage touches the 256-byte line of an address. -/
def coversLine (cover : List (Word × Word)) (va : Nat) : Bool :=
  cover.any (fun r => decide (r.1.toNat < va / 256 * 256 + 256) && decide (va / 256 * 256 < r.1.toNat + r.2.toNat))

/-- The acquire of a CWAIT: clean bytes of every line that holds covered bytes are discarded (R127). -/
def State.acquireBound (s : State) (cover : List (Word × Word)) : State :=
  s.dropClean (fun _ b => coversLine cover b.va)

/-! ### Regions and windows as an access meets them (R100, R136) -/

/-- The region state of a partition at a base (R98). -/
def State.regionAt (s : State) (part base : Nat) : Option Region :=
  s.regions.find? (fun r => r.part == part && r.base.toNat == base)

/-- The attached region of the running context that holds an address (R100). -/
def State.attached (s : State) (c : Ctx) (va : Nat) : Option Region :=
  s.regions.find? (fun r => r.part == c.part.toNat && r.base.toNat ≤ va &&
    va < r.base.toNat + 256 * r.sectors && c.rslots.any (fun e => e.2 == some r.base))

/-- Whether any byte of an access touches an attached region (R100). -/
def State.touchesRegion (s : State) (c : Ctx) (va n : Nat) : Bool :=
  s.regions.any (fun r => r.part == c.part.toNat && decide (r.base.toNat < va + n) &&
    decide (va < r.base.toNat + 256 * r.sectors) && c.rslots.any (fun e => e.2 == some r.base))

/-- The reduction window of a partition that an access touches (R136, R408). (DEDUCED, log 35) -/
def State.window (s : State) (part va n : Nat) : Option Window :=
  s.windows.find? (fun w => w.part == part && decide (w.base < va + n) && decide (va < w.base + w.size))

/-- The window a data access of the running context touches. -/
def State.inWindow (s : State) (va n : Nat) : Option Window := s.window s.ctx.part.toNat va n

/-! ### Sequencer loads and stores -/

/-- Translates an access of the running code: the pages, or the cause with the state after any event
(R189 order 3, R366). -/
def State.xlateRange (s : State) (va n : Nat) (need : Need) : Except (State × Cause) (List (Nat × XOk)) :=
  match xlatePages (fun v => s.xlate v need) (pagesOf va n) with
  | .ok ps => .ok ps
  | .error (a, f) =>
    .error (s.xEvent (dieOf s.ctx.core) s.ctx.part.toNat s.ctx.vdn.toNat f, f.cause cDATA a)

/-- A data access outside attached regions, translated: order 3 of R189. -/
def State.checkData (s : State) (va n : Nat) (need : Need) : Except (State × Cause) (List (Nat × XOk)) :=
  match s.xlateRange va n need with
  | .error e => .error e
  | .ok ps =>
    if s.touchesRegion s.ctx va n then .error (s, Cause.seq cDATA 0 (BitVec.ofNat 64 va)) else .ok ps

/-- Whether the page of an address may use L1. -/
def pageL1 (s : State) (ps : List (Nat × XOk)) (va : Nat) : Bool :=
  match ps.find? (fun p => p.1 / 65536 == va / 65536) with
  | some (_, o) => s.usesL1 o
  | none => false

/-- The start of each 256-byte line of an access. -/
def linesOf (va n : Nat) : List Nat :=
  (List.range ((va + n - 1) / 256 + 1 - va / 256)).map (fun i => max va ((va / 256 + i) * 256))

/-- One byte as the running core reads it. -/
def State.readByte (s : State) (l1 : Bool) (pa : Nat) : Byte × Bool :=
  if l1 then match s.l1At pa with
    | some b => (b.val, s.l1Poison pa)
    | none => (s.byteAt pa, s.marked pa)
  else (s.byteAt pa, s.marked pa)

/-- Bytes of a window whose home is another module, read there: free values. (DESIGN CHOICE, log 64) -/
def State.farBytes (s : State) (va n : Nat) : List Byte :=
  (List.range n).map (fun i => (s.freshBits (va + i)).setWidth 8)

/-- Reads n bytes at a translated address through L1: lines that miss are fetched first; window memory is read
at its home (R136, R193, R408). `counted` says whether misses count in PMC14: those of LD and LDS (R308). -/
def State.readAs (s : State) (counted : Bool) (ps : List (Nat × XOk)) (va n : Nat) : State × List Byte × Bool :=
  if (s.inWindow va n).any (fun w => !s.homeHere w) then (s.useFree, s.farBytes va n, false) else
  let direct := (s.inWindow va n).isSome
  let miss := (linesOf va n).filter (fun v => pageL1 s ps v && !direct &&
    (List.range (min (va + n) (v / 256 * 256 + 256) - v)).any (fun i => (s.l1At (physOf ps v + i)).isNone))
  let s1 := miss.foldl (fun s v => s.l1Fill v (physOf ps v)) s
  let s2 := if miss.isEmpty || !counted then s1 else s1.pmcAdd s.ctx.vdn.toNat 14 miss.length
  let bs := (List.range n).map (fun i => s2.readByte (pageL1 s ps (va + i) && !direct) (physOf ps (va + i)))
  (s2, bs.map Prod.fst, bs.any Prod.snd)

/-- Reads n bytes as LD does. -/
def State.readData (s : State) (ps : List (Nat × XOk)) (va n : Nat) : State × List Byte × Bool :=
  s.readAs true ps va n

/-- Writes bytes at a translated address as ST does (R192, R193). -/
def State.writeData (s : State) (ps : List (Nat × XOk)) (va : Nat) (bs : List Byte) (pois : Bool) : State :=
  (linesOf va bs.length).foldl (fun s v =>
    let k := min (va + bs.length) (v / 256 * 256 + 256) - v
    let part := (bs.drop (v - va)).take k
    let pa := physOf ps v
    if pageL1 s ps v then
      let miss := !((List.range 256).any (fun i => (s.l1At (pa / 256 * 256 + i)).isSome))
      let s1 := s.l1Write v pa part pois
      if miss then s1.pmcAdd s.ctx.vdn.toNat 14 1 else s1
    else s.homeWrite pa part pois) s

/-- Before an access that is performed at the home: the issuer's own dirty L1 bytes of the n bytes are performed
there and the lines are discarded but for other dirty bytes (R122, R198). -/
def State.flushBytes (s : State) (pa n : Nat) : State :=
  let s1 := s.writeBack (fun a _ => decide (pa ≤ a) && decide (a < pa + n))
  s1.dropClean (fun a _ => decide (pa / 256 ≤ a / 256) && decide (a / 256 ≤ (pa + n - 1) / 256))

/-- Before an atomic, or an access to a counter: its 8-byte granule (R198). -/
def State.flushGranule (s : State) (pa : Nat) : State := s.flushBytes (pa / 8 * 8) 8

/-- Reads a structure of the running code as an LD would, poison reported. -/
def State.loadAt (s : State) (va n : Nat) (need : Need) :
    Except (State × Cause) (State × List Byte × Bool) :=
  match s.checkData va n need with
  | .error e => .error e
  | .ok ps => .ok (s.readAs false ps va n)

/-! ### Accesses of agents off the cores -/

/-- Translates an access of a device's agent by the tables (R366). -/
def State.agentX (s : State) (vdn part va n : Nat) (need : Need) :
    Except (Nat × XFail) (List (Nat × XOk)) :=
  xlatePages (fun v => s.walk vdn part v need) (pagesOf va n)

/-- Reads n translated bytes at their homes. -/
def State.homeBytes (s : State) (ps : List (Nat × XOk)) (va n : Nat) : List Byte :=
  (List.range n).map (fun i => s.byteAt (physOf ps (va + i)))

/-- Whether any sector of n translated bytes carries a mark. -/
def State.homeMarked (s : State) (ps : List (Nat × XOk)) (va n : Nat) : Bool :=
  (List.range ((va + n - 1) / 64 + 1 - va / 64)).any (fun i => s.marked (physOf ps (max va ((va / 64 + i) * 64))))

/-- A signal-add at a virtual counter address by an agent of a device; false where the address does not
translate (R366). -/
def State.signalVa (s : State) (w : Who) (sc vdn part va n : Nat) : State × Bool :=
  match s.walk vdn part va .rw with
  | .ok o => (s.signalAt w sc o.pa n, true)
  | .error _ => (s, false)

end Sys2Proof.Machine
end

