-- ==== Sys2Proof/Machine/Pad.lean ====
section
/-! DEFINITION. The scratchpad, the tile registers and planes, and their supply states (R40 to R43, R50,
R53 to R58, R80, R81, R317). -/

namespace Sys2Proof.Machine

/-! ### Scratchpad banks -/

/-- A scratchpad bank. -/
def Ctx.padBank (c : Ctx) (b : Nat) : PadBank := Sparse.get (fun _ => PadBank.entry) c.banks b

/-- Replaces a scratchpad bank. -/
def Ctx.setPadBank (c : Ctx) (b : Nat) (v : PadBank) : Ctx :=
  { c with banks := Sparse.set (fun _ => PadBank.entry) c.banks b v }

/-- A gutter. -/
def Ctx.gutter (c : Ctx) (n : Nat) : Gutter := Sparse.get (fun _ => Gutter.zero) c.gutters n

/-- Replaces a gutter. -/
def Ctx.setGutter (c : Ctx) (n : Nat) (g : Gutter) : Ctx :=
  { c with gutters := Sparse.set (fun _ => Gutter.zero) c.gutters n g }

/-- A landing-buffer descriptor. -/
def Ctx.lbuf (c : Ctx) (n : Nat) : LBuf := Sparse.get (fun _ => LBuf.zero) c.lbufs n

/-- Replaces a landing-buffer descriptor. -/
def Ctx.setLBuf (c : Ctx) (n : Nat) (b : LBuf) : Ctx :=
  { c with lbufs := Sparse.set (fun _ => LBuf.zero) c.lbufs n b }

/-- The granules of an enabled gutter: first and count (R89). -/
def Gutter.span (g : Gutter) : Nat × Nat :=
  if g.en then (g.base.toNat, g.slotg.toNat * g.nslot.toNat) else (0, 0)

/-- The granules of an enabled landing buffer (R94). -/
def LBuf.span (b : LBuf) : Nat × Nat := if b.en then (b.base.toNat, b.sizeg.toNat) else (0, 0)

/-- Every enabled structure's granule span. -/
def Ctx.spans (c : Ctx) : List (Nat × Nat) :=
  (List.range 16).map (fun n => (c.gutter n).span) ++ (List.range 32).map (fun n => (c.lbuf n).span)

/-- Whether two granule spans share a granule. -/
def spansMeet (a b : Nat × Nat) : Bool := decide (a.1 < b.1 + b.2) && decide (b.1 < a.1 + a.2) && a.2 != 0 && b.2 != 0

/-- Whether a bank is pinned FULL by a gutter or landing buffer (R58). -/
def Ctx.pinned (c : Ctx) (b : Nat) : Bool := c.spans.any (fun sp => spansMeet sp (64 * b, 64))

/-- Bytes of the scratchpad (R80). -/
def Ctx.spSize (c : Ctx) : Nat := Config.bankBytes * c.spbanks

/-- A scratchpad byte. -/
def Ctx.padByte (c : Ctx) (a : Nat) : Byte := Sparse.get memDefault c.pad a

/-- n scratchpad bytes. -/
def Ctx.padBytes (c : Ctx) (a n : Nat) : List Byte := Sparse.getList memDefault c.pad a n

/-- The granules that n bytes touch. -/
def granulesOf (a n : Nat) : List Nat :=
  if n = 0 then [] else (List.range ((a + n - 1) / 256 + 1 - a / 256)).map (fun i => a / 256 + i)

/-- Whether any granule of n bytes is marked (R53). -/
def Ctx.padPoison (c : Ctx) (a n : Nat) : Bool :=
  (granulesOf a n).any (fun g => Sparse.get (fun _ => false) c.gpois g)

/-- The banks that n bytes touch. -/
def banksOf (a n : Nat) : List Nat :=
  if n = 0 then [] else (List.range ((a + n - 1) / 16384 + 1 - a / 16384)).map (fun i => a / 16384 + i)

/-- Live granules of a bank (R57). -/
def Ctx.liveCount (c : Ctx) (b : Nat) : Nat :=
  ((List.range 64).filter (fun i => Sparse.get (fun _ => false) c.glive (64 * b + i))).length

/-- A bank without contents, poison and live bits (R54, R57). -/
def Ctx.padEmpty (c : Ctx) (b : Nat) : Ctx :=
  { c with pad := Sparse.clear c.pad (16384 * b) 16384, gpois := Sparse.clear c.gpois (64 * b) 64,
           glive := Sparse.clear c.glive (64 * b) 64 }

/-- Moves a bank to a supply state; OFF discards everything. -/
def Ctx.padTo (c : Ctx) (b : Nat) (st : Supply) : Ctx :=
  let c1 := c.setPadBank b { c.padBank b with state := st, waking := false, dropAtWake := false }
  if st = .off then c1.padEmpty b else c1

/-- Moves a bank to its policy state, where it is not pinned (R54, R57, R58). -/
def Ctx.padPolicy (c : Ctx) (b : Nat) : Ctx :=
  if c.pinned b then c else c.padTo b (c.padBank b).pol

/-- Starts a bank's wake, where it is RETAIN or OFF (R55). -/
def Ctx.padWake (c : Ctx) (b : Nat) : Ctx :=
  let k := c.padBank b
  if k.state = .retain ∨ k.state = .off then
    c.setPadBank b { k with state := .full, waking := true, dropAtWake := false }
  else c

/-- Whether a bank serves accesses now. -/
def Ctx.padReady (c : Ctx) (b : Nat) : Bool := (c.padBank b).state == .full && !(c.padBank b).waking

/-- Whether a copy record has come to a bank that wakes, and waits for it (R55, R276). -/
def Ctx.chanStalls (c : Ctx) : Bool := c.chans.any (fun e => e.2.run && e.2.stalled)

/-- A scratchpad bank's wake ends; it goes OFF where it was dropped meanwhile and nothing pins it (R58, R216): at once,
or after the accesses of the copy records that came to it while it woke, which it serves first. -/
def Ctx.padWoken (c : Ctx) (b : Nat) : Ctx :=
  let k := c.padBank b
  if !k.waking then c
  else if k.dropAtWake && !c.pinned b then
    if c.chanStalls then c.setPadBank b { k with waking := false } else c.padTo b .off
  else c.setPadBank b { k with waking := false, dropAtWake := false }

/-- Banks that were dropped as they woke, and have served the accesses that had come to them, go OFF (R216). -/
def Ctx.lateDrops (c : Ctx) : Ctx :=
  if c.chanStalls then c
  else (c.banks.filter (fun e => e.2.dropAtWake && !e.2.waking)).foldl (fun (d : Ctx) e =>
    if d.pinned e.1 then d.setPadBank e.1 { d.padBank e.1 with dropAtWake := false } else d.padTo e.1 .off) c

/-- Starts the wake of every bank of a list; true where all serve accesses. -/
def Ctx.padWakeAll (c : Ctx) (bs : List Nat) : Ctx × Bool :=
  (bs.foldl Ctx.padWake c, bs.all c.padReady)

/-- Writes bytes: contents, live bits, poison of the granules (R53, R57). -/
def Ctx.padWrite (c : Ctx) (a : Nat) (bs : List Byte) (pois : Bool) : Ctx :=
  let n := bs.length
  let gs := granulesOf a n
  { c with
    pad := Sparse.setList memDefault c.pad a bs
    glive := gs.foldl (fun m g => Sparse.set (fun _ => false) m g true) c.glive
    gpois := gs.foldl (fun m g =>
      if pois then Sparse.set (fun _ => false) m g true
      else if a ≤ 256 * g ∧ 256 * g + 256 ≤ a + n then Sparse.set (fun _ => false) m g false
      else m) c.gpois }

/-- Marks the granules of a range poisoned. -/
def Ctx.padMark (c : Ctx) (a n : Nat) : Ctx :=
  { c with gpois := (granulesOf a n).foldl (fun m g => Sparse.set (fun _ => false) m g true) c.gpois }

/-- A byte that a copy writes: address, value, poison. -/
abbrev Put := Nat × Byte × Bool

/-- Writes of one burst in the scratchpad: live bits, marks by granule (R53, R57, R96). -/
def Ctx.putPad (c : Ctx) (ws : List Put) : Ctx :=
  let gs := (ws.map (fun w => w.1 / 256)).dedup
  { c with
    pad := ws.foldl (fun m w => Sparse.set memDefault m w.1 w.2.1) c.pad
    glive := gs.foldl (fun m g => Sparse.set (fun _ => false) m g true) c.glive
    gpois := gs.foldl (fun m g =>
      let mine := ws.filter (fun w => w.1 / 256 == g)
      if mine.any (fun w => w.2.2) then Sparse.set (fun _ => false) m g true
      else if ((mine.map Prod.fst).dedup).length = 256 then Sparse.set (fun _ => false) m g false
      else m) c.gpois }

/-- A read's last use: the granules touched lose their live bits, and a bank with none left moves to
its policy state; one that is OFF stays as it is (R54, R57). (DEDUCED, log 47) -/
def Ctx.padLastUse (c : Ctx) (a n : Nat) : Ctx :=
  let c1 := { c with glive := (granulesOf a n).foldl (fun m g => Sparse.set (fun _ => false) m g false) c.glive }
  (banksOf a n).foldl (fun d b => if d.liveCount b = 0 ∧ (d.padBank b).state ≠ .off then d.padPolicy b else d) c1

/-! ### Tile registers and planes -/

/-- A tile register. -/
def Ctx.tile (c : Ctx) (t : Nat) : Tile := Sparse.get (fun _ => Tile.entry) c.tiles t

/-- Replaces a tile register. -/
def Ctx.setTile (c : Ctx) (t : Nat) (v : Tile) : Ctx :=
  { c with tiles := Sparse.set (fun _ => Tile.entry) c.tiles t v }

/-- An accumulator plane. -/
def Ctx.plane (c : Ctx) (p : Nat) : Plane := Sparse.get (fun _ => Plane.entry) c.acc p

/-- Replaces an accumulator plane. -/
def Ctx.setPlane (c : Ctx) (p : Nat) (v : Plane) : Ctx :=
  { c with acc := Sparse.set (fun _ => Plane.entry) c.acc p v }

/-- A tile cell (R40). -/
def Ctx.cell (c : Ctx) (t row col : Nat) : Cell := Sparse.get (fun _ => Cell.zero) (c.tile t).cells (64 * row + col)

/-- Writes a tile cell. -/
def Tile.put (t : Tile) (row col : Nat) (v : Cell) : Tile :=
  { t with cells := Sparse.set (fun _ => Cell.zero) t.cells (64 * row + col) v }

/-- A plane cell (R43). -/
def Ctx.pcell (c : Ctx) (p row col : Nat) : PCell :=
  Sparse.get (fun _ => PCell.zero) (c.plane p).cells (128 * row + col)

/-- Writes a plane cell. -/
def Plane.put (p : Plane) (row col : Nat) (v : PCell) : Plane :=
  { p with cells := Sparse.set (fun _ => PCell.zero) p.cells (128 * row + col) v }

/-- Moves a tile register to a supply state; OFF discards its cells (R54). -/
def Tile.to (t : Tile) (st : Supply) : Tile :=
  { t with state := st, waking := false, dropAtWake := false, cells := (if st = .off then [] else t.cells) }

/-- Starts a tile register's wake (R55). -/
def Tile.wake (t : Tile) : Tile :=
  if t.state = .retain ∨ t.state = .off then { t with state := .full, waking := true, dropAtWake := false } else t

/-- Whether a tile register serves accesses now. -/
def Tile.ready (t : Tile) : Bool := t.state == .full && !t.waking

/-- A tile register's wake ends; it goes OFF where it was dropped meanwhile (R216). -/
def Ctx.tileWoken (c : Ctx) (t : Nat) : Ctx :=
  let k := c.tile t
  if !k.waking then c
  else if k.dropAtWake then c.setTile t (k.to .off) else c.setTile t { k with waking := false }

/-- Whether a tile register is protected from the open handler (R317, R350). -/
def Ctx.tileProtected (c : Ctx) (t : Nat) : Bool := c.inHandler && (c.tile t).spill.isNone

/-- Whether a plane is protected from the open handler (R317, R350). -/
def Ctx.planeProtected (c : Ctx) (p : Nat) : Bool := c.inHandler && (c.plane p).spill.isNone

/-- Last use of a tile register: to its policy state; ignored where it is protected; of a register an
open macro-operation has locked, when the lock clears, so that its steps read the same contents (R54,
R56, R234, R350). -/
def Ctx.tileLastUse (c : Ctx) (t : Nat) : Ctx :=
  let k := c.tile t
  if c.tileProtected t then c
  else if k.lock then c.setTile t { k with moveDue := true }
  else c.setTile t (k.to k.pol)

/-- Restores a tile register from its spilled copy (R317 TFILL). -/
def Ctx.fillTile (c : Ctx) (t : Nat) : Ctx :=
  match (c.tile t).spill with
  | none => c
  | some sp => c.setTile t { c.tile t with
      cells := sp.cells, state := sp.state, lock := sp.lock, waking := false, dropAtWake := false,
      spill := none }

/-- Restores a plane from its spilled copy (R317 TFILL). -/
def Ctx.fillPlane (c : Ctx) (p : Nat) : Ctx :=
  match (c.plane p).spill with
  | none => c
  | some sp => c.setPlane p { (c.plane p) with cells := sp.pcells, zmask := sp.lock, spill := none }

/-- Restores every spilled register, tiles first, in ascending order (R315). -/
def Ctx.fillAll (c : Ctx) : Ctx :=
  (List.range 2).foldl Ctx.fillPlane ((List.range 16).foldl Ctx.fillTile c)

end Sys2Proof.Machine
end

