-- ==== Sys2Proof/Machine/Layout.lean ====
section
/-! DEFINITION. Words whose fields the manual lays out: gutter, landing buffer, channel and send status,
bank snapshots, PSTAT, TCAUSE (R89, R91, R94, R217, R282, R285, R304, R307). -/

namespace Sys2Proof.Machine

/-- A number from fields: low bit, width, value. -/
def packFields : List (Nat × Nat × Nat) → Nat
  | [] => 0
  | (lo, w, v) :: fs => v % 2 ^ w * 2 ^ lo + packFields fs

/-- A 64-bit word from fields. -/
def packWord (fs : List (Nat × Nat × Nat)) : Word := BitVec.ofNat 64 (packFields fs)

/-- The code of a supply state (R54). -/
def Supply.code : Supply → Nat
  | .full => 0
  | .retain => 1
  | .off => 2
  | .absent => 3

/-- A supply state by its code. -/
def supplyOf (n : Nat) : Supply := match n with
  | 0 => .full
  | 1 => .retain
  | 2 => .off
  | _ => .absent

/-- GCFGn (R89). -/
def Gutter.cfgWord (g : Gutter) : Word :=
  packWord [(63, 1, b2n g.en), (32, 12, g.base.toNat), (16, 8, g.slotg.toNat), (0, 12, g.nslot.toNat)]

/-- Slots in flight (R91). -/
def Gutter.inFlight (g : Gutter) : Nat := g.nslot.toNat - g.free - g.filled

/-- The gutter status word (R91). -/
def Gutter.statWord (g : Gutter) : Word :=
  packWord [(63, 1, b2n g.en), (62, 1, b2n g.err), (61, 1, b2n (!g.waiters.isEmpty)), (24, 12, g.head),
    (12, 12, g.filled), (0, 12, g.free)]

/-- The recorded length of a slot. -/
def Gutter.lenAt (g : Gutter) (i : Nat) : Nat := Sparse.get (fun _ => 0) g.lens i

/-- GSTAT's second word (R220). -/
def Gutter.lenWord (g : Gutter) : Word :=
  packWord [(32, 20, if 2 ≤ g.filled then g.lenAt ((g.head + 1) % g.nslot.toNat) else 0),
    (0, 20, if 1 ≤ g.filled then g.lenAt g.head else 0)]

/-- The slots a landing of L bytes takes (R92). -/
def Gutter.slotsFor (g : Gutter) (len : Nat) : Nat := max 1 (ceilDiv len (256 * g.slotg.toNat))

/-- Whether a gutter can take a landing of L bytes at all (R92, R278). -/
def Gutter.takes (g : Gutter) (len : Nat) : Bool := g.en && decide (g.slotsFor len ≤ g.nslot.toNat)

/-- Claims slots for a producer, which waits no longer (R92). -/
def Gutter.claim (g : Gutter) (k : Nat) (p : Producer) : Gutter :=
  { g with free := g.free - k
           flight := g.flight ++ [{ slot := (g.head + g.filled + g.inFlight) % g.nslot.toNat, slots := k, prod := p
                                    ended := none }] }

/-- A producer begins: it claims at once where nobody waits before it and slots are free, else it waits
(R92); true where it claimed. -/
def Gutter.offer (g : Gutter) (len : Nat) (p : Producer) : Gutter × Bool :=
  let k := g.slotsFor len
  if g.waiters.isEmpty ∧ k ≤ g.free then (g.claim k p, true)
  else ({ g with waiters := g.waiters ++ [p] }, false)

/-- The scratchpad address of byte j of a landing from a slot on (R89, R92). -/
def Gutter.byteAddr (g : Gutter) (slot j : Nat) : Nat :=
  let per := 256 * g.slotg.toNat
  256 * g.base.toNat + per * ((slot + j / per) % g.nslot.toNat) + j % per

/-- Lands bytes in a gutter's oldest flight: the rest of its slots is zero and clean, the length recorded,
the slots filled (R92, R93). -/
def Ctx.fillGutter (c : Ctx) (n : Nat) (out : List Put) : Ctx :=
  let g := c.gutter n
  match g.flight with
  | [] => c
  | l :: rest =>
    let total := 256 * g.slotg.toNat * l.slots
    let ws : List Put := (out.map (fun w => (g.byteAddr l.slot w.1, w.2.1, w.2.2))) ++
      (List.range (total - out.length)).map (fun i => (g.byteAddr l.slot (out.length + i), 0#8, false))
    let lens := (List.range l.slots).foldl (fun m i =>
      Sparse.set (fun _ => 0) m ((l.slot + i) % g.nslot.toNat) (if i = 0 then out.length else 0)) g.lens
    (c.putPad ws).setGutter n { g with filled := g.filled + l.slots, flight := rest, lens := lens }

/-- The landings in flight whose bytes have all come fill their slots, in the order of their claims (R93). -/
def Ctx.settleFlights (n : Nat) : Nat → Ctx → Ctx
  | 0, c => c
  | k + 1, c => match (c.gutter n).flight.head?.bind GLanding.ended with
    | some out => Ctx.settleFlights n k (c.fillGutter n out)
    | none => c

/-- The endpoint's landings in flight in a gutter complete (R355). -/
def Ctx.endArrivals (c : Ctx) (n : Nat) : Ctx :=
  let g := c.gutter n
  let fs := g.flight.map (fun (l : GLanding) => match l.prod with
    | .net _ _ w bs => { l with ended := some (bs.mapIdx (fun i b => (i, b, w.getLsbD 33))) }
    | .chan _ _ => l)
  Ctx.settleFlights n fs.length (c.setGutter n { g with flight := fs })

/-- LBDn (R94). -/
def LBuf.word (b : LBuf) : Word :=
  packWord [(63, 1, b2n b.en), (62, 1, b2n b.inuse), (32, 12, b.base.toNat), (16, 9, b.sizeg.toNat)]

/-- A channel's STATE (R282). -/
def Chan.stateCode (c : Chan) : Nat :=
  if c.err then 3
  else if !c.run then 0
  else match c.phase with
    | .held | .gutter | .landing => 2
    | _ => 1

/-- A copy channel of a context. -/
def Ctx.chan (c : Ctx) (n : Nat) : Chan := Sparse.get (fun _ => Chan.idle) c.chans n

/-- Replaces a copy channel. -/
def Ctx.setChan (c : Ctx) (n : Nat) (v : Chan) : Ctx :=
  { c with chans := Sparse.set (fun _ => Chan.idle) c.chans n v }

/-- The address a chain element stands for (R282). -/
def Chain.addr : Chain → Word
  | .record a => a
  | .zero a _ => a

/-- The CSTAT status word (R282). The model holds one record of a channel in flight at a time. -/
def Chan.statWord (c : Chan) : Word :=
  packWord [(32, 16, c.donecnt.toNat), (16, 8, c.ecode.toNat), (5, 11, b2n (c.run && c.cur.isSome)),
    (4, 1, b2n c.pend.isSome), (0, 3, c.stateCode)]

/-- A send slot. -/
def Ctx.send (c : Ctx) (n : Nat) : SendSlot := Sparse.get (fun _ => SendSlot.zero) c.sends n

/-- Replaces a send slot. -/
def Ctx.setSend (c : Ctx) (n : Nat) (v : SendSlot) : Ctx :=
  { c with sends := Sparse.set (fun _ => SendSlot.zero) c.sends n v }

/-- The NSTAT word of a slot (R285). -/
def SendSlot.word (x : SendSlot) : Word :=
  packWord [(16, 48, x.tstamp.toNat), (8, 8, x.ecode.toNat), (4, 1, b2n x.err), (3, 1, b2n x.late),
    (2, 1, b2n x.delivered), (1, 1, b2n x.sent), (0, 1, b2n x.taken)]

/-- The endpoint takes a send's buffers (R284, R285): a bank in RETAIN wakes first, and one that wakes is
waited for (R55); bytes of a bank that is OFF are sent poisoned, LU clears live bits. -/
def Ctx.takeSend (c : Ctx) (n : Nat) : Ctx :=
  let x := c.send n
  let slow := (x.bufs.flatMap (fun b => banksOf b.addr b.len)).filter (fun k =>
    (c.padBank k).state == .retain || (c.padBank k).waking)
  if !x.used || x.taken then c
  else if !slow.isEmpty then slow.foldl Ctx.padWake c
  else
    let bs := x.bufs.flatMap (fun b => c.padBytes b.addr b.len)
    let p := x.bufs.any (fun b => c.padPoison b.addr b.len ||
      (banksOf b.addr b.len).any (fun k => (c.padBank k).state == .off))
    let c1 := x.bufs.foldl (fun d b => if b.lu then d.padLastUse b.addr b.len else d) c
    c1.setSend n { x with taken := true, msg := bs, pois := x.pois || p }

/-- A tile register's snapshot (R217). -/
def Tile.stateWord (t : Tile) : Word :=
  packWord [(5, 1, b2n t.lock), (4, 1, b2n t.waking), (2, 2, t.pol.code), (0, 2, t.state.code)]

/-- A scratchpad bank's snapshot (R217). -/
def Ctx.padStateWord (c : Ctx) (b : Nat) : Word :=
  if c.spbanks ≤ b then 3#64
  else
    let k := c.padBank b
    packWord [(8, 7, c.liveCount b), (5, 1, b2n (c.pinned b)), (4, 1, b2n k.waking), (2, 2, k.pol.code),
      (0, 2, k.state.code)]

/-- PSTAT (R304). -/
def Ctx.pstat (c : Ctx) : Word :=
  packWord [(16, 6, c.device), (3, 1, b2n c.shnd), (2, 1, b2n c.thnd), (0, 2, b2n c.atSteward)]

/-- QSTAT (R183). -/
def Ctx.qstat (c : Ctx) : Word :=
  packWord [(8, 4, c.qterm.toNat),
    (4, 4, packBits 1 ((List.range 4).map (fun n => b2n (c.qbind n).desc.isSome))), (0, 2, c.qlast.toNat)]

/-- SRAMCFG (R82). -/
def Ctx.sramcfg (c : Ctx) : Word := packWord [(8, 6, c.spbanks), (4, 2, c.l1size.toNat)]

/-- An engine latch (R344, R354). -/
def Ctx.latch (c : Ctx) (n : Nat) : Option Latch := Sparse.get (fun _ => none) c.latches n

/-- Replaces an engine latch. -/
def Ctx.setLatch (c : Ctx) (n : Nat) (l : Option Latch) : Ctx :=
  { c with latches := Sparse.set (fun _ => none) c.latches n l }

/-- Engines in the order L, X, V, S, as numbers. -/
def Eng.num : Eng → Nat
  | .l => 0
  | .x => 1
  | .v => 2
  | .s => 3

/-- A queue of a bank. -/
def RegBank.queue (b : RegBank) : Eng → List Entry
  | .l => b.qL
  | .x => b.qX
  | .v => b.qV
  | .s => b.qS

/-- Replaces a queue of a bank. -/
def RegBank.setQueue (b : RegBank) (e : Eng) (q : List Entry) : RegBank := match e with
  | .l => { b with qL := q }
  | .x => { b with qX := q }
  | .v => { b with qV := q }
  | .s => { b with qS := q }

/-- Writes the cells that an entry has yet to write, of tile registers that hold data (R248). -/
def Ctx.putLate (c : Ctx) (l : List LateCell) : Ctx :=
  l.foldl (fun c x =>
    if x.reg < 16 then
      if (c.tile x.reg).state = .off ∨ (c.tile x.reg).state = .absent then c
      else c.setTile x.reg { c.tile x.reg with
        cells := Sparse.set (fun _ => Cell.zero) (c.tile x.reg).cells x.cell { bits := BitVec.ofNat 32 x.bits, pois := x.pois } }
    else c.setPlane (x.reg - 16) { c.plane (x.reg - 16) with
      cells := Sparse.set (fun _ => PCell.zero) (c.plane (x.reg - 16)).cells x.cell
        { bits := BitVec.ofNat 48 x.bits, pois := x.pois } }) c

/-- A bank whose queues' entries have every cell written. -/
def RegBank.noLate (b : RegBank) : RegBank :=
  let done (q : List Entry) : List Entry := q.map (fun e => { e with late := [] })
  { b with qL := done b.qL, qX := done b.qX, qV := done b.qV, qS := done b.qS }

/-- The cells that the entries of a bank have yet to write. -/
def RegBank.lateCells (b : RegBank) : List LateCell := (b.qL ++ b.qX ++ b.qV ++ b.qS).flatMap Entry.late

/-- A started entry completes its writes where its queue stops or freezes (R22, R348). -/
def Ctx.settleLate (c : Ctx) : Ctx :=
  let l := c.base.lateCells ++ c.tbank.lateCells ++ c.sbank.lateCells
  if l.isEmpty then c
  else { c.putLate l with base := c.base.noLate, tbank := c.tbank.noLate, sbank := c.sbank.noLate }

/-- A stamp as a number: VC, ASHAPE, EMODE, SQP.BASEG (R353). -/
def Stamp.num (s : Stamp) : Nat :=
  packFields [(0, 7, s.vc.toNat), (7, 4, s.ashape.toNat), (11, 4, s.emode.toNat), (15, 12, s.sqp.toNat)]

/-- A stamp of a number. -/
def stampOf (n : Nat) : Stamp :=
  { vc := BitVec.ofNat 7 n, ashape := BitVec.ofNat 4 (n / 2 ^ 7), emode := BitVec.ofNat 4 (n / 2 ^ 11),
    sqp := BitVec.ofNat 12 (n / 2 ^ 15) }

/-- EMODE.SPEC of a stamp (R44). -/
def Stamp.spec (s : Stamp) : Bool := s.emode.getLsbD 3

/-- The rounding mode of a stamp (R47). -/
def Stamp.rm (s : Stamp) : Rm := rmOf (s.emode.toNat % 8)

end Sys2Proof.Machine
end

