-- ==== Sys2Proof/Machine/Save.lean ====
section
/-! DEFINITION. The context save area: its layout, writing it, reading it back (R353 to R356). -/

namespace Sys2Proof.Machine

/-! ### Writing -/

/-- One of eight bytes a FIFO count (R353). -/
def Fifos.list (f : Fifos) : List Nat := [f.sl, f.ls, f.lx, f.xl, f.xv, f.vx, f.vs, f.sv]

/-- FIFO counts of a list. -/
def fifosOf (l : List Nat) : Fifos :=
  { sl := l.getD 0 0, ls := l.getD 1 0, lx := l.getD 2 0, xl := l.getD 3 0, xv := l.getD 4 0,
    vx := l.getD 5 0, vs := l.getD 6 0, sv := l.getD 7 0 }

/-- Whether an entry is a macro-operation: its `val` holds the flags its steps have gathered, and no value
that the sequencer read. -/
def Entry.isMacro (e : Entry) : Bool := match e.instr with
  | .xmma _ | .xmmam _ | .xspmm _ => true
  | _ => false

/-- A queue entry's 32 bytes (R353). -/
def Entry.bytes (e : Entry) : List Byte :=
  bytesOfNat 8 (encode e.instr).toNat ++ bytesOfNat 8 (if e.isMacro then 0 else e.val.toNat) ++
  bytesOfNat 3 (packFields [(0, 8, e.i1.toNat), (8, 8, e.i2.toNat), (16, 8, e.idst.toNat)]) ++
  bytesOfNat 1 (packFields [(0, 1, b2n e.bad), (1, 1, b2n e.sPend), (2, 1, b2n (e.popsTaken || e.pushOwed)),
    (3, 1, b2n e.pushOwed), (4, 4, match e.instr with | .lfeed _ => e.rows | _ => 0)]) ++
  bytesOfNat 4 e.stamp.num ++ bytesOfNat 8 e.addr.toNat

/-- Whether a tile register's or bank's image is written (R355). -/
def Supply.saved (x : Supply) : Bool := x == .full || x == .retain

/-- LIVEMASK (R354). -/
def Ctx.liveMask (c : Ctx) : Nat :=
  packBits 1 ((List.range 16).map (fun t => b2n (c.tile t).state.saved)) +
  2 ^ 16 * packBits 1 ((List.range 48).map (fun b => b2n (decide (b < c.spbanks) && (c.padBank b).state.saved)))

/-- ZMASK (R354). -/
def Ctx.zMask (c : Ctx) : Nat :=
  packBits 1 [b2n (c.plane 0).zmask, b2n (c.plane 1).zmask, b2n c.active.zmask, b2n c.shadow.zmask,
    b2n c.mask.zmask, b2n c.feed.isEmpty]

/-- The pending set of posted causes; COPY_ERROR stands in CECH (R345, R354). -/
def Ctx.pendingBits (c : Ctx) : Nat :=
  (c.posted.filter (fun p => p.code != cCOPY)).foldl (fun n p =>
    if bitOf n p.code.toNat then n else n + 2 ^ p.code.toNat) 0

/-- The channels with COPY_ERROR pending (R354). -/
def Ctx.cech (c : Ctx) : Nat :=
  (c.posted.filter (fun p => p.code == cCOPY)).foldl (fun n p => if bitOf n p.ch then n else n + 2 ^ p.ch) 0

/-- The latches as R354 lays them out. -/
def Ctx.efault (c : Ctx) : Nat :=
  packBits 128 ((List.range 4).map (fun i => match c.latch i with
    | some l => packFields [(0, 8, l.code.toNat), (8, 8, l.sub.toNat), (16, 1, 1), (64, 64, l.addr.toNat)]
    | none => 0))

/-- The 256-byte header (R354). PRESENT names the banks the context's core presented. -/
def Ctx.header (c : Ctx) (now present : Nat) : List Byte :=
  let w := c.base.wait.filter (fun x => x.pc == c.pc)
  bytesOfNat 256 (packFields [
    (0, 16, 1200), (16, 16, 1), (32, 2, if c.level = .steward then 1 else 0), (40, 6, c.vdn.toNat),
    (48, 4, c.part.toNat), (56, 2, c.disp.toNat), (58, 6, c.queue.toNat), (64, 16, c.lcore.toNat),
    (80, 4, c.crewIx), (84, 4, c.crewSz), (88, 1, b2n c.forced), (89, 1, b2n c.sliced),
    (90, 1, b2n c.held), (91, 1, b2n c.fullt), (92, 1, b2n c.regabs), (128, 64, c.pc.toNat),
    (192, 64, c.trec.toNat),
    (256, 32, packBits 2 ((List.range 16).map (fun t => (c.tile t).state.code))),
    (288, 32, packBits 2 ((List.range 16).map (fun t => (c.tile t).pol.code))),
    (320, 96, packBits 2 ((List.range 48).map (fun b => (c.padBank b).state.code))),
    (416, 96, packBits 2 ((List.range 48).map (fun b => (c.padBank b).pol.code))),
    (512, 64, c.liveMask), (576, 64, present),
    (640, 16, packBits 1 ((List.range 16).map (fun t => b2n (c.tile t).lock))),
    (656, 6, c.zMask),
    (704, 64, packBits 1 ((List.range 64).map (fun r => b2n (c.base.getS r).pois))),
    (768, 64, c.vwlim.toNat), (832, 64, c.sramcfg.toNat), (896, 64, c.pbud.toNat), (960, 64, c.vcyc),
    (1024, 64, c.pendingBits), (1088, 8, c.cech), (1152, 32, c.progT / 1000), (1184, 2, c.progX),
    (1216, 64, match w with | some x => x.since | none => 0),
    (1280, 1, match w with | some x => b2n x.checked | none => 0),
    (1344, 512, c.efault), (1856, 64, now)])

/-- The engine state record (R353). -/
def Ctx.engineState (c : Ctx) : List Byte :=
  c.base.fifo.list.map (fun n => BitVec.ofNat 8 n) ++
  [c.base.qL.length, c.base.qX.length, c.base.qV.length, c.base.qS.length].map (fun n => BitVec.ofNat 8 n) ++
  bytesOfNat 1 (match c.prog with | some n => n % 4 + 128 | none => 0) ++
  bytesOfNat 1 c.feed.length ++ bytesOfNat 1 (b2n c.mask.pois) ++ bytesOfNat 1 0 ++
  (List.range 8).flatMap (fun i => bytesOfNat 4 (Sparse.get (fun _ => 0#32) c.foff i).toNat) ++
  bytesOfNat 4 c.active.presence.toNat ++ bytesOfNat 4 c.shadow.presence.toNat

/-- The system register slots (R353). -/
def Ctx.csrSlots (c : Ctx) : List Byte :=
  let b := c.base
  ([b.vc.toNat, b.ashape.toNat, b.emode.toNat, b.estat.toNat, b.sqp.toNat, c.qstat.toNat, c.cpfail.toNat, 0,
    c.tvec.toNat, c.tepc.toNat, c.tcause.toNat, c.tval.toNat, c.tscr.toNat, c.tbudget, 0, 0,
    c.svec.toNat, c.sepc.toNat, c.scause.toNat, c.sval.toNat, c.sscr.toNat, c.spmsel.toNat]).flatMap
    (fun v => bytesOfNat 8 v)

/-- A queue binding's 32 bytes (R353). -/
def QBinding.bytes (b : QBinding) : List Byte :=
  bytesOfNat 8 ((b.desc.getD 0#64).toNat) ++ bytesOfNat 8 (match b.held with | some h => h.bits.toNat | none => 0) ++
  bytesOfNat 1 (packFields [(0, 1, b2n b.desc.isSome), (1, 1, b2n b.held.isSome),
    (2, 1, match b.held with | some h => b2n h.pois | none => 0), (4, 3, b.scope.toNat)]) ++ bytesOfNat 15 0

/-- A binding-table entry's 32 bytes (R353). -/
def Binding.bytes (b : Binding) : List Byte :=
  bytesOfNat 8 b.base.toNat ++ bytesOfNat 8 b.len.toNat ++ bytesOfNat 8 b.cnt.toNat ++ bytesOfNat 8 1

/-- A copy channel's 64 bytes (R353). -/
def Chan.image (c : Chan) : List Byte :=
  bytesOfNat 4 (packFields [(0, 8, c.stateCode), (8, 8, c.ecode.toNat), (16, 16, c.donecnt.toNat)]) ++
  bytesOfNat 4 0 ++ bytesOfNat 8 (match c.cur with | some a => a.addr.toNat | none => 0) ++
  bytesOfNat 8 (match c.pend with | some a => a.addr.toNat | none => 0) ++ bytesOfNat 8 c.elems ++
  bytesOfNat 32 0

/-- A send slot's 16 bytes (R353). -/
def SendSlot.bytes (x : SendSlot) : List Byte :=
  bytesOfNat 8 x.word.toNat ++ bytesOfNat 1 x.gen.toNat ++ bytesOfNat 1 (b2n x.used) ++ bytesOfNat 6 0

/-- A VSTS build's 320 bytes (R353). -/
def Build.bytes (b : Build) (age : Nat) : List Byte :=
  bytesOfNat 8 b.sector.toNat ++ bytesOfNat 4 b.version.toNat ++ bytesOfNat 1 b.scope.toNat ++
  bytesOfNat 1 1 ++ bytesOfNat 1 age ++ bytesOfNat 1 0 ++ bytesOfNat 4 b.words.toNat ++
  bytesOfNat 1 b.pois.toNat ++ bytesOfNat 43 0 ++ bytesOfNat 256 b.data.toNat

/-- The gutter lengths: 4 bytes at 4g for each filled or in-flight slot whose first granule is g
(R353). -/
def Ctx.gutterLens (c : Ctx) : List (Nat × Nat) :=
  (List.range 16).flatMap (fun n =>
    let g := c.gutter n
    if g.en then (List.range (g.nslot.toNat - g.free)).map (fun i =>
      let slot := (g.head + i) % g.nslot.toNat
      (g.base.toNat + g.slotg.toNat * slot, g.lenAt slot))
    else [])

/-- The control part and the images as offsets with bytes (R353, R355). -/
def Ctx.areaParts (c : Ctx) (now present : Nat) : List (Nat × List Byte) :=
  [(0x0, c.header now present),
   (0x100, (List.range 64).flatMap (fun r => bytesOfNat 8 (c.base.getS r).bits.toNat)),
   (0x300, (List.range 8).flatMap (fun k => bytesOfNat 8 (c.base.getK k).bits.toNat) ++
     (List.range 8).flatMap (fun k => bytesOfNat 8 (c.base.getK k).pois.toNat)),
   (0x380, c.csrSlots),
   (0x480, (List.range 16).flatMap (fun n => bytesOfNat 8 (c.gutter n).cfgWord.toNat)),
   (0x500, (List.range 16).flatMap (fun n => bytesOfNat 8 (c.gutter n).statWord.toNat)),
   (0x580, (List.range 32).flatMap (fun n => bytesOfNat 8 (c.lbuf n).word.toNat)),
   (0x680, (List.range 4).flatMap (fun n => (c.qbind n).bytes)),
   (0x700, c.engineState),
   (0x800, c.bindings.flatMap Binding.bytes),
   (0xC00, (List.range 64).flatMap (fun i => bytesOfNat 8
     ((Sparse.get (fun _ => none) c.rslots i).getD 0#64).toNat)),
   (0xE00, (List.range 8).flatMap (fun i => (c.chan i).image)),
   (0x1000, c.base.qL.flatMap Entry.bytes), (0x1400, c.base.qX.flatMap Entry.bytes),
   (0x1600, c.base.qV.flatMap Entry.bytes), (0x1A00, c.base.qS.flatMap Entry.bytes),
   (0x1E00, (List.range 32).flatMap (fun i => (c.send i).bytes)),
   (0x2000, (List.range 48).flatMap (fun b => bytesOfNat 8 (packBits 1
     ((List.range 64).map (fun g => b2n (Sparse.get (fun _ => false) c.glive (64 * b + g))))))),
   (0x2180, (List.range 48).flatMap (fun b => bytesOfNat 8 (packBits 1
     ((List.range 64).map (fun g => b2n (Sparse.get (fun _ => false) c.gpois (64 * b + g))))))),
   (0x2300, c.builds.zipIdx.flatMap (fun b => b.1.bytes b.2))] ++
  c.gutterLens.map (fun e => (0x3000 + 4 * e.1, bytesOfNat 4 e.2)) ++
  (List.range 16).flatMap (fun t =>
    if (c.tile t).state.saved then
      [(0x6000 + 16384 * t, (List.range 4096).flatMap (fun i =>
          bytesOfNat 4 (Sparse.get (fun _ => Cell.zero) (c.tile t).cells i).bits.toNat)),
       (0x46000 + 512 * t, bytesOfNat 512 (packBits 1 ((List.range 4096).map (fun i =>
          b2n (Sparse.get (fun _ => Cell.zero) (c.tile t).cells i).pois))))]
    else []) ++
  (List.range 2).flatMap (fun p =>
    if (c.plane p).zmask then []
    else
      [(0x48000 + 49152 * p, (List.range 8192).flatMap (fun i =>
          bytesOfNat 6 (Sparse.get (fun _ => PCell.zero) (c.plane p).cells i).bits.toNat)),
       (0x60000 + 1024 * p, bytesOfNat 1024 (packBits 1 ((List.range 8192).map (fun i =>
          b2n (Sparse.get (fun _ => PCell.zero) (c.plane p).cells i).pois))))]) ++
  ([(0x61000, c.active), (0x66000, c.shadow)].flatMap (fun (x : Nat × WPlane) =>
    if x.2.zmask then []
    else
      [(x.1, Sparse.getList memDefault x.2.bytes 0 16384),
       (x.1 + 16384, bytesOfNat 512 (packBits 1 ((List.range 4096).map (fun i =>
          b2n (Sparse.get (fun _ => false) x.2.pois i))))),
       (x.1 + 16896, Sparse.getList memDefault x.2.scales 0 512),
       (x.1 + 17408, bytesOfNat 16 (packBits 1 ((List.range 128).map (fun i =>
          b2n (Sparse.get (fun _ => false) x.2.spois i)))))])) ++
  (if c.mask.zmask then []
   else [(0x6B000, (List.range 64).flatMap (fun i => bytesOfNat 8 (Sparse.get (fun _ => 0#64) c.mask.rows i).toNat) ++
      bytesOfNat 8 c.mask.fill.toNat ++ bytesOfNat 1 (b2n c.mask.half + 2 * b2n c.mask.out) ++ bytesOfNat 503 0)]) ++
  (if c.feed.isEmpty then []
   else [(0x6B400, (c.feed.flatMap (fun r => Sparse.getList memDefault r.bytes 0 128)) ++
        bytesOfNat (2048 - 128 * c.feed.length) 0 ++
        (c.feed.flatMap (fun r => bytesOfNat 4 (packBits 1 ((List.range 32).map (fun i =>
          b2n (Sparse.get (fun _ => false) r.pois i)))))) ++ bytesOfNat (64 - 4 * c.feed.length) 0)]) ++
  (List.range 48).flatMap (fun b =>
    if b < c.spbanks ∧ (c.padBank b).state.saved = true then
      [(0x6C000 + 16384 * b, c.padBytes (16384 * b) 16384)]
    else [])

/-- The banks a core presents, laid out as LIVEMASK (R354). -/
def State.presentMask (s : State) (p : Nat) : Nat :=
  let k := s.coreSlot p
  packBits 1 ((List.range 16).map (fun t => b2n (!(t == 15 && k.noT15)))) +
  2 ^ 16 * packBits 1 ((List.range 48).map (fun b => b2n (decide (b < 48 - k.removed))))

/-- Writes a context's save area at the context's address, marks cleared: the first 24 KiB whole, then
the live images (R355). (DESIGN CHOICE, log 14) -/
def State.writeArea (s : State) (c : Ctx) : State :=
  let s0 := s.zeroRange c.id 24576
  (c.areaParts s.now (s.presentMask c.core)).foldl (fun t e => t.homeWrite (c.id + e.1) e.2 false) s0

/-! ### Reading back -/

/-- The header fields the steward may change, read again when the context is placed (R354); SRAMCFG cannot
change while the context exists (R82). (DESIGN CHOICE, log 14) -/
def State.rereadArea (s : State) (c : Ctx) : Ctx :=
  { c with
    vwlim := BitVec.ofNat 20 (s.natAt (c.id + 96) 8)
    pbud := BitVec.ofNat 18 (s.natAt (c.id + 112) 8) }

/-- Sets the poison of n elements from the i-th on. -/
def poisonRun {α : Type} [DecidableEq α] (d : Nat → α) (bad : α → α) (m : Sparse α) (i n : Nat) : Sparse α :=
  (List.range n).foldl (fun m j => Sparse.set d m (i + j) (bad (Sparse.get d m (i + j)))) m

/-- A weight plane with what a marked sector of its image covers poisoned. -/
def WPlane.poisonSector (w : WPlane) (o : Nat) : WPlane :=
  if w.zmask then w
  else if o < 16384 then { w with pois := poisonRun (fun _ => false) (fun _ => true) w.pois (o / 4) 16 }
  else if o < 16896 then { w with pois := poisonRun (fun _ => false) (fun _ => true) w.pois (8 * (o - 16384)) 512 }
  else if o < 17408 then { w with spois := poisonRun (fun _ => false) (fun _ => true) w.spois ((o - 16896) / 4) 16 }
  else if o < 17424 then { w with spois := poisonRun (fun _ => false) (fun _ => true) w.spois 0 128 }
  else w

/-- A context with what a marked 64-byte sector at offset o of its area covers restored as poisoned: the cells
or granules whose bits, or whose poison bits, the sector holds (R353, R356). (DEDUCED, log 69) -/
def Ctx.poisonSector (c : Ctx) (o : Nat) : Ctx :=
  let tile (t i n : Nat) : Ctx :=
    if (c.tile t).state.saved then
      c.setTile t { c.tile t with
        cells := poisonRun (fun _ => Cell.zero) (fun (x : Cell) => { x with pois := true }) (c.tile t).cells i n }
    else c
  let plane (p i n : Nat) : Ctx :=
    if (c.plane p).zmask then c
    else c.setPlane p { c.plane p with
      cells := poisonRun (fun _ => PCell.zero) (fun (x : PCell) => { x with pois := true }) (c.plane p).cells i n }
  if o < 0x6000 then c
  else if o < 0x46000 then tile ((o - 0x6000) / 16384) ((o - 0x6000) % 16384 / 4) 16
  else if o < 0x48000 then tile ((o - 0x46000) / 512) (8 * ((o - 0x46000) % 512)) 512
  else if o < 0x60000 then
    let k := (o - 0x48000) % 49152
    plane ((o - 0x48000) / 49152) (k / 6) ((k + 63) / 6 + 1 - k / 6)
  else if o < 0x60800 then plane ((o - 0x60000) / 1024) (8 * ((o - 0x60000) % 1024)) 512
  else if o < 0x61000 then c
  else if o < 0x66000 then { c with active := c.active.poisonSector (o - 0x61000) }
  else if o < 0x6B000 then { c with shadow := c.shadow.poisonSector (o - 0x66000) }
  else if o < 0x6B400 then if c.mask.zmask then c else { c with mask := { c.mask with pois := true } }
  else if o < 0x6C000 then
    let k := o - 0x6B400
    let bad (r : FeedRow) (i n : Nat) : FeedRow :=
      { r with pois := poisonRun (fun _ => false) (fun _ => true) r.pois i n }
    { c with feed := c.feed.mapIdx (fun i r =>
        if k < 2048 then (if k / 128 = i then bad r (k % 128 / 4) 16 else r)
        else if k < 2112 then bad r 0 32 else r) }
  else
    let b := (o - 0x6C000) / 16384
    if b < c.spbanks ∧ (c.padBank b).state.saved = true then c.padMark (o - 0x6C000) 64 else c

/-- A context as its restore finds the marks of its area's image sectors (R356). -/
def State.restoreMarks (s : State) (c : Ctx) : Ctx :=
  (s.marks.filter (fun e => e.2 && decide (c.id ≤ 64 * e.1) && decide (64 * e.1 < c.id + 1228800))).foldl
    (fun c e => c.poisonSector (64 * e.1 - c.id)) c

/-- A sparse table of n read values. -/
def sparseOf {α : Type} [DecidableEq α] (d : Nat → α) (n : Nat) (f : Nat → α) : Sparse α :=
  Sparse.setList d [] 0 ((List.range n).map f)

/-- Queue entries of a saved queue; a word that is none of the engine's instructions is left out.
(DESIGN CHOICE, log 14) -/
def readQueue (g : Nat → Nat → Nat) (off : Nat) (n cls : Nat) : List Entry :=
  (List.range n).filterMap (fun i =>
    let o := off + 32 * i
    match (if g o 8 / 2 ^ 60 = cls then decode (BitVec.ofNat 64 (g o 8)) else none) with
    | none => none
    | some ins =>
      let fl := g (o + 19) 1
      some { instr := ins, val := BitVec.ofNat 64 (g (o + 8) 8), i1 := BitVec.ofNat 6 (g (o + 16) 1),
             i2 := BitVec.ofNat 6 (g (o + 17) 1), idst := BitVec.ofNat 6 (g (o + 18) 1), bad := bitOf fl 0,
             sPend := bitOf fl 1, popsTaken := bitOf fl 2, pushOwed := bitOf fl 3, rows := bitsOf fl 4 4, offs := [], late := [],
             stall := .none, stamp := stampOf (g (o + 20) 4), addr := BitVec.ofNat 64 (g (o + 24) 8) })

/-- A weight plane of a saved image (R353). -/
def readWPlane (s : State) (pa off pres : Nat) (z : Bool) : WPlane :=
  if z then WPlane.entry
  else
    { bytes := sparseOf memDefault 16384 (fun i => s.byteAt (pa + off + i))
      pois := sparseOf (fun _ => false) 4096 (fun i => bitOf (s.natAt (pa + off + 16384 + i / 8) 1) (i % 8))
      scales := sparseOf memDefault 512 (fun i => s.byteAt (pa + off + 16896 + i))
      spois := sparseOf (fun _ => false) 128 (fun i => bitOf (s.natAt (pa + off + 17408 + i / 8) 1) (i % 8))
      presence := BitVec.ofNat 32 pres, zmask := false }

/-- A context from a save area that no context of the module wrote: one the steward built or another
module saved (R353, R356, R386). Marks of image sectors poison what they cover (R356). (DESIGN CHOICE, log 14) -/
def State.readArea (s : State) (pa : Nat) : Ctx :=
  let g (off n : Nat) : Nat := s.natAt (pa + off) n
  let h := g 0 256
  let z := bitsOf h 656 6
  let live := bitsOf h 512 64
  let slot (i : Nat) : Nat := g (0x380 + 8 * i) 8
  let base : RegBank :=
    { s := sparseOf (fun _ => SReg.zero) 64 (fun r =>
        if r = 0 then SReg.zero
        else { bits := BitVec.ofNat 64 (g (0x100 + 8 * r) 8), pois := bitOf (bitsOf h 704 64) r })
      k := sparseOf (fun _ => KReg.zero) 8 (fun k =>
        if k = 0 then KReg.zero
        else { bits := BitVec.ofNat 64 (g (0x300 + 8 * k) 8), pois := BitVec.ofNat 64 (g (0x340 + 8 * k) 8) })
      vc := BitVec.ofNat 7 (slot 0), ashape := BitVec.ofNat 4 (slot 1), emode := BitVec.ofNat 4 (slot 2)
      estat := BitVec.ofNat 7 (slot 3), sqp := BitVec.ofNat 12 (slot 4)
      fifo := fifosOf ((List.range 8).map (fun i => g (0x700 + i) 1))
      qL := readQueue g 0x1000 (g 0x708 1) 4, qX := readQueue g 0x1400 (g 0x709 1) 5
      qV := readQueue g 0x1600 (g 0x70A 1) 6, qS := readQueue g 0x1A00 (g 0x70B 1) 7
      wait := if bitsOf h 1216 64 = 0 then none
        else some { pc := BitVec.ofNat 64 (bitsOf h 128 64), kind := .restored, since := bitsOf h 1216 64,
                    checked := bitOf h 1280, cover := [], given := .nothing } }
  s.restoreMarks { Ctx.blank with
    id := pa, place := .memory, pc := BitVec.ofNat 64 (bitsOf h 128 64), base := base
    tiles := sparseOf (fun _ => Tile.entry) 16 (fun t =>
      { Tile.entry with
        state := if bitOf live t then supplyOf (bitsOf h (256 + 2 * t) 2) else .off
        pol := supplyOf (bitsOf h (288 + 2 * t) 2)
        lock := bitOf h (640 + t)
        cells := if bitOf live t then sparseOf (fun _ => Cell.zero) 4096 (fun i =>
            { bits := BitVec.ofNat 32 (g (0x6000 + 16384 * t + 4 * i) 4),
              pois := bitOf (g (0x46000 + 512 * t + i / 8) 1) (i % 8) })
          else [] })
    acc := sparseOf (fun _ => Plane.entry) 2 (fun p =>
      if bitOf z p then Plane.entry
      else { Plane.entry with
        zmask := false
        cells := sparseOf (fun _ => PCell.zero) 8192 (fun i =>
          { bits := BitVec.ofNat 48 (g (0x48000 + 49152 * p + 6 * i) 6),
            pois := bitOf (g (0x60000 + 1024 * p + i / 8) 1) (i % 8) }) })
    active := readWPlane s pa 0x61000 (g 0x730 4) (bitOf z 2)
    shadow := readWPlane s pa 0x66000 (g 0x734 4) (bitOf z 3)
    mask := if bitOf z 4 then MaskBlock.entry
      else { rows := sparseOf (fun _ => 0#64) 64 (fun i => BitVec.ofNat 64 (g (0x6B000 + 8 * i) 8))
             fill := BitVec.ofNat 48 (g 0x6B200 6), half := bitOf (g 0x6B208 1) 0, out := bitOf (g 0x6B208 1) 1
             pois := bitOf (g 0x70E 1) 0, zmask := false }
    feed := if bitOf z 5 then []
      else (List.range (g 0x70D 1)).map (fun i =>
        { bytes := sparseOf memDefault 128 (fun j => s.byteAt (pa + 0x6B400 + 128 * i + j))
          pois := sparseOf (fun _ => false) 32 (fun j => bitOf (g (0x6BC00 + 4 * i) 4) j) })
    foff := sparseOf (fun _ => 0#32) 8 (fun i => BitVec.ofNat 32 (g (0x710 + 4 * i) 4))
    prog := if bitOf (g 0x70C 1) 7 then some (g 0x70C 1 % 4) else none
    latches := sparseOf (fun _ => none) 4 (fun i =>
      let l := bitsOf h (1344 + 128 * i) 128
      if bitOf l 16 then some { code := BitVec.ofNat 8 l, sub := BitVec.ofNat 8 (l / 256), addr := BitVec.ofNat 64 (l / 2 ^ 64) }
      else none)
    pad := (List.range 48).flatMap (fun b =>
      if bitOf live (16 + b) then
        (List.range 16384).filterMap (fun i =>
          let v := s.byteAt (pa + 0x6C000 + 16384 * b + i)
          if v = 0#8 then none else some (16384 * b + i, v))
      else [])
    gpois := sparseOf (fun _ => false) 3072 (fun i => bitOf (g (0x2180 + i / 8) 1) (i % 8))
    glive := sparseOf (fun _ => false) 3072 (fun i => bitOf (g (0x2000 + i / 8) 1) (i % 8) && bitOf live (16 + i / 64))
    banks := sparseOf (fun _ => PadBank.entry) 48 (fun b =>
      { PadBank.entry with
        state := if bitOf live (16 + b) then supplyOf (bitsOf h (320 + 2 * b) 2) else .off
        pol := supplyOf (bitsOf h (416 + 2 * b) 2) })
    spbanks := bitsOf h 840 6, l1size := BitVec.ofNat 2 (bitsOf h 836 2)
    gutters := sparseOf (fun _ => Gutter.zero) 16 (fun n =>
      let w := g (0x480 + 8 * n) 8
      let t := g (0x500 + 8 * n) 8
      let ns := bitsOf w 0 12
      { Gutter.zero with
        en := bitOf w 63, base := BitVec.ofNat 12 (bitsOf w 32 12), slotg := BitVec.ofNat 8 (bitsOf w 16 8)
        nslot := BitVec.ofNat 12 ns, err := bitOf t 62, head := bitsOf t 24 12, filled := bitsOf t 12 12
        free := if bitOf w 63 then ns - bitsOf t 12 12 else bitsOf t 0 12
        lens := if bitOf w 63 then sparseOf (fun _ => 0) ns (fun i =>
          g (0x3000 + 4 * (bitsOf w 32 12 + bitsOf w 16 8 * i)) 4) else [] })
    lbufs := sparseOf (fun _ => LBuf.zero) 32 (fun n =>
      let w := g (0x580 + 8 * n) 8
      { en := bitOf w 63, inuse := bitOf w 62, base := BitVec.ofNat 12 (bitsOf w 32 12), sizeg := BitVec.ofNat 9 (bitsOf w 16 9) })
    bindings := (List.range 32).filterMap (fun i =>
      let o := 0x800 + 32 * i
      if bitOf (g (o + 24) 1) 0 then
        some { base := BitVec.ofNat 64 (g o 8), len := BitVec.ofNat 64 (g (o + 8) 8), cnt := BitVec.ofNat 64 (g (o + 16) 8) }
      else none)
    qbinds := sparseOf (fun _ => QBinding.zero) 4 (fun n =>
      let o := 0x680 + 32 * n
      let f := g (o + 16) 1
      { desc := if bitOf f 0 then some (BitVec.ofNat 64 (g o 8)) else none, scope := BitVec.ofNat 3 (f / 16)
        held := if bitOf f 1 then some { bits := BitVec.ofNat 64 (g (o + 8) 8), pois := bitOf f 2 } else none })
    qterm := BitVec.ofNat 4 (slot 5 / 256), qlast := BitVec.ofNat 2 (slot 5), cpfail := BitVec.ofNat 32 (slot 6)
    vwlim := BitVec.ofNat 20 (bitsOf h 768 64), pbud := BitVec.ofNat 18 (bitsOf h 896 64)
    spmsel := BitVec.ofNat 6 (slot 21)
    rslots := sparseOf (fun _ => none) 64 (fun i =>
      let v := g (0xC00 + 8 * i) 8
      if v = 0 then none else some (BitVec.ofNat 64 v))
    builds := (List.range 4).filterMap (fun i =>
      let o := 0x2300 + 320 * i
      if bitOf (g (o + 13) 1) 0 then
        some { sector := BitVec.ofNat 64 (g o 8), version := BitVec.ofNat 32 (g (o + 8) 4), scope := BitVec.ofNat 3 (g (o + 12) 1),
               words := BitVec.ofNat 32 (g (o + 16) 4), pois := BitVec.ofNat 4 (g (o + 20) 1), data := BitVec.ofNat 2048 (g (o + 64) 256) }
      else none)
    chans := sparseOf (fun _ => Chan.idle) 8 (fun i =>
      let o := 0xE00 + 64 * i
      let w := g o 4
      { Chan.idle with
        run := bitsOf w 0 8 == 1 || bitsOf w 0 8 == 2, err := bitsOf w 0 8 == 3, ecode := BitVec.ofNat 8 (w / 256)
        donecnt := BitVec.ofNat 16 (w / 65536), elems := g (o + 24) 8
        phase := if g (o + 24) 8 = 0 then .start else .walk
        cur := if g (o + 8) 8 = 0 then none else some (.record (BitVec.ofNat 64 (g (o + 8) 8)))
        pend := if g (o + 16) 8 = 0 then none else some (.record (BitVec.ofNat 64 (g (o + 16) 8))) })
    sends := sparseOf (fun _ => SendSlot.zero) 32 (fun i =>
      let o := 0x1E00 + 16 * i
      let w := g o 8
      { SendSlot.zero with
        gen := BitVec.ofNat 8 (g (o + 8) 1), used := bitOf (g (o + 9) 1) 0, taken := bitOf w 0, sent := bitOf w 1
        delivered := bitOf w 2, late := bitOf w 3, err := bitOf w 4, ecode := BitVec.ofNat 8 (w / 256)
        tstamp := BitVec.ofNat 48 (w / 65536) })
    tvec := BitVec.ofNat 64 (slot 8), tepc := BitVec.ofNat 64 (slot 9), tcause := BitVec.ofNat 64 (slot 10)
    tval := BitVec.ofNat 64 (slot 11), tscr := BitVec.ofNat 64 (slot 12), tbudget := slot 13
    svec := BitVec.ofNat 64 (slot 16), sepc := BitVec.ofNat 64 (slot 17), scause := BitVec.ofNat 64 (slot 18)
    sval := BitVec.ofNat 64 (slot 19), sscr := BitVec.ofNat 64 (slot 20)
    level := if bitsOf h 32 2 = 1 then .steward else .tenant
    vdn := BitVec.ofNat 6 (bitsOf h 40 6), part := BitVec.ofNat 4 (bitsOf h 48 4), queue := BitVec.ofNat 6 (bitsOf h 58 6)
    disp := BitVec.ofNat 2 (bitsOf h 56 2), lcore := BitVec.ofNat 16 (bitsOf h 64 16), crewIx := bitsOf h 80 4
    crewSz := bitsOf h 84 4, trec := BitVec.ofNat 64 (bitsOf h 192 64), fullt := bitOf h 91, regabs := bitOf h 92
    held := bitOf h 90, forced := bitOf h 88, sliced := bitOf h 89, vcyc := bitsOf h 960 64
    posted := (List.range 64).filterMap (fun n =>
        if bitOf (bitsOf h 1024 64) n ∧ n ≠ 0x16 then
          some { code := BitVec.ofNat 8 n, sub := 0#8, val := 0#64, unit := 0, ch := 0 } else none) ++
      (List.range 8).filterMap (fun ch =>
        if bitOf (bitsOf h 1088 8) ch then some { code := cCOPY, sub := 0#8, val := 0#64, unit := 5, ch := ch } else none)
    progT := 1000 * bitsOf h 1152 32, progX := bitsOf h 1184 2, savet := bitsOf h 1856 64 }

/-- Whether an area's header can be this device's: size, format, and no poison in the first 24 KiB (R319,
R354, R356). (DESIGN CHOICE, log 14) -/
def State.areaOk (s : State) (pa : Nat) : Bool :=
  s.natAt pa 2 == 1200 && s.natAt (pa + 2) 2 == 1 && !s.anyMarked pa 24576 && bitsOf (s.natAt pa 8) 32 2 ≤ 1

/-! ### Leaving a core (R355) -/

/-- The endpoint takes the buffers of every accepted send, the banks it waits for woken (R54, R55, R355). -/
def Ctx.takeSends (c : Ctx) : Ctx :=
  let all (c : Ctx) : Ctx := (List.range 32).foldl Ctx.takeSend c
  let d := all c
  all ((List.range 48).foldl Ctx.padWoken { d with chans := d.chans.map (fun e => (e.1, { e.2 with stalled := false })) })

/-- Brings the running context to rest and writes its area: L1 written back and discarded, the sends'
buffers taken, the endpoint's landings complete, the area's bytes released (R355); its started entries are complete before: see
State.wholly (R22). Its place is memory afterwards. -/
def State.saveFocus (s : State) : State :=
  let s1 := (s.writeBack (fun _ _ => true)).setL1 []
  let c1 := (List.range 16).foldl Ctx.endArrivals s1.ctx.settleLate.takeSends
  let c2 := { c1 with savet := s.now }
  let s2 := { s1 with ctx := c2 }
  let s3 := s2.writeArea c2
  { s3 with ctx := { c2 with place := .memory } }

/-- Empties the slots of a core that hold a context; the other resident context, if any, does not start
by itself. -/
def State.vacate (s : State) (id : Nat) : State :=
  let drop (o : Option Nat) : Option Nat := if o = some id then none else o
  let cs := s.cores.map (fun e => (e.1, { e.2 with run := drop e.2.run, second := drop e.2.second }))
  { s with cores := cs.filter (fun e => e.2 != CoreSlot.zero) }

/-- Writes a context out to memory and frees its core. -/
def State.leaveCore (s : State) (id : Nat) : State :=
  (s.onCtx id State.saveFocus).vacate id

/-- L1 of a context is emptied, its dirty bytes written back, what its entries have under way written: another
context takes over the core (R22, R97, R131). -/
def State.cleanL1 (s : State) (id : Nat) : State :=
  s.onCtx id (fun s => { (s.writeBack (fun _ _ => true)).setL1 [] with ctx := ((s.writeBack (fun _ _ => true)).setL1 []).ctx.settleLate })

/-- Stops a running context: its L1 is given up, it keeps the core's second slot. A context there is written out
first, unless it is one of those that come in, which take their slot at once (R336). -/
def State.displace (incoming : List Nat) (s : State) (id : Nat) : State :=
  match s.findCtx id with
  | none => s
  | some c => match c.place with
    | .core p =>
      if (s.coreSlot p).run = some id then
        let s1 := match (s.coreSlot p).second with
          | some o => if incoming.contains o then s else s.leaveCore o
          | none => s
        let s2 := s1.cleanL1 id
        s2.setCore p { s2.coreSlot p with run := none, second := some id }
      else s
    | _ => s

end Sys2Proof.Machine
end

