-- ==== Sys2Proof/Machine/Queue.lean ====
section
/-! DEFINITION. Hardware work queues at their home: pop, push, close (R33, R178 to R181). -/

namespace Sys2Proof.Machine

/-- The agent of the running context (R120). -/
def State.me (s : State) : Who := .core s.ctx.core

/-- The scheduling deadline of a context: its task's; a context without a task comes first.
(DESIGN CHOICE, log 49) -/
def State.deadlineOf (s : State) (c : Ctx) : Nat := match c.task with
  | some t => match s.findTask t with
    | some k => k.sched
    | none => 0
  | none => 0

/-- A queue descriptor as it stands at its home (R178). -/
structure QDesc where
  pa : Nat
  base : Nat
  cap : Nat
  closed : Bool
  pushed : Nat
  popped : Nat
  deriving DecidableEq, Repr

/-- The descriptor at a physical address, none where it is malformed (R178). -/
def State.qdesc (s : State) (pa : Nat) : Option QDesc :=
  let w1 := s.natAt (pa + 8) 8
  let base := s.natAt pa 8
  let k := bitsOf w1 0 5
  let pushed := s.natAt (pa + 16) 8
  let popped := s.natAt (pa + 24) 8
  if 4 ≤ k ∧ k ≤ 20 ∧ base % 64 = 0 ∧ bitsOf w1 5 3 = 0 ∧ bitsOf w1 9 55 = 0 ∧ s.natAt (pa + 32) 32 = 0 ∧
      (pushed + 2 ^ 64 - popped) % 2 ^ 64 ≤ 2 ^ k then
    some { pa := pa, base := base, cap := 2 ^ k, closed := bitOf w1 8, pushed := pushed, popped := popped }
  else none

/-- Entries a queue holds. -/
def QDesc.count (q : QDesc) : Nat := (q.pushed + 2 ^ 64 - q.popped) % 2 ^ 64

/-- The outcome of a queue operation at its home. -/
inductive QRes where
  | trap (s : State) (c : Cause)
  | entry (s : State) (v : SReg)
  | empty (s : State) (pa : Nat)
  | ended (s : State)
  | pushed (s : State)
  | full (s : State) (pa : Nat)

/-- The wait of the running code at its program counter. -/
def State.waitHere? (s : State) : Option WaitSt := match s.bank.wait with
  | some w => if w.pc = s.ctx.pc then some w else none
  | none => none

/-- The kind of the running code's wait. -/
def State.waitKind (s : State) : Option Wait := (s.waitHere?).map WaitSt.kind

/-- Whether a context waits now on a queue, in its running code or parked, and has been given no entry yet (R33).
A context stopped during its wait does not wait: it pops again when it resumes (R22). (DEDUCED, log 65) -/
def State.popWaiter (s : State) (pa : Nat) (c : Ctx) : Bool :=
  (s.running c || (c.task.bind s.findTask).any (fun t => t.state == .parked)) &&
  (c.bank.wait).any (fun w => w.pc == c.pc && w.given == .nothing && (match w.kind with
    | .pop d _ _ => d.toNat == pa
    | _ => false))

/-- Whether one waiter comes before another (R33): by deadline, then by the start of its wait.
(DESIGN CHOICE, log 49) -/
def State.waiterBefore (s : State) (a b : Ctx) : Bool :=
  let at_ (c : Ctx) : Nat := c.bank.wait.elim 0 WaitSt.since
  decide (s.deadlineOf a < s.deadlineOf b) || (s.deadlineOf a == s.deadlineOf b &&
    (decide (at_ a < at_ b) || (at_ a == at_ b && decide (a.id < b.id))))

/-- Whether another context's wait on a queue comes before the running context's (R33); a context that does not
wait yet comes after every waiter. (DESIGN CHOICE, log 49) -/
def State.aheadOf (s : State) (pa : Nat) (c : Ctx) : Bool :=
  c.id != s.ctx.id && s.popWaiter pa c && (s.waitHere?.isNone || s.waiterBefore c s.ctx)

/-- Checks of a queue operation: alignment, translation, poison of the descriptor, form, scope (R178,
R96, R132). The issuer's own stores to the descriptor are performed first (R122, R130). -/
def State.queueCheck (s : State) (desc : Word) (sc : Nat) : Except (State × Cause) (State × QDesc) :=
  let va := desc.toNat
  if va % 64 ≠ 0 then .error (s, Cause.seq cALIGN 0 desc)
  else match s.checkData va 64 .rw with
    | .error e => .error e
    | .ok ps =>
      let pa := physOf ps va
      let s1 := s.flushBytes pa 64
      if s1.marked pa then .error (s, Cause.seq cUNCORR 0 desc)
      else match s1.qdesc pa with
        | none => .error (s, Cause.seq cDATA 0 desc)
        | some q => if !s1.scopeOk s.me sc pa then .error (s, Cause.seq cSCOPE 0 desc) else .ok (s1, q)

/-- Translates a ring slot. -/
def State.ringSlot (s : State) (q : QDesc) (k : Nat) : Except (State × Cause) Nat :=
  let va := q.base + 8 * (k % q.cap)
  match s.xlateRange va 8 .rw with
  | .error e => .error e
  | .ok ps => .ok (physOf ps va)

/-- An accepted queue operation sets the record of its descriptor's line (R132). -/
def State.queueTake (s : State) (sc pa : Nat) : State := s.scopeTakeN s.me sc pa 64

/-- The oldest entry of a queue leaves it for the running context, an agent of the module (R33, R180). -/
def State.takeEntry (s : State) (w : Who) (q : QDesc) (sc : Nat) : Except (State × Cause) (State × SReg) :=
  match s.ringSlot q q.popped with
  | .error e => .error e
  | .ok ra =>
    let s1 := s.flushBytes ra 8
    let v : SReg := { bits := BitVec.ofNat 64 (s1.natAt ra 8), pois := s1.marked ra }
    .ok ((s1.rawWrite (q.pa + 24) (bytesOfNat 8 ((q.popped + 1) % 2 ^ 64))).scopeTakeN w sc q.pa 64, v)

/-- The entry that was delivered to the running code's wait (R33). -/
def State.givenEntry (s : State) : Option SReg := match s.waitHere? with
  | some w => match w.given with
    | .entry v => some v
    | _ => none
  | none => none

/-- A pop at the home (R180): the entry delivered already, or the oldest where no waiter comes first, acquired at
its scope; nothing for this popper; or the end of a closed queue. A pop that begins to wait takes no effect on
the scope record (R132). -/
def State.popQueue (s : State) (desc : Word) (sc : Nat) : QRes :=
  match s.givenEntry with
  | some v => .entry (s.setBank { s.bank with wait := none }).acquireAll v
  | none => match s.queueCheck desc sc with
    | .error (s1, c) => .trap s1 c
    | .ok (s1, q) =>
      if q.count ≠ 0 ∧ s.ctxs.any (s.aheadOf q.pa) = false then
        match s1.takeEntry s1.me q sc with
        | .error (s2, c) => .trap s2 c
        | .ok (s2, v) => .entry s2.acquireAll v
      else if q.count = 0 ∧ q.closed = true then .ended (s1.queueTake sc q.pa)
      else .empty s1 q.pa

/-- A push at the home (R181): a release at its scope, then the entry; or a full queue; or a closed
one. -/
def State.pushQueue (s : State) (desc : Word) (sc : Nat) (v : Word) : QRes :=
  match s.queueCheck desc sc with
  | .error (s1, c) => .trap s1 c
  | .ok (s1, q) =>
    if q.closed then .ended (s1.queueTake sc q.pa)
    else if q.cap ≤ q.count then .full s1 q.pa
    else
      match s1.ringSlot q q.pushed with
      | .error (s2, c) => .trap s2 c
      | .ok ra =>
        let s2 := ((s1.releaseAll sc).flushBytes ra 8).rawWrite ra (bytesOfNat 8 v.toNat)
        .pushed ((s2.rawWrite (q.pa + 16) (bytesOfNat 8 ((q.pushed + 1) % 2 ^ 64))).queueTake sc q.pa)

end Sys2Proof.Machine
end

