-- ==== Sys2Proof/Machine/Ops.lean ====
section
/-! DEFINITION. Shared operations: taking a trap and returning from it, posted causes, a sequencer
instruction's sources, destinations, retirement and waits (R22, R34, R156, R299, R315, R316, R342 to
R352). -/

namespace Sys2Proof.Machine

/-! ### The scheduler's order and its heap (R331, R332, R334, R374) -/

/-- A field of a committed register. -/
def State.cfgField (s : State) (n lo w : Nat) : Nat := bitsOf (s.cfg n).toNat lo w

/-- Whether a device is paused (R385). -/
def State.vdPaused (s : State) (v : Nat) : Bool := bitOf (s.cfg (0x5C0 + v)).toNat 62

/-- Whether a device is enabled (R382). -/
def State.vdEnabled (s : State) (v : Nat) : Bool := bitOf (s.cfg (0x5C0 + v)).toNat 63

/-- The partition of a device (R382). -/
def State.vdPart (s : State) (v : Nat) : Nat := s.cfgField (0x5C0 + v) 56 4

/-- The enabled, unpaused devices of a partition in ascending number (R383). -/
def State.devicesOf (s : State) (p : Nat) : List Nat :=
  (List.range 64).filter (fun v => s.vdEnabled v && !s.vdPaused v && s.vdPart v == p)

/-- The slice of a partition. -/
def State.slice (s : State) (p : Nat) : Option SliceSt := Sparse.get (fun _ => none) s.slices p

/-- Whether a device is descheduled by a time slice: its partition's turn is another's (R32, R309, R383). -/
def State.descheduled (s : State) (v : Nat) : Bool :=
  let p := s.vdPart v
  decide (1 < (s.devicesOf p).length) && !(s.slice p).any (fun x => x.vdn == v && !x.ended)

/-- Adds to a counter of a device's bank what an agent off the cores has done for it: the bank stops while a time slice
has descheduled the device (R309). -/
def State.pmcAgent (s : State) (v i n : Nat) : State := if n = 0 ∨ s.descheduled v = true then s else s.pmcAdd v i n

/-- The partition whose cores run a task: 15 for a quarantined one (R334, R397). -/
def Task.runPart (t : Task) : Nat := if t.cls = 3 then 15 else t.part

/-- Whether a task holds a heap or overflow entry (R332). -/
def Task.queued (t : Task) : Bool := match t.state with
  | .held | .pending | .waiting | .ready => true
  | _ => false

/-- The order of R334: deadline, class, posting order. -/
def Task.before (a b : Task) : Bool :=
  decide (a.sched < b.sched) || (a.sched == b.sched && (decide (a.cls < b.cls) ||
    (a.cls == b.cls && decide (a.id < b.id))))

/-- Insertion into a list sorted by an order. -/
def insertBy {α : Type} (lt : α → α → Bool) (x : α) : List α → List α
  | [] => [x]
  | y :: ys => if lt x y then x :: y :: ys else y :: insertBy lt x ys

/-- A list sorted by an order. -/
def sortBy {α : Type} (lt : α → α → Bool) (l : List α) : List α := l.foldr (insertBy lt) []

/-- The tasks of a module with the heap of a partition settled: on each die the quota holds the queued tasks of
earliest deadline; of equal deadlines one that stands in the heap stays there, and a later Key leaves first (R332).
Tasks of a paused device keep the entries that the pause gave them (R385). (DEDUCED, log 62) -/
def State.settleTasks (s : State) (p : Nat) (ts : List Task) : List Task :=
  let mine (d : Nat) (t : Task) : Bool := t.runPart == p && t.die == d && t.queued && !s.vdPaused t.vdn
  let first (a b : Task) : Bool := decide (a.sched < b.sched) || (a.sched == b.sched &&
    ((!a.overflow && b.overflow) || (a.overflow == b.overflow && a.before b)))
  let heap (d : Nat) : List Nat := ((sortBy first (ts.filter (mine d))).take (s.cfgField (0x400 + p) 40 13)).map Task.id
  let keep := heap 0 ++ heap 1
  ts.map (fun t => if mine 0 t || mine 1 t then { t with overflow := !(keep.contains t.id) } else t)

/-- Settles the heap of a partition (R332). -/
def State.settleHeap (s : State) (p : Nat) : State := { s with tasks := s.settleTasks p s.tasks }

/-- A task becomes READY after a park or a pre-emption: it takes an entry again (R332, R333); of a paused device, one of
those kept for the pause (R374, R385). -/
def State.readyTask (s : State) (t : Task) : State :=
  (s.putTask { t with state := .ready, overflow := true, paused := s.vdPaused t.vdn }).settleHeap t.runPart

/-- Whether the overflow list has room for the entries that new tasks would make, beside the part kept for a pause, which
tasks that a pause wrote out fill
(R184, R374). -/
def State.overflowRoom (s : State) (new : List Task) (p : Nat) : Bool :=
  let ts := s.settleTasks p (s.tasks ++ new.mapIdx (fun i t => { t with id := s.postSeq + i, overflow := true }))
  let need := (ts.filter (fun t => t.runPart == p && t.queued && t.overflow && !t.paused)).length
  need == 0 ||
    decide (need + 2 * s.cfgField (0x400 + p) 40 13 ≤ 128 * s.cfgField (0x690 + p) 0 12)

/-- The steward context of a die that a report goes to: the one on its lowest core (R323). -/
def State.stewardOf (s : State) (d : Nat) : Option Ctx :=
  (sortBy (fun (a b : Ctx) => decide (a.core < b.core)) (s.allCtxs.filter (fun c =>
    c.level == .steward && c.resident && !c.held && !c.halted && dieOf c.core == d))).head?

/-! ### Taking a trap (R342 to R349) -/

/-- Whether a cause is routed to the steward handler by its code, or by a stage-two fault (R342, R346). -/
def Cause.toSteward (c : Cause) : Bool :=
  c.code == cLOCK || c.code == cUNCORR || c.code == cECALL || c.code == cWATCHDOG ||
  ((c.code == cFETCH || c.code == cDATA) && c.sub == 1#8)

/-- TCAUSE of a report (R307). (DEDUCED, log 28) -/
def Cause.word (c : Cause) (from_ : Nat) : Word :=
  packWord [(24, 2, from_), (21, 3, c.ch), (19, 1, b2n c.async), (16, 3, c.unit), (8, 8, c.sub.toNat),
    (0, 8, c.code.toNat)]

/-- A handler's register bank at entry: s62 from its scratch register (R349). -/
def handlerBank (scr : Word) : RegBank :=
  RegBank.entry.setS 62 { bits := scr, pois := false }

/-- Whether a PREEMPT is pending. -/
def Ctx.preemptPending (c : Ctx) : Bool := c.posted.any (fun p => p.code == cPREEMPT)

/-- Enters the tenant handler (R348). -/
def State.enterTenant (s : State) (c : Cause) (resume : Word) : State :=
  { s with ctx := { s.ctx with
      tepc := resume, tval := c.val, tcause := c.word 0, tbudget := s.ctx.pbud.toNat, sliceOld := s.ctx.preemptPending
      tbank := handlerBank s.ctx.tscr, thnd := true, pc := s.ctx.tvec } }

/-- Enters the steward handler (R348); FROM is the level of the interrupted code. (DEDUCED, log 15) -/
def State.enterSteward (s : State) (c : Cause) (resume : Word) : State :=
  { s with ctx := { s.ctx with
      sepc := resume, sval := c.val, scause := c.word (b2n s.ctx.atSteward)
      sbank := handlerBank s.ctx.sscr, shnd := true, pc := s.ctx.svec } }

/-- A fault while the steward handler is open: the context is stopped and held, and the steward is
reported failed (R346). (DEDUCED, log 27) -/
def State.stewardFails (s : State) (resume : Word) : State :=
  let d := dieOf s.ctx.core
  let s1 : State := { s with ctx := { s.ctx with held := true, pc := resume } }
  ((s1.saveFocus).vacate s.ctx.id).emit (.stewardFailed d)

/-- A task's state at a stop that leaves it to be placed again (R333). -/
def State.taskReady (s : State) (t : Option Nat) : State := match t with
  | none => s
  | some k => match s.findTask k with
    | some x => if x.state = .running ∨ x.state = .parked then s.readyTask x else s
    | none => s

/-- The other members of a crew stop with one of them; a member in a handler runs on until that ends (R19, R336).
(DEDUCED, log 42) -/
def State.stopCrew (s : State) (t : Option Nat) : State :=
  match t.bind s.findTask with
  | none => s
  | some k => k.members.foldl (fun (s : State) m =>
      if (s.findCtx m).all Ctx.inHandler then s else s.displace [] m) s

/-- The deschedule of a task counted: once, where a save finds it running or parked (R308). -/
def State.countStop (s : State) (c : Ctx) : State :=
  if (c.task.bind s.findTask).any (fun k => k.state == .running || k.state == .parked) then s.pmcAdd c.vdn.toNat 15 1
  else s

/-- The save at the end of a time slice: SLICED, the task READY, its deschedule counted; held, where a CTXSAVE waited
for it (R308, R318, R352). -/
def State.sliceSave (s : State) (resume : Word) : State :=
  let s1 : State := { s.countStop s.ctx with ctx := { s.ctx with sliced := true, pc := resume, held := s.ctx.held || s.ctx.saveReq } }
  ((s1.saveFocus).vacate s.ctx.id).taskReady s.ctx.task

/-- REG_ABSENT with no handler: the scheduler stops the task as a whole and places it again, on full cores only
(R19, R335, R346). -/
def State.absentSave (s : State) (resume : Word) : State :=
  let id := s.ctx.id
  let s1 : State := { s with ctx := { s.ctx with regabs := true, pc := resume } }
  let s2 := (((s1.saveFocus).vacate id).stopCrew s.ctx.task).taskReady s.ctx.task
  match s.ctx.task.bind s2.findTask with
  | some k => s2.putTask { k with regabs := true }
  | none => s2

/-- Takes a trap of the running code: the one operation every trap goes through (R346, R348). What the code it stops has under way is complete before: see State.wholly (R22, R348). An ECALL or BRK of the
open steward handler is no fault: it enters the handler again (R314, R342). (DEDUCED, log 27) -/
def State.takeTrap (s : State) (c : Cause) (resume : Word) : State :=
  if s.ctx.atSteward then
    if s.ctx.shnd && c.code != cECALL && c.code != cBRK then s.stewardFails resume else s.enterSteward c resume
  else if c.toSteward || s.ctx.thnd then s.enterSteward c resume
  else if s.ctx.tvec = 0#64 then
    if c.code = cPREEMPT then s.sliceSave resume
    else if c.code = cABSENT then s.absentSave resume
    else if c.code = cDEADLINE then s
    else s.enterSteward c resume
  else s.enterTenant c resume

/-- The wait of the running code ends. -/
def State.endWait (s : State) : State := s.setBank { s.bank with wait := none }

/-- A fault of the instruction at the program counter: it does not retire, its wait is over (R343). -/
def State.fault (s : State) (c : Cause) : State := s.endWait.takeTrap c s.ctx.pc

/-! ### Leaving a handler (R315, R316, R352) -/

/-- Whether the context is saved for its time slice when its tenant handler ends: the handler was PREEMPT's, or a
PREEMPT has come while it was open; one posted before opens a handler of its own (R352). -/
def Ctx.sliceDue (c : Ctx) : Bool := c.tcause &&& 255#64 == 0x12#64 || (c.preemptPending && !c.sliceOld)

/-- The tenant handler ends: spilled registers are filled, THND cleared, the code resumes at TEPC, or the context is
written out (R315, R352). -/
def State.leaveTenant (s : State) : State :=
  let slice := s.ctx.sliceDue
  let c := s.ctx.fillAll
  let s1 : State := { s with ctx := { c with
      thnd := false, tbudget := 0, tbank := RegBank.entry, pc := c.tepc
      posted := if slice then c.posted.filter (fun p => p.code != cPREEMPT) else c.posted } }
  if slice then s1.sliceSave c.tepc else s1

/-- The steward handler ends: registers spilled over base code are filled, SHND cleared, the code resumes
at SEPC, at the level in SCAUSE.FROM (R316). An open tenant handler goes on. (DEDUCED, log 27) -/
def State.leaveSteward (s : State) : State :=
  let c := if s.ctx.thnd then s.ctx else s.ctx.fillAll
  { s with ctx := { c with
      shnd := false, sbank := RegBank.entry, pc := c.sepc, risen := c.level == .tenant && c.scause.getLsbD 24 } }

/-! ### Posted causes and latches (R344, R345) -/

/-- Posts a cause to a context; a repeat while pending is merged (R345). -/
def Ctx.post (c : Ctx) (p : Posted) : Ctx :=
  if c.posted.any (fun q => q.code == p.code && (p.code != cCOPY || q.ch == p.ch)) then c
  else { c with posted := c.posted ++ [p] }

/-- Posts a cause to a context of the module. -/
def State.post (s : State) (id : Nat) (p : Posted) : State := s.mapCtx id (fun c => c.post p)

/-- A cause posted to the die's steward context, where it has one (R323). -/
def State.postSteward (s : State) (d : Nat) (p : Posted) : State := match s.stewardOf d with
  | some c => s.post c.id p
  | none => s

/-- The key by which posted causes are taken: code first, COPY_ERROR last, by channel (R345). -/
def Posted.rank (p : Posted) : Nat := if p.code = cCOPY then 256 + p.ch else p.code.toNat

/-- The posted cause to take next (R345). -/
def nextPosted (l : List Posted) : Option Posted :=
  l.foldl (fun best p => match best with
    | none => some p
    | some b => if p.rank < b.rank then some p else some b) none

/-- The first full engine latch, in the order L, X, V, S (R345). -/
def Ctx.firstLatch (c : Ctx) : Option (Nat × Latch) :=
  (List.range 4).findSome? (fun i => (c.latch i).map (fun l => (i, l)))

/-- Whether the running context has a cause to take at this boundary: base code only (R345). -/
def Ctx.hasCause (c : Ctx) : Bool := !c.inHandler && (c.firstLatch.isSome || !c.posted.isEmpty)

/-- Takes the next pending cause of base code; a wait at the boundary goes on later (R345). (DEDUCED, log 23)
(DEDUCED, log 28) -/
def State.takePending (s : State) : State :=
  if s.ctx.inHandler then s
  else match s.ctx.firstLatch with
    | some (i, l) =>
      let s1 : State := { s with ctx := s.ctx.setLatch i none }
      s1.takeTrap { code := l.code, sub := l.sub, unit := i + 1, ch := 0, async := false, val := l.addr } s.ctx.pc
    | none => match nextPosted s.ctx.posted with
      | none => s
      | some p =>
        let s1 : State := { s with ctx := { s.ctx with posted := s.ctx.posted.filter (fun q => q != p) } }
        let s2 := if p.code = cPROGRESS then s1.restartInterval else s1
        s2.takeTrap { code := p.code, sub := p.sub, unit := p.unit, ch := p.ch, async := true,
                      val := p.val } s.ctx.pc

/-- Latches an engine fault; with a full latch it is lost and the steward told (R344). -/
def State.latchFault (s : State) (e : Eng) (code sub : BitVec 8) (addr : Word) : State :=
  match s.ctx.latch e.num with
  | none => { s with ctx := s.ctx.setLatch e.num (some { code := code, sub := sub, addr := addr }) }
  | some _ => s.ctxEvent 0x06 addr.toNat code.toNat

/-! ### A sequencer instruction (R34, R156, R166) -/

/-- How the body of an instruction ends: it retires, retires with a jump, retires and then traps, faults
with no effect, or waits. -/
inductive SeqOut where
  | done (s : State)
  | jump (s : State) (pc : Word)
  | after (s : State) (c : Cause)
  | trap (s : State) (c : Cause)
  | wait (s : State) (k : Wait) (checked : Bool)

/-- Of what a wait has been given, what outlives it: an entry (R33, R180). -/
def Given.entryOnly (g : Given) : Given := match g with
  | .entry v => .entry v
  | _ => .nothing

/-- What a wait of a kind keeps of what it has been given when it goes on waiting: a pop that was let go on waits as
before. -/
def Wait.keeps (k : Wait) (g : Given) : Given := match k with
  | .pop _ _ _ => g.entryOnly
  | _ => g

/-- Records the wait of the instruction at the program counter; the same wait in progress keeps its start, its
check, its coverage and what it has been given (R22, R103, R201); an entry delivered to the instruction stays with it
in whatever it waits for next (R33, R180). -/
def State.waitAt (s : State) (k : Wait) (checked : Bool) : State :=
  let fresh : WaitSt := { pc := s.ctx.pc, kind := k, since := s.now, checked := checked, cover := [], given := .nothing }
  let w : WaitSt := match s.waitHere? with
    | some w =>
      if w.kind = k ∨ w.kind = .restored then
        { w with kind := k, checked := w.checked || checked, given := k.keeps w.given }
      else { fresh with given := w.given.entryOnly }
    | none => fresh
  s.setBank { s.bank with wait := some w }

/-- A wait of a kind at the program counter that holds what it has been given. -/
def State.hold (s : State) (k : Wait) (g : Given) : State :=
  let s1 := s.waitAt k false
  s1.setBank { s1.bank with wait := s1.bank.wait.map (fun w => { w with given := g }) }

/-- The same wait with the ranges its acquire covers (R127). -/
def State.holdCover (s : State) (k : Wait) (cover : List (Word × Word)) : State :=
  let s1 := s.waitAt k false
  s1.setBank { s1.bank with wait := s1.bank.wait.map (fun w => { w with cover := cover }) }

/-- What the running code's wait of a kind has been given. -/
def State.given (s : State) (k : Wait) : Given := match s.waitHere? with
  | some w => if w.kind = k then w.given else .nothing
  | none => .nothing

/-- Pops the bound registers among an instruction's source fields that hold no entry yet (R34, R156). -/
def popSources (srcs : List Reg) (s : State) : SeqOut :=
  match srcs with
  | [] => .done s
  | r :: rs =>
    match s.ctx.boundSlot r with
    | none => popSources rs s
    | some n =>
      let b := s.ctx.qbind n
      if b.held.isSome then popSources rs s
      else match s.popQueue (b.desc.getD 0#64) b.scope.toNat with
        | .entry s1 v =>
          popSources rs ((s1.setCtx (s1.ctx.setQbind n { b with held := some v })).progressEvent)
        | .ended s1 =>
          popSources rs (({ s1 with ctx := { s1.ctx.setQbind n { b with held := some SReg.zero } with
            qterm := s1.ctx.qterm ||| BitVec.ofNat 4 (2 ^ n) } } : State).progressEvent)
        | .empty s1 pa => .wait s1 (.pop (BitVec.ofNat 64 pa) (some n) b.scope) false
        | .trap s1 c => .trap s1 c
        | .pushed s1 => .done s1
        | .full s1 _ => .done s1

/-- Pushes the values written to bound destination registers (R34, R155, R182). -/
def pushDests (dsts : List Reg) (s : State) : SeqOut :=
  match dsts with
  | [] => .done s
  | r :: rs =>
    match s.ctx.boundSlot r with
    | none => pushDests rs s
    | some n =>
      let b := s.ctx.qbind n
      let v := s.bank.getS r.toNat
      let s0 := s.setBank (s.bank.setS r.toNat SReg.zero)
      if v.pois then .trap s0 (Cause.poison 4)
      else match s0.pushQueue (b.desc.getD 0#64) b.scope.toNat v.bits with
        | .pushed s1 => pushDests rs s1
        | .ended s1 => pushDests rs { s1 with ctx := { s1.ctx with qterm := s1.ctx.qterm ||| BitVec.ofNat 4 (2 ^ n) } }
        | .full s1 pa => .wait s1 (.push (BitVec.ofNat 64 pa)) false
        | .trap s1 c => .trap s1 c
        | .entry s1 _ => .done s1
        | .empty s1 _ => .done s1

/-- The held entries of an instruction's sources are used up when it retires (R156). -/
def clearHeld (srcs : List Reg) (c : Ctx) : Ctx :=
  srcs.foldl (fun d r => match d.boundSlot r with
    | some n => d.setQbind n { d.qbind n with held := none }
    | none => d) c

/-- Retires an instruction: held entries used, wait over, the program counter moved, PMC1 counted (R156,
R308). -/
def State.retire (s : State) (srcs : List Reg) (pc : Word) : State :=
  let s1 := s.setCtx (clearHeld srcs s.ctx)
  ((s1.endWait).setPc pc).pmcAdd s.ctx.vdn.toNat 1 1

/-- A fault of an instruction to which an entry has been delivered: it keeps the entry for its next execution (R33,
R180). -/
def State.faultKept (s : State) (c : Cause) : State := match s.givenEntry with
  | some _ => s.takeTrap c s.ctx.pc
  | none => s.fault c

/-- Finishes an instruction whose body ended without a trap: its pushes, then its retirement. A push that
waits or traps undoes the body; the entries popped before stay held (R155, R156), as does one delivered to a QPOP
(R180). -/
def finish (srcs dsts : List Reg) (s1 s2 : State) (pc : Word) (after : Option Cause) : State :=
  match pushDests dsts s2 with
  | .done s3 =>
    match after with
    | none => s3.retire srcs pc
    | some c => (s3.retire srcs pc).takeTrap c pc
  | .trap _ c => s1.faultKept c
  | .wait _ k ch => s1.waitAt k ch
  | .jump s3 _ => s3
  | .after s3 _ => s3

/-- Whether a queued V entry has yet to write a scalar register (R247). -/
def RegBank.pends (b : RegBank) (r : Reg) : Bool := r != 0#6 && b.qV.any (fun e => e.sPend && e.idst == r)

/-- A sequencer instruction: the stall on a pending scalar, pops of bound sources, the body, pushes of
bound destinations, retirement; or a fault; or a wait at the instruction (R22, R34, R156, R247). -/
def seqRun (srcs dsts : List Reg) (body : State → SeqOut) (s : State) : State :=
  if (srcs ++ dsts).any s.bank.pends then s.waitAt .source false
  else match popSources srcs s with
  | .trap s1 c => s1.fault c
  | .wait s1 k ch => s1.waitAt k ch
  | .jump s1 _ => s1
  | .after s1 _ => s1
  | .done s1 =>
    match body s1 with
    | .trap s2 c => s2.fault c
    | .wait s2 k ch => s2.waitAt k ch
    | .done s2 => finish srcs dsts s1 s2 (s1.ctx.pc + 8#64) none
    | .jump s2 pc => finish srcs dsts s1 s2 pc none
    | .after s2 c => finish srcs dsts s1 s2 (s1.ctx.pc + 8#64) (some c)

/-- A sequencer instruction as a step. -/
def seqInstr (srcs dsts : List Reg) (body : State → SeqOut) (s : State) : Host.Outcome State Fault Refusal :=
  .next (seqRun srcs dsts body s)

/-- Consumes a source: POISON_CONSUMED with its operand number where it is poisoned, else the body goes
on (R52, R166, R347). -/
def consume (s : State) (r : Reg) (operand : Nat) (k : Word → SeqOut) : SeqOut :=
  let v := s.rd r
  if v.pois then .trap s (Cause.poison operand) else k v.bits

/-! ### Levels (R35, R36, R324) -/

/-- Sets a queue's level; a change raises LEVEL_CHANGE on the queue's home die, for its device (R36, R311,
R312). -/
def State.setLevel (s : State) (die p q lvl : Nat) : State :=
  let old := s.qlevel p q
  if old.level = lvl then s
  else (s.setQlevel p q { old with level := lvl }).event die 0x01 p
    (Sparse.get (fun _ => QCfg.zero) s.qcfgs (p * 64 + q)).vd (p * 256 + q) (old.level + 256 * lvl)

end Sys2Proof.Machine
end

