-- ==== Sys2Proof/Machine/Versions.lean ====
section
/-! DEFINITION. Versioned regions at their homes: creations, loads, floors, builds, discarding (R98 to
R118, R374). A reclaimable version's storage is freed as soon as it is reclaimable. -/

namespace Sys2Proof.Machine

/-! ### Regions -/

/-- A sector of a region. -/
def Region.sec (r : Region) (i : Nat) : Sector := Sparse.get (fun _ => Sector.zero) r.secs i

/-- Replaces a sector. -/
def Region.setSec (r : Region) (i : Nat) (x : Sector) : Region :=
  { r with secs := Sparse.set (fun _ => Sector.zero) r.secs i x }

/-- Replaces the region of the same partition and base. -/
def State.putRegion (s : State) (r : Region) : State :=
  { s with regions := s.regions.map (fun q => if q.part = r.part ∧ q.base = r.base then r else q) }

/-- Whether a version of a sector is reclaimable under a floor, by a newer one that exists wherever it does (R111,
R117). (DESIGN CHOICE, log 26) -/
def reclaimable (floor : Nat) (vers : List Ver) (v : Ver) : Bool :=
  v.exist && decide (v.num < floor) && vers.any (fun u => u.exist && decide (v.num < u.num) && decide (u.num ≤ floor) &&
    (u.only.isNone || u.only == v.only))

/-- Frees what is reclaimable in a sector. (DESIGN CHOICE, log 26) -/
def Sector.purge (floor : Nat) (x : Sector) : Sector :=
  { x with vers := x.vers.filter (fun v => !reclaimable floor x.vers v) }

/-- Frees what is reclaimable in a region (R111). (DESIGN CHOICE, log 26) -/
def Region.purge (r : Region) : Region :=
  let m := r.secs.map (fun e => (e.1, e.2.purge r.floor))
  { r with secs := m.filter (fun e => e.2 != Sector.zero) }

/-- Raises a region's floor (R110). -/
def Region.raise (r : Region) (x : Nat) : Region := ({ r with floor := max r.floor x } : Region).purge

/-- Inserts or replaces a version, by rising number. -/
def putVer (v : Ver) : List Ver → List Ver
  | [] => [v]
  | u :: us => if v.num < u.num then v :: u :: us else if v.num = u.num then v :: us else u :: putVer v us

/-- Bytes of the version heap a region takes: its header, the directory entries of busy sectors, the slots
of further live versions (R119, R374). -/
def Region.heapBytes (r : Region) : Nat :=
  4096 + (r.secs.map (fun e => 64 + 256 * (e.2.vers.length - 1))).sum

/-- Bytes of a partition's version heap in use: its regions', and the scope records of its devices at rest (R374,
R385). (DESIGN CHOICE, log 84) -/
def State.heapUsed (s : State) (part : Nat) : Nat :=
  ((s.regions.filter (fun r => r.part == part)).map Region.heapBytes).sum +
  ((s.atRest.filter (fun v => s.vdPart v == part)).map (fun v => Config.restHeap v s.scopes.length)).sum

/-- Bytes of a partition's version heap (R374). -/
def State.heapSize (s : State) (part : Nat) : Nat := 65536 * ((s.cfg (0x680 + part)).toNat % 65536)

/-- Whether a creation in a sector finds room: below 8 live versions, and a directory entry or slot free
in the heap (R103). -/
def State.versionRoom (s : State) (r : Region) (i : Nat) : Bool :=
  let x := r.sec i
  decide (x.vers.length < 8) &&
  decide (s.heapUsed r.part + (if x = Sector.zero then 64 else if x.vers.isEmpty then 0 else 256) ≤ s.heapSize r.part)

/-- The outcome of the checks of a creation (R103). -/
inductive Create where
  | exhausted
  | missing
  | duplicate
  | full
  | ok
  deriving DecidableEq, Repr

/-- The checks of a creation, in their order (R103). -/
def State.createCheck (s : State) (r : Region) (i v : Nat) : Create :=
  if v = 0xFFFFFFFF then .exhausted
  else if v < r.floor then .missing
  else if (r.sec i).vers.any (fun u => u.num == v) then .duplicate
  else if !s.versionRoom r i then .full
  else .ok

/-- The trap of a failed creation check; none where it does not fail. -/
def Create.code : Create → Option (BitVec 8)
  | .exhausted => some cEXHAUSTED
  | .missing => some cMISSING
  | .duplicate => some cDUPLICATE
  | _ => none

/-- Reserves a version (R103). -/
def Region.reserve (r : Region) (i v sc : Nat) (w : Who) : Region :=
  let x := r.sec i
  r.setSec i { x with vers := putVer (Ver.mk v false 0#2048 0#4 sc w none) x.vers }

/-- Removes a reservation: the version is absent again (R104). -/
def Region.unreserve (r : Region) (i v : Nat) : Region :=
  let x := r.sec i
  r.setSec i { x with vers := x.vers.filter (fun u => u.exist || u.num != v) }

/-- Makes a version existing, raises the floor under RETAIN, frees what that reclaims (R104, R110). -/
def Region.exist (r : Region) (i : Nat) (v : Ver) : Region :=
  let x := r.sec i
  let r1 := r.setSec i { x with vers := putVer { v with exist := true } x.vers }
  r1.raise (if r.retain = 0 then 0 else v.num + 1 - r.retain)

/-- Makes a version of a MIRROR region exist at one die's home first (R117). -/
def Region.existAt (r : Region) (i : Nat) (v : Ver) (die : Nat) : Region :=
  let x := r.sec i
  r.setSec i { x with vers := putVer { v with exist := true, only := some die } x.vers }

/-- The version of a number that exists at one die's home only (R117). -/
def Region.halfDone (r : Region) (i v : Nat) : Option Ver :=
  (r.sec i).vers.find? (fun u => u.num == v && u.exist && u.only.isSome)

/-- The scope recorded with a version: a MIRROR region's are created at SYSTEM (R115). (DESIGN CHOICE, log 19) -/
def Region.verScope (r : Region) (sc : Nat) : Nat := if r.mirror then 4 else sc

/-- The sector index of an address in a region. -/
def Region.index (r : Region) (va : Nat) : Nat := (va - r.base.toNat) / 256

/-! ### Loads (R107, R114) -/

/-- What a load finds. -/
inductive Found where
  | ver (v : Ver)
  | wait
  | missing
  deriving DecidableEq, Repr

/-- The newest existing version that a predicate admits. -/
def newest (vers : List Ver) (p : Ver → Bool) : Option Ver :=
  vers.foldl (fun best v => if v.exist && p v then some v else best) none

/-- Whether a version exists at a die's home (R117). -/
def Ver.seen (die : Nat) (u : Ver) : Bool := u.only.all (fun d => d == die)

/-- The version a load from a die reads, by mode 0 EQ, 1 LE, 2 NEW (R107, R117). -/
def Region.find (r : Region) (die i mode v : Nat) : Found :=
  let vs := (r.sec i).vers
  match newest vs (fun u => u.seen die &&
      (if mode = 0 then u.num == v else if mode = 1 then decide (u.num ≤ v) else true)) with
  | some u => .ver u
  | none => if mode ≠ 2 ∧ v < r.floor then .missing else .wait

/-- The scope check of a version load: each party lies in the other's instance (R114). -/
def versionScopeOk (me : Who) (sc : Nat) (v : Ver) : Bool :=
  inInst me (instOf v.who v.scope) && inInst v.who (instOf me sc)

/-- Records a waiting load at its sector, up to 16 (R109); true where it is recorded. -/
def Region.addWaiter (r : Region) (i id : Nat) : Region × Bool :=
  let x := r.sec i
  if x.waiters.contains id then (r, true)
  else if x.waiters.length < 16 then (r.setSec i { x with waiters := x.waiters ++ [id] }, true)
  else (r, false)

/-- Forgets a waiting load. -/
def Region.dropWaiter (r : Region) (i id : Nat) : Region :=
  let x := r.sec i
  r.setSec i { x with waiters := x.waiters.filter (fun w => w != id) }

/-- A context waits no longer at any sector. -/
def State.dropWaits (s : State) (id : Nat) : State :=
  let clean (x : Sector) : Sector := { x with waiters := x.waiters.filter (fun w => w != id) }
  { s with regions := s.regions.map (fun r => { r with
      secs := (r.secs.map (fun e => (e.1, clean e.2))).filter (fun e => e.2 != Sector.zero) }) }

/-! ### Readiness (R16, R118) -/

/-- Whether an input-version pair is satisfied at a die's homes (R16). -/
def State.pairOk (s : State) (part die : Nat) (p : Pair) : Bool :=
  match s.regionAt part p.base.toNat with
  | none => false
  | some r => (List.range p.count).all (fun k => match r.find die (p.first + k) p.mode p.version with
    | .ver _ => true
    | _ => false)

/-- Whether a pair can never be satisfied (R118). -/
def State.pairDead (s : State) (part die : Nat) (p : Pair) : Bool :=
  match s.regionAt part p.base.toNat with
  | none => false
  | some r => p.mode != 2 && (List.range p.count).any (fun k => r.find die (p.first + k) p.mode p.version == .missing)

/-- Re-examines a released task's pairs (R16, R118, R333). -/
def State.examine (s : State) (t : Task) : State :=
  if t.pairs.all (fun p => s.pairOk t.part t.die p) then s.putTask { t with state := .ready }
  else
    let dead := t.pairs.findIdx? (fun p => s.pairDead t.part t.die p)
    match dead with
    | some i => if t.deadTold then s.putTask { t with state := .waiting }
      else (s.putTask { t with state := .waiting, deadTold := true }).event t.die 0x02 t.part t.vdn t.record.toNat i
    | none => s.putTask { t with state := .waiting }

/-- Re-examines the WAITING tasks of a partition after a creation or floor change (R333). -/
def State.examineAll (s : State) (p : Nat) : State :=
  (s.tasks.filter (fun t => t.part == p && t.state == .waiting)).foldl (fun s t => s.examine t) s

/-! ### What waiting loads are given (R107, R109) -/

/-- The sector a version wait stands at: its region and its index there. -/
def State.versionPlace (s : State) (c : Ctx) (w : WaitSt) : Option (Region × Nat) := match w.kind with
  | .version va _ _ => (s.attached c va.toNat).map (fun r => (r, r.index va.toNat))
  | _ => none

/-- What a version wait of a context finds at its sector now (R107, R117). -/
def State.versionFinds (s : State) (c : Ctx) (w : WaitSt) : Found := match w.kind, s.versionPlace c w with
  | .version _ mode v, some (r, i) => r.find (dieOf c.core) i mode v
  | _, _ => .wait

/-- The first recorded waiter of a sector, in the order recorded, for which its mode finds something (R107, R109). -/
def State.nextLoad (s : State) (r : Region) (i : Nat) : Option (Ctx × WaitSt × Found) :=
  (r.sec i).waiters.findSome? (fun id => match s.findCtx id with
    | none => none
    | some c => match c.bank.wait with
      | none => none
      | some w =>
        if w.given = .nothing ∧ (s.versionPlace c w).any (fun x => x.1.base == r.base && x.2 == i) = true then
          (match s.versionFinds c w with
            | .wait => none
            | f => some (c, w, f))
        else none)

/-- Gives the recorded waiters of a sector what R107 finds for them, in the order recorded; each leaves the record
(R109). -/
def State.giveLoads (part : Nat) (base : Word) (i : Nat) : Nat → State → State
  | 0, s => s
  | n + 1, s => match s.regionAt part base.toNat with
    | none => s
    | some r => match s.nextLoad r i with
      | none => s
      | some (c, w, f) =>
        let g : Given := match f with
          | .ver u => .line u
          | _ => .missing
        State.giveLoads part base i n
          ((s.putRegion (r.dropWaiter i c.id)).putCtx (c.setBank { c.bank with wait := some { w with given := g } }))

/-- What a creation in a sector brings at once: its recorded waiters are given what R107 finds for them, and the
partition's WAITING tasks are examined again, before any later creation (R107, R109, R333). -/
def State.created (s : State) (r : Region) (i : Nat) : State :=
  (match s.regionAt r.part r.base.toNat with
  | some q => State.giveLoads r.part r.base i (q.sec i).waiters.length s
  | none => s).examineAll r.part

/-! ### Builds (R104) -/

/-- Merges 8 bytes into a build: bit s of the poison is 64-byte sector s. -/
def Build.merge (b : Build) (off : Nat) (v : Word) (pois : Bool) : Build :=
  let k := off / 8
  let m : BitVec 2048 := BitVec.ofNat 2048 ((2 ^ 64 - 1) * 2 ^ (64 * k))
  { b with data := (b.data &&& ~~~m) ||| (v.setWidth 2048 <<< (64 * k))
           words := b.words ||| BitVec.ofNat 32 (2 ^ k)
           pois := if pois then b.pois ||| BitVec.ofNat 4 (2 ^ (off / 64)) else b.pois }

/-- The scope at which a creation in the region of an address releases: SYSTEM in a MIRROR region, whose versions
are created at SYSTEM (R113, R115). -/
def State.createScope (s : State) (va sc : Nat) : Nat := ((s.attached s.ctx va).map (fun r => r.verScope sc)).getD sc

/-- Makes a build existing at a scope: a release of all memory, and its version, which is a progress event (R32,
R104, R210). (DEDUCED, log 33) -/
def State.finishBuild (s : State) (b : Build) (sc : Nat) : State :=
  let s1 := s.releaseAll (s.createScope b.sector.toNat sc)
  let s2 : State := { s1 with ctx := { s1.ctx with
    builds := s1.ctx.builds.filter (fun x => !(x.sector == b.sector && x.version == b.version)) } }
  match s2.attached s2.ctx b.sector.toNat with
  | none => s2
  | some r =>
    ((s2.putRegion (r.exist (r.index b.sector.toNat)
      { num := b.version.toNat, exist := true, data := b.data, marks := b.pois, scope := r.verScope sc, who := s.me
        only := none })).created r (r.index b.sector.toNat)).progressEvent

/-- Makes every open build in a set existing, the oldest first. (DEDUCED, log 25) -/
def State.finishBuilds (s : State) (p : Build → Bool) (sc : Nat) : State :=
  (s.ctx.builds.filter p).foldl (fun s b => s.finishBuild b sc) s

/-! ### Detaching (R99) -/

/-- Writes a version's bytes and marks to ordinary memory. -/
def State.spillVer (s : State) (pa : Nat) (v : Ver) : State :=
  (List.range 4).foldl (fun s k =>
    s.homeWrite (pa + 64 * k) (bytesOfNat 64 (v.data.toNat / 2 ^ (512 * k))) (v.marks.getLsbD k)) s

/-- The mirror copy of a page's address: the same in the HBM of the other die (R362). -/
def mirrorPa (pa : Nat) : Nat := if pa / 2 ^ 38 % 2 = 0 then pa + 2 ^ 38 else pa - 2 ^ 38

/-- The copies of a region's memory at an address: one, or one in each die's HBM (R117). -/
def Region.copies (r : Region) (pa : Nat) : List Nat := if r.mirror && isHbm pa then [pa, mirrorPa pa] else [pa]

/-- A channel's publication into a region whose state is discarded: its remaining sectors lie outside any region, and its
walk is over with code 5 (R99, R277). -/
def Chan.loseRegion (r : Region) (k : Chan) : Chan :=
  let mine (x : Word × Nat) : Bool := decide (r.base.toNat ≤ x.1.toNat) && decide (x.1.toNat < r.base.toNat + 256 * r.sectors)
  match k.resv.find? mine with
  | none => k
  | some x => { k with code := some 5, badoff := x.1.toNat, resv := k.resv.filter (fun y => !mine y)
                       phase := match k.phase with
                         | .version _ _ => .walk
                         | q => q }

/-- What is under way into a region whose state is discarded: publications of its partition's contexts, held network
landings (R99, R277, R403). -/
def State.loseRegion (s : State) (r : Region) : State :=
  let lose (c : Ctx) : Ctx := if c.part.toNat = r.part then { c with chans := c.chans.map (fun e => (e.1, e.2.loseRegion r)) } else c
  let hit (x : NetHold) : Bool :=
    let cn := Sparse.get (fun _ => Conn.closed) s.conns (x.handle.toNat % 2 ^ 15)
    s.cfgField (0x5C0 + cn.vdn) 56 4 == r.part && cn.base == r.base && decide (0 < x.got)
  { s with ctx := lose s.ctx, ctxs := s.ctxs.map lose
           netHolds := s.netHolds.map (fun x => if hit x then { x with lost := true } else x) }

/-- Discards a region's state: each sector becomes ordinary memory with its newest version, or zero, in each of
its copies (R99, R117); what is still under way into it finds no region. A sector whose page no longer translates with W
is left as it is. (DESIGN CHOICE, log 52) -/
def State.discardRegion (s : State) (vdn : Nat) (r : Region) : State :=
  let s1 := (List.range r.sectors).foldl (fun s i =>
    match s.walk vdn r.part (r.base.toNat + 256 * i) .w with
    | .error _ => s
    | .ok o => (r.copies o.pa).foldl (fun s pa => match newest (r.sec i).vers (fun _ => true) with
      | some v => s.spillVer pa v
      | none => s.zeroRange pa 256) s) s
  ({ s1 with regions := s1.regions.filter (fun q => !(q.part == r.part && q.base == r.base)) } : State).loseRegion r

/-- A context lets go of a region: the last one discards its state (R99). -/
def State.detach (s : State) (id vdn : Nat) (r : Region) : State :=
  let r1 := { r with atts := r.atts.erase id }
  if r1.atts.isEmpty then s.discardRegion vdn r1 else s.putRegion r1

/-- The running context ends: its builds exist, its regions are detached (R99, R104). (DEDUCED, log 25) -/
def State.detachAll (s : State) : State :=
  let s1 := s.finishBuilds (fun _ => true) 3
  let id := s1.ctx.id
  let v := s1.ctx.vdn.toNat
  let mine := s1.regions.filter (fun r => r.atts.contains id)
  let s2 := mine.foldl (fun s r => match s.regionAt r.part r.base.toNat with
    | some q => s.detach id v { q with atts := q.atts.filter (fun a => a != id) ++ [id] }
    | none => s) s1
  { s2 with ctx := { s2.ctx with rslots := [] } }

end Sys2Proof.Machine
end

