-- ==== Sys2Proof/Machine/Record.lean ====
section
/-! DEFINITION. Transfer records as they end, and channels as they stop: STATUS, counters, the next chain
element, CSTOP (R272, R273, R276, R280 to R282). A host copy channel of a die runs on a context of its own
that is none of the module's (R393). -/

namespace Sys2Proof.Machine

/-! ### The agent that runs a channel -/

/-- The identity under which host copy channel n of a die runs (R393): beyond every save area's address. -/
def hostAgent (die n : Nat) : Nat := 2 ^ 64 + 4 * die + n

/-- Whether a context stands for a host copy channel. -/
def Ctx.isHost (c : Ctx) : Bool := decide (2 ^ 64 ≤ c.id)

/-- The device of a context's copies: that of its base code. -/
def Ctx.ownDevice (c : Ctx) : Nat := if c.level = .steward then 0 else c.vdn.toNat

/-- The partition of a context's copies. -/
def Ctx.ownPart (c : Ctx) : Nat := if c.level = .steward then 0 else c.part.toNat

/-- The copy engine as an agent (R120, R131). -/
def State.copier (s : State) : Who :=
  if s.ctx.isHost then .die ((s.ctx.id - 2 ^ 64) / 4) else .core s.ctx.core

/-- The die on which a context's copies run. -/
def Ctx.copyDie (c : Ctx) : Nat := if c.isHost then (c.id - 2 ^ 64) / 4 else dieOf c.core

/-- Translates an access of the copy engine (R366). -/
def State.copyX (s : State) (va n : Nat) (need : Need) : Except (Nat × XFail) (List (Nat × XOk)) :=
  let d := s.ctx.ownDevice
  let p := s.ctx.ownPart
  xlatePages (fun v => if s.ctx.isHost then s.walk d p v need else s.xlateAt s.ctx.core d p v need) (pagesOf va n)

/-- What a failed translation of an agent off the sequencer sends to the steward: 5 the copy engine, 6 the Ethernet
endpoint, 7 the scheduler (R312, R360, R366). A poisoned table line that no context's copy engine meets is reported
to the die's steward context (R96). (DEDUCED, log 67) -/
def State.agentFails (s : State) (die part vd agent va : Nat) (f : XFail) : State :=
  let s1 := s.xEvent die part vd f
  let s2 := if f.isStage2 then s1.event die 0x0B part vd va agent else s1
  match f with
  | .uncorrectable a i => if agent = 5 then s2 else s2.postSteward die
      { code := cUNCORR, sub := BitVec.ofNat 8 (b2n i), val := BitVec.ofNat 64 a, unit := 0, ch := 0 }
  | _ => s2

/-- The same of the copy engine; a poisoned table line posts MEM_UNCORRECTABLE with the channel, a host channel's to
the steward (R96, R357). -/
def State.copyFails (s : State) (n va : Nat) (f : XFail) : State :=
  let s1 := s.agentFails s.ctx.copyDie s.ctx.ownPart s.ctx.ownDevice 5 va f
  match f with
  | .uncorrectable a i =>
    let p : Posted := { code := cUNCORR, sub := BitVec.ofNat 8 (b2n i), val := BitVec.ofNat 64 a, unit := 5, ch := n }
    if s.ctx.isHost then s1.postSteward s.ctx.copyDie p else s1.setCtx (s1.ctx.post p)
  | _ => s1

/-! ### Reading and writing (R134, R276) -/

/-- The poison of a 64-byte sector as the copy engine reads it: of a dirty byte of it in the kicking core's L1, or the
home's mark where such bytes do not make up the whole sector (R53, R96, R134). -/
def State.copyPoison (s : State) (pa : Nat) : Bool :=
  if s.ctx.l1.isEmpty then s.marked pa
  else
    let ds := (List.range 64).filterMap (fun i => (s.l1At (pa / 64 * 64 + i)).filter L1Byte.dirty)
    ds.any L1Byte.pois || (ds.length != 64 && s.marked pa)

/-- A byte of global memory as the copy engine reads it: a dirty byte of the kicking core's L1, else the home's, with
its sector's poison (R96, R134, R276). -/
def State.copyByte (s : State) (pa : Nat) : Byte × Bool :=
  match s.l1At pa with
  | some b => (if b.dirty then b.val else s.byteAt pa, s.copyPoison pa)
  | none => (s.byteAt pa, s.copyPoison pa)

/-- The bytes of a translated range as the copy engine reads them. -/
def State.copyBytes (s : State) (ps : List (Nat × XOk)) (va n : Nat) : List (Byte × Bool) :=
  (List.range n).map (fun i => s.copyByte (physOf ps (va + i)))

/-- L1 of the kicking core gives way to a burst: it writes back its dirty bytes of the lines that the burst does not
overwrite, and discards the rest of its copy (R276). -/
def State.giveWay (s : State) (ws : List Put) : State :=
  if s.ctx.l1.isEmpty then s
  else
    let s1 := s.setL1 (s.ctx.l1.filter (fun e => !(ws.any (fun w => w.1 == e.1))))
    ((ws.map (fun w => w.1 / 256)).dedup).foldl State.evictLine s1

/-- Writes of one burst at their homes: bytes in order; each 64-byte sector is marked where a poisoned byte
reaches it, cleared where the burst writes it whole and clean (R53, R96, R276). -/
def State.putMem (s : State) (ws : List Put) : State :=
  let s1 := s.giveWay ws
  let s2 := ws.foldl (fun (s : State) w => (s.rawWrite w.1 [w.2.1]).clearScopes w.1 1) s1
  ((ws.map (fun w => w.1 / 64)).dedup).foldl (fun (s : State) sec =>
    let mine := ws.filter (fun w => w.1 / 64 == sec)
    if mine.any (fun w => w.2.2) then s.setMark sec true
    else if ((mine.map Prod.fst).dedup).length = 64 then s.setMark sec false else s) s2

/-- Writes bytes of a record of channel n at a virtual address; where it does not translate nothing is written, and
the failure is reported (R360, R366). -/
def State.copyStore (s : State) (n va : Nat) (bs : List Byte) : State :=
  match s.copyX va bs.length .w with
  | .error (v, f) => s.copyFails n v f
  | .ok ps => s.putMem (bs.mapIdx (fun i b => (physOf ps (va + i), b, false)))

/-! ### The end of a record (R273, R276, R280) -/

/-- How a record ends. -/
structure RecEnd where
  code : Nat
  bytes : Nat
  badcnt : Nat
  badoff : Nat
  busy : Nat
  deriving DecidableEq, Repr

/-- An end with nothing moved. -/
def RecEnd.of (code : Nat) : RecEnd :=
  { code := code, bytes := 0, badcnt := 0, badoff := 2 ^ 64 - 1, busy := 0 }

/-- Why a record's counter is not signalled: the code, and the failed translation with its address (R280). -/
structure CounterFail where
  code : Nat
  fail : Option (Nat × XFail)

/-- The outcome of a record's counter: no counter, its physical address, or a code 12 or 16 (R132, R280). A
record error in SCOPE is signalled without a scope check. -/
def State.recCounter (s : State) (h : Nat) : Except CounterFail (Option Nat) :=
  let cnt := bitsOf h 448 64
  let sc := bitsOf h 195 3
  if cnt = 0 then .ok none
  else if s.touchesRegion s.ctx cnt 8 || (s.window s.ctx.ownPart cnt 8).isSome then .error { code := 16, fail := none }
  else match s.copyX cnt 8 .rw with
    | .error e => .error { code := 16, fail := some e }
    | .ok ps =>
      let pa := physOf ps cnt
      if sc ≤ 4 ∧ s.scopeOk s.copier sc pa = false then .error { code := 12, fail := none } else .ok (some pa)

/-- Makes a record's signal where it may be made; what fails of its counter's translation is reported once, here
(R280, R360, R366). -/
def State.recSignal (s : State) (n h code : Nat) : State :=
  let cnt := bitsOf h 448 64
  let add := bitsOf h 512 64
  let sc := bitsOf h 195 3
  if code = 1 ∧ cnt % 8 ≠ 0 then s
  else match s.recCounter h with
    | .ok (some pa) =>
      if code = 12 ∨ code = 16 then s
      else
        let s1 := s.evictLine (pa / 256)
        if sc ≤ 4 then s1.signalAt s.copier sc pa add
        else s1.rawWrite pa (bytesOfNat 8 (min (s1.natAt pa 8 + add) (2 ^ 64 - 1)))
    | .ok none => s
    | .error f => match f.fail with
      | some (v, x) => s.copyFails n v x
      | none => s

/-- STATUS, then the clearing of OWN (R273). -/
def State.recStatus (s : State) (n a h : Nat) (e : RecEnd) : State :=
  let word := packFields [(0, 1, 1), (1, 1, b2n (e.code != 0)), (8, 8, e.code), (16, 16, e.busy), (32, 32, e.badcnt)]
  let s1 := s.copyStore n (a + 80) (bytesOfNat 8 e.badoff ++ bytesOfNat 8 e.bytes)
  let s2 := s1.copyStore n (a + 72) (bytesOfNat 8 word)
  s2.copyStore n (a + 24) (bytesOfNat 1 (bitsOf h 192 8 / 2 * 2))

/-- The channel after a record that ended with a code: idle after 15, ERROR after an error, else the next record, the pending head, or idle (R272, R280 to R282). -/
def Chan.after (k : Chan) (code next : Nat) : Chan :=
  let k1 := { k with donecnt := k.donecnt + 1#16, phase := .start, ptag := none, resv := [], fetched := none, vlim := none, elems := 0,
                     bytes := 0, bad := [], badoff := 2 ^ 64 - 1, held := [], code := none }
  if code = 15 then { k1 with run := false }
  else if code ≠ 0 ∧ code ≠ 7 then { k1 with run := false, err := true, ecode := BitVec.ofNat 8 code }
  else if next ≠ 0 then { k1 with cur := some (.record (BitVec.ofNat 64 next)) }
  else match k1.pend with
    | some p => { k1 with cur := some p, pend := none }
    | none => { k1 with run := false }

/-- Posts COPY_ERROR for a channel (R280, R281, R342). -/
def State.copyError (s : State) (n code : Nat) (a : Word) : State :=
  s.setCtx (s.ctx.post { code := cCOPY, sub := BitVec.ofNat 8 code, val := a, unit := 5, ch := n })

/-- The region in which a version of the running context's partition stands that is reserved, or exists on one die
only, attached or not. -/
def State.reservedIn (s : State) (a v : Nat) : Option Region :=
  s.regions.find? (fun r => r.part == s.ctx.ownPart && decide (r.base.toNat ≤ a) &&
    decide (a < r.base.toNat + 256 * r.sectors) && (r.sec (r.index a)).vers.any (fun u => u.num == v && (!u.exist || u.only.isSome)))

/-- Returns the sectors a channel's publication has reserved to absent; a version that exists on one die comes to
exist on both, which may satisfy a pair (R104, R117, R277, R333). (DEDUCED, log 25) -/
def State.unreserveAll (s : State) (resv : List (Word × Nat)) : State :=
  resv.foldl (fun (s : State) x => match s.reservedIn x.1.toNat x.2 with
    | some r =>
      let i := r.index x.1.toNat
      (match r.halfDone i x.2 with
        | some u => (s.putRegion (r.exist i { u with only := none })).created r i
        | none => s.putRegion (r.unreserve i x.2))
    | none => s) s

/-- The creations that a wait of a bank holds: a version reserved for it, one that exists on one die (R103, R117). -/
def RegBank.creations (b : RegBank) : List (Word × Nat) := match b.wait with
  | some w => (match w.kind with
    | .creation va v => if w.given = .met then [(va, v)] else []
    | .mirror va v => [(va, v)]
    | _ => [])
  | none => []

/-- Ends the current record of a channel of the running context: STATUS, OWN, signal, COPY_ERROR, the
channel's next state (R276, R280, R281). A publication that fails has written no byte (R277); PMC13 counts the bytes
of a record that writes as it ends, those of a plain one as its bursts write them (R308). -/
def State.endRecord (s : State) (n a h : Nat) (e0 : RecEnd) : State :=
  let e := if bitOf h 200 = true ∧ e0.code ≠ 0 ∧ e0.code ≠ 7 then { e0 with bytes := 0 } else e0
  let s0 := if e.code = 0 ∨ e.code = 7 then s else s.unreserveAll (s.ctx.chan n).resv
  let s1 := (s0.recStatus n a h e).recSignal n h e.code
  let s2 := if e.code = 0 ∨ e.code = 15 then s1 else s1.copyError n e.code (BitVec.ofNat 64 a)
  let s3 := s2.setCtx (s2.ctx.setChan n ((s2.ctx.chan n).after e.code (bitsOf h 0 64)))
  (s3.pmcAgent s.ctx.ownDevice 13 (if bitsOf h 200 3 = 0 then 0 else e.bytes)).freeReserve .copy

/-! ### Stopping (R282) -/

/-- A producer waits in no gutter any more. -/
def State.dropProducer (s : State) (p : Producer) : State :=
  let clean (c : Ctx) : Ctx := { c with gutters := c.gutters.map (fun e =>
    (e.1, { e.2 with waiters := e.2.waiters.filter (fun w => w != p) })) }
  { s with ctx := clean s.ctx, ctxs := s.ctxs.map clean, residues := s.residues.map clean }

/-- A producer's landings in flight are over with the bytes it has landed (R280). -/
def State.endFlights (s : State) (p : Producer) (out : List Put) : State :=
  let stop (c : Ctx) : Ctx := { c with gutters := c.gutters.map (fun e =>
    (e.1, { e.2 with flight := e.2.flight.map (fun (l : GLanding) =>
      if l.prod = p ∧ l.ended = none then { l with ended := some out } else l) })) }
  { s with ctx := stop s.ctx, ctxs := s.ctxs.map stop, residues := s.residues.map stop }

/-- The bits of the record a channel runs: as it has fetched it, else, where it can be read, in memory. -/
def State.curRecord (s : State) (n : Nat) : Option (Nat × Nat) :=
  match (s.ctx.chan n).cur, (s.ctx.chan n).fetched with
  | some (.record a), some f => some (a.toNat, f.head.toNat)
  | some (.record a), none => match s.copyX a.toNat 128 .r with
    | .ok ps => some (a.toNat, natOfBytes ((s.copyBytes ps a.toNat 128).map Prod.fst))
    | .error _ => none
  | _, _ => none

/-- What it reports that a channel's record can no longer be read (R312, R366). -/
def State.recordFails (s : State) (n : Nat) : State := match (s.ctx.chan n).cur with
  | some (.record a) => match s.copyX a.toNat 128 .r with
    | .error (v, f) => s.copyFails n v f
    | .ok _ => s
  | _ => s

/-- A channel stops (R282): the pending head is discarded; a record not begun stays as it is; the running one
ends with code 15 where it stands, a 4 KiB boundary of its walk, what its slots have received recorded, nothing of a
multicast landed (R280, R282). (DEDUCED, log 39) -/
def State.stopChan (s : State) (n : Nat) : State :=
  let k := s.ctx.chan n
  let s0 := s.setCtx (s.ctx.setChan n { k with pend := none })
  if !k.run then s0
  else if k.phase = .start then s0.setCtx (s0.ctx.setChan n { k with pend := none, run := false })
  else
    let me : Producer := .chan s.ctx.id n
    let s1 := (s0.dropProducer me).endFlights me k.held
    match s1.curRecord n with
    | none =>
      let s2 := (s1.recordFails n).unreserveAll k.resv
      s2.setCtx (s2.ctx.setChan n { k.after 15 0 with pend := none })
    | some (a, h) => s1.endRecord n a h
        { RecEnd.of 15 with bytes := if bitOf h 202 then 0 else k.bytes, badcnt := k.bad.length, badoff := k.badoff }

end Sys2Proof.Machine
end

