-- ==== Sys2Proof/Machine/Task.lean ====
section
/-! DEFINITION. Tasks and the deadline scheduler: records, posting, cancellation, completion, admission,
selection, dispatch and pre-emption (R14 to R37, R327 to R340, R371 to R374, R397). -/

namespace Sys2Proof.Machine

/-! ### Partition configuration (R369 to R374, R382) -/

/-- Whether a partition is enabled: 0 and 15 always are (R371). -/
def State.partEnabled (s : State) (p : Nat) : Bool := p == 0 || p == 15 || bitOf (s.cfg (0x400 + p)).toNat 63

/-- The owner of a physical core (R370). -/
def State.ownerOf (s : State) (k : Nat) : Nat := s.cfgField (0x460 + clusterOf k) (4 * (k % 16)) 4

/-- The logical cores of a partition in ascending physical number (R369). -/
def State.coresOf (s : State) (p : Nat) : List Nat :=
  (List.range Config.coreCount).filter (fun k => s.ownerOf k == p && !(s.coreSlot k).disabled)

/-- The configuration of a scheduler queue (R373). -/
def State.qcfg (s : State) (p q : Nat) : QCfg := Sparse.get (fun _ => QCfg.zero) s.qcfgs (p * 64 + q)

/-- Whether a queue is enabled: below NQ with EN = 1 (R324, R373). -/
def State.queueOn (s : State) (p q : Nat) : Bool := decide (q < s.cfgField (0x420 + p) 0 7) && (s.qcfg p q).en

/-- Whether a device's tasks may be dispatched: it is not paused, and in a sliced partition its slice
runs (R383, R385). -/
def State.deviceMayRun (s : State) (p v : Nat) : Bool :=
  !s.vdPaused v && (decide ((s.devicesOf p).length ≤ 1) ||
    match Sparse.get (fun _ => none) s.slices p with
    | some sl => sl.vdn == v && !sl.ended
    | none => false)

/-! ### Records (R14, R15, R327, R328) -/

/-- A pair of a record's bits (R328). -/
def pairOf (n : Nat) : Pair :=
  { base := BitVec.ofNat 64 (bitsOf n 16 48 * 65536), first := bitsOf n 96 23, count := bitsOf n 0 10 + 1,
    mode := bitsOf n 10 2, version := bitsOf n 64 32 }

/-- Cores of a partition in a cluster. -/
def State.clusterCores (s : State) (p c : Nat) : List Nat :=
  (List.range 16).map (fun i => 16 * c + i) |>.filter (fun k => s.ownerOf k == p && !(s.coreSlot k).disabled)

/-- Whether a record is malformed for a partition's queues (R15, R118, R185, R328). -/
def State.recordBad (s : State) (p : Nat) (addr h : Nat) : Bool :=
  let np := bitsOf h 438 2
  let crew := bitsOf h 440 4
  let q := bitsOf h 480 6
  let ctr (i : Nat) : Nat := bitsOf h (768 + 64 * i) 64
  let pairBad (i : Nat) : Bool :=
    let n := bitsOf h (512 + 128 * i) 128
    let pr := pairOf n
    bitsOf n 12 4 != 0 || bitsOf n 119 9 != 0 || pr.mode == 3 ||
    match s.regionAt p pr.base.toNat with
    | none => true
    | some r => decide (r.sectors < pr.first + pr.count)
  addr % 128 != 0 || bitsOf h 0 64 == 0 || bitsOf h 0 64 % 8 != 0 || crew == 0 || decide (12 < crew) ||
  (List.range 40).all (fun c => decide ((s.clusterCores p c).length < crew)) ||
  (List.range 4).any (fun i => ctr i % 16 != 0) ||
  (List.range 8).any (fun i => decide (8 < bitsOf h (448 + 4 * i) 4)) ||
  bitsOf h 160 32 != 0 || bitsOf h 447 1 != 0 || bitsOf h 486 10 != 0 ||
  bitsOf h 432 2 == 3 || bitsOf h 434 2 == 3 || np == 3 || bitsOf h 384 32 == 0 || !s.queueOn p q ||
  (List.range np).any pairBad

/-- Entry n of a record's bits: zero, so none, where PRES says so or where it computes to zero (R27, R327). -/
def entryOf (h n : Nat) : Option Word :=
  let pc := BitVec.ofNat 64 (bitsOf h 0 64) + 8#64 * (BitVec.ofNat 32 (bitsOf h (64 + 32 * (n - 1)) 32)).signExtend 64
  if bitOf h (444 + n - 1) ∧ pc ≠ 0#64 then some pc else none

/-- The task a record describes, as posted to a partition's queue (R327, R331). (DESIGN CHOICE, log 24) -/
def State.taskOf (s : State) (p vdn : Nat) (addr : Word) (h : Nat) (hostq : Option (Nat × Nat)) : Task :=
  let q := bitsOf h 480 6
  let cls := bitsOf h 432 2
  let dl := bitsOf h 320 64
  let np := bitsOf h 438 2
  { id := s.postSeq, record := addr, part := p, queue := q, vdn := vdn, die := (s.qcfg p q).die
    entry0 := BitVec.ofNat 64 (bitsOf h 0 64), entry1 := entryOf h 1, entry2 := entryOf h 2, entry3 := entryOf h 3
    arg := BitVec.ofNat 64 (bitsOf h 192 64), release := bitsOf h 256 64, deadline := dl
    sched := if cls = 2 ∧ dl = 0 then s.now + 1000000 * s.cfgField (0x400 + p) 4 16 else dl
    budget := bitsOf h 384 32, prog := bitsOf h 416 16, cls := cls, miss := bitsOf h 434 2, fullt := bitOf h 436
    regabs := false, ptag := bitOf h 437
    pairs := (List.range np).map (fun i => pairOf (bitsOf h (512 + 128 * i) 128))
    crew := bitsOf h 440 4, lnote := BitVec.ofNat 32 (bitsOf h 448 32)
    claunch := BitVec.ofNat 64 (bitsOf h 768 64), cgraph := BitVec.ofNat 64 (bitsOf h 832 64)
    cphase := BitVec.ofNat 64 (bitsOf h 896 64), cjob := BitVec.ofNat 64 (bitsOf h 960 64)
    state := .pending, disp := 0, dispatched := false, members := [], slots := [], missed := false, used := 0
    overflow := true, pfw := 0, yielded := false, paused := false, hostq := hostq, deadTold := false, overTold := false }

/-- The entry of a task at a level. -/
def Task.entry (t : Task) (n : Nat) : Option Word := match n with
  | 0 => some t.entry0
  | 1 => t.entry1
  | 2 => t.entry2
  | _ => t.entry3

/-- The counter a task names at a level: 0 launch, 1 graph, 2 phase, 3 job (R25). -/
def Task.counter (t : Task) (n : Nat) : Word := match n with
  | 0 => t.claunch
  | 1 => t.cgraph
  | 2 => t.cphase
  | _ => t.cjob

/-! ### Quiet phases and cancels (R28 to R31) -/

/-- Whether a copy channel or a send of a context, whose own tag is given, is outstanding with a tag: a
record may name its own, a held one is not under way (R30, R31, R273). The channel `but` is left out. -/
def Ctx.outstanding (c : Ctx) (own tag : Bool) (but : Option Nat) : Bool :=
  c.chans.any (fun e => e.2.run && e.2.phase != .held && some e.1 != but && e.2.ptag.getD own == tag) ||
  (own == tag && c.sends.any (fun e => e.2.used && !e.2.delivered && !e.2.err))

/-- The phase tag of a context's task; 0 where it has none (R30). -/
def State.tagOf (s : State) (c : Ctx) : Bool := (c.task.bind s.findTask).any Task.ptag

/-- The phase counter of a context's task; zero where it has none (R31). -/
def State.phaseOf (s : State) (c : Ctx) : Word := ((c.task.bind s.findTask).map Task.cphase).getD 0#64

/-- The phase counters of the work of a partition that is under way with a tag: tasks, copy records and sends of its
contexts, sends of contexts that have ended, contributions, host copy channels (R30, R31); no open build, and no
prefetch whose signal is still to come. A task, and a channel of a context, may be left out. (DEDUCED, log 42)
(DESIGN CHOICE, log 83) -/
def State.tagWork (s : State) (p : Nat) (tag : Bool) (skip : Option Nat) (but : Option (Nat × Nat)) : List Word :=
  ((s.tasks.filter (fun t => t.part == p && t.ptag == tag && some t.id != skip && (match t.state with
      | .held | .complete => false
      | _ => true))).map Task.cphase) ++
  ((s.allCtxs.filter (fun c => c.part.toNat == p && c.outstanding (s.tagOf c) tag
      (but.bind (fun x => if x.1 = c.id then some x.2 else none)))).map s.phaseOf) ++
  ((s.flying.filter (fun x => x.part == p && x.tag == tag)).map Flying.phase) ++
  ((s.contribs.filter (fun x => x.part == p && x.tag == tag)).map Contrib.phase) ++
  ((s.hostChans.filter (fun e => e.2.busy && e.2.chan.run && e.2.chan.phase != .held &&
      s.cfgField (0x5C0 + e.2.vd) 56 4 == p && e.2.chan.ptag.getD false == tag &&
      but.all (fun x => x.1 != 2 ^ 64 + e.1))).map (fun _ => 0#64))

/-- Whether a partition is quiet for a tag (R30); one task may be left out of the test. -/
def State.quiet (s : State) (p : Nat) (tag : Bool) (skip : Option Nat) : Bool := (s.tagWork p tag skip none).isEmpty

/-- Whether a posted task must be held: earlier work of its tag belongs to another phase counter (R31). -/
def State.mustHold (s : State) (t : Task) : Bool :=
  !s.quiet t.part t.ptag none &&
  ((s.tagWork t.part t.ptag none none).any (fun w => w != t.cphase) ||
    s.tasks.any (fun u => u.part == t.part && u.ptag == t.ptag && u.state == .held && u.cphase != t.cphase))

/-- The cancel record that catches a task at posting (R29). -/
def State.cancelledAt (s : State) (t : Task) : Bool :=
  s.cancels.any (fun c => c.part == t.part && c.addr != 0#64 && t.counter c.level == c.addr)

/-! ### Completion (R24 to R27, R329) -/

/-- The STATUS field (R329). -/
def Task.statusNat (t : Task) (cause : Nat) : Nat :=
  packFields [(0, 1, 1), (1, 1, b2n (cause != 0)), (2, 1, b2n t.missed), (4, 4, cause),
    (8, 2, if t.dispatched then t.disp else 0)]

/-- Writes the STATUS of a record with one 8-byte store (R329); a record that does not translate is left
as it is. -/
def State.writeStatus (s : State) (t : Task) (v : Nat) : State :=
  match s.walk t.vdn t.part (t.record.toNat + 56) .w with
  | .error f => s.agentFails t.die t.part t.vdn 7 (t.record.toNat + 56) f
  | .ok o => s.homeWrite o.pa (bytesOfNat 6 (s.natAt o.pa 6) ++ bytesOfNat 2 v) false

/-- The additions of a completion at one level: word 1 if abnormal, then word 0; a counter that does not
translate is skipped with an event (R26, R366). -/
def State.countAt (s : State) (t : Task) (abn : Bool) (lvl : Nat) : State :=
  let a := (t.counter lvl).toNat
  if a = 0 then s
  else match s.walk t.vdn t.part a .rw with
    | .error f => (s.agentFails t.die t.part t.vdn 7 a f).event t.die 0x12 t.part t.vdn a lvl
    | .ok o =>
      let s1 := if abn then s.signalAt (.die t.die) 3 (o.pa + 8) 1 else s
      s1.signalAt (.die t.die) 3 o.pa 1

/-- The device word of a message as transmitted: VER from the list's first entry, VERV from TXVER (R402). -/
def State.messageWord (s : State) (x : SendSlot) : BitVec 64 :=
  let cn := Sparse.get (fun _ => Conn.closed) s.conns x.handle.toNat
  packWord [(33, 1, b2n x.pois), (32, 1, b2n cn.txver), (0, 32, x.ver.toNat)]

/-- A prefetch of the running context is done: its signal is made (R87, R283). -/
def State.addPrefetch (s : State) (p : Prefetch) : State :=
  let pa := p.cnt.toNat
  s.rawWrite pa (bytesOfNat 8 (min (s.natAt pa 8 + p.val.toNat) (2 ^ 64 - 1)))

/-- The running context ends: its channels, waiting creations and builds stop, its writes are released, its prefetches signal, taken
sends fly on, its regions are detached, its core is free (R20, R24, R30, R87, R99, R282).
(DEDUCED, log 25) -/
def State.endFocus (sa : State) (keepBuilds : Bool) : State :=
  let sb := (List.range 8).foldl State.stopChan sa
  let s := [sb.ctx.base, sb.ctx.tbank, sb.ctx.sbank].foldl (fun (s : State) b => s.unreserveAll b.creations) sb
  let s0 := if keepBuilds then s
    else
      let regs := s.ctx.builds.foldl (fun st b => match State.attached st s.ctx b.sector.toNat with
        | some r => st.putRegion (r.unreserve (r.index b.sector.toNat) b.version.toNat)
        | none => st) s
      { regs with ctx := { regs.ctx with builds := [] } }
  let s1 := (s0.writeBack (fun _ _ => true)).setL1 []
  let s2 := (s1.ctx.prefetches.foldl State.addPrefetch s1).detachAll
  let s3 := (List.range 32).foldl (fun s i =>
    let x := s.ctx.send i
    if x.used && x.taken && !x.delivered && !x.err then
      { s with flying := s.flying ++ [{ ctx := s.ctx.id, slot := i, send := x, part := s.ctx.ownPart
                                        tag := sa.tagOf sa.ctx, phase := sa.phaseOf sa.ctx }] }
    else s) s2
  { s3 with ctx := { s3.ctx with place := .nowhere, task := none, chans := [], prefetches := [], halted := true } }

/-- What a context leaves for the next task of the same context: its gutters and landing buffers, the banks that
they pin with all they hold (R17). (DEDUCED, log 61) -/
def Ctx.residue (c : Ctx) : Ctx :=
  let pin (n : Nat) (k : Nat) : Bool := c.pinned (k / n)
  { Ctx.blank with
    id := c.id, vdn := c.vdn, part := c.part, lcore := c.lcore, spbanks := c.spbanks, gutters := c.gutters
    posted := c.posted.filter (fun p => p.code == cLANDING)
    lbufs := c.lbufs, banks := c.banks.filter (fun e => pin 1 e.1), pad := c.pad.filter (fun e => pin 16384 e.1)
    gpois := c.gpois.filter (fun e => pin 64 e.1), glive := c.glive.filter (fun e => pin 64 e.1) }

/-- Keeps a residue in the place of an older one of the same context. -/
def State.putResidue (s : State) (c : Ctx) : State :=
  { s with residues := s.residues.filter (fun x => x.id != c.id) ++
      (if c.spans.all (fun x => x.2 == 0) then [] else [c.residue]) }

/-- Ends a context: nothing of it remains but a blank in its place while it holds the focus, and its gutters and
landing buffers for its next task (R17). -/
def State.endCtx (s : State) (id : Nat) (keepBuilds : Bool) : State :=
  let s0 := s.onCtx id (fun s => s.endFocus keepBuilds)
  let s1 := match s0.findCtx id with
    | some c => s0.putResidue c
    | none => s0
  let s2 := (s1.vacate id).dropWaits id
  { s2 with ctxs := s2.ctxs.filter (fun c => c.id != id) }

/-! ### Admission (R338, R383) -/

/-- 16 times the share F of a level (R338). -/
def demandShare (lvl : Nat) : Nat := match lvl with
  | 0 => 16
  | 1 => 8
  | 2 => 4
  | _ => 1

/-- The budget admission and the budget watchdog use: half for a quarantined task (R397). -/
def Task.budgetNow (t : Task) : Nat := if t.cls = 3 then (t.budget + 1) / 2 else t.budget

/-- Changes by one step the levels of one admission class of a group of queues (R338). (DEDUCED, log 29) -/
def State.stepLevels (s : State) (p : Nat) (qs : List Nat) (up : Bool) : State :=
  let lvl (q : Nat) : QLevel := s.qlevel p q
  let can (q : Nat) : Bool := if up then decide ((lvl q).level < 3) else decide ((lvl q).floor < (lvl q).level)
  let order : List Nat := if up then [2, 1, 0] else [0, 1, 2]
  match order.find? (fun c => qs.any (fun q => (s.qcfg p q).cls == c && can q)) with
  | none => s
  | some c =>
    (qs.filter (fun q => (s.qcfg p q).cls == c && can q)).foldl (fun s q =>
      s.setLevel (s.qcfg p q).die p q (if up then (lvl q).level + 1 else (lvl q).level - 1)) s

/-- One evaluation for a group: the demand times 16 against the capacity times 16 (R338). (DEDUCED, log 29) -/
def State.admitGroup (s : State) (p : Nat) (v : Option Nat) (num den : Nat) : State :=
  let w := 1000000 * s.cfgField (0x400 + p) 20 10
  let qs := (List.range 64).filter (fun q => s.queueOn p q && (match v with
    | some d => (s.qcfg p q).vd == d
    | none => true))
  let ts := s.tasks.filter (fun t => t.runPart == p && t.state != .complete && t.state != .held &&
    decide (t.release < s.now + w) && (match v with
      | some d => t.vdn == d
      | none => true))
  let d := (ts.map (fun t =>
    let l := (s.qlevel t.part t.queue).level
    if (t.entry l).isNone then 0 else (t.budgetNow - t.used) * demandShare l)).sum
  let c := (s.coresOf p).length * w * s.cfgField (0x400 + p) 30 10 * num
  -- D > C, with D scaled by 16 × 1000 × den and C by 16
  if 16 * c < d * 1000 * den then s.stepLevels p qs true
  else if d * 1000 * den * 8 ≤ 16 * c * 7 then s.stepLevels p qs false
  else s

/-- One evaluation of admission for a partition; in a sliced one each device separately (R338, R383).
(DEDUCED, log 29) -/
def State.admission (s : State) (p : Nat) : State :=
  let vs := s.devicesOf p
  if vs.length ≤ 1 then s.admitGroup p none 1 1
  else
    let tot := (vs.map (fun v => s.cfgField (0x5C0 + v) 36 20)).sum
    vs.foldl (fun s v => s.admitGroup p (some v) (s.cfgField (0x5C0 + v) 36 20) tot) s

/-- Raises a task's queue by one level, to at most 3 (R339, R340). -/
def State.raiseLevel (s : State) (t : Task) : State :=
  let l := (s.qlevel t.part t.queue).level
  s.setLevel t.die t.part t.queue (min 3 (l + 1))

/-- The cause of a completion at a moment: a miss that stands at its deadline and aborts comes before what else would
complete the task now; a cancel at posting finds no such task (R29, R339). (DEDUCED, log 66) -/
def Task.causeAt (t : Task) (now cause : Nat) : Nat :=
  if t.missed = false ∧ t.sched ≤ now ∧ t.miss = 1 ∧ cause ≠ 2 then 3 else cause

/-- Completes a task: members end, STATUS, counters, admission (R24, R26, R27, R329). Cause 0 is
normal. A deadline that package time has reached is missed, whether its event has come or not (R329, R339). -/
def State.completeTask (s : State) (id cause : Nat) : State :=
  match s.findTask id with
  | none => s
  | some t0 =>
    if t0.state = .complete then s
    else
      let late : Bool := !t0.missed && decide (t0.sched ≤ s.now)
      let why := t0.causeAt s.now cause
      let t := { t0 with missed := t0.missed || late }
      let s0 := if late && decide (2 ≤ t.miss) && why != 2 then s.raiseLevel t else s
      let s1 := t.members.foldl (fun s m => s.endCtx m false) s0
      let s2 := s1.writeStatus t (t.statusNat why)
      let s3 := (List.range 4).foldl (fun s l => s.countAt t (why != 0) l) s2
      ((s3.putTask { t with state := .complete, members := [], slots := [], overflow := false }).settleHeap
        t.runPart).admission t.runPart

/-! ### Posting (R31, R184, R329, R332, R374) -/

/-- Posts one task: STATUS zero, held under R31, its entry in the heap or the overflow list, caught by a cancel
record (R29, R31, R329, R332, R333). -/
def State.postOne (s : State) (t : Task) : State :=
  let t1 := { t with id := s.postSeq, state := if s.mustHold t then TState.held else TState.pending, overflow := true }
  let s0 := s.writeStatus t1 0
  let s1 := ({ s0 with tasks := s0.tasks ++ [t1], postSeq := s.postSeq + 1 } : State).settleHeap t1.runPart
  if s.cancelledAt t then s1.completeTask t1.id 2 else s1

/-- Posts tasks in one posting, in order, then admission (R184, R338). -/
def State.postAll (s : State) (ts : List Task) (p : Nat) : State := (ts.foldl State.postOne s).admission p

/-! ### Cancellation (R28, R29, R325) -/

/-- Issues a cancel: a record on each die, every task of the instance completes abnormally; none where
the partition holds 64 records (R28, R29). -/
def State.cancelLevel (s : State) (p : Nat) (addr : Word) (lvl : Nat) : Option State :=
  let have_ := s.cancels.any (fun c => c.part == p && c.addr == addr && c.level == lvl)
  if !have_ && decide (Config.cancelRecords ≤ (s.cancels.filter (fun c => c.part == p)).length) then none
  else
    let s1 : State := if have_ then s
      else { s with cancels := s.cancels ++ [{ part := p, addr := addr, level := lvl }] }
    let hit := (s1.tasks.filter (fun t => t.part == p && t.state != .complete && t.counter lvl == addr)).map Task.id
    some (hit.foldl (fun s t => s.completeTask t 1) s1)

/-! ### Readiness (R16, R333) -/

/-! ### Dispatch and pre-emption (R334 to R336) -/

/-- Banks that L1 takes (R82). -/
def l1Banks (l1 : Nat) : Nat := match l1 with
  | 0 => 0
  | 1 => 4
  | 2 => 8
  | _ => 16

/-- Whether a core can take a context: enough banks, t15 where needed, the saved images (R319, R335). -/
def CoreSlot.fits (k : CoreSlot) (sp l1 : Nat) (full : Bool) (live : Nat) : Bool :=
  !k.disabled && decide (sp + l1Banks l1 ≤ 48 - k.removed) && !(full && k.noT15) && !(bitOf live 15 && k.noT15)

/-- Eligibility of a core for a task (R335). -/
def State.eligible (s : State) (t : Task) (k : Nat) : Bool :=
  let qc := s.qcfg t.part t.queue
  let c := s.coreSlot k
  s.ownerOf k == t.runPart && dieOf k == t.die && c.fits qc.sp qc.l1 (t.fullt || t.regabs) 0 &&
  t.members.all (fun m => match s.findCtx m with
    | some x => c.fits x.spbanks x.l1size.toNat (x.fullt || x.regabs) x.liveMask && !x.held
    | none => true)

/-- The task that runs on a core. -/
def State.taskOn (s : State) (k : Nat) : Option Task := match (s.coreSlot k).run with
  | none => none
  | some id => match s.findCtx id with
    | none => none
    | some c => match c.task with
      | some t => s.findTask t
      | none => none

/-- Whether a core is idle. -/
def State.idle (s : State) (k : Nat) : Bool := (s.coreSlot k).run.isNone

/-- Whether what runs on a core is a victim for a task: a running task of later deadline (R334). -/
def State.victimFor (s : State) (t : Task) (k : Nat) : Bool :=
  (s.taskOn k).any (fun u => u.state == .running && decide (t.sched < u.sched))

/-- Whether a member of a task has a handler open, which a pre-emption waits for (R336, R352). -/
def State.inHandlers (s : State) (t : Task) : Bool := t.members.any (fun m => (s.findCtx m).any Ctx.inHandler)

/-- Pre-empts a task as a whole for contexts that come in: every member stops, the task is READY, PMC15 counts
(R19, R336). -/
def State.preemptTask (s : State) (incoming : List Nat) (t : Task) : State :=
  let s1 := t.members.foldl (State.displace incoming) s
  (s1.readyTask t).pmcAdd t.vdn 15 1

/-- Logical core number of a physical core in its partition (R369). -/
def State.logical (s : State) (p k : Nat) : Nat := ((s.coresOf p).takeWhile (fun j => j != k)).length

/-- The free context slots of a partition, lowest first; a task keeps those of its members until it completes
(R373). -/
def State.freeSlots (s : State) (p : Nat) : List Nat :=
  let base := (s.cfg (0x430 + p)).toNat / 4096 * 4096
  (List.range (s.cfgField (0x430 + p) 0 12)).filter (fun k =>
    !(s.allCtxs.any (fun c => c.id == base + Config.saveAreaBytes * k && c.place != .nowhere)) &&
    !(s.tasks.any (fun t => t.slots.contains (base + Config.saveAreaBytes * k))))

/-- Adds a context, in the place of a blank of the same identity. -/
def State.addCtx (s : State) (c : Ctx) : State :=
  if s.ctx.id = c.id ∨ (s.ctx.place = .nowhere ∧ s.ctx.task = none) then
    { s with ctx := c, ctxs := s.ctxs.filter (fun d => d.id != c.id) }
  else { s with ctxs := s.ctxs.filter (fun d => d.id != c.id) ++ [c] }

/-- What the slot of a context still holds of its own last task: nothing where that was another device's or another
split of SRAM (R17, R82, R97); who waits for a gutter goes on waiting. (DEDUCED, log 61) -/
def State.residueFor (s : State) (id vdn sp : Nat) : Ctx := match s.residues.find? (fun c => c.id == id) with
  | none => Ctx.blank
  | some c =>
    if c.vdn.toNat = vdn ∧ c.spbanks = sp then c
    else
      let gs := c.gutters.map (fun e => (e.1, { Gutter.zero with waiters := e.2.waiters }))
      { Ctx.blank with gutters := gs.filter (fun e => e.2 != Gutter.zero) }

/-- The entry state of a member (R17, R373). -/
def State.entryCtx (s : State) (t : Task) (slot ix lvl k : Nat) (pc : Word) : Ctx :=
  let qc := s.qcfg t.part t.queue
  let base := (s.cfg (0x430 + t.part)).toNat / 4096 * 4096
  let id := base + Config.saveAreaBytes * slot
  let old := s.residueFor id t.vdn qc.sp
  let reg (b : RegBank) (r : Nat) (v : Word) : RegBank := b.setS r { bits := v, pois := false }
  let b0 := { RegBank.entry with fifo := fifosOf ((List.range 8).map (fun i => bitsOf t.lnote.toNat (4 * i) 4)) }
  let b1 := reg (reg (reg (reg (reg b0 1 t.arg) 2 (BitVec.ofNat 64 ix)) 3 (BitVec.ofNat 64 t.crew)) 4
    (BitVec.ofNat 64 lvl)) 5 t.record
  let b2 := reg (reg b1 61 qc.tp) 62 (qc.stack + BitVec.ofNat 64 (2 ^ qc.ssh * (slot + 1)))
  { Ctx.blank with
    id := id, place := .core k, pc := pc, base := b2
    tiles := if (s.coreSlot k).noT15 then [(15, { Tile.entry with state := .absent })] else []
    gutters := old.gutters, lbufs := old.lbufs, banks := old.banks, pad := old.pad, gpois := old.gpois
    glive := old.glive, posted := old.posted
    spbanks := qc.sp, l1size := BitVec.ofNat 2 qc.l1, vdn := BitVec.ofNat 6 t.vdn
    part := BitVec.ofNat 4 t.part, queue := BitVec.ofNat 6 t.queue, disp := BitVec.ofNat 2 lvl
    lcore := BitVec.ofNat 16 (s.logical t.runPart k), crewIx := ix, crewSz := t.crew, trec := t.record
    fullt := t.fullt, task := some t.id, progT := 1000 * t.prog }

/-- A context placed on a core: from memory it is restored with the marks its images carry (R319, R354, R356), from
the second slot it is switched to; t15 follows the core; one that has migrated keeps its logical number at its first
placement (R290). -/
def State.placeCtx (s : State) (id k lcore : Nat) : State :=
  match s.findCtx id with
  | none => s
  | some c =>
    let c1 := if c.resident then c else s.restoreMarks (s.rereadArea c)
    let t15 := c1.tile 15
    let c2 := if (s.coreSlot k).noT15 then c1.setTile 15 { t15 with state := .absent, cells := [] }
      else if t15.state = .absent then c1.setTile 15 (t15.to .off) else c1
    let s1 := s.vacate id
    let s2 := match (s1.coreSlot k).run with
      | some o => s1.displace [] o
      | none => s1
    (s2.setCore k { s2.coreSlot k with run := some id }).putCtx
      { c2 with place := .core k, lcore := if c.kept then c.lcore else BitVec.ofNat 16 lcore, kept := false
                forced := false, sliced := false }

/-- Whether the first 24 KiB of the area a context comes back from carry a mark (R357). -/
def State.areaLost (s : State) (c : Ctx) : Bool := c.place == .memory && s.anyMarked c.id 24576

/-- A context whose area's first 24 KiB are lost: held for good, MEM_UNCORRECTABLE to the steward, its task completed
with CAUSE 6 (R357). (DEDUCED, log 44) -/
def State.loseCtx (s : State) (c : Ctx) : State :=
  let s1 := ((s.mapCtx c.id (fun x => { x with held := true })).postSteward (dieOf c.core)
    { code := cUNCORR, sub := 0#8, val := s.freshBits 0, unit := 0, ch := 0 }).useFree
  match c.task with
  | some t => s1.completeTask t 6
  | none => s1

/-- The core of a list on which a context is still resident. -/
def State.hereOn (s : State) (ks : List Nat) (m : Nat) : Option Nat := match (s.findCtx m).map Ctx.place with
  | some (.core p) => if ks.contains p then some p else none
  | _ => none

/-- Gives the members that are resident on one of the cores that core. -/
def stayCores (s : State) : List Nat → List Nat → List (Nat × Nat)
  | [], _ => []
  | m :: ms, ks => match s.hereOn ks m with
    | some k => (m, k) :: stayCores s ms (ks.erase k)
    | none => stayCores s ms ks

/-- Gives each member its core: where it is resident on one of them that one, else the lowest that is left (R335). -/
def assignCores (s : State) (ms ks : List Nat) : List (Nat × Nat) :=
  let stay := stayCores s ms ks
  let left := sortBy (fun (a b : Nat) => decide (a < b)) (ks.filter (fun k => !(stay.map Prod.snd).contains k))
  stay ++ (ms.filter (fun m => !(stay.map Prod.fst).contains m)).zip left

/-- Dispatches a task onto cores: its members are created at the entry of the queue's level in the lowest free
slots, or resume (R17, R335, R373). -/
def State.dispatch (s : State) (t : Task) (ks : List Nat) (lvl : Nat) (pc : Word) : State :=
  if t.dispatched then
    let s1 := (assignCores s t.members ks).foldl (fun s mk => s.placeCtx mk.1 mk.2 (s.logical t.runPart mk.2)) s
    ((s1.putTask { t with state := .running, overflow := false }).settleHeap t.runPart).admission t.runPart
  else
    let slots := (s.freeSlots t.part).take t.crew
    let order := sortBy (fun (a b : Nat) => decide (a < b)) ks
    let cs := (List.range t.crew).map (fun i => s.entryCtx t (slots.getD i 0) i lvl (order.getD i 0) pc)
    let ids := cs.map Ctx.id
    let s0 : State := { s with residues := s.residues.filter (fun c => !ids.contains c.id) }
    let s1 := cs.foldl (fun s c =>
      let s0 := match (s.coreSlot c.core).run with
        | some o => s.displace [] o
        | none => s
      (s0.setCore c.core { s0.coreSlot c.core with run := some c.id }).addCtx c) s0
    ((s1.putTask { t with state := .running, dispatched := true, disp := lvl, members := ids, slots := ids,
                          overflow := false }).settleHeap t.runPart).admission t.runPart

/-- The cores that a task takes of those free for it in a cluster: every idle one, where its members are resident
first, then the victims of latest Key (R334, R335); with the victims. -/
def State.coresFor (s : State) (t : Task) (need : Nat) (free : List Nat) : List Nat × List Nat :=
  let here (k : Nat) : Bool := t.members.any (fun m => (s.findCtx m).any (fun c => c.place == .core k))
  let idle := free.filter s.idle
  let victims := (free.filter (fun k => !s.idle k)).filterMap (fun k => (s.taskOn k).map (fun u => (k, u)))
  let sorted := sortBy (fun (a b : Nat × Task) => b.2.before a.2) victims
  let cores := (idle.filter here ++ idle.filter (fun k => !here k) ++ sorted.map Prod.fst).take need
  (cores, ((sorted.filter (fun v => cores.contains v.1)).map (fun v => v.2.id)).dedup)

/-- Considers one READY task for its partition's cores (R334, R335): it stays READY where no cluster can gather its crew or no context slot is free; it is shed at its dispatch where the entry at its queue's level is zero (R27).
Where a victim has a handler open, the pre-emption waits for its end (R336, R352): the task takes its cores in a later
pass, and they are the answer. `taken` are the cores that earlier tasks so wait for. (DEDUCED, log 42) -/
def State.consider (s : State) (taken : List Nat) (t : Task) : State × List Nat :=
  let need := if t.dispatched then t.members.length else t.crew
  let lvl := (s.qlevel t.part t.queue).level
  let free (c : Nat) : List Nat := (s.clusterCores t.runPart c).filter (fun k =>
    s.eligible t k && !taken.contains k && (s.idle k || s.victimFor t k))
  let idles (c : Nat) : Nat := ((free c).filter s.idle).length
  let cs := (List.range 40).filter (fun c => c / 20 == t.die && decide (need ≤ (free c).length))
  match cs, (if t.dispatched then some 0#64 else t.entry lvl) with
  | [], _ => (s, [])
  | c0 :: rest, entry =>
    if t.dispatched = false ∧ (s.freeSlots t.part).length < t.crew then (s, [])
    else match entry with
      | none => ((s.putTask { t with dispatched := true, disp := lvl }).completeTask t.id 5, [])
      | some pc => match (t.members.filterMap s.findCtx).find? s.areaLost with
        | some c => (s.loseCtx c, [])
        | none =>
          let best := rest.foldl (fun b c => if idles b < idles c then c else b) c0
          let (cores, losers) := s.coresFor t need (free best)
          let us := losers.filterMap s.findTask
          if us.any s.inHandlers then (s, cores)
          else
            let coming := t.members.filter (fun m => (s.findCtx m).any (fun c => match c.place with
              | .core k => cores.contains k
              | _ => false))
            ((us.foldl (fun s u => s.preemptTask coming u) s).dispatch t cores lvl pc, [])

/-- Whether a task may be considered now: READY with none of its members still in a handler on a core, in the heap,
its device may run, and on partition 15 of the current demoted queue (R19, R383, R397). -/
def State.mayConsider (s : State) (p die : Nat) (t : Task) : Bool :=
  t.state == .ready && t.runPart == p && t.die == die && !t.overflow && s.deviceMayRun t.part t.vdn &&
  !(t.members.any (fun m => (s.findCtx m).any s.running)) &&
  (p != 15 || (match s.demoted[s.demCur]?, t.hostq with
    | some q, some h => q == h
    | _, _ => false))

/-- The pass of R334: the READY task of least Key not yet considered is considered, its victims with the rest. -/
def State.selectLoop (p die : Nat) : Nat → List Nat → List Nat → State → State
  | 0, _, _, s => s
  | n + 1, seen, taken, s =>
    match (sortBy Task.before (s.tasks.filter (fun t => s.mayConsider p die t && !seen.contains t.id))).head? with
    | none => s
    | some t =>
      let r := s.consider taken t
      State.selectLoop p die n (t.id :: seen) (taken ++ r.2) r.1

/-- The selection of one partition on one die (R334). -/
def State.select (s : State) (p die : Nat) : State :=
  let s1 := s.settleHeap p
  State.selectLoop p die s1.tasks.length [] [] s1

/-! ### Parking (R19, R37, R333) -/

/-- The task of a member leaves PARKED when a wait of it is met (R19, R333). -/
def State.unpark (s : State) (id : Nat) : State := match s.findCtx id with
  | none => s
  | some c => match c.task with
    | none => s
    | some t => match s.findTask t with
      | some k => if k.state = .parked then s.readyTask k else s
      | none => s

end Sys2Proof.Machine
end

