-- ==== Sys2Proof/Machine/Fetch.lean ====
section
/-! DEFINITION. Fetching the instruction at the program counter (R137, R170, R96). -/

namespace Sys2Proof.Machine

/-- The word at the program counter, or the cause of its fetch fault with the state after any event (R170,
R366, R96). -/
def State.fetch (s : State) : Except (State × Cause) Word :=
  let va := s.ctx.pc.toNat
  match s.xlate va .x with
  | .error f => .error (s.xEvent (dieOf s.ctx.core) s.ctx.part.toNat s.ctx.vdn.toNat f, f.cause cFETCH va)
  | .ok o =>
    if s.marked o.pa then .error (s, Cause.seq cUNCORR 0 s.ctx.pc)
    else .ok (wordOfBytes (s.bytesAt o.pa 8))

/-- The instruction that waits at the program counter of the running context, as its events see it. -/
def State.waiting (s : State) : Option Instr :=
  if s.waitHere?.isNone then none
  else match s.fetch with
    | .error _ => none
    | .ok w => match decodeAt s.ctx.atSteward w with
      | .ok i => some i
      | _ => none

end Sys2Proof.Machine
end

