-- ==== Sys2Proof/Machine/Scalar.lean ====
section
/-! DEFINITION. The SALU class: one meaning for each instruction over the shared `alu` (R155 to R165). -/

namespace Sys2Proof.Machine

/-! ### Shared operations -/

/-- A SALU result: with a poisoned consumed source it traps, or under SP writes the computed bits
poisoned; else it is written clean (R155). Sources come with their operand numbers (R347). -/
def alu (s : State) (sp : Bool) (d : Reg) (srcs : List (Nat × SReg)) (v : Word) : SeqOut :=
  match srcs.find? (fun x => x.2.pois) with
  | some (n, _) => if sp then .done (s.wr d { bits := v, pois := true }) else .trap s (Cause.poison n)
  | none => .done (s.wrc d v)

/-- A SALU instruction of two sources (R155). -/
def alu3 (f : FR3) (op : Word → Word → Word) (s : State) : Host.Outcome State Fault Refusal :=
  seqInstr [f.a, f.b] [f.d]
    (fun s => alu s f.sp f.d [(1, s.rd f.a), (2, s.rd f.b)] (op (s.rd f.a).bits (s.rd f.b).bits)) s

/-- A SALU instruction of one source (R155). -/
def alu2 (sp : Bool) (d a : Reg) (op : Word → Word) (s : State) : Host.Outcome State Fault Refusal :=
  seqInstr [a] [d] (fun s => alu s sp d [(1, s.rd a)] (op (s.rd a).bits)) s

/-- The sign-extended immediate of the RI form (R140). -/
def immOf (i : BitVec 36) : Word := i.signExtend 64

/-- 0 or 1 as a word. -/
def boolWord (b : Bool) : Word := if b then 1#64 else 0#64

/-- Bits [127:64] of the signed product (R158). -/
def mulHighS (a b : Word) : Word := ((a.signExtend 128 * b.signExtend 128) >>> 64).setWidth 64

/-- Bits [127:64] of the unsigned product (R158). -/
def mulHighU (a b : Word) : Word := ((a.setWidth 128 * b.setWidth 128) >>> 64).setWidth 64

/-- Signed quotient (R159). -/
def divS (a b : Word) : Word :=
  if b = 0#64 then BitVec.allOnes 64
  else if a = 0x8000000000000000#64 ∧ b = BitVec.allOnes 64 then 0x8000000000000000#64
  else BitVec.ofInt 64 (a.toInt.tdiv b.toInt)

/-- Signed remainder (R159). -/
def remS (a b : Word) : Word :=
  if b = 0#64 then a
  else if a = 0x8000000000000000#64 ∧ b = BitVec.allOnes 64 then 0#64
  else BitVec.ofInt 64 (a.toInt.tmod b.toInt)

/-- Unsigned quotient (R159). -/
def divU (a b : Word) : Word := if b = 0#64 then BitVec.allOnes 64 else BitVec.ofNat 64 (a.toNat / b.toNat)

/-- Unsigned remainder (R159). -/
def remU (a b : Word) : Word := if b = 0#64 then a else BitVec.ofNat 64 (a.toNat % b.toNat)

/-- The shift amount of a register form (R160). -/
def amt (b : Word) : Nat := b.toNat % 64

/-- Shift right with sign fill (R160). -/
def sar (a : Word) (n : Nat) : Word := a.sshiftRight n

/-- Count of leading zero bits (R160). -/
def clz64 (a : Word) : Nat := if a = 0#64 then 64 else 63 - Nat.log2 a.toNat

/-- Count of trailing zero bits (R160). -/
def ctz64 (a : Word) : Nat := if a = 0#64 then 64 else Nat.log2 (a &&& (0#64 - a)).toNat

/-- Count of one bits (R160). -/
def popc64 (a : Word) : Nat := ((List.range 64).filter (fun i => a.getLsbD i)).length

/-- The count n of a bit-field form: 0 stands for 64 (R161). -/
def lenOf (l : BitVec 6) : Nat := if l = 0#6 then 64 else l.toNat

/-- a[n−1:0], zero-extended (R161). -/
def zext64 (a : Word) (n : Nat) : Word := BitVec.ofNat 64 (a.toNat % 2 ^ n)

/-- a[n−1:0], sign-extended (R161). -/
def sext64 (a : Word) (n : Nat) : Word := BitVec.ofInt 64 (signedOf n (a.toNat % 2 ^ n))

/-- The old value with bits [p+n−1:p] replaced by a[n−1:0] (R161). -/
def insertBits (old a : Word) (p n : Nat) : Word :=
  let m : Word := BitVec.ofNat 64 ((2 ^ n - 1) * 2 ^ p)
  (old &&& ~~~m) ||| (zext64 a n <<< p)

/-- One round of Mix4 (R165). -/
def mixRound (key : Word) (st : Word × Word) (i rot : Nat) : Word × Word :=
  let ki := key + BitVec.ofNat 64 i * 0xA3C59D176B2EF401#64
  let x := st.1 + st.2 + ki
  (x, (st.2.rotateLeft rot) ^^^ x)

/-- Mix4 of R165. -/
def mix4 (lo hi key : Word) : Word :=
  let r := mixRound key (mixRound key (mixRound key (mixRound key (lo, hi) 0 13) 1 29) 2 41) 3 7
  r.1 ^^^ (r.2.rotateLeft 32)

/-! ### Meanings -/

/-- NOP: no effect but the program counter's (R144). -/
def execNop (s : State) : Host.Outcome State Fault Refusal := seqInstr [] [] .done s

/-- ADD: a + b (R158). -/
def execAdd (f : FR3) (s : State) : Host.Outcome State Fault Refusal :=
  alu3 f (fun a b => a + b) s

/-- SUB: a − b (R158). -/
def execSub (f : FR3) (s : State) : Host.Outcome State Fault Refusal :=
  alu3 f (fun a b => a - b) s

/-- MUL: the low half of the product (R158). -/
def execMul (f : FR3) (s : State) : Host.Outcome State Fault Refusal :=
  alu3 f (fun a b => a * b) s

/-- MULH (R158). -/
def execMulh (f : FR3) (s : State) : Host.Outcome State Fault Refusal :=
  alu3 f (fun a b => mulHighS a b) s

/-- MULHN (R158). -/
def execMulhn (f : FR3) (s : State) : Host.Outcome State Fault Refusal :=
  alu3 f (fun a b => mulHighU a b) s

/-- DIV (R159). -/
def execDiv (f : FR3) (s : State) : Host.Outcome State Fault Refusal :=
  alu3 f (fun a b => divS a b) s

/-- DIVN (R159). -/
def execDivn (f : FR3) (s : State) : Host.Outcome State Fault Refusal :=
  alu3 f (fun a b => divU a b) s

/-- REM (R159). -/
def execRem (f : FR3) (s : State) : Host.Outcome State Fault Refusal :=
  alu3 f (fun a b => remS a b) s

/-- REMN (R159). -/
def execRemn (f : FR3) (s : State) : Host.Outcome State Fault Refusal :=
  alu3 f (fun a b => remU a b) s

/-- AND (R160). -/
def execAnd (f : FR3) (s : State) : Host.Outcome State Fault Refusal :=
  alu3 f (fun a b => a &&& b) s

/-- OR (R160). -/
def execOr (f : FR3) (s : State) : Host.Outcome State Fault Refusal :=
  alu3 f (fun a b => a ||| b) s

/-- XOR (R160). -/
def execXor (f : FR3) (s : State) : Host.Outcome State Fault Refusal :=
  alu3 f (fun a b => a ^^^ b) s

/-- ANDN: a and not b (R160). -/
def execAndn (f : FR3) (s : State) : Host.Outcome State Fault Refusal :=
  alu3 f (fun a b => a &&& ~~~b) s

/-- SHL (R160). -/
def execShl (f : FR3) (s : State) : Host.Outcome State Fault Refusal :=
  alu3 f (fun a b => a <<< amt b) s

/-- SHR (R160). -/
def execShr (f : FR3) (s : State) : Host.Outcome State Fault Refusal :=
  alu3 f (fun a b => a >>> amt b) s

/-- SHRA (R160). -/
def execShra (f : FR3) (s : State) : Host.Outcome State Fault Refusal :=
  alu3 f (fun a b => sar a (amt b)) s

/-- ROTL (R160). -/
def execRotl (f : FR3) (s : State) : Host.Outcome State Fault Refusal :=
  alu3 f (fun a b => a.rotateLeft (amt b)) s

/-- MIN, signed (R158). -/
def execMin (f : FR3) (s : State) : Host.Outcome State Fault Refusal :=
  alu3 f (fun a b => if a.toInt < b.toInt then a else b) s

/-- MAX, signed (R158). -/
def execMax (f : FR3) (s : State) : Host.Outcome State Fault Refusal :=
  alu3 f (fun a b => if a.toInt < b.toInt then b else a) s

/-- MINN, unsigned (R158). -/
def execMinn (f : FR3) (s : State) : Host.Outcome State Fault Refusal :=
  alu3 f (fun a b => if a.toNat < b.toNat then a else b) s

/-- MAXN, unsigned (R158). -/
def execMaxn (f : FR3) (s : State) : Host.Outcome State Fault Refusal :=
  alu3 f (fun a b => if a.toNat < b.toNat then b else a) s

/-- SETEQ (R163). -/
def execSeteq (f : FR3) (s : State) : Host.Outcome State Fault Refusal :=
  alu3 f (fun a b => boolWord (a == b)) s

/-- SETLT, signed (R163). -/
def execSetlt (f : FR3) (s : State) : Host.Outcome State Fault Refusal :=
  alu3 f (fun a b => boolWord (decide (a.toInt < b.toInt))) s

/-- SETLTN, unsigned (R163). -/
def execSetltn (f : FR3) (s : State) : Host.Outcome State Fault Refusal :=
  alu3 f (fun a b => boolWord (decide (a.toNat < b.toNat))) s

/-- CLZ (R160). -/
def execClz (f : FR2) (s : State) : Host.Outcome State Fault Refusal :=
  alu2 f.sp f.d f.a (fun a => BitVec.ofNat 64 (clz64 a)) s

/-- CTZ (R160). -/
def execCtz (f : FR2) (s : State) : Host.Outcome State Fault Refusal :=
  alu2 f.sp f.d f.a (fun a => BitVec.ofNat 64 (ctz64 a)) s

/-- POPC (R160). -/
def execPopc (f : FR2) (s : State) : Host.Outcome State Fault Refusal :=
  alu2 f.sp f.d f.a (fun a => BitVec.ofNat 64 (popc64 a)) s

/-- SEXT (R161). -/
def execSext (f : FR2L) (s : State) : Host.Outcome State Fault Refusal :=
  alu2 f.sp f.d f.a (fun a => sext64 a (lenOf f.len)) s

/-- ZEXT (R161). -/
def execZext (f : FR2L) (s : State) : Host.Outcome State Fault Refusal :=
  alu2 f.sp f.d f.a (fun a => zext64 a (lenOf f.len)) s

/-- ADDSH: a + (b << LEN) (R158). -/
def execAddsh (f : FR3L) (s : State) : Host.Outcome State Fault Refusal :=
  seqInstr [f.a, f.b] [f.d]
    (fun s => alu s f.sp f.d [(1, s.rd f.a), (2, s.rd f.b)]
      ((s.rd f.a).bits + (s.rd f.b).bits <<< f.len.toNat)) s

/-- BFX (R161). -/
def execBfx (f : FR2PL) (s : State) : Host.Outcome State Fault Refusal :=
  alu2 f.sp f.d f.a (fun a => zext64 (a >>> f.pos.toNat) (lenOf f.len)) s

/-- BFI: D is a source too (R161). -/
def execBfi (f : FR2PL) (s : State) : Host.Outcome State Fault Refusal :=
  seqInstr [f.d, f.a] [f.d]
    (fun s => alu s f.sp f.d [(1, s.rd f.a), (4, s.rd f.d)]
      (insertBits (s.rd f.d).bits (s.rd f.a).bits f.pos.toNat (lenOf f.len))) s

/-- CSEL: the condition, then the selected arm, is consumed (R163). -/
def execCsel (f : FR4) (s : State) : Host.Outcome State Fault Refusal :=
  seqInstr [f.a, f.b, f.c] [f.d]
    (fun s =>
      let c := s.rd f.c
      let arm := if c.bits ≠ 0#64 then (1, s.rd f.a) else (2, s.rd f.b)
      alu s f.sp f.d [(3, c), arm] arm.2.bits) s

/-- POIS: consumes nothing, D clean (R164). -/
def execPois (f : FR2) (s : State) : Host.Outcome State Fault Refusal :=
  seqInstr [f.a] [f.d] (fun s => .done (s.wrc f.d (boolWord (s.rd f.a).pois))) s

/-- UNPOIS: consumes nothing, D clean (R164). -/
def execUnpois (f : FR2) (s : State) : Host.Outcome State Fault Refusal :=
  seqInstr [f.a] [f.d]
    (fun s => .done (s.wrc f.d (if (s.rd f.a).pois then 0#64 else (s.rd f.a).bits))) s

/-- CHASH: Mix4 (R165). -/
def execChash (f : FR4) (s : State) : Host.Outcome State Fault Refusal :=
  seqInstr [f.a, f.b, f.c] [f.d]
    (fun s => alu s f.sp f.d [(1, s.rd f.a), (2, s.rd f.b), (3, s.rd f.c)]
      (mix4 (s.rd f.a).bits (s.rd f.b).bits (s.rd f.c).bits)) s

/-- ADDI (R158). -/
def execAddi (f : FRI) (s : State) : Host.Outcome State Fault Refusal :=
  alu2 f.sp f.d f.a (fun a => a + immOf f.imm) s

/-- ANDI (R160). -/
def execAndi (f : FRI) (s : State) : Host.Outcome State Fault Refusal :=
  alu2 f.sp f.d f.a (fun a => a &&& immOf f.imm) s

/-- ORI (R160). -/
def execOri (f : FRI) (s : State) : Host.Outcome State Fault Refusal :=
  alu2 f.sp f.d f.a (fun a => a ||| immOf f.imm) s

/-- XORI (R160). -/
def execXori (f : FRI) (s : State) : Host.Outcome State Fault Refusal :=
  alu2 f.sp f.d f.a (fun a => a ^^^ immOf f.imm) s

/-- SHLI; IMM is 0 to 63 by decoding (R160). -/
def execShli (f : FRI) (s : State) : Host.Outcome State Fault Refusal :=
  alu2 f.sp f.d f.a (fun a => a <<< f.imm.toNat) s

/-- SHRI (R160). -/
def execShri (f : FRI) (s : State) : Host.Outcome State Fault Refusal :=
  alu2 f.sp f.d f.a (fun a => a >>> f.imm.toNat) s

/-- SHRAI (R160). -/
def execShrai (f : FRI) (s : State) : Host.Outcome State Fault Refusal :=
  alu2 f.sp f.d f.a (fun a => sar a f.imm.toNat) s

/-- LIH: IMM[27:0] above a[35:0] (R162). -/
def execLih (f : FRI) (s : State) : Host.Outcome State Fault Refusal :=
  alu2 f.sp f.d f.a (fun a => (f.imm.setWidth 64 <<< 36) ||| (a &&& 0xFFFFFFFFF#64)) s

/-- LI (R162). -/
def execLi (f : FRI1) (s : State) : Host.Outcome State Fault Refusal :=
  seqInstr [] [f.d] (fun s => .done (s.wrc f.d (immOf f.imm))) s

end Sys2Proof.Machine
end

