-- ==== Sys2Proof/Machine/Control.lean ====
section
/-! DEFINITION. The CTRL class (R166 to R186, R148). -/

namespace Sys2Proof.Machine

/-! ### Jumps and branches (R167 to R170) -/

/-- The target of a BR form: the address of the branch plus 8 × OFF (R140). -/
def branchTo (pc : Word) (off : BitVec 30) : Word := pc + (off.signExtend 64 <<< 3)

/-- A jump through a register, leaving s2: a target that is no multiple of 8 raises ALIGN with no effect
(R167). -/
def jumpTo (s s2 : State) (t : Word) : SeqOut :=
  if t &&& 7#64 = 0#64 then .jump s2 t else .trap s (Cause.seq cALIGN 0 t)

/-- J (R167). -/
def execJ (f : FOff) (s : State) : Host.Outcome State Fault Refusal :=
  seqInstr [] [] (fun s => .jump s (branchTo s.ctx.pc f.off)) s

/-- JL: D receives pc + 8 (R167). -/
def execJl (f : FDOff) (s : State) : Host.Outcome State Fault Refusal :=
  seqInstr [] [f.d] (fun s => .jump (s.wrc f.d (s.ctx.pc + 8#64)) (branchTo s.ctx.pc f.off)) s

/-- JR (R167). -/
def execJr (f : FAImm) (s : State) : Host.Outcome State Fault Refusal :=
  seqInstr [f.a] [] (fun s => consume s f.a 1 (fun a => jumpTo s s (a + immOf f.imm))) s

/-- JLR: the target uses the old A (R167). (DEDUCED, log 48) -/
def execJlr (f : FDAImm) (s : State) : Host.Outcome State Fault Refusal :=
  seqInstr [f.a] [f.d] (fun s => consume s f.a 1 (fun a =>
    jumpTo s (s.wrc f.d (s.ctx.pc + 8#64)) (a + immOf f.imm))) s

/-- A conditional branch: both sources are consumed (R166, R168). -/
def branchIf (f : FABOff) (p : Word → Word → Bool) (s : State) : Host.Outcome State Fault Refusal :=
  seqInstr [f.a, f.b] [] (fun s => consume s f.a 1 (fun a => consume s f.b 2 (fun b =>
    if p a b then .jump s (branchTo s.ctx.pc f.off) else .done s))) s

/-- BEQ (R168). -/
def execBeq (f : FABOff) (s : State) : Host.Outcome State Fault Refusal := branchIf f (fun a b => a == b) s

/-- BNE (R168). -/
def execBne (f : FABOff) (s : State) : Host.Outcome State Fault Refusal := branchIf f (fun a b => a != b) s

/-- BLT, signed (R168). -/
def execBlt (f : FABOff) (s : State) : Host.Outcome State Fault Refusal :=
  branchIf f (fun a b => decide (a.toInt < b.toInt)) s

/-- BGE, signed (R168). -/
def execBge (f : FABOff) (s : State) : Host.Outcome State Fault Refusal :=
  branchIf f (fun a b => decide (b.toInt ≤ a.toInt)) s

/-- BLTN, unsigned (R168). -/
def execBltn (f : FABOff) (s : State) : Host.Outcome State Fault Refusal :=
  branchIf f (fun a b => decide (a.toNat < b.toNat)) s

/-- BGEN, unsigned (R168). -/
def execBgen (f : FABOff) (s : State) : Host.Outcome State Fault Refusal :=
  branchIf f (fun a b => decide (b.toNat ≤ a.toNat)) s

/-- LOOP: A − 1 to A, a branch while it is nonzero (R169). -/
def execLoop (f : FAOff) (s : State) : Host.Outcome State Fault Refusal :=
  seqInstr [f.a] [f.a] (fun s => consume s f.a 1 (fun a =>
    let s1 := s.wrc f.a (a - 1#64)
    if a - 1#64 = 0#64 then .done s1 else .jump s1 (branchTo s.ctx.pc f.off))) s

/-! ### Task lifetime (R171 to R174) -/

/-- The conditions of R24 but for the release: queues empty, records owned by software, send data taken. -/
def State.mayHalt (s : State) : Bool :=
  let b := s.ctx.base
  b.qL.isEmpty && b.qX.isEmpty && b.qV.isEmpty && b.qS.isEmpty &&
  !(s.ctx.chans.any (fun e => e.2.run)) && !(s.ctx.sends.any (fun e => e.2.used && !e.2.taken && !e.2.err))

/-- A member's HALT retires: it gives up its core; the last one completes the task (R20, R24). -/
def State.haltMember (s : State) : State :=
  let id := s.ctx.id
  match s.ctx.task with
  | none => s.endCtx id true
  | some t => match s.findTask t with
    | none => s.endCtx id true
    | some k =>
      let rest := k.members.filter (fun m => m != id)
      let s1 := (s.putTask { k with members := rest }).endCtx id true
      if rest.isEmpty then s1.completeTask t 0 else s1

/-- HALT: ILLEGAL in a handler; open builds exist first; it waits until R24 holds (R171, R350). -/
def execHalt (s : State) : Host.Outcome State Fault Refusal :=
  seqInstr [] [] (fun s =>
    if s.ctx.inHandler then .trap s (Cause.seq cILLEGAL 0 (encode .halt))
    else
      let s1 := (s.finishBuilds (fun _ => true) 3).examineAll s.ctx.part.toNat
      if s1.mayHalt then .done s1.haltMember else .wait s1 .other false) s

/-- Renames a task: it takes a new posting order (R172). -/
def State.repost (s : State) (t : Task) : State × Task :=
  let k := { t with id := s.postSeq }
  let s1 := { s with
    tasks := s.tasks.filter (fun u => u.id != t.id) ++ [k], postSeq := s.postSeq + 1
    ctx := (if s.ctx.task = some t.id then { s.ctx with task := some k.id } else s.ctx)
    ctxs := s.ctxs.map (fun c => if c.task = some t.id then { c with task := some k.id } else c) }
  (s1, k)

/-- YIELD's switch: a READY task of earlier Key that takes this core, the least first; where there is none the task
goes on, under the posting order it took in step 1 (R172). (DESIGN CHOICE, log 53) -/
def State.yieldSwitch (s1 : State) (k : Task) : State :=
  let core := s1.ctx.core
  let without (u : Task) : State := s1.preemptTask u.members k
  let ready := sortBy Task.before ((without k).tasks.filter (fun u =>
    (without k).mayConsider k.runPart k.die u && u.id != k.id && u.before k))
  match ready.find? (fun u => (((without u).consider [] u).1.taskOn core).any (fun r => r.id == u.id)) with
  | some u => ((without u).consider [] u).1
  | none => s1

/-- YIELD retired: the task takes its new posting order; with a handler open, whose end a pre-emption waits for, the
switch is looked for then (R172, R352). (DESIGN CHOICE, log 53) -/
def State.yieldTo (s : State) (t : Task) : State :=
  let r := s.repost t
  if s.ctx.inHandler then r.1.putTask { r.2 with yielded := true } else r.1.yieldSwitch r.2

/-- YIELD: a voluntary pre-emption point of a crew of one (R172). -/
def execYield (s : State) : Host.Outcome State Fault Refusal :=
  let s1 := seqRun [] [] .done s
  match s.ctx.task with
  | none => .next s1
  | some t => match s1.findTask t with
    | none => .next s1
    | some k => .next (if k.crew = 1 ∧ k.state = .running then s1.yieldTo k else s1)

/-- BEAT: a progress event (R173). -/
def execBeat (s : State) : Host.Outcome State Fault Refusal :=
  seqInstr [] [] (fun s => .done s.progressEvent) s

/-- BRK: retires, then traps with IMM, zero-extended (R174). (DESIGN CHOICE, log 80) -/
def execBrk (f : FImm) (s : State) : Host.Outcome State Fault Refusal :=
  seqInstr [] [] (fun s => .after s (Cause.seq cBRK 0 (f.imm.setWidth 64))) s

/-! ### Time (R175 to R177) -/

/-- Guest wall time of a device: package time and its offset in force (R175, R384). -/
def State.guest (s : State) (v : Nat) : Word :=
  BitVec.ofInt 64 ((s.now : Int) + Sparse.get (fun _ => 0) s.voff v)

/-- TIME (R175): in a steward handler open in a tenant context, the offset is that of the context's device.
(DESIGN CHOICE, log 81) -/
def execTime (f : FD1) (s : State) : Host.Outcome State Fault Refusal :=
  seqInstr [] [f.d] (fun s => .done (s.wrc f.d (s.guest s.ctx.vdn.toNat))) s

/-- VCYC (R176). -/
def execVcyc (f : FD1) (s : State) : Host.Outcome State Fault Refusal :=
  seqInstr [] [f.d] (fun s => .done (s.wrc f.d (BitVec.ofNat 64 s.ctx.vcyc))) s

/-- WAITT as the sequencer runs it (R177). -/
def waittRun (f : FA1) (s : State) : State :=
  seqRun [f.a] [] (fun s => consume s f.a 1 (fun a =>
    if a.toNat ≤ (s.guest s.ctx.vdn.toNat).toNat then .done s else .wait s (.time a) false)) s

/-- WAITT (R177). -/
def execWaitt (f : FA1) (s : State) : Host.Outcome State Fault Refusal := .next (waittRun f s)

/-! ### Hardware work queues (R178 to R183) -/

/-- Records the status of a QPOP that retires (R183). -/
def State.setLast (s : State) (n : BitVec 2) : State := { s with ctx := { s.ctx with qlast := n } }

/-- QPOP as the sequencer runs it (R180, R33). -/
def qpopRun (f : FQPop) (s : State) : State :=
  seqRun [f.a] [f.d] (fun s => consume s f.a 1 (fun a =>
    match s.popQueue a f.scope.toNat with
    | .entry s1 v => .done (((s1.wr f.d v).setLast 0#2).progressEvent)
    | .ended s1 => .done (((s1.wrc f.d 0#64).setLast 2#2).progressEvent)
    | .empty s1 pa =>
      if f.tryF then .done (((s1.queueTake f.scope.toNat pa).wrc f.d 0#64).setLast 1#2) else .wait s1 (.pop (BitVec.ofNat 64 pa) none f.scope) false
    | .trap s1 c => .trap s1 c
    | .pushed s1 => .done s1
    | .full s1 _ => .done s1)) s

/-- QPOP (R180). -/
def execQpop (f : FQPop) (s : State) : Host.Outcome State Fault Refusal := .next (qpopRun f s)

/-- QPUSH: the value is consumed whatever its mark; D receives the status (R181, R52). -/
def execQpush (f : FQPush) (s : State) : Host.Outcome State Fault Refusal :=
  seqInstr [f.a, f.b] [f.d] (fun s => consume s f.a 1 (fun a => consume s f.b 2 (fun b =>
    match s.pushQueue a f.scope.toNat b with
    | .pushed s1 => .done (s1.wrc f.d 0#64)
    | .ended s1 => .done (s1.wrc f.d 2#64)
    | .full s1 pa => if f.tryF then .done ((s1.queueTake f.scope.toNat pa).wrc f.d 1#64)
      else .wait s1 (.push (BitVec.ofNat 64 pa)) false
    | .trap s1 c => .trap s1 c
    | .entry s1 _ => .done s1
    | .empty s1 _ => .done s1))) s

/-- Unbinds a queue register: it holds its held entry, or clean zero (R182). -/
def State.unbindQ (s : State) (n : Nat) : State :=
  let b := s.ctx.qbind n
  if b.desc.isNone then s
  else
    let s1 := s.setCtx (s.ctx.setQbind n QBinding.zero)
    s1.setBank (s1.bank.setS (56 + n) (b.held.getD SReg.zero))

/-- QBIND (R182). -/
def execQbind (f : FQBind) (s : State) : Host.Outcome State Fault Refusal :=
  seqInstr (if f.unb then [] else [f.a]) [] (fun s =>
    if f.unb then .done (s.unbindQ f.q.toNat)
    else consume s f.a 1 (fun a =>
      if a.toNat % 64 ≠ 0 then .trap s (Cause.seq cALIGN 0 a)
      else
        let s1 := s.unbindQ f.q.toNat
        .done (s1.setCtx (s1.ctx.setQbind f.q.toNat { desc := some a, scope := f.scope, held := none })))) s

/-! ### Posting work (R184, R186) -/

/-- A record read for posting: its bits, or the cause of a fault (R184, R96). -/
def State.readRecord (s : State) (va : Nat) : Except (State × Cause) Nat :=
  match s.xlateRange (vaWrap va) 128 .r with
  | .error e => .error e
  | .ok ps =>
    if s.homeMarked ps va 128 then .error (s, Cause.seq cUNCORR 0 (BitVec.ofNat 64 va))
    else .ok (natOfBytes (s.homeBytes ps va 128))

/-- Reads consecutive records. -/
def State.readRecords (s : State) (va : Nat) : Nat → Except (State × Cause) (List (Nat × Nat))
  | 0 => .ok []
  | n + 1 => match s.readRecord va with
    | .error e => .error e
    | .ok h => match s.readRecords (va + 128) n with
      | .error e => .error e
      | .ok hs => .ok ((va, h) :: hs)

/-- The status word of SPAWN (R184). -/
def spawnStatus (code ix : Nat) : Word := packWord [(8, 16, ix), (0, 8, code)]

/-- SPAWN: release, read and check every record, post them all or none (R184). (DESIGN CHOICE, log 24) -/
def execSpawn (f : FDAB) (s : State) : Host.Outcome State Fault Refusal :=
  seqInstr [f.a, f.b] [f.d] (fun s => consume s f.a 1 (fun a => consume s f.b 2 (fun b =>
    let n := b.toNat
    if n = 0 ∨ 256 < n then .done (s.wrc f.d (spawnStatus 2 0))
    else
      let p := s.ctx.part.toNat
      let s1 := s.releaseAll 3
      match s1.readRecords a.toNat n with
      | .error (s2, c) => .trap s2 c
      | .ok rs =>
        match rs.findIdx? (fun r => s1.recordBad p r.1 r.2) with
        | some i => .done (s1.wrc f.d (spawnStatus 1 i))
        | none =>
          let ts := rs.map (fun r => s1.taskOf p s1.ctx.vdn.toNat (BitVec.ofNat 64 r.1) r.2 none)
          if !s1.overflowRoom ts p then .done (s1.wrc f.d (spawnStatus 3 0))
          else .done ((s1.postAll ts p).wrc f.d (spawnStatus 0 0))))) s

/-- PHASE: quiet for the tag, the issuing task left out (R30, R186). -/
def execPhase (f : FPhase) (s : State) : Host.Outcome State Fault Refusal :=
  seqInstr [] [f.d] (fun s =>
    let q := s.quiet s.ctx.part.toNat f.tag s.ctx.task
    if f.wait && !q then .wait s .other false else .done (s.wrc f.d (boolWord q))) s

/-! ### Tokens (R148) -/

/-- TKGIVE: n tokens into sequencer→L, waiting for room (R148). -/
def execTkgive (f : FTk) (s : State) : Host.Outcome State Fault Refusal :=
  seqInstr [] [] (fun s =>
    let b := s.bank
    if Config.fifoDepth < b.fifo.sl + f.n.toNat then .wait s .other false
    else .done (s.setBank { b with fifo := { b.fifo with sl := b.fifo.sl + f.n.toNat } })) s

/-- TKTAKE: n tokens of L→sequencer, waiting for them (R148). -/
def execTktake (f : FTk) (s : State) : Host.Outcome State Fault Refusal :=
  seqInstr [] [] (fun s =>
    let b := s.bank
    if b.fifo.ls < f.n.toNat then .wait s .other false
    else .done (s.setBank { b with fifo := { b.fifo with ls := b.fifo.ls - f.n.toNat } })) s

end Sys2Proof.Machine
end

