-- ==== Sys2Proof/Machine/Flags.lean ====
section
/-! DEFINITION. The sticky flags of ESTAT (R48) and the engine control registers' writes (R44 to R49,
R228, R242, R267). -/

namespace Sys2Proof.Machine

/-- Sets flags of the running bank's ESTAT: an entry's flags, as it completes (R48). -/
def State.setFlags (s : State) (fl : BitVec 7) : State :=
  s.setBank { s.bank with estat := s.bank.estat ||| fl }

/-- A write of one to flags clears them (R48). -/
def clearFlags (old w : BitVec 7) : BitVec 7 := old &&& ~~~w

/-- The union of flags. -/
def orFlags (l : List (BitVec 7)) : BitVec 7 := l.foldl (fun a b => a ||| b) 0#7

/-- A write of VC: above 64 sets 64 (R45, R228). -/
def vcOf (w : Word) : BitVec 7 := if 64 < w.toNat then 64#7 else BitVec.ofNat 7 w.toNat

/-- A write of ASHAPE: 0 leaves it (R46). -/
def ashapeOf (old : BitVec 4) (w : Word) : BitVec 4 :=
  let n := w.setWidth 4
  if n = 0#4 then old else n

/-- A write of EMODE: a mode of 5 to 7 leaves RM (R47). -/
def emodeOf (old : BitVec 4) (w : Word) : BitVec 4 :=
  let rm := (w &&& 7#64).setWidth 4
  (w &&& 8#64).setWidth 4 ||| (if 5 ≤ rm.toNat then old &&& 7#4 else rm)

end Sys2Proof.Machine
end

