-- ==== Sys2Proof/Machine/Operands.lean ====
section
/-! DEFINITION. Engine entries: how the sequencer forwards one, how an engine runs it, tile lines as
operands (R10, R22, R40 to R44, R50 to R56, R141, R147, R223 to R225, R246, R265, R344, R350). -/

namespace Sys2Proof.Machine

/-! ### Lines (R40, R141) -/

/-- The cell of lane j of a line. -/
def lineCell (dir : BitVec 2) (i j : Nat) : Nat × Nat :=
  match dir.toNat with
  | 0 => (i, j)
  | 1 => (j, i)
  | 2 => (j, (j + i) % 64)
  | _ => (j, (i + 64 - j) % 64)

/-- The scalar registers a line operand reads. -/
def lineRegs (l : Line) : List Reg := if l.fromReg then [l.idx] else []

/-- The scalar registers a destination line reads. -/
def dlineRegs (l : DLine) : List Reg := if l.fromReg then [l.idx] else []

/-- A destination line as a source line. -/
def dlineLine (l : DLine) : Line :=
  { tile := l.tile, dir := l.dir, fromReg := l.fromReg, idx := l.idx, last := false }

/-! ### Forwarding (R41, R44, R224, R265) -/

/-- What the sequencer reads of an entry as it forwards it. -/
structure Taken where
  val : Word
  i1 : BitVec 6
  i2 : BitVec 6
  idst : BitVec 6
  bad : Bool
  sPend : Bool
  deriving DecidableEq, Repr

/-- Nothing read. -/
def Taken.none_ : Taken := { val := 0#64, i1 := 0#6, i2 := 0#6, idst := 0#6, bad := false, sPend := false }

/-- A line index: the field, or bits [5:0] of the register it names, which is a consumed address (R41). -/
def State.index (s : State) (fromReg : Bool) (idx : BitVec 6) : Except Cause (BitVec 6) :=
  if fromReg then
    let v := s.rd idx
    if v.pois then .error (Cause.poison 5) else .ok (v.bits.setWidth 6)
  else .ok idx

/-- EMODE.SPEC of the running bank (R44). -/
def State.spec (s : State) : Bool := s.bank.emode.getLsbD 3

/-- The stamp of an entry issued now (R44). -/
def State.stamp (s : State) : Stamp :=
  { vc := s.bank.vc, ashape := s.bank.ashape, emode := s.bank.emode, sqp := s.bank.sqp }

/-- The base register of an L or S entry as an address: a + SignExt(OFF), poison consumed (R224). -/
def State.engineAddr (s : State) (a : Reg) (off : BitVec 16) : Except Cause Word :=
  let v := s.rd a
  if v.pois then .error (Cause.poison 1) else .ok (v.bits + off.signExtend 64)

/-- Alignment and range of a scratchpad access at forwarding: whether the entry is queued with a failed
range (R224 steps 2 and 3, R265). -/
def State.padRange (s : State) (ad : Word) (align n : Nat) : Except Cause Bool :=
  if ad.toNat % align ≠ 0 then .error (Cause.seq cALIGN 0 ad)
  else if n ≠ 0 ∧ s.ctx.spSize < ad.toNat + n then
    if s.spec then .ok true else .error (Cause.seq cDATA 0 ad)
  else .ok false

/-- A handler may not write a protected tile register (R350). -/
def State.tileWritable (s : State) (t : Nat) : Except Cause Unit :=
  if s.ctx.tileProtected t then .error (Cause.seq cLOCK 0 (BitVec.ofNat 64 t)) else .ok ()

/-- A handler may not write a protected plane (R350). -/
def State.planeWritable (s : State) (p : Nat) : Except Cause Unit :=
  if s.ctx.planeProtected p then .error (Cause.seq cLOCK 0 (BitVec.ofNat 64 (128 + p))) else .ok ()

/-- A handler may not change the array's state: no bank code names it, so TVAL[7:0] is free (R350).
(DESIGN CHOICE, log 21) -/
def State.arrayWritable (s : State) : Except Cause Unit :=
  if s.ctx.inHandler then .error (Cause.seq cLOCK 0 (s.freshBits 0 &&& 0xFF#64)) else .ok ()

/-- Depth of a queue: a handler's shelves hold 8 (R10, R349). -/
def State.depth (s : State) (e : Eng) : Nat :=
  if s.ctx.inHandler then Config.depthShelf
  else match e with
    | .l => Config.depthL
    | .x => Config.depthX
    | .v => Config.depthV
    | .s => Config.depthS

/-- Enters an instruction into its queue; a full queue stalls the sequencer (R10, R349). -/
def enqueue (e : Eng) (i : Instr) (t : Taken) (s : State) : SeqOut :=
  let b := s.bank
  if s.depth e ≤ (b.queue e).length then .wait s .full false
  else
    let en : Entry :=
      { instr := i, val := t.val, i1 := t.i1, i2 := t.i2, idst := t.idst, bad := t.bad, sPend := t.sPend,
        popsTaken := false, pushOwed := false, rows := 0, offs := [], late := [], stall := .none, stamp := s.stamp
        addr := s.ctx.pc }
    .done (s.setBank (b.setQueue e (b.queue e ++ [en])))

/-- Forwards an instruction: what the sequencer reads of it and its checks, then its queue. -/
def forward (e : Eng) (i : Instr) (read : State → Except Cause Taken) (s : State) : SeqOut :=
  match read s with
  | .error c => .trap s.useFree c
  | .ok t => enqueue e i t s

/-! ### Tokens (R147) -/

/-- The FIFOs an entry pops, as places of R353's order. -/
def popsOf (e : Eng) (t : Tok) : List Nat :=
  let pick (b : Bool) (n : Nat) : List Nat := if b then [n] else []
  match e with
  | .l => pick t.wl 0 ++ pick t.wr 3
  | .x => pick t.wl 2 ++ pick t.wr 5
  | .v => pick t.wl 4 ++ pick t.wr 7
  | .s => pick t.wl 6

/-- The FIFOs an entry pushes. -/
def pushesOf (e : Eng) (t : Tok) : List Nat :=
  let pick (b : Bool) (n : Nat) : List Nat := if b then [n] else []
  match e with
  | .l => pick t.gl 1 ++ pick t.gr 2
  | .x => pick t.gl 3 ++ pick t.gr 4
  | .v => pick t.gl 5 ++ pick t.gr 6
  | .s => pick t.gl 7

/-- The count of a FIFO. -/
def Fifos.at (f : Fifos) (n : Nat) : Nat := f.list.getD n 0

/-- Replaces the count of a FIFO. -/
def Fifos.put (f : Fifos) (n v : Nat) : Fifos := fifosOf (f.list.set n v)

/-- Takes one token of each FIFO named, at once; none where one holds none. -/
def Fifos.pop (f : Fifos) (ns : List Nat) : Option Fifos :=
  if ns.all (fun n => f.at n != 0) then some (ns.foldl (fun f n => f.put n (f.at n - 1)) f) else none

/-- Pushes one token into each FIFO named, at once; none where one of them is full. (DESIGN CHOICE, log 60) -/
def Fifos.push (f : Fifos) (ns : List Nat) : Option Fifos :=
  if ns.all (fun n => decide (f.at n < Config.fifoDepth)) then some (ns.foldl (fun f n => f.put n (f.at n + 1)) f)
  else none

/-! ### Running an entry (R147, R344) -/

/-- How an engine's turn on an entry ends: complete; a fault, with what stays of it; a wait, with what a counter
counts of it; or part of the work, the entry staying in its place. -/
inductive EngOut where
  | done (s : State)
  | fault (s : State) (code sub : BitVec 8)
  | wait (s : State) (w : Stall)
  | part (s : State)

/-- How many entries at the head of X's queue have done their work and still have pushes to make: later X entries
may be under way behind them (R147, R240). The other engines have one entry under way. -/
def RegBank.lead (b : RegBank) : Eng → Nat
  | .x => (b.qX.takeWhile Entry.pushOwed).length
  | _ => 0

/-- Replaces the entry that an engine of the running bank has under way. -/
def State.setHead (s : State) (e : Eng) (en : Entry) : State :=
  let b := s.bank
  let q := b.queue e
  s.setBank (b.setQueue e (q.take (b.lead e) ++ en :: (q.drop (b.lead e)).tail))

/-- The entry that an engine of the running bank has under way, changed. -/
def State.onHead (s : State) (e : Eng) (f : Entry → Entry) : State :=
  match (s.bank.queue e).drop (s.bank.lead e) with
  | en :: _ => s.setHead e (f en)
  | [] => s

/-- The entry at an engine's head is complete: the current it held is free (R341). -/
def State.freeCurrent (s : State) : Eng → State
  | .x => s.freeReserve .x
  | .v => s.freeReserve .v
  | _ => s

/-- An entry's pushes, after which it leaves its queue; a full FIFO keeps it with the push owed (R147). -/
def pushOut (e : Eng) (en : Entry) (tok : Tok) (sa : State) : State :=
  let s := sa.freeCurrent e
  let b := s.bank
  match b.fifo.push (pushesOf e tok) with
  | some f => s.setBank { (b.setQueue e (b.queue e).tail) with fifo := f }
  | none => s.setBank (b.setQueue e ({ en with popsTaken := true, pushOwed := true, sPend := false } :: (b.queue e).tail))

/-! ### Lines in part (R248) -/

/-- The cells of one table that differ from another's. -/
def changedCells {α : Type} [DecidableEq α] (d : Nat → α) (old new : Sparse α) : List Nat :=
  (((old ++ new).map Prod.fst).dedup).filter (fun n => Sparse.get d old n != Sparse.get d new n)

/-- The cells of tile registers and planes that an entry's work has changed, with the values it gave them. -/
def Ctx.written (old new : Ctx) : List LateCell :=
  (List.range 16).flatMap (fun t =>
    if (new.tile t).state = .full then
      (changedCells (fun _ => Cell.zero) (old.tile t).cells (new.tile t).cells).map (fun n =>
        let v := Sparse.get (fun _ => Cell.zero) (new.tile t).cells n
        { reg := t, cell := n, bits := v.bits.toNat, pois := v.pois })
    else []) ++
  (List.range 2).flatMap (fun p =>
    (changedCells (fun _ => PCell.zero) (old.plane p).cells (new.plane p).cells).map (fun n =>
      let v := Sparse.get (fun _ => PCell.zero) (new.plane p).cells n
      { reg := 16 + p, cell := n, bits := v.bits.toNat, pois := v.pois }))

/-- The same places with the values they had before. -/
def Ctx.before (old : Ctx) (l : List LateCell) : List LateCell :=
  l.map (fun x =>
    if x.reg < 16 then
      let v := Sparse.get (fun _ => Cell.zero) (old.tile x.reg).cells x.cell
      { x with bits := v.bits.toNat, pois := v.pois }
    else
      let v := Sparse.get (fun _ => PCell.zero) (old.plane (x.reg - 16)).cells x.cell
      { x with bits := v.bits.toNat, pois := v.pois })

/-- The cells that a turn which performs a part leaves to a later turn: any of those that the work changed.
(DESIGN CHOICE, log 10) -/
def State.leaves (s : State) (old : Ctx) : List LateCell :=
  if s.parts then ((old.written s.ctx).zipIdx.filter (fun x => (s.freshBits (65536 + x.2)).getLsbD 0)).map Prod.fst else []

/-- An entry's work with some of its cells not yet written, which the entry keeps (R248). -/
def State.holdCells (s : State) (e : Eng) (old : Ctx) : State :=
  match s.leaves old with
  | [] => s
  | l => ((s.setCtx (s.ctx.putLate (old.before l))).onHead e (fun en => { en with late := l })).useFree

/-- An entry's work is done. Its pushes are made, where no earlier entry's stand before them; a turn that performs a
part leaves them, and cells of its lines, to later turns: so X entries overlap (R147, R240, R248).
(DESIGN CHOICE, log 10) -/
def State.complete (s : State) (e : Eng) (en : Entry) (tok : Tok) (old : Ctx) : State :=
  if s.bank.lead e = 0 ∧ (s.leaves old).isEmpty = true ∧ (s.parts && e == .x) = false then pushOut e en tok s
  else
    let l := s.leaves old
    let s1 := (s.freeCurrent e).setHead e { en with popsTaken := false, pushOwed := true, sPend := false, late := l }
    (s1.setCtx (s1.ctx.putLate (old.before l))).useFree

/-- An engine fault: latched for base code; of a handler's shelf entry, to the steward at once (R344,
R346). (DEDUCED, log 22) -/
def State.engineFault (s : State) (e : Eng) (code sub : BitVec 8) (addr : Word) : State :=
  if s.ctx.inHandler then
    { s with ctx := s.ctx.settleLate }.takeTrap { code := code, sub := sub, unit := e.num + 1, ch := 0, async := false, val := addr } s.ctx.pc
  else s.latchFault e code sub addr

/-- An engine's turn on an entry: the cells it has yet to write; or its token pops, the work, the release of REL, the
pushes (R133, R147, R248, R344). (DESIGN CHOICE, log 10) -/
def engineRun (e : Eng) (en : Entry) (tok : Tok) (rel : Option Nat) (work : Entry → State → EngOut)
    (s : State) : State :=
  if !en.late.isEmpty then { s with ctx := s.ctx.settleLate }
  else if en.pushOwed then pushOut e en tok s
  else
    let b := s.bank
    match (if en.popsTaken then some b.fifo else b.fifo.pop (popsOf e tok)) with
    | none => s
    | some f =>
      let en1 := { en with popsTaken := true, stall := .none }
      let s1 := (s.setBank { b with fifo := f }).setHead e en1
      match work en1 s1 with
      | .wait s2 w => s2.onHead e (fun x => { x with stall := w })
      | .part s2 => s2.holdCells e s1.ctx
      | .done s2 =>
        (match rel with
          | some sc => s2.releaseAll sc
          | none => s2).complete e en1 tok s1.ctx
      | .fault s2 code sub => (s2.complete e en1 tok s1.ctx).engineFault e code sub en.addr

/-- An engine word: the sequencer forwards it; an engine runs it (R21). -/
def engineInstr (e : Eng) (i : Instr) (tok : Tok) (rel : Option Nat) (srcs : List Reg)
    (read : State → Except Cause Taken) (work : Entry → State → EngOut) (s : State) :
    Host.Outcome State Fault Refusal :=
  match s.acting with
  | none => seqInstr srcs [] (forward e i read) s
  | some (_, en) => .next (engineRun e en tok rel work { s with acting := none })

/-- REL's scope, where an entry carries it (R133). -/
def relScope (rel : Bool) (sc : BitVec 3) : Option Nat := if rel then some sc.toNat else none

/-! ### Tile registers as operands of an entry (R50, R54 to R56) -/

/-- Whether an entry may go on: ready, with the tile registers it reads as OFF under SPEC; a wait; or a
fault. -/
inductive Prep where
  | ok (s : State) (off : List Nat)
  | wait (s : State) (w : Stall)
  | fault (code sub : BitVec 8)

/-- Starts the wake of a tile register that sleeps. -/
def Ctx.wakeTile (c : Ctx) (t : Nat) : Ctx :=
  if (c.tile t).state = .retain ∨ (c.tile t).state = .off then c.setTile t (c.tile t).wake else c

/-- Starts the wakes of tile registers. -/
def Ctx.wakeTiles (c : Ctx) (ts : List Nat) : Ctx := ts.foldl Ctx.wakeTile c

/-- Readies an entry's source tile registers, its destination's presence and lock checked first (R50,
R54). (DESIGN CHOICE, log 45) -/
def prepTiles (spec : Bool) (srcs : List Nat) (dst : Option Nat) (s : State) : Prep :=
  let c := s.ctx
  match (srcs ++ dst.toList).find? (fun t => (c.tile t).state == .absent) with
  | some t => .fault cABSENT (BitVec.ofNat 8 t)
  | none =>
    if dst.any (fun t => (c.tile t).lock) then .wait s .lock
    else
      let off := srcs.filter (fun t => (c.tile t).state == .off)
      match (if spec then [] else off) with
      | t :: _ => .fault cDROPPED (BitVec.ofNat 8 t)
      | [] =>
        let on := srcs.filter (fun t => !off.contains t)
        let c1 := c.wakeTiles on
        let s1 := s.setCtx c1
        if on.all (fun t => (c1.tile t).ready) then .ok s1 off else .wait s1 .wake

/-- Readies the destination: a register that is RETAIN or OFF is woken, and its wake is waited for; false while it
wakes (R54, R55). -/
def readyDst (t : Nat) (s : State) : State × Bool :=
  let c1 := s.ctx.wakeTiles [t]
  (s.setCtx c1, (c1.tile t).ready)

/-- A source cell as an entry reads it: of a register that is OFF, poisoned (R54). -/
def srcCell (s : State) (off : List Nat) (t : Nat) (dir : BitVec 2) (i j : Nat) : Nat × Bool :=
  if off.contains t then (0, true)
  else
    let rc := lineCell dir i j
    let v := s.ctx.cell t rc.1 rc.2
    (v.bits.toNat, v.pois)

/-- A cell as an entry writes it; the bits of a poisoned one are free (R51). (DESIGN CHOICE, log 6) -/
def newCell (s : State) (k : Nat) (v : Nat × Bool) : Cell :=
  if v.2 then { bits := (s.freshBits k).setWidth 32, pois := true } else { bits := BitVec.ofNat 32 v.1, pois := false }

/-- Writes lanes of a line. -/
def putLine (s : State) (t : Nat) (dir : BitVec 2) (i : Nat) (vals : List (Nat × (Nat × Bool))) : State :=
  let tl := vals.foldl (fun (tl : Tile) e =>
    let rc := lineCell dir i e.1
    tl.put rc.1 rc.2 (newCell s (64 * i + e.1) e.2)) (s.ctx.tile t)
  s.setCtx (s.ctx.setTile t tl)

/-- Writes every cell of a tile register, by row and column. -/
def putTile (s : State) (t : Nat) (f : Nat → Nat → Nat × Bool) : State :=
  s.setCtx (s.ctx.setTile t { (s.ctx.tile t) with
    cells := sparseOf (fun _ => Cell.zero) 4096 (fun n => newCell s n (f (n / 64) (n % 64))) })

/-- The last uses of an entry, after its reads: cancelled for a register it also writes (R56). -/
def lastUses (s : State) (off : List Nat) (ls : List Line) (dst : Option Nat) : State :=
  s.setCtx (ls.foldl (fun c l =>
    let t := l.tile.toNat
    if l.last && !off.contains t && dst != some t then c.tileLastUse t else c) s.ctx)

/-! ### Scratchpad reads of an entry (R54, R225) -/

/-- Readies spans of scratchpad bytes: banks that are OFF fault, or under SPEC are read as poison; banks
that sleep are woken. (DESIGN CHOICE, log 45) -/
def prepPad (spec : Bool) (spans : List (Nat × Nat)) (s : State) : Prep :=
  let c := s.ctx
  let bs := (spans.flatMap (fun sp => banksOf sp.1 sp.2)).dedup
  let off := bs.filter (fun b => (c.padBank b).state == .off)
  match (if spec then [] else off) with
  | b :: _ => .fault cDROPPED (BitVec.ofNat 8 (64 + b))
  | [] =>
    let (c1, ok) := c.padWakeAll (bs.filter (fun b => !off.contains b))
    if ok then .ok (s.setCtx c1) off else .wait (s.setCtx c1) .wake

/-- Readies spans of scratchpad bytes to be written: banks that sleep or are OFF are woken (R55). -/
def prepPadWrite (spans : List (Nat × Nat)) (s : State) : State × Bool :=
  let (c1, ok) := s.ctx.padWakeAll (spans.flatMap (fun sp => banksOf sp.1 sp.2)).dedup
  (s.setCtx c1, ok)

/-- Whether any of n scratchpad bytes is poisoned as an entry reads it: a marked granule or a bank that
is OFF. -/
def padBad (c : Ctx) (off : List Nat) (a n : Nat) : Bool :=
  c.padPoison a n || (banksOf a n).any (fun b => off.contains b)

/-- A little-endian number of n scratchpad bytes and its poison. -/
def padNum (c : Ctx) (off : List Nat) (a n : Nat) : Nat × Bool :=
  (natOfBytes (c.padBytes a n), padBad c off a n)

/-- The 64-byte chunks of byte spans, those next to each other once. -/
def chunksOf (spans : List (Nat × Nat)) : List Nat :=
  (spans.flatMap (fun sp =>
    if sp.2 = 0 then [] else (List.range ((sp.1 + sp.2 - 1) / 64 + 1 - sp.1 / 64)).map (fun i => sp.1 / 64 + i))).foldr
    (fun k l => if l.head? = some k then l else k :: l) []

/-- The cycles that an access of these chunks keeps the port beyond a quarter of them: chunks of one sub-bank of one
bank follow each other (R83). -/
def portConflict (chunks : List Nat) : Nat :=
  let cs := chunks.dedup
  let places := cs.map (fun k => 4 * (k / 256) + k % 4)
  let most := (places.dedup.map (fun p => places.count p)).foldl max 0
  max (ceilDiv cs.length 4) most - ceilDiv cs.length 4

/-- The bank-conflict cycles of an entry's access counted (R83, R308). (DESIGN CHOICE, log 17) -/
def State.countPort (s : State) (spans : List (Nat × Nat)) : State :=
  let n := portConflict (chunksOf spans)
  if n = 0 then s else s.pmcAdd s.ctx.vdn.toNat 6 n

/-- The same for an agent off the cores that accesses the scratchpad of a context of a device (R83, R276, R309).
(DESIGN CHOICE, log 17) -/
def State.countAgentPort (s : State) (v : Nat) (spans : List (Nat × Nat)) : State :=
  s.pmcAgent v 6 (portConflict (chunksOf spans))

/-- SLU: the last use of the spans an entry has read (R57). -/
def sluSpans (slu : Bool) (spans : List (Nat × Nat)) (s : State) : State :=
  if slu then s.setCtx (spans.foldl (fun c sp => c.padLastUse sp.1 sp.2) s.ctx) else s

end Sys2Proof.Machine
end

