-- ==== Sys2Proof/Machine/Load.lean ====
section
/-! DEFINITION. The L class (R223 to R234). -/

namespace Sys2Proof.Machine

/-! ### Shared work -/

/-- Whether an entry is speculative (R44). -/
def Entry.spec (en : Entry) : Bool := en.stamp.spec

/-- What an L entry reads at forwarding: A as an address, the line index, alignment to 64 and range
(R224). `dst` is the tile register it writes, `arr` whether it changes the array's state (R350). -/
def lRead (f : FLN) (n : Nat) (dst : Option Nat) (arr : Bool) (s : State) : Except Cause Taken := do
  let ad ← s.engineAddr f.a f.off
  let i ← s.index f.line.fromReg f.line.idx
  let bad ← s.padRange ad 64 n
  if let some t := dst then s.tileWritable t
  if arr then s.arrayWritable
  return { Taken.none_ with val := ad, i1 := i, bad := bad }

/-- What an L entry whose A gives a value reads at forwarding (R224 step 1). -/
def lValue (f : FLN) (arr : Bool) (s : State) : Except Cause Taken := do
  let v ← s.engineAddr f.a f.off
  if arr then s.arrayWritable
  return { Taken.none_ with val := v }

/-- The work of an L entry: its reads, then its destination. `put` writes what a reader of scratchpad
numbers gives; a range that failed under SPEC reads as poison (R224, R225). -/
def lWork (slu : Bool) (spans : List (Nat × Nat)) (dst : Option Nat)
    (put : (Nat → Nat → Nat × Bool) → State → State) (en : Entry) (s : State) : EngOut :=
  match prepTiles en.spec [] dst s with
  | .fault c k => .fault s c k
  | .wait s1 w => .wait s1 w
  | .ok s1 _ =>
    match (if en.bad then Prep.ok s1 [] else prepPad en.spec spans s1) with
    | .fault c k => .fault s c k
    | .wait s2 w => .wait s2 w
    | .ok s2 off =>
      let (s3, ready) := match dst with
        | some t => readyDst t s2
        | none => (s2, true)
      if !ready then .wait s3 .wake
      else
        let rd : Nat → Nat → Nat × Bool := if en.bad then fun _ _ => (0, true) else padNum s3.ctx off
        let s4 := (put rd s3).useFree
        .done (if en.bad then s4 else sluSpans slu spans (s4.countPort spans))

/-- Bytes of a number as stored, free where poisoned (R51). -/
def freeOr (s : State) (k n : Nat) (v : Nat × Bool) : List Byte :=
  if v.2 then (List.range n).map (fun i => (s.freshBits (k + i)).setWidth 8) else bytesOfNat n v.1

/-- Replaces the shadow plane; it is written (R354). -/
def State.setShadow (s : State) (p : WPlane) : State :=
  { s with ctx := { s.ctx with shadow := { p with zmask := false } } }

/-- Writes 4-byte groups of a plane row from byte b0: n groups, their values by a reader (R223). -/
def WPlane.putRow (s : State) (p : WPlane) (row b0 n : Nat) (g : Nat → Nat × Bool) : WPlane :=
  (List.range n).foldl (fun p k =>
    let v := g k
    { p with
      bytes := Sparse.setList memDefault p.bytes (256 * row + b0 + 4 * k) (freeOr s (256 * row + b0 + 4 * k) 4 v)
      pois := Sparse.set (fun _ => false) p.pois (64 * row + b0 / 4 + k) v.2 }) p

/-- The presence bits of a course (R223). -/
def courseBits (c : Nat) : BitVec 32 := BitVec.ofNat 32 (255 * 2 ^ (8 * c))

/-- A poisoned image: every element zero and poisoned, every presence bit set (R232). -/
def WPlane.poisonAll (p : WPlane) : WPlane :=
  { p with bytes := [], pois := sparseOf (fun _ => false) 4096 (fun _ => true), presence := BitVec.allOnes 32 }

/-- A feed offset register (R49). -/
def Ctx.foffAt (c : Ctx) (n : Nat) : BitVec 32 := Sparse.get (fun _ => 0#32) c.foff n

/-- Replaces a feed offset register. -/
def Ctx.setFoff (c : Ctx) (n : Nat) (v : BitVec 32) : Ctx :=
  { c with foff := Sparse.set (fun _ => 0#32) c.foff n v }

/-! ### Tile loads (R226, R227) -/

/-- LLINE: 64 cells of one line (R226). -/
def execLline (f : FLN) (s : State) : Host.Outcome State Fault Refusal :=
  let t := f.line.tile.toNat
  engineInstr .l (.lline f) f.tok (relScope f.rel f.scope) ([f.a] ++ lineRegs f.line) (lRead f 256 (some t) false)
    (fun en => lWork f.slu [(en.val.toNat, 256)] (some t) (fun rd s =>
      putLine s t f.line.dir en.i1.toNat ((List.range 64).map (fun j => (j, rd (en.val.toNat + 4 * j) 4)))) en) s

/-- Bytes from a row of LTILE to the next (R226). -/
def tilePitch (param : BitVec 6) : Nat := 256 + 64 * param.toNat

/-- LTILE: a whole tile register, row by row (R226). -/
def execLtile (f : FLN) (s : State) : Host.Outcome State Fault Refusal :=
  let t := f.line.tile.toNat
  let p := tilePitch f.param
  engineInstr .l (.ltile f) f.tok (relScope f.rel f.scope) [f.a] (lRead f (63 * p + 256) (some t) false)
    (fun en => lWork f.slu ((List.range 64).map (fun r => (en.val.toNat + r * p, 256))) (some t)
      (fun rd s => putTile s t (fun r j => rd (en.val.toNat + r * p + 4 * j) 4)) en) s

/-- Element bytes of LTRANS and STRANS (R226). -/
def transBytes (param : BitVec 6) : Nat := 4 / 2 ^ (param.toNat / 16)

/-- Bytes from a row of LTRANS to the next (R226). -/
def transPitch (param : BitVec 6) : Nat := 64 * (param.toNat % 16 + 1)

/-- A cell of e-byte elements, the first lowest (R42). -/
def packElems (e : Nat) (vs : List (Nat × Bool)) : Nat × Bool :=
  (packBits (8 * e) (vs.map Prod.fst), vs.any Prod.snd)

/-- LTRANS: element k of tile row i from element i of memory row k (R226). -/
def execLtrans (f : FLN) (s : State) : Host.Outcome State Fault Refusal :=
  let t := f.line.tile.toNat
  let e := transBytes f.param
  let p := transPitch f.param
  engineInstr .l (.ltrans f) f.tok (relScope f.rel f.scope) [f.a]
    (lRead f ((256 / e - 1) * p + 64 * e) (some t) false)
    (fun en => lWork f.slu ((List.range (256 / e)).map (fun k => (en.val.toNat + k * p, 64 * e))) (some t)
      (fun rd s => putTile s t (fun i col =>
        packElems e ((List.range (4 / e)).map (fun q => rd (en.val.toNat + (col * (4 / e) + q) * p + e * i) e)))) en) s

/-- LZERO: a whole tile register to clean zero (R227). -/
def execLzero (f : FLN) (s : State) : Host.Outcome State Fault Refusal :=
  let t := f.line.tile.toNat
  engineInstr .l (.lzero f) f.tok none []
    (fun s => do
      s.tileWritable t
      return Taken.none_)
    (lWork false [] (some t) (fun _ s => putTile s t (fun _ _ => (0, false)))) s

/-- LVC: VC changes as the sequencer issues it; its entry only moves tokens (R228, R44). -/
def execLvc (f : FLN) (s : State) : Host.Outcome State Fault Refusal :=
  match s.acting with
  | none => seqInstr [f.a] [] (fun s =>
      match forward .l (.lvc f) (lValue f false) s with
      | .done s1 => .done (s1.setBank { s1.bank with vc := vcOf ((s.rd f.a).bits + f.off.signExtend 64) })
      | o => o) s
  | some (_, en) => .next (engineRun .l en f.tok none (fun _ s => .done s) { s with acting := none })

/-! ### The matrix-feed slot (R229, R230) -/

/-- LSETF: feed offset registers set or advanced, in L-queue order (R229). -/
def execLsetf (f : FLN) (s : State) : Host.Outcome State Fault Refusal :=
  let ns := if f.param.getLsbD 3 then List.range 8 else [f.param.toNat % 8]
  engineInstr .l (.lsetf f) f.tok none [f.a] (lValue f true)
    (fun en s => .done (s.setCtx (ns.foldl (fun c n =>
      let v := en.val.setWidth 32
      c.setFoff n (if f.param.getLsbD 4 then c.foffAt n + v else v)) s.ctx))) s

/-- The scratchpad spans of an LFEED's next row (R230). -/
def feedSpans (param : BitVec 6) (c : Ctx) : List (Nat × Nat) :=
  let w := if param.getLsbD 5 then 128 else 64
  if param.getLsbD 4 then (List.range 8).map (fun n => ((c.foffAt n).toNat, w / 8)) else [((c.foffAt 0).toNat, w)]

/-- The feed offset registers after a row (R230). -/
def feedStep (param : BitVec 6) (d : BitVec 32) (c : Ctx) : Ctx :=
  (if param.getLsbD 4 then List.range 8 else [0]).foldl (fun c n => c.setFoff n (c.foffAt n + d)) c

/-- A feed row of the bytes of its spans; a poisoned span's groups are poisoned (R223, R230). -/
def feedRow (s : State) (spans : List (Nat × Nat)) (rd : Nat → Nat → Nat × Bool) : FeedRow :=
  let bs := spans.flatMap (fun sp => (List.range sp.2).map (fun i => rd (sp.1 + i) 1))
  let pois (g : Nat) : Bool := ((bs.drop (4 * g)).take 4).any Prod.snd
  { bytes := Sparse.setList memDefault [] 0 (bs.mapIdx (fun i v => (freeOr s i 1 (v.1, pois (i / 4))).headD 0#8))
    pois := Sparse.setList (fun _ => false) [] 0 ((List.range 32).map pois) }

/-- A feed row with every byte poisoned (R230). -/
def badRow (s : State) : FeedRow :=
  { bytes := Sparse.setList memDefault [] 0 (freeOr s 0 128 (0, true))
    pois := Sparse.setList (fun _ => false) [] 0 (List.replicate 32 true) }

/-- A row of an LFEED pushed: the slot, the registers, the entry's count (R230). -/
def feedPush (f : FLN) (en : Entry) (row : FeedRow) (slu : Bool) (s : State) : EngOut :=
  let s1 := sluSpans slu (feedSpans f.param s.ctx) s
  let s2 := (s1.setCtx (feedStep f.param (en.val.setWidth 32) { s1.ctx with feed := s1.ctx.feed ++ [row] })).useFree
  if en.rows = f.param.toNat % 16 then .done s2 else .part (s2.setHead .l { en with rows := en.rows + 1 })

/-- LFEED: one row a turn, while the slot has room; its rows before a fault stay (R230). Of a segmented row with one
read misaligned and another out of range, the alignment is reported. (DESIGN CHOICE, log 75) -/
def execLfeed (f : FLN) (s : State) : Host.Outcome State Fault Refusal :=
  engineInstr .l (.lfeed f) f.tok (relScope f.rel f.scope) [f.a] (lValue f true)
    (fun en s =>
      if 16 ≤ s.ctx.feed.length then .wait s .none
      else
        let spans := feedSpans f.param s.ctx
        let align := if f.param.getLsbD 4 then (if f.param.getLsbD 5 then 16 else 8) else 8
        let code := if spans.any (fun sp => sp.1 % align != 0) then some cALIGN
          else if spans.any (fun sp => decide (s.ctx.spSize < sp.1 + sp.2)) then some cDATA else none
        match code with
        | some c => if en.spec then feedPush f en (badRow s) false s else .fault s c 0#8
        | none =>
          match prepPad en.spec spans s with
          | .fault c k => .fault s c k
          | .wait s1 w => .wait s1 w
          | .ok s1 off => feedPush f en (feedRow s1 spans (padNum s1.ctx off)) f.slu (s1.countPort spans)) s

/-! ### Weights, sparse blocks and masks (R231 to R233) -/

/-- LWGT: rows of the shadow plane, or its scales (R231). -/
def execLwgt (f : FLN) (s : State) : Host.Outcome State Fault Refusal :=
  let course := f.param.toNat % 4
  let all := f.param.getLsbD 2
  let scale := f.param.getLsbD 3
  let rb := if f.param.getLsbD 4 then 256 else 128
  let n := if scale then 512 else if all then 64 * rb else 16 * rb
  engineInstr .l (.lwgt f) f.tok (relScope f.rel f.scope) [f.a] (lRead f n none true)
    (fun en => lWork f.slu [(en.val.toNat, n)] none (fun rd s =>
      let p := s.ctx.shadow
      if scale then
        s.setShadow ((List.range 128).foldl (fun p k =>
          let v := rd (en.val.toNat + 4 * k) 4
          { p with
            scales := Sparse.setList memDefault p.scales (4 * k) (freeOr s (4 * k) 4 v)
            spois := Sparse.set (fun _ => false) p.spois k v.2 }) p)
      else
        let p1 := (List.range (if all then 64 else 16)).foldl (fun p k =>
          p.putRow s (16 * course + k) 0 (rb / 4) (fun g => rd (en.val.toNat + k * rb + 4 * g) 4)) p
        s.setShadow { p1 with presence := p1.presence ||| (if all then BitVec.allOnes 32 else courseBits course) }) en) s

/-- The entries of an LGATH image by block row: (entry, column block) pairs; none where the image is
malformed (R232). -/
def gathBlocks (rd : Nat → Nat → Nat) (ad bb size : Nat) : Option (List (Nat × Nat × Nat)) :=
  let rp (c : Nat) : Nat := rd (ad + 2 * c) 2
  let ci (e : Nat) : Nat := rd (ad + 16 + e) 1
  let rows := (List.range 4).map (fun c => (List.range (rp (c + 1) - rp c)).map (fun i => (c, rp c + i, ci (rp c + i))))
  let rising (l : List (Nat × Nat × Nat)) : Bool :=
    l.all (fun e => decide (e.2.2 ≤ 7)) && (l.zip l.tail).all (fun e => decide (e.1.2.2 < e.2.2.2))
  if rp 0 = 0 ∧ (List.range 4).all (fun c => decide (rp c ≤ rp (c + 1))) ∧ rp 4 ≤ 32 ∧ rows.all rising ∧
      ad + 64 + rp 4 * bb ≤ size then some rows.flatten else none

/-- LGATH: the shadow plane from an image of blocks (R232). -/
def execLgath (f : FLN) (s : State) : Host.Outcome State Fault Refusal :=
  let es := if f.param.getLsbD 0 then 2 else 1
  let bb := 256 * es
  engineInstr .l (.lgath f) f.tok (relScope f.rel f.scope) [f.a] (lRead f 64 none true)
    (fun en s =>
      let ad := en.val.toNat
      if en.bad then .done (s.setShadow s.ctx.shadow.poisonAll)
      else match prepPad en.spec [(ad, 64)] s with
        | .fault c k => .fault s c k
        | .wait s1 w => .wait s1 w
        | .ok s1 off =>
          let bad := padBad s1.ctx off ad 64
          match (if bad then none else gathBlocks (fun a n => (padNum s1.ctx [] a n).1) ad bb s1.ctx.spSize) with
          | none =>
            if bad || en.spec then .done (sluSpans f.slu [(ad, 64)] (s1.setShadow s1.ctx.shadow.poisonAll))
            else .fault s cDATA 0#8
          | some blocks =>
            let spans := blocks.map (fun e => (ad + 64 + e.2.1 * bb, bb))
            match prepPad en.spec spans s1 with
            | .fault c k => .fault s c k
            | .wait s2 w => .wait s2 w
            | .ok s2 off2 =>
              let p0 := { s2.ctx.shadow with bytes := [], pois := [], presence := 0#32 }
              let p := blocks.foldl (fun p e =>
                let at_ := ad + 64 + e.2.1 * bb
                let p1 := (List.range 16).foldl (fun p r =>
                  p.putRow s2 (16 * e.1 + r) (16 * e.2.2 * es) (4 * es)
                    (fun g => padNum s2.ctx off2 (at_ + 16 * es * r + 4 * g) 4)) p
                { p1 with presence := p1.presence ||| BitVec.ofNat 32 (2 ^ (8 * e.1 + e.2.2)) }) p0
              .done (sluSpans f.slu ((ad, 64) :: spans) ((s2.setShadow p).countPort ((ad, 64) :: spans)).useFree)) s

/-- Whether an XMMAM has begun and not ended (R234). -/
def State.maskInUse (s : State) : Bool := match s.bank.qX.find? (fun e => !e.pushOwed) with
  | some en => match en.instr with
    | .xmmam _ => s.ctx.prog.isSome
    | _ => false
  | none => false

/-- LMASK: the mask parameter block (R233); it waits while an XMMAM is open (R234). -/
def execLmask (f : FLN) (s : State) : Host.Outcome State Fault Refusal :=
  engineInstr .l (.lmask f) f.tok (relScope f.rel f.scope) [f.a] (lRead f 576 none true)
    (fun en s =>
      if s.maskInUse then .wait s .none
      else lWork f.slu [(en.val.toNat, 576)] none (fun rd s =>
        let ad := en.val.toNat
        let bad := (rd ad 576).2
        let num (k a n : Nat) : Nat := if bad then (s.freshBits k).toNat else (rd a n).1
        { s with ctx := { s.ctx with mask := {
            rows := Sparse.setList (fun _ => 0#64) [] 0 ((List.range 64).map (fun m => BitVec.ofNat 64 (num m (ad + 8 * m) 8)))
            fill := BitVec.ofNat 48 (num 64 (ad + 512) 6)
            half := bitOf (num 65 (ad + 520) 1) 0
            out := bitOf (num 65 (ad + 520) 1) 1
            pois := bad
            zmask := false } } }) en s) s

end Sys2Proof.Machine
end

