-- ==== Sys2Proof/Machine/Matrix.lean ====
section
/-! DEFINITION. The X class (R235 to R244). A macro-operation runs one step a turn. -/

namespace Sys2Proof.Machine

/-! ### Fields of a macro-operation (R235) -/

/-- KB, FEED, RB, CLR, STILE of PARAM. -/
def xmKb (f : FXM) : Nat := bitsOf f.param.toNat 0 2
def xmFeed (f : FXM) : Bool := f.param.getLsbD 2
def xmRb (f : FXM) : Nat := bitsOf f.param.toNat 3 2
def xmClr (f : FXM) : Bool := f.param.getLsbD 5
def xmStile (f : FXM) : Nat := bitsOf f.param.toNat 6 4

/-- The three macro-operations. -/
inductive XKind where
  | dense
  | masked
  | sparse
  deriving DecidableEq, Repr

/-- Width of an array element; products of a cell per course (R72). -/
def arrWidth (t : Nat) : Nat := (dtOf t).width
def arrPer (t : Nat) : Nat := if arrWidth t = 4 then 32 else 16

/-- Whether a pairing is of integers (R75); MXINT8 accumulates in f48 (R72). -/
def intPair (t : Nat) : Bool := t == 0

/-- The tile registers a macro-operation reads. -/
def xmSources (f : FXM) : List Nat :=
  if (xmFeed f) then [] else if scaledType f.at_.toNat then [f.line.tile.toNat, (xmStile f)] else [f.line.tile.toNat]

/-! ### Operands of a step (R236) -/

/-- Byte n of A's row m in step row j, with its poison. -/
def xByteA (f : FXM) (c : Ctx) (bad : Bool) (m j n : Nat) : Nat × Bool :=
  if (xmFeed f) then
    match c.feed[j]? with
    | some r => ((Sparse.get memDefault r.bytes n).toNat, Sparse.get (fun _ => false) r.pois (n / 4))
    | none => (0, false)
  else
    let v := c.cell f.line.tile.toNat m (n / 4)
    (bitsOf v.bits.toNat (8 * (n % 4)) 8, v.pois || bad)

/-- Element k of width w from bytes, from byte b0. -/
def xElem (w b0 : Nat) (byte : Nat → Nat × Bool) (k : Nat) : Nat × Bool :=
  if w = 4 then
    let v := byte (b0 + k / 2)
    (bitsOf v.1 (4 * (k % 2)) 4, v.2)
  else if w = 8 then byte (b0 + k)
  else
    let lo := byte (b0 + 2 * k)
    let hi := byte (b0 + 2 * k + 1)
    (lo.1 + 256 * hi.1, lo.2 || hi.2)

/-- K element k of A's row (R236). -/
def xA (f : FXM) (c : Ctx) (bad : Bool) (m j k : Nat) : Nat × Bool :=
  let w := arrWidth f.at_.toNat
  xElem w (if w = 16 then 128 * (xmKb f) else 64 * (xmKb f)) (xByteA f c bad m j) k

/-- Element (k, n) of a weight plane (R223). -/
def xB (w : Nat) (p : WPlane) (k n : Nat) : Nat × Bool :=
  let row := if w = 4 then k / 2 else k
  let byte (i : Nat) : Nat × Bool :=
    ((Sparse.get memDefault p.bytes (256 * row + i)).toNat, Sparse.get (fun _ => false) p.pois (64 * row + i / 4))
  if w = 4 then
    let v := byte n
    (bitsOf v.1 (4 * (k % 2)) 4, v.2)
  else if w = 8 then byte n
  else
    let lo := byte (2 * n)
    let hi := byte (2 * n + 1)
    (lo.1 + 256 * hi.1, lo.2 || hi.2)

/-- A's scale of row m for K element k, where A is scaled (R235). -/
def xScaleA (f : FXM) (c : Ctx) (bad : Bool) (m k : Nat) : Option (Nat × Bool) :=
  if scaledType f.at_.toNat then
    let v := c.cell (xmStile f) m (xmKb f)
    some (bitsOf v.bits.toNat (8 * (k / 32)) 8, v.pois || bad)
  else none

/-- B's scale of column n for K element k, where B is scaled (R223). -/
def xScaleB (f : FXM) (p : WPlane) (k n : Nat) : Option (Nat × Bool) :=
  if scaledType f.bt.toNat then
    let i := 128 * (k / 32) + n
    some ((Sparse.get memDefault p.scales i).toNat, Sparse.get (fun _ => false) p.spois (i / 4))
  else none

/-- Whether a block of the active plane is present (R223). -/
def xPresent (p : WPlane) (c n : Nat) : Bool := p.presence.getLsbD (8 * c + n / 16)

/-- The courses of a step: those ASHAPE selects, under XSPMM only those with a block present (R236). -/
def xCourses (kind : XKind) (shape : BitVec 4) (p : WPlane) : List Nat :=
  (List.range 4).filter (fun c => shape.getLsbD c &&
    (kind != .sparse || (List.range 8).any (fun b => p.presence.getLsbD (8 * c + b))))

/-- MaskBit (R236). -/
def maskBit (mb : MaskBlock) (m n : Nat) : Bool :=
  if n / 64 = b2n mb.half then (Sparse.get (fun _ => 0#64) mb.rows m).getLsbD (n % 64) else mb.out

/-! ### Sums (R73 to R75) -/

/-- Whether a course's products of a column count: under XSPMM an absent block's are clean zeros. -/
def xCounts (kind : XKind) (p : WPlane) (c n : Nat) : Bool := kind != .sparse || xPresent p c n

/-- The products of a course for a cell. -/
def xProducts (kind : XKind) (f : FXM) (c : Ctx) (bad : Bool) (m j n course : Nat) : List Val :=
  let per := arrPer f.at_.toNat
  if xCounts kind c.active course n then
    (List.range per).map (fun i =>
      let k := per * course + i
      (scaledVal f.at_.toNat (xA f c bad m j k).1 ((xScaleA f c bad m k).map Prod.fst)).mul
        (scaledVal f.bt.toNat (xB (arrWidth f.bt.toNat) c.active k n).1 ((xScaleB f c.active k n).map Prod.fst)))
  else [.fin false 0 0]

/-- The exact integer sum of the products of a cell (R75). -/
def xSum (kind : XKind) (f : FXM) (c : Ctx) (bad : Bool) (m j n : Nat) (cs : List Nat) : Int :=
  (cs.map (fun course =>
    if xCounts kind c.active course n then
      ((List.range 16).map (fun i =>
        let k := 16 * course + i
        signedOf 8 (xA f c bad m j k).1 * signedOf 8 (xB 8 c.active k n).1)).sum
    else 0)).sum

/-- A cell's new value and flags (R236). -/
def xValue (kind : XKind) (f : FXM) (c : Ctx) (bad : Bool) (m j n : Nat) (cs : List Nat) (old : Nat) :
    Nat × BitVec 7 :=
  if intPair f.at_.toNat then addI48 (if (xmClr f) then 0 else old) (xSum kind f c bad m j n cs)
  else
    let (v, fl) := courseChain (cs.map (xProducts kind f c bad m j n))
    if (xmClr f) then (v, fl)
    else
      let (w, g) := addF48 old v
      (w, fl ||| g)

/-! ### Poison of a step (R237) -/

/-- Whether any A element of a row is poisoned. -/
def xPoisA (f : FXM) (c : Ctx) (bad : Bool) (m j : Nat) : Bool :=
  (List.range (4 * arrPer f.at_.toNat)).any (fun k => (xA f c bad m j k).2)

/-- Whether a course has a poisoned operand other than an A element for a cell. -/
def xPoisOf (f : FXM) (c : Ctx) (bad : Bool) (m n course : Nat) : Bool :=
  let per := arrPer f.at_.toNat
  (List.range per).any (fun i =>
    let k := per * course + i
    (xB (arrWidth f.bt.toNat) c.active k n).2 || (xScaleB f c.active k n).any Prod.snd ||
      (xScaleA f c bad m k).any Prod.snd)

/-- Whether a poisoned operand other than an A element of a row is consumed for a column: of every course of the step,
its blocks present or not (R237). -/
def xPoisB (f : FXM) (c : Ctx) (bad : Bool) (m n : Nat) (cs : List Nat) : Bool := cs.any (xPoisOf f c bad m n)

/-- Whether poison reaches a cell through the products summed into it (R51). -/
def xReached (kind : XKind) (f : FXM) (c : Ctx) (bad : Bool) (m j n : Nat) (cs : List Nat) : Bool :=
  let per := arrPer f.at_.toNat
  cs.any (fun course => xCounts kind c.active course n &&
    (xPoisOf f c bad m n course || (List.range per).any (fun i => (xA f c bad m j (per * course + i)).2)))

/-- The result rows of a step below VC: (row, place in the step). -/
def xRows (f : FXM) (i vc : Nat) : List (Nat × Nat) :=
  ((List.range 16).map (fun j => (16 * ((xmRb f) + i) + j, j))).filter (fun r => decide (r.1 < vc))

/-- The columns of a row that the step computes: under XMMAM the unmasked ones. -/
def xOpen (kind : XKind) (c : Ctx) (m : Nat) : List Nat :=
  (List.range 128).filter (fun n => kind != .masked || maskBit c.mask m n)

/-- The operand by which a step consumes poison, none where it consumes none (R237, R347): A where the other is poisoned
as well. (DESIGN CHOICE, log 77) -/
def xConsumes (kind : XKind) (f : FXM) (c : Ctx) (bad : Bool) (i vc : Nat) (cs : List Nat) : Option Nat :=
  let rows := (xRows f i vc).filter (fun r => !(xOpen kind c r.1).isEmpty)
  if rows.any (fun r => xPoisA f c bad r.1 r.2) then some 1
  else if kind == .masked && c.mask.pois && !(xRows f i vc).isEmpty then some 8
  else if rows.any (fun r => (xOpen kind c r.1).any (fun n => xPoisB f c bad r.1 n cs)) then some 8
  else none

/-! ### A step (R236) -/

/-- A plane cell as X writes it; the bits of a poisoned one are free (R51). -/
def newPCell (s : State) (k v : Nat) (p : Bool) : PCell :=
  if p then { bits := (s.freshBits k).setWidth 48, pois := true } else { bits := BitVec.ofNat 48 v, pois := false }

/-- The cells a step writes: place, value, poison, flags. -/
def xCells (kind : XKind) (f : FXM) (c : Ctx) (bad : Bool) (i vc : Nat) (cs : List Nat) :
    List (Nat × Nat × Nat × Bool × BitVec 7) :=
  (xRows f i vc).flatMap (fun r => (List.range 128).filterMap (fun n =>
    let old := c.pcell (b2n f.p) r.1 n
    let mp := kind == .masked && c.mask.pois
    if kind == .masked && !maskBit c.mask r.1 n then some (r.1, n, c.mask.fill.toNat, mp, 0#7)
    else if cs.isEmpty then (if (xmClr f) then some (r.1, n, 0, mp, 0#7) else none)
    else
      let (v, fl) := xValue kind f c bad r.1 r.2 n cs old.bits.toNat
      let p := mp || xReached kind f c bad r.1 r.2 n cs || (!(xmClr f) && old.pois)
      some (r.1, n, v, p, if p then 0#7 else fl)))

/-- Writes plane cells; a plane written is no longer marked all zero (R354). -/
def putPlane (s : State) (p : Nat) (cells : List (Nat × Nat × Nat × Bool × BitVec 7)) : State :=
  if cells.isEmpty then s
  else
    let pl := cells.foldl (fun (pl : Plane) e => pl.put e.1 e.2.1 (newPCell s (128 * e.1 + e.2.1) e.2.2.1 e.2.2.2.1))
      { (s.ctx.plane p) with zmask := false }
    (s.setCtx (s.ctx.setPlane p pl)).useFree

/-! ### Locks and progress (R50, R239) -/

/-- The next step of the macro-operation at the head: the progress register's for base code. -/
def State.stepIx (s : State) (en : Entry) : Nat :=
  if s.ctx.inHandler then en.rows else s.ctx.prog.getD 0

/-- Records the next step, or that none is open. -/
def State.setStep (s : State) (n : Option Nat) : State :=
  if s.ctx.inHandler then s else { s with ctx := { s.ctx with prog := n } }

/-- Sets or clears locks of tile registers. A move that waited for the lock is made (R234). -/
def Ctx.setLocks (c : Ctx) (ts : List Nat) (v : Bool) : Ctx :=
  ts.foldl (fun c t =>
    let k := { c.tile t with lock := v }
    c.setTile t (if !v && k.moveDue then { k.to k.pol with moveDue := false } else k)) c

/-- The tile registers that a queue's open macro-operation locks. -/
def headLocks (q : List Entry) : List Nat := match q.find? (fun e => !e.pushOwed) with
  | some en => match en.instr with
    | .xmma f | .xmmam f | .xspmm f => (xmSources f)
    | _ => []
  | none => []

/-- The locks that macro-operations frozen below the running handler hold. -/
def Ctx.lowerLocks (c : Ctx) : List Nat :=
  (if c.inHandler && c.prog.isSome then headLocks c.base.qX else []) ++
  (if c.shnd && c.thnd then headLocks (c.tbank.qX.filter (fun e => e.rows != 0)) else [])

/-- A macro-operation ends: its locks clear but for those held below, no step is open. -/
def State.closeMacro (s : State) (f : FXM) : State :=
  let keep := s.ctx.lowerLocks.filter (fun t => (s.ctx.tile t).spill.isNone)
  ((s.setCtx (s.ctx.setLocks ((xmSources f).filter (fun t => !keep.contains t)) false))).setStep none

/-! ### The work of a macro-operation (R235 to R239) -/

/-- Readies the first step: its sources' states, then their locks (R237); later steps are ready. -/
def xPrep (f : FXM) (en : Entry) (i : Nat) (s : State) : Prep :=
  if i ≠ 0 ∨ (xmFeed f) then .ok s (if en.bad then [0] else [])
  else match prepTiles en.spec (xmSources f) none s with
    | .ok s1 off => .ok (s1.setCtx (s1.ctx.setLocks (xmSources f) true)) off
    | p => p

/-- One step of a macro-operation, from its operands. A FEED step that faults has taken its rows.
(DESIGN CHOICE, log 76) -/
def xStep (kind : XKind) (f : FXM) (en : Entry) (i : Nat) (bad : Bool) (s : State) : EngOut :=
  let c := s.ctx
  let cs := xCourses kind en.stamp.ashape c.active
  let vc := en.stamp.vc.toNat
  let taken : State := if (xmFeed f) then { s with ctx := { c with feed := c.feed.drop 16 } } else s
  match (if en.spec then none else xConsumes kind f c bad i vc cs) with
  | some k => .fault (taken.closeMacro f) cPOISON (BitVec.ofNat 8 k)
  | none =>
    let cells := xCells kind f c bad i vc cs
    let fl := en.val.setWidth 7 ||| orFlags (cells.map (fun e => e.2.2.2.2))
    let s1 := (putPlane taken (b2n f.p) cells).pmcAdd c.vdn.toNat 10 1
    if i + 1 = f.nstep.toNat then
      .done ((lastUses (s1.closeMacro f) ((xmSources f).filter (fun t => (s.ctx.tile t).state == .off))
        (if (xmFeed f) then [] else [f.line]) none).setFlags fl)
    else
      .part ((s1.setHead .x { en with rows := i + 1, val := fl.setWidth 64, bad := bad }).setStep (some (i + 1)))

/-- A macro-operation's turn. -/
def xMacro (kind : XKind) (f : FXM) (en : Entry) (s : State) : EngOut :=
  let i := s.stepIx en
  if (xmFeed f) && decide (s.ctx.feed.length < 16) then .wait s .none
  else match xPrep f en i s with
    | .fault c k => .fault s c k
    | .wait s1 w => .wait s1 w
    | .ok s1 off => xStep kind f en i (!off.isEmpty) s1

/-- What the sequencer checks of a macro-operation: in a handler, no feed and a plane it may write (R350). -/
def xRead (f : FXM) (s : State) : Except Cause Taken := do
  if (xmFeed f) then s.arrayWritable
  s.planeWritable (b2n f.p)
  return Taken.none_

/-- XMMA (R235, R236). -/
def execXmma (f : FXM) (s : State) : Host.Outcome State Fault Refusal :=
  engineInstr .x (.xmma f) f.tok none [] (xRead f) (xMacro .dense f) s

/-- XMMAM: masked cells take FILL (R236). -/
def execXmmam (f : FXM) (s : State) : Host.Outcome State Fault Refusal :=
  engineInstr .x (.xmmam f) f.tok none [] (xRead f) (xMacro .masked f) s

/-- XSPMM: absent blocks are skipped (R236). -/
def execXspmm (f : FXM) (s : State) : Host.Outcome State Fault Refusal :=
  engineInstr .x (.xspmm f) f.tok none [] (xRead f) (xMacro .sparse f) s

/-! ### The other X instructions (R241 to R244) -/

/-- XSWAP: the planes change places, presence, scales and poison with them (R241). -/
def execXswap (f : FXM) (s : State) : Host.Outcome State Fault Refusal :=
  engineInstr .x (.xswap f) f.tok none []
    (fun s => do
      s.arrayWritable
      return Taken.none_)
    (fun _ s => .done { s with ctx := { s.ctx with active := s.ctx.shadow, shadow := s.ctx.active } }) s

/-- XSHAPE: ASHAPE changes as the sequencer issues it; its entry only moves tokens (R242, R44). -/
def execXshape (f : FXM) (s : State) : Host.Outcome State Fault Refusal :=
  match s.acting with
  | none => seqInstr [] [] (fun s =>
      match forward .x (.xshape f) (fun _ => .ok Taken.none_) s with
      | .done s1 => .done (s1.setBank { s1.bank with ashape := ashapeOf s1.bank.ashape (f.param.setWidth 64) })
      | o => o) s
  | some (_, en) => .next (engineRun .x en f.tok none (fun _ s => .done s) { s with acting := none })

/-- XCLR: every cell of the plane clean zero, whatever VC holds (R243). -/
def execXclr (f : FXM) (s : State) : Host.Outcome State Fault Refusal :=
  let p := b2n f.p
  engineInstr .x (.xclr f) f.tok none []
    (fun s => do
      s.planeWritable p
      return Taken.none_)
    (fun _ s => .done (s.setCtx (s.ctx.setPlane p { (s.ctx.plane p) with cells := [], zmask := true }))) s

/-- The bias of a column: element n of the line, or of the line and its successor (R244). -/
def biasOf (s : State) (f : FXM) (off : List Nat) (i n : Nat) : Nat × Bool :=
  let t := f.line.tile.toNat
  if arrWidth f.at_.toNat = 16 then
    let v := srcCell s off t f.line.dir i (n / 2)
    (bitsOf v.1 (16 * (n % 2)) 16, v.2)
  else if n < 64 then srcCell s off t f.line.dir i n
  else srcCell s off t f.line.dir ((i + 1) % 64) (n - 64)

/-- A cell with a bias added (R244). -/
def biasAdd (at_ old b : Nat) : Nat × BitVec 7 :=
  match dtOf at_ with
  | .int sg w => addI48 old (intOf sg w b)
  | .flt t => roundF48 ((fF48.decode old).add .rne (t.decode b))

/-- XBIAS: a bias for every column of the rows below VC (R244). -/
def execXbias (f : FXM) (s : State) : Host.Outcome State Fault Refusal :=
  let p := b2n f.p
  let t := f.line.tile.toNat
  engineInstr .x (.xbias f) f.tok none (lineRegs f.line)
    (fun s => do
      let i ← s.index f.line.fromReg f.line.idx
      s.planeWritable p
      return { Taken.none_ with i1 := i })
    (fun en s =>
      match prepTiles en.spec [t] none s with
      | .fault c k => .fault s c k
      | .wait s1 w => .wait s1 w
      | .ok s1 off =>
        let vc := en.stamp.vc.toNat
        let bias := biasOf s1 f off en.i1.toNat
        if !en.spec && vc != 0 && (List.range 128).any (fun n => (bias n).2) then .fault s1 cPOISON 1#8
        else
          let cells := (List.range vc).flatMap (fun m => (List.range 128).map (fun n =>
            let old := s1.ctx.pcell p m n
            let (v, fl) := biasAdd f.at_.toNat old.bits.toNat (bias n).1
            let q := old.pois || (bias n).2
            (m, n, v, q, if q then 0#7 else fl)))
          let s2 := putPlane s1 p cells
          .done ((lastUses s2 off [f.line] none).setFlags (orFlags (cells.map (fun e => e.2.2.2.2))))) s

end Sys2Proof.Machine
end

