-- ==== Sys2Proof/Machine/Vector.lean ====
section
/-! DEFINITION. The V class (R245 to R264). -/

namespace Sys2Proof.Machine

/-! ### Shared work -/

/-- Lane j of the line k after the one an operand names, in its register and direction (R252, R264). -/
def lineAt (s : State) (off : List Nat) (l : Line) (ix : BitVec 6) (k j : Nat) : Nat × Bool :=
  srcCell s off l.tile.toNat l.dir ((ix.toNat + k) % 64) j

/-- A lane's one result and its flags. -/
def one (v : Nat × BitVec 7) : List Nat × BitVec 7 := ([v.1], v.2)

/-- The source number under which the mask's lanes stand: 1 where the mask bit is set. -/
def maskSrc : Nat := 1000

/-- The source number under which the lanes that are written stand. -/
def coverSrc : Nat := 1001

/-- The lanes an entry writes, ascending, as its sources show them. -/
def covered (c : Nat → Nat → Nat × Bool) : List Nat := (List.range 64).filter (fun j => (c coverSrc j).1 == 1)

/-- The lanes below VC whose mask bit is set, or all below VC (R45, R254). -/
def lanesOf (en : Entry) (k : KReg) (all : Bool) : List Nat :=
  (List.range en.stamp.vc.toNat).filter (fun j => all || k.bits.getLsbD j)

/-- Whether a mask bit that the entry consumes is poisoned (R246). -/
def maskPoison (en : Entry) (k : KReg) : Bool := (List.range en.stamp.vc.toNat).any (fun j => k.pois.getLsbD j)

/-- What an entry does with its mask: writes the lanes it sets; writes every lane below VC, the mask selecting a
source; writes the lanes it sets and consumes nothing of it. -/
inductive MaskUse where
  | lanes
  | select
  | plain
  deriving DecidableEq, Repr

/-- The work of a V entry that writes a tile line. `tiles` are its source operands, `subs` the operand
number of each source, `look` a source's lanes, `deps` the source lanes, and the mask bits beside its own, that a
result lane takes, `val` a lane's values for the destination line and those after it. Reads come before the destination's
wake and write: a register that the entry also reads as OFF is poison to it, though it wakes for the write (R54); all of
them are made at one moment (DESIGN CHOICE, log 78). Consumed poison faults, or under SPEC passes to the lane (R245,
R246). -/
def vWork (dst : DLine) (k : BitVec 3) (use : MaskUse) (tiles : List Line) (subs : List Nat)
    (look : Entry → State → List Nat → Nat → Nat → Nat × Bool)
    (deps : (Nat → Nat → Nat × Bool) → Nat → List (Nat × Nat))
    (val : Entry → (Nat → Nat → Nat × Bool) → Nat → List Nat × BitVec 7) (en : Entry) (s : State) : EngOut :=
  let t := dst.tile.toNat
  match prepTiles en.spec (tiles.map (fun l => l.tile.toNat)) (some t) s with
  | .fault c k => .fault s c k
  | .wait s1 w => .wait s1 w
  | .ok s1 off0 =>
    let off := (off0 ++ en.offs).dedup
    let kr := s1.bank.getK k.toNat
    let lanes := lanesOf en kr (use == .select)
    let c (n j : Nat) : Nat × Bool :=
      if n = maskSrc then (b2n (kr.bits.getLsbD j), use != .plain && decide (j < en.stamp.vc.toNat) && kr.pois.getLsbD j)
      else if n = coverSrc then (b2n (lanes.contains j), false)
      else look en s1 off n j
    let hit := (lanes.flatMap (fun j => (deps c j).filterMap (fun d =>
        if (c d.1 d.2).2 then some (if d.1 = maskSrc then 7 else subs.getD d.1 1) else none))) ++
      (if use != .plain && maskPoison en kr then [7] else [])
    match (if en.spec then none else hit.min?) with
    | some n => .fault s1 cPOISON (BitVec.ofNat 8 n)
    | none =>
      if lanes.isEmpty then .done (lastUses s1 off tiles (some t))
      else
        let (s2, ready) := readyDst t s1
        if !ready then .wait (s2.onHead .v (fun x => { x with offs := off })) .wake
        else
          let res := lanes.map (fun j =>
            let p := (c maskSrc j).2 || (deps c j).any (fun d => (c d.1 d.2).2)
            (j, val en c j, p))
          let n := (res.map (fun r => r.2.1.1.length)).foldl max 1
          let s3 := (List.range n).foldl (fun s i =>
            putLine s t dst.dir ((en.idst.toNat + i) % 64) (res.map (fun r => (r.1, (r.2.1.1.getD i 0, r.2.2))))) s2
          let fl := orFlags (res.map (fun r => if r.2.2 then 0#7 else r.2.1.2))
          .done ((lastUses s3.useFree off tiles (some t)).setFlags fl)

/-- A V instruction that writes a tile line: forwarded, or run by the engine. -/
def vTile (i : Instr) (tok : Tok) (dst : DLine) (k : BitVec 3) (use : MaskUse) (regs : List Reg)
    (read : State → Except Cause Taken) (tiles : List Line) (subs : List Nat)
    (look : Entry → State → List Nat → Nat → Nat → Nat × Bool)
    (deps : (Nat → Nat → Nat × Bool) → Nat → List (Nat × Nat))
    (val : Entry → (Nat → Nat → Nat × Bool) → Nat → List Nat × BitVec 7) (s : State) :
    Host.Outcome State Fault Refusal :=
  engineInstr .v i tok none regs read (vWork dst k use tiles subs look deps val) s

/-- The registers a V3 word reads: its line indices. -/
def v3Regs (f : FV3) : List Reg := lineRegs f.src1 ++ lineRegs f.src2 ++ dlineRegs f.dst

/-- What the sequencer reads of a V3 word: the indices, and in a handler whether DST may be written. -/
def v3Read (f : FV3) (s : State) : Except Cause Taken := do
  let a ← s.index f.src1.fromReg f.src1.idx
  let b ← s.index f.src2.fromReg f.src2.idx
  let d ← s.index f.dst.fromReg f.dst.idx
  s.tileWritable f.dst.tile.toNat
  return { Taken.none_ with i1 := a, i2 := b, idst := d }

/-- A lane built element by element of width w (R245). -/
def laneOf (w : Nat) (g : Nat → Nat × BitVec 7) : Nat × BitVec 7 :=
  let es := (List.range (32 / w)).map g
  (packBits w (es.map Prod.fst), orFlags (es.map Prod.snd))

/-- An instruction that computes each element from the same element of one or two sources, and for the FMA
family of DST (R245, R249). -/
def vElem (i : Instr) (f : FV3) (n : Nat) (useD : Bool) (w : Nat)
    (op : Rm → Nat → Nat → Nat → Nat × BitVec 7) (s : State) : Host.Outcome State Fault Refusal :=
  let d := dlineLine f.dst
  vTile i f.tok f.dst f.k .lanes (v3Regs f) (v3Read f)
    ([f.src1] ++ (if n = 2 then [f.src2] else []) ++ (if useD then [d] else [])) [1, 2, 4]
    (fun en s off m j => match m with
      | 0 => lineAt s off f.src1 en.i1 0 j
      | 1 => lineAt s off f.src2 en.i2 0 j
      | _ => lineAt s off d en.idst 0 j)
    (fun _ j => [(0, j)] ++ (if n = 2 then [(1, j)] else []) ++ (if useD then [(2, j)] else []))
    (fun en c j => one (laneOf w (fun e =>
      op en.stamp.rm (bitsOf (c 0 j).1 (w * e) w) (if n = 2 then bitsOf (c 1 j).1 (w * e) w else 0)
        (if useD then bitsOf (c 2 j).1 (w * e) w else 0)))) s

/-! ### Mask registers (R253, R255) -/

/-- Writes bits of a mask register: those of a set, with their poison; the bits of a poisoned one are free
(R39). -/
def putMask (s : State) (k : Nat) (sel bits pois : Word) : State :=
  let old := s.bank.getK k
  let v := (bits &&& ~~~pois) ||| (s.freshBits 0 &&& pois)
  (s.setBank (s.bank.setK k { bits := (old.bits &&& ~~~sel) ||| (v &&& sel)
                              pois := (old.pois &&& ~~~sel) ||| (pois &&& sel) })).useFree

/-- A word of the bits a predicate holds of. -/
def wordOf (p : Nat → Bool) : Word := BitVec.ofNat 64 (packBits 1 ((List.range 64).map (fun j => b2n (p j))))

/-- The relation of a lane (R253): whether it holds for every element, and whether NV is set. -/
def cmpLane (ty : ETy) (rel : Nat) (a b : Nat) : Bool × Bool :=
  let w := ty.width
  let rs := (List.range (32 / w)).map (fun e => relElem ty rel (bitsOf a (w * e) w) (bitsOf b (w * e) w))
  (rs.all Prod.fst, rs.any Prod.snd)

/-- A compare into a mask register (R253). -/
def vCompare (i : Instr) (f : FVCm) (rel : Nat) (neg : Bool) (s : State) : Host.Outcome State Fault Refusal :=
  engineInstr .v i f.tok none (lineRegs f.src1 ++ lineRegs f.src2)
    (fun s => do
      let a ← s.index f.src1.fromReg f.src1.idx
      let b ← s.index f.src2.fromReg f.src2.idx
      return { Taken.none_ with i1 := a, i2 := b })
    (fun en s =>
      match prepTiles en.spec [f.src1.tile.toNat, f.src2.tile.toNat] none s with
      | .fault c k => .fault s c k
      | .wait s1 w => .wait s1 w
      | .ok s1 off =>
        let kr := s1.bank.getK f.k.toNat
        let lanes := lanesOf en kr false
        let a (j : Nat) := lineAt s1 off f.src1 en.i1 0 j
        let b (j : Nat) := lineAt s1 off f.src2 en.i2 0 j
        let hit := if lanes.any (fun j => (a j).2) then some 1 else if lanes.any (fun j => (b j).2) then some 2
          else if maskPoison en kr then some 7 else none
        match (if en.spec then none else hit) with
        | some n => .fault s1 cPOISON (BitVec.ofNat 8 n)
        | none =>
          let p (j : Nat) : Bool := (a j).2 || (b j).2 || kr.pois.getLsbD j
          let r (j : Nat) := cmpLane (etOf f.et.toNat) rel (a j).1 (b j).1
          let s2 := putMask s1 f.kd.toNat (wordOf (fun j => lanes.contains j)) (wordOf (fun j => (r j).1 != neg)) (wordOf p)
          let fl := if lanes.any (fun j => !p j && (r j).2) then flagNV else 0#7
          .done ((lastUses s2 off [f.src1, f.src2] none).setFlags fl)) s

/-- A mask operation on all 64 bits (R255). -/
def vMaskOp (i : Instr) (f : FVK) (two : Bool) (op : Word → Word → Word) (s : State) :
    Host.Outcome State Fault Refusal :=
  engineInstr .v i f.tok none [] (fun _ => .ok Taken.none_)
    (fun en s =>
      let a := s.bank.getK f.ka.toNat
      let b := s.bank.getK f.kb.toNat
      let p := a.pois ||| (if two then b.pois else 0#64)
      if !en.spec && p != 0#64 then .fault s cPOISON 7#8
      else .done (putMask s f.kd.toNat (BitVec.allOnes 64) (op a.bits b.bits) p)) s

/-- The registers an entry that writes a scalar would write: S may not be a bound register, and is pending
until the entry has written it (R247). A bound S has no address to report, so TVAL is free. -/
def scalarDst (s : State) (r : Reg) : Except Cause Bool :=
  if (s.ctx.boundSlot r).isSome then .error (Cause.seq cDATA 0 (s.freshBits 0)) else .ok (r != 0#6)

/-- Writes the scalar result of a V entry: its slot in the running bank; s0 discards (R247). -/
def putScalar (s : State) (r : Reg) (v : Word) (p : Bool) : State :=
  if r = 0#6 then s
  else (s.setBank (s.bank.setS r.toNat { bits := if p then s.freshBits 0 else v, pois := p })).useFree

/-- A mask operation that writes a scalar (R255, R247). -/
def vMaskScalar (i : Instr) (f : FVK) (op : Word → Word) (s : State) : Host.Outcome State Fault Refusal :=
  engineInstr .v i f.tok none []
    (fun s => do
      let pend ← scalarDst s f.s
      return { Taken.none_ with idst := f.s, sPend := pend })
    (fun en s =>
      let a := s.bank.getK f.ka.toNat
      if !en.spec && a.pois != 0#64 then .fault s cPOISON 7#8
      else .done (putScalar s f.s (op a.bits) (a.pois != 0#64))) s

/-! ### Arithmetic (R249, R250) -/

/-- VADD: a + b (R249). -/
def execVadd (f : FV3) (s : State) : Host.Outcome State Fault Refusal :=
  vElem (.vadd f) f 2 false (etOf f.et.toNat).width
    (fun m a b _ => arith2 (etOf f.et.toNat) m f.sat (fun x y => x + y) (fun x y => x.add m y) a b) s

/-- VSUB: a − b (R249). -/
def execVsub (f : FV3) (s : State) : Host.Outcome State Fault Refusal :=
  vElem (.vsub f) f 2 false (etOf f.et.toNat).width
    (fun m a b _ => arith2 (etOf f.et.toNat) m f.sat (fun x y => x - y) (fun x y => x.add m y.neg) a b) s

/-- VMUL: a × b (R249). -/
def execVmul (f : FV3) (s : State) : Host.Outcome State Fault Refusal :=
  vElem (.vmul f) f 2 false (etOf f.et.toNat).width
    (fun m a b _ => arith2 (etOf f.et.toNat) m f.sat (fun x y => x * y) (fun x y => x.mul y) a b) s

/-- VFMA: d + a × b, rounded once (R249). -/
def execVfma (f : FV3) (s : State) : Host.Outcome State Fault Refusal :=
  vElem (.vfma f) f 2 true (etOf f.et.toNat).width
    (fun m a b c => arith3 (etOf f.et.toNat) m f.sat (fun x y z => z + x * y) (fun x y z => z.add m (x.mul y)) a b c) s

/-- VFMS: a × b − d, rounded once (R249). -/
def execVfms (f : FV3) (s : State) : Host.Outcome State Fault Refusal :=
  vElem (.vfms f) f 2 true (etOf f.et.toNat).width
    (fun m a b c => arith3 (etOf f.et.toNat) m f.sat (fun x y z => x * y - z) (fun x y z => (x.mul y).add m z.neg) a b c) s

/-- VFNMA: d − a × b, rounded once (R249). -/
def execVfnma (f : FV3) (s : State) : Host.Outcome State Fault Refusal :=
  vElem (.vfnma f) f 2 true (etOf f.et.toNat).width
    (fun m a b c => arith3 (etOf f.et.toNat) m f.sat (fun x y z => z - x * y) (fun x y z => z.add m (x.mul y).neg) a b c) s

/-- VMIN (R250, R68). -/
def execVmin (f : FV3) (s : State) : Host.Outcome State Fault Refusal :=
  vElem (.vmin f) f 2 false (etOf f.et.toNat).width
    (fun _ a b _ => extremeElem (etOf f.et.toNat) false f.sat a b) s

/-- VMAX (R250, R68). -/
def execVmax (f : FV3) (s : State) : Host.Outcome State Fault Refusal :=
  vElem (.vmax f) f 2 false (etOf f.et.toNat).width
    (fun _ a b _ => extremeElem (etOf f.et.toNat) true f.sat a b) s

/-- VABS (R249). -/
def execVabs (f : FV3) (s : State) : Host.Outcome State Fault Refusal :=
  vElem (.vabs f) f 1 false (etOf f.et.toNat).width
    (fun _ a _ _ => absElem (etOf f.et.toNat) f.sat a) s

/-- VNEG (R249). -/
def execVneg (f : FV3) (s : State) : Host.Outcome State Fault Refusal :=
  vElem (.vneg f) f 1 false (etOf f.et.toNat).width
    (fun _ a _ _ => negElem (etOf f.et.toNat) f.sat a) s

/-! ### Logic, shifts, requantisation (R251, R252) -/

/-- VAND (R251). -/
def execVand (f : FV3) (s : State) : Host.Outcome State Fault Refusal :=
  vElem (.vand f) f 2 false 32 (fun _ a b _ => (a &&& b, 0#7)) s

/-- VOR (R251). -/
def execVor (f : FV3) (s : State) : Host.Outcome State Fault Refusal :=
  vElem (.vor f) f 2 false 32 (fun _ a b _ => (a ||| b, 0#7)) s

/-- VXOR (R251). -/
def execVxor (f : FV3) (s : State) : Host.Outcome State Fault Refusal :=
  vElem (.vxor f) f 2 false 32 (fun _ a b _ => (a ^^^ b, 0#7)) s

/-- VNOT (R251). -/
def execVnot (f : FV3) (s : State) : Host.Outcome State Fault Refusal :=
  vElem (.vnot f) f 1 false 32 (fun _ a _ _ => (2 ^ 32 - 1 - a, 0#7)) s

/-- VSHL (R251). -/
def execVshl (f : FV3) (s : State) : Host.Outcome State Fault Refusal :=
  vElem (.vshl f) f 2 false (etOf f.et.toNat).width
    (fun _ a b _ => shiftElem (etOf f.et.toNat) 0 f.sat a b) s

/-- VSHR (R251). -/
def execVshr (f : FV3) (s : State) : Host.Outcome State Fault Refusal :=
  vElem (.vshr f) f 2 false (etOf f.et.toNat).width
    (fun _ a b _ => shiftElem (etOf f.et.toNat) 1 f.sat a b) s

/-- VSHRA (R251). -/
def execVshra (f : FV3) (s : State) : Host.Outcome State Fault Refusal :=
  vElem (.vshra f) f 2 false (etOf f.et.toNat).width
    (fun _ a b _ => shiftElem (etOf f.et.toNat) 2 f.sat a b) s

/-- The range of a target code of VRSH (R252). -/
def rshRange (t : Nat) : Int × Int := match t with
  | 0 => (minOf true 4, maxOf true 4)
  | 1 => (minOf true 8, maxOf true 8)
  | 2 => (minOf false 8, maxOf false 8)
  | 3 => (minOf true 16, maxOf true 16)
  | 4 => (minOf false 16, maxOf false 16)
  | _ => (minOf true 32, maxOf true 32)

/-- Requant of one lane of VRSH (R252). -/
def rshLane (m : Rm) (x a z c : Nat) : Nat × BitVec 7 :=
  let r := rshRange (bitsOf c 8 3)
  let (v, fl) := requant (signedOf 32 x) (signedOf 32 a) (signedOf 32 z) (bitsOf c 0 6) r.1 r.2 m
  (wrapTo 32 v, fl)

/-- VRSH: the parameters stand in lines i, i + 1 and i + 2 of SRC2 (R252). -/
def execVrsh (f : FV3) (s : State) : Host.Outcome State Fault Refusal :=
  vTile (.vrsh f) f.tok f.dst f.k .lanes (v3Regs f) (v3Read f) [f.src1, f.src2] [1, 2, 2, 2]
    (fun en s off n j => match n with
      | 0 => lineAt s off f.src1 en.i1 0 j
      | k + 1 => lineAt s off f.src2 en.i2 k j)
    (fun _ j => [(0, j), (1, j), (2, j), (3, j)])
    (fun en c j => one (rshLane en.stamp.rm (c 0 j).1 (c 1 j).1 (c 2 j).1 (c 3 j).1)) s

/-! ### Compares, select, masks (R253 to R255) -/

/-- VCMPEQ (R253). -/
def execVcmpeq (f : FVCm) (s : State) : Host.Outcome State Fault Refusal :=
  vCompare (.vcmpeq f) f 0 false s

/-- VCMPNE (R253). -/
def execVcmpne (f : FVCm) (s : State) : Host.Outcome State Fault Refusal :=
  vCompare (.vcmpne f) f 0 true s

/-- VCMPLT (R253). -/
def execVcmplt (f : FVCm) (s : State) : Host.Outcome State Fault Refusal :=
  vCompare (.vcmplt f) f 1 false s

/-- VCMPLE (R253). -/
def execVcmple (f : FVCm) (s : State) : Host.Outcome State Fault Refusal :=
  vCompare (.vcmple f) f 2 false s

/-- VSEL: the selector bit picks the cell (R254). -/
def execVsel (f : FV3) (s : State) : Host.Outcome State Fault Refusal :=
  vTile (.vsel f) f.tok f.dst f.k .select (v3Regs f) (v3Read f) [f.src1, f.src2] [1, 2]
    (fun en s off n j => if n = 0 then lineAt s off f.src1 en.i1 0 j else lineAt s off f.src2 en.i2 0 j)
    (fun c j => if (c maskSrc j).1 = 1 then [(0, j)] else [(1, j)])
    (fun _ c j => one (if (c maskSrc j).1 = 1 then (c 0 j).1 else (c 1 j).1, 0#7)) s

/-- VKAND (R255). -/
def execVkand (f : FVK) (s : State) : Host.Outcome State Fault Refusal :=
  vMaskOp (.vkand f) f true (fun a b => a &&& b) s

/-- VKOR (R255). -/
def execVkor (f : FVK) (s : State) : Host.Outcome State Fault Refusal :=
  vMaskOp (.vkor f) f true (fun a b => a ||| b) s

/-- VKXOR (R255). -/
def execVkxor (f : FVK) (s : State) : Host.Outcome State Fault Refusal :=
  vMaskOp (.vkxor f) f true (fun a b => a ^^^ b) s

/-- VKNOT (R255). -/
def execVknot (f : FVK) (s : State) : Host.Outcome State Fault Refusal :=
  vMaskOp (.vknot f) f false (fun a _ => ~~~a) s

/-- VKPOPC (R255). -/
def execVkpopc (f : FVK) (s : State) : Host.Outcome State Fault Refusal :=
  vMaskScalar (.vkpopc f) f (fun a => BitVec.ofNat 64 ((List.range 64).filter (fun i => a.getLsbD i)).length) s

/-- VKFIRST: the lowest set bit, or 64 (R255). -/
def execVkfirst (f : FVK) (s : State) : Host.Outcome State Fault Refusal :=
  vMaskScalar (.vkfirst f) f
    (fun a => BitVec.ofNat 64 (((List.range 64).find? (fun i => a.getLsbD i)).getD 64)) s

/-! ### Conversions, transcendentals (R256 to R258) -/

/-- What the sequencer reads of a VCVT word. -/
def vcRead (f : FVC) (s : State) : Except Cause Taken := do
  let a ← s.index f.src.fromReg f.src.idx
  let d ← s.index f.dst.fromReg f.dst.idx
  s.tileWritable f.dst.tile.toNat
  return { Taken.none_ with i1 := a, idst := d }

/-- Elements a VCVT converts (R256). -/
def cvtCount (f : FVC) : Nat := 2048 / max (dtOf f.st.toNat).width (dtOf f.dt.toNat).width

/-- The source elements that map into a destination lane (R256). -/
def cvtElems (f : FVC) (j : Nat) : List Nat :=
  let p := 32 / (dtOf f.dt.toNat).width
  ((List.range p).map (fun i => j * p + i)).filter (fun k => decide (k < cvtCount f))

/-- The source lanes a destination lane takes. -/
def cvtDeps (f : FVC) (j : Nat) : List Nat :=
  ((cvtElems f j).map (fun k => k / (32 / (dtOf f.st.toNat).width))).dedup

/-- Element k of the source line. -/
def cvtSrc (f : FVC) (cell : Nat → Nat) (k : Nat) : Nat :=
  let w := (dtOf f.st.toNat).width
  bitsOf (cell (k / (32 / w))) (w * (k % (32 / w))) w

/-- A destination lane of an unscaled VCVT; elements past the last are zero (R256). -/
def cvtLane (f : FVC) (m : Rm) (cell : Nat → Nat) (j : Nat) : Nat × BitVec 7 :=
  let es := (cvtElems f j).map (fun k => convert (dtOf f.st.toNat) (dtOf f.dt.toNat) m f.sat (cvtSrc f cell k))
  (packBits (dtOf f.dt.toNat).width (es.map Prod.fst), orFlags (es.map Prod.snd))

/-- The format of a float type code. -/
def fltFmt (t : Nat) : Fmt := match dtOf t with
  | .flt x => x
  | .int _ _ => fF32

/-- Block b of a scaled VCVT: its scale and elements (R66, R257). -/
def cvtBlock (f : FVC) (m : Rm) (cell : Nat → Nat) (b : Nat) : Nat × List (Nat × BitVec 7) :=
  blockConvert (fltFmt f.st.toNat) f.dt.toNat m
    ((List.range 32).map (fun i => (fltFmt f.st.toNat).decode (cvtSrc f cell (32 * b + i))))

/-- Cells that a scaled VCVT's elements fill; the scales stand in the next (R257). -/
def scaledCells (f : FVC) : Nat := cvtCount f * (dtOf f.dt.toNat).width / 32

/-- The blocks a lane's value rests on: those of its elements, of every element for the scale cell. -/
def scaledBlocks (f : FVC) (j : Nat) : List Nat :=
  if j < scaledCells f then ((cvtElems f j).map (fun k => k / 32)).dedup
  else if j = scaledCells f then List.range (ceilDiv (cvtCount f) 32) else []

/-- The source lanes of those blocks. -/
def scaledDeps (f : FVC) (j : Nat) : List Nat :=
  let p := 32 / (dtOf f.st.toNat).width
  (scaledBlocks f j).flatMap (fun b => (List.range (32 / p)).map (fun i => 32 * b / p + i))

/-- A destination lane of a scaled VCVT (R257). -/
def scaledLane (f : FVC) (m : Rm) (cell : Nat → Nat) (j : Nat) : Nat × BitVec 7 :=
  if j < scaledCells f then
    let es := (cvtElems f j).map (fun k => ((cvtBlock f m cell (k / 32)).2).getD (k % 32) (0, 0#7))
    (packBits (dtOf f.dt.toNat).width (es.map Prod.fst), orFlags (es.map Prod.snd))
  else if j = scaledCells f then
    (packBits 8 ((scaledBlocks f j).map (fun b => (cvtBlock f m cell b).1)), 0#7)
  else (0, 0#7)

/-- The float format of an ET code of 5 to 7. -/
def fltOf (et : Nat) : Fmt := match etOf et with
  | .flt t => t
  | .int _ _ => fF32

/-- VCVT (R256, R257). -/
def execVcvt (f : FVC) (s : State) : Host.Outcome State Fault Refusal :=
  if scaledType f.dt.toNat then
    vTile (.vcvt f) f.tok f.dst f.k .lanes (lineRegs f.src ++ dlineRegs f.dst) (vcRead f) [f.src] [1]
      (fun en s off _ j => lineAt s off f.src en.i1 0 j)
      (fun _ j => (scaledDeps f j).map (fun l => (0, l)))
      (fun en c j => one (scaledLane f en.stamp.rm (fun l => (c 0 l).1) j)) s
  else
    vTile (.vcvt f) f.tok f.dst f.k .lanes (lineRegs f.src ++ dlineRegs f.dst) (vcRead f) [f.src] [1]
      (fun en s off _ j => lineAt s off f.src en.i1 0 j)
      (fun _ j => (cvtDeps f j).map (fun l => (0, l)))
      (fun en c j => one (cvtLane f en.stamp.rm (fun l => (c 0 l).1) j)) s

/-- VEXP2 (R77, R78, R258). -/
def execVexp2 (f : FV3) (s : State) : Host.Outcome State Fault Refusal :=
  vElem (.vexp2 f) f 1 false (etOf f.et.toNat).width
    (fun _ a _ _ => vexp2Elem (fltOf f.et.toNat) a) s

/-- VLOG2 (R77, R78, R258). -/
def execVlog2 (f : FV3) (s : State) : Host.Outcome State Fault Refusal :=
  vElem (.vlog2 f) f 1 false (etOf f.et.toNat).width
    (fun _ a _ _ => vlog2Elem (fltOf f.et.toNat) a) s

/-- VRCP (R77, R78, R258). -/
def execVrcp (f : FV3) (s : State) : Host.Outcome State Fault Refusal :=
  vElem (.vrcp f) f 1 false (etOf f.et.toNat).width
    (fun _ a _ _ => vrcpElem (fltOf f.et.toNat) a) s

/-- VRSQ (R77, R78, R258). -/
def execVrsq (f : FV3) (s : State) : Host.Outcome State Fault Refusal :=
  vElem (.vrsq f) f 1 false (etOf f.et.toNat).width
    (fun _ a _ _ => vrsqElem (fltOf f.et.toNat) a) s

/-- VTANH (R77, R78, R258). -/
def execVtanh (f : FV3) (s : State) : Host.Outcome State Fault Refusal :=
  vElem (.vtanh f) f 1 false (etOf f.et.toNat).width
    (fun _ a _ _ => vtanhElem (fltOf f.et.toNat) a) s

/-! ### Reductions and scans (R259, R260) -/

/-- The elements of covered lanes in ascending order. -/
def coverElems (w : Nat) (lanes : List Nat) (cell : Nat → Nat) : List Nat :=
  lanes.flatMap (fun j => (List.range (32 / w)).map (fun e => bitsOf (cell j) (w * e) w))

/-- VREDSUM's result: an exact sum modulo 2³², or an f32 sum rounded at each step (R259). -/
def sumOf (ty : ETy) (m : Rm) (l : List Nat) : Nat × BitVec 7 :=
  match ty with
  | .int sg w => (wrapTo 32 (l.map (intOf sg w)).sum, 0#7)
  | .flt t =>
    match l with
    | [] => (0, 0#7)
    | x :: xs => xs.foldl (fun acc y =>
        let (v, fl) := fF32.round m false ((fF32.decode acc.1).add m (t.decode y))
        (v, acc.2 ||| fl)) (convert (.flt t) (.flt fF32) m false x)

/-- VREDMAX's or VREDMIN's result, widened to 32 bits (R259). -/
def extremeOf (ty : ETy) (isMax : Bool) (l : List Nat) : Nat × BitVec 7 :=
  match l with
  | [] => (0, 0#7)
  | x :: xs =>
    let v := xs.foldl (minMax ty isMax) x
    match ty with
    | .int sg w => (wrapTo 32 (intOf sg w v), 0#7)
    | .flt t => ((convert (.flt t) (.flt fF32) .rne false v).1, 0#7)

/-- A reduction: one result to every covered lane (R259). -/
def vReduce (i : Instr) (f : FV3) (op : Rm → List Nat → Nat × BitVec 7) (s : State) :
    Host.Outcome State Fault Refusal :=
  vTile i f.tok f.dst f.k .lanes (v3Regs f) (v3Read f) [f.src1] [1]
    (fun en s off _ j => lineAt s off f.src1 en.i1 0 j)
    (fun c _ => (covered c).map (fun l => (0, l)) ++ (List.range 64).map (fun l => (maskSrc, l)))
    (fun en c _ => one (op en.stamp.rm (coverElems (etOf f.et.toNat).width (covered c) (fun l => (c 0 l).1)))) s

/-- One addition of a scan (R260). -/
def scanAdd (ty : ETy) (m : Rm) (a b : Nat) : Nat × BitVec 7 :=
  arith2 ty m false (fun x y => x + y) (fun x y => x.add m y) a b

/-- The first element of a scan: exactly itself, a NaN in its canonical form (R62, R260). -/
def scanFirst (ty : ETy) (x : Nat) : Nat := match ty with
  | .flt t => if (t.decode x).isNan then t.nanBits else x
  | .int _ _ => x

/-- The inclusive sums of a list of elements, each with the flags of its addition. -/
def scanList (ty : ETy) (m : Rm) : List Nat → List (Nat × BitVec 7)
  | [] => []
  | x :: xs => (xs.foldl (fun (st : List (Nat × BitVec 7) × Nat) y =>
      let v := scanAdd ty m st.2 y
      (st.1 ++ [v], v.1)) ([(scanFirst ty x, 0#7)], scanFirst ty x)).1

/-- A lane of VSCANADD (R260). -/
def scanLane (ty : ETy) (m : Rm) (lanes : List Nat) (cell : Nat → Nat) (j : Nat) : Nat × BitVec 7 :=
  let p := 32 / ty.width
  let before := (lanes.takeWhile (fun l => l != j)).length
  let es := ((scanList ty m (coverElems ty.width (lanes.filter (fun l => decide (l ≤ j))) cell)).drop (p * before)).take p
  (packBits ty.width (es.map Prod.fst), orFlags (es.map Prod.snd))

/-- VREDSUM (R259). -/
def execVredsum (f : FV3) (s : State) : Host.Outcome State Fault Refusal :=
  vReduce (.vredsum f) f (fun m l => sumOf (etOf f.et.toNat) m l) s

/-- VREDMAX (R259). -/
def execVredmax (f : FV3) (s : State) : Host.Outcome State Fault Refusal :=
  vReduce (.vredmax f) f (fun _ l => extremeOf (etOf f.et.toNat) true l) s

/-- VREDMIN (R259). -/
def execVredmin (f : FV3) (s : State) : Host.Outcome State Fault Refusal :=
  vReduce (.vredmin f) f (fun _ l => extremeOf (etOf f.et.toNat) false l) s

/-- VSCANADD: inclusive sums in ascending element order (R260). -/
def execVscanadd (f : FV3) (s : State) : Host.Outcome State Fault Refusal :=
  vTile (.vscanadd f) f.tok f.dst f.k .lanes (v3Regs f) (v3Read f) [f.src1] [1]
    (fun en s off _ j => lineAt s off f.src1 en.i1 0 j)
    (fun c j => ((covered c).filter (fun l => decide (l ≤ j))).map (fun l => (0, l)) ++
      (List.range (j + 1)).map (fun l => (maskSrc, l)))
    (fun en c j => one (scanLane (etOf f.et.toNat) en.stamp.rm (covered c) (fun l => (c 0 l).1) j)) s

/-! ### Moves, permutes, lane access (R261, R262) -/

/-- The destination line of a VX word. -/
def vxDst (f : FVX) : DLine := { tile := f.line.tile, dir := f.line.dir, fromReg := f.line.fromReg, idx := f.line.idx }

/-- What the sequencer reads of VBCAST and VSETS: the index, and S as a data value (R41). -/
def vxRead (f : FVX) (s : State) : Except Cause Taken := do
  let d ← s.index f.line.fromReg f.line.idx
  let v := s.rd f.s
  if v.pois && !s.spec then throw (Cause.poison 5)
  s.tileWritable f.line.tile.toNat
  return { Taken.none_ with val := v.bits, idst := d, bad := v.pois }

/-- The source elements that a cell of VPERM's indices picks (R261). -/
def permOf (w cell : Nat) : List Nat := (List.range (32 / w)).map (fun i => bitsOf cell (w * i) w % (2048 / w))

/-- A number as an element: modulo 2ʷ, or exactly as a float (R261). -/
def iotaOf (ty : ETy) (n : Nat) : Nat := match ty with
  | .int _ w => n % 2 ^ w
  | .flt t => (t.round .rne false (Val.ofInt n)).1

/-- VBCAST: S to every element; a poisoned S under SPEC poisons every lane (R41, R261). -/
def execVbcast (f : FVX) (s : State) : Host.Outcome State Fault Refusal :=
  let w := (etOf f.et.toNat).width
  vTile (.vbcast f) f.tok (vxDst f) f.k .lanes (f.s :: lineRegs f.line) (vxRead f) [] [5]
    (fun en _ _ _ _ => (en.val.toNat, en.bad))
    (fun _ _ => [(0, 0)])
    (fun _ c _ => one (packBits w (List.replicate (32 / w) ((c 0 0).1 % 2 ^ w)), 0#7)) s

/-- VMOV: whole cells, with their poison (R261). -/
def execVmov (f : FV3) (s : State) : Host.Outcome State Fault Refusal :=
  vElem (.vmov f) f 1 false 32 (fun _ a _ _ => (a, 0#7)) s

/-- VPERM: element e from SRC1 element x mod n (R261). -/
def execVperm (f : FV3) (s : State) : Host.Outcome State Fault Refusal :=
  let w := (etOf f.et.toNat).width
  let p := 32 / w
  vTile (.vperm f) f.tok f.dst f.k .lanes (v3Regs f) (v3Read f) [f.src1, f.src2] [1, 2]
    (fun en s off n j => if n = 0 then lineAt s off f.src1 en.i1 0 j else lineAt s off f.src2 en.i2 0 j)
    (fun c j => (1, j) :: (permOf w (c 1 j).1).map (fun e => (0, e / p)))
    (fun _ c j => one (packBits w ((permOf w (c 1 j).1).map (fun e => bitsOf (c 0 (e / p)).1 (w * (e % p)) w)), 0#7)) s

/-- VIOTA: the element numbers (R261). -/
def execViota (f : FV3) (s : State) : Host.Outcome State Fault Refusal :=
  let w := (etOf f.et.toNat).width
  let p := 32 / w
  vTile (.viota f) f.tok f.dst f.k .lanes (dlineRegs f.dst) (v3Read f) [] []
    (fun _ _ _ _ _ => (0, false))
    (fun _ _ => [])
    (fun _ _ j => one (packBits w ((List.range p).map (fun i => iotaOf (etOf f.et.toNat) (j * p + i))), 0#7)) s

/-- Element 0 of a cell as a scalar: sign-extended for a signed type (R261). -/
def getsOf (ty : ETy) (cell : Nat) : Word := match ty with
  | .int true w => BitVec.ofInt 64 (signedOf w (cell % 2 ^ w))
  | t => BitVec.ofNat 64 (cell % 2 ^ t.width)

/-- VGETS: element 0 of a lane to S (R261, R247). -/
def execVgets (f : FVX) (s : State) : Host.Outcome State Fault Refusal :=
  engineInstr .v (.vgets f) f.tok none (lineRegs f.line)
    (fun s => do
      let i ← s.index f.line.fromReg f.line.idx
      let pend ← scalarDst s f.s
      return { Taken.none_ with i1 := i, idst := f.s, sPend := pend })
    (fun en s =>
      match prepTiles en.spec [f.line.tile.toNat] none s with
      | .fault c k => .fault s c k
      | .wait s1 w => .wait s1 w
      | .ok s1 off =>
        let v := lineAt s1 off f.line en.i1 0 f.lane.toNat
        if !en.spec && v.2 then .fault s1 cPOISON 1#8
        else .done (putScalar (lastUses s1 off [f.line] none) f.s (getsOf (etOf f.et.toNat) v.1) v.2)) s

/-- VSETS: element 0 of a lane from S, where the lane is below VC (R261, R42). -/
def execVsets (f : FVX) (s : State) : Host.Outcome State Fault Refusal :=
  let t := f.line.tile.toNat
  engineInstr .v (.vsets f) f.tok none (f.s :: lineRegs f.line) (vxRead f)
    (fun en s =>
      match prepTiles en.spec [] (some t) s with
      | .fault c k => .fault s c k
      | .wait s1 w => .wait s1 w
      | .ok s1 _ =>
        if en.stamp.vc.toNat ≤ f.lane.toNat then .done s1
        else
          let (s2, ready) := readyDst t s1
          if !ready then .wait s2 .wake
          else
            let w := (etOf f.et.toNat).width
            let old := srcCell s2 [] t f.line.dir en.idst.toNat f.lane.toNat
            let v := old.1 / 2 ^ w * 2 ^ w + en.val.toNat % 2 ^ w
            let p := en.bad || (w != 32 && old.2)
            .done (putLine s2 t f.line.dir en.idst.toNat [(f.lane.toNat, (v, p))]).useFree) s

/-- VPOIS: the poison bits as numbers; nothing is consumed (R262). -/
def execVpois (f : FV3) (s : State) : Host.Outcome State Fault Refusal :=
  vTile (.vpois f) f.tok f.dst f.k .plain (v3Regs f) (v3Read f) [f.src1] [1]
    (fun en s off _ j => lineAt s off f.src1 en.i1 0 j)
    (fun _ _ => [])
    (fun _ c j => one (b2n (c 0 j).2, 0#7)) s

/-! ### Accumulator planes, the generator (R263, R264) -/

/-- Row and column of element j of a plane line (R142). -/
def planeCell (dir : Bool) (idx : BitVec 7) (h : Bool) (j : Nat) : Nat × Nat :=
  if dir then (j, idx.toNat) else (idx.toNat, 64 * b2n h + j)

/-- A plane cell as VACC gives it (R263). -/
def vaccOf (dt : Nat) (m : Rm) (sat : Bool) (x : Nat) : Nat × BitVec 7 :=
  if dt = 13 then fF32.round m sat (fF48.decode x)
  else narrow (dt == 4) 32 sat (signedOf 48 x)

/-- VACC: a plane line to a tile line (R263). -/
def execVacc (f : FVA) (s : State) : Host.Outcome State Fault Refusal :=
  vTile (.vacc f) f.tok f.dst f.k .lanes (dlineRegs f.dst)
    (fun s => do
      let d ← s.index f.dst.fromReg f.dst.idx
      s.tileWritable f.dst.tile.toNat
      return { Taken.none_ with idst := d })
    [] [8]
    (fun _ s _ _ j =>
      let rc := planeCell f.dir f.idx f.h j
      let v := s.ctx.pcell (b2n f.p) rc.1 rc.2
      (v.bits.toNat, v.pois))
    (fun _ j => [(0, j)])
    (fun en c j => one (vaccOf f.dt.toNat en.stamp.rm f.sat (c 0 j).1)) s

/-- Mix4 of a lane's counter and key cells (R264). -/
def hashLane (c : Nat → Nat) : List Nat :=
  let r := mix4 (BitVec.ofNat 64 (c 0 + 2 ^ 32 * c 1)) (BitVec.ofNat 64 (c 2 + 2 ^ 32 * c 3))
    (BitVec.ofNat 64 (c 4 + 2 ^ 32 * c 5))
  [r.toNat % 2 ^ 32, r.toNat / 2 ^ 32]

/-- VHASH: four counter lines and two key lines to two lines (R264). -/
def execVhash (f : FV3) (s : State) : Host.Outcome State Fault Refusal :=
  vTile (.vhash f) f.tok f.dst f.k .lanes (v3Regs f) (v3Read f) [f.src1, f.src2] [1, 1, 1, 1, 2, 2]
    (fun en s off n j =>
      if n < 4 then lineAt s off f.src1 en.i1 n j else lineAt s off f.src2 en.i2 (n - 4) j)
    (fun _ j => (List.range 6).map (fun n => (n, j)))
    (fun _ c j => (hashLane (fun n => (c n j).1), 0#7)) s

end Sys2Proof.Machine
end

