-- ==== Sys2Proof/Machine/Store.lean ====
section
/-! DEFINITION. The S class (R265 to R268). -/

namespace Sys2Proof.Machine

/-! ### Shared work -/

/-- A byte an S entry writes: its address, its value, whether it is from a poisoned cell. -/
structure OutByte where
  addr : Nat
  val : Byte
  pois : Bool
  deriving DecidableEq, Repr

/-- Writes an entry's bytes: contents, live bits, and the granules' marks, set by a poisoned byte and
cleared where the entry writes a whole granule clean (R53, R57, R265). -/
def padStore (c : Ctx) (bs : List OutByte) : Ctx :=
  let gs := (bs.map (fun b => b.addr / 256)).dedup
  { c with
    pad := bs.foldl (fun m b => Sparse.set memDefault m b.addr b.val) c.pad
    glive := gs.foldl (fun m g => Sparse.set (fun _ => false) m g true) c.glive
    gpois := gs.foldl (fun m g =>
      let mine := bs.filter (fun b => b.addr / 256 == g)
      if mine.any OutByte.pois then Sparse.set (fun _ => false) m g true
      else if mine.length = 256 then Sparse.set (fun _ => false) m g false
      else m) c.gpois }

/-- The bytes of a number at an address. -/
def outBytes (a n : Nat) (v : Nat × Bool) : List OutByte :=
  (bytesOfNat n v.1).mapIdx (fun i b => { addr := a + i, val := b, pois := v.2 })

/-- What the sequencer reads of an S word: A as an address, the line index, alignment and range (R265). -/
def sRead (fromReg : Bool) (idx : BitVec 6) (a : Reg) (off : BitVec 16) (align : Nat) (n : State → Nat)
    (s : State) : Except Cause Taken := do
  let ad ← s.engineAddr a off
  let i ← s.index fromReg idx
  let bad ← s.padRange ad align (n s)
  return { Taken.none_ with val := ad, i1 := i, bad := bad }

/-- Writes an entry's bytes, their banks woken first; none waits (R55, R265). -/
def sWrite (bs : List OutByte) (s : State) : Option State × State :=
  let (s1, ready) := prepPadWrite (bs.map (fun b => (b.addr, 1))) s
  if ready then (some ((s1.setCtx (padStore s1.ctx bs)).countPort (bs.map (fun b => (b.addr, 1)))), s1) else (none, s1)

/-- The bytes an S entry writes: none where its range failed under SPEC (R265). -/
def sOut (en : Entry) (bs : List OutByte) : List OutByte := if en.bad then [] else bs

/-- The work of an S entry that stores tile lines: `out` gives its bytes (R265, R266). -/
def sTile (f : FLN) (out : (Nat → Nat → Nat × Bool) → Entry → List OutByte) (en : Entry) (s : State) : EngOut :=
  match prepTiles en.spec [f.line.tile.toNat] none s with
    | .fault c k => .fault s c k
    | .wait s1 w => .wait s1 w
    | .ok s1 off =>
      match sWrite (sOut en (out (fun i j => srcCell s1 off f.line.tile.toNat f.line.dir i j) en)) s1 with
      | (some s2, _) => .done (lastUses s2 off [f.line] none)
      | (none, s2) => .wait s2 .wake

/-! ### Meanings -/

/-- SLINE: the lanes below VC of a line; the range checked is the whole line's (R265, R266). (DESIGN CHOICE, log 74) -/
def execSline (f : FLN) (s : State) : Host.Outcome State Fault Refusal :=
  engineInstr .s (.sline f) f.tok (relScope f.rel f.scope) ([f.a] ++ lineRegs f.line)
    (sRead f.line.fromReg f.line.idx f.a f.off 64 (fun _ => 256))
    (sTile f (fun cell en => (List.range en.stamp.vc.toNat).flatMap (fun j =>
      outBytes (en.val.toNat + 4 * j) 4 (cell en.i1.toNat j)))) s

/-- STILE: the rows below VC of a tile register; the range checked is the whole tile's (R265, R266).
(DESIGN CHOICE, log 74) -/
def execStile (f : FLN) (s : State) : Host.Outcome State Fault Refusal :=
  let p := tilePitch f.param
  engineInstr .s (.stile f) f.tok (relScope f.rel f.scope) [f.a]
    (sRead false 0#6 f.a f.off 64 (fun _ => 63 * p + 256))
    (sTile f (fun cell en => (List.range en.stamp.vc.toNat).flatMap (fun r => (List.range 64).flatMap (fun j =>
      outBytes (en.val.toNat + r * p + 4 * j) 4 (cell r j))))) s

/-- STRANS: element k of the tile rows below VC to memory row k; the range checked is the whole tile's (R265, R266).
(DESIGN CHOICE, log 74) -/
def execStrans (f : FLN) (s : State) : Host.Outcome State Fault Refusal :=
  let e := transBytes f.param
  let p := transPitch f.param
  engineInstr .s (.strans f) f.tok (relScope f.rel f.scope) [f.a]
    (sRead false 0#6 f.a f.off 64 (fun _ => (256 / e - 1) * p + 64 * e))
    (sTile f (fun cell en => (List.range (256 / e)).flatMap (fun k =>
      (List.range en.stamp.vc.toNat).flatMap (fun i =>
        let v := cell i (k / (4 / e))
        outBytes (en.val.toNat + k * p + e * i) e (bitsOf v.1 (8 * e * (k % (4 / e))) (8 * e), v.2))))) s

/-- A plane cell as SACC converts it with its parameters (R268). -/
def saccOf (dt x m z sh : Nat) : Nat × BitVec 7 :=
  match dtOf dt with
  | .int sg w =>
    let (v, fl) := requant (signedOf 48 x) (signedOf 32 m) (signedOf 32 z) sh (minOf sg w) (maxOf sg w) .rna
    (wrapTo w v, fl)
  | .flt t => t.round .rna true (((fF48.decode x).mul (fF32.decode m)).add .rna (fF32.decode z))

/-- The columns SACC converts (R268). -/
def saccCols (f : FSA) (vc : Nat) : List Nat := (List.range vc).map (fun k => (if f.dir then f.idx.toNat else 64 * b2n f.h + k))

/-- The parameter spans of a column (R267). -/
def saccSpans (base c : Nat) : List (Nat × Nat) := [(base + 4 * c, 4), (base + 512 + 4 * c, 4), (base + 1024 + c, 1)]

/-- Elements of 4 bits as bytes; a half byte that no element fills keeps its old bits (R42, R268). -/
def nibbleBytes (c : Ctx) (a : Nat) (es : List (Nat × Bool)) : List OutByte :=
  (List.range (ceilDiv es.length 2)).map (fun i =>
    let lo := es.getD (2 * i) (0, false)
    let hi := es.getD (2 * i + 1) ((c.padByte (a + i)).toNat / 16, false)
    { addr := a + i, val := BitVec.ofNat 8 (lo.1 % 16 + 16 * (hi.1 % 16)), pois := lo.2 || hi.2 })

/-- SACC: a plane line converted by the parameters at SQP (R267, R268); the range checked is that of the elements below
VC (R265). (DESIGN CHOICE, log 74) -/
def execSacc (f : FSA) (s : State) : Host.Outcome State Fault Refusal :=
  let w := (dtOf f.dt.toNat).width
  engineInstr .s (.sacc f) f.tok (relScope f.rel f.scope) [f.a]
    (sRead false 0#6 f.a f.off 32 (fun s => ceilDiv (s.bank.vc.toNat * w) 8))
    (fun en s =>
        let vc := en.stamp.vc.toNat
        let cols := saccCols f vc
        let base := 256 * en.stamp.sqp.toNat
        let spans := cols.flatMap (saccSpans base)
        let past := spans.any (fun sp => decide (s.ctx.spSize < sp.1 + sp.2))
        if past && !en.spec then .fault s cDATA 0#8
        else match (if past then Prep.ok s [] else prepPad en.spec spans s) with
          | .fault c k => .fault s c k
          | .wait s1 w => .wait s1 w
          | .ok s1 off0 =>
            let off := (off0 ++ en.offs).dedup
            let bad (c : Nat) : Bool := past || (saccSpans base c).any (fun sp => padBad s1.ctx off sp.1 sp.2)
            if !en.spec && cols.any bad then .fault s1 cPOISON 8#8
            else
              let es := cols.mapIdx (fun k c =>
                let rc := planeCell f.dir f.idx f.h k
                let x := s1.ctx.pcell (b2n f.p) rc.1 rc.2
                let num (o n : Nat) : Nat := natOfBytes (s1.ctx.padBytes (base + o) n)
                let p := x.pois || bad c
                let (v, fl) := saccOf f.dt.toNat x.bits.toNat (num (4 * c) 4) (num (512 + 4 * c) 4) (num (1024 + c) 1 % 64)
                (if p then (s1.freshBits k).toNat % 2 ^ w else v, p, if p then 0#7 else fl))
              let bs := if w = 4 then nibbleBytes s1.ctx en.val.toNat (es.map (fun e => (e.1, e.2.1)))
                else (es.mapIdx (fun k e => outBytes (en.val.toNat + k * (w / 8)) (w / 8) (e.1, e.2.1))).flatten
              match sWrite (sOut en bs) s1 with
              | (some s2, _) => .done (((s2.countPort spans).setFlags (orFlags (es.map (fun e => e.2.2)))).useFree)
              | (none, s2) => .wait (s2.onHead .s (fun x => { x with offs := off })) .wake) s

end Sys2Proof.Machine
end

