-- ==== Sys2Proof/Machine/MemInstr.lean ====
section
/-! DEFINITION. The MEM class but for versions, banks and gutters: loads, stores, atomics, counters, fences,
bindings (R189 to R204). -/

namespace Sys2Proof.Machine

/-! ### Shared operations -/

/-- The address of an MO form (R191). -/
def moAddr (a : Word) (off : BitVec 24) : Word := a + off.signExtend 64

/-- Bytes of a width field. -/
def widthOf (w : BitVec 2) : Nat := 2 ^ w.toNat

/-- A scalar destination written poisoned: its bits are free (R51, R190). -/
def State.wrPois (s : State) (d : Reg) (k : Nat) : State := s.wr d { bits := s.freshBits k, pois := true }

/-- A scalar destination written with a loaded value (R191, R53). -/
def State.wrLoaded (s : State) (d : Reg) (v : Word) (p : Bool) : State :=
  if p then (s.wrPois d 0).useFree else s.wrc d v

/-- A number of n bytes extended to 64 bits (R191). -/
def extendTo (signed : Bool) (n v : Nat) : Word :=
  if signed then (BitVec.ofNat (8 * n) v).signExtend 64 else BitVec.ofNat 64 v

/-! ### Global and scratchpad loads and stores (R190 to R194) -/

/-- Bytes that an access made in parts has read or written so far (R121). -/
def State.partBytes (s : State) : List Byte × Bool := match s.given .part with
  | .bytes bs p => (bs, p)
  | _ => ([], false)

/-- Whether only the next byte of an access of n bytes is performed now: the access is unaligned, the step performs
a part, and more than one byte is left (R121). (DESIGN CHOICE, log 9) -/
def State.byteOnly (s : State) (va n : Nat) : Bool :=
  s.parts && va % n != 0 && decide (s.partBytes.1.length + 1 < n)

/-- A load from global memory; an unaligned one is made of single-byte accesses, in one step or several (R121);
under SP a DATA_FAULT writes poison and reports nothing (R190, R191). -/
def loadGlobal (f : FMLd) (signed : Bool) (s : State) : SeqOut :=
  consume s f.a 1 (fun a =>
    let va := (moAddr a f.off).toNat
    let n := widthOf f.w
    match s.checkData va n .r with
    | .error (s1, c) => if f.sp && c.code == cDATA then .done (s.wrPois f.d 0).useFree else .trap s1 c
    | .ok ps =>
      let had := s.partBytes
      let k := had.1.length
      if s.byteOnly va n then
        let (s1, bs, p) := s.readData ps (va + k) 1
        .wait (s1.hold .part (.bytes (had.1 ++ bs) (had.2 || p))) .part false
      else
        let (s1, bs, p) := s.readData ps (va + k) (n - k)
        .done (s1.wrLoaded f.d (extendTo signed n (natOfBytes (had.1 ++ bs))) (had.2 || p)))

/-- LD (R191). -/
def execLd (f : FMLd) (s : State) : Host.Outcome State Fault Refusal :=
  seqInstr [f.a] [f.d] (loadGlobal f false) s

/-- LDS (R191). -/
def execLds (f : FMLd) (s : State) : Host.Outcome State Fault Refusal :=
  seqInstr [f.a] [f.d] (loadGlobal f true) s

/-- The store of ST: the data is no consumed source (R52, R192); an unaligned one is made of single-byte accesses,
in one step or several (R121). -/
def storeGlobal (f : FMSt) (s : State) : SeqOut :=
  consume s f.a 1 (fun a =>
    let va := moAddr a f.off
    let n := widthOf f.w
    match s.checkData va.toNat n .w with
    | .error (s1, c) => .trap s1 c
    | .ok ps =>
      if (s.inWindow va.toNat n).isSome then .trap s (Cause.seq cFABRIC 0 va)
      else
        let v := s.rd f.b
        let k := s.partBytes.1.length
        let bs := (bytesOfNat n v.bits.toNat).drop k
        if s.byteOnly va.toNat n then
          let s1 := s.writeData ps (va.toNat + k) (bs.take 1) v.pois
          .wait (s1.hold .part (.bytes (s.partBytes.1 ++ bs.take 1) false)) .part false
        else .done (s.writeData ps (va.toNat + k) bs v.pois))

/-- ST (R192). -/
def execSt (f : FMSt) (s : State) : Host.Outcome State Fault Refusal :=
  seqInstr [f.a, f.b] [] (storeGlobal f) s

/-- The scratchpad load of LDL (R194, R190). -/
def loadPad (f : FMLd) (s : State) : SeqOut :=
  consume s f.a 1 (fun a =>
    let ad := moAddr a f.off
    let n := widthOf f.w
    if s.ctx.spSize < ad.toNat + n then
      if f.sp then .done (s.wrPois f.d 0).useFree else .trap s (Cause.seq cDATA 0 ad)
    else
      match (banksOf ad.toNat n).find? (fun b => (s.ctx.padBank b).state == .off) with
      | some b =>
        if !f.sp then .trap s (Cause.seq cDROPPED 0 (BitVec.ofNat 64 (64 + b)))
        else
          let (c1, ok) := s.ctx.padWakeAll ((banksOf ad.toNat n).filter (fun b => (s.ctx.padBank b).state != .off))
          if ok then .done ((s.setCtx c1).wrPois f.d 0).useFree else .wait (s.setCtx c1) .wake false
      | none =>
        let (s1, ok) := prepPadWrite [(ad.toNat, n)] s
        if ok then .done (s1.wrLoaded f.d (BitVec.ofNat 64 (natOfBytes (s1.ctx.padBytes ad.toNat n)))
          (s1.ctx.padPoison ad.toNat n))
        else .wait s1 .wake false)

/-- LDL (R194). -/
def execLdl (f : FMLd) (s : State) : Host.Outcome State Fault Refusal :=
  seqInstr [f.a] [f.d] (loadPad f) s

/-- The scratchpad store of STL (R194). -/
def storePad (f : FMSt) (s : State) : SeqOut :=
  consume s f.a 1 (fun a =>
    let ad := moAddr a f.off
    let n := widthOf f.w
    if s.ctx.spSize < ad.toNat + n then .trap s (Cause.seq cDATA 0 ad)
    else
      let (s1, ok) := prepPadWrite [(ad.toNat, n)] s
      if ok then
        let v := s1.rd f.b
        .done (s1.setCtx (s1.ctx.padWrite ad.toNat (bytesOfNat n v.bits.toNat) v.pois))
      else .wait s1 .wake false)

/-- STL (R194). -/
def execStl (f : FMSt) (s : State) : Host.Outcome State Fault Refusal :=
  seqInstr [f.a, f.b] [] (storePad f) s

/-! ### Atomics (R196 to R198, R135, R136) -/

/-- An atomic inside a reduction window: a contribution, or FABRIC_ERROR (R136, R407). (DEDUCED, log 34)
(DEDUCED, log 35) -/
def contribution (f : FMAt) (op : Nat) (w : Window) (va : Word) (pa : Nat) (b : Word) (s : State) : SeqOut :=
  if widthOf f.w = (if w.w64 then 8 else 4) ∧ op ≤ 7 ∧ f.d = 0#6 ∧ f.scope = 4#3 ∧ s.links ≠ BitVec.allOnes 16 then
    .done { s with contribs := s.contribs ++ [{ ident := w.ident, pa := pa, off := va.toNat - w.base, op := op, val := b
                                                ctx := s.ctx.id, part := s.ctx.part.toNat, tag := s.tagOf s.ctx, phase := s.phaseOf s.ctx }] }
  else .trap s (Cause.seq cFABRIC 0 va)

/-- The checks of an atomic, then its effect on the old value at the home: the new value, if it writes one
(R189, R196, R198). Code 9 stands for CAS. -/
def atomBody (f : FMAt) (op : Nat) (b : Word) (va : Word) (new : Nat → Option Nat) (s : State) : SeqOut :=
  let n := widthOf f.w
  if va.toNat % n ≠ 0 then .trap s (Cause.seq cALIGN 0 va)
  else match s.checkData va.toNat n .rw with
    | .error (s1, c) => .trap s1 c
    | .ok ps =>
      let pa := physOf ps va.toNat
      match s.inWindow va.toNat n with
      | some w => contribution f op w va pa b s
      | none =>
        let s1 := s.flushGranule pa
        if !s1.scopeOk s1.me f.scope.toNat pa then .trap s (Cause.seq cSCOPE 0 va)
        else if s1.marked pa then .trap s (Cause.poison 6)
        else
          let old := s1.natAt pa n
          let s2 := match new old with
            | some v => s1.rawWrite pa (bytesOfNat n v)
            | none => s1
          .done ((s2.scopeTake s2.me f.scope.toNat pa).wrc f.d (BitVec.ofNat 64 old))

/-- ATOM with its operation (R196). -/
def atomRun (f : FMAt) (op : Nat) (s : State) : SeqOut :=
  consume s f.a 1 (fun a => consume s f.b 2 (fun b =>
    atomBody f op b (moAddr a f.off) (fun old => some (atomNew op (8 * widthOf f.w) old b.toNat)) s))

/-- ATOM.add (R196). -/
def execAtomAdd (f : FMAt) (s : State) : Host.Outcome State Fault Refusal :=
  seqInstr [f.a, f.b] [f.d] (atomRun f 0) s

/-- ATOM.and (R196). -/
def execAtomAnd (f : FMAt) (s : State) : Host.Outcome State Fault Refusal :=
  seqInstr [f.a, f.b] [f.d] (atomRun f 1) s

/-- ATOM.or (R196). -/
def execAtomOr (f : FMAt) (s : State) : Host.Outcome State Fault Refusal :=
  seqInstr [f.a, f.b] [f.d] (atomRun f 2) s

/-- ATOM.xor (R196). -/
def execAtomXor (f : FMAt) (s : State) : Host.Outcome State Fault Refusal :=
  seqInstr [f.a, f.b] [f.d] (atomRun f 3) s

/-- ATOM.min (R196). -/
def execAtomMin (f : FMAt) (s : State) : Host.Outcome State Fault Refusal :=
  seqInstr [f.a, f.b] [f.d] (atomRun f 4) s

/-- ATOM.max (R196). -/
def execAtomMax (f : FMAt) (s : State) : Host.Outcome State Fault Refusal :=
  seqInstr [f.a, f.b] [f.d] (atomRun f 5) s

/-- ATOM.minn (R196). -/
def execAtomMinn (f : FMAt) (s : State) : Host.Outcome State Fault Refusal :=
  seqInstr [f.a, f.b] [f.d] (atomRun f 6) s

/-- ATOM.maxn (R196). -/
def execAtomMaxn (f : FMAt) (s : State) : Host.Outcome State Fault Refusal :=
  seqInstr [f.a, f.b] [f.d] (atomRun f 7) s

/-- ATOM.swap (R196). -/
def execAtomSwap (f : FMAt) (s : State) : Host.Outcome State Fault Refusal :=
  seqInstr [f.a, f.b] [f.d] (atomRun f 8) s

/-- CAS: D is the expected value, then the old one (R197). -/
def execCas (f : FMAt) (s : State) : Host.Outcome State Fault Refusal :=
  seqInstr [f.a, f.b, f.d] [f.d] (fun s => consume s f.a 1 (fun a => consume s f.b 2 (fun b =>
    consume s f.d 4 (fun d =>
      let m := 2 ^ (8 * widthOf f.w)
      atomBody f 9 b (moAddr a f.off) (fun old => if old = d.toNat % m then some (b.toNat % m) else none) s)))) s

/-! ### Counters (R199 to R202) -/

/-- The checks of a counter access (R199): its physical address with the issuer's own stores to it performed
(R122, R130), or the cause; `again` says that the scope check has been made before (WCHK, R354). -/
def counterCheckAs (again : Bool) (va : Word) (need : Need) (sc : Nat) (s : State) :
    Except (State × Cause) (State × Nat) :=
  if va.toNat % 8 ≠ 0 then .error (s, Cause.seq cALIGN 0 va)
  else match s.checkData va.toNat 8 need with
    | .error e => .error e
    | .ok ps =>
      let pa := physOf ps va.toNat
      if (s.inWindow va.toNat 8).isSome then .error (s, Cause.seq cFABRIC 0 va)
      else
        let s1 := s.flushGranule pa
        if !again && !s1.scopeOk s.me sc pa then .error (s, Cause.seq cSCOPE 0 va) else .ok (s1, pa)

/-- The checks of a counter access made for the first time (R199). -/
def counterCheck (va : Word) (need : Need) (sc : Nat) (s : State) : Except (State × Cause) (State × Nat) :=
  counterCheckAs false va need sc s

/-- CSIG (R200). -/
def execCsig (f : FMCs) (s : State) : Host.Outcome State Fault Refusal :=
  seqInstr [f.a, f.b] [] (fun s => consume s f.a 1 (fun a => consume s f.b 2 (fun b =>
    let va := moAddr a f.off
    match counterCheck va .rw f.scope.toNat s with
    | .error (s1, c) => .trap s1 c
    | .ok (s0, pa) =>
      let s1 := s0.releaseBound f.scope.toNat va.toNat
      .done ((s1.signalAt s1.me f.scope.toNat pa b.toNat).progressEvent)))) s

/-- The counter that a CWAIT at the program counter waits for, its check made (R201). -/
def State.counterHere (s : State) : Option (WaitSt × Nat) := match s.waitHere? with
  | some w => match w.kind with
    | .counter pa _ => if w.checked then some (w, pa) else none
    | _ => none
  | none => none

/-- Whether the wait at the program counter comes from a save area with its scope check made (R354). -/
def State.checkedBefore (s : State) : Bool := s.waitHere?.any (fun w => w.kind == .restored && w.checked)

/-- CWAIT as the sequencer runs it: checks, scope record and coverage once, then only the value; a wait satisfied
once stays satisfied (R124, R127, R201). -/
def cwaitRun (f : FMCs) (s : State) : State :=
  seqRun [f.a, f.b] [] (fun s => consume s f.a 1 (fun a => consume s f.b 2 (fun b =>
    let va := moAddr a f.off
    match s.counterHere with
    | some (w, pa) =>
      if w.given = .met ∨ b.toNat ≤ s.natAt pa 8 then .done (s.acquireBound w.cover) else .wait s (.counter pa b) true
    | none => match counterCheckAs s.checkedBefore va .r f.scope.toNat s with
      | .error (s1, c) => .trap s1 c
      | .ok (s0, pa) =>
        let s1 := if s.checkedBefore then s0 else s0.scopeTake s0.me f.scope.toNat pa
        let cover := s.ctx.coverOf va.toNat
        if b.toNat ≤ s1.natAt pa 8 then .done (s1.acquireBound cover)
        else .wait (s1.holdCover (.counter pa b) cover) (.counter pa b) true))) s

/-- CWAIT (R201). -/
def execCwait (f : FMCs) (s : State) : Host.Outcome State Fault Refusal := .next (cwaitRun f s)

/-- CREAD (R202). -/
def execCread (f : FMCr) (s : State) : Host.Outcome State Fault Refusal :=
  seqInstr [f.a] [f.d] (fun s => consume s f.a 1 (fun a =>
    match counterCheck (moAddr a f.off) .r f.scope.toNat s with
    | .error (s1, c) => .trap s1 c
    | .ok (s0, pa) => .done ((s0.scopeTake s0.me f.scope.toNat pa).wrc f.d (BitVec.ofNat 64 (s0.natAt pa 8))))) s

/-- FENCE: a release and an acquire of all memory, contributions included (R128, R203). -/
def execFence (f : FSc) (s : State) : Host.Outcome State Fault Refusal :=
  seqInstr [] [] (fun s =>
    .done (((s.releaseAll f.scope.toNat).performContribs (fun c => c.ctx == s.ctx.id)).acquireAll)) s

/-! ### Bindings (R204) -/

/-- The status of BIND and the table it leaves (R204, R125). -/
def bindStatus (a b c : Word) (s : State) : Nat × List Binding :=
  let t := s.ctx.bindings
  let e : Binding := { base := a, len := b, cnt := c }
  if a.toNat % 256 ≠ 0 ∨ b = 0#64 ∨ b.toNat % 256 ≠ 0 ∨ 2 ^ 30 < b.toNat then (2, t)
  else if c.toNat % 8 ≠ 0 ∨ s.touchesRegion s.ctx c.toNat 8 = true ∨ (s.inWindow c.toNat 8).isSome = true then (3, t)
  else if t.any (fun x => x.base == a && x.cnt == c) then
    (0, t.map (fun x => if x.base = a ∧ x.cnt = c then e else x))
  else if 32 ≤ t.length then (1, t)
  else (0, t ++ [e])

/-- BIND (R204). -/
def execBind (f : FDABC) (s : State) : Host.Outcome State Fault Refusal :=
  seqInstr [f.a, f.b, f.c] [f.d] (fun s =>
    consume s f.a 1 (fun a => consume s f.b 2 (fun b => consume s f.c 3 (fun c =>
      let r := bindStatus a b c s
      .done (({ s with ctx := { s.ctx with bindings := r.2 } } : State).wrc f.d (BitVec.ofNat 64 r.1)))))) s

/-- UNBIND (R204). -/
def execUnbind (f : FDAC) (s : State) : Host.Outcome State Fault Refusal :=
  seqInstr [f.a, f.c] [f.d] (fun s => consume s f.a 1 (fun a => consume s f.c 3 (fun c =>
    let t := s.ctx.bindings
    let keep := t.filter (fun x => !(x.base == a && x.cnt == c))
    .done (({ s with ctx := { s.ctx with bindings := keep } } : State).wrc f.d
      (if keep.length = t.length then 5#64 else 0#64))))) s

end Sys2Proof.Machine
end

