-- ==== Sys2Proof/Machine/BankInstr.lean ====
section
/-! DEFINITION. The tile hazard check; bank supply instructions; gutters and landing buffers (R89 to R95,
R206, R213 to R222). -/

namespace Sys2Proof.Machine

/-! ### What queued entries name (R206, R213, R219) -/

/-- The tile registers an engine entry names (R206). -/
def namedTiles : Instr → List Nat
  | .lline f | .ltile f | .ltrans f | .lzero f | .sline f | .stile f | .strans f => [f.line.tile.toNat]
  | .xmma f | .xmmam f | .xspmm f => xmSources f
  | .xbias f => [f.line.tile.toNat]
  | .vadd f | .vsub f | .vmul f | .vfma f | .vfms f | .vfnma f | .vmin f | .vmax f | .vand f | .vor f | .vxor f
  | .vshl f | .vshr f | .vshra f | .vrsh f | .vsel f | .vperm f | .vhash f =>
    [f.dst.tile.toNat, f.src1.tile.toNat, f.src2.tile.toNat]
  | .vabs f | .vneg f | .vnot f | .vexp2 f | .vlog2 f | .vrcp f | .vrsq f | .vtanh f | .vredsum f | .vredmax f
  | .vredmin f | .vscanadd f | .vmov f | .vpois f => [f.dst.tile.toNat, f.src1.tile.toNat]
  | .viota f => [f.dst.tile.toNat]
  | .vcmpeq f | .vcmpne f | .vcmplt f | .vcmple f => [f.src1.tile.toNat, f.src2.tile.toNat]
  | .vcvt f => [f.dst.tile.toNat, f.src.tile.toNat]
  | .vbcast f | .vgets f | .vsets f => [f.line.tile.toNat]
  | .vacc f => [f.dst.tile.toNat]
  | _ => []

/-- The accumulator planes an engine entry names. -/
def namedPlanes : Instr → List Nat
  | .xmma f | .xmmam f | .xspmm f | .xclr f | .xbias f => [b2n f.p]
  | .vacc f => [b2n f.p]
  | .sacc f => [b2n f.p]
  | _ => []

/-- Whether an L or S entry reads the scratchpad (R219). -/
def readsPad : Instr → Bool
  | .lline _ | .ltile _ | .ltrans _ | .lfeed _ | .lwgt _ | .lgath _ | .lmask _ | .sacc _ => true
  | _ => false

/-- Every queued entry of a bank. -/
def RegBank.entries (b : RegBank) : List Entry := b.qL ++ b.qX ++ b.qV ++ b.qS

/-- Whether an entry issued before and not complete names a tile register (R206). -/
def State.tileBusy (s : State) (t : Nat) : Bool := s.bank.entries.any (fun e => (namedTiles e.instr).contains t)

/-- Whether an entry issued before and not complete names a plane. -/
def State.planeBusy (s : State) (p : Nat) : Bool := s.bank.entries.any (fun e => (namedPlanes e.instr).contains p)

/-- Whether an L or S entry issued before has scratchpad reads to make (R219). -/
def State.padReadsLeft (s : State) : Bool :=
  (s.bank.qL ++ s.bank.qS).any (fun e => readsPad e.instr && !e.pushOwed)

/-! ### Bank supply (R213 to R217) -/

/-- TVAL of a bank code (R342). -/
def bankCode (kind : Bool) (idx : BitVec 6) : Word := BitVec.ofNat 64 ((if kind then 64 else 0) + idx.toNat)

/-- A DATA_FAULT that names no address: TVAL is free (R342). -/
def State.dataFault (s : State) : Cause := Cause.seq cDATA 0 (s.freshBits 0)

/-- The trap of such a DATA_FAULT. (DESIGN CHOICE, log 21) -/
def State.dataTrap (s : State) : SeqOut := .trap s.useFree s.dataFault

/-- The checks of a bank instruction: a scratchpad bank below SPBANKS, a tile register present (R213 to
R216). -/
def bankCheck (kind : Bool) (idx : BitVec 6) (s : State) : Option Cause :=
  if kind then (if s.ctx.spbanks ≤ idx.toNat then some s.dataFault else none)
  else if (s.ctx.tile idx.toNat).state = .absent then some (Cause.seq cABSENT 0 (bankCode kind idx)) else none

/-- BPOL (R214): earlier entries first, then the policy. -/
def execBpol (f : FBkPol) (s : State) : Host.Outcome State Fault Refusal :=
  seqInstr [] [] (fun s =>
    match bankCheck f.kind f.idx s with
    | some c => .trap s.useFree c
    | none =>
      let i := f.idx.toNat
      if f.kind then
        if !s.bank.entries.isEmpty then .wait s .other false
        else .done (s.setCtx (s.ctx.setPadBank i { s.ctx.padBank i with pol := supplyOf f.pol.toNat }))
      else if s.tileBusy i then .wait s .other false
      else .done (s.setCtx (s.ctx.setTile i { s.ctx.tile i with pol := supplyOf f.pol.toNat }))) s

/-- BWAKE (R215). -/
def execBwake (f : FBk) (s : State) : Host.Outcome State Fault Refusal :=
  seqInstr [] [] (fun s =>
    match bankCheck f.kind f.idx s with
    | some c => .trap s.useFree c
    | none =>
      if f.kind then .done (s.setCtx (s.ctx.padWake f.idx.toNat))
      else .done (s.setCtx (s.ctx.wakeTiles [f.idx.toNat]))) s

/-- A scratchpad bank dropped: pinned it stays, waking it goes OFF when the wake ends (R216). -/
def Ctx.dropPad (c : Ctx) (b : Nat) : Ctx :=
  let k := c.padBank b
  if c.pinned b then c
  else if k.waking || k.dropAtWake then c.setPadBank b { k with dropAtWake := true }
  else c.padTo b .off

/-- A tile register dropped (R216). -/
def Ctx.dropTile (c : Ctx) (t : Nat) : Ctx :=
  let k := c.tile t
  if k.waking then c.setTile t { k with dropAtWake := true } else c.setTile t (k.to .off)

/-- BDROP (R216); in a handler a protected register that is locked raises LOCK_VIOLATION (R350). -/
def execBdrop (f : FBk) (s : State) : Host.Outcome State Fault Refusal :=
  seqInstr [] [] (fun s =>
    match bankCheck f.kind f.idx s with
    | some c => .trap s.useFree c
    | none =>
      let i := f.idx.toNat
      if f.kind then
        if !s.bank.entries.isEmpty then .wait s .other false else .done (s.setCtx (s.ctx.dropPad i))
      else if s.ctx.tileProtected i && (s.ctx.tile i).lock then .trap s (Cause.seq cLOCK 0 (bankCode false f.idx))
      else if s.tileBusy i then .wait s .other false
      else .done (s.setCtx (s.ctx.dropTile i))) s

/-- BSTATE: a snapshot (R217). -/
def execBstate (f : FBkD) (s : State) : Host.Outcome State Fault Refusal :=
  seqInstr [] [f.d] (fun s =>
    let i := f.idx.toNat
    .done (s.wrc f.d (if f.kind then s.ctx.padStateWord i else (s.ctx.tile i).stateWord))) s

/-! ### Gutters (R89 to R93, R218 to R220) -/

/-- GWAIT as the sequencer runs it (R218). -/
def gwaitRun (f : FGu) (s : State) : State :=
  seqRun [f.a] [] (fun s => consume s f.a 1 (fun a =>
    let g := s.ctx.gutter f.idx.toNat
    let k := a.toNat + f.n.toNat
    if !g.en || decide (g.nslot.toNat < k) then s.dataTrap
    else if k ≤ g.filled then .done s else .wait s (.gutter f.idx.toNat k) false)) s

/-- GWAIT (R218). -/
def execGwait (f : FGu) (s : State) : Host.Outcome State Fault Refusal := .next (gwaitRun f s)

/-- Frees the k oldest filled slots of a gutter (R219). -/
def Gutter.release (g : Gutter) (k : Nat) : Gutter :=
  { g with free := g.free + k, filled := g.filled - k, head := (g.head + k) % g.nslot.toNat }

/-- GREL (R219). -/
def execGrel (f : FGu) (s : State) : Host.Outcome State Fault Refusal :=
  seqInstr [f.a] [] (fun s => consume s f.a 1 (fun a =>
    let g := s.ctx.gutter f.idx.toNat
    let k := a.toNat + f.n.toNat
    if g.filled < k then s.dataTrap
    else if k = 0 then .done s
    else if s.padReadsLeft then .wait s .other false
    else .done (s.setCtx (s.ctx.setGutter f.idx.toNat (g.release k))))) s

/-- GSTAT: the status word and the slot lengths (R220). -/
def execGstat (f : FGuD) (s : State) : Host.Outcome State Fault Refusal :=
  seqInstr [] [f.d, f.d + 1#6] (fun s =>
    if f.d.toNat % 2 = 1 ∨ f.d = 0#6 then s.dataTrap
    else
      let g := s.ctx.gutter f.idx.toNat
      .done ((s.wrc f.d g.statWord).wrc (f.d + 1#6) g.lenWord)) s

/-! ### Landing buffers (R94, R95, R221, R222) -/

/-- LBFREE (R221). -/
def execLbfree (f : FGuI) (s : State) : Host.Outcome State Fault Refusal :=
  seqInstr [] [] (fun s =>
    if s.padReadsLeft then .wait s .other false
    else
      let b := s.ctx.lbuf f.idx.toNat
      if b.en then .done (s.setCtx (s.ctx.setLBuf f.idx.toNat { b with inuse := false })) else .done s) s

/-- LBUSY (R222). -/
def execLbusy (f : FGuD) (s : State) : Host.Outcome State Fault Refusal :=
  seqInstr [] [f.d] (fun s =>
    let b := s.ctx.lbuf f.idx.toNat
    .done (s.wrc f.d (packWord [(1, 1, b2n b.en), (0, 1, b2n b.inuse)]))) s

end Sys2Proof.Machine
end

