-- ==== Sys2Proof/Machine/VerInstr.lean ====
section
/-! DEFINITION. The version instructions of the MEM class (R98 to R116, R205 to R212). -/

namespace Sys2Proof.Machine

/-! ### Shared operations -/

/-- What follows a creation or a floor change of the running context's partition: its WAITING tasks are
re-examined (R333). -/
def State.afterCreation (s : State) : State := s.examineAll s.ctx.part.toNat

/-- A cause whose TVAL is the sector address (R342). -/
def sectorCause (code : BitVec 8) (va : Nat) : Cause := Cause.seq code 0 (BitVec.ofNat 64 (va / 256 * 256))

/-- Translation of a versioned access and its region: order 3 of R189, R100. -/
def State.versioned (s : State) (va n : Nat) (need : Need) : Except (State × Cause) Region :=
  match s.xlateRange va n need with
  | .error e => .error e
  | .ok _ => match s.attached s.ctx va with
    | some r => .ok r
    | none => .error (s, Cause.seq cDATA 0 (BitVec.ofNat 64 va))

/-! ### VREGION (R98, R99, R205) -/

/-- A region descriptor (R98). -/
structure RegionDesc where
  base : Nat
  sectors : Nat
  floor0 : Nat
  retain : Nat
  mirror : Bool
  bad : Bool
  deriving DecidableEq, Repr

/-- A descriptor's bits (R98): `bad` where BASE or SECTORS is out of range or misaligned, RETAIN above 8, or
a reserved field nonzero (R99 status 2). (DEDUCED, log 32) -/
def regionDesc (n : Nat) : RegionDesc :=
  let base := bitsOf n 0 64
  let secs := bitsOf n 64 32
  { base := base, sectors := secs, floor0 := bitsOf n 96 32, retain := bitsOf n 128 4, mirror := bitOf n 136
    bad := base % 65536 != 0 || decide (2 ^ 48 < base + 256 * secs) || secs % 256 != 0 || decide (secs < 256) ||
      decide (4194304 < secs) || decide (8 < bitsOf n 128 4) || bitsOf n 132 4 != 0 || bitsOf n 137 119 != 0 }

/-- Whether the pages of a range from an address on are mapped writable, with M where the region is mirrored (R99 status
5): the first that is not ends the look, with the event of its table entry (R360); a table line that cannot be read is a
cause of its own (R96, R366). -/
def State.pagesMapped (mirror : Bool) (va : Nat) : Nat → State → Except (State × Cause) (State × Bool)
  | 0, s => .ok (s, true)
  | n + 1, s => match s.xlateRange va 1 .w with
    | .error (s1, c) => if c.code = cUNCORR then .error (s1, c) else .ok (s1, false)
    | .ok ps => if mirror && !(ps.all (fun p => p.2.m)) then .ok (s, false)
      else State.pagesMapped mirror (va + 65536) n s

/-- Whether every page of a region's range is mapped as the region needs (R99, R362). -/
def State.regionMapped (s : State) (d : RegionDesc) : Except (State × Cause) (State × Bool) :=
  State.pagesMapped d.mirror d.base (d.sectors / 256) s

/-- The status of a declaration or attachment; the first that applies (R99). (DEDUCED, log 32) -/
def State.regionStatus (s : State) (slot : Nat) (d : RegionDesc) : Except (State × Cause) (State × Nat) :=
  let p := s.ctx.part.toNat
  let clash (r : Region) : Bool := r.part == p && decide (r.base.toNat < d.base + 256 * d.sectors) &&
    decide (d.base < r.base.toNat + 256 * r.sectors) && (r.base.toNat != d.base || r.sectors != d.sectors)
  let old := s.regionAt p d.base
  if (Sparse.get (fun _ => none) s.ctx.rslots slot).isSome then .ok (s, 1)
  else if d.bad then .ok (s, 2)
  else if s.regions.any clash then .ok (s, 3)
  else if old.any (fun r => r.retain != d.retain || r.mirror != d.mirror) then .ok (s, 4)
  else match s.regionMapped d with
    | .error e => .error e
    | .ok (s1, false) => .ok (s1, 5)
    | .ok (s1, true) => .ok (s1, if old.isNone && decide (s.heapSize p < s.heapUsed p + 4096) then 6 else 0)

/-- Declares or attaches a region in a slot (R98). (DESIGN CHOICE, log 19) -/
def State.attach (s : State) (slot : Nat) (d : RegionDesc) : State :=
  let p := s.ctx.part.toNat
  let base := BitVec.ofNat 64 d.base
  let new : Region := { part := p, base := base, sectors := d.sectors, floor := d.floor0, retain := d.retain
                        mirror := d.mirror, atts := [s.ctx.id], secs := [] }
  let s1 := match s.regionAt p d.base with
    | some r => s.putRegion { r with atts := r.atts ++ [s.ctx.id] }
    | none => { s with regions := s.regions ++ [new] }
  { s1 with ctx := { s1.ctx with rslots := Sparse.set (fun _ => none) s1.ctx.rslots slot (some base) } }

/-- Detaches a slot: the context's builds in the region exist first (R99). -/
def State.detachSlot (s : State) (slot : Nat) : State :=
  match Sparse.get (fun _ => none) s.ctx.rslots slot with
  | none => s
  | some base =>
    match s.regionAt s.ctx.part.toNat base.toNat with
    | none => { s with ctx := { s.ctx with rslots := Sparse.set (fun _ => none) s.ctx.rslots slot none } }
    | some r =>
      let s1 := s.finishBuilds (fun b => decide (r.base.toNat ≤ b.sector.toNat) &&
        decide (b.sector.toNat < r.base.toNat + 256 * r.sectors)) 3
      let s2 : State := { s1 with ctx := { s1.ctx with rslots := Sparse.set (fun _ => none) s1.ctx.rslots slot none } }
      (match s2.regionAt r.part r.base.toNat with
        | some q => s2.detach s2.ctx.id s2.ctx.device q
        | none => s2).afterCreation

/-- VREGION (R205); a poisoned descriptor is named as operand A, for which R347 has no row. (DESIGN CHOICE, log 72) -/
def execVregion (f : FDAImm) (s : State) : Host.Outcome State Fault Refusal :=
  seqInstr [f.a] [f.d] (fun s => consume s f.a 1 (fun a =>
    if a.toNat % 32 ≠ 0 then .trap s (Cause.seq cALIGN 0 a)
    else match s.loadAt a.toNat 32 .r with
      | .error (s1, c) => .trap s1 c
      | .ok (_, _, true) => .trap s (Cause.poison 1)
      | .ok (s1, bs, false) =>
        let d := regionDesc (natOfBytes bs)
        let slot := f.imm.toNat
        if d.sectors = 0 then .done ((s1.detachSlot slot).wrc f.d 0#64)
        else match s1.regionStatus slot d with
          | .error (s2, c) => .trap s2 c
          | .ok (s2, st) => .done ((if st = 0 then s2.attach slot d else s2).wrc f.d (BitVec.ofNat 64 st)))) s

/-! ### Version loads (R107 to R109, R207, R208) -/

/-- What a version load comes to before it writes: a version, poison under SP, a trap, or a wait, recorded at the
sector or not. -/
inductive VFind where
  | got (s : State) (v : Ver)
  | poison (s : State)
  | trap (s : State) (c : Cause)
  | wait (s : State) (recorded : Bool)

/-- A load that R107 gives a version: SCOPE_MISMATCH where R114 says so. -/
def State.loadsVer (s : State) (va sc : Nat) (u : Ver) : VFind :=
  if versionScopeOk s.me sc u then .got s u else .trap s (Cause.seq cSCOPE 0 (BitVec.ofNat 64 va))

/-- A load that R107 gives no version: MISSING_VERSION, under SP poison (R190). -/
def State.missesVer (s : State) (sp : Bool) (va : Nat) : VFind :=
  if sp then .poison s else .trap s (sectorCause cMISSING va)

/-- Finds the version a load reads (R107, R114), or has it wait, recorded at the sector where it has room (R109). -/
def State.findVersion (s : State) (sp : Bool) (va mode v sc : Nat) (r : Region) : VFind :=
  let i := r.index va
  let s1 := s.putRegion (r.dropWaiter i s.ctx.id)
  match r.find (dieOf s.ctx.core) i mode v with
  | .ver u => s1.loadsVer va sc u
  | .missing => s1.missesVer sp va
  | .wait => .wait (s.putRegion (r.addWaiter i s.ctx.id).1) (r.addWaiter i s.ctx.id).2

/-- The version of a load as its wait has it: what the wait has been given; a recorded waiter waits on until it is
given something, an unrecorded one until its next retry, 512 ns on (R107, R109); else the sector is examined now. -/
def State.examineLoad (s : State) (k : Wait) (sp : Bool) (va mode v sc : Nat) (r : Region) : VFind :=
  let recorded := (r.sec (r.index va)).waiters.contains s.ctx.id
  match s.given k with
  | .line u => s.loadsVer va sc u
  | .missing => s.missesVer sp va
  | .retry t => if s.now < t then .wait s false else s.findVersion sp va mode v sc r
  | _ => if s.waitKind = some k ∧ recorded = true then .wait s true else s.findVersion sp va mode v sc r

/-- The wait of a version load: an unrecorded one has its next retry set (R109). -/
def State.versionWait (s : State) (k : Wait) (recorded : Bool) : SeqOut :=
  let again := match s.given k with
    | .retry t => if s.now < t then t else s.now + 512
    | _ => s.now + 512
  .wait (s.hold k (if recorded then .nothing else .retry again)) k false

/-- The region of a version load; none where SP turns its DATA_FAULT into poison (R190). -/
def State.reachVersion (s : State) (sp : Bool) (va n : Nat) : Except (State × Cause) (Option Region) :=
  match s.versioned va n .r with
  | .ok r => .ok (some r)
  | .error (s1, c) => if sp && c.code == cDATA then .ok none else .error (s1, c)

/-- Marks of a version for the bytes at an offset. -/
def Ver.markAt (v : Ver) (off : Nat) : Bool := v.marks.getLsbD (off / 64)

/-- Writes a tile line of 64 lanes and the two scalar results of a version load. -/
def putVersion (t : Nat) (dir : BitVec 2) (ix : Nat) (v : Option Ver) (s : State) : State :=
  (putLine s t dir ix ((List.range 64).map (fun j => match v with
    | some u => (j, (u.data.toNat / 2 ^ (32 * j) % 2 ^ 32, u.markAt (4 * j)))
    | none => (j, (0, true))))).useFree

/-- The line of a VLD written, once its register is ready: the write wakes it (R54, R207); the load keeps what R107
gave it over the wake, and its check is made, which is how the wait shows as a wake's (R55, R308). -/
def loadLine (f : FVLd) (k : Wait) (ix : BitVec 6) (v : Option Ver) (s : State) : SeqOut :=
  let t := f.line.tile.toNat
  let (s1, ready) := readyDst t s
  if !ready then .wait (s1.hold k (match v with
      | some u => .line u
      | none => .missing)) k true
  else
    let s2 := putVersion t f.line.dir ix.toNat v s1
    match v with
    | some u => .done (s2.acquireAll.wrc f.d (BitVec.ofNat 64 u.num))
    | none => .done (s2.wr f.d { bits := 0#64, pois := true })

/-- What a VLD does with the version it finds. -/
def VFind.line (f : FVLd) (k : Wait) (ix : BitVec 6) : VFind → SeqOut
  | .trap s c => .trap s c
  | .wait s recorded => s.versionWait k recorded
  | .poison s => loadLine f k ix none s
  | .got s u => loadLine f k ix (some u) s

/-- VLD as the sequencer runs it (R206, R207, R190). A load that R107 has given a version makes no further
check. -/
def vldRun (f : FVLd) (s : State) : State :=
  seqRun ([f.a, f.b] ++ lineRegs f.line) [f.d] (fun s => consume s f.a 1 (fun a => consume s f.b 2 (fun b =>
    match s.index f.line.fromReg f.line.idx with
    | .error c => .trap s c
    | .ok ix =>
      let va := a.toNat
      let t := f.line.tile.toNat
      let v := b.toNat % 2 ^ 32
      let k : Wait := .version a f.mode.toNat v
      match s.given k with
      | .line u => (s.loadsVer va f.scope.toNat u).line f k ix
      | .missing => (s.missesVer f.sp va).line f k ix
      | _ =>
      if va % 256 ≠ 0 then .trap s (Cause.seq cALIGN 0 a)
      else match s.reachVersion f.sp va 256 with
        | .error (s1, c) => .trap s1 c
        | .ok reg =>
          if (s.ctx.tile t).state = .absent then .trap s (Cause.seq cABSENT 0 (bankCode false (BitVec.ofNat 6 t)))
          else match s.tileWritable t with
            | .error c => .trap s c
            | .ok _ =>
              if s.tileBusy t then .wait s .other false
              else match reg with
                | none => loadLine f k ix none s
                | some r => (s.examineLoad k f.sp va f.mode.toNat v f.scope.toNat r).line f k ix))) s

/-- VLD (R207). -/
def execVld (f : FVLd) (s : State) : Host.Outcome State Fault Refusal := .next (vldRun f s)

/-- The results of VLDS: D the bytes, C the number, the number where both name one register (R208). -/
def vldsPut (f : FVLds) (off : Nat) (v : Option Ver) (s : State) : State :=
  match v with
  | some u => ((s.acquireAll).wrLoaded f.d (BitVec.ofNat 64 (u.data.toNat / 2 ^ (8 * off))) (u.markAt off)).wrc f.c
      (BitVec.ofNat 64 u.num)
  | none => ((s.wrPois f.d 0).useFree).wr f.c { bits := 0#64, pois := true }

/-- What a VLDS does with the version it finds. -/
def VFind.word (f : FVLds) (k : Wait) (off : Nat) : VFind → SeqOut
  | .trap s c => .trap s c
  | .wait s recorded => s.versionWait k recorded
  | .poison s => .done (vldsPut f off none s)
  | .got s u => .done (vldsPut f off (some u) s)

/-- VLDS as the sequencer runs it (R208, R190). -/
def vldsRun (f : FVLds) (s : State) : State :=
  seqRun [f.a, f.b] (if f.d = f.c then [f.c] else [f.d, f.c]) (fun s =>
    consume s f.a 1 (fun a => consume s f.b 2 (fun b =>
      let va := a.toNat
      let off := va % 256
      let v := b.toNat % 2 ^ 32
      let k : Wait := .version a f.mode.toNat v
      match s.given k with
      | .line u => (s.loadsVer va f.scope.toNat u).word f k off
      | .missing => (s.missesVer f.sp va).word f k off
      | _ =>
      if va % 8 ≠ 0 then .trap s (Cause.seq cALIGN 0 a)
      else match s.reachVersion f.sp va 8 with
        | .error (s1, c) => .trap s1 c
        | .ok none => .done (vldsPut f off none s)
        | .ok (some r) => (s.examineLoad k f.sp va f.mode.toNat v f.scope.toNat r).word f k off))) s

/-- VLDS (R208). -/
def execVlds (f : FVLds) (s : State) : Host.Outcome State Fault Refusal := .next (vldsRun f s)

/-! ### Creations (R103, R104, R209, R210) -/

/-- The 64 lanes of a line as a sector's bytes, and its poison by 64-byte sector (R209, R53). -/
def lineData (s : State) (t : Nat) (dir : BitVec 2) (ix : Nat) : BitVec 2048 × BitVec 4 :=
  let cs := (List.range 64).map (fun j => srcCell s [] t dir ix j)
  (BitVec.ofNat 2048 (packBits 32 (cs.map Prod.fst)),
   BitVec.ofNat 4 (packBits 1 ((List.range 4).map (fun k => b2n ((cs.drop (16 * k)).take 16 |>.any Prod.snd)))))

/-- A whole sector's creation by the running context (R104, R209): a release of all memory, then the version; in a
MIRROR region it exists at the other die's home first, and a step that performs a part goes no further (R117). -/
def State.createSector (s : State) (va : Nat) (sc : Nat) (r : Region) (new : Ver) : State × Bool :=
  let s1 := s.releaseAll (r.verScope sc)
  let i := r.index va
  if r.mirror && s.parts then ((s1.putRegion (r.existAt i new (1 - dieOf s.ctx.core))).created r i, false)
  else ((s1.putRegion (r.exist i new)).created r i, true)

/-- Whether a context's creation has waited for its limit, and has not been given its room before (R103). -/
def State.creationLate (s : State) (c : Ctx) : Bool := (c.bank.wait).any (fun w => match w.kind with
  | .creation _ _ => w.given != .met && c.vwlim != 0#20 && decide (w.since + 1000 * c.vwlim.toNat ≤ s.now)
  | _ => false)

/-- The checks of R103 as a creation meets them: one whose wait has been given its room holds its reservation, and cannot
fail; one whose wait has reached its limit is over; else they are made now. -/
inductive Begin where
  | held
  | late
  | check (c : Create)
  deriving DecidableEq, Repr

/-- How the creation of version v in a sector stands when its instruction is performed (R103). -/
def State.beginCreation (s : State) (r : Region) (i : Nat) (a : Word) (v : Nat) : Begin :=
  if s.given (.creation a v) = .met then .held
  else if s.waitKind = some (.creation a v) ∧ s.creationLate s.ctx = true then .late
  else .check (s.createCheck r i v)

/-- The creation of VST in its region, its register ready (R103, R104, R209). -/
def vstCreate (f : FVSt) (a : Word) (v : Nat) (ix : Nat) (r : Region) (s : State) : SeqOut :=
  let va := a.toNat
  let t := f.line.tile.toNat
  let i := r.index va
  let finish (s : State) : SeqOut := .done ((lastUses s [] [f.line] none).afterCreation.progressEvent)
  let make : SeqOut :=
    let (data, marks) := lineData s t f.line.dir ix
    let (s2, whole) := s.createSector va f.scope.toNat r
      { num := v, exist := true, data := data, marks := marks, scope := r.verScope f.scope.toNat, who := s.me, only := none }
    if whole then finish s2 else .wait s2 (.mirror a v) false
  match (if s.waitKind = some (.mirror a v) then r.halfDone i v else none) with
  | some u => finish ((s.putRegion (r.exist i { u with only := none })).created r i)
  | none => match s.beginCreation r i a v with
    | .held | .check .ok => make
    | .check .full => .wait s (.creation a v) false
    | .late => .trap s (sectorCause cVTIMEOUT va)
    | .check c => .trap s (sectorCause (c.code.getD cDUPLICATE) va)

/-- Whether the running code's wait holds a creation of its own that cannot fail any more (R103). -/
def State.holdsCreation (s : State) (a : Word) (v : Nat) : Bool :=
  s.given (.creation a v) == .met || s.waitKind == some (.mirror a v)

/-- The region of a creation: one that cannot fail any more makes no further check (R103, R209, R210). -/
def State.creationRegion (s : State) (a : Word) (v n : Nat) : Except (State × Cause) Region :=
  match s.attached s.ctx a.toNat with
  | some r => if s.holdsCreation a v then .ok r else s.versioned a.toNat n .w
  | none => s.versioned a.toNat n .w

/-- VST as the sequencer runs it (R209); once its version is reserved it makes no further check, and a handler that has
dropped its register meanwhile ends it with that trap, the version absent again. (DEDUCED, log 48) -/
def vstRun (f : FVSt) (s : State) : State :=
  seqRun ([f.a, f.b] ++ lineRegs f.line) [] (fun s => consume s f.a 1 (fun a => consume s f.b 2 (fun b =>
    match s.index f.line.fromReg f.line.idx with
    | .error c => .trap (s.unreserveAll s.bank.creations) c
    | .ok ix =>
      let t := f.line.tile.toNat
      let v := b.toNat % 2 ^ 32
      let mine := s.holdsCreation a v
      if a.toNat % 256 ≠ 0 then .trap s (Cause.seq cALIGN 0 a)
      else match s.creationRegion a v 256 with
        | .error (s1, c) => .trap s1 c
        | .ok r =>
          if s.tileBusy t then .wait s (if mine then (s.waitKind.getD .source) else .source) false
          else match prepTiles false [t] none s with
            | .fault c k => .trap (s.unreserveAll s.bank.creations) (Cause.seq c 0 (k.setWidth 64))
            | .wait s1 _ => .wait s1 (if mine then (s.waitKind.getD .wake) else .wake) false
            | .ok s1 _ => vstCreate f a v ix.toNat r s1))) s

/-- VST (R209). -/
def execVst (f : FVSt) (s : State) : Host.Outcome State Fault Refusal := .next (vstRun f s)

/-- The open build of a sector and version. -/
def Ctx.build (c : Ctx) (sec : Word) (v : BitVec 32) : Option Build :=
  c.builds.find? (fun x => x.sector == sec && x.version == v)

/-- Replaces or adds a build. -/
def Ctx.putBuild (c : Ctx) (b : Build) : Ctx :=
  if (c.build b.sector b.version).isSome then
    { c with builds := c.builds.map (fun x => if x.sector = b.sector ∧ x.version = b.version then b else x) }
  else { c with builds := c.builds ++ [b] }

/-- VSTS as the sequencer runs it (R210): an open build is merged into; else the oldest of four makes
room, the checks are made and a build opens. (DEDUCED, log 33) -/
def vstsRun (f : FVSts) (s : State) : State :=
  seqRun [f.a, f.b, f.c] [] (fun s => consume s f.a 1 (fun a => consume s f.b 2 (fun b =>
    let va := a.toNat
    let sec := BitVec.ofNat 64 (va / 256 * 256)
    let v := b.setWidth 32
    let c := s.rd f.c
    let put (bd : Build) (s0 : State) : SeqOut :=
      let s := s0.setBank { s0.bank with wait := none }
      let bd1 := bd.merge (va % 256) c.bits c.pois
      let s1 := s.setCtx (s.ctx.putBuild bd1)
      if f.fin then .done (s1.finishBuild bd1 f.scope.toNat).afterCreation else .done s1
    if va % 8 ≠ 0 then .trap s (Cause.seq cALIGN 0 a)
    else match s.creationRegion a v.toNat 8 with
      | .error (s1, e) => .trap s1 e
      | .ok r => match s.ctx.build sec v with
        | some bd => put bd s
        | none =>
          let s1 := if s.ctx.builds.length < 4 then s
            else ((s.ctx.builds.take 1).foldl (fun s x => s.finishBuild x f.scope.toNat) s).afterCreation
          let r1 := (s1.regionAt r.part r.base.toNat).getD r
          let i := r1.index va
          match s1.beginCreation r1 i a v.toNat with
          | .held | .check .ok =>
            put { sector := sec, version := v, scope := f.scope, words := 0#32, pois := 0#4, data := 0#2048 }
              (s1.putRegion (r1.reserve i v.toNat (r1.verScope f.scope.toNat) s1.me))
          | .check .full => .wait s1 (.creation a v.toNat) false
          | .late => .trap s1 (sectorCause cVTIMEOUT va)
          | .check e => .trap s (sectorCause (e.code.getD cDUPLICATE) va)))) s

/-- VSTS (R210). -/
def execVsts (f : FVSts) (s : State) : Host.Outcome State Fault Refusal := .next (vstsRun f s)

/-! ### Floors (R110, R211, R212) -/

/-- VFLOOR (R211). -/
def execVfloor (f : FAB) (s : State) : Host.Outcome State Fault Refusal :=
  seqInstr [f.a, f.b] [] (fun s => consume s f.a 1 (fun a => consume s f.b 2 (fun b =>
    match s.versioned a.toNat 1 .w with
    | .error (s1, c) => .trap s1 c
    | .ok r => .done (s.putRegion (r.raise (b.toNat % 2 ^ 32))).afterCreation))) s

/-- VNEWEST (R212). -/
def execVnewest (f : FDA) (s : State) : Host.Outcome State Fault Refusal :=
  seqInstr [f.a] [f.d] (fun s => consume s f.a 1 (fun a =>
    if a.toNat % 256 ≠ 0 then .trap s (Cause.seq cALIGN 0 a)
    else match s.versioned a.toNat 256 .r with
      | .error (s1, c) => .trap s1 c
      | .ok r => .done (s.wrc f.d (match newest (r.sec (r.index a.toNat)).vers (fun u => u.seen (dieOf s.ctx.core)) with
        | some v => BitVec.ofNat 64 v.num
        | none => 0xFFFFFFFF#64)))) s

end Sys2Proof.Machine
end

