-- ==== Sys2Proof/Machine/Csr.lean ====
section
/-! DEFINITION. System registers: what each reads as, what a write does (R300 to R311, R370), and the CSR
instructions, those of fixed registers included (R90, R94, R283, R302, R311). -/

namespace Sys2Proof.Machine

/-! ### Reading -/

/-- DEGL (R305). -/
def State.degl (s : State) : Word :=
  packWord [(8, 6, s.ctx.queue.toNat), (2, 2, s.ctx.disp.toNat),
    (0, 2, (s.qlevel s.ctx.part.toNat s.ctx.queue.toNat).level)]

/-- Whether a paused device is at rest in memory (R382, R385). -/
def State.vdQuiet (s : State) (v : Nat) : Bool := s.vdPaused v && s.atRest.contains v

/-- A register of 0x400 to 0x7FF as CSRR reads it: the staged value; PCSTAT and QUIET as they are (R370,
R375, R382). -/
def State.cfgRead (s : State) (n : Nat) : Word :=
  if n = 0x450 then s.pcstat
  else if 0x5C0 ≤ n ∧ n < 0x600 then s.stg n ||| (if s.vdQuiet (n - 0x5C0) then 1#64 <<< 61 else 0#64)
  else s.stg n

/-- The counter bank a PMC number names: at STEWARD the one SPMSEL selects (R308, R310). -/
def State.pmcDevice (s : State) : Nat := if s.ctx.atSteward then s.ctx.spmsel.toNat else s.ctx.vdn.toNat

/-- The value a system register reads as (R300). -/
def State.csrValue (s : State) (n : Nat) : Word :=
  let c := s.ctx
  let b := s.bank
  let d := s.die (dieOf c.core)
  if 0x400 ≤ n then s.cfgRead n
  else if 0x010 ≤ n ∧ n < 0x020 then (c.gutter (n - 0x010)).cfgWord
  else if 0x020 ≤ n ∧ n < 0x040 then (c.lbuf (n - 0x020)).word
  else if 0x040 ≤ n ∧ n < 0x050 then s.pmcGet s.pmcDevice (n - 0x040)
  else match n with
    | 0x000 => b.vc.setWidth 64
    | 0x001 => b.ashape.setWidth 64
    | 0x002 => b.emode.setWidth 64
    | 0x003 => b.estat.setWidth 64
    | 0x004 => b.sqp.setWidth 64
    | 0x008 => s.degl
    | 0x009 => c.lcore.setWidth 64
    | 0x00A => c.sramcfg
    | 0x00B => c.vwlim.setWidth 64
    | 0x00C => c.qstat
    | 0x00D => c.cpfail.setWidth 64
    | 0x00E => c.pstat
    | 0x00F => c.pbud.setWidth 64
    | 0x100 => c.tvec
    | 0x101 => c.tepc
    | 0x102 => c.tcause
    | 0x103 => c.tval
    | 0x104 => c.tscr
    | 0x105 => BitVec.ofNat 64 c.tbudget
    | 0x200 => c.svec
    | 0x201 => c.sepc
    | 0x202 => c.scause
    | 0x203 => c.sval
    | 0x204 => c.sscr
    | 0x210 => c.spmsel.setWidth 64
    | 0x300 => d.sevbase
    | 0x301 => d.sevprod.setWidth 64
    | 0x302 => d.sevcons.setWidth 64
    | 0x303 => d.sevlost.setWidth 64
    | 0x304 => d.sevcnt
    | _ => 0#64

/-- A read clears the RC fields: FAILED of CPFSTAT, LOST of SEVLOST (R283, R302, R311). -/
def State.csrClear (s : State) (n : Nat) : State :=
  if n = 0x00D then { s with ctx := { s.ctx with cpfail := 0#32 } }
  else if n = 0x303 then
    let k := dieOf s.ctx.core
    s.setDie k { s.die k with sevlost := 0#32 }
  else s

/-! ### Gutter and landing-buffer descriptors (R90, R94) -/

/-- Starts the wake of the banks a new structure pins (R58). -/
def Ctx.pinSpan (c : Ctx) (sp : Nat × Nat) : Ctx := (c.padWakeAll (banksOf (256 * sp.1) (256 * sp.2))).1

/-- Whether a granule span lies below SPSIZE and overlaps no enabled structure. -/
def Ctx.spanFree (c : Ctx) (sp : Nat × Nat) : Bool :=
  decide (256 * (sp.1 + sp.2) ≤ c.spSize) && c.spans.all (fun x => !spansMeet x sp)

/-- A write of GCFGn (R90): a disable waits until nothing is in flight; producers that wait for slots stay across it,
and a bank whose pin ends keeps its state; the fields hold what is written (R3). (DESIGN CHOICE, log 57) -/
def gcfgWrite (s : State) (n : Nat) (v : Word) : SeqOut :=
  let g := s.ctx.gutter n
  let w := v.toNat
  let en := bitOf w 63
  let base := BitVec.ofNat 12 (bitsOf w 32 12)
  let slotg := BitVec.ofNat 8 (bitsOf w 16 8)
  let nslot := BitVec.ofNat 12 (bitsOf w 0 12)
  let put (g : Gutter) : SeqOut := .done (s.setCtx (s.ctx.setGutter n g))
  if g.en then
    if en then put { g with err := true }
    else if !g.flight.isEmpty then .wait s .other false
    else put { g with
      en := false, base := base, slotg := slotg, nslot := nslot, err := false, free := 0, filled := 0, head := 0, lens := [] }
  else if en then
    let sp := (base.toNat, slotg.toNat * nslot.toNat)
    if 1 ≤ slotg.toNat ∧ slotg.toNat ≤ 64 ∧ nslot ≠ 0#12 ∧ s.ctx.spanFree sp = true then
      let g1 : Gutter := { en := true, base := base, slotg := slotg, nslot := nslot, err := false
                           free := nslot.toNat, filled := 0, head := 0, lens := [], flight := [], waiters := g.waiters }
      .done (s.setCtx ((s.ctx.setGutter n g1).pinSpan sp))
    else put { g with err := true }
  else put { g with base := base, slotg := slotg, nslot := nslot, err := false }

/-- A write of LBDn (R94); a bank whose pin ends keeps its state. (DEDUCED, log 31) (DESIGN CHOICE, log 57) -/
def lbdWrite (s : State) (n : Nat) (v : Word) : SeqOut :=
  let b := s.ctx.lbuf n
  let w := v.toNat
  let en := bitOf w 63
  let base := BitVec.ofNat 12 (bitsOf w 32 12)
  let sizeg := BitVec.ofNat 9 (bitsOf w 16 9)
  if b.en then
    if en then .done s else .done (s.setCtx (s.ctx.setLBuf n { en := false, inuse := false, base := base, sizeg := sizeg }))
  else if en then
    let sp := (base.toNat, sizeg.toNat)
    if 1 ≤ sizeg.toNat ∧ sizeg.toNat ≤ 256 ∧ s.ctx.spanFree sp = true then
      .done (s.setCtx ((s.ctx.setLBuf n { en := true, inuse := false, base := base, sizeg := sizeg }).pinSpan sp))
    else .done s
  else .done (s.setCtx (s.ctx.setLBuf n { en := false, inuse := false, base := base, sizeg := sizeg }))

/-! ### Writing -/

/-- The writing CSR instructions (R302). -/
inductive CsrOp where
  | write
  | set
  | clear
  deriving DecidableEq, Repr

/-- The value an RW field takes (R302). -/
def CsrOp.rw (o : CsrOp) (old a : Word) : Word := match o with
  | .write => a
  | .set => old ||| a
  | .clear => old &&& ~~~a

/-- The bits that a W1C field clears (R302). -/
def CsrOp.w1c (o : CsrOp) (a : Word) : Word := match o with
  | .set => 0#64
  | _ => a

/-- The value a staged register takes: read-only and reserved bits keep their value (R370 to R374, R382).
(DEDUCED, log 30) -/
def stagedValue (n : Nat) (old v : Word) : Word :=
  if 0x440 ≤ n ∧ n ≤ 0x450 then old
  else if n < 0x410 then
    (v >>> 4 <<< 4) ||| (if n = 0x400 ∨ n = 0x40F then 1#64 <<< 63 else 0#64)
  else if n < 0x420 then v >>> 4 <<< 4
  else if n < 0x430 then v &&& ~~~(0x80#64)
  else if 0x5C0 ≤ n ∧ n < 0x600 then v &&& 0xCFFFFFF000000000#64
  else v

/-- A write of a context or die register other than a descriptor or counter: `v` is the value of its RW
fields, `w` the ones written to its W1C fields (R45 to R48, R101, R183, R267, R306, R307, R310, R311).
(DEDUCED, log 30) -/
def State.csrPut (s : State) (n : Nat) (v w : Word) : State :=
  let c := s.ctx
  let b := s.bank
  let k := dieOf c.core
  let d := s.die k
  let low3 := v >>> 3 <<< 3
  match n with
  | 0x000 => s.setBank { b with vc := vcOf (v &&& 0x7F#64) }
  | 0x001 => s.setBank { b with ashape := ashapeOf b.ashape v }
  | 0x002 => s.setBank { b with emode := emodeOf b.emode v }
  | 0x003 => s.setBank { b with estat := clearFlags b.estat (w.setWidth 7) }
  | 0x004 => s.setBank { b with sqp := v.setWidth 12 }
  | 0x00B => { s with ctx := { c with vwlim := v.setWidth 20 } }
  | 0x00C => { s with ctx := { c with qterm := c.qterm &&& ~~~((w >>> 8).setWidth 4) } }
  | 0x00F => { s with ctx := { c with pbud := BitVec.ofNat 18 (max 2000 (min 200000 (v.toNat % 2 ^ 18))) } }
  | 0x100 => { s with ctx := { c with tvec := low3 } }
  | 0x101 => { s with ctx := { c with tepc := low3 } }
  | 0x104 => { s with ctx := { c with tscr := v } }
  | 0x200 => { s with ctx := { c with svec := low3 } }
  | 0x201 => { s with ctx := { c with sepc := low3 } }
  | 0x204 => { s with ctx := { c with sscr := v } }
  | 0x210 => { s with ctx := { c with spmsel := v.setWidth 6 } }
  | 0x300 =>
    let cap := (v &&& 31#64).toNat
    let keep := if cap = 0 ∨ (7 ≤ cap ∧ cap ≤ 16) then v &&& 31#64 else d.sevbase &&& 31#64
    s.setDie k { d with sevbase := (v >>> 12 <<< 12) ||| keep, sevprod := 0#32, sevcons := 0#32 }
  | 0x302 => s.setDie k { d with sevcons := v.setWidth 32 }
  | 0x304 => s.setDie k { d with sevcnt := low3 }
  | _ => s

/-- A write of a system register (R302). -/
def csrApply (s : State) (n : Nat) (o : CsrOp) (a : Word) : SeqOut :=
  let v := o.rw (s.csrValue n) a
  if 0x400 ≤ n then
    .done { s with staged := Sparse.set cfgReset s.staged n (stagedValue n (s.stg n) (o.rw (s.stg n) a)) }
  else if 0x010 ≤ n ∧ n < 0x020 then gcfgWrite s (n - 0x010) v
  else if 0x020 ≤ n ∧ n < 0x040 then lbdWrite s (n - 0x020) v
  else if 0x040 ≤ n ∧ n < 0x050 then
    .done { s with pmc := Sparse.set (fun _ => 0#64) s.pmc (s.pmcDevice * 16 + (n - 0x040)) v }
  else .done (s.csrPut n v (o.w1c a))

/-- A CSR instruction that writes: D, where there is one, receives the old value (R302). -/
def csrWriting (d : Option Reg) (a : Reg) (n : Nat) (o : CsrOp) (s : State) : Host.Outcome State Fault Refusal :=
  seqInstr [a] d.toList (fun s => consume s a 1 (fun v =>
    match csrApply s n o v with
    | .done s1 => .done (match d with
      | some r => s1.wrc r (s.csrValue n)
      | none => s1)
    | r => r)) s

/-- A CSR read (R302). -/
def csrReading (d : Reg) (n : Nat) (s : State) : Host.Outcome State Fault Refusal :=
  seqInstr [] [d] (fun s => .done ((s.csrClear n).wrc d (s.csrValue n))) s

/-- CSRR (R302). -/
def execCsrr (f : FCsrD) (s : State) : Host.Outcome State Fault Refusal := csrReading f.d f.csr.toNat s

/-- CSRW (R302). -/
def execCsrw (f : FCsrA) (s : State) : Host.Outcome State Fault Refusal := csrWriting none f.a f.csr.toNat .write s

/-- CSRS (R302). -/
def execCsrs (f : FCsrDA) (s : State) : Host.Outcome State Fault Refusal :=
  csrWriting (some f.d) f.a f.csr.toNat .set s

/-- CSRC (R302). -/
def execCsrc (f : FCsrDA) (s : State) : Host.Outcome State Fault Refusal :=
  csrWriting (some f.d) f.a f.csr.toNat .clear s

/-- CSRW to GCFGn (R90). -/
def execGcfgWrite (f : FCsrG) (s : State) : Host.Outcome State Fault Refusal :=
  csrWriting none f.a (0x010 + f.n.toNat) .write s

/-- CSRW to LBDn (R94). -/
def execLbdWrite (f : FCsrL) (s : State) : Host.Outcome State Fault Refusal :=
  csrWriting none f.a (0x020 + f.n.toNat) .write s

/-- CSRR of CPFSTAT (R283). -/
def execCpfstatRead (f : FD1x) (s : State) : Host.Outcome State Fault Refusal := csrReading f.d 0x00D s

/-- CSRW to SEVBASE (R311). -/
def execSevbaseWrite (f : FA1x) (s : State) : Host.Outcome State Fault Refusal :=
  csrWriting none f.a 0x300 .write s

/-- CSRR of SEVLOST (R311). -/
def execSevlostRead (f : FD1x) (s : State) : Host.Outcome State Fault Refusal := csrReading f.d 0x303 s

end Sys2Proof.Machine
end

