-- ==== Sys2Proof/Machine/Sys.lean ====
section
/-! DEFINITION. The SYS class but for CSR accesses and FWCALL: calls and returns, spilling, contexts,
translation, commit, watchdog, levels, cancels (R314 to R325). -/

namespace Sys2Proof.Machine

/-! ### Calls and returns (R314 to R316) -/

/-- ECALL (R314). -/
def execEcall (f : FImm) (s : State) : Host.Outcome State Fault Refusal :=
  seqInstr [] [] (fun s => .after s (Cause.seq cECALL 0 (f.imm.setWidth 64))) s

/-- TRET: the tenant handler must be the innermost; its shelves empty first (R315). -/
def execTret (s : State) : Host.Outcome State Fault Refusal :=
  if s.ctx.thnd && !s.ctx.shnd then
    if s.bank.entries.isEmpty then .next (s.retire [] s.ctx.pc).leaveTenant else .next (s.waitAt .other false)
  else .next (s.fault (Cause.seq cILLEGAL 0 (encode .tret)))

/-- SRET: the steward handler must be open (R316). -/
def execSret (s : State) : Host.Outcome State Fault Refusal :=
  if s.ctx.shnd then .next (s.retire [] s.ctx.pc).leaveSteward
  else .next (s.fault (Cause.seq cILLEGAL 0 (encode .sret)))

/-! ### Spilling (R317) -/

/-- The saved copy of a tile register. -/
def Tile.copy (t : Tile) : Spill :=
  { cells := if t.state = .off then [] else t.cells, pcells := [], state := t.state, lock := t.lock }

/-- The saved copy of a plane; its lock field keeps ZMASK. -/
def Plane.copy (p : Plane) : Spill := { cells := [], pcells := p.cells, state := .full, lock := p.zmask }

/-- The common shape of TSPILL and TFILL: an open handler, a register present, shelf entries that name it
done (R317). -/
def spilling (f : FBk) (word : Word) (skip : Ctx → Bool) (act : Ctx → Ctx) (s : State) :
    Host.Outcome State Fault Refusal :=
  seqInstr [] [] (fun s =>
    let i := f.idx.toNat
    if !s.ctx.inHandler then .trap s (Cause.seq cILLEGAL 0 word)
    else if !f.kind && (s.ctx.tile i).state == .absent then .trap s (Cause.seq cABSENT 0 (bankCode false f.idx))
    else if skip s.ctx then .done s
    else if (if f.kind then s.planeBusy i else s.tileBusy i) then .wait s .other false
    else .done (s.setCtx (act s.ctx))) s

/-- TSPILL (R317). -/
def execTspill (f : FBk) (s : State) : Host.Outcome State Fault Refusal :=
  let i := f.idx.toNat
  spilling f (encode (.tspill f))
    (fun c => if f.kind then (c.plane i).spill.isSome else (c.tile i).spill.isSome)
    (fun c => if f.kind then c.setPlane i { c.plane i with spill := some (c.plane i).copy }
      else c.setTile i { c.tile i with spill := some (c.tile i).copy, lock := false }) s

/-- TFILL (R317). -/
def execTfill (f : FBk) (s : State) : Host.Outcome State Fault Refusal :=
  let i := f.idx.toNat
  spilling f (encode (.tfill f))
    (fun c => if f.kind then (c.plane i).spill.isNone else (c.tile i).spill.isNone)
    (fun c => if f.kind then c.fillPlane i else c.fillTile i) s

/-! ### Contexts (R318, R319) -/

/-- The HELD bit of a context's header in memory (R354). -/
def State.markHeld (s : State) (id : Nat) : State :=
  s.homeWrite (id + 11) [s.byteAt (id + 11) ||| 4#8] false

/-- Stops a resident context: its crew with it, its task READY, the context written out and held (R19,
R318). (DEDUCED, log 37) -/
def State.holdCtx (s : State) (c : Ctx) : State :=
  let s1 := (s.stopCrew c.task).taskReady c.task
  (s1.mapCtx c.id (fun x => { x with held := true, saveReq := false })).leaveCore c.id

/-- CTXSAVE (R318): an open handler is waited for (R352); a context that its end has written out is held, and the wait
answers that it is saved. -/
def execCtxsave (f : FDA) (s : State) : Host.Outcome State Fault Refusal :=
  seqInstr [f.a] [f.d] (fun s => consume s f.a 1 (fun a =>
    if a.toNat % 4096 ≠ 0 then .trap s (Cause.seq cALIGN 0 a)
    else match s.findCtx a.toNat with
      | none => .done (s.wrc f.d 3#64)
      | some c => match c.place with
        | .nowhere => .done (s.wrc f.d 3#64)
        | .memory => .done (((s.mapCtx c.id (fun x => { x with held := true, saveReq := false })).markHeld c.id).wrc f.d
            (if c.saveReq then 0#64 else 1#64))
        | .core _ =>
          if c.inHandler then .wait (s.mapCtx c.id (fun x => { x with saveReq := true })) .other false
          else if c.id = s.ctx.id then
            let s1 := (s.wrc f.d 0#64).setPc (s.ctx.pc + 8#64)
            .done (s1.holdCtx s1.ctx)
          else .done ((s.holdCtx c).wrc f.d 0#64))) s

/-- The scheduler reads the task record of a context that a CTXLOAD brings; a failure is reported, a marked record as
MEM_UNCORRECTABLE (R96, R312, R360, R366). (DEDUCED, log 37) -/
def State.recordOf (s : State) (c : Ctx) : State × Option Nat :=
  match s.agentX c.vdn.toNat c.part.toNat c.trec.toNat 128 .r with
  | .ok ps =>
    if s.homeMarked ps c.trec.toNat 128 then
      (s.postSteward (dieOf s.ctx.core) { code := cUNCORR, sub := 0#8, val := c.trec, unit := 0, ch := 0 }, none)
    else (s, some (natOfBytes (s.homeBytes ps c.trec.toNat 128)))
  | .error (a, x) => (s.agentFails (dieOf s.ctx.core) c.part.toNat c.vdn.toNat 7 a x, none)

/-- Whether every member of a dispatched task is there: those that have ended keep their slots (R373). -/
def Task.whole (t : Task) : Bool := decide (t.crew ≤ t.slots.length)

/-- A context read from an area that no context of the module wrote joins its task, one that a migration has brought, or
one posted as already dispatched; it keeps its slot until the task completes; its members stay held until the crew is
whole and its device goes on (R19, R373, R385, R386). (DEDUCED, log 37) -/
def State.adopt (s : State) (c : Ctx) : State :=
  let rest := c.level == .tenant && s.vdPaused c.vdn.toNat
  if c.trec = 0#64 ∨ c.level = .steward then s.addCtx { c with held := rest }
  else
    let p := c.part.toNat
    let mine (t : Task) : Bool := t.record == c.trec && t.part == p && t.vdn == c.vdn.toNat && t.dispatched &&
      t.state != .complete && !t.whole
    let join (s : State) (t : Task) : State :=
      let ms := t.members ++ [c.id]
      let t1 := { t with members := ms, slots := t.slots ++ [c.id] }
      let s1 := (s.addCtx { c with held := true, task := some t.id }).putTask t1
      if t1.whole && !rest then ms.foldl (fun s m => s.mapCtx m (fun x => { x with held := false })) s1 else s1
    match s.tasks.find? mine with
    | some t => join s t
    | none => match s.recordOf c with
      | (s, none) => s.addCtx { c with held := rest }
      | (s, some h) =>
        let t0 := s.taskOf p c.vdn.toNat c.trec h none
        let t1 : Task := { t0 with
          state := .ready, dispatched := true, disp := c.disp.toNat, regabs := c.regabs, crew := max 1 c.crewSz
          paused := rest }
        join { s with tasks := s.tasks ++ [t1], postSeq := s.postSeq + 1 } t1

/-- The slots of registers that a partition owns: of PBATT or PHBM, four to a register (R370). -/
def State.ownedSlots (s : State) (p lo n : Nat) : Nat :=
  ((List.range n).map (fun i => ((List.range 16).filter (fun k => s.cfgField (lo + i) (4 * k) 4 == p)).length)).sum

/-- What a partition presents to a device's contexts (R386). -/
def State.shapeOf (s : State) (p : Nat) : Shape :=
  { cores := (s.coresOf p).length, hbm := s.cfgField (0x410 + p) 36 10, t2 := s.cfgField (0x410 + p) 46 11
    t2slot := s.cfgField (0x410 + p) 57 7, batt := [s.ownedSlots p 0x500 64, s.ownedSlots p 0x540 64]
    frames := (List.range 8).map (fun h => s.ownedSlots p (0x580 + 4 * h) 4) }

/-- Whether a partition presents what the one did from which a device has come (R386). -/
def State.shapeMet (s : State) (v p : Nat) : Bool :=
  (Sparse.get (fun _ => none) s.shapes v).all (fun x => x == s.shapeOf p)

/-- The status of CTXLOAD for a context as its area gives it (R319, R386). (DEDUCED, log 37) -/
def State.loadStatus (s : State) (pa : Nat) (c : Ctx) : Nat :=
  let cores := s.coresOf c.part.toNat
  if !s.areaOk pa then 1
  else if !s.partEnabled c.part.toNat then 3
  else if c.level == .tenant && !s.shapeMet c.vdn.toNat c.part.toNat then 2
  else if cores.length ≤ c.lcore.toNat then 3
  else if !cores.any (fun k => (s.coreSlot k).fits c.spbanks c.l1size.toNat (c.fullt || c.regabs) c.liveMask) then 2
  else 0

/-- CTXLOAD (R319): a context of a paused device stays held until the pause ends (R385); a resident one has been
accepted before, and its area is not looked at. (DEDUCED, log 37) -/
def execCtxload (f : FDA) (s : State) : Host.Outcome State Fault Refusal :=
  seqInstr [f.a] [f.d] (fun s => consume s f.a 1 (fun a =>
    let pa := a.toNat
    if pa % 4096 ≠ 0 then .trap s (Cause.seq cALIGN 0 a)
    else match s.findCtx pa with
      | some c => match c.place with
        | .memory =>
          let c1 := s.rereadArea c
          let st := s.loadStatus pa c1
          .done ((if st = 0 then s.putCtx { c1 with held := c1.level == .tenant && s.vdPaused c1.vdn.toNat } else s).wrc f.d (BitVec.ofNat 64 st))
        | .core _ => .done (s.wrc f.d 0#64)
        | .nowhere =>
          let c1 := { s.readArea pa with kept := true }
          let st := s.loadStatus pa c1
          .done ((if st = 0 then s.adopt c1 else if st = 2 then s.addCtx { c1 with held := true } else s).wrc f.d
            (BitVec.ofNat 64 st))
      | none =>
        let c1 := { s.readArea pa with kept := true }
        let st := s.loadStatus pa c1
        .done ((if st = 0 then s.adopt c1 else if st = 2 then s.addCtx { c1 with held := true } else s).wrc f.d
          (BitVec.ofNat 64 st)))) s

/-! ### Translation and memory (R320, R321) -/

/-- Whether a TLB is one that a scope names around a core: its own and its cluster's, which serves it, at CORE
(R320, R365). -/
def TlbEntry.inScope (e : TlbEntry) (p sc : Nat) : Bool := match sc with
  | 0 => if e.core then e.unit == p else e.unit == clusterOf p
  | 1 => if e.core then clusterOf e.unit == clusterOf p else e.unit == clusterOf p
  | 2 => if e.core then dieOf e.unit == dieOf p else e.unit / Config.clustersPerDie == dieOf p
  | _ => true

/-- TLBINV (R320). -/
def execTlbinv (f : FScAB) (s : State) : Host.Outcome State Fault Refusal :=
  seqInstr [f.a, f.b] [] (fun s => consume s f.a 1 (fun a => consume s f.b 2 (fun b =>
    let v := bitsOf b.toNat 48 6
    let n := bitsOf b.toNat 0 40
    if a.toNat % 65536 ≠ 0 then .trap s (Cause.seq cALIGN 0 a)
    else if bitsOf b.toNat 54 10 ≠ 0 ∨ bitsOf b.toNat 40 8 ≠ 0 ∨ (n = 0 ∧ a ≠ 0#64) then s.dataTrap
    else
      let s1 := s.releaseAll f.scope.toNat
      let hit (e : TlbEntry) : Bool := e.vdn == v && e.inScope s.ctx.core f.scope.toNat &&
        (n == 0 || (decide (e.vbase < a.toNat + 65536 * n) && decide (a.toNat < e.vbase + e.size)))
      let old (e : WalkEntry) : Bool := e.stage == 1 && e.owner == v &&
        (f.scope == 3#3 || e.die == dieOf s.ctx.core) &&
        (n == 0 || (decide (e.vbase < a.toNat + 65536 * n) && decide (a.toNat < e.vbase + e.size)))
      .done { s1 with tlb := s1.tlb.filter (fun e => !hit e), walks := s1.walks.filter (fun e => !old e) }))) s

/-- The steward's stage-two translations of a range of pages, or the first failure (R321). -/
def State.ipaPages (s : State) (ipa n : Nat) : Except XFail (List Nat) :=
  (List.range n).mapM (fun i => match s.stage2 s.ctx.partition (ipa + 65536 * i) with
    | .ok l => .ok l.out
    | .error f => .error f)

/-- Zeros over a range of memory, in order after the issuer's own earlier accesses: the L1 bytes of the range are
dropped, the rest of their lines is written back and given up (R122, R130, R276, R282, R321). -/
def State.copyClear (s : State) (pa k : Nat) : State :=
  let s1 := s.setL1 (s.ctx.l1.filter (fun e => !(decide (pa ≤ e.1) && decide (e.1 < pa + k))))
  let ls := s1.ctx.l1Lines.filter (fun l => decide (pa / 256 ≤ l) && decide (256 * l < pa + k))
  (ls.foldl State.evictLine s1).zeroRange pa k

/-- ZERORANGE: the whole range, or, where the move performs a part only, its first 64 KiB, after which a stop leaves A
advanced and B reduced (R321). (DEDUCED, log 36) -/
def execZerorange (f : FAB) (s : State) : Host.Outcome State Fault Refusal :=
  seqInstr [f.a, f.b] [f.a, f.b] (fun s => consume s f.a 1 (fun a => consume s f.b 2 (fun b =>
    if a.toNat % 65536 ≠ 0 then .trap s (Cause.seq cALIGN 0 a)
    else if b.toNat % 65536 ≠ 0 then .trap s (Cause.seq cALIGN 0 b)
    else if 2 ^ 48 < a.toNat + b.toNat then .trap s (Cause.seq cDATA 1 a)
    else match s.ipaPages a.toNat (b.toNat / 65536) with
      | .error x => .trap (s.xEvent (dieOf s.ctx.core) s.ctx.part.toNat s.ctx.vdn.toNat x) (x.cause cDATA a.toNat)
      | .ok ps =>
        if s.parts && decide (1 < ps.length) && (s.ctx.boundSlot f.a).isNone && (s.ctx.boundSlot f.b).isNone then
          let s1 := s.copyClear (ps.headD 0) 65536
          .wait ((s1.wrc f.a (a + 65536#64)).wrc f.b (b - 65536#64)) .part false
        else
          let s1 := ps.foldl (fun s pa => s.copyClear pa 65536) s
          .done ((s1.wrc f.a (a + b)).wrc f.b 0#64)))) s

/-! ### Commit, watchdog, levels (R322 to R324) -/

/-- The commit point of a PSYNC issued at a time (R322). (DEDUCED, log 38) -/
def psyncPoint (t : Nat) : Nat := (t + 2048 + 1023) / 1024 * 1024

/-- PSYNC: the first time through it fixes its point; it retires once that point has been handled
(R322). (DEDUCED, log 38) -/
def execPsync (s : State) : Host.Outcome State Fault Refusal :=
  seqInstr [] [] (fun s =>
    match s.waitHere? with
    | none =>
      let p := psyncPoint s.now
      .wait { s with psyncs := s.psyncs.filter (fun e => e.1 != p) ++ [(p, s.staged)] } .other false
    | some w =>
      if s.psyncs.any (fun e => e.1 == psyncPoint w.since) then .wait s .other false else .done s) s

/-- WDOG (R323). -/
def execWdog (f : FA1) (s : State) : Host.Outcome State Fault Refusal :=
  seqInstr [f.a] [] (fun s => consume s f.a 1 (fun a =>
    if 1000000 < a.toNat then s.dataTrap
    else
      let k := dieOf s.ctx.core
      .done (s.setDie k { s.die k with
        wdog := if a = 0#64 then none else some a.toNat, wdogAt := s.now + 1000 * a.toNat, wdogX := 0 }))) s

/-- Sets a queue's level and floor (R324). -/
def State.dlvlQueue (s : State) (p q lvl : Nat) (floor : Bool) : State :=
  let s1 := s.setLevel (s.qcfg p q).die p q lvl
  s1.setQlevel p q { s1.qlevel p q with floor := if floor then lvl else 0 }

/-- DLVL (R324). -/
def execDlvl (f : FAB) (s : State) : Host.Outcome State Fault Refusal :=
  seqInstr [f.a, f.b] [] (fun s => consume s f.a 1 (fun a => consume s f.b 2 (fun b =>
    let p := bitsOf a.toNat 8 4
    let q := bitsOf a.toNat 0 6
    let all := bitOf a.toNat 63
    let lvl := bitsOf b.toNat 0 2
    if bitsOf a.toNat 6 2 ≠ 0 ∨ bitsOf a.toNat 12 51 ≠ 0 ∨ bitsOf b.toNat 3 61 ≠ 0 ∨ (all = true ∧ q ≠ 0) ∨
        s.partEnabled p = false ∨ (all = false ∧ s.queueOn p q = false) then s.dataTrap
    else
      let qs := if all then (List.range 64).filter (s.queueOn p) else [q]
      .done (qs.foldl (fun s q => s.dlvlQueue p q lvl (bitOf b.toNat 2)) s)))) s

/-! ### Cancels (R28, R29, R325) -/

/-- Clears a cancel record; none where there is none (R325). -/
def State.clearCancel (s : State) (p : Nat) (addr : Word) (lvl : Nat) : Option State :=
  let hit (c : CancelRec) : Bool := c.part == p && c.addr == addr && c.level == lvl
  if s.cancels.any hit then some { s with cancels := s.cancels.filter (fun c => !hit c) } else none

/-- CANCEL, issuing or clearing as b[2] says (R325). -/
def cancelBody (f : FDAB) (s : State) : SeqOut :=
  consume s f.a 1 (fun a => consume s f.b 2 (fun b =>
    let lvl := bitsOf b.toNat 0 2
    let p := bitsOf b.toNat 8 4
    if a.toNat % 16 ≠ 0 then .trap s (Cause.seq cALIGN 0 a)
    else if bitsOf b.toNat 3 5 ≠ 0 ∨ bitsOf b.toNat 12 52 ≠ 0 then s.dataTrap
    else if a = 0#64 then .trap s (Cause.seq cDATA 0 a)
    else if !s.partEnabled p then .done (s.wrc f.d 3#64)
    else if bitOf b.toNat 2 then match s.clearCancel p a lvl with
      | some s1 => .done (s1.wrc f.d 0#64)
      | none => .done (s.wrc f.d 2#64)
    else match s.cancelLevel p a lvl with
      | some s1 => .done (s1.wrc f.d 0#64)
      | none => .done (s.wrc f.d 1#64)))

/-- CANCEL (R325). -/
def execCancel (f : FDAB) (s : State) : Host.Outcome State Fault Refusal :=
  seqInstr [f.a, f.b] [f.d] (cancelBody f) s

/-- CANCEL with CLEAR = 1 (R325). -/
def execCancelClear (f : FDAB) (s : State) : Host.Outcome State Fault Refusal :=
  seqInstr [f.a, f.b] [f.d] (cancelBody f) s

end Sys2Proof.Machine
end

