-- ==== Sys2Proof/Machine/Firmware.lean ====
section
/-! DEFINITION. FWCALL: the services of the die's Moamor (R326, R367, R368, R408, R416, R417). -/

namespace Sys2Proof.Machine

/-! ### Argument blocks and results (R326, R416) -/

/-- Stores bytes over translated pages at their homes, a 256-byte line at a time. -/
def State.homeStore (s : State) (ps : List (Nat × XOk)) (va : Nat) (bs : List Byte) (pois : Bool) : State :=
  (linesOf va bs.length).foldl (fun (s : State) v =>
    let k := min (va + bs.length) (v / 256 * 256 + 256) - v
    s.homeWrite (physOf ps v) ((bs.drop (v - va)).take k) pois) s

/-- A FWCALL: the block at a is 64-byte aligned; an unknown service is answered before it is read; one that cannot
be read, or carries poison, is invalid. The service gives the state and the status (R326). (DESIGN CHOICE, log 13) -/
def fwCallOf (unknown : Bool) (d a : Reg) (service : State → Word → Nat → State × Nat) (s : State) :
    Host.Outcome State Fault Refusal :=
  seqInstr [a] [d] (fun s => consume s a 1 (fun va =>
    if va.toNat % 64 ≠ 0 then .trap s (Cause.seq cALIGN 0 va)
    else if unknown then .done (s.wrc d 0xFF#64)
    else match s.loadAt va.toNat 64 .r with
      | .error (s1, _) => .done (s1.wrc d 1#64)
      | .ok (s1, bs, p) =>
        if p then .done (s1.wrc d 1#64)
        else
          let (s2, st) := service s1 va (natOfBytes bs)
          .done (s2.wrc d (BitVec.ofNat 64 st)))) s

/-- A FWCALL of a known service. (DESIGN CHOICE, log 13) -/
def fwCall (d a : Reg) (service : State → Word → Nat → State × Nat) (s : State) : Host.Outcome State Fault Refusal :=
  fwCallOf false d a service s

/-- Writes a result at the start of the buffer of n bytes at OUT, a virtual address of the caller; a fault on any of it
gives status 1 (R416). -/
def State.fwOut (s : State) (out n : Nat) (bs : List Byte) : State × Nat :=
  match s.checkData out n .w with
  | .error (s1, _) => (s1, 1)
  | .ok ps => (s.homeStore ps out bs false, 0)

/-- A 512-bit digest as bytes. -/
def digestBytes (d : BitVec 512) : List Byte := bytesOfNat 64 d.toNat

/-! ### Services 0 to 3 (R416, R417) -/

/-- Service 0: the firmware version, and the image digest as far as the 64-byte buffer holds it (R416). -/
def fwIdentity (s : State) (_ : Word) (n : Nat) : State × Nat :=
  if bitsOf n 0 64 ≠ 0 ∨ bitsOf n 128 384 ≠ 0 then (s, 1)
  else
    let d := Config.shake256 s.flash
    s.fwOut (bitsOf n 64 64) 64 (bytesOfNat 8 Config.firmwareVersion.toNat ++ (digestBytes d).take 56)

/-- FWCALL service 0, and every service number without a service, answered with 0xFF (R326, R416).
(DESIGN CHOICE, log 13) -/
def execFwcallIdentity (f : FDAImm) (s : State) : Host.Outcome State Fault Refusal :=
  fwCallOf (f.imm != 0#36) f.d f.a fwIdentity s

/-- Service 1: entries of the measurement log (R416). -/
def fwLog (s : State) (_ : Word) (n : Nat) : State × Nat :=
  let first := bitsOf n 128 32
  let count := bitsOf n 160 32
  if bitsOf n 0 64 ≠ 0 ∨ bitsOf n 192 320 ≠ 0 then (s, 1)
  else if s.mlog.length < first + count then (s, 1)
  else s.fwOut (bitsOf n 64 64) (64 * count) (((s.mlog.drop first).take count).flatMap digestBytes)

/-- FWCALL service 1 (R416). -/
def execFwcallMeasurementLog (f : FDAfw) (s : State) : Host.Outcome State Fault Refusal :=
  fwCall f.d f.a fwLog s

/-- The digest of the measurement log. -/
def State.logDigest (s : State) : BitVec 512 := Config.shake256 (s.mlog.flatMap digestBytes)

/-- Service 2: the signature over the digest of nonce, log digest and device, then the log digest
(R416). -/
def fwQuote (s : State) (_ : Word) (n : Nat) : State × Nat :=
  if bitsOf n 0 64 ≠ 0 ∨ bitsOf n 384 128 ≠ 0 then (s, 1)
  else
    let log := digestBytes s.logDigest
    let sig := Config.falconSign (digestBytes (Config.shake256
      (bytesOfNat 32 (bitsOf n 64 256) ++ log ++ bytesOfNat 1 s.ctx.device)))
    s.fwOut (bitsOf n 320 64) 2048 ((List.range 1280).map (fun i => sig.getD i 0#8) ++ log)

/-- FWCALL service 2 (R416). -/
def execFwcallQuote (f : FDAfw) (s : State) : Host.Outcome State Fault Refusal := fwCall f.d f.a fwQuote s

/-- The retired ways of a cluster's L2 slice: the masks of its defects (R417). -/
def State.deadWays (s : State) (c : Nat) : Nat :=
  (s.repair.filter (fun x => (x.kind == 5 || x.kind == 6) && x.location == c)).foldl (fun m x => m ||| x.count) 0

/-- The ways of a cluster's L2 slice that a partition holds: those its mask for the die names and no defect has retired
(R372, R417). (DEDUCED, log 82) -/
def State.waysHeld (s : State) (p c : Nat) : Nat :=
  let mask := s.cfgField (0x410 + p) (if c < 20 then 4 else 20) 16
  mask - (mask &&& s.deadWays c)

/-- The 640 bytes of the repair map (R417). -/
def State.repairMap (s : State) : List Byte :=
  let cores := List.range Config.coreCount
  bytesOfNat 80 (packBits 1 (cores.map (fun k => b2n (s.coreSlot k).disabled))) ++
  bytesOfNat 80 (packBits 1 (cores.map (fun k => b2n (s.coreSlot k).noT15))) ++
  bytesOfNat 80 (packBits 16 ((List.range 40).map s.deadWays)) ++ bytesOfNat 16 0 ++
  bytesOfNat 320 (packBits 4 (cores.map (fun k =>
    if (s.coreSlot k).disabled then 0 else (s.coreSlot k).removed))) ++ bytesOfNat 64 0

/-- Service 3: the repair map (R416, R417). -/
def fwRepairMap (s : State) (_ : Word) (n : Nat) : State × Nat :=
  if bitsOf n 0 64 ≠ 0 ∨ bitsOf n 128 384 ≠ 0 then (s, 1) else s.fwOut (bitsOf n 64 64) 640 s.repairMap

/-- FWCALL service 3 (R416). -/
def execFwcallRepairMap (f : FDAfw) (s : State) : Host.Outcome State Fault Refusal :=
  fwCall f.d f.a fwRepairMap s

/-! ### Services 4 and 5 (R367, R368) -/

/-- Frames of a tier: their first number and how many there are, 64 KiB each (R358). -/
def tierFrames (tier2 : Bool) : Nat × Nat := if tier2 then (2 ^ 24, 2 ^ 24) else (0, 2 ^ 23)

/-- The frame of the mirror copy of a frame (R362). -/
def mirrorFrame (f : Nat) : Nat := f ^^^ 2 ^ 22

/-- The device-physical ranges that the partition configuration names: a queue table, save areas, a table root, a
version heap, an overflow list (R373, R374). -/
def State.namedRanges (s : State) (p : Nat) : List (Nat × Nat) :=
  [((s.cfg (0x420 + p)).toNat / 256 * 256, 32 * s.cfgField (0x420 + p) 0 7),
   ((s.cfg (0x430 + p)).toNat / 4096 * 4096, Config.saveAreaBytes * s.cfgField (0x430 + p) 0 12),
   ((s.cfg (0x440 + p)).toNat / 4096 * 4096, 4096),
   ((s.cfg (0x680 + p)).toNat / 65536 * 65536, 65536 * s.cfgField (0x680 + p) 0 16),
   ((s.cfg (0x690 + p)).toNat / 4096 * 4096, 4096 * s.cfgField (0x690 + p) 0 12)]

/-- Whether firmware cannot give out a frame: it has given it out already, it is retired, or the configuration of a
partition uses it (R368). -/
def State.frameBusy (s : State) (f : Nat) : Bool :=
  s.frames.contains f || s.retired.contains f ||
  (List.range 16).any (fun p => (s.namedRanges p).any (fun r => decide (r.1 < 65536 * (f + 1)) &&
    decide (65536 * f < r.1 + r.2) && r.1 != 0))

/-- The first frame at or after the k-th of n from `lo` on that is not busy; none where all are. -/
def freshFrom (busy : Nat → Bool) (lo n : Nat) : Nat → Nat → Option Nat
  | 0, _ => none
  | fuel + 1, k => if busy (lo + k % n) then freshFrom busy lo n fuel (k + 1) else some (lo + k % n)

/-- The address of the fresh frame that firmware takes in a tier; with a mirror, its mirror frame is fresh too
(R362, R368); none where there is none. (DESIGN CHOICE, log 11) -/
def State.freshFrame (s : State) (tier2 mirror : Bool) : Option Nat :=
  let (lo, n) := tierFrames tier2
  (freshFrom (fun f => s.frameBusy f || (mirror && s.frameBusy (mirrorFrame f))) lo n n (Config.freePage s.free)).map
    (fun f => 65536 * f)

/-- The frames of a page: its own and, where it is mirrored, the mirror's (R362). -/
def framesOf (pa : Nat) (mirror : Bool) : List Nat :=
  (pa / 65536) :: (if mirror then [mirrorFrame (pa / 65536)] else [])

/-- Takes frames out of use, or into it. -/
def State.giveFrames (s : State) (fs : List Nat) : State := { s with frames := s.frames ++ fs }

/-- Frames that firmware has back. -/
def State.takeFrames (s : State) (fs : List Nat) : State := { s with frames := s.frames.filter (fun f => !fs.contains f) }

/-- The 4 KiB table page that firmware takes, in a fresh HBM frame; none where there is none.
(DESIGN CHOICE, log 11) -/
def State.freshTable (s : State) : Option Nat :=
  let k := Config.freeTable s.free
  (freshFrom s.frameBusy 0 (2 ^ 23) (2 ^ 23) (k / 16)).map (fun f => 65536 * f + 4096 * (k % 16))

/-- Pages a partition has mapped in a tier. -/
def State.pagesUsed (s : State) (part : Nat) (tier2 : Bool) : Nat :=
  Sparse.get (fun _ => 0) s.quotaUsed (2 * part + b2n tier2)

/-- Changes the count of mapped pages. -/
def State.setPagesUsed (s : State) (part : Nat) (tier2 : Bool) (n : Nat) : State :=
  { s with quotaUsed := Sparse.set (fun _ => 0) s.quotaUsed (2 * part + b2n tier2) n }

/-- Pages of a partition's quota in a tier (R372). (DESIGN CHOICE, log 11) -/
def State.pageQuota (s : State) (part : Nat) (tier2 : Bool) : Nat :=
  16384 * (if tier2 then s.cfgField (0x410 + part) 46 11 else s.cfgField (0x410 + part) 36 10)

/-- A partition without a stage-two root, which PS2ROOT 0 says, has one from its first map on: firmware takes a table
page and writes the register (R359, R367, R370, R419). (DESIGN CHOICE, log 11) -/
def State.rootTable (s : State) (part : Nat) : State :=
  if s.cfg (0x440 + part) ≠ 0#64 then s
  else match s.freshTable with
    | none => s
    | some t =>
      let put (m : Sparse Word) : Sparse Word := Sparse.set cfgReset m (0x440 + part) (BitVec.ofNat 64 t)
      ({ (s.useFree.giveFrames [t / 65536]) with staged := put s.staged, committed := put s.committed } : State).zeroRange t 4096

/-- The address of the level-3 entry of an intermediate page; `make` takes table pages where there are
none. None where a larger leaf stands there, or no table and none is to be made. -/
def State.entryOf (make : Bool) (ipa : Nat) : List (Nat × Nat × Nat) → Nat → State → Option (State × Nat)
  | [], _, _ => none
  | (lo, nb, lvl) :: rest, table, s =>
    let addr := table + 8 * bitsOf ipa lo nb
    if lvl = 3 then some (s, addr)
    else
      let e := s.natAt addr 8
      if bitOf e 0 then
        if bitOf e 1 then State.entryOf make ipa rest (bitsOf e 8 48 * 256) s else none
      else match (if make then s.freshTable else none) with
        | some t =>
          let s1 := ((s.useFree.giveFrames [t / 65536]).zeroRange t 4096).homeWrite addr (bytesOfNat 8 (t + 3)) false
          State.entryOf make ipa rest t s1
        | none => none

/-- A leaf of 64 KiB: frame, R, W, X and M as the block's flags give them (R360, R367). -/
def leafOf (frame flags : Nat) : Nat :=
  frame + packFields [(0, 1, 1), (2, 3, flags % 8), (5, 1, flags / 8)]

/-- Moves what stands at a page to another: bytes, marks, scope records; L1 bytes, waits, prefetches and
contributions follow (R86, R368). -/
def State.movePage (s : State) (old new : Nat) : State :=
  let at_ (pa : Nat) : Nat := if old ≤ pa ∧ pa < old + 65536 then pa - old + new else pa
  let mem := s.mem.filter (fun e => decide (old ≤ e.1) && decide (e.1 < old + 65536))
  let marks := s.marks.filter (fun e => e.1 / 1024 == old / 65536)
  let scopes := s.scopes.filter (fun e => e.1 / 1024 == old / 65536)
  let sec (k : Nat) : Nat := at_ (64 * k) / 64
  let s1 := s.zeroRange new 65536
  let wait (w : Option WaitSt) : Option WaitSt := w.map (fun x => { x with kind := match x.kind with
    | .counter pa n => .counter (at_ pa) n
    | .pop d b r => .pop (BitVec.ofNat 64 (at_ d.toNat)) b r
    | .push d => .push (BitVec.ofNat 64 (at_ d.toNat))
    | k => k })
  let bank (b : RegBank) : RegBank := { b with wait := wait b.wait }
  let follow (c : Ctx) : Ctx := { c with
    l1 := c.l1.foldl (fun m e => Sparse.set (fun _ => none) m (at_ e.1) e.2) []
    prefetches := c.prefetches.map (fun p => { p with cnt := BitVec.ofNat 64 (at_ p.cnt.toNat) })
    base := bank c.base, tbank := bank c.tbank, sbank := bank c.sbank }
  { s1 with
    mem := mem.foldl (fun m e => Sparse.set memDefault m (at_ e.1) e.2) s1.mem
    marks := marks.foldl (fun m e => Sparse.set (fun _ => false) m (sec e.1) e.2) s1.marks
    scopes := scopes.foldl (fun m e => Sparse.set (fun _ => none) m (sec e.1) e.2) s1.scopes
    contribs := s1.contribs.map (fun c => { c with pa := at_ c.pa })
    ctx := follow s1.ctx, ctxs := s1.ctxs.map follow }

/-- No context's L1 holds a byte of a frame any more: it passes to another owner (R97). -/
def State.dropFrame (s : State) (pa : Nat) : State :=
  let clean (c : Ctx) : Ctx := { c with l1 := c.l1.filter (fun e => e.1 / 65536 != pa / 65536) }
  { s with ctx := clean s.ctx, ctxs := s.ctxs.map clean }

/-- A page moved to a fresh frame of a tier, its mirror with it, its leaf switched; none where the quota is full
or no frame is fresh (R362, R368). -/
def State.relocate (s : State) (part slot : Nat) (tier2 quota : Bool) : Option State :=
  let e := s.natAt slot 8
  let old := bitsOf e 8 48 * 256
  let m := bitOf e 5
  let from2 := isTier2 old
  let full := quota && from2 != tier2 && decide (s.pageQuota part tier2 ≤ s.pagesUsed part tier2)
  match (if full ∨ (tier2 = true ∧ m = true) then none else s.freshFrame tier2 m) with
  | none => none
  | some new =>
    let s0 := (s.useFree.takeFrames (framesOf old m)).giveFrames (framesOf new m)
    let s1 := if m then s0.movePage (65536 * mirrorFrame (old / 65536)) (65536 * mirrorFrame (new / 65536)) else s0
    let s2 := (s1.movePage old new).homeWrite slot (bytesOfNat 8 (new + e % 256)) false
    some (if from2 = tier2 then s2
      else (s2.setPagesUsed part from2 (s2.pagesUsed part from2 - 1)).setPagesUsed part tier2
        (s2.pagesUsed part tier2 + 1))

/-- One page of service 4 or 5; none where firmware refuses it (R97, R362, R367, R368). Code 5 stands for
retirement. -/
def State.pageOp (s : State) (part op flags ipa : Nat) : Option State :=
  let s0 := if op = 0 then s.rootTable part else s
  match State.entryOf (op == 0) ipa walkLevels (s0.cfg (0x440 + part)).toNat s0 with
  | none => none
  | some (s1, slot) =>
    let e := s1.natAt slot 8
    let tier2 := bitOf flags 4
    let m := bitOf flags 3
    let old := bitsOf e 8 48 * 256
    if op = 0 then
      match (if bitOf e 0 = true ∨ s1.pageQuota part tier2 ≤ s1.pagesUsed part tier2 ∨ (tier2 = true ∧ m = true) then none
          else s1.freshFrame tier2 m) with
      | none => none
      | some new =>
        let fs := framesOf new m
        let s2 := fs.foldl (fun s f => (s.dropFrame (65536 * f)).zeroRange (65536 * f) 65536) (s1.useFree.giveFrames fs)
        some ((s2.homeWrite slot (bytesOfNat 8 (leafOf new (flags % 16))) false).setPagesUsed part tier2
          (s2.pagesUsed part tier2 + 1))
    else if !bitOf e 0 then none
    else match op with
      | 1 =>
        let fs := framesOf old (bitOf e 5)
        some ((((fs.foldl (fun s f => s.dropFrame (65536 * f)) s1).takeFrames fs).homeWrite slot (bytesOfNat 8 0) false
          ).setPagesUsed part (isTier2 old) (s1.pagesUsed part (isTier2 old) - 1))
      | 2 => s1.relocate part slot false true
      | 3 => s1.relocate part slot true true
      | 4 =>
        let pair := mirrorFrame (old / 65536)
        if m && (isTier2 old || (!bitOf e 5 && s1.frameBusy pair)) then none
        else
          let s2 := if m && !bitOf e 5 then ((s1.giveFrames [pair]).dropFrame (65536 * pair)).zeroRange (65536 * pair) 65536
            else if !m && bitOf e 5 then s1.takeFrames [pair] else s1
          some (s2.homeWrite slot (bytesOfNat 8 (leafOf old (flags % 16))) false)
      | _ => (s1.relocate part slot (isTier2 old) false).map (fun t => { t with retired := t.retired ++ [old / 65536] })

/-- The pages of a block in ascending order, up to the first refused: the state and the pages done
(R368). -/
def State.pageOps (s : State) (part op flags ipa : Nat) : Nat → State × Nat
  | 0 => (s, 0)
  | n + 1 =>
    let (s1, k) := State.pageOps s part op flags ipa n
    if k < n then (s1, k)
    else match s1.pageOp part op flags (ipa + 65536 * n) with
      | some s2 => (s2, n + 1)
      | none => (s1, k)

/-- Service 4 or 5: the block checked, the pages done, the stage-two translations invalidated package-wide, DONE
written where the block stands now (R367, R368). (DESIGN CHOICE, log 13) -/
def fwPages (retire : Bool) (s : State) (a : Word) (n : Nat) : State × Nat :=
  let ipa := bitsOf n 0 64
  let np := bitsOf n 64 32
  let op := bitsOf n 96 8
  let fl := bitsOf n 104 8
  if ipa % 65536 ≠ 0 ∨ np = 0 ∨ 16384 < np ∨ 2 ^ 48 < ipa + 65536 * np ∨ (if retire then op ≠ 0 else 4 < op) ∨
      32 ≤ fl ∨ bitsOf n 112 16 ≠ 0 ∨ bitsOf n 160 352 ≠ 0 then (s, 1)
  else match s.checkData (a.toNat + 16) 4 .w with
    | .error (s1, _) => (s1, 1)
    | .ok _ =>
      let (s1, k) := s.pageOps s.ctx.part.toNat (if retire then 5 else op) fl ipa np
      let s2 : State := { s1 with tlb := [], walks := [] }
      let s3 := match s2.checkData (a.toNat + 16) 4 .w with
        | .ok ps => s2.homeStore ps (a.toNat + 16) (bytesOfNat 4 k) false
        | .error (t, _) => t
      (s3, if k = np then 0 else 2)

/-- FWCALL service 4 OP 0 (R368). -/
def execStage2Map (f : FDAfw) (s : State) : Host.Outcome State Fault Refusal := fwCall f.d f.a (fwPages false) s

/-- FWCALL service 4 OP 1 (R368). -/
def execStage2Unmap (f : FDAfw) (s : State) : Host.Outcome State Fault Refusal := fwCall f.d f.a (fwPages false) s

/-- FWCALL service 4 OP 2 (R368). -/
def execMoveToTier1 (f : FDAfw) (s : State) : Host.Outcome State Fault Refusal := fwCall f.d f.a (fwPages false) s

/-- FWCALL service 4 OP 3 (R368). -/
def execMoveToTier2 (f : FDAfw) (s : State) : Host.Outcome State Fault Refusal := fwCall f.d f.a (fwPages false) s

/-- FWCALL service 4 OP 4 (R367). -/
def execSetPermissions (f : FDAfw) (s : State) : Host.Outcome State Fault Refusal :=
  fwCall f.d f.a (fwPages false) s

/-- FWCALL service 5 (R368). -/
def execPageRetirement (f : FDAfw) (s : State) : Host.Outcome State Fault Refusal :=
  fwCall f.d f.a (fwPages true) s

/-! ### Service 6 (R136, R408) -/

/-- Service 6: a window declared or removed (R408). (DESIGN CHOICE, log 13) (DEDUCED, log 35) -/
def fwWindow (s : State) (_ : Word) (n : Nat) : State × Nat :=
  let p := s.ctx.part.toNat
  let w : Window := { ident := bitsOf n 128 16, part := p, vdn := s.ctx.vdn.toNat, base := bitsOf n 0 64, size := bitsOf n 64 64,
                      w64 := bitOf n 160, home := bitsOf n 144 16 }
  let mine (x : Window) : Bool := x.part == p && x.ident == w.ident
  if w.base % 65536 ≠ 0 ∨ w.size % 65536 ≠ 0 ∨ w.size = 0 ∨ 2 ^ 30 < w.size ∨ 2 ^ 48 < w.base + w.size ∨
      1023 < w.ident ∨ 4095 < w.home ∨ bitsOf n 162 350 ≠ 0 then (s, 1)
  else if bitOf n 161 then
    if s.windows.any mine then
      let s1 := s.performContribs (fun c => c.ident == w.ident)
      ({ s1 with windows := s1.windows.filter (fun x => !mine x) }, 0)
    else (s, 2)
  else if s.windows.any (fun x => x.ident == w.ident) || (s.window p w.base w.size).isSome then (s, 2)
  else ({ s with windows := s.windows ++ [w] }, 0)

/-- FWCALL service 6, declaring (R408). -/
def execWindowDeclare (f : FDAfw) (s : State) : Host.Outcome State Fault Refusal := fwCall f.d f.a fwWindow s

/-- FWCALL service 6, removing (R408). -/
def execWindowRemove (f : FDAfw) (s : State) : Host.Outcome State Fault Refusal := fwCall f.d f.a fwWindow s

end Sys2Proof.Machine
end

