-- ==== Sys2Proof/Machine/Current.lean ====
section
/-! DEFINITION. Current reservations, course switches and the droop freeze: what a unit asks its cluster's arbiter for,
the grant, the courses a macro-operation switches on and off (R341, R409 to R411). -/

namespace Sys2Proof.Machine

/-- The current a queue entry asks for; none where it asks for none (R410). -/
def Entry.current (e : Entry) : Option Nat :=
  let macro_ (at_ : BitVec 5) : Option Nat :=
    some ((if arrWidth at_.toNat = 16 then Config.ampX16 else Config.ampX8) *
      ((List.range 4).filter (fun i => e.stamp.ashape.getLsbD i)).length)
  match e.instr with
  | .xmma f => macro_ f.at_
  | .xmmam f => macro_ f.at_
  | .xspmm f => macro_ f.at_
  | .xswap _ | .xshape _ | .xclr _ | .xbias _ => none
  | _ => some Config.ampV

/-- What a unit of a context asks for now: the entry it has under way, or a burst of a running channel.
(DEDUCED, log 18) -/
def Ctx.asks (c : Ctx) (u : PowerUnit) : Option Nat := match u with
  | .x => (c.bank.qX.find? (fun e => !e.pushOwed)).bind Entry.current
  | .v => (c.bank.qV.find? (fun e => !e.pushOwed)).bind Entry.current
  | .copy => if c.chans.any (fun e => e.2.run) then some Config.ampCopy else none

/-- Whether a reservation is the one of a context's unit for the code that runs: a handler's entries ask for their own
(R341, R349). -/
def Ctx.asksFor (c : Ctx) (u : PowerUnit) (r : Reserve) : Bool := r.ctx == c.id && r.unit == u && r.bank == c.unitBank u

/-- Whether a unit of a context holds a reservation. -/
def State.holds (s : State) (c : Ctx) (u : PowerUnit) : Bool := (s.cluster (clusterOf c.core)).held.any (c.asksFor u)

/-- A unit's request joins its cluster's pending ones, once (R341). (DEDUCED, log 18) -/
def State.request (s : State) (c : Ctx) (u : PowerUnit) : State :=
  let n := clusterOf c.core
  let k := s.cluster n
  match c.asks u with
  | none => s
  | some a =>
    if (k.held ++ k.pending).any (c.asksFor u) then s
    else s.setCluster n { k with
      pending := k.pending ++ [{ core := c.core, ctx := c.id, bank := c.unitBank u, unit := u, amount := a }] }

/-- The order of units within a core (R341). -/
def unitRank : PowerUnit → Nat
  | .x => 0
  | .v => 1
  | .copy => 2

/-- The Key of a request: the steward first, then its task's (R341). -/
def State.keyBefore (s : State) (a b : Reserve) : Bool :=
  let key (r : Reserve) : Option Task := match s.findCtx r.ctx with
    | some c => if c.level == .steward then none else c.task.bind s.findTask
    | none => none
  let place := decide (a.core < b.core) || (a.core == b.core && decide (unitRank a.unit < unitRank b.unit))
  match key a, key b with
  | none, some _ => true
  | some _, none => false
  | none, none => place
  | some x, some y => x.before y || (!(y.before x) && place)

/-- The arbiter looks at its earliest pending request; what a context that has left the cluster, or a handler that has
ended, held or asked for is gone; a macro-operation that a handler has stopped keeps its reservation, which stands in no
lone request's way (R341, R410). (DEDUCED, log 18) -/
def State.grant (s : State) (n : Nat) : State :=
  let here (r : Reserve) : Bool := (s.findCtx r.ctx).any (fun c =>
    (if r.unit = .copy then c.resident else s.running c) && clusterOf c.core == n &&
      (r.bank == 0 || (r.bank == 1 && c.thnd) || (r.bank == 2 && c.shnd)))
  let k0 := s.cluster n
  let k := { k0 with held := k0.held.filter here, pending := k0.pending.filter here }
  match sortBy s.keyBefore k.pending with
  | [] => s.setCluster n k
  | r :: _ =>
    let stopped (x : Reserve) : Bool := (s.findCtx x.ctx).any (fun c => x.bank != c.unitBank x.unit)
    if (k.held.map Reserve.amount).sum + r.amount ≤ k.limit ∨ k.held.all stopped = true then
      s.setCluster n { k with held := k.held ++ [r], pending := k.pending.erase r }
    else s.setCluster n k

/-- Whether X and V of a cluster may begin nothing now (R411). -/
def State.frozen (s : State) (n : Nat) : Bool := decide (s.now < (s.cluster n).freezeEnd)

/-- Whether a unit of the running context may begin: what it asks for is reserved; the request is made and looked at
here where it has not been (R341). (DEDUCED, log 18) -/
def State.reserve (s : State) (u : PowerUnit) : State × Bool :=
  if (s.ctx.asks u).isNone || s.holds s.ctx u then (s, true)
  else
    let s1 := (s.request s.ctx u).grant (clusterOf s.ctx.core)
    (s1, s1.holds s.ctx u)

/-! ### Course switches (R409) -/

/-- The courses that the macro-operation at the head of X selects; none where none stands there (R44, R409). -/
def RegBank.selects (b : RegBank) : Option (BitVec 4) := (b.qX.find? (fun e => !e.pushOwed)).bind (fun e => match e.instr with
  | .xmma _ | .xmmam _ | .xspmm _ => some e.stamp.ashape
  | _ => none)

/-- The switches of the running core follow the courses that its next macro-operation selects; those switched back on
power up within 16 ns. True once they have (R409). (DESIGN CHOICE, log 63) -/
def State.powerCourses (s : State) : State × Bool :=
  let p := s.ctx.core
  let k := s.coreSlot p
  match s.bank.selects with
  | none => (s, true)
  | some sel =>
    if k.courses = sel then (s, decide (k.courseAt ≤ s.now))
    else if sel &&& ~~~k.courses = 0#4 then (s.setCore p { k with courses := sel }, decide (k.courseAt ≤ s.now))
    else
      let at_ := s.now + Config.freePowerUp s.free % 17
      ((s.setCore p { k with courses := sel, courseAt := at_ }).useFree, decide (at_ ≤ s.now))

/-- The time for which the X engine of a context still waits for its courses (R409). -/
def State.courseWait (s : State) (c : Ctx) : Nat :=
  if c.bank.selects.isSome then (s.coreSlot c.core).courseAt - s.now else 0

end Sys2Proof.Machine
end

