-- ==== Sys2Proof/Machine/Copy.lean ====
section
/-! DEFINITION. The copy engine: tensor maps, the run of a transfer record, gutter and landing-buffer
landings, publications, prefetches, and the C class (R87, R92, R93, R95, R270 to R283). -/

namespace Sys2Proof.Machine

/-! ### Tensor maps (R274, R275) -/

/-- A dimension of its 128 bits. -/
def tdimOf (n : Nat) : TDim :=
  { bound := bitsOf n 0 32, stride := (BitVec.ofNat 40 (bitsOf n 32 40)).toInt
    start := (BitVec.ofNat 24 (bitsOf n 72 24)).toInt, wcount := bitsOf n 96 16, wsize := bitsOf n 112 8
    wstride := bitsOf n 120 4, dil := bitsOf n 124 4 }

/-- Whether a dimension's fields are in range. -/
def TDim.ok (d : TDim) : Bool :=
  d.bound != 0 && d.wcount != 0 && d.wsize != 0 && d.wstride != 0 && d.dil != 0

/-- The map of 256 bytes, none where it is malformed (R274). -/
def tmapOf (n : Nat) : Option TMap :=
  let nd := bitsOf n 0 8
  let es := bitsOf n 8 3
  let dims := (List.range nd).map (fun d => tdimOf (bitsOf n (256 + 128 * d) 128))
  if 1 ≤ nd ∧ nd ≤ 14 ∧ es ≤ 4 ∧ bitsOf n 11 5 = 0 ∧ bitsOf n 16 2 ≠ 3 ∧ bitsOf n 18 46 = 0 ∧
      bitsOf n 128 128 = 0 ∧ dims.all TDim.ok = true then
    some { esize := 2 ^ es, space := bitsOf n 16 2, base := bitsOf n 64 64, dims := dims }
  else none

/-- Elements of a map's walk. -/
def TMap.count (m : TMap) : Nat := m.dims.foldl (fun n d => n * d.wcount * d.wsize) 1

/-- The digits of a number in mixed radices, the first lowest. -/
def digits : List Nat → Nat → List Nat
  | [], _ => []
  | r :: rs, k => k % r :: digits rs (k / r)

/-- The address of element k of a walk, none where it is out of bounds: q innermost, then p (R275). -/
def TMap.addr (m : TMap) (k : Nat) : Option Nat :=
  let ds := digits (m.dims.map TDim.wsize ++ m.dims.map TDim.wcount) k
  let nd := m.dims.length
  let xs : List (TDim × Int) := m.dims.mapIdx (fun i d =>
    (d, d.start + Int.ofNat (ds.getD (nd + i) 0 * d.wstride) + Int.ofNat (ds.getD i 0 * d.dil)))
  if xs.all (fun (x : TDim × Int) => decide (0 ≤ x.2) && decide (x.2 < x.1.bound)) then
    some ((((m.base : Int) + (xs.map (fun (x : TDim × Int) => x.2 * x.1.stride)).sum) % 2 ^ 64).toNat)
  else none

/-! ### Elements (R275, R276, R281) -/

/-- How a walk stands: the state, the next element, the bytes of the burst or of the whole landing, bytes written, bad
destination units, the first bad offset, the sectors a publication has reserved. -/
structure CopySt where
  s : State
  k : Nat
  out : List Put
  bytes : Nat
  bad : List Nat
  badoff : Nat
  resv : List (Word × Nat)

/-- What a record writes to. -/
inductive CopyDst where
  | mem (m : TMap)
  | publish (m : TMap) (v sc : Nat)
  | packed
  | landing (m : TMap) (size : Nat)

/-- A source element: the state, its bytes, its poison, the source unit where this read finds it
uncorrectable; or the code and the address that ends the record. -/
inductive SrcElem where
  | ok (s : State) (bs : List Byte) (pois : Bool) (unc : Bool)
  | stop (s : State) (code : Nat) (addr : Nat)

/-- A unit found uncorrectable is marked and the steward told (R96, R281, R312). -/
def State.findBad (s : State) (pad : Bool) (unit : Nat) : State :=
  let d := s.ctx.copyDie
  if pad then
    let s1 := s.setCtx (s.ctx.padMark (256 * unit) 256)
    s1.event d 0x05 s.ctx.ownPart s.ctx.ownDevice (64 + unit / 64) (1 + 65536 * s.ctx.core)
  else (s.setMark unit true).event d 0x05 s.ctx.ownPart s.ctx.ownDevice (64 * unit) 0

/-- Reads source element k; one in a window whose home is another module is read there (R136, R408). `bad` lists the units this record's reads find uncorrectable: 64-byte sectors
by number in memory, granules in the scratchpad. -/
def State.srcElem (s : State) (n : Nat) (m : TMap) (fill : List Byte) (bad : List Nat) (k : Nat) : SrcElem :=
  match m.addr k with
  | none => .ok s fill false false
  | some a =>
    if a % min m.esize 8 ≠ 0 then .stop s 2 (2 ^ 64 - 1)
    else if m.space = 1 then
      if s.ctx.spSize < a + m.esize then .stop s 6 (2 ^ 64 - 1)
      else
        let u := (granulesOf a m.esize).filter bad.contains
        let s1 := u.foldl (fun (s : State) g => s.findBad true g) s
        .ok s1 (s1.ctx.padBytes a m.esize) (s1.ctx.padPoison a m.esize) (!u.isEmpty)
    else if s.touchesRegion s.ctx a m.esize then .stop s 4 a
    else match s.copyX a m.esize .r with
      | .error (v, f) => .stop (s.copyFails n v f) 4 v
      | .ok ps =>
        if (s.inWindow a m.esize).any (fun w => !s.homeHere w) then .ok s.useFree (s.farBytes a m.esize) false false
        else
        let pas := (List.range m.esize).map (fun i => physOf ps (a + i))
        let home := pas.filter (fun p => (s.l1At p).all (fun b => !b.dirty))
        let u := ((home.map (fun p => p / 64)).dedup).filter bad.contains
        let s1 := u.foldl (fun (s : State) g => s.findBad false g) s
        let bs := pas.map s1.copyByte
        .ok s1 (bs.map Prod.fst) (bs.any Prod.snd) (!u.isEmpty)

/-- Where destination element k lies: nowhere, at the addresses of its bytes, or an end of the record. For
a publication the addresses stay virtual. -/
inductive DstElem where
  | skip
  | at_ (addrs : List Nat)
  | stop (s : State) (code : Nat) (addr : Nat)

/-- The destination of element k; e is the element size, pos the bytes packed so far. An element
in a reduction window ends the record with code 5. (DESIGN CHOICE, log 59) -/
def State.dstElem (s : State) (n : Nat) (dst : CopyDst) (e pos k : Nat) : DstElem :=
  match dst with
  | .packed => .at_ ((List.range e).map (fun i => pos + i))
  | .landing m size => match m.addr k with
    | none => .skip
    | some a =>
      if a % min e 8 ≠ 0 then .stop s 2 (2 ^ 64 - 1)
      else if size < a + e then .stop s 6 (2 ^ 64 - 1)
      else .at_ ((List.range e).map (fun i => a + i))
  | .publish m _ _ => match m.addr k with
    | none => .skip
    | some a =>
      if a % min e 8 ≠ 0 then .stop s 2 (2 ^ 64 - 1)
      else if m.space = 1 ∨ (s.attached s.ctx a).isNone = true ∨ (s.attached s.ctx (a + e - 1)).isNone = true then
        .stop s 5 a
      else match s.copyX a e .w with
        | .error (v, f) => .stop (s.copyFails n v f) 5 v
        | .ok _ => .at_ ((List.range e).map (fun i => a + i))
  | .mem m => match m.addr k with
    | none => .skip
    | some a =>
      if a % min e 8 ≠ 0 then .stop s 2 (2 ^ 64 - 1)
      else if m.space = 1 then
        if s.ctx.spSize < a + e then .stop s 6 (2 ^ 64 - 1) else .at_ ((List.range e).map (fun i => a + i))
      else if s.touchesRegion s.ctx a e || (s.window s.ctx.ownPart a e).isSome then .stop s 5 a
      else match s.copyX a e .w with
        | .error (v, f) => .stop (s.copyFails n v f) 5 v
        | .ok ps => .at_ ((List.range e).map (fun i => physOf ps (a + i)))

/-- Writes a burst where the destination takes it at once (R276). -/
def CopySt.flush (dst : CopyDst) (c : CopySt) : CopySt :=
  match dst with
  | .mem m =>
    if c.out.isEmpty then c
    else if m.space = 1 then { c with s := c.s.setCtx (c.s.ctx.putPad c.out), out := [] }
    else { c with s := c.s.putMem c.out, out := [] }
  | _ => c

/-- The unit of a destination byte: a granule of the scratchpad, a sector of memory. -/
def CopyDst.unit (dst : CopyDst) : Nat := match dst with
  | .mem m => if m.space = 1 then 256 else 64
  | .publish _ _ _ => 64
  | _ => 256

/-- What reserving the sectors of an element comes to. -/
inductive Reserved where
  | all (s : State) (got : List (Word × Nat))
  | fail (code : Nat)
  | full

/-- Reserves version v in each sector that the walk reaches (R103, R104); `got` are those reserved so far. -/
def reserveSectors (v sc : Nat) (s : State) (got : List (Word × Nat)) : List Word → Reserved
  | [] => .all s got
  | a :: rest =>
    if got.any (fun x => x.1 == a) then reserveSectors v sc s got rest
    else match s.attached s.ctx a.toNat with
      | none => .fail 5
      | some r =>
        let i := r.index a.toNat
        match s.createCheck r i v with
        | .ok => reserveSectors v sc (s.putRegion (r.reserve i v (r.verScope sc) s.copier)) (got ++ [(a, v)]) rest
        | .full => .full
        | .duplicate => .fail 8
        | .missing => .fail 9
        | .exhausted => .fail 10

/-- The sectors of a publication that n bytes at an address touch. -/
def sectorsAt (a n : Nat) : List Word :=
  ((List.range n).map (fun i => BitVec.ofNat 64 ((a + i) / 256 * 256))).dedup

/-- How a burst ends: the walk is over with a code, it waits for room for a version, or it goes on (R103, R276). -/
inductive Burst where
  | ended (code : Nat)
  | room
  | more

/-- The elements from c.k on, at most rem of them and up to 4 KiB of the destination, in walk order (R275, R276,
R277, R281). -/
def copyElems (n : Nat) (src : TMap) (dst : CopyDst) (fill : List Byte) (bad : List Nat) (start : Nat) :
    Nat → CopySt → CopySt × Burst
  | 0, c => (c, .ended (if c.bad.isEmpty then 0 else 7))
  | rem + 1, c =>
    if start + 4096 ≤ c.bytes then (c, .more)
    else match c.s.srcElem n src fill bad c.k with
    | .stop s1 code a => ({ c with s := s1, badoff := if code = 4 then a else c.badoff }, .ended code)
    | .ok s1 bs pois unc =>
      match s1.dstElem n dst src.esize c.bytes c.k with
      | .skip => copyElems n src dst fill bad start rem { c with s := s1, k := c.k + 1 }
      | .stop s2 code a => ({ c with s := s2, badoff := if code = 5 then a else c.badoff }, .ended code)
      | .at_ as =>
        let got := match dst with
          | .publish _ v sc => reserveSectors v sc s1 c.resv (sectorsAt (as.headD 0) as.length)
          | _ => .all s1 c.resv
        let us := ((as.map (fun a => a / dst.unit)).dedup).filter (fun u => unc && !c.bad.contains u)
        let first := if unc && c.bad.isEmpty then src.esize * c.k else c.badoff
        match got with
        | .fail code => ({ c with s := s1 }, .ended code)
        | .full => ({ c with s := s1, bad := c.bad ++ us, badoff := first }, .room)
        | .all s2 resv =>
          copyElems n src dst fill bad start rem
            { s := s2, k := c.k + 1, out := c.out ++ (as.zip bs).map (fun x => (x.1, x.2, pois)),
              bytes := c.bytes + src.esize, bad := c.bad ++ us,
              badoff := first, resv := resv }

/-- A channel's walk as the channel holds it. -/
def State.walkState (s : State) (n : Nat) : CopySt :=
  let k := s.ctx.chan n
  { s := s, k := k.elems, out := k.held, bytes := k.bytes, bad := k.bad, badoff := k.badoff, resv := k.resv }

/-- The channel after a burst: what it holds of its walk (R270, R276). -/
def CopySt.save (c : CopySt) (n : Nat) (code : Option Nat) : State :=
  c.s.setCtx (c.s.ctx.setChan n { c.s.ctx.chan n with
    elems := c.k, held := c.out, bytes := c.bytes, bad := c.bad, badoff := c.badoff, resv := c.resv, code := code })

/-- How a walk stands after a move: it is over, with its code in the channel; it waits for room for a version; it
goes on later (R103, R270, R341). -/
inductive Walked where
  | ended (s : State) (code : Nat)
  | room (s : State)
  | more (s : State)

/-- The scratchpad bytes of a walk's elements lo to hi - 1. -/
def TMap.padSpans (m : TMap) (lo hi : Nat) : List (Nat × Nat) :=
  if m.space = 1 then (List.range (hi - lo)).filterMap (fun i => (m.addr (lo + i)).map (fun a => (a, m.esize))) else []

/-- Runs a record's walk on from where its channel stands, each burst under a current reservation of its own (R276,
R341): to its end, or by one burst where the move performs a part only (R270). -/
def State.copyWalk (n : Nat) (src : TMap) (dst : CopyDst) (fill : List Byte) (bad : List Nat) : Nat → State → Walked
  | 0, s => .more s
  | fuel + 1, s =>
    match (s.ctx.chan n).code with
    | some code => .ended s code
    | none =>
      match (if s.ctx.isHost then (s, true) else s.reserve .copy) with
      | (s1, false) => .more s1
      | (s1, true) =>
        let c0 := s1.walkState n
        let (c1, e) := copyElems n src dst fill bad c0.bytes (src.count - c0.k) c0
        let c2 := c1.flush dst
        let into := match dst with
          | .mem m => m.padSpans c0.k c2.k
          | _ => []
        let wrote := match dst with
          | .mem _ => c1.bytes - c0.bytes
          | _ => 0
        let back (code : Option Nat) : State :=
          ((((c2.save n code).countAgentPort s.ctx.ownDevice (src.padSpans c0.k c2.k)).countAgentPort s.ctx.ownDevice
            into).pmcAgent s.ctx.ownDevice 13 wrote).freeReserve .copy
        match e with
        | .ended code => .ended (back (some code)) code
        | .room => .room (back none)
        | .more => if s.parts then .more (back none) else State.copyWalk n src dst fill bad fuel (back none)

/-- A record's whole walk, or its next part. -/
def State.walkOn (s : State) (n : Nat) (src : TMap) (dst : CopyDst) (fill : List Byte) (bad : List Nat) : Walked :=
  State.copyWalk n src dst fill bad (src.count + 1) s

/-- The end that a channel's walk comes to with a code. -/
def Chan.ending (k : Chan) (code busy : Nat) : RecEnd :=
  { code := code, bytes := k.bytes, badcnt := k.bad.length, badoff := k.badoff, busy := busy }

/-- The fill of an element of e bytes (R273, R275). -/
def fillOf (h e : Nat) : List Byte :=
  if bitOf h 204 then (bytesOfNat 8 (bitsOf h 320 64) ++ bytesOfNat 8 (bitsOf h 320 64)).take e
  else List.replicate e 0#8

/-- The scratchpad banks that a walk touches. -/
def TMap.padBanks (m : TMap) : List Nat :=
  if m.space = 1 then
    ((List.range m.count).flatMap (fun k => match m.addr k with
      | some a => banksOf a m.esize
      | none => [])).dedup
  else []

/-! ### Fetching (R273, R276, R280) -/

/-- What a fetch of a record or map comes to. -/
inductive CopyFetch where
  | ok (n : Nat)
  | fail (s : State) (addr : Nat)

/-- Posts a cause of the copy engine: to its context, a host channel's to the die's steward context (R342, R357). -/
def State.postCopier (s : State) (p : Posted) : State :=
  if s.ctx.isHost then s.postSteward s.ctx.copyDie p else s.setCtx (s.ctx.post p)

/-- Fetches a record or a map: one that does not translate puts the channel in ERROR and posts COPY_ERROR with the
record's address; a marked one posts MEM_UNCORRECTABLE (R96, R280, R342, R357). (DEDUCED, log 39) -/
def State.copyFetch (s : State) (n va len : Nat) : CopyFetch :=
  match s.copyX va len .r with
  | .error (v, f) =>
    let s1 := s.copyFails n v f
    .fail (match f with
      | .uncorrectable _ _ => s1
      | _ => s1.copyError n 1 ((s.ctx.chan n).cur.elim (BitVec.ofNat 64 va) Chain.addr)) va
  | .ok ps =>
    let bs := s.copyBytes ps va len
    if bs.any Prod.snd then
      .fail (s.postCopier { code := cUNCORR, sub := 0#8, val := BitVec.ofNat 64 va, unit := 5, ch := n }) va
    else .ok (natOfBytes (bs.map Prod.fst))

/-- The channel in ERROR with no status written (R280). -/
def State.fetchStop (sa : State) (n addr : Nat) : State :=
  let s := sa.unreserveAll (sa.ctx.chan n).resv
  s.setCtx (s.ctx.setChan n { s.ctx.chan n with
    run := false, err := true, ecode := 1#8, phase := .start, cur := some (.record (BitVec.ofNat 64 addr))
    elems := 0, bytes := 0, bad := [], badoff := 2 ^ 64 - 1, held := [], code := none, resv := [], fetched := none, vlim := none })

/-- A record under way that can no longer be read: ERROR, COPY_ERROR with its address (R280, R342). -/
def State.lostRecord (s : State) (n : Nat) : State :=
  let a := (s.ctx.chan n).cur.elim 0#64 Chain.addr
  (s.copyError n 1 a).fetchStop n a.toNat

/-- Whether a record is malformed (R273). -/
def recMalformed (h : Nat) : Bool :=
  bitsOf h 205 3 != 0 || bitsOf h 217 7 != 0 || bitsOf h 240 16 != 0 || bitsOf h 432 16 != 0 ||
  decide (1 < bitsOf h 200 1 + bitsOf h 201 1 + bitsOf h 202 1) || (bitOf h 203 && !bitOf h 202) ||
  decide (4 < bitsOf h 195 3) || (bitOf h 201 && bitsOf h 128 64 != 0) || bitsOf h 0 64 % 128 != 0 ||
  bitsOf h 64 64 % 64 != 0 || bitsOf h 128 64 % 64 != 0 || bitsOf h 448 64 % 8 != 0

/-- What the checks of step 1 of R276 come to. -/
inductive RecCheck where
  | ok (m : RecMaps)
  | bad (code : Nat)
  | fail (s : State) (addr : Nat)

/-- Whether the spaces of a record's maps are allowed: landing buffers only as the destination of MCAST;
for a host channel only global memory (R274, R393). -/
def spacesOk (host mcast : Bool) (src : Nat) (dst : Option Nat) : Bool :=
  if host then src == 0 && dst.all (fun d => d == 0)
  else src != 2 && dst.all (fun d => if mcast then d == 2 else d != 2)

/-- Fetches and checks both maps (R273 to R275). -/
def State.recMaps (s : State) (n h : Nat) : RecCheck :=
  if recMalformed h then .bad 1
  else match s.copyFetch n (bitsOf h 64 64) 256 with
    | .fail s1 a => .fail s1 a
    | .ok sn =>
      if bitOf h 201 then
        match tmapOf sn with
        | none => .bad 2
        | some sm =>
          if !spacesOk s.ctx.isHost false sm.space none then .bad 2
          else if 2 ^ 32 < sm.count then .bad 3 else .ok { src := sm, dst := none }
      else match s.copyFetch n (bitsOf h 128 64) 256 with
        | .fail s1 a => .fail s1 a
        | .ok dn => match tmapOf sn, tmapOf dn with
          | some sm, some dm =>
            if !spacesOk s.ctx.isHost (bitOf h 202) sm.space (some dm.space) then .bad 2
            else if 2 ^ 32 < sm.count ∨ sm.count ≠ dm.count ∨ sm.esize ≠ dm.esize then .bad 3
            else .ok { src := sm, dst := some dm }
          | _, _ => .bad 2

/-! ### Targets (R92, R95, R276, R278, R336) -/

/-- The physical core of a logical core of a partition: where a resident context that has migrated keeps that number,
else by the partition's numbering (R290, R369). (DEDUCED, log 68) -/
def State.physical (s : State) (p l : Nat) : Option Nat :=
  match s.allCtxs.find? (fun c => c.resident && c.part.toNat == p && c.lcore.toNat == l && s.logical p c.core != l) with
  | some c => some c.core
  | none => (s.coresOf p)[l]?

/-- The resident context of a core that owns a structure: the running one, unless only the one in the
second slot has it. -/
def State.ownerOn (s : State) (core : Nat) (has : Ctx → Bool) : Option Ctx :=
  let k := s.coreSlot core
  let run := match k.run with
    | some id => s.findCtx id
    | none => none
  let snd := match k.second with
    | some id => s.findCtx id
    | none => none
  match run, snd with
  | some a, some b => if !has a && has b then some b else some a
  | some a, none => some a
  | none, b => b

/-- The context whose structure a landing on a logical core names: a resident owner; else one in memory, or one that
waits for its next task, whose core it was (R17, R95, R355); else whoever runs there. (DEDUCED, log 61) -/
def State.ownerOf? (s : State) (p l : Nat) (has : Ctx → Bool) : Option Ctx :=
  let mine (c : Ctx) : Bool := c.part.toNat == p && c.lcore.toNat == l && has c
  let away := (s.allCtxs.find? (fun c => c.place == .memory && mine c)).orElse (fun _ => s.residues.find? mine)
  match (s.physical p l).bind (fun core => s.ownerOn core has) with
  | some c => if has c then some c else (away.orElse (fun _ => some c))
  | none => away

/-- The context whose gutter a landing on a logical core names (R92). -/
def State.gutterOwner (s : State) (p l g : Nat) : Option Ctx := s.ownerOf? p l (fun c => (c.gutter g).en)

/-- Puts back the owner of a gutter, be it a context or what one has left. -/
def State.putOwner (s : State) (c : Ctx) : State :=
  if (s.findCtx c.id).isSome then s.putCtx c
  else { s with residues := s.residues.map (fun x => if x.id = c.id then c else x) }

/-! ### Publications (R104, R105, R277) -/

/-- The sector addresses of a walk's bytes, in the order first touched. -/
def sectorsTouched (out : List Put) : List Word :=
  ((out.map (fun w => w.1 / 256 * 256)).reverse.dedup.reverse).map (fun a => BitVec.ofNat 64 a)

/-- The contents of a sector from a walk's bytes; bytes not written are zero. -/
def sectorData (out : List Put) (sec : Word) : BitVec 2048 × BitVec 4 :=
  let mine := out.filter (fun w => w.1 / 256 * 256 == sec.toNat)
  let bytes : Sparse Byte := mine.foldl (fun m w => Sparse.set memDefault m (w.1 % 256) w.2.1) []
  (BitVec.ofNat 2048 (natOfBytes (Sparse.getList memDefault bytes 0 256)),
   BitVec.ofNat 4 (packBits 1 ((List.range 4).map (fun q =>
     b2n (mine.any (fun w => w.2.2 && w.1 % 256 / 64 == q))))))

/-- Makes the reserved version of every sector existing (R105, R277). -/
def State.existSectors (s : State) (v sc : Nat) (out : List Put) (secs : List Word) (half : Bool) : State :=
  secs.foldl (fun (s : State) a => match s.reservedIn a.toNat v with
    | some r =>
      let (data, marks) := sectorData out a
      let new := Ver.mk v true data marks (r.verScope sc) s.copier none
      let i := r.index a.toNat
      s.putRegion (if half && r.mirror then r.existAt i new (1 - s.ctx.copyDie) else r.exist i new)
    | none => s) s

/-- Whether a publication has sectors in a MIRROR region that exist on neither die yet (R117). -/
def State.mirrorAhead (s : State) (v : Nat) (secs : List Word) : Bool :=
  secs.any (fun a => (s.reservedIn a.toNat v).any (fun r => r.mirror && (r.halfDone (r.index a.toNat) v).isNone))

/-! ### One record (R276) -/

/-- Whether R31 holds a record of channel n: other work of its tag is under way that belongs to another phase
counter (R30, R31). -/
def State.recordHeld (s : State) (n h : Nat) : Bool :=
  let tag := if bitOf h 199 then bitOf h 198 else s.tagOf s.ctx
  (s.tagWork s.ctx.ownPart tag none (some (s.ctx.id, n))).any (fun w => w != s.phaseOf s.ctx)

/-- The tag a record names for itself. -/
def recTag (h : Nat) : Option Bool := if bitOf h 199 then some (bitOf h 198) else none

/-- Puts a channel in a phase of its record. -/
def State.setPhase (s : State) (n h : Nat) (p : RecPhase) : State :=
  s.setCtx (s.ctx.setChan n { s.ctx.chan n with phase := p, ptag := recTag h })

/-- The release of a record's REL (R134, R276). -/
def State.recRelease (s : State) (h : Nat) : State := if bitOf h 194 then s.releaseAll (bitsOf h 195 3) else s

/-- The same of a publication: at SYSTEM where a sector lies in a MIRROR region (R113, R115). -/
def State.pubRelease (s : State) (h : Nat) (secs : List Word) : State :=
  if !bitOf h 194 then s
  else s.releaseAll (if secs.any (fun a => (s.attached s.ctx a.toNat).any Region.mirror) then 4 else bitsOf h 195 3)

/-- The code after the record's counter is checked: 12 and 16 stand in the place of 0 and 7 (R280). -/
def State.recCode (s : State) (h code : Nat) : Nat :=
  if code = 0 ∨ code = 7 then match s.recCounter h with
    | .error e => e.code
    | .ok _ => code
  else code

/-- A publication's walk, with its checks, then its creation (R104, R277). A wait for room at another element than the
last begins anew (R103). -/
def State.runPublish (s : State) (n a h : Nat) (sm dm : TMap) (bad : List Nat) : State :=
  let v := bitsOf h 384 32
  let sc := bitsOf h 195 3
  let at_ := (s.ctx.chan n).elems
  match s.walkOn n sm (.publish dm v sc) (fillOf h sm.esize) bad with
  | .more s1 => s1.setPhase n h .walk
  | .room s0 =>
    let lim := (s0.ctx.chan n).vlim.getD (1000 * s0.ctx.vwlim.toNat)
    let s1 := s0.setCtx (s0.ctx.setChan n { s0.ctx.chan n with vlim := some lim })
    s1.setPhase n h (match (s.ctx.chan n).phase with
      | .version since _ => .version (if (s1.ctx.chan n).elems = at_ then since else s1.now) lim
      | _ => .version s1.now lim)
  | .ended s1 code =>
    let k := s1.ctx.chan n
    let code1 := s1.recCode h code
    if code1 ≠ 0 ∧ code1 ≠ 7 then s1.endRecord n a h (k.ending code1 0)
    else if s1.parts && s1.mirrorAhead v (sectorsTouched k.held) then
      (((s1.pubRelease h (sectorsTouched k.held)).existSectors v sc k.held (sectorsTouched k.held) true).examineAll
        s.ctx.ownPart).setPhase n h .walk
    else
      let s2 := ((s1.pubRelease h (sectorsTouched k.held)).existSectors v sc k.held (sectorsTouched k.held) false).progressEvent
      (s2.endRecord n a h (k.ending code1 0)).examineAll s.ctx.ownPart

/-- The context that owns a landing buffer of a logical core (R17, R95). -/
def State.landOwner (s : State) (p t lb : Nat) : Option Ctx := s.ownerOf? p t (fun c => (c.lbuf lb).en)

/-- Whether a landing buffer of a context takes a landing now (R95). -/
def Ctx.landFree (c : Ctx) (lb : Nat) : Bool := c.resident && (c.lbuf lb).en && !(c.lbuf lb).inuse

/-- A landing on one target (R95): its busy bit, and the receiver told of a refusal. The landing waits for the wake of
the banks it writes (R58). -/
def State.landOn (s : State) (p t lb : Nat) (time : Nat) (out : List Put) (whole : Bool) : State × Bool :=
  match s.landOwner p t lb with
  | none => (s, true)
  | some c =>
    if c.landFree lb then
      let b := c.lbuf lb
      let ws : List Put := out.map (fun w => (256 * b.base.toNat + w.1, w.2.1, w.2.2))
      let c1 := (banksOf (256 * b.base.toNat) (256 * b.sizeg.toNat)).foldl Ctx.padWoken c
      ((s.putCtx ((c1.putPad ws).setLBuf lb { b with inuse := whole })).countAgentPort c.ownDevice
        (ws.map (fun w => (w.1, 1))), false)
    else ((s.putOwner (c.post { code := cLANDING, sub := BitVec.ofNat 8 lb, val := BitVec.ofNat 64 time, unit := 0, ch := 0 })).pmcAgent
      c.ownDevice 9 1, true)

/-- The targets of a multicast: logical cores (R273). -/
def recTargets (h : Nat) : List Nat :=
  ((List.range 16).filter (fun i => bitOf h (224 + i))).map (fun i => bitsOf h 416 16 + i)

/-- The landing time of a multicast in package time; none where it lands on arrival (R279). -/
def State.landTime (s : State) (h : Nat) : Option Int :=
  if bitOf h 203 then
    some ((bitsOf h 256 64 : Int) - Sparse.get (fun _ => 0) s.voff s.ctx.ownDevice)
  else none

/-- The least size of the accepting targets' buffers, in bytes. -/
def State.landSize (s : State) (p lb : Nat) (ts : List Nat) : Nat :=
  ts.foldl (fun m t => match s.landOwner p t lb with
    | some c => if c.landFree lb then min m (256 * (c.lbuf lb).sizeg.toNat) else m
    | none => m) 65536

/-- The elements of a landing up to the first that lies beyond a size: their bytes, and whether there is one
(R280). -/
def landCut (out : List Put) (esize size : Nat) : List Put × Bool :=
  match out.findIdx? (fun w => decide (size ≤ w.1)) with
  | some i => (out.take (i / esize * esize), true)
  | none => (out, false)

/-- The landing of a multicast record whose source has been read (R95, R279). -/
def State.landNow (s : State) (n a h : Nat) (esize : Nat) : State :=
  let p := s.ctx.ownPart
  let lb := bitsOf h 212 5
  let ts := recTargets h
  let time := match s.landTime h with
    | some t => t.toNat
    | none => s.now
  let k := s.ctx.chan n
  let (out, cut) := landCut k.held esize (s.landSize p lb ts)
  let code := if cut then 6 else k.code.getD 0
  let good := code = 0 ∨ code = 7
  let s0 := if good then s.recRelease h else s
  let me := s.ctx.id
  let (s1, busy) := ts.foldl (fun (x : State × Nat) t =>
    let (s2, no) := x.1.landOn p t lb time out (decide good)
    (s2, if no then x.2 + 2 ^ (t - bitsOf h 416 16) else x.2)) (s0, 0)
  let bytes := if busy = bitsOf h 224 16 then 0 else out.length
  (s1.focus me).endRecord n a h { k.ending (s1.recCode h code) busy with bytes := bytes }

/-- A multicast record: its source is read whole, then it waits for its landing time, or lands at once (R279); a walk
that fails ends it with nothing landed (R276, R280). -/
def State.runLanding (s : State) (n a h : Nat) (sm dm : TMap) (bad : List Nat) : State :=
  match s.walkOn n sm (.landing dm 65536) (fillOf h sm.esize) bad with
  | .more s1 | .room s1 => s1.setPhase n h .walk
  | .ended s1 code =>
    if code ≠ 0 ∧ code ≠ 7 then s1.endRecord n a h { (s1.ctx.chan n).ending code 0 with bytes := 0 }
    else if (s1.landTime h).any (fun t => decide ((s1.now : Int) < t)) then s1.setPhase n h .landing
    else s1.landNow n a h sm.esize

/-- Whether the banks of a landing's slots serve accesses now (R55, R58). -/
def Ctx.slotsReady (c : Ctx) (g : Nat) : Bool :=
  let x := c.gutter g
  match x.flight.head? with
  | none => true
  | some l => (List.range l.slots).all (fun i =>
      (banksOf (256 * x.base.toNat + 256 * x.slotg.toNat * ((l.slot + i) % x.nslot.toNat)) (256 * x.slotg.toNat)).all
        c.padReady)

/-- The bytes that a gutter record lands: every element's, in bounds or fill, as the line records of chapter 15 land
theirs (R275, R278, R292; R92's example of 0 bytes notwithstanding). (DEDUCED, log 70) -/
def TMap.landBytes (m : TMap) : Nat := m.count * m.esize

/-- A gutter record reaches its gutter: it claims or waits, or ends with 13 (R92, R278). -/
def State.runGutter (s : State) (n a h : Nat) (sm : TMap) : State :=
  let g := bitsOf h 208 4
  let len := sm.landBytes
  match s.gutterOwner s.ctx.ownPart (bitsOf h 416 16) g with
  | none => s.endRecord n a h (RecEnd.of 13)
  | some t =>
    if !(t.gutter g).takes len then s.endRecord n a h (RecEnd.of 13)
    else
      let me : Producer := .chan s.ctx.id n
      let g2 := if t.resident then (t.gutter g).offer len me
        else ({ t.gutter g with waiters := (t.gutter g).waiters ++ [me] }, false)
      (s.putOwner (t.setGutter g g2.1)).setPhase n h (if g2.2 then .claimed else .gutter)

/-- A plain record (R276). (DESIGN CHOICE, log 10) -/
def State.runPlain (s : State) (n a h : Nat) (sm dm : TMap) (bad : List Nat) : State :=
  match s.walkOn n sm (.mem dm) (fillOf h sm.esize) bad with
  | .more s1 | .room s1 => s1.setPhase n h .walk
  | .ended s1 code =>
    let s2 := if code = 0 ∨ code = 7 then s1.recRelease h else s1
    s2.endRecord n a h ((s2.ctx.chan n).ending (s2.recCode h code) 0)

/-- Whether the banks that the walks of channel n's record touch serve accesses; those that do not start their wake, and
the channel stands waiting for them (R55, R276). -/
def State.copyBanks (s : State) (n : Nat) (m : RecMaps) : State × Bool :=
  let bs := m.src.padBanks ++ (match m.dst with
    | some d => d.padBanks
    | none => [])
  let bs1 := bs.filter (fun b => decide (b < s.ctx.spbanks))
  let (c, ok) := s.ctx.padWakeAll bs1
  (s.setCtx (c.setChan n { c.chan n with stalled := !ok }), ok)

/-- The walk of a record whose banks are up goes on (R276). -/
def State.runWalk (s : State) (n a h : Nat) (m : RecMaps) (bad : List Nat) : State :=
  match m.dst with
  | none => s.runGutter n a h m.src
  | some dm =>
    if bitOf h 200 then s.runPublish n a h m.src dm bad
    else if bitOf h 202 then s.runLanding n a h m.src dm bad
    else s.runPlain n a h m.src dm bad

/-- A record whose maps are in order runs, or comes to its wait (R276). (DEDUCED, log 39) -/
def State.runMaps (s : State) (n a h : Nat) (m : RecMaps) (bad : List Nat) : State :=
  let p := s.ctx.ownPart
  let outside := if bitOf h 202 then (recTargets h).any (fun t => (s.physical p t).isNone)
    else bitOf h 201 && (s.physical p (bitsOf h 416 16)).isNone
  let (s0, ready) := s.copyBanks n m
  match (s.ctx.chan n).phase with
  | .walk | .version _ _ => if ready then s0.runWalk n a h m bad else s0
  | _ =>
    if s.recordHeld n h then s.setPhase n h .held
    else if outside ∨ (bitOf h 202 = true ∧ 65536 < m.src.count * m.src.esize) then s.endRecord n a h (RecEnd.of 14)
    else if !ready then s0
    else (if bitOf h 193 then s0.acquireAll else s0).runWalk n a h m bad

/-- A CZERO ends with a code (R282). -/
def State.endZero (s : State) (n : Nat) (a : Word) (code : Nat) : State :=
  let s1 := if code = 0 then s else s.copyError n code a
  (s1.setCtx (s1.ctx.setChan n ((s1.ctx.chan n).after code 0))).freeReserve .copy

/-- The starts of the bursts of n bytes at an address: up to 4 KiB each, none across a 4 KiB boundary (R276). -/
def burstsOf (va n : Nat) : List Nat :=
  if n = 0 then [] else va :: (List.range ((va + n - 1) / 4096 - va / 4096)).map (fun i => (va / 4096 + 1 + i) * 4096)

/-- The bursts of a CZERO in order; `last` is the end of its range; each is made under a reservation of its own (R276,
R282, R341). The bytes done stand in the channel. A burst in a reduction window ends it with code 5.
(DESIGN CHOICE, log 59) -/
def zeroBursts (n : Nat) (a : Word) (last : Nat) : List Nat → State → State
  | [], s => s.endZero n a 0
  | v :: vs, s =>
    let done := (s.ctx.chan n).elems
    let k := min last (v / 4096 * 4096 + 4096) - v
    match s.reserve .copy with
    | (s1, false) => s1
    | (s1, true) =>
      if s1.touchesRegion s1.ctx v k || (s1.window s1.ctx.ownPart v k).isSome then s1.endZero n a 5
      else match s1.copyX v k .w with
        | .error (w, f) => (s1.copyFails n w f).endZero n a 5
        | .ok ps =>
          let s2 := s1.copyClear (physOf ps v) k
          let s3 := (s2.setCtx (s2.ctx.setChan n { s2.ctx.chan n with phase := .walk, elems := done + k })).pmcAgent
            s.ctx.ownDevice 13 k
          let s4 := s3.freeReserve .copy
          if s.parts && !vs.isEmpty then s4 else zeroBursts n a last vs s4

/-- The record of CZERO: b bytes at a zeroed, their marks cleared, on from where the channel stands (R282). -/
def State.runZero (s : State) (n : Nat) (a b : Word) : State :=
  let done := (s.ctx.chan n).elems
  zeroBursts n a (a.toNat + b.toNat) (burstsOf (a.toNat + done) (b.toNat - done)) s

/-- The chain ends at a record software owns: the pending head starts, or the channel is idle (R272). -/
def State.endChain (s : State) (n : Nat) : State :=
  let k := s.ctx.chan n
  s.setCtx (s.ctx.setChan n (match k.pend with
    | some p => { k with cur := some p, pend := none, phase := .start }
    | none => { k with run := false, phase := .start }))

/-- The channel takes in a record that it has fetched (R276). One that a save area brought back in its walk goes on as
if it had never paused (R270): of a plain record the bytes that its bursts have written stand; another has landed or
made nothing yet, and its walk is made again over the sectors that it has reserved. -/
def State.takeIn (s : State) (n h : Nat) (m : RecMaps) : State :=
  let k := s.ctx.chan n
  let k1 := { k with fetched := some { head := BitVec.ofNat 1024 h, maps := m } }
  let back : Chan :=
    if k.phase = .start ∨ k.elems = 0 then k1
    else
      let hit := m.dst.elim [] (fun (d : TMap) => (List.range k.elems).filterMap d.addr)
      if bitsOf h 200 3 = 0 then { k1 with bytes := m.src.esize * hit.length }
      else
        let v := bitsOf h 384 32
        let secs := ((hit.flatMap (fun a => sectorsAt a m.src.esize)).dedup).filter (fun a => (s.reservedIn a.toNat v).isSome)
        { k1 with elems := 0, resv := if bitOf h 200 then secs.map (fun a => (a, v)) else [] }
  s.setCtx (s.ctx.setChan n back)

/-- A channel's engine turns to its current record: it is fetched once, checked and run (R271 to R280).
(DEDUCED, log 39) -/
def State.runRecord (s : State) (n : Nat) (bad : List Nat) : State :=
  let k := s.ctx.chan n
  if !k.run then s
  else match k.cur with
    | none => s.endChain n
    | some (.zero a b) => s.runZero n a b
    | some (.record a) => match (if k.phase = .start then none else k.fetched) with
      | some f => s.runMaps n a.toNat f.head.toNat f.maps bad
      | none => match s.copyFetch n a.toNat 128 with
      | .fail s1 x => s1.fetchStop n x
      | .ok h =>
        if !bitOf h 192 then s.endChain n
        else match s.recMaps n h with
          | .bad code => s.endRecord n a.toNat h (RecEnd.of code)
          | .fail s1 x => s1.fetchStop n x
          | .ok m => (s.takeIn n h m).runMaps n a.toNat h m bad

/-! ### Events of the copy engine -/

/-- Runs a step as a context's copy engine, a host channel's among them. -/
def State.asCopier (s : State) (c : Nat) (f : State → State) : State :=
  if c < 2 ^ 64 then s.onCtx c f
  else
    let hc := Sparse.get (fun _ => HostChan.idle) s.hostChans (c - 2 ^ 64)
    let me : Ctx := { Ctx.blank with
      id := c, vdn := BitVec.ofNat 6 hc.vd, part := BitVec.ofNat 4 (s.cfgField (0x5C0 + hc.vd) 56 4)
      chans := Sparse.set (fun _ => Chan.idle) [] 0 hc.chan }
    let s1 := f { s with ctx := me, ctxs := s.ctx :: s.ctxs }
    let s2 := s1.focus s.ctx.id
    let back := (s1.findCtx c).getD me
    { s2 with ctxs := s2.ctxs.filter (fun x => x.id != c)
              hostChans := Sparse.set (fun _ => HostChan.idle) s2.hostChans (c - 2 ^ 64) { hc with chan := back.chan 0 } }

/-- Whether an agent's channels run: its context is resident, or it is a host channel (R270). -/
def State.copierUp (s : State) (c : Nat) : Bool :=
  if c < 2 ^ 64 then match s.findCtx c with
    | some x => x.resident
    | none => false
  else true

/-- TRANSFER_RECORD (R276): the channel's current record begins, or goes on, or a held one is looked at again.
(DESIGN CHOICE, log 16) -/
def execTransferRecord (c ch : Nat) (bad : List Nat) (s : State) : Host.Outcome State Fault Refusal :=
  .next (if s.copierUp c then s.asCopier c (fun s => match (s.ctx.chan ch).phase with
      | .start | .held | .walk => s.runRecord ch bad
      | _ => s) else s)

/-- A record under way with its maps, as fetched. -/
def State.curMaps (s : State) (n : Nat) : Option (Nat × Nat × RecMaps) :=
  match (s.ctx.chan n).cur, (s.ctx.chan n).fetched with
  | some (.record a), some f => some (a.toNat, f.head.toNat, f.maps)
  | _, _ => none

/-- The landing of a channel whose landing time has come (R95, R279). -/
def State.landDue (s : State) (n : Nat) : State :=
  if (s.ctx.chan n).run && (s.ctx.chan n).phase == .landing then
    match s.curMaps n with
    | none => s.lostRecord n
    | some (a, h, m) =>
      if (s.landTime h).all (fun t => decide (t ≤ (s.now : Int))) then s.landNow n a h m.src.esize else s
  else s

/-- MULTICAST_LANDING (R95, R279): the landing time of a record has come; one whose source is still being read goes on
with that. -/
def execMulticastLanding (c ch : Nat) (bad : List Nat) (s : State) : Host.Outcome State Fault Refusal :=
  .next (if s.copierUp c then s.asCopier c (fun s => match (s.ctx.chan ch).phase with
      | .walk => s.runRecord ch bad
      | _ => s.landDue ch) else s)

/-- The channels that wait for a landing time which package time has reached, with the time, in its order. -/
def State.dueLandings (s : State) : List (Nat × Nat) :=
  let of_ (c : Ctx) : List (Int × Nat × Nat) := c.chans.filterMap (fun e =>
    if e.2.run && e.2.phase == .landing && s.copierUp c.id then
      match (s.focus c.id).curRecord e.1 with
      | some (_, h) => match (s.focus c.id).landTime h with
        | some t => if t ≤ (s.now : Int) then some (t, c.id, e.1) else none
        | none => none
      | none => none
    else none)
  (sortBy (fun (a b : Int × Nat × Nat) => decide (a.1 < b.1)) (s.allCtxs.flatMap of_)).map Prod.snd

/-- Every landing whose time has come is made: package time does not pass it by (R95). -/
def State.settleLandings (s : State) : State :=
  s.dueLandings.foldl (fun (s : State) x => s.asCopier x.1 (fun s => s.landDue x.2)) s

/-- The bytes a waiting or claimed producer lands; none where its record can no longer be read. -/
def State.producerLen (s : State) (p : Producer) : Option Nat := match p with
  | .net _ _ _ bs => some bs.length
  | .chan c n =>
    let look (s : State) : Option Nat := (s.curMaps n).map (fun x => x.2.2.src.landBytes)
    if c < 2 ^ 64 then look (s.focus c)
    else
      let hc := Sparse.get (fun _ => HostChan.idle) s.hostChans (c - 2 ^ 64)
      look { s with ctx := { Ctx.blank with
        id := c, vdn := BitVec.ofNat 6 hc.vd, part := BitVec.ofNat 4 (s.cfgField (0x5C0 + hc.vd) 56 4)
        chans := Sparse.set (fun _ => Chan.idle) [] 0 hc.chan } }

/-- Ends the record of a gutter producer with a code, nothing landed. -/
def State.failProducer (s : State) (p : Producer) (code : Nat) : State := match p with
  | .net _ _ _ _ => s
  | .chan c n => s.asCopier c (fun s => match s.curRecord n with
    | some (a, h) => s.endRecord n a h (RecEnd.of code)
    | none => s.lostRecord n)

/-- An inbound message that cannot land: counted and reported with a reason (R92, R403). -/
def State.rxDiscard (s : State) (handle : BitVec 32) (reason : Nat) : State :=
  let k := handle.toNat % 2 ^ 15
  let cn := Sparse.get (fun _ => Conn.closed) s.conns k
  let s1 : State := { s with conns := Sparse.set (fun _ => Conn.closed) s.conns k { cn with rxerr := (cn.rxerr + 1) % 2 ^ 64 } }
  s1.event (k / 2 ^ 14) 0x0C (s.cfgField (0x5C0 + cn.vdn) 56 4) cn.vdn handle.toNat reason

/-- GUTTER_CLAIM (R92): the first waiting producer of a gutter claims its slots, or ends where the gutter
cannot take it. -/
def execGutterClaim (c g : Nat) (s : State) : Host.Outcome State Fault Refusal :=
  .next (match s.findCtx c with
    | none => s
    | some t => match (t.gutter g).waiters with
      | [] => s
      | p :: rest =>
        let drop := s.putCtx (t.setGutter g { t.gutter g with waiters := rest })
        match s.producerLen p with
        | none => drop.failProducer p 1
        | some len =>
          if !(t.gutter g).takes len then match p with
            | .net _ hd _ _ => drop.rxDiscard hd 5
            | .chan _ _ => drop.failProducer p 13
          else if t.resident ∧ (t.gutter g).slotsFor len ≤ (t.gutter g).free then
            let s1 := s.putCtx (t.setGutter g (({ t.gutter g with waiters := rest } : Gutter).claim
              ((t.gutter g).slotsFor len) p))
            match p with
            | .net _ _ _ _ => s1
            | .chan pc n => s1.asCopier pc (fun s => s.setCtx (s.ctx.setChan n { s.ctx.chan n with phase := .claimed }))
          else s)

/-- The record of a claimed channel lands in the gutter: its source is read, its slots filled, the record ended (R93,
R276, R278). -/
def State.fillFrom (s : State) (c g n : Nat) (bad : List Nat) : State :=
  let fail (s : State) : State := s.mapCtx c (fun t => t.fillGutter g [])
  match s.curMaps n with
  | none => (fail s).lostRecord n
  | some (a, h, m) =>
      let (s0, ready) := s.copyBanks n m
      if !ready then s0
      else
        match s0.walkOn n m.src .packed (fillOf h m.src.esize) bad with
        | .more s1 | .room s1 => s1
        | .ended s1 code =>
          let k := s1.ctx.chan n
          let s2 := if code = 0 ∨ code = 7 then s1.recRelease h else s1
          (s2.mapCtx c (fun t => t.fillGutter g k.held)).endRecord n a h (k.ending (s2.recCode h code) 0)

/-- GUTTER_FILL (R93): the oldest landing in flight completes: its bytes are read and written, its slots
filled, its record completed; it waits for the banks of its slots (R55, R58). -/
def execGutterFill (c g : Nat) (bad : List Nat) (s : State) : Host.Outcome State Fault Refusal :=
  .next (match s.findCtx c with
    | none => s
    | some t =>
      if !t.resident || !t.slotsReady g then s
      else match (t.gutter g).flight with
        | [] => s
        | l :: _ => match l.ended, l.prod with
          | some out, _ => s.mapCtx c (fun t => t.fillGutter g out)
          | none, .net _ _ w bs =>
            s.mapCtx c (fun t => t.fillGutter g (bs.mapIdx (fun i b => (i, b, w.getLsbD 33))))
          | none, .chan pc n =>
            let alive := match s.findCtx pc with
              | some x => (x.chan n).run
              | none => decide (2 ^ 64 ≤ pc)
            if !alive then s.mapCtx c (fun t => t.fillGutter g [])
            else if !s.copierUp pc then s
            else s.asCopier pc (fun s => s.fillFrom c g n bad))

/-! ### The C class (R282, R283) -/

/-- Starts a chain element on a channel: an idle or ERROR channel at once, a running one as its pending
head; none where that is full (R282). -/
def Ctx.kick (c : Ctx) (n : Nat) (x : Chain) : Option Ctx :=
  let k := c.chan n
  if !k.run then
    some (c.setChan n { Chan.idle with run := true, cur := some x, donecnt := if k.err then k.donecnt else 0#16
                                       pend := k.pend })
  else if k.pend.isNone then some (c.setChan n { k with pend := some x })
  else none

/-- CKICK (R282). -/
def execCkick (f : FChA) (s : State) : Host.Outcome State Fault Refusal :=
  seqInstr [f.a] [] (fun s => consume s f.a 1 (fun a =>
    if a.toNat % 128 ≠ 0 then .trap s (Cause.seq cALIGN 0 a)
    else if a = 0#64 then .done s
    else match s.ctx.kick f.ch.toNat (.record a) with
      | some c => .done (s.setCtx c)
      | none => .wait s (.kick f.ch.toNat) false)) s

/-- CSTOP (R282). -/
def execCstop (f : FCh) (s : State) : Host.Outcome State Fault Refusal :=
  seqInstr [] [] (fun s => .done (s.stopChan f.ch.toNat)) s

/-- CSTAT (R282). -/
def execCstat (f : FChD) (s : State) : Host.Outcome State Fault Refusal :=
  seqInstr [] [f.d, f.d + 1#6] (fun s =>
    if f.d.toNat % 2 = 1 ∨ f.d = 0#6 then s.dataTrap
    else
      let k := s.ctx.chan f.ch.toNat
      .done ((s.wrc f.d k.statWord).wrc (f.d + 1#6) (match k.cur with
        | some x => x.addr
        | none => 0#64))) s

/-- CZERO (R282). -/
def execCzero (f : FChAB) (s : State) : Host.Outcome State Fault Refusal :=
  seqInstr [f.a, f.b] [] (fun s => consume s f.a 1 (fun a => consume s f.b 2 (fun b =>
    if a.toNat % 64 ≠ 0 then .trap s (Cause.seq cALIGN 0 a)
    else if b.toNat % 64 ≠ 0 then .trap s (Cause.seq cALIGN 0 b)
    else if 2 ^ 32 < b.toNat then s.dataTrap
    else if b = 0#64 then .done s
    else match s.ctx.kick f.ch.toNat (.zero a b) with
      | some c => .done (s.setCtx c)
      | none => .wait s (.kick f.ch.toNat) false))) s

/-- CWAITCH (R282): idle, or in ERROR with no pending head. The bytes that the channel wrote have left
L1. -/
def execCwaitch (f : FCh) (s : State) : Host.Outcome State Fault Refusal :=
  seqInstr [] [] (fun s =>
    let k := s.ctx.chan f.ch.toNat
    if k.run ∨ (k.err = true ∧ k.pend.isSome = true) then .wait s (.chanIdle f.ch.toNat) false else .done s) s

/-- Why the line of an address cannot be prefetched, none where it translates (R87). -/
def State.prefetchFails (s : State) (v : Nat) : Option (Nat × XFail) := match s.copyX v 1 .r with
  | .ok _ => none
  | .error e => some e

/-- CPFL2 (R87, R199, R283): the counter's checks with the issuer's own stores to it performed, its scope recorded;
the lines that do not translate are counted, and reported as a copy engine's failures are (R360, R366); the prefetch
is under way, or signals at once where there is none to make. -/
def execCpfl2 (f : FCpf) (s : State) : Host.Outcome State Fault Refusal :=
  seqInstr [f.a, f.b, f.c] [] (fun s => consume s f.a 1 (fun a => consume s f.b 2 (fun b => consume s f.c 3 (fun c =>
    if c.toNat % 8 ≠ 0 then .trap s (Cause.seq cALIGN 0 c)
    else if 2 ^ 30 < b.toNat then s.dataTrap
    else match s.checkData c.toNat 8 .rw with
      | .error (s1, e) => .trap s1 e
      | .ok ps =>
        let pa := physOf ps c.toNat
        let sc := f.scope.toNat
        let s0 := s.flushGranule pa
        if (s.inWindow c.toNat 8).isSome then .trap s (Cause.seq cFABRIC 0 c)
        else if !s0.scopeOk s.me sc pa then .trap s (Cause.seq cSCOPE 0 c)
        else if b = 0#64 then .done (s0.signalAt s.me sc pa f.val.toNat)
        else
          let lines := linesOf a.toNat b.toNat
          let miss := lines.filterMap s0.prefetchFails
          let s1 := miss.foldl (fun s x => s.agentFails s.ctx.copyDie s.ctx.ownPart s.ctx.ownDevice 5 x.1 x.2)
            (s0.scopeTake s.me sc pa)
          .done { s1 with ctx := { s1.ctx with
            cpfail := BitVec.ofNat 32 (min (2 ^ 32 - 1) (s1.ctx.cpfail.toNat + miss.length))
            prefetches := s1.ctx.prefetches ++ [{ cnt := BitVec.ofNat 64 pa, val := f.val.setWidth 64
                                                  lines := lines.length - miss.length }] } })))) s

/-- PREFETCH_RESIDENT (R87, R283): the oldest prefetch is done; up to all of its lines may have been
skipped. -/
def execPrefetchResident (c failed : Nat) (s : State) : Host.Outcome State Fault Refusal :=
  .next (s.onCtx c (fun s => match s.ctx.prefetches with
    | [] => s
    | p :: rest =>
      let pa := p.cnt.toNat
      let s1 := s.rawWrite pa (bytesOfNat 8 (min (s.natAt pa 8 + p.val.toNat) (2 ^ 64 - 1)))
      { s1 with ctx := { s1.ctx with
          cpfail := BitVec.ofNat 32 (min (2 ^ 32 - 1) (s1.ctx.cpfail.toNat + min failed p.lines))
          prefetches := rest } }))

end Sys2Proof.Machine
end

