-- ==== Sys2Proof/Machine/Net.lean ====
section
/-! DEFINITION. Network sends and inbound messages, time correction, the fabric, heartbeats (R92, R103,
R136, R284, R285, R400 to R408). -/

namespace Sys2Proof.Machine

/-! ### Connections (R401) -/

/-- The key of a handle's connection, none where bits [31:15] are not zero. -/
def connKey (h : Nat) : Option Nat := if h < 2 ^ 15 then some h else none

/-- A connection table entry. -/
def State.conn (s : State) (k : Nat) : Conn := Sparse.get (fun _ => Conn.closed) s.conns k

/-- Replaces a connection table entry. -/
def State.setConn (s : State) (k : Nat) (c : Conn) : State :=
  { s with conns := Sparse.set (fun _ => Conn.closed) s.conns k c }

/-- The die of a connection key. -/
def connDie (k : Nat) : Nat := k / 2 ^ 14

/-! ### NSEND and NSTAT (R284, R285) -/

/-- The entries of a buffer list as numbers of 128 bits, up to LAST; none where there is no LAST among 16
or an entry lies beyond the scratchpad. -/
def Ctx.sendList (c : Ctx) (a : Nat) : Nat → Option (List Nat)
  | 0 => none
  | k + 1 =>
    if c.spSize < a + 16 then none
    else
      let e := natOfBytes (c.padBytes a 16)
      if bitOf e 64 then some [e] else (c.sendList (a + 16) k).map (fun es => e :: es)

/-- The buffer of a list entry (R284). -/
def bufOf (e : Nat) : SendBuf := { addr := bitsOf e 0 32, len := bitsOf e 32 32, lu := bitOf e 65 }

/-- Whether a list is well formed and in range; its banks and its buffers' banks are not OFF (R284). -/
def Ctx.sendOk (c : Ctx) (a : Nat) (es : List Nat) : Bool :=
  let bs := es.map bufOf
  es.all (fun e => bitsOf e 66 30 == 0) &&
  bs.all (fun b => decide (1 ≤ b.len) && decide (b.len ≤ 65536) && decide (b.addr + b.len ≤ c.spSize)) &&
  decide ((bs.map SendBuf.len).sum ≤ 65536) &&
  (banksOf a (16 * es.length) ++ bs.flatMap (fun b => banksOf b.addr b.len)).all (fun k =>
    (c.padBank k).state != .off)

/-- Whether a send slot is free: never used, or its send has ended (R285). -/
def SendSlot.vacant (x : SendSlot) : Bool := !x.used || x.delivered || x.err

/-- The next generation of a slot (R285). -/
def SendSlot.nextGen (x : SendSlot) : BitVec 8 := if x.gen = 255#8 then 1#8 else x.gen + 1#8

/-- The time T of a send accepted now, in package time: c less the guest offset in force; now where c is 0 (R284, R285,
R384). (DESIGN CHOICE, log 71) -/
def State.sendTime (s : State) (c : Word) : Int :=
  if c = 0#64 then s.now else (c.toNat : Int) - Sparse.get (fun _ => 0) s.voff s.ctx.ownDevice

/-- NSEND's D: code and ticket (R284). -/
def sendResult (code slot gen : Nat) : Word := packWord [(0, 8, code), (8, 5, slot), (13, 8, gen)]

/-- NSEND (R284): earlier scratchpad writes first; the handle and the list checked; a slot claimed, the
send accepted. -/
def execNsend (f : FDABC) (s : State) : Host.Outcome State Fault Refusal :=
  seqInstr [f.a, f.b, f.c] [f.d] (fun s =>
    consume s f.a 1 (fun a => consume s f.b 2 (fun b => consume s f.c 3 (fun c =>
      let k := s.conn (b.toNat % 2 ^ 15)
      let ad := a.toNat
      if ad % 16 ≠ 0 then .trap s (Cause.seq cALIGN 0 a)
      else if s.bank.entries.any (fun e => !e.pushOwed) then .wait s .other false
      else if 2 ^ 15 ≤ b.toNat ∨ k.isOpen = false ∨ k.vdn ≠ s.ctx.ownDevice then .done (s.wrc f.d 1#64)
      else match s.ctx.sendList ad 16 with
        | none => .done (s.wrc f.d 2#64)
        | some es =>
          if !s.ctx.sendOk ad es then .done (s.wrc f.d 2#64)
          else
            let bs := es.map bufOf
            let (s1, ready) := prepPadWrite ((ad, 16 * es.length) :: bs.map (fun x => (x.addr, x.len))) s
            if !ready then .wait s1 .wake false
            else match (List.range 32).find? (fun i => (s1.ctx.send i).vacant) with
              | none => .wait s1 .sendSlot false
              | some i =>
                let x := s1.ctx.send i
                let n : SendSlot :=
                  { SendSlot.zero with
                    gen := x.nextGen, used := true, handle := b.setWidth 32, bufs := bs, time := c
                    due := s1.sendTime c, shadow := k.shadow
                    ver := BitVec.ofNat 32 (bitsOf (es.headD 0) 96 32)
                    pois := s1.ctx.padPoison ad (16 * es.length) }
                let s2 := (s1.setCtx (s1.ctx.setSend i n)).progressEvent
                .done (s2.wrc f.d (sendResult 0 i x.nextGen.toNat)))))) s

/-- NSTAT (R285). -/
def execNstat (f : FDA) (s : State) : Host.Outcome State Fault Refusal :=
  seqInstr [f.a] [f.d] (fun s => consume s f.a 1 (fun a =>
    if 2 ^ 13 ≤ a.toNat then s.dataTrap
    else
      let x := s.ctx.send (bitsOf a.toNat 0 5)
      if bitsOf a.toNat 5 8 = x.gen.toNat ∧ x.gen ≠ 0#8 then .done (s.wrc f.d x.word)
      else .done (s.wrc f.d 0x20#64))) s

/-! ### Events of sends (R285, R404, R405) -/

/-- Changes a send slot of the running context. -/
def State.mapSend (s : State) (n : Nat) (f : SendSlot → SendSlot) : State :=
  s.setCtx (s.ctx.setSend n (f (s.ctx.send n)))

/-- ENDPOINT_TAKE (R285, R405): the buffers are taken, late where their time has passed. -/
def execEndpointTake (c slot : Nat) (s : State) : Host.Outcome State Fault Refusal :=
  .next (s.onCtx c (fun s =>
    let x := s.ctx.send slot
    if x.used && !x.taken && !x.err then
      (s.setCtx (s.ctx.takeSend slot)).mapSend slot (fun y => { y with late := x.time != 0#64 && decide (x.due < s.now) })
    else s))

/-- The send of a context that has ended, from one of its slots. -/
def State.flies (s : State) (c slot : Nat) : Option Flying := s.flying.find? (fun x => x.ctx == c && x.slot == slot)

/-- Whether a send is not transmitted: one accepted on a shadow side whose time comes while the side is a shadow still,
or fell before the end of the promotion that made it primary (R405, R406). -/
def State.suppressed (s : State) (x : SendSlot) : Bool :=
  x.shadow && ((s.conn (x.handle.toNat % 2 ^ 15)).shadow || decide (x.due < s.promoEnd))

/-- Whether a send's transmission may begin: taken, not begun, its time come; its buffers are this module's own, not
those of a send that a migration has brought (R285, R404). -/
def State.sendReady (s : State) (x : SendSlot) : Bool :=
  x.used && x.taken && !x.sent && !x.err && !x.bufs.isEmpty && decide (x.due ≤ s.now)

/-- TRANSMISSION_START (R285, R402, R405): at its time a taken send goes out whole; on a shadow it ends there with
ECODE 5, not transmitted. -/
def execTransmissionStart (c slot : Nat) (s : State) : Host.Outcome State Fault Refusal :=
  .next (match s.flies c slot with
    | some x =>
      if !s.sendReady x.send then s
      else if s.suppressed x.send then { s with flying := s.flying.erase x }
      else ({ s with flying := s.flying.map (fun y => if y = x then { x with send := { x.send with sent := true } } else y) }
        : State).emit (.message x.send.handle (s.messageWord x.send) x.send.msg)
    | none => s.onCtx c (fun s =>
        let x := s.ctx.send slot
        if !s.sendReady x then s
        else if s.suppressed x then s.mapSend slot (fun y => { y with err := true, ecode := 5#8 })
        else (s.mapSend slot (fun y => { y with sent := true, tstamp := (s.guest s.ctx.ownDevice).setWidth 48 })).emit
          (.message x.handle (s.messageWord x) x.msg)))

/-- SEND_ACKNOWLEDGED (R285): of a context that has ended, its send is outstanding no more (R30); the result of a send
taken before a migration comes from the source's endpoint (R404). -/
def execSendAcknowledged (c slot : Nat) (s : State) : Host.Outcome State Fault Refusal :=
  .next (match s.flies c slot with
    | some x => if x.send.sent then { s with flying := s.flying.erase x } else s
    | none => s.mapCtx c (fun x =>
        let y := x.send slot
        if y.used && y.taken && (y.sent || y.bufs.isEmpty) && !y.err then
          x.setSend slot { y with sent := true, delivered := true }
        else x))

/-- SEND_FAILED (R404). -/
def execSendFailed (c slot code : Nat) (s : State) : Host.Outcome State Fault Refusal :=
  .next (match s.flies c slot with
    | some x => if 1 ≤ code ∧ code ≤ 4 then { s with flying := s.flying.erase x } else s
    | none => s.mapCtx c (fun x =>
        let y := x.send slot
        if y.used && y.taken && !y.delivered && !y.err && decide (1 ≤ code) && decide (code ≤ 4) then
          x.setSend slot { y with err := true, ecode := BitVec.ofNat 8 code }
        else x))

/-- A send that its connection's closing ends before delivery (R404). -/
def SendSlot.close (k : Nat) (x : SendSlot) : SendSlot :=
  if x.used && !x.delivered && !x.err && x.handle.toNat % 2 ^ 15 == k then { x with err := true, ecode := 3#8 } else x

/-- Whether a connection fits the 64 bytes of an entry: a region's BASE is 64 KiB aligned (R401). -/
def Conn.fits (c : Conn) : Bool :=
  decide (c.ingress ≤ 2) && decide (c.vdn < 64) && decide (c.lcore < 2 ^ 16) && decide (c.gutter < 256) &&
  decide (c.base.toNat % 2 ^ 16 = 0) && decide (c.sector < 2 ^ 16) && decide (c.rxerr < 2 ^ 64)

/-- The steward writes a connection table entry; one that it closes ends the sends that are not delivered (R401,
R404). (DESIGN CHOICE, log 20) -/
def State.openConn (s : State) (k : Nat) (c : Conn) : State :=
  if 2 ^ 15 ≤ k ∨ c.fits = false then s
  else if (s.conn k).isOpen ∧ c.isOpen = false then
    let shut (x : Ctx) : Ctx := { x with sends := x.sends.map (fun e => (e.1, e.2.close k)) }
    ({ s with ctx := shut s.ctx, ctxs := s.ctxs.map shut
              flying := s.flying.filter (fun x => x.send.handle.toNat % 2 ^ 15 != k) } : State).setConn k c
  else s.setConn k c

/-! ### Inbound messages (R92, R103, R104, R403, R405) -/

/-- Reserves version v in m sectors from sector i on, k of them reserved before: how many are reserved
then, and what the next one met. -/
def reserveRun (s : State) (w : Who) (part base v i : Nat) : Nat → Nat → State × Nat × Create
  | k, 0 => (s, k, .ok)
  | k, m + 1 =>
    match s.regionAt part base with
    | none => (s, k, .missing)
    | some r => match s.createCheck r (i + k) v with
      | .ok => reserveRun (s.putRegion (r.reserve (i + k) v 4 w)) w part base v i (k + 1) m
      | e => (s, k, e)

/-- Takes back the sectors that an inbound creation has reserved (R103, R104). -/
def State.unreserveHold (s : State) (x : NetHold) : State :=
  let cn := s.conn (x.handle.toNat % 2 ^ 15)
  (List.range x.got).foldl (fun (s : State) j => match s.regionAt (s.vdPart cn.vdn) cn.base.toNat with
    | some r => s.putRegion (r.unreserve (cn.sector + j) (x.word.setWidth 32).toNat)
    | none => s) s

/-- The version that a message makes of one of its sectors. -/
def NetHold.version (x : NetHold) (j : Nat) : Ver :=
  { num := (x.word.setWidth 32).toNat, exist := true
    data := BitVec.ofNat 2048 (natOfBytes ((x.bytes.drop (256 * j)).take 256))
    marks := if x.word.getLsbD 33 then 15#4 else 0#4, scope := 4, who := .die (connDie (x.handle.toNat % 2 ^ 15))
    only := none }

/-- Makes all the sectors of a message existing: in a MIRROR region, where the move performs a part only, on the
other die first, and the message is held for its own (R105, R117). -/
def State.landSectors (s : State) (x : NetHold) (n : Nat) : State :=
  let k := x.handle.toNat % 2 ^ 15
  let cn := s.conn k
  let part := s.vdPart cn.vdn
  let v := (x.word.setWidth 32).toNat
  match s.regionAt part cn.base.toNat with
  | none => s.rxDiscard x.handle 2
  | some r =>
    let half := r.mirror && s.parts && (r.halfDone cn.sector v).isNone
    let r1 := (List.range n).foldl (fun (r : Region) j =>
      if half then r.existAt (cn.sector + j) (x.version j) (1 - connDie k) else r.exist (cn.sector + j) (x.version j)) r
    let s1 := s.putRegion r1
    if half then ({ s1 with netHolds := s1.netHolds ++ [{ x with got := n }] } : State).examineAll part
    else s1.examineAll part

/-- An inbound creation goes on: its sectors lie in the region, its pages grant W, then all its sectors exist together,
or it waits, or it is discarded; where the region's state has been discarded under way, its sectors lie outside any
region (R99, R103 to R105, R361, R366, R403); that a page does not grant W is a receive error for which no reason code
is given. (DEDUCED, log 40) -/
def State.landRegion (s : State) (x : NetHold) : State :=
  let k := x.handle.toNat % 2 ^ 15
  let cn := s.conn k
  let part := s.vdPart cn.vdn
  let n := x.bytes.length / 256
  let denied := if x.got = 0 then
      match s.agentX cn.vdn part (cn.base.toNat + 256 * cn.sector) x.bytes.length .w with
      | .error e => some e
      | .ok _ => none
    else none
  let inside := !x.lost && (s.regionAt part cn.base.toNat).any (fun r => decide (cn.sector + n ≤ r.sectors))
  if !inside then (if x.lost then s else s.unreserveHold x).rxDiscard x.handle 2
  else match denied with
  | some (va, f) =>
    ((s.agentFails (connDie k) part cn.vdn 6 va f).rxDiscard x.handle (s.freshBits 0).toNat).useFree
  | none =>
    match reserveRun s (.die (connDie k)) part cn.base.toNat (x.word.setWidth 32).toNat cn.sector x.got (n - x.got) with
    | (s1, _, .ok) => s1.landSectors x n
    | (s1, got, .full) =>
      { s1 with netHolds := s1.netHolds ++ [{ x with
          begun := true, since := if x.begun then x.since else s.now, got := got }] }
    | (s1, got, _) => (s1.unreserveHold { x with got := got }).rxDiscard x.handle 1

/-- A message at one connection entry (R403). -/
def State.landMessage (s : State) (handle : BitVec 32) (word : BitVec 64) (bytes : List Byte) : State :=
  let cn := s.conn (handle.toNat % 2 ^ 15)
  let part := s.vdPart cn.vdn
  let n := bytes.length
  if cn.ingress = 1 then
    match s.gutterOwner part cn.lcore cn.gutter with
    | none => s.rxDiscard handle 5
    | some t =>
      let g := t.gutter cn.gutter
      if 65536 < n ∨ g.takes n = false then s.rxDiscard handle 5
      else
        let p : Producer := .net s.netSeq handle word bytes
        let s1 : State := { s with netSeq := s.netSeq + 1 }
        s1.putOwner (t.setGutter cn.gutter (if t.resident && !s.vdPaused cn.vdn then (g.offer n p).1
          else { g with waiters := g.waiters ++ [p] }))
  else if cn.ingress = 2 then
    if !word.getLsbD 32 then s.rxDiscard handle 3
    else if n = 0 ∨ n % 256 ≠ 0 then s.rxDiscard handle 6
    else
      let x : NetHold :=
        { handle := handle, word := word, bytes := bytes, begun := false, since := s.now, got := 0, lost := false }
      if s.vdPaused cn.vdn || s.netHolds.any (fun y => y.handle == handle) then { s with netHolds := s.netHolds ++ [x] }
      else s.landRegion x
  else s.rxDiscard handle 4

/-- INBOUND_MESSAGE (R403, R405): a message for a connection that is not open is rejected with no effect;
one of a replicated connection lands on each die that lives (R406). (DESIGN CHOICE, log 16) -/
def execInboundMessage (handle : BitVec 32) (word : BitVec 64) (bytes : List (BitVec 8)) (s : State) :
    Host.Outcome State Fault Refusal :=
  .next (match connKey handle.toNat with
    | none => s
    | some k =>
      if !(s.conn k).isOpen then s
      else
        let lives (j : Nat) : Bool := (s.die (connDie j)).alive
        let s1 := if (s.conn k).repl && !lives k then s else s.landMessage handle word bytes
        let other := if k < 2 ^ 14 then k + 2 ^ 14 else k - 2 ^ 14
        if (s.conn k).repl && (s.conn other).isOpen && (s.conn other).repl && lives other then
          s1.landMessage (BitVec.ofNat 32 other) word bytes
        else s1)

/-! ### Time, fabric, heartbeats (R136, R384, R400, R406, R407) -/

/-- PTP_MESSAGE (R384, R400): a correction is owed, to be applied as a slew, where the port is the module's time source.
(DESIGN CHOICE, log 16) -/
def execPtpMessage (msg : PtpMsg) (s : State) : Host.Outcome State Fault Refusal :=
  .next (if s.timePort = some msg.port then { s with slew := msg.correction } else s)

/-- The steward selects one of the module's eight ports as time source (R400). (DESIGN CHOICE, log 20) -/
def State.setTimePort (s : State) (port : Nat) : State := if port < 8 then { s with timePort := some port } else s

/-- The steward installs a connection's transport security key (R400). (DESIGN CHOICE, log 20) -/
def State.installKey (s : State) (k : Nat) (key : BitVec 256) : State :=
  if k < 2 ^ 15 then { s with tssKeys := Sparse.set (fun _ => 0#256) s.tssKeys k key } else s

/-- REDUCTION_GROUP (R136): the contributions to a window that are under way are performed at its home.
(DEDUCED, log 35) -/
def execReductionGroup (win : Nat) (s : State) : Host.Outcome State Fault Refusal :=
  .next (s.performContribs (fun c => c.ident == win))

/-- A member module's contribution to a window whose home is here arrives; it is performed with its group (R136, R408).
(DEDUCED, log 35) -/
def State.farContribution (s : State) (ident off op : Nat) (val : Word) : State :=
  match s.windows.find? (fun w => w.ident == ident) with
  | none => s
  | some w =>
    let n := if w.w64 then 8 else 4
    if !s.homeHere w || off % n != 0 || decide (w.size < off + n) || decide (7 < op) then s
    else match s.agentX w.vdn w.part (w.base + off) n .w with
      | .error (va, f) => s.agentFails 0 w.part w.vdn 6 va f
      | .ok ps => { s with contribs := s.contribs ++ [{ ident := ident, pa := physOf ps (w.base + off), off := off, op := op
                                                        val := val, ctx := 2 ^ 64, part := 16, tag := false, phase := 0#64 }] }

/-- LINK_RETIRED (R407). (DEDUCED, log 34) -/
def execLinkRetired (link : Nat) (s : State) : Host.Outcome State Fault Refusal :=
  .next (if 16 ≤ link ∨ s.links.getLsbD link = true then s
    else ({ s with links := s.links ||| BitVec.ofNat 16 (2 ^ link) } : State).event (link / 8) 0x10 0xFF 0xFF link 0)

/-- HEARTBEAT (R406): a die's heartbeat reaches the other die. -/
def execHeartbeat (die : Nat) (s : State) : Host.Outcome State Fault Refusal :=
  .next (if die < 2 ∧ (s.die die).alive = true then s.setDie die { s.die die with beatAt := s.now } else s)

/-- The surviving shadow sides become primary; a failed die's connections keep their handles on the
survivor's ports (R406). -/
def promoteConns (failed : Nat) (m : Sparse Conn) : Sparse Conn :=
  m.map (fun e => (e.1, if e.2.repl && connDie e.1 != failed then { e.2 with shadow := false } else e.2))

/-- What stood on a failed die is gone: its cores run nothing, its contexts' channels and sends are no more. -/
def State.loseDie (s : State) (die : Nat) : State :=
  let lose (c : Ctx) : Ctx := if c.resident && dieOf c.core == die then
    { c with place := .nowhere, halted := true, chans := [], sends := [], prefetches := [] } else c
  { s with ctx := lose s.ctx, ctxs := s.ctxs.map lose
           cores := s.cores.map (fun e => if dieOf e.1 = die then (e.1, { e.2 with run := none, second := none }) else e) }

/-- DIE_FAILED (R406): a die silent for 200 µs is declared failed; with die 0 the PCIe port goes. -/
def execDieFailed (die : Nat) (s : State) : Host.Outcome State Fault Refusal :=
  .next (if die < 2 ∧ (s.die die).alive = true ∧ (s.die (1 - die)).alive = true ∧
      (s.die die).beatAt + 200000 ≤ s.now then
    let s1 : State := { (s.setDie die { s.die die with alive := false }).loseDie die with promoting := some die }
    if die = 0 then s1.emit .linkDown else s1
  else s)

/-- The promotion after a die's failure ends: the survivor's sides are primary, the failed die's connections its own, the
steward is told (R406). (DESIGN CHOICE, log 20) -/
def State.endPromotion (s : State) : State := match s.promoting with
  | none => s
  | some d =>
    ({ s with conns := promoteConns d s.conns, promoting := none, promoEnd := s.now } : State).event (1 - d) 0x0F 0xFF 0xFF d 0

end Sys2Proof.Machine
end

