-- ==== Sys2Proof/Machine/HostQueue.lean ====
section
/-! DEFINITION. Host queues: window registers, features, the recovery window, packets, control blocks,
demotion, restart (R388 to R399, R414). -/

namespace Sys2Proof.Machine

/-! ### Queues -/

/-- The key of a device's host queue. -/
def hqKey (vd q : Nat) : Nat := 64 * vd + q

/-- A host queue. -/
def State.hq (s : State) (vd q : Nat) : HQueue := Sparse.get (fun _ => HQueue.zero) s.hqs (hqKey vd q)

/-- A queue whose control block names its device and number (R395). -/
def HQueue.named (h : HQueue) (vd q : Nat) : HQueue :=
  { h with work := { h.work with vdn := BitVec.ofNat 6 vd, qnum := BitVec.ofNat 6 q } }

/-- Replaces a host queue. -/
def State.setHq (s : State) (vd q : Nat) (h : HQueue) : State :=
  { s with hqs := Sparse.set (fun _ => HQueue.zero) s.hqs (hqKey vd q) h }

/-- The committed copy of the control block (R395). -/
def HQueue.current (h : HQueue) : QBlock := if h.sel then h.blkB else h.blkA

/-- Commits the thread's copy, with what the window registers hold: it is written where SEL does not point, then SEL
flips (R395). (DESIGN CHOICE, log 20) -/
def HQueue.commit (h : HQueue) : HQueue :=
  let b : QBlock := { h.work with rbase := h.base, log2cap := h.log2cap, hostr := h.hostr, msix := h.msix }
  if h.sel then { h with work := b, blkA := b, sel := false, seq := h.seq + 1#63 }
  else { h with work := b, blkB := b, sel := true, seq := h.seq + 1#63 }

/-- Whether the module answers as a function: the physical one is function 0, the steward sets how many others are
enabled; the port is die 0's (R304, R398, R406, R414). -/
def State.functionUp (s : State) (vd : Nat) : Bool :=
  decide (vd < 64) && decide (vd ≤ s.functions) && s.boot == .running && (s.die 0).alive

/-- The steward sets how many virtual functions are enabled, up to 63 (R398). (DESIGN CHOICE, log 20) -/
def State.setFunctions (s : State) (n : Nat) : State := if n < 64 then { s with functions := n } else s

/-- Whether a window names a queue and the module serves windows (R389, R414). -/
def State.windowUp (s : State) (vd q : Nat) : Bool := decide (q < 64) && s.functionUp vd

/-- A function's features. -/
def State.feat (s : State) (vd : Nat) : Feat := Sparse.get (fun _ => Feat.zero) s.feats vd

/-- Replaces a function's features. -/
def State.setFeat (s : State) (vd : Nat) (x : Feat) : State :=
  { s with feats := Sparse.set (fun _ => Feat.zero) s.feats vd x }

/-- Whether feature n is enabled for a function: an ACCEPT has enabled it (R399). -/
def State.featOn (s : State) (vd n : Nat) : Bool := (s.feat vd).on.getLsbD n

/-- Puts a queue in a state with an error code, committed (R397). -/
def HQueue.fail (h : HQueue) (st : BitVec 2) (code : Nat) : HQueue :=
  ({ h with work := { h.work with state := st, ecode := BitVec.ofNat 8 code } } : HQueue).commit

/-! ### Window registers (R389 to R391) -/

/-- Offers a new WIDX (R391): accepted where it lies ahead; beyond capacity, by the committed copy's RIDX, the queue is in
error (R395). -/
def HQueue.offer (h : HQueue) (w : BitVec 32) (inline : Option (BitVec 512)) : HQueue :=
  let d := (w - h.work.widx).toNat
  if d = 0 ∨ 2 ^ 31 ≤ d then h
  else
    let h1 := { h with work := { h.work with widx := w }, inline := (match inline with
      | some p => some (w - 1#32, p)
      | none => h.inline) }
    if 2 ^ h.current.log2cap.toNat < (w - h.current.ridx).toNat then h1.fail 2#2 5 else h1

/-- Whether an index lies below another, modulo 2³². -/
def idxBelow (a b : BitVec 32) : Bool := (b - a).toNat != 0 && decide ((b - a).toNat < 2 ^ 31)

/-- Whether a queue has packets accepted and not consumed (R388). -/
def HQueue.unserved (h : HQueue) : Bool := h.work.ridx != h.work.widx

/-- The accepted stores that are not served yet, in order (R388). -/
def State.unservedStores (s : State) : List (Nat × BitVec 32) :=
  s.stores.filter (fun e => idxBelow (Sparse.get (fun _ => HQueue.zero) s.hqs e.1).work.ridx e.2)

/-- Offers a queue a new WIDX; an accepted store takes its place in the order of stores (R388, R391). -/
def State.hostOffer (s : State) (vd q : Nat) (w : BitVec 32) (inline : Option (BitVec 512)) : State :=
  let h := s.hq vd q
  let s1 := s.setHq vd q (h.offer w inline)
  if idxBelow h.work.widx w then { s1 with stores := s1.unservedStores ++ [(hqKey vd q, w)] } else s1

/-- HQLAUNCH (R391). -/
def execHqlaunch (vd q : Nat) (pkt : BitVec 512) (whole : Bool) (s : State) : Host.Outcome State Fault Refusal :=
  .next (if !s.windowUp vd q then s
    else if !whole then s.event (q % 2) 0x0D (s.vdPart vd) vd (256 * vd + q) 0
    else
      let w : BitVec 32 := (pkt >>> 32).setWidth 32
      s.hostOffer vd q w (if s.featOn vd 0 then some pkt else none))

/-- HQDOOR (R391). -/
def execHqdoor (vd q : Nat) (widx : BitVec 32) (s : State) : Host.Outcome State Fault Refusal :=
  .next (if s.windowUp vd q then s.hostOffer vd q widx none else s)

/-- START: a stopped queue of a function that has accepted, once a commit has been made (R390, R399,
R418). -/
def State.hqStartOp (s : State) (vd q : Nat) : State :=
  let h := s.hq vd q
  if h.current.state = 0#2 ∧ (s.feat vd).accept = true ∧ s.pcstat.setWidth 32 ≠ 0#32 then
    let s1 := s.setHq vd q (({ h with
      work := { h.work with state := 1#2, ridx := 0#32, widx := 0#32 }, eidx := 0#32, eph := false
      inline := none, stopReq := false, begun := false } : HQueue).named vd q).commit
    { s1 with stores := s1.stores.filter (fun e => e.1 != hqKey vd q) }
  else s

/-- Whether a packet of a queue is in progress: a WAIT, a FENCE or COPY that has been taken up and stays, or a NOTIFY
still to make. -/
def HQueue.midPacket (h : HQueue) : Bool := h.waiting.isSome || h.begun || (h.eph && h.eidx == h.work.ridx)

/-- STOP: after the packet in progress (R390). (DEDUCED, log 41) -/
def State.hqStopOp (s : State) (vd q : Nat) : State :=
  let h := s.hq vd q
  if h.current.state = 0#2 then s
  else if h.midPacket then s.setHq vd q { h with stopReq := true }
  else s.setHq vd q ({ h with work := { h.work with state := 0#2 } } : HQueue).commit

/-- CLRQ: back to running at RIDX; a demotion ends for later packets (R390, R397). -/
def State.hqClrqOp (s : State) (vd q : Nat) : State :=
  let h := s.hq vd q
  if h.current.state = 2#2 ∨ h.current.state = 3#2 then
    s.setHq vd q ({ h with work := { h.work with state := 1#2 } } : HQueue).commit
  else s

/-- START (R390). -/
def execHqStart (vd q : Nat) (s : State) : Host.Outcome State Fault Refusal :=
  .next (if s.windowUp vd q then s.hqStartOp vd q else s)

/-- STOP (R390). -/
def execHqStop (vd q : Nat) (s : State) : Host.Outcome State Fault Refusal :=
  .next (if s.windowUp vd q then s.hqStopOp vd q else s)

/-- CLRQ (R397). -/
def execHqClrq (vd q : Nat) (s : State) : Host.Outcome State Fault Refusal :=
  .next (if s.windowUp vd q then s.hqClrqOp vd q else s)

/-- A write of HQCTL: its fields, then its actions (R390, R399). (DEDUCED, log 41) -/
def State.hqctlWrite (s : State) (vd q : Nat) (v : Nat) : State :=
  let h := s.hq vd q
  let cap := bitsOf v 16 5
  let h1 := { h with
    hostr := if s.featOn vd 1 then bitOf v 21 else h.hostr
    log2cap := if h.current.state = 0#2 ∧ 4 ≤ cap ∧ cap ≤ 16 then BitVec.ofNat 5 cap else h.log2cap
    msix := if s.featOn vd 2 then BitVec.ofNat 8 (bitsOf v 8 8) else h.msix }
  let s1 := s.setHq vd q h1
  let s2 := if bitOf v 2 then s1.hqClrqOp vd q else s1
  let s3 := if bitOf v 1 then s2.hqStopOp vd q else s2
  if bitOf v 0 then s3.hqStartOp vd q else s3

/-! ### Features (R399) -/

/-- ACCEPT: the features that DRVFEAT names now are enabled, where all are offered; else nothing is (R399).
(DEDUCED, log 41) -/
def execAccept (vd : Nat) (s : State) : Host.Outcome State Fault Refusal :=
  .next (if !s.functionUp vd then s
    else
      let x := s.feat vd
      if x.drv &&& ~~~(Config.offeredFeatures.setWidth 128) = 0#128 then
        s.setFeat vd { x with on := x.drv, accept := true, refused := false }
      else s.setFeat vd { x with refused := true })

/-- The host copy channels that serve a device's queues stop; they serve no packet any more (R282, R399). -/
def State.stopHostChans (s : State) (vd : Nat) : State :=
  ((s.hostChans.filter (fun e => e.2.busy && e.2.vd == vd)).map Prod.fst).foldl (fun (s : State) k =>
    let s1 := s.asCopier (2 ^ 64 + k) (fun s => s.stopChan 0)
    { s1 with hostChans := Sparse.set (fun _ => HostChan.idle) s1.hostChans k HostChan.idle }) s

/-- ACCEPT written 0: the function's queues are reset, their copies with them, every feature disabled (R399). -/
def execFeatureReset (vd : Nat) (s : State) : Host.Outcome State Fault Refusal :=
  .next (if !s.functionUp vd then s
    else
      let s1 := (s.stopHostChans vd).setFeat vd { s.feat vd with on := 0#128, accept := false }
      { s1 with hqs := s1.hqs.filter (fun e => e.1 / 64 != vd), stores := s1.stores.filter (fun e => e.1 / 64 != vd) })

/-- HOST_REGISTER_WRITE (R389, R390, R399, R414): the registers without a row of their own; any other offset
is discarded. IMGADDR takes all its bits. (DEDUCED, log 44) -/
def execHostRegisterWrite (r : HostReg) (value : BitVec 128) (s : State) : Host.Outcome State Fault Refusal :=
  .next (match r with
    | .hqbase vd q =>
      if s.windowUp vd q ∧ (s.hq vd q).current.state = 0#2 then
        s.setHq vd q { s.hq vd q with base := (value.setWidth 64) >>> 6 <<< 6 }
      else s
    | .hqctl vd q => if s.windowUp vd q then s.hqctlWrite vd q (value.setWidth 64).toNat else s
    | .drvfeat vd =>
      if s.functionUp vd then s.setFeat vd { s.feat vd with drv := value } else s
    | .imgaddr => match s.boot with
      | .recovery _ => { s with imgaddr := value.setWidth 64 }
      | _ => s
    | .imglen => match s.boot with
      | .recovery _ => { s with imglen := value.setWidth 32 }
      | _ => s
    | .other _ => s)

/-! ### Packets (R392 to R394, R396, R397) -/

/-- A translation by a host queue's thread that fails: what it sends to the steward. The thread reports as the
scheduler does. (DEDUCED, log 67) -/
def State.threadFails (s : State) (vd q : Nat) (e : Nat × XFail) : State :=
  s.agentFails (q % 2) (s.vdPart vd) vd 7 e.1 e.2

/-- The packet in the ring at an address. -/
def State.ringPacket (s : State) (vd : Nat) (h : HQueue) (va : Nat) : Except (Nat × XFail) Nat :=
  if h.current.hostr then .ok (natOfBytes (Sparse.getList memDefault s.hostMem va 64))
  else match s.agentX vd (s.vdPart vd) va 64 .r with
    | .ok ps => .ok (natOfBytes (s.homeBytes ps va 64))
    | .error e => .error e

/-- The 64 bytes of the packet at RIDX: the inline one, else the ring's, by the committed copy of the control block, where
it translates (R391, R395, R397). -/
def State.packet (s : State) (vd q : Nat) : Except (Nat × XFail) Nat :=
  let h := s.hq vd q
  let i := h.work.ridx
  let va := h.current.rbase.toNat + 64 * (i.toNat % 2 ^ h.current.log2cap.toNat)
  match h.inline with
  | some (j, p) => if j = i then .ok p.toNat else s.ringPacket vd h va
  | none => s.ringPacket vd h va

/-- A signal-add of a thread at a virtual counter address, at SYSTEM; false where it does not translate, which is
reported (R366, R393). -/
def State.threadSignal (s : State) (vd q a n : Nat) : State × Bool :=
  match s.walk vd (s.vdPart vd) a .rw with
  | .ok o => (s.signalAt (.die (q % 2)) 4 o.pa n, true)
  | .error f => (s.threadFails vd q (a, f), false)

/-- What a packet comes to: its main effect done, or none to make; a chain started; a cancel refused; malformed; an
error; still in progress. -/
inductive PktRes where
  | done (s : State)
  | plain (s : State)
  | copy (s : State)
  | refused (s : State)
  | bad (s : State) (code : Nat)
  | error (s : State) (code : Nat)
  | stay (s : State)

/-- Whether a queue consumes packets: running, or quarantined (R397). -/
def HQueue.consumes (h : HQueue) : Bool := h.work.state == 1#2 || h.work.state == 3#2

/-- A queue after a packet: RIDX moved on, its inline copy used up; a STOP that waited for it takes effect, committed
(R390, R391, R394). -/
def HQueue.advance (h : HQueue) : HQueue :=
  let h1 := { h with
    work := { h.work with ridx := h.work.ridx + 1#32 }, waiting := none, begun := false, idle := 0
    inline := h.inline.filter (fun x => x.1 != h.work.ridx) }
  if h.stopReq then ({ h1 with work := { h1.work with state := 0#2 }, stopReq := false } : HQueue).commit else h1

/-- A NOTIFY: the counter's addition at SYSTEM, then the MSI-X, where the vector is one of the function's 64 (R392, R398,
R399). (DEDUCED, log 41) -/
def State.notify (s : State) (vd q : Nat) : State :=
  let h := s.hq vd q
  let a := h.work.ncnt.toNat
  let s1 := if a = 0 then s else (s.threadSignal vd q a 1).1
  if h.msix.toNat < 64 ∧ s.featOn vd 2 = true then s1.emit (.msix vd h.msix.toNat) else s1

/-- A queue joins the demoted ones, last in the order of demotion; the one whose tasks run stays the current one, and the
first there is begins its 1 ms (R397). -/
def State.joinDemoted (s : State) (x : Nat × Nat) : State :=
  let rest := s.demoted.filter (fun y => y != x)
  match s.demoted[s.demCur]? with
  | some y =>
    if y = x then { s with demoted := rest ++ [x], demCur := if s.demCur < rest.length then s.demCur else 0, demAt := s.now }
    else { s with demoted := rest ++ [x], demCur := (rest.findIdx? (fun z => z == y)).getD 0 }
  | none => { s with demoted := rest ++ [x], demCur := 0, demAt := s.now }

/-- Demotes a queue: its undispatched tasks move to partition 15, into that one's heap quota (R332, R397). One that is
quarantined already keeps its place. -/
def State.demote (s : State) (vd q : Nat) (again : Bool) : State :=
  let s0 := if again && s.demoted.contains (vd, q) then s else s.joinDemoted (vd, q)
  let s1 : State := { s0 with
    tasks := s0.tasks.map (fun t => if t.hostq = some (vd, q) ∧ t.dispatched = false ∧ t.state ≠ .complete then
      { t with cls := 3, overflow := true } else t) }
  (s1.settleHeap (s.vdPart vd)).settleHeap 15

/-- A packet's main effect has taken place: (EIDX, EPH) moves in the same step; the packet is complete
where it has no NOTIFY (R396). -/
def State.effect (s : State) (vd q : Nat) (notify : Bool) : State :=
  let h := s.hq vd q
  let i := h.work.ridx
  if notify then s.setHq vd q { h with eidx := i, eph := true, waiting := none }
  else s.setHq vd q ({ h with eidx := i + 1#32, eph := false } : HQueue).advance

/-- A packet with no main effect, a NOP, WAIT or FENCE, is complete with its NOTIFY, which is all that moves (EIDX, EPH)
(R396). -/
def State.pass (s : State) (vd q : Nat) (notify : Bool) : State :=
  if notify then
    let s1 := s.notify vd q
    let h := s1.hq vd q
    s1.setHq vd q ({ h with eidx := h.work.ridx + 1#32, eph := false } : HQueue).advance
  else s.setHq vd q (s.hq vd q).advance

/-- A malformed packet is consumed with no effect and quarantines its queue (R397). -/
def State.badPacket (s : State) (vd q code : Nat) : State :=
  let h := s.hq vd q
  let h1 := ({ h with eidx := h.work.ridx + 1#32, eph := false } : HQueue).advance
  (s.setHq vd q (h1.fail 3#2 code)).demote vd q (h.work.state == 3#2)

/-- Whether a header and body are in order for a kind: reserved header bits zero, body bytes the kind does
not list zero (R392, R393). -/
def bodyOk (kind p : Nat) : Bool :=
  let used := match kind with
    | 1 => 20
    | 2 => 16
    | 3 => 24
    | 4 => 28
    | 5 => 16
    | 6 => 17
    | _ => 8
  bitsOf p 9 23 == 0 && p / 2 ^ (8 * used) == 0

/-- Runs a mapped queue's next packet, where it is of a kind; one of no known kind is malformed whatever the
step (R394, R396, R397). (DESIGN CHOICE, log 20) -/
def packetStep (kind vd q : Nat) (body : State → Nat → PktRes) (s : State) : State :=
  let h := s.hq vd q
  let i := h.work.ridx
  if !s.windowUp vd q || h.thread.isNone || h.waiting.isSome || !h.consumes ||
      i == h.work.widx then s
  else if idxBelow i h.eidx then s.setHq vd q h.advance
  else if h.eph ∧ h.eidx = i then
    let s1 := s.notify vd q
    s1.setHq vd q ({ s1.hq vd q with eidx := i + 1#32, eph := false } : HQueue).advance
  else match s.packet vd q with
    | .error e => (s.threadFails vd q e).setHq vd q (h.fail 2#2 4)
    | .ok p =>
      let k := bitsOf p 0 8
      if 7 < k then s.badPacket vd q 1
      else if k ≠ kind then s
      else if !bodyOk k p then s.badPacket vd q 2
      else match body s p with
        | .done s1 => s1.effect vd q (bitOf p 8)
        | .plain s1 => s1.pass vd q (bitOf p 8)
        | .copy s1 => s1.effect vd q false
        | .refused s1 =>
          let h1 := s1.hq vd q
          (s1.setHq vd q { h1 with work := { h1.work with ecode := 9#8 } }).effect vd q (bitOf p 8)
        | .bad s1 code => s1.badPacket vd q code
        | .error s1 code => s1.setHq vd q ((s1.hq vd q).fail 2#2 code)
        | .stay s1 => s1.setHq vd q { s1.hq vd q with begun := true }

/-- NOP packet (R393). -/
def execNopPacket (vd q : Nat) (s : State) : Host.Outcome State Fault Refusal :=
  .next (packetStep 0 vd q (fun s _ => .plain s) s)

/-- Reads the records of a LAUNCH; where one does not translate or carries a mark, what that reports (R96, R366). -/
def State.launchRecords (s : State) (vd q va : Nat) : Nat → Except State (List (Nat × Nat))
  | 0 => .ok []
  | n + 1 => match s.agentX vd (s.vdPart vd) va 128 .r with
    | .error e => .error (s.threadFails vd q e)
    | .ok ps =>
      if s.homeMarked ps va 128 then
        .error (s.postSteward (q % 2) { code := cUNCORR, sub := 0#8, val := BitVec.ofNat 64 va, unit := 0, ch := 0 })
      else match s.launchRecords vd q (va + 128) n with
        | .error s1 => .error s1
        | .ok rs => .ok ((va, natOfBytes (s.homeBytes ps va 128)) :: rs)

/-- LAUNCH (R393, R397): the checks and order of SPAWN; a record that cannot be read makes the packet malformed
(R366); a quarantined queue's tasks are QUARANTINE; a task keeps PFW, the words that its core prefetches at each dispatch
before its first fetch, which no access shows (log 4). (DEDUCED, log 41) -/
def execLaunch (vd q : Nat) (s : State) : Host.Outcome State Fault Refusal :=
  .next (packetStep 1 vd q (fun s p =>
    let n := bitsOf p 128 16
    if n = 0 ∨ 256 < n ∨ 512 < bitsOf p 144 16 then .bad s 2
    else match s.launchRecords vd q (bitsOf p 64 64) n with
      | .error s1 => .bad s1 3
      | .ok rs =>
        let part := s.vdPart vd
        if rs.any (fun r => s.recordBad part r.1 r.2) then .bad s 3
        else
          let quar := (s.hq vd q).work.state == 3#2
          let dest := if quar then 15 else part
          let ts := rs.map (fun r =>
            let t := { s.taskOf part vd (BitVec.ofNat 64 r.1) r.2 (some (vd, q)) with pfw := bitsOf p 144 16 }
            if quar then { t with cls := 3 } else t)
          if !s.overflowRoom ts dest then .error s 10 else .done (s.postAll ts dest)) s)

/-- Whether the maps of a chain's records, as far as it stands ready and up to a number of records, all have SPACE 0 where
they can be read (R271, R393, R397); what cannot be translated is reported. (DEDUCED, log 41) -/
def State.chainSpaces (vd q : Nat) : Nat → Nat → State → State × Bool
  | 0, _, s => (s, true)
  | left + 1, head, s =>
  let space (s : State) (a : Nat) : State × Bool := match s.agentX vd (s.vdPart vd) a 256 .r with
    | .ok ps => (s, bitsOf (natOfBytes (s.homeBytes ps a 256)) 16 2 == 0)
    | .error e => (s.threadFails vd q e, true)
  match s.agentX vd (s.vdPart vd) head 128 .r with
  | .error e => (s.threadFails vd q e, true)
  | .ok ps =>
    let h := natOfBytes (s.homeBytes ps head 128)
    if !bitOf h 192 then (s, true)
    else
      let (s1, a) := space s (bitsOf h 64 64)
      let (s2, b) := if bitOf h 201 then (s1, true) else space s1 (bitsOf h 128 64)
      if !(a && b) then (s2, false)
      else if bitsOf h 0 64 = 0 then (s2, true)
      else State.chainSpaces vd q left (bitsOf h 0 64) s2

/-- A host copy channel by its key. -/
def State.hostChan (s : State) (k : Nat) : HostChan := Sparse.get (fun _ => HostChan.idle) s.hostChans k

/-- COPY (R393, R394, R396): a chain started on a free host channel; a fifth outstanding COPY waits, as
does one that finds no free channel. -/
def execCopyPacket (vd q : Nat) (s : State) : Host.Outcome State Fault Refusal :=
  .next (packetStep 2 vd q (fun s p =>
    let head := bitsOf p 64 64
    let h := s.hq vd q
    if head % 128 ≠ 0 then .bad s 2
    else if 4 ≤ h.work.outc then .stay s
    else
    let (s, fits) := State.chainSpaces vd q 65536 head s
    if !fits then .bad s 6
    else match (List.range 4).find? (fun n => !(s.hostChan (4 * (q % 2) + n)).busy) with
      | none => .stay s
      | some n =>
        let hc : HostChan :=
          { chan := { Chan.idle with run := true, cur := some (.record (BitVec.ofNat 64 head)) }
            vd := vd, q := q, notify := bitOf p 8, busy := true }
        let s1 := s.setHq vd q { h with work := { h.work with outc := h.work.outc + 1 } }
        .copy { s1 with
          hostChans := Sparse.set (fun _ => HostChan.idle) s1.hostChans (4 * (q % 2) + n) hc }) s)

/-- Whether a packet's counter address is valid: 8-aligned, in no versioned region and no window (R393). -/
def State.pktCounterOk (s : State) (vd a : Nat) : Bool :=
  let p := s.vdPart vd
  a % 8 == 0 && !(s.regions.any (fun r => r.part == p && decide (r.base.toNat < a + 8) &&
    decide (a < r.base.toNat + 256 * r.sectors))) && (s.window p a 8).isNone

/-- SIGNAL (R393). (DEDUCED, log 41) -/
def execSignal (vd q : Nat) (s : State) : Host.Outcome State Fault Refusal :=
  .next (packetStep 3 vd q (fun s p =>
    let a := bitsOf p 64 64
    if !s.pktCounterOk vd a then .bad s 8
    else
      let (s1, ok) := s.threadSignal vd q a (bitsOf p 128 64)
      if ok then .done s1 else .error s1 4) s)

/-- WAIT (R393): satisfied at once, or the thread blocks. -/
def execWait (vd q : Nat) (s : State) : Host.Outcome State Fault Refusal :=
  .next (packetStep 4 vd q (fun s p =>
    let a := bitsOf p 64 64
    if !s.pktCounterOk vd a then .bad s 8
    else match s.walk vd (s.vdPart vd) a .r with
      | .error f => .error (s.threadFails vd q (a, f)) 4
      | .ok o =>
        let s1 := s.scopeTake (.die (q % 2)) 4 o.pa
        if bitsOf p 128 64 ≤ s.natAt o.pa 8 then .plain s1
        else
          let h := s1.hq vd q
          let w : PktWait :=
            { cnt := BitVec.ofNat 64 a, value := BitVec.ofNat 64 (bitsOf p 128 64), since := s.now
              tmo := bitsOf p 192 32 }
          .stay (s1.setHq vd q { h with waiting := some w })) s)

/-- BIND (R393). -/
def execBindPacket (vd q : Nat) (s : State) : Host.Outcome State Fault Refusal :=
  .next (packetStep 5 vd q (fun s p =>
    let a := bitsOf p 64 64
    if a ≠ 0 ∧ s.pktCounterOk vd a = false then .bad s 8
    else
      let h := s.hq vd q
      .done (s.setHq vd q { h with work := { h.work with ncnt := BitVec.ofNat 64 a } })) s)

/-- CANCEL (R28, R29, R393). -/
def execCancelPacket (vd q : Nat) (s : State) : Host.Outcome State Fault Refusal :=
  .next (packetStep 6 vd q (fun s p =>
    let a := bitsOf p 64 64
    let lvl := bitsOf p 128 8
    if a = 0 ∨ s.pktCounterOk vd a = false then .bad s 8
    else if 3 < lvl then .bad s 2
    else match s.cancelLevel (s.vdPart vd) (BitVec.ofNat 64 a) lvl with
      | some s1 => .done s1
      | none => .refused s) s)

/-- FENCE (R394). -/
def execFencePacket (vd q : Nat) (s : State) : Host.Outcome State Fault Refusal :=
  .next (packetStep 7 vd q (fun s _ => if (s.hq vd q).work.outc = 0 then .plain s else .stay s) s)

/-! ### Events of threads and host channels (R388, R393, R395, R396) -/

/-- Whether the packet at RIDX asks for a NOTIFY. -/
def State.wantsNotify (s : State) (vd q : Nat) : Bool := match s.packet vd q with
  | .ok p => bitOf p 8
  | .error _ => false

/-- WAIT_SATISFIED (R393): of a queue that consumes packets; a counter that does not translate any more is its error
(R366, R397). -/
def execWaitSatisfied (vd q : Nat) (s : State) : Host.Outcome State Fault Refusal :=
  .next (
    let h := s.hq vd q
    match h.waiting with
    | none => s
    | some w =>
      if h.thread.isNone || !h.consumes then s
      else match s.walk vd (s.vdPart vd) w.cnt.toNat .r with
        | .error f => (s.threadFails vd q (w.cnt.toNat, f)).setHq vd q (({ h with waiting := none } : HQueue).fail 2#2 4)
        | .ok o => if w.value.toNat ≤ s.natAt o.pa 8 then s.pass vd q (s.wantsNotify vd q) else s)

/-- WAIT_TIMEOUT (R393, R397). -/
def execWaitTimeout (vd q : Nat) (s : State) : Host.Outcome State Fault Refusal :=
  .next (match (s.hq vd q).waiting with
    | none => s
    | some w =>
      if w.tmo ≠ 0 ∧ w.since + 1000 * w.tmo ≤ s.now then
        s.setHq vd q (({ s.hq vd q with waiting := none } : HQueue).fail 2#2 7)
      else s)

/-- COPY_CHAIN_END (R394, R396): a host channel's chain has ended: OUTC falls, its packet's NOTIFY is
made. -/
def execCopyChainEnd (die ch : Nat) (s : State) : Host.Outcome State Fault Refusal :=
  .next (
    let k := 4 * die + ch
    let hc := s.hostChan k
    if hc.busy ∧ hc.chan.run = false then
      let h := s.hq hc.vd hc.q
      let s1 := s.setHq hc.vd hc.q { h with work := { h.work with outc := h.work.outc - 1 } }
      let s2 := { s1 with hostChans := Sparse.set (fun _ => HostChan.idle) s1.hostChans k HostChan.idle }
      if hc.notify then s2.notify hc.vd hc.q else s2
    else s)

/-- FIRMWARE_RESTART (R396): 100 µs without a completed packet, the thread resumes from the committed copy; the latch keeps WIDX, a BIND
made stays made, OUTC is rebuilt from the host channels. -/
def execFirmwareRestart (vd q : Nat) (s : State) : Host.Outcome State Fault Refusal :=
  .next (
    let h := s.hq vd q
    match h.thread with
    | none => s
    | some t =>
      if h.waiting.isSome || decide (h.idle < 100000) then s
      else
        let outc := (s.hostChans.filter (fun e => e.2.busy && e.2.vd == vd && e.2.q == q)).length
        let h1 : HQueue := { h with work := { h.current with
          widx := h.work.widx, outc := outc, ncnt := h.work.ncnt }, inline := none, begun := false, idle := 0 }
        (s.setHq vd q h1).event (q % 2) 0x0E (s.vdPart vd) vd (256 * vd + q) t)

/-- The queue of a die that firmware maps next: of those unmapped that consume packets, the one whose first unserved store
is the earliest (R388). (DEDUCED, log 41) -/
def State.nextMapped (s : State) (die : Nat) : Option Nat :=
  (s.unservedStores.find? (fun e =>
    let h := Sparse.get (fun _ => HQueue.zero) s.hqs e.1
    e.1 % 2 == die && h.thread.isNone && h.consumes)).map Prod.fst

/-- Whether every thread of a die serves a queue (R388). -/
def State.threadsTaken (s : State) (die : Nat) : Bool :=
  (List.range 32).all (fun t => s.hqs.any (fun e => e.1 % 2 == die && e.2.thread == some t))

/-- QUEUE_MAP (R388): the unmapped queue with the earliest unserved store gets a free thread of its die; the block is
committed. -/
def execQueueMap (vd q thread : Nat) (s : State) : Host.Outcome State Fault Refusal :=
  .next (
    let h := s.hq vd q
    let taken := s.hqs.any (fun e => e.1 % 2 == q % 2 && e.2.thread == some thread)
    if s.windowUp vd q ∧ thread < 32 ∧ taken = false ∧ s.nextMapped (q % 2) = some (hqKey vd q) then
      s.setHq vd q (({ h with thread := some thread, idle := 0 } : HQueue).named vd q).commit
    else s)

/-- QUEUE_UNMAP (R388): a queue that is empty, or blocked in WAIT for more than 20 µs, to make room: no thread of its die
is free, and a queue waits for one. -/
def execQueueUnmap (vd q : Nat) (s : State) : Host.Outcome State Fault Refusal :=
  .next (
    let h := s.hq vd q
    let blocked := match h.waiting with
      | some w => decide (w.since + 20000 < s.now)
      | none => false
    if h.thread.isSome ∧ (h.unserved = false ∨ blocked = true) ∧ s.threadsTaken (q % 2) = true ∧
        (s.nextMapped (q % 2)).isSome = true then
      s.setHq vd q ({ h with thread := none } : HQueue).commit
    else s)

end Sys2Proof.Machine
end

