-- ==== Sys2Proof/Machine/Sched.lean ====
section
/-! DEFINITION. The scheduler's events: releases, selection with parking, misses, progress, budgets,
admission, the quarantine rotation, time slices (R19, R31 to R37, R331 to R340, R383, R397). An event
whose condition does not hold changes nothing. -/

namespace Sys2Proof.Machine

/-! ### Releases (R31, R333) -/

/-- TASK_RELEASE: a PENDING task whose release time has come is examined (R333). -/
def execTaskRelease (t : Nat) (s : State) : Host.Outcome State Fault Refusal :=
  match s.findTask t with
  | none => .next s
  | some k => .next (if k.state = .pending ∧ k.release ≤ s.now then s.examine k else s)

/-- Whether a HELD task may go on: its tag is quiet, or what is under way with it is of the task's own phase; no
earlier task of another phase is still held (R31). (DEDUCED, log 42) -/
def State.holdOver (s : State) (t : Task) : Bool :=
  !(s.tasks.any (fun u => u.part == t.part && u.ptag == t.ptag && u.state == .held && decide (u.id < t.id) &&
    u.cphase != t.cphase)) &&
  (s.tagWork t.part t.ptag none none).all (fun w => w == t.cphase)

/-- HELD_TASK_RELEASE (R31). -/
def execHeldTaskRelease (t : Nat) (s : State) : Host.Outcome State Fault Refusal :=
  match s.findTask t with
  | none => .next s
  | some k => .next (if k.state = .held ∧ s.holdOver k = true then s.putTask { k with state := .pending } else s)

/-! ### Waits that are over (R19, R37) -/

/-- Whether a counter wait is met, now or before (R124, R127). -/
def State.counterMet (s : State) : Bool := match s.waitHere? with
  | some w => (match w.kind with
    | .counter pa need => w.given == .met || decide (need.toNat ≤ s.natAt pa 8)
    | _ => false)
  | none => false

/-- Whether a pop's wait is met: an entry for this waiter, or a closed queue (R33, R180). -/
def State.popMet (s : State) : Bool := match s.waitKind with
  | some (.pop d b _) => s.givenEntry.isSome || b.any (fun n => (s.ctx.qbind n).held.isSome) ||
    (s.waitHere?).any (fun w => w.given == .met) || (match s.qdesc d.toNat with
    | some q => (q.count != 0 && !(s.ctxs.any (s.aheadOf q.pa))) || (q.count == 0 && q.closed)
    | none => true)
  | _ => false

/-- Whether a time wait is met (R177). -/
def State.timeMet (s : State) : Bool := match s.waitKind with
  | some (.time t) => decide (t.toNat ≤ (s.guest s.ctx.vdn.toNat).toNat)
  | _ => false

/-- Whether a gutter wait is over: enough slots are filled, or the gutter is no longer one that can fill
them (R218). -/
def State.gutterMet (s : State) : Bool := match s.waitKind with
  | some (.gutter g k) =>
    let t := s.ctx.gutter g
    decide (k ≤ t.filled) || !t.en || decide (t.nslot.toNat < k)
  | _ => false

/-- Whether a version wait stands recorded at its sector (R109). -/
def State.versionRecorded (s : State) (c : Ctx) (w : WaitSt) : Bool :=
  (s.versionPlace c w).any (fun x => (x.1.sec x.2).waiters.contains c.id)

/-- Whether the running context's version wait is over: it has been given what it waits for; or it stands unrecorded,
its next retry has come and finds something (R107, R109). -/
def State.versionMet (s : State) : Bool := match s.waitHere? with
  | none => false
  | some w => match w.given with
    | .line _ | .missing => true
    | .retry t => decide (t ≤ s.now) && s.versionFinds s.ctx w != .wait
    | _ => !s.versionRecorded s.ctx w && s.versionFinds s.ctx w != .wait

/-- Whether the running context's creation need wait no longer. -/
def State.creationMet (s : State) : Bool := match s.waitKind with
  | some (.creation va v) => match s.attached s.ctx va.toNat with
    | some r => s.createCheck r (r.index va.toNat) v != .full
    | none => true
  | _ => false

/-- Whether a push's wait is met: an entry has left, or the queue is closed (R33, R181). -/
def State.pushMet (s : State) : Bool := match s.waitKind with
  | some (.push d) => (s.qdesc d.toNat).all (fun q => q.closed || decide (q.count < q.cap))
  | _ => false

/-- Whether a channel of the running context has room for a pending head (R282). -/
def State.kickMet (s : State) (n : Nat) : Bool := !(s.ctx.chan n).run || (s.ctx.chan n).pend.isNone

/-- Whether a channel of the running context is idle, or in ERROR with no pending head (R282). -/
def State.chanMet (s : State) (n : Nat) : Bool :=
  let k := s.ctx.chan n
  !(k.run || (k.err && k.pend.isSome))

/-- Whether the running context has a free send slot (R284). -/
def State.slotMet (s : State) : Bool := (List.range 32).any (fun i => (s.ctx.send i).vacant)

/-- Whether the wait of the running code is over, its condition met or its limit reached (R19, R37). -/
def State.waitOver (s : State) : Bool := match s.waitKind with
  | some (.counter _ _) => s.counterMet
  | some (.pop _ _ _) => s.popMet
  | some (.push _) => s.pushMet
  | some (.time _) => s.timeMet
  | some (.gutter _ _) => s.gutterMet
  | some (.version _ _ _) => s.versionMet
  | some (.creation _ _) => s.creationMet || s.creationLate s.ctx
  | some (.kick n) => s.kickMet n
  | some (.chanIdle n) => s.chanMet n
  | some .sendSlot => s.slotMet
  | some .part | some (.mirror _ _) | some .restored | some .source | some .full | some .wake | some .other | none => true

/-! ### Selection and parking (R19, R37, R334) -/

/-- Whether a wait may be parked (R37, R177, R181, R282, R284). -/
def Wait.parkable : Wait → Bool
  | .counter _ _ | .pop _ _ _ | .push _ | .time _ | .gutter _ _ | .version _ _ _ | .creation _ _
  | .kick _ | .chanIdle _ | .sendSlot => true
  | .part | .mirror _ _ | .restored | .source | .full | .wake | .other => false

/-- Whether a context is blocked in a parkable wait of its base code, with no cause to take. -/
def Ctx.blocked (c : Ctx) : Bool :=
  !c.inHandler && !c.hasCause && match c.base.wait with
    | some w => w.pc == c.pc && w.kind.parkable
    | none => false

/-- Whether a task may be parked as a whole: it runs and every unfinished member is blocked in a wait that
is not over (R19). (DEDUCED, log 42) -/
def State.mayPark (s : State) (t : Task) : Bool :=
  t.state == .running && t.members.all (fun m => match s.findCtx m with
    | some c => c.blocked && !(s.focus m).waitOver
    | none => true)

/-- Parks a task: its members give up their cores, a park is counted (R19, R308). -/
def State.park (s : State) (t : Task) : State :=
  let s1 := t.members.foldl (State.displace []) s
  (s1.putTask { t with state := .parked }).pmcAdd t.vdn 15 1

/-- Parks what may be parked on the cores of a partition on a die. -/
def State.parkAll (s : State) (p die : Nat) : State :=
  ((s.tasks.filter (fun t => t.runPart == p && t.die == die && s.mayPark t)).map Task.id).foldl (fun s id =>
    match s.findTask id with
    | some t => s.park t
    | none => s) s

/-- Whether the running code's wait, of a kind that no event of the table ends, is over. -/
def State.quietMet (s : State) : Bool := match s.waitKind with
  | some (.push _) | some (.kick _) | some (.chanIdle _) | some .sendSlot => s.waitOver
  | _ => false

/-- A parked push, kick, wait for a channel or wait for a send slot that is over makes its task READY (R37,
R181, R282, R284). (DEDUCED, log 42) -/
def State.wakeParked (s : State) (p die : Nat) : State :=
  (s.tasks.filter (fun t => t.runPart == p && t.die == die && t.state == .parked && t.members.any (fun m =>
    (s.focus m).quietMet))).foldl State.readyTask s

/-- Places a context that belongs to no task, saved and not held, on the lowest idle core of its partition
that takes it, in its device's slice (R319, R383, R385); one whose area is lost is held for good (R357).
(DEDUCED, log 42) -/
def State.placeLoose (s : State) (p die : Nat) : State :=
  ((s.allCtxs.filter (fun c => c.task.isNone && c.place == .memory && !c.held && !c.halted && c.part.toNat == p &&
      (c.level == .steward || s.deviceMayRun p c.vdn.toNat))).map Ctx.id).foldl (fun s id =>
    match s.findCtx id with
    | none => s
    | some c =>
      if s.areaLost c then s.loseCtx c
      else match (s.coresOf p).find? (fun k => dieOf k == die && s.idle k &&
          (s.coreSlot k).fits c.spbanks c.l1size.toNat (c.fullt || c.regabs) c.liveMask) with
      | some k => s.placeCtx id k (s.logical p k)
      | none => s) s

/-- The partition on whose cores a context belongs. -/
def State.homePart (s : State) (c : Ctx) : Nat := match c.task.bind s.findTask with
  | some t => t.runPart
  | none => c.part.toNat

/-- Whether a bank of a context holds an entry under way that can go on, which a stop and the opening of a handler wait
for: a started L, V or S entry, unless it waits for a lock, for room in the matrix-feed slot or for the mask in use; an
owed push with room in its FIFOs; lines in part (R22, R147, R348, R351, R355). (DESIGN CHOICE, log 10) -/
def State.goesOn (s : State) (c : Ctx) (b : RegBank) : Bool :=
  let owed (e : Eng) : Bool := (b.queue e).head?.any (fun en =>
    en.pushOwed && (b.fifo.push (pushesOf e (decTok (encode en.instr)))).isSome)
  let stays (en : Entry) : Bool := (en.stall == .lock && c.tiles.any (fun t => t.2.lock)) || (match en.instr with
    | .lfeed _ => decide (16 ≤ c.feed.length)
    | .lmask _ => (s.focus c.id).maskInUse
    | _ => false)
  let started (e : Eng) : Bool := e != .x && ((b.queue e).find? (fun en => !en.pushOwed)).any (fun en =>
    en.popsTaken && !stays en)
  !b.lateCells.isEmpty || [Eng.l, Eng.x, Eng.v, Eng.s].any (fun e => owed e || started e)

/-- Whether the running code's own bank holds such an entry. -/
def State.underWay (s : State) : Bool := s.goesOn s.ctx s.bank

/-- Whether a context may be taken off its core: no handler of it or of its crew is open, and no entry under way
(R19, R22, R352). -/
def State.movable (s : State) (c : Ctx) : Bool :=
  let still (x : Ctx) : Bool := !x.inHandler && !(s.running x && s.goesOn x x.base)
  still c && (c.task.bind s.findTask).all (fun t => t.members.all (fun m => (s.findCtx m).all still))

/-- Pre-empts a resident context, its crew with it, and writes it out (R336, R378). -/
def State.evict (s : State) (id : Nat) : State :=
  match s.findCtx id with
  | none => s
  | some c =>
    let s1 := match c.task.bind s.findTask with
      | some t => if t.state = TState.running then s.preemptTask [] t else s
      | none => s
    s1.leaveCore id

/-- Takes every context off the cores that have passed to another partition (R378). (DEDUCED, log 43) -/
def State.evictStrangers (s : State) : State :=
  ((s.allCtxs.filter (fun c => c.resident && s.movable c && s.ownerOf c.core != s.homePart c)).map Ctx.id).foldl
    State.evict s

/-- A member that runs on only because its handler was open when its crew stopped (R19); one with PREEMPT pending is
saved under that (R352). -/
def State.straggles (s : State) (c : Ctx) : Bool :=
  s.running c && !c.inHandler && !c.preemptPending && (c.task.bind s.findTask).any (fun t => t.state == .ready)

/-- Stops such members once their handlers have ended (R19, R336). (DEDUCED, log 42) -/
def State.stopStragglers (s : State) : State :=
  ((s.allCtxs.filter s.straggles).map Ctx.id).foldl (State.displace []) s

/-- One offer of a partition's cores on a die (R334, R37): parked waits that are over are READY; where READY tasks stay unplaced, blocked tasks
are parked and the selection runs again. (DEDUCED, log 42) -/
def State.offer (s : State) (p die : Nat) : State :=
  let s1 := ((s.stopStragglers.wakeParked p die).evictStrangers.placeLoose p die).select p die
  if s1.tasks.any (s1.mayConsider p die) then (s1.parkAll p die).select p die else s1

/-- SCHEDULER_SELECTION (R334). -/
def execSchedulerSelection (p die : Nat) (s : State) : Host.Outcome State Fault Refusal :=
  .next (if (s.die die).alive = true ∧ s.partEnabled p = true then s.offer p die else s)

/-! ### Misses, progress, budgets (R338 to R340) -/

/-- A miss's action (R339). -/
def State.missAction (s : State) (t : Task) : State := match t.miss with
  | 0 => if t.dispatched then
      t.members.foldl (fun s m => s.post m { code := cDEADLINE, sub := 0#8, val := BitVec.ofNat 64 t.sched, unit := 0, ch := 0 }) s
    else s
  | 1 => s.completeTask t.id 3
  | _ => s.raiseLevel t

/-- DEADLINE_MISS: once, when package time has reached the scheduling deadline (R339). -/
def execDeadlineMiss (t : Nat) (s : State) : Host.Outcome State Fault Refusal :=
  match s.findTask t with
  | none => .next s
  | some k => .next (if k.state ≠ .complete ∧ k.missed = false ∧ k.sched ≤ s.now then
      (s.putTask { k with missed := true }).missAction { k with missed := true } else s)

/-- Whether a member's progress interval has run out and its expiry is not yet reported (R32, R340).
(DEDUCED, log 23) -/
def Ctx.expired (c : Ctx) : Bool := c.progT == 0 && !(c.posted.any (fun p => p.code == cPROGRESS))

/-- PROGRESS: the first expiry of a member is posted; the second kills the task as HUNG and raises its
queue's level (R32, R340). Of a persistent crew each member has an interval and a count of its own: its own events
restart it, and the second expiry of any member kills the task. (DEDUCED, log 23) (DESIGN CHOICE, log 54) -/
def execProgress (t : Nat) (s : State) : Host.Outcome State Fault Refusal :=
  match s.findTask t with
  | none => .next s
  | some k =>
    let due := (k.members.filterMap s.findCtx).filter Ctx.expired
    .next (if k.prog = 0 ∨ due.isEmpty = true ∨ (k.state ≠ .running ∧ k.state ≠ .parked) then s
      else if due.any (fun c => c.progX != 0) then (s.completeTask t 4).raiseLevel k
      else due.foldl (fun s c => s.mapCtx c.id (fun x =>
        ({ x with progX := 1 } : Ctx).post { code := cPROGRESS, sub := 0#8, val := BitVec.ofNat 64 k.prog, unit := 0, ch := 0 })) s)

/-- BUDGET_OVERRUN: once, when a task has held a core for more than its budget (R338). -/
def execBudgetOverrun (t : Nat) (s : State) : Host.Outcome State Fault Refusal :=
  match s.findTask t with
  | none => .next s
  | some k => .next (if k.state ≠ .complete ∧ k.overTold = false ∧ k.budgetNow < k.used then
      (s.putTask { k with overTold := true }).event k.die 0x03 k.part k.vdn k.record.toNat k.used else s)

/-- ADMISSION_EVALUATION: 64 µs after the last one of its die at the earliest, a partition's levels are evaluated by
its lowest live die (R338). (DEDUCED, log 29) -/
def execAdmissionEvaluation (p die : Nat) (s : State) : Host.Outcome State Fault Refusal :=
  let key := 2 * p + die
  let first := die == 0 || !(s.die 0).alive
  .next (if (s.die die).alive = true ∧ s.partEnabled p = true ∧ first = true ∧
      Sparse.get (fun _ => 0) s.admAt key + 64000 ≤ s.now then
    ({ s with admAt := Sparse.set (fun _ => 0) s.admAt key s.now } : State).admission p else s)

/-! ### The quarantine rotation (R397) -/

/-- READY quarantined tasks of a demoted queue. -/
def State.readyOf (s : State) (h : Nat × Nat) : List Task :=
  s.tasks.filter (fun t => t.cls == 3 && t.state == .ready && t.hostq == some h)

/-- The next demoted queue with READY tasks, in order of demotion, after the current one. -/
def State.nextDemoted (s : State) : Option Nat :=
  let n := s.demoted.length
  ((List.range n).map (fun i => (s.demCur + 1 + i) % n)).find? (fun i =>
    i != s.demCur && (s.demoted[i]?).any (fun h => !(s.readyOf h).isEmpty))

/-- QUARANTINE_ROTATION: when the current queue has none READY, or after 1 ms, the next one takes the cores
of partition 15; what runs there is pre-empted, once no handler is open (R336, R397). (DEDUCED, log 42) -/
def execQuarantineRotation (die : Nat) (s : State) : Host.Outcome State Fault Refusal :=
  let due := decide (s.demAt + 1000000 ≤ s.now) || (s.demoted[s.demCur]?).all (fun h => (s.readyOf h).isEmpty)
  let runs := s.tasks.filter (fun t => t.cls == 3 && t.state == .running)
  let open_ := runs.any (fun t => t.members.any (fun m => (s.findCtx m).any Ctx.inHandler))
  match s.nextDemoted with
  | none => .next s
  | some i => .next (if due = false ∨ open_ = true ∨ (s.die die).alive = false then s
      else
        let s1 := runs.foldl (fun s t => s.preemptTask [] t) s
        let s2 : State := { s1 with demCur := i, demAt := s1.now }
        (s2.select 15 0).select 15 1)

/-! ### Time slices (R383) -/

/-- Replaces the slice of a partition. -/
def State.setSlice (s : State) (p : Nat) (x : Option SliceSt) : State :=
  { s with slices := Sparse.set (fun _ => none) s.slices p x }

/-- The tenant contexts of a device that hold a resident slot. -/
def State.residents (s : State) (v : Nat) : List Ctx :=
  s.allCtxs.filter (fun c => c.resident && c.level == .tenant && c.vdn.toNat == v && !c.halted)

/-- PREEMPT is posted to a resident context; one that does not run has been pre-empted already and is
written out (R352, R383). -/
def State.sliceOut (till : Nat) (s : State) (c : Ctx) : State :=
  if s.running c then s.post c.id { code := cPREEMPT, sub := 0#8, val := BitVec.ofNat 64 till, unit := 0, ch := 0 }
  else (s.mapCtx c.id (fun x => { x with sliced := true })).leaveCore c.id

/-- SLICE_END: the current device's slice has run its length (R383). -/
def execSliceEnd (p : Nat) (s : State) : Host.Outcome State Fault Refusal :=
  match s.slice p with
  | none => .next s
  | some x =>
    let till := x.start + 1000 * s.cfgField (0x5C0 + x.vdn) 36 20
    .next (if x.ended = false ∧ 1 < (s.devicesOf p).length ∧ till ≤ s.now then
      (s.residents x.vdn).foldl (State.sliceOut till) (s.setSlice p (some { x with ended := true })) else s)

/-- The device whose turn follows: the next in ascending order, the first after the last (R383). -/
def nextDevice (vs : List Nat) (v : Nat) : Option Nat := (vs.find? (fun w => decide (v < w))).orElse (fun _ => vs.head?)

/-- SLICE_START: the first device's slice, once what the others left resident is saved, or the next one's once the
contexts of the last are saved (R383). -/
def execSliceStart (p : Nat) (s : State) : Host.Outcome State Fault Refusal :=
  let vs := s.devicesOf p
  if vs.length ≤ 1 then .next (s.setSlice p none)
  else match s.slice p with
    | none =>
      let others := (vs.drop 1).flatMap s.residents
      .next (if others.isEmpty then s.setSlice p (vs.head?.map (fun v => { vdn := v, start := s.now, ended := false }))
        else others.foldl (State.sliceOut s.now) s)
    | some x =>
      let past := x.ended || !vs.contains x.vdn
      let s1 := if past then ((s.residents x.vdn).filter (fun c => !s.running c)).foldl (State.sliceOut s.now) s else s
      .next (if past = true ∧ (s1.residents x.vdn).isEmpty = true then
        s1.setSlice p ((nextDevice vs x.vdn).map (fun v => { vdn := v, start := s.now, ended := false })) else s1)

/-! ### What waits are given at their homes (R33, R107, R109, R124) -/

/-- Whether a context waits: it runs, or its task is parked (R19, R22). -/
def State.awaits (s : State) (c : Ctx) : Bool :=
  s.running c || (c.task.bind s.findTask).any (fun t => t.state == .parked)

/-- A counter that has reached what a context waits for satisfies the wait for good (R124). -/
def State.giveCounter (s : State) (c : Ctx) : Ctx := match c.bank.wait with
  | some w => (match w.kind with
    | .counter pa need =>
      if w.pc = c.pc ∧ s.awaits c = true ∧ w.given = .nothing ∧ need.toNat ≤ s.natAt pa 8 then
        c.setBank { c.bank with wait := some { w with given := .met } }
      else c
    | _ => c)
  | none => c

/-- The waiters of a queue, the one that comes first at the head (R33). -/
def State.popWaiters (s : State) (pa : Nat) : List Ctx := sortBy s.waiterBefore (s.allCtxs.filter (s.popWaiter pa))

/-- The agent for which a waiting pop takes its entry: the core it is resident on, else its task's die.
(DESIGN CHOICE, log 49) -/
def State.popper (s : State) (c : Ctx) : Who :=
  if c.resident then .core c.core else .die ((c.task.bind s.findTask).elim 0 Task.die)

/-- A context's wait with something given to it. -/
def Ctx.giveWait (c : Ctx) (w : WaitSt) (g : Given) : Ctx := c.setBank { c.bank with wait := some { w with given := g } }

/-- An entry reaches the running context's wait: a bound register holds it, acquired and counted as progress (R32,
R129, R156); a QPOP's wait keeps it. -/
def State.receive (s : State) (w : WaitSt) (bound : Option Nat) (v : SReg) : State := match bound with
  | some n =>
    let s1 := s.acquireAll.progressEvent
    s1.setCtx ((s1.ctx.setQbind n { s1.ctx.qbind n with held := some v }).giveWait w .met)
  | none => s.setCtx (s.ctx.giveWait w (.entry v))

/-- The oldest entry of a queue to its first waiter, and on while there are both (R33). A waiter that the scope record
does not accept goes on to meet its SCOPE_MISMATCH, and the entry to the next (R132); one whose ring slot does not
translate meets that at its own pop. (DESIGN CHOICE, log 49) -/
def State.giveEntries (pa : Nat) : Nat → State → State
  | 0, s => s
  | n + 1, s => match s.qdesc pa, (s.popWaiters pa).head? with
    | some q, some c =>
      if q.count = 0 then s
      else match c.bank.wait with
        | none => s
        | some w => match w.kind with
          | .pop _ b sc =>
            if !s.scopeOk (s.popper c) sc.toNat q.pa then State.giveEntries pa n (s.putCtx (c.giveWait w .met))
            else match (s.focus c.id).takeEntry (s.popper c) q sc.toNat with
            | .error _ => s
            | .ok (s1, v) => State.giveEntries pa n ((s1.receive w b v).focus s.ctx.id)
          | _ => s
    | _, _ => s

/-- The queues on which contexts wait to pop, by the physical address of their descriptors. -/
def State.poppedQueues (s : State) : List Nat :=
  (s.allCtxs.filterMap (fun c => match c.bank.wait.map WaitSt.kind with
    | some (.pop d _ _) => some d.toNat
    | _ => none)).dedup

/-! ### Creations that wait for room (R103) -/

/-- The address at which base code, or the innermost handler's interrupted code, goes on. -/
def Ctx.basePc (c : Ctx) : Word := if c.thnd then c.tepc else if c.shnd then c.sepc else c.pc

/-- A reservation that a wait of base code holds and that its code will not come back to: a handler has moved TEPC or
SEPC (R103, R343). -/
def State.dropStale (s : State) (id : Nat) : State := match s.findCtx id with
  | none => s
  | some c => match c.base.wait with
    | some w =>
      if w.pc = c.basePc ∨ c.base.creations = [] then s
      else s.onCtx id (fun s =>
        let t := s.unreserveAll s.ctx.base.creations
        { t with ctx := { t.ctx with base := { t.ctx.base with wait := none } } })
    | none => s

/-- Gives a context's waiting creation its room, where there is room within its limit: its version is reserved (R103).
(DEDUCED, log 65) -/
def State.giveRoom (s : State) (id : Nat) : State := match s.findCtx id with
  | none => s
  | some c => match c.bank.wait with
    | some w => (match w.kind with
      | .creation va v => match s.attached c va.toNat with
        | some r =>
          let i := r.index va.toNat
          if w.pc = c.pc ∧ w.given = .nothing ∧ c.held = false ∧ s.creationLate c = false ∧ s.createCheck r i v = .ok then
            (s.putRegion (r.reserve i v (r.verScope 4) (s.popper c))).putCtx (c.giveWait w .met)
          else s
        | none => s
      | _ => s)
    | none => s

/-- Whether a wait of a copy record for room has reached its limit (R103). -/
def Chan.late (now : Nat) (k : Chan) : Bool := match k.phase with
  | .version since lim => lim != 0 && decide (since + lim ≤ now)
  | _ => false

/-- The sector and version of the publication's next creation. -/
def Chan.nextSector (k : Chan) : Option (Nat × Nat) := match k.fetched with
  | none => none
  | some f => (f.maps.dst.bind (fun m => m.addr k.elems)).map (fun a => (a / 256 * 256, bitsOf f.head.toNat 384 32))

/-- A channel's publication that waits for room within its limit goes on where there is room now (R103).
(DEDUCED, log 65) -/
def State.giveChanRoom (s : State) (c n : Nat) : State :=
  if !s.copierUp c then s
  else s.asCopier c (fun s =>
    let k := s.ctx.chan n
    match k.phase, k.nextSector with
    | .version _ _, some (a, v) => match s.attached s.ctx a with
      | some r => if k.late s.now || s.createCheck r (r.index a) v == .full then s else s.runRecord n []
      | none => s
    | _, _ => s)

/-- The first held creation of a connection is tried again; it keeps its place where it still waits.
(DEDUCED, log 40) -/
def State.retryHold (s : State) (h : BitVec 32) : State :=
  match s.netHolds.find? (fun x => x.handle == h) with
  | none => s
  | some x =>
    if s.vdPaused (s.conn (h.toNat % 2 ^ 15)).vdn then s
    else
      let rest := s.netHolds.erase x
      let s1 := ({ s with netHolds := rest } : State).landRegion x
      match s1.netHolds.drop rest.length with
      | y :: _ => { s1 with netHolds := y :: rest }
      | [] => s1

/-- Whether a held creation's wait has reached its limit (R103). -/
def NetHold.late (now : Nat) (x : NetHold) : Bool :=
  x.begun && decide (x.got < x.bytes.length / 256) && decide (x.since + 1000000 ≤ now)

/-- A held creation of a connection is given up, 1,000 µs after its wait began, be its device paused or not
(R103, R403). (DEDUCED, log 40) -/
def State.dropHold (s : State) (h : BitVec 32) : State :=
  match s.netHolds.find? (fun x => x.handle == h) with
  | none => s
  | some x => if !x.late s.now then s
    else (({ s with netHolds := s.netHolds.erase x } : State).unreserveHold x).rxDiscard h 1

/-- The first held creation of a connection that has begun to wait, and is within its limit, is tried again where there
is room now (R103). (DEDUCED, log 65) -/
def State.giveHoldRoom (s : State) (h : BitVec 32) : State :=
  match s.netHolds.find? (fun x => x.handle == h) with
  | none => s
  | some x =>
    let cn := s.conn (h.toNat % 2 ^ 15)
    if !x.begun || x.late s.now || decide (x.bytes.length / 256 ≤ x.got) then s
    else match s.regionAt (s.vdPart cn.vdn) cn.base.toNat with
      | some r => if s.createCheck r (cn.sector + x.got) (x.word.setWidth 32).toNat = .full then s else s.retryHold h
      | none => s.retryHold h

/-- The contexts that wait for a creation's room, the longest first. -/
def State.creators (s : State) : List Ctx :=
  sortBy (fun (a b : Ctx) => decide ((a.bank.wait.map WaitSt.since).getD 0 < (b.bank.wait.map WaitSt.since).getD 0))
    (s.allCtxs.filter (fun c => (c.bank.wait.map WaitSt.kind).any (fun k => match k with
      | .creation _ _ => true
      | _ => false)))

/-- The channels whose publications wait for room. -/
def State.chanWaits (s : State) : List (Nat × Nat) :=
  let waits (k : Chan) : Bool := k.run && (match k.phase with
    | .version _ _ => true
    | _ => false)
  s.allCtxs.flatMap (fun c => (c.chans.filter (fun e => waits e.2)).map (fun e => (c.id, e.1))) ++
    (s.hostChans.filter (fun e => waits e.2.chan)).map (fun e => (2 ^ 64 + e.1, 0))

/-- Every creation that waits, and finds room now, has it: of contexts, of channels, of connections (R103).
(DEDUCED, log 65) -/
def State.giveCreations (s : State) : State :=
  let s0 := (s.allCtxs.map Ctx.id).foldl State.dropStale s
  let s1 := (s0.creators.map Ctx.id).foldl State.giveRoom s0
  let s2 := s1.chanWaits.foldl (fun (s : State) x => s.giveChanRoom x.1 x.2) s1
  ((s2.netHolds.map NetHold.handle).dedup).foldl State.giveHoldRoom s2

/-- The switch of a task that has retired a YIELD in a handler, made once none of its handlers is open (R172, R352).
(DESIGN CHOICE, log 53) -/
def State.endYield (s : State) (t : Task) : State :=
  if t.state = .running ∧ s.inHandlers t = true then s
  else
    let k := { t with yielded := false }
    let s1 := s.putTask k
    match t.members with
    | [m] => if t.state = .running then s1.onCtx m (fun s => s.yieldSwitch k) else s1
    | _ => s1

/-- The same of every such task. -/
def State.endYields (s : State) : State := (s.tasks.filter Task.yielded).foldl State.endYield s

/-- What every step ends with: counters, sectors and queues give what their waiters wait for, and room is given to the
creations that wait for it (R33, R103, R107, R109, R124). (DEDUCED, log 65) -/
def State.settle (s0 : State) : State :=
  let s := s0.endYields.giveCreations
  let s1 : State := { s with ctx := (s.giveCounter s.ctx).lateDrops, ctxs := s.ctxs.map (fun c => (s.giveCounter c).lateDrops) }
  let s2 := s1.regions.foldl (fun (s : State) r => (r.secs.filter (fun e => !e.2.waiters.isEmpty)).foldl (fun (s : State) e =>
    s.giveLoads r.part r.base e.1 e.2.waiters.length) s) s1
  s2.poppedQueues.foldl (fun (s : State) pa => State.giveEntries pa (s.ctxs.length + 1) s) s2

end Sys2Proof.Machine
end

