-- ==== Sys2Proof/Machine/Events.lean ====
section
/-! DEFINITION. Events of a context: the forced save, pending causes, wakes of banks, waits that are met or
time out (R19, R22, R33, R54, R55, R103, R109, R127, R177, R218, R345, R351). An event whose condition
does not hold changes nothing. -/

namespace Sys2Proof.Machine

/-! ### The forced save and pending causes (R345, R351) -/

/-- The running context's tenant handler is ended by a forced save: what its shelves still hold, none of it under way,
is discarded, with the room that its creations hold; the context is written with FORCED, and with SLICED where PREEMPT is
due, and held where a CTXSAVE waited; its crew stops with it (R19, R318, R351, R352). (DESIGN CHOICE, log 10) -/
def State.forceSave (sa : State) : State :=
  let s := sa.unreserveAll sa.ctx.tbank.creations
  let code := s.ctx.tcause.toNat % 256
  let slice := s.ctx.sliceDue
  let c := s.ctx.fillAll
  let s1 : State := { s with ctx := { c with
    thnd := false, tbudget := 0, tbank := RegBank.entry, pc := c.tepc, forced := true, sliced := slice
    held := c.held || c.saveReq
    posted := if slice then c.posted.filter (fun p => p.code != cPREEMPT) else c.posted } }
  let s2 := s1.ctxEvent 0x04 s.ctx.id code
  let s3 := if slice then s2.countStop s2.ctx else s2
  (((s3.saveFocus).vacate s.ctx.id).stopCrew s.ctx.task).taskReady s.ctx.task

/-- The forced save at a boundary: once what the shelves have under way is done (R351). -/
def State.forceEnd (s : State) : State := if s.underWay then s else s.forceSave

/-- Whether a context's tenant handler is at its end: TBUDGET is used up and no steward handler stands above
(R351). -/
def Ctx.spent (c : Ctx) : Bool := c.thnd && !c.shnd && c.tbudget == 0

/-- FORCED_SAVE (R351). -/
def execForcedSave (c : Nat) (s : State) : Host.Outcome State Fault Refusal :=
  match s.findCtx c with
  | none => .next s
  | some x => .next (if x.spent = true ∧ s.running x = true then s.onCtx c State.forceEnd else s)

/-- TAKE_PENDING_CAUSE: a running context at its boundary (R345). -/
def execTakePendingCause (c : Nat) (s : State) : Host.Outcome State Fault Refusal :=
  match s.findCtx c with
  | none => .next s
  | some x => .next (if x.hasCause = true ∧ s.running x = true then s.onCtx c State.takePending else s)

/-! ### Bank wakes (R54, R55, R58) -/

/-- BANK_WAKE_COMPLETE (R55). -/
def execBankWakeComplete (c : Nat) (pad : Bool) (idx : Nat) (s : State) : Host.Outcome State Fault Refusal :=
  .next (s.mapCtx c (fun x => if pad then x.padWoken idx else x.tileWoken idx))

/-! ### Waits (R19, R22) -/

/-- A waiting context's turn: a running one carries its instruction on; a parked one, its wait met, makes
its task READY (R19, R22, R333). -/
def State.carryOn (s : State) (c : Nat) (kind : Wait → Bool) (met : State → Bool) (go : State → State) : State :=
  match s.findCtx c with
  | none => s
  | some x =>
    if !((x.bank.wait).any (fun w => w.pc == x.pc && kind w.kind)) then s
    else if s.running x then (if x.hasCause || x.spent then s else s.onCtx c go)
    else s.onCtx c (fun s => if met s then s.unpark c else s)

/-- CWAIT_SATISFIED (R127). -/
def execCwaitSatisfied (c : Nat) (s : State) : Host.Outcome State Fault Refusal :=
  .next (s.carryOn c (fun k => match k with
    | .counter _ _ => true
    | _ => false) State.counterMet (fun s => match s.waiting with
      | some (.cwait f) => if s.counterMet then cwaitRun f s else s
      | _ => s))

/-- A waiting pop receives: QPOP as its instruction says, a bound register into its held entry (R33,
R156). -/
def State.deliver (s : State) : State := match s.waitKind with
  | some (.pop _ (some n) _) =>
    let b := s.ctx.qbind n
    if b.held.isSome then s.endWait
    else match s.popQueue (b.desc.getD 0#64) b.scope.toNat with
    | .entry s1 v => ((s1.setCtx (s1.ctx.setQbind n { b with held := some v })).endWait).progressEvent
    | .ended s1 => ((({ s1 with ctx := { s1.ctx.setQbind n { b with held := some SReg.zero } with
        qterm := s1.ctx.qterm ||| BitVec.ofNat 4 (2 ^ n) } } : State)).endWait).progressEvent
    | .trap s1 c => s1.fault c
    | _ => s
  | some (.pop _ none _) => match s.waiting with
    | some (.qpop f) => qpopRun f s
    | _ => s
  | _ => s

/-- QUEUE_ENTRY_DELIVERED (R33). -/
def execQueueEntryDelivered (c : Nat) (s : State) : Host.Outcome State Fault Refusal :=
  .next (s.carryOn c (fun k => match k with
    | .pop _ _ _ => true
    | _ => false) State.popMet (fun s => if s.popMet then s.deliver else s))

/-- WAITT_EXPIRY (R177). -/
def execWaittExpiry (c : Nat) (s : State) : Host.Outcome State Fault Refusal :=
  .next (s.carryOn c (fun k => match k with
    | .time _ => true
    | _ => false) State.timeMet (fun s => match s.waiting with
      | some (.waitt f) => waittRun f s
      | _ => s))

/-- GWAIT_SATISFIED (R218). -/
def execGwaitSatisfied (c : Nat) (s : State) : Host.Outcome State Fault Refusal :=
  .next (s.carryOn c (fun k => match k with
    | .gutter _ _ => true
    | _ => false) State.gutterMet (fun s => match s.waiting with
      | some (.gwait f) => gwaitRun f s
      | _ => s))

/-! ### Version waits (R107, R109) -/

/-- Whether a context's version wait, recorded at its sector, has been given what R107 finds for it (R109). -/
def Ctx.versionGiven (c : Ctx) : Bool := (c.bank.wait).any (fun w => match w.given with
  | .line _ | .missing => true
  | _ => false)

/-- Whether an unrecorded load's next retry has come (R109). -/
def Ctx.retryDue (c : Ctx) (now : Nat) : Bool := (c.bank.wait).any (fun w => match w.given with
  | .retry t => decide (t ≤ now)
  | _ => false)

/-- A waiting version load is performed again. -/
def State.versionAgain (s : State) (c : Nat) : State :=
  s.carryOn c (fun k => match k with
    | .version _ _ _ => true
    | _ => false) State.versionMet (fun s => match s.waiting with
      | some (.vld f) => vldRun f s
      | some (.vlds f) => vldsRun f s
      | _ => s)

/-- VERSION_WAIT_WAKE: a recorded waiter goes on with what it has been given (R109). -/
def execVersionWaitWake (c : Nat) (s : State) : Host.Outcome State Fault Refusal :=
  match s.findCtx c with
  | none => .next s
  | some x => .next (if x.versionGiven then s.versionAgain c else s)

/-- VERSION_WAIT_RETRY: an unrecorded one, 512 ns or more after it last looked (R109). (DEDUCED, log 40) -/
def execVersionWaitRetry (c : Nat) (s : State) : Host.Outcome State Fault Refusal :=
  match s.findCtx c with
  | none => .next s
  | some x => .next (if x.retryDue s.now then s.versionAgain c else s)

/-! ### Creations that wait for room (R103) -/

/-- A copy record whose creation has waited for its limit ends with code 11 (R103, R280). -/
def State.lateRecord (s : State) (ch : Nat) : State :=
  if (s.ctx.chan ch).late s.now then
    match s.curRecord ch with
    | some (a, h) => s.endRecord ch a h ((s.ctx.chan ch).ending 11 0)
    | none => s.lostRecord ch
  else s

/-- CREATION_RETRY (R103): a creation whose limit has elapsed fails. -/
def execCreationRetry (who : Creator) (s : State) : Host.Outcome State Fault Refusal :=
  .next (match who with
    | .ctx c => s.carryOn c (fun k => match k with
        | .creation _ _ => true
        | _ => false) State.creationMet (fun s => match s.waiting with
          | some (.vst f) => vstRun f s
          | some (.vsts f) => vstsRun f s
          | _ => s)
    | .channel c ch => if s.copierUp c then s.asCopier c (fun s => match (s.ctx.chan ch).phase with
        | .version _ _ => if (s.ctx.chan ch).late s.now then s.lateRecord ch else s.runRecord ch []
        | _ => s) else s
    | .network h => if (s.netHolds.find? (fun x => x.handle == h)).any (NetHold.late s.now) then s.dropHold h
      else s.retryHold h)

/-- VERSION_TIMEOUT (R103): the waiting instruction faults, the record ends with code 11, the message is
discarded. -/
def execVersionTimeout (who : Creator) (s : State) : Host.Outcome State Fault Refusal :=
  .next (match who with
    | .ctx c => s.carryOn c (fun k => match k with
        | .creation _ _ => true
        | _ => false) (fun s => s.creationLate s.ctx) (fun s => match s.waitKind with
          | some (.creation va _) => if s.creationLate s.ctx then s.fault (sectorCause cVTIMEOUT va.toNat) else s
          | _ => s)
    | .channel c ch => if s.copierUp c then s.asCopier c (fun s => s.lateRecord ch) else s
    | .network h => s.dropHold h)

end Sys2Proof.Machine
end

