-- ==== Sys2Proof/Machine/Partition.lean ====
section
/-! DEFINITION. The partition commit: its checks, what a commit changes, pauses and guest time (R29, R322,
R324, R370 to R378, R382 to R387, R416, R420, R421). -/

namespace Sys2Proof.Machine

/-! ### A configuration to check (R371 to R374, R382) -/

/-- A register of a configuration. -/
abbrev Config2 := Nat → Nat

/-- The configuration a staged copy holds. -/
def configOf (m : Sparse Word) : Config2 := fun n => (Sparse.get cfgReset m n).toNat

/-- Whether a partition is enabled: 0 and 15 always are (R371). -/
def cfgEnabled (g : Config2) (p : Nat) : Bool := p == 0 || p == 15 || bitOf (g (0x400 + p)) 63

/-- The enabled partitions in ascending order. -/
def cfgParts (g : Config2) : List Nat := (List.range 16).filter (cfgEnabled g)

/-- The owner of a physical core (R370). -/
def cfgOwner (g : Config2) (k : Nat) : Nat := bitsOf (g (0x460 + clusterOf k)) (4 * (k % 16)) 4

/-- Whether a device is enabled on a partition (R382). -/
def cfgDevice (g : Config2) (v p : Nat) : Bool := bitOf (g (0x5C0 + v)) 63 && bitsOf (g (0x5C0 + v)) 56 4 == p

/-- Address and bytes of a partition's version heap (R374). -/
def cfgHeap (g : Config2) (p : Nat) : Nat × Nat := (bitsOf (g (0x680 + p)) 16 48 * 65536, bitsOf (g (0x680 + p)) 0 16 * 65536)

/-- Address and bytes of a partition's overflow list (R374). -/
def cfgOverflow (g : Config2) (p : Nat) : Nat × Nat := (bitsOf (g (0x690 + p)) 12 52 * 4096, bitsOf (g (0x690 + p)) 0 12 * 4096)

/-- Address and bytes of a partition's queue table (R373). -/
def cfgTable (g : Config2) (p : Nat) : Nat × Nat := (bitsOf (g (0x420 + p)) 8 56 * 256, 32 * bitsOf (g (0x420 + p)) 0 7)

/-- Address and bytes of a partition's save areas (R373). -/
def cfgAreas (g : Config2) (p : Nat) : Nat × Nat :=
  (bitsOf (g (0x430 + p)) 12 52 * 4096, Config.saveAreaBytes * bitsOf (g (0x430 + p)) 0 12)

/-- Whether a value lies in a range. -/
def between (lo v hi : Nat) : Bool := decide (lo ≤ v) && decide (v ≤ hi)

/-- Sum over a list. -/
def totalOf (l : List Nat) (f : Nat → Nat) : Nat := (l.map f).sum

/-! ### The checks (R376, R421) -/

/-- The registers that name owners: PCORE, PBATT, PHBM. -/
def ownerRegs : List Nat :=
  (List.range 40).map (0x460 + ·) ++ (List.range 128).map (0x500 + ·) ++ (List.range 32).map (0x580 + ·)

/-- Check 1: an owner that is not enabled. -/
def check1 (g : Config2) : Option Nat :=
  ownerRegs.find? (fun n => (List.range 16).any (fun i =>
    let p := bitsOf (g n) (4 * i) 4
    p != 0 && !cfgEnabled g p))

/-- The enabled cores of a die that partition 15 owns. -/
def State.quarCores (s : State) (g : Config2) (d : Nat) : List Nat :=
  (List.range Config.coresPerDie).map (320 * d + ·) |>.filter (fun k => cfgOwner g k == 15 && !(s.coreSlot k).disabled)

/-- Check 2 on one die: too few cores of partition 15 name the die's first register, too many the lowest
one that names one. -/
def State.check2On (s : State) (g : Config2) (d : Nat) : Option Nat :=
  let ks := s.quarCores g d
  if ks.length = 2 then none
  else if ks.length < 2 then some (0x460 + 20 * d)
  else ks.head?.map (fun k => 0x460 + clusterOf k)

/-- Partitions with cores on a die, in ascending order. -/
def State.partsOn (s : State) (g : Config2) (d : Nat) : List Nat :=
  (List.range 16).filter (fun p => (List.range Config.coresPerDie).any (fun i =>
    cfgOwner g (320 * d + i) == p && !(s.coreSlot (320 * d + i)).disabled))

/-- Check 3 on one die. -/
def State.check3On (s : State) (g : Config2) (d : Nat) : Option Nat :=
  let ps := s.partsOn g d
  if 128 < totalOf ps (fun p => bitsOf (g (0x400 + p)) 53 8) ∨ 4096 < totalOf ps (fun p => bitsOf (g (0x400 + p)) 40 13) then
    some (0x400 + ps.getLastD 0)
  else none

/-- Retired pages of a tier (R368, R417). -/
def State.retiredPages (s : State) (tier2 : Bool) : Nat :=
  (s.retired.filter (fun f => isTier2 (65536 * f) == tier2)).length

/-- Check 4: quotas against what is not retired. -/
def State.check4 (s : State) (g : Config2) : Option Nat :=
  let ps := cfgParts g
  if 16384 * Config.hbmGiB < 16384 * totalOf ps (fun p => bitsOf (g (0x410 + p)) 36 10) + s.retiredPages false ∨
      16384 * Config.tier2GiB < 16384 * totalOf ps (fun p => bitsOf (g (0x410 + p)) 46 11) + s.retiredPages true ∨
      64 < totalOf ps (fun p => bitsOf (g (0x410 + p)) 57 7) then
    some (0x410 + ps.getLastD 0)
  else none

/-- Check 5: two partitions that share an L2 way of a die. -/
def check5 (g : Config2) : Option Nat :=
  let ps := List.range 16
  (ps.find? (fun p => ps.any (fun q => q != p &&
    (bitsOf (g (0x410 + p)) 4 16 &&& bitsOf (g (0x410 + q)) 4 16 != 0 ||
     bitsOf (g (0x410 + p)) 20 16 &&& bitsOf (g (0x410 + q)) 20 16 != 0)))).map (0x410 + ·)

/-- Check 6: an enabled device's partition and slice. -/
def check6 (g : Config2) : Option Nat :=
  ((List.range 64).find? (fun v => bitOf (g (0x5C0 + v)) 63 &&
    !(between 1 (bitsOf (g (0x5C0 + v)) 56 4) 14 && between 100 (bitsOf (g (0x5C0 + v)) 36 20) 1000000))).map (0x5C0 + ·)

/-- Whether every field of a register lies in its range (R371 to R374). -/
def fieldsInRange (g : Config2) (n : Nat) : Bool :=
  let w := g n
  if 0x400 ≤ n ∧ n < 0x410 then
    between 0 (bitsOf w 61 2) 2 && between 0 (bitsOf w 53 8) 128 && between 0 (bitsOf w 40 13) 4096 &&
    between 1 (bitsOf w 30 10) 1000 && between 1 (bitsOf w 20 10) 1000 && between 1 (bitsOf w 4 16) 60000
  else if 0x410 ≤ n ∧ n < 0x420 then
    between 0 (bitsOf w 57 7) 64 && between 0 (bitsOf w 46 11) 1024 && between 0 (bitsOf w 36 10) 512
  else if 0x420 ≤ n ∧ n < 0x430 then between 0 (bitsOf w 0 7) 64
  else if 0x600 ≤ n ∧ n < 0x640 then w % 4096 == 0 && decide (w < 2 ^ 48)
  else true

/-- Check 7: a field out of range. -/
def check7 (g : Config2) : Option Nat :=
  ((List.range 1024).map (0x400 + ·)).find? (fun n => !fieldsInRange g n)

/-- The entry of a queue table (R373). -/
def State.tableEntry (s : State) (g : Config2) (p q : Nat) : Nat := s.natAt ((cfgTable g p).1 + 32 * q) 32

/-- Whether a queue table entry is well formed; one with EN = 0 is not looked at (R376 check 8). Its SPBANKS is what L1
leaves of 48 banks, less at most the 15 that a repair map may have removed from a core in use (R12, R82, R417).
(DEDUCED, log 43) -/
def entryOk (g : Config2) (p e : Nat) : Bool :=
  !bitOf e 0 || (between 0 (bitsOf e 2 2) 2 && bitsOf e 6 2 == 0 && cfgDevice g (bitsOf e 8 6) p && bitsOf e 14 2 == 0 &&
    between 33 (bitsOf e 18 6 + l1Banks (bitsOf e 16 2)) 48 && between 12 (bitsOf e 24 5) 24 && bitsOf e 29 3 == 0 &&
    bitsOf e 32 32 == 0 && bitsOf e 192 64 == 0)

/-- Check 8: a queue table, of any partition. -/
def State.check8 (s : State) (g : Config2) : Option Nat :=
  ((List.range 16).find? (fun p => (List.range (bitsOf (g (0x420 + p)) 0 7)).any (fun q =>
    !entryOk g p (s.tableEntry g p q)))).map (0x420 + ·)

/-- Whether two spans of bytes overlap. -/
def bytesMeet (a b : Nat × Nat) : Bool := decide (a.1 < b.1 + b.2) && decide (b.1 < a.1 + a.2) && a.2 != 0 && b.2 != 0

/-- Whether a span lies in HBM. -/
def inHbm (a : Nat × Nat) : Bool := a.2 == 0 || decide (a.1 + a.2 ≤ 2 ^ 39)

/-- Whether a partition's heap and list may not change: it holds region state or overflowed tasks (R376
check 9). -/
def State.heapBusy (s : State) (p : Nat) : Bool :=
  s.regions.any (fun r => r.part == p) || s.tasks.any (fun t => t.runPart == p && t.queued && t.overflow)

/-- Whether a heap (`list` false) or overflow list fails check 9: of the enabled partitions the list is long enough;
of all the place is right and, while it is in use, the same. -/
def State.fails9 (s : State) (g : Config2) (p : Nat) (list : Bool) : Bool :=
  let ps := List.range 16
  let me := if list then cfgOverflow g p else cfgHeap g p
  let reg := if list then 0x690 + p else 0x680 + p
  let hq := bitsOf (g (0x400 + p)) 40 13
  (list && cfgEnabled g p && hq != 0 && decide (128 * bitsOf (g (0x690 + p)) 0 12 ≤ 2 * hq)) ||
  !inHbm me ||
  ps.any (fun q => bytesMeet me (cfgTable g q) || bytesMeet me (cfgAreas g q) ||
    ((q != p || list) && bytesMeet me (cfgHeap g q)) || ((q != p || !list) && bytesMeet me (cfgOverflow g q))) ||
  (g reg != (s.cfg reg).toNat && s.heapBusy p)

/-- Check 9. -/
def State.check9 (s : State) (g : Config2) : Option Nat :=
  (((List.range 16).find? (fun p => s.fails9 g p false)).map (0x680 + ·)).orElse (fun _ =>
    ((List.range 16).find? (fun p => s.fails9 g p true)).map (0x690 + ·))

/-- The first check that fails, numbered from 1, with its register (R376, R421). (DEDUCED, log 43) -/
def State.configCheck (s : State) (g : Config2) : Option (Nat × Nat) :=
  let all : List (Option Nat) :=
    [check1 g, (s.check2On g 0).orElse (fun _ => s.check2On g 1), (s.check3On g 0).orElse (fun _ => s.check3On g 1),
     s.check4 g, check5 g, check6 g, check7 g, s.check8 g, s.check9 g]
  (all.mapIdx (fun i r => r.map (fun n => (i + 1, n)))).findSome? id

/-! ### What a commit changes -/

/-- The input of the measurement digest, PCSTAT as the commit leaves it among the registers (R420). -/
def State.configBytes (s : State) (g : Config2) : List Byte :=
  (List.range 1024).flatMap (fun i => bytesOfNat 8 (if i = 0x50 then s.pcstat.toNat else g (0x400 + i))) ++
  ((cfgParts g).filter (fun p => decide (1 ≤ p) && decide (p ≤ 14))).flatMap (fun p =>
    s.bytesAt (cfgTable g p).1 (cfgTable g p).2)

/-- An entry joins the measurement log; past 2,048 it is folded into the last (R416). -/
def logMeasurement (l : List (BitVec 512)) (d : BitVec 512) : List (BitVec 512) :=
  if l.length < 2048 then l ++ [d]
  else l.dropLast ++ [Config.shake256 (digestBytes (l.getLastD 0#512) ++ digestBytes d)]

/-- A queue table entry as configuration. -/
def qcfgOf (e : Nat) : QCfg :=
  { en := bitOf e 0, die := bitsOf e 1 1, cls := bitsOf e 2 2, lvl := bitsOf e 4 2, vd := bitsOf e 8 6
    l1 := bitsOf e 16 2, sp := bitsOf e 18 6, ssh := bitsOf e 24 5, tp := BitVec.ofNat 64 (bitsOf e 64 64)
    stack := BitVec.ofNat 64 (bitsOf e 128 64) }

/-- The queue tables as read at a commit (R376). -/
def State.readTables (s : State) (g : Config2) : Sparse QCfg :=
  (cfgParts g).foldl (fun m p => (List.range (bitsOf (g (0x420 + p)) 0 7)).foldl (fun m q =>
    Sparse.set (fun _ => QCfg.zero) m (64 * p + q) (qcfgOf (s.tableEntry g p q))) m) []

/-- A queue that the commit enables takes its entry's level, floor 0, with no event (R324, R421). -/
def State.enableQueues (old s : State) : State :=
  (List.range 16).foldl (fun (s : State) p => (List.range 64).foldl (fun (s : State) q =>
    if s.partEnabled p && s.queueOn p q && !(old.partEnabled p && old.queueOn p q) then
      s.setQlevel p q { level := (s.qcfg p q).lvl, floor := 0 }
    else s) s) s

/-- A committed offset of a device (R384). -/
def State.voffGoal (s : State) (v : Nat) : Int := (s.cfg (0x640 + v)).toInt

/-- Replaces the offset of a device in force. -/
def State.setVoff (s : State) (v : Nat) (x : Int) : State := { s with voff := Sparse.set (fun _ => 0) s.voff v x }

/-- A changed VDTOFF is applied at once where the change is forward and no context of the device is
resident; else guest time slews towards it (R384). (DEDUCED, log 43) -/
def State.applyOffsets (old s : State) : State :=
  (List.range 64).foldl (fun (s : State) v =>
    let now := Sparse.get (fun _ => (0 : Int)) s.voff v
    if old.voffGoal v ≠ s.voffGoal v ∧ now < s.voffGoal v ∧
        s.allCtxs.any (fun c => c.resident && c.level == .tenant && c.vdn.toNat == v) = false then
      s.setVoff v (s.voffGoal v)
    else s) s

/-- Holds a context of a paused device as CTXSAVE does (R318, R385). -/
def State.pauseCtx (s : State) (id : Nat) : State :=
  match s.findCtx id with
  | none => s
  | some c => match c.place with
    | .core _ => if s.movable c then s.holdCtx c else s
    | .memory => (s.mapCtx id (fun x => { x with held := true })).markHeld id
    | .nowhere => s

/-- A task of a paused device that stood in the heap has one of the entries kept for the pause (R374, R385). -/
def Task.pausedBy (v : Nat) (t : Task) : Task :=
  if t.vdn = v ∧ t.queued = true ∧ t.overflow = false then { t with overflow := true, paused := true } else t

/-- Brings a paused device to rest, its contexts as far as open handlers and entries under way let it: its tasks leave
the heap for the overflow list, and what its partition presents is kept for its return (R352, R385, R386). -/
def State.pauseDevice (s : State) (v : Nat) : State :=
  let s1 : State := { s with
    tasks := s.tasks.map (Task.pausedBy v)
    shapes := Sparse.set (fun _ => none) s.shapes v
      (some ((Sparse.get (fun _ => none) s.shapes v).getD (s.shapeOf (s.vdPart v)))) }
  ((s1.allCtxs.filter (fun c => c.level == .tenant && c.vdn.toNat == v && !c.halted)).map Ctx.id).foldl State.pauseCtx s1

/-- The guest time a device has returned last: the greatest SAVET of its contexts with its offset (R387). -/
def State.lastGuest (s : State) (v : Nat) : Int :=
  ((s.allCtxs.filter (fun c => c.level == .tenant && c.vdn.toNat == v && c.place == .memory)).foldl (fun n c =>
    max n c.savet) 0 : Nat) + s.voffGoal v

/-- Whether a context of a device may be placed when the device goes on: it has no task, or its crew is whole (R19,
R386). -/
def State.mayReturn (s : State) (v : Nat) (c : Ctx) : Bool :=
  c.level == .tenant && c.vdn.toNat == v && (c.task.bind s.findTask).all Task.whole

/-- A device goes on after a pause: its contexts may be placed again, its tasks return to the heap, its guest time is not
behind what it returned (R385, R387). Its connections have credit again; a creation that waited before the pause has
waited all along (R103). -/
def State.unpauseDevice (s : State) (v : Nat) : State :=
  let mine (c : Ctx) : Ctx := if s.mayReturn v c then { c with held := false } else c
  let s1 : State := { s with
    ctx := mine s.ctx, ctxs := s.ctxs.map mine, atRest := s.atRest.filter (fun w => w != v)
    tasks := s.tasks.map (fun t => if t.vdn = v then { t with paused := false } else t)
    shapes := Sparse.set (fun _ => none) s.shapes v none }
  let behind := (s1.now : Int) + Sparse.get (fun _ => (0 : Int)) s1.voff v < s1.lastGuest v
  if behind then s1.setVoff v (s1.lastGuest v - s1.now) else s1

/-- The devices whose PAUSE changed at the commit (R385). -/
def State.applyPauses (old s : State) : State :=
  (List.range 64).foldl (fun (s : State) v =>
    if s.vdPaused v && !old.vdPaused v then s.pauseDevice v
    else if old.vdPaused v && !s.vdPaused v then s.unpauseDevice v
    else s) s

/-- A context whose core the commit has renumbered has the new logical number (R290, R369). -/
def State.renumber (old s : State) (c : Ctx) : Ctx := match c.place with
  | .core k =>
    let p := s.homePart c
    if old.logical p k = s.logical p k then c else { c with lcore := BitVec.ofNat 16 (s.logical p k) }
  | _ => c

/-- What a live migration has brought of a paused device, beside its pages and its save areas: its region state, scope
records, tasks and counter bank, and the shape of the partition it left (R116, R309, R385, R386). The tasks keep their
order; the members that have not ended come with their areas. (DEDUCED, log 37) -/
def State.carried (s : State) (v : Nat) (c : Carried) : State :=
  if s.vdEnabled v && s.vdPaused v then
    let p := s.vdPart v
    { s with
      shapes := Sparse.set (fun _ => none) s.shapes v (some c.shape)
      regions := s.regions.filter (fun r => !(r.part == p && c.regions.any (fun x => x.base == r.base))) ++
        c.regions.map (fun r => { r with part := p })
      scopes := c.scopes.foldl (fun m e => Sparse.set (fun _ => none) m e.1 (some e.2)) s.scopes
      tasks := s.tasks ++ c.tasks.mapIdx (fun i t => { t with
        id := s.postSeq + i, part := p, vdn := v, members := [], slots := t.slots.filter (fun x => !t.members.contains x)
        overflow := true, paused := true })
      postSeq := s.postSeq + c.tasks.length
      pmc := (c.pmc.zipIdx.take 16).foldl (fun m e => Sparse.set (fun _ => 0#64) m (v * 16 + e.2) e.1) s.pmc }
  else s

/-- A configuration takes force on both dies (R322, R376, R378). (DEDUCED, log 43) -/
def State.commitConfig (s : State) (m : Sparse Word) : State :=
  let g := configOf m
  let s1 : State := { s with
    committed := m, qcfgs := s.readTables g
    cancels := s.cancels.filter (fun c => cfgEnabled g c.part)
    mlog := logMeasurement s.mlog (Config.shake256 (s.configBytes g)) }
  let s2 := State.applyOffsets s (State.enableQueues s s1)
  let s3 := (State.applyPauses s { s2 with ctx := s.renumber s2 s2.ctx, ctxs := s2.ctxs.map (s.renumber s2) }).evictStrangers
  (List.range 16).foldl (fun (s : State) p => s.settleHeap p) s3

/-- PCSTAT after a commit (R375). -/
def pcstatOf (old : Word) (fail : Option (Nat × Nat)) : Word :=
  let n := bitsOf old.toNat 0 32
  match fail with
  | none => packWord [(63, 1, 1), (0, 32, n + 1)]
  | some (c, r) => packWord [(56, 7, c), (44, 12, r), (0, 32, n)]

/-- The earliest commit point of a list. -/
def firstPoint (l : List (Nat × Sparse Word)) : Option (Nat × Sparse Word) :=
  l.foldl (fun b e => match b with
    | none => some e
    | some x => if e.1 < x.1 then some e else some x) none

/-- PARTITION_COMMIT: the earliest commit point has come; its staged copy is checked and takes force, or
nothing is committed (R322, R375, R376). (DEDUCED, log 38) -/
def execPartitionCommit (s : State) : Host.Outcome State Fault Refusal :=
  match firstPoint s.psyncs with
  | none => .next s
  | some (t, m) =>
    if s.now < t then .next s
    else
      let s1 : State := { s with psyncs := s.psyncs.filter (fun e => e.1 != t) }
      let r := s1.configCheck (configOf m)
      let s2 : State := { s1 with pcstat := pcstatOf s1.pcstat r }
      .next (if r.isSome then s2 else s2.commitConfig m)

/-- DEVICE_QUIET: the rest of a paused device's contexts are saved; then its state is at rest and QUIET
reads 1 (R385). -/
def execDeviceQuiet (v : Nat) (s : State) : Host.Outcome State Fault Refusal :=
  if !s.vdPaused v then .next s
  else
    let s1 := s.pauseDevice v
    .next (if (s1.residents v).isEmpty && !s1.atRest.contains v then { s1 with atRest := s1.atRest ++ [v] } else s1)

end Sys2Proof.Machine
end

