-- ==== Sys2Proof/Machine/Power.lean ====
section
/-! DEFINITION. Thermal derating, current, droop, errors, the steward's watchdog, power-on and recovery (R323,
R341, R357, R379 to R381, R410 to R419). What silicon finds, a temperature, a wattage, a defect, an error's
place, comes in with the event (log 16). -/

namespace Sys2Proof.Machine

/-! ### Thermal derating (R379 to R381) -/

/-- The slots a controller has removed (R379): 24 above 95 °C until below 92 °C, 4 above 85 °C until below
82 °C; temperatures in tenths of a degree. (DEDUCED, log 44) -/
def slotsRemoved (old : Nat) (t : Int) : Nat :=
  if 950 < t then 24
  else if old = 24 ∧ 920 ≤ t then 24
  else if 850 < t then 4
  else if old ≠ 0 ∧ 820 ≤ t then 4
  else 0

/-- The owner of slot i of a controller's frame (R370). -/
def State.slotOwner (s : State) (h i : Nat) : Nat := s.cfgField (0x580 + 4 * h + i / 16) (4 * (i % 16)) 4

/-- Reserved slots of a partition in a controller's frame. -/
def State.slotsOf (s : State) (h p : Nat) : Nat := ((List.range 64).filter (fun i => s.slotOwner h i == p)).length

/-- What each partition of a class loses of l slots: shares rounded down, the rest by the largest fraction,
ties to the lower number (R380). -/
def classLoss (l : Nat) (ps : List (Nat × Nat)) : List (Nat × Nat) :=
  let r := (ps.map Prod.snd).sum
  let take := min l r
  let floors := ps.map (fun x => (x.1, take * x.2 / r, take * x.2 % r))
  let rest := take - (floors.map (fun x => x.2.1)).sum
  let order := sortBy (fun (a b : Nat × Nat × Nat) => decide (b.2.2 < a.2.2) || (a.2.2 == b.2.2 && decide (a.1 < b.1))) floors
  (order.take rest).map (fun x => (x.1, x.2.1 + 1)) ++ (order.drop rest).map (fun x => (x.1, x.2.1))

/-- What each partition loses when l slots are removed: open slots first, then BATCH, INTERACTIVE, CONTROL
(R380). -/
def State.losses (s : State) (h l : Nat) : List (Nat × Nat) :=
  let ofClass (c : Nat) : List (Nat × Nat) :=
    ((List.range 16).filter (fun p => p != 0 && s.cfgField (0x400 + p) 61 2 == c)).map (fun p => (p, s.slotsOf h p))
  let sum (x : List (Nat × Nat)) : Nat := (x.map Prod.snd).sum
  let l2 := l - s.slotsOf h 0
  let l1 := l2 - sum (ofClass 2)
  let l0 := l1 - sum (ofClass 1)
  classLoss l2 (ofClass 2) ++ classLoss l1 (ofClass 1) ++ classLoss l0 (ofClass 0)

/-- The slots of a controller's frame that are removed when l are: open ones first, each owner's highest-numbered first.
A fall of the temperature gives back the last removed first (R380). -/
def State.removedSlots (s : State) (h l : Nat) : List Nat :=
  let top (p n : Nat) : List Nat := (((List.range 64).filter (fun i => s.slotOwner h i == p)).reverse).take n
  top 0 l ++ (s.losses h l).flatMap (fun x => top x.1 x.2)

/-- The reserved slots that a partition has lost when l are removed. -/
def State.lossOf (s : State) (h l p : Nat) : Nat := ((s.removedSlots h l).filter (fun i => s.slotOwner h i == p)).length

/-- A partition loses reserved slots, or has its last one back (R381). -/
def State.derate (s : State) (h p old new : Nat) : State :=
  if old < new then
    let s1 := s.event (h / 4) 0x07 p 255 h new
    ((List.range 64).filter (fun q => s1.queueOn p q && (s1.qcfg p q).cls != 0)).foldl (fun (s : State) q =>
      s.setLevel (s.qcfg p q).die p q (min 3 ((s.qlevel p q).level + 1))) s1
  else if new = 0 ∧ old ≠ 0 then s.event (h / 4) 0x08 p 255 h 0
  else s

/-- THERMAL_REPORT of controller h (R379, R381). (DESIGN CHOICE, log 16) -/
def execThermalReport (h : Nat) (tenths : Int) (s : State) : Host.Outcome State Fault Refusal :=
  if 8 ≤ h then .next s
  else
    let old := Sparse.get (fun _ => 0) s.thermal h
    let new := slotsRemoved old tenths
    .next (((List.range 16).filter (fun p => p != 0)).foldl (fun (t : State) p => t.derate h p (s.lossOf h old p) (s.lossOf h new p))
      { s with thermal := Sparse.set (fun _ => 0) s.thermal h new })

/-! ### Current (R341, R410) -/

/-- The clusters of the module. -/
def clusters : List Nat := List.range 40

/-- POWER_CAP: every cluster's limit falls or rises by one step (R410). -/
def execPowerCap (watts : Nat) (s : State) : Host.Outcome State Fault Refusal :=
  let old := (s.cluster 0).limit
  let new := if 2000 < watts then old - Config.limitStep
    else if watts < 1900 then min Config.clusterLimit (old + Config.limitStep) else old
  if new = old then .next s
  else .next ((clusters.foldl (fun (s : State) n => s.setCluster n { s.cluster n with limit := new }) s).event 0 0x09 255 255
    new old)

/-- RESERVATION_REQUEST (R341). -/
def execReservationRequest (c : Nat) (u : PowerUnit) (s : State) : Host.Outcome State Fault Refusal :=
  match s.findCtx c with
  | none => .next s
  | some x => .next (if x.resident then s.request x u else s)

/-- RESERVATION_GRANT (R341). -/
def execReservationGrant (cluster : Nat) (s : State) : Host.Outcome State Fault Refusal := .next (s.grant cluster)

/-! ### Droop (R411) -/

/-- Firmware sets a cluster's DFRZ (R411). -/
def State.setFreeze (s : State) (cluster cycles : Nat) : State :=
  if s.boot = .running ∧ cluster < 40 ∧ 8 ≤ cycles ∧ cycles ≤ 255 then
    s.setCluster cluster { s.cluster cluster with dfrz := cycles }
  else s

/-- DROOP: the freeze ends DFRZ cycles after this detection (R411). -/
def execDroop (cluster : Nat) (s : State) : Host.Outcome State Fault Refusal :=
  .next (s.setCluster cluster { s.cluster cluster with freezeEnd := s.now + (s.cluster cluster).dfrz })

/-- DROOP_FREEZE_END (R411). -/
def execDroopFreezeEnd (cluster : Nat) (s : State) : Host.Outcome State Fault Refusal :=
  .next (if s.frozen cluster then s else s.setCluster cluster { s.cluster cluster with freezeEnd := 0 })

/-! ### Errors and the watchdog (R323, R357) -/

/-- The event of a marked unit of a core (R312). -/
def State.markedEvent (s : State) (c : Ctx) (code : Nat) : State :=
  s.event (dieOf c.core) 0x05 c.part.toNat c.vdn.toNat code (1 + 65536 * c.core)

/-- An error in state that carries no poison: the context is stopped and held for good, the steward told, its
task completed with CAUSE 6 (R357). (DESIGN CHOICE, log 21) (DEDUCED, log 44) -/
def State.bareError (s : State) (c : Ctx) : State :=
  let s1 := (s.holdCtx c).postSteward (dieOf c.core) { code := cUNCORR, sub := 0#8, val := s.freshBits 0, unit := 0, ch := 0 }
  match c.task with
  | some t => s1.useFree.completeTask t 6
  | none => s1.useFree

/-- UNCORRECTABLE_ERROR (R96, R357): the unit it strikes is poisoned, its bits free, and the steward told;
state without poison stops its context. (DESIGN CHOICE, log 16) -/
def execUncorrectableError (where_ : ErrorSite) (s : State) : Host.Outcome State Fault Refusal :=
  let on (id : Nat) (f : Ctx → State) : Host.Outcome State Fault Refusal := match s.findCtx id with
    | some c => .next (f c)
    | none => .next s
  match where_ with
  | .l1Byte id pa => on id (fun c => match Sparse.get (fun _ => none) c.l1 pa with
      | none => s
      | some _ =>
        let strike (e : Nat × Option L1Byte) : Nat × Option L1Byte :=
          (e.1, if e.1 / 64 = pa / 64 then e.2.map (fun x => { x with pois := true }) else e.2)
        (s.putCtx { c with l1 := c.l1.map strike }).event (dieOf c.core) 0x05 255 255 (pa / 64 * 64) 0)
  | .memory sec => .next ((s.setMark sec true).event (homeDie (64 * sec)) 0x05 255 255 (64 * sec) 0)
  | .tileCell id t n => on id (fun c => if 16 ≤ t ∨ 4096 ≤ n then s else
      ((s.putCtx (c.setTile t ((c.tile t).put (n / 64) (n % 64) (newCell s 0 (0, true))))).useFree).markedEvent c t)
  | .planeCell id p n => on id (fun c => if 2 ≤ p ∨ 8192 ≤ n then s else
      let pl := ({ c.plane p with zmask := false } : Plane).put (n / 128) (n % 128) (newPCell s 0 0 true)
      ((s.putCtx (c.setPlane p pl)).useFree).markedEvent c (128 + p))
  | .granule id g => on id (fun c => if 3072 ≤ g then s else
      (s.putCtx { c with gpois := Sparse.set (fun _ => false) c.gpois g true }).markedEvent c (64 + g / 64))
  | .scalar id r => on id (fun c => if r = 0 ∨ 64 ≤ r then s else
      (s.putCtx (c.setBank (c.bank.setS r { bits := s.freshBits 0, pois := true }))).useFree.markedEvent c
        (s.freshBits 1).toNat)
  | .mask id k bits => on id (fun c => if k = 0 ∨ 8 ≤ k then s else
      let m := c.bank.getK k
      (s.putCtx (c.setBank (c.bank.setK k { bits := (m.bits &&& ~~~bits) ||| (s.freshBits 0 &&& bits), pois := m.pois ||| bits }))
        ).useFree.markedEvent c (s.freshBits 1).toNat)
  | .bare id => on id (fun c => if c.resident then s.bareError c else s)

/-- WATCHDOG: the first expiry raises WATCHDOG in a steward context of the die, the second declares the
steward failed (R323). (DEDUCED, log 44) -/
def execWatchdog (die : Nat) (s : State) : Host.Outcome State Fault Refusal :=
  let d := s.die die
  match d.wdog with
  | none => .next s
  | some a =>
    if s.now < d.wdogAt then .next s
    else if d.wdogX = 0 then
      .next ((s.setDie die { d with wdogX := 1, wdogAt := d.wdogAt + 1000 * a }).postSteward die
        { code := cWATCHDOG, sub := 0#8, val := 0#64, unit := 0, ch := 0 })
    else .next ((s.setDie die { d with wdog := none }).emit (.stewardFailed die))

/-! ### Power-on and recovery (R413 to R419) -/

/-- The defects of a kind at a place. -/
def defectsAt (ds : List Defect) (kind loc : Nat) : List Defect := ds.filter (fun x => x.kind == kind && x.location == loc)

/-- Retired ways of a cluster's slice: a mask. -/
def waysOf (ds : List Defect) (c : Nat) : Nat :=
  (ds.filter (fun x => (x.kind == 5 || x.kind == 6) && x.location == c)).foldl (fun m x => m ||| x.count) 0

/-- Whether a cluster's cores are disabled: three or more ways of its slice (R417). -/
def clusterLost (ds : List Defect) (c : Nat) : Bool :=
  !(defectsAt ds 6 c).isEmpty || decide (3 ≤ ((List.range 16).filter (fun i => bitOf (waysOf ds c) i)).length)

/-- A core as the repair map leaves it (R417). -/
def repairedCore (ds : List Defect) (k : Nat) : CoreSlot :=
  let tiles := (defectsAt ds 1 k).length
  let banks := ((defectsAt ds 3 k).map Defect.count).sum
  let off := !(defectsAt ds 2 k).isEmpty || decide (2 ≤ tiles) || !(defectsAt ds 4 k).isEmpty || decide (16 ≤ banks) ||
    clusterLost ds (clusterOf k)
  { CoreSlot.zero with disabled := off, noT15 := tiles == 1, removed := if 16 ≤ banks then 0 else banks }

/-- The die on which a defect lies. -/
def dieOfDefect (x : Defect) : Nat :=
  if x.kind ≤ 4 then dieOf x.location else if x.kind ≤ 6 then x.location / Config.clustersPerDie else homeDie (65536 * x.location)

/-- The union of what the device record lists and what self test found (R417). -/
def State.allDefects (s : State) (b : Bist) : List Defect := (s.devRec.defects ++ b.defects).dedup

/-- RCAUSE of a power-on that ends in recovery, none where it does not: the image in flash must verify on both dies
(R413, R414, R417). (DEDUCED, log 44) -/
def State.bootCause (s : State) (b : Bist) : Option Nat :=
  let lost (d : Nat) : Nat := ((List.range Config.coresPerDie).filter (fun i =>
    (repairedCore (s.allDefects b) (320 * d + i)).disabled)).length
  let good := Config.imageVerifies s.flash
  if s.flash.isEmpty then some 4
  else if !(good && b.read0) && !(good && b.read1) then some 1
  else if b.read0 != b.read1 then some 2
  else if decide (16 < lost 0) || decide (16 < lost 1) || !b.fabricOk then some 3
  else none

/-- What a reset keeps: time, the flash with its device record, the host's memory, and the model's own agenda and free
counter.
(DEDUCED, log 44) -/
def State.cleared (s : State) : State :=
  { State.reset with now := s.now, flash := s.flash, devRec := s.devRec, hostMem := s.hostMem, agenda := s.agenda, free := s.free, outbox := s.outbox }

/-- The 4 KiB pages of die 0's HBM at which firmware reserves its two lists, of 128 and of 8 pages: free, apart
(R419). (DESIGN CHOICE, log 11) -/
def bootLists (k : Nat) : Nat × Nat :=
  let a := Config.freeTable k % (2 ^ 26 - 136)
  let x := Config.freeTable (k + 1) % (2 ^ 26 - 142)
  (a, if x + 8 ≤ a then x else x + 135)

/-- The configuration that firmware commits before it places the steward (R419). (DESIGN CHOICE, log 11) -/
def bootConfig (k : Nat) : Sparse Word :=
  let put (m : Sparse Word) (n v : Nat) : Sparse Word := Sparse.set cfgReset m n (BitVec.ofNat 64 v)
  let pctl (walk heapq : Nat) : Nat := packFields [(63, 1, 1), (53, 8, walk), (40, 13, heapq), (30, 10, 1000), (20, 10, 10), (4, 16, 100)]
  let at_ := bootLists k
  [(0x400, pctl 120 3840), (0x40F, pctl 8 256), (0x460, 0xFF00), (0x474, 0xFF00), (0x690, 4096 * at_.1 + 128),
    (0x69F, 4096 * at_.2 + 8)].foldl (fun m e => put m e.1 e.2) []

/-- The voltage setpoint, in mV, that firmware chooses at bring-up for a course of a core, from the characterisation in
the device record (R409). (DESIGN CHOICE, log 63) -/
def setpoint (core course : Nat) : Nat := 550 + Config.freeVolts core course % 251

/-- A core at bring-up: as the repair map leaves it, its courses switched on, their setpoints chosen (R409, R417). -/
def bootCore (ds : List Defect) (k : Nat) : CoreSlot :=
  { repairedCore ds k with volts := sparseOf (fun _ => 0) 4 (setpoint k) }

/-- The digest of the device record (R415, R416). -/
def DeviceRec.digest (r : DeviceRec) : BitVec 512 :=
  Config.recordDigest r.identity r.die1 (r.defects.map (fun x => (x.kind, x.location, x.count))) r.sign

/-- The steward, part of the image, placed on partition 0, on its lowest core with every bank; where its code stands, its
save area and its first instruction are free (R418). (DESIGN CHOICE, log 2) -/
def State.placeSteward (s : State) : State :=
  match (s.coresOf 0).find? (fun k => (s.coreSlot k).fits 48 0 false 0) with
  | none => s
  | some k =>
    let c : Ctx := { Ctx.blank with
      id := 65536 * (Config.freePage s.free % 2 ^ 23), place := .core k, level := .steward
      pc := s.freshBits 0 &&& ~~~7#64, lcore := BitVec.ofNat 16 (s.logical 0 k) }
    { s.useFree with ctx := c, ctxs := [], cores := Sparse.set (fun _ => CoreSlot.zero) s.cores k { s.coreSlot k with run := some c.id } }

/-- The module once its ROMs and self test have run: the dies' identity keys derived, the union of the defects applied,
the four first entries of the measurement log made (R414 to R417). -/
def State.tested (s : State) (b : Bist) : State :=
  let ds := s.allDefects b
  let s1 : State := { s.cleared with
    identity := [Config.dieKey 0, Config.dieKey 1], repair := ds
    cores := sparseOf (fun _ => CoreSlot.zero) Config.coreCount (bootCore ds)
    retired := (ds.filter (fun x => x.kind == 7)).map Defect.location }
  { s1 with mlog := [Config.romDigest, Config.shake256 s1.flash, s1.devRec.digest, Config.shake256 s1.repairMap] }

/-- Power-on with what the dies read and self test found: recovery, or the module as firmware leaves it, the steward on
partition 0 (R413 to R419). -/
def State.bootUp (s : State) (b : Bist) : State :=
  let s1 := s.tested b
  match s.bootCause b with
  | some c => { s1 with boot := .recovery c }
  | none =>
    let s2 : State := { s1 with
      boot := .running, free := s1.free + 2, staged := bootConfig s1.free, committed := bootConfig s1.free }
    ((b.defects.filter (fun x => !s.devRec.defects.contains x)).foldl (fun (s : State) x =>
      s.event (dieOfDefect x) 0x11 255 255 x.kind x.location) s2).placeSteward

/-- The flash as the module leaves its factory: an image, and the device record (R413, R415). -/
def State.factory (s : State) (image : List Byte) (r : DeviceRec) : State :=
  if s.boot = .off then { s with flash := image, devRec := r } else s

/-- POWER_ON: supplies good in a module that is off (R418). (DESIGN CHOICE, log 16) -/
def execPowerOn (bist : Bist) (s : State) : Host.Outcome State Fault Refusal :=
  .next (if s.boot = .off then s.bootUp bist else s)

/-- Whether the recovery window takes commands: recovery, RSTATE 1 (R414). -/
def State.inRecovery (s : State) : Bool := s.rstate == 1#8 && match s.boot with
  | .recovery _ => true
  | _ => false

/-- LOAD written at a function in recovery: at the physical one, function 0, the upload is being verified; no other answers
there (R304, R414). (DEDUCED, log 44) -/
def execRecoveryLoad (vd : Nat) (s : State) : Host.Outcome State Fault Refusal :=
  .next (if vd = 0 ∧ s.inRecovery then { s with rstate := 2#8 } else s)

/-- The next part of a LOAD (R414): an image that does not verify leaves flash as it is; one that does is written to
flash; every HBM page is zeroed, its marks cleared; the module reboots. (DEDUCED, log 44) -/
def State.recoveryGoes (s : State) (b : Bist) : State := match s.boot with
  | .recovery _ =>
    if s.rstate = 2#8 then
      let img := Sparse.getList memDefault s.hostMem s.imgaddr.toNat s.imglen.toNat
      if s.imglen.toNat ≤ 2 ^ 26 ∧ s.imgaddr.toNat % 4096 = 0 ∧ Config.imageVerifies img = true then
        { s with flash := img, rstate := 3#8 }
      else { s with boot := .recovery 1, rstate := 1#8 }
    else if s.rstate = 3#8 then
      { s with mem := s.mem.filter (fun e => decide (2 ^ 39 ≤ e.1)), marks := s.marks.filter (fun e => decide (2 ^ 33 ≤ e.1))
               rstate := 4#8 }
    else if s.rstate = 4#8 then s.bootUp b
    else s
  | _ => s

/-- RESET in recovery: a full module reset (R414). -/
def execRecoveryReset (bist : Bist) (s : State) : Host.Outcome State Fault Refusal :=
  .next (if s.inRecovery then s.bootUp bist else s)

end Sys2Proof.Machine
end

