-- ==== Sys2Proof/Machine/Turn.lean ====
section
/-! DEFINITION. What a step does around the meaning of an instruction: the instruction a sequencer fetches, an
engine's leave to begin, the passage of time, and moves that no row of the opcode table names (R21, R22,
R137, R144, R176, R306, R308, R341, R351, R363, R384, R411). -/

namespace Sys2Proof.Machine

/-! ### The sequencer's next instruction (R144, R170, R345) -/

/-- What stands at an instruction boundary: an instruction to execute, or a trap taken in its place. -/
inductive Boundary where
  | instr (i : Instr)
  | trap (s : State)

/-- The 64 bytes a register names, as they can be read. -/
def State.blockAt (s : State) (r : Reg) : Option Nat := match s.loadAt (s.rd r).bits.toNat 64 .r with
  | .ok (_, bs, _) => some (natOfBytes bs)
  | .error _ => none

/-- The row of the opcode table that a word stands for, where its operands decide: FWCALL services 4 and 6 by
their block, CANCEL by b (R325, R368, R408). (DESIGN CHOICE, log 13) -/
def State.resolve (s : State) (i : Instr) : Instr :=
  match i with
  | .stage2Map f => match (s.blockAt f.a).map (fun n => bitsOf n 96 8) with
    | some 1 => .stage2Unmap f
    | some 2 => .moveToTier1 f
    | some 3 => .moveToTier2 f
    | some 4 => .setPermissions f
    | _ => .stage2Map f
  | .windowDeclare f => match (s.blockAt f.a).map (fun n => bitOf n 161) with
    | some true => .windowRemove f
    | _ => .windowDeclare f
  | .cancel f => if bitOf (s.rd f.b).bits.toNat 2 then .cancelClear f else .cancel f
  | _ => i

/-- The boundary at the program counter: the end of a handler whose TBUDGET is used up, or of a member that its crew
has left behind; a pending cause; then the fetch, then the checks of R144 (R19, R345, R351). -/
def State.boundary (s : State) : Boundary :=
  if s.ctx.spent then .trap s.forceEnd
  else if s.straggles s.ctx then .trap (s.displace [] s.ctx.id)
  else if s.ctx.hasCause then .trap s.takePending
  else match s.fetch with
    | .error (s1, c) => .trap (s1.fault c)
    | .ok w => match decodeAt s.ctx.atSteward w with
      | .ok i => .instr (s.resolve i)
      | .illegal => .trap (s.fault (Cause.seq cILLEGAL 0 w))
      | .privilege => .trap (s.fault (Cause.seq cPRIVILEGE 0 w))
      | .reserved => .trap (s.fault (Cause.seq cRESERVED 0 w))

/-! ### An engine's leave to begin (R341, R411) -/

/-- The unit of the current arbiter that an engine is. -/
def Eng.unit : Eng → Option PowerUnit
  | .x => some .x
  | .v => some .v
  | _ => none

/-- Whether the entry that an engine has before it may begin: no freeze holds it, its courses are on, and the current
it asks for is reserved; the switches follow it and the request is made here where they have not been
(R341, R409, R411). (DEDUCED, log 18) -/
def State.leave (s : State) (e : Eng) : State × Bool :=
  match e.unit with
  | none => (s, true)
  | some u =>
    if s.frozen (clusterOf s.ctx.core) then (s, false)
    else
      let (s1, on) := if e = .x then s.powerCourses else (s, true)
      let (s2, held) := s1.reserve u
      (s2, on && held)

/-- The entry that an engine's turn works on: one with cells to write; else the first of its queue. Of X, the entry
behind those that still have pushes to make: in a turn that performs a part, one that has begun, or the next where none
before it has found a FIFO full; else one that has begun, where the first's push waits for room (R147, R240, R248). -/
def State.nextEntry (s : State) (e : Eng) : Option Entry :=
  let q := s.bank.queue e
  match q.find? (fun en => !en.late.isEmpty) with
  | some en => some en
  | none => match q.head?, q.find? (fun en => !en.pushOwed) with
    | some en, some nx =>
      let free := (q.takeWhile Entry.pushOwed).all (fun x => !x.popsTaken)
      let blocked := en.popsTaken && (s.bank.fifo.push (pushesOf e (decTok (encode en.instr)))).isNone
      some (if en.pushOwed && e == .x && (if s.parts then nx.popsTaken || free else blocked && nx.popsTaken) then nx else en)
    | h, _ => h

/-! ### Time (R8, R176, R306, R308, R351, R384) -/

/-- What passes for one context in n ns: VCYC, TBUDGET, the progress interval (R32, R176, R351).
(DESIGN CHOICE, log 4) -/
def State.ageCtx (s : State) (n : Nat) (c : Ctx) : Ctx :=
  let runs := s.running c
  let waitsPop : Bool := match c.bank.wait with
    | some w => w.pc == c.pc && (match w.kind with
      | .pop _ _ _ => true
      | _ => false)
    | none => false
  let counts : Bool := match c.task.bind s.findTask with
    | some t => t.prog != 0 && (t.state == .running || (t.state == .parked && !s.descheduled c.ownDevice)) && !waitsPop
    | none => false
  { c with
    vcyc := if runs then c.vcyc + n else c.vcyc
    tbudget := if runs && c.thnd && !c.shnd then c.tbudget - n else c.tbudget
    progT := if counts then c.progT - n else c.progT }

/-- Whether an engine waits for a token, or for room for a token it owes; every engine word holds its token bits in
[51:48] (R138, R147). (DESIGN CHOICE, log 17) -/
def RegBank.tokenWait (b : RegBank) (e : Eng) : Bool :=
  (b.queue e).head?.any (fun en => en.pushOwed && en.popsTaken) ||
  match (b.queue e).find? (fun en => !en.pushOwed) with
  | none => false
  | some en => !en.popsTaken && (b.fifo.pop (popsOf e (decTok (encode en.instr)))).isNone

/-- The kind of wait in which a context's sequencer stands. -/
def Ctx.waitsFor (c : Ctx) : Option Wait := (c.bank.wait.filter (fun w => w.pc == c.pc)).map WaitSt.kind

/-- The engines of a context that a wake, or a lock, keeps waiting (R50, R55). -/
def Ctx.stalls (c : Ctx) (w : Stall) : Nat :=
  ([Eng.l, Eng.x, Eng.v, Eng.s].filter (fun e => ((c.bank.queue e).find? (fun en => !en.pushOwed)).any (fun en => en.stall == w))).length

/-- Whether the sequencer waits for the wake of the register that a version load writes (R55, R207). -/
def Ctx.lineWakes (c : Ctx) : Nat := b2n (c.bank.wait.any (fun w => w.pc == c.pc && w.checked && (match w.kind with
  | .version _ _ _ => true
  | _ => false)))

/-- The units off the sequencer and the engines that wait for the wake of a bank of a context's scratchpad: copy
channels, the landings of its gutters, the endpoint at its sends (R55, R309). -/
def Ctx.agentWakes (c : Ctx) : Nat :=
  (c.chans.filter (fun e => e.2.run && e.2.stalled)).length +
  ((List.range 16).filter (fun g => !c.slotsReady g)).length +
  (c.sends.filter (fun e => e.2.used && !e.2.taken && !e.2.err && e.2.bufs.any (fun b =>
    (banksOf b.addr b.len).any (fun k => (c.padBank k).waking)))).length

/-- The waits of a running context that a counter of the bank counts: source, full queue, token, wake, lock
(R308, R309). (DESIGN CHOICE, log 17) -/
def Ctx.stallCounts (c : Ctx) : List (Nat × Nat) :=
  [(2, b2n (c.waitsFor == some .source)), (3, b2n (c.waitsFor == some .full)),
   (4, ([Eng.l, Eng.x, Eng.v, Eng.s].filter c.bank.tokenWait).length),
   (5, b2n (c.waitsFor == some .wake) + c.stalls .wake + c.lineWakes), (7, c.stalls .lock)]

/-- The records of running channels that wait for a creation's room (R103). -/
def creationWaits (chans : List Chan) : Nat :=
  (chans.filter (fun k => k.run && (match k.phase with
    | .version _ _ => true
    | _ => false))).length

/-- The loads and creations of a device that wait for a version or for room, of its contexts, its host copy channels
and the endpoint; none while it is descheduled, but of a context that still holds a core (R103, R107, R119, R309).
(DESIGN CHOICE, log 17) -/
def State.versionWaits (s : State) (v : Nat) : Nat :=
  let off := s.descheduled v
  ((s.allCtxs.filter (fun c => c.ownDevice == v)).map (fun c =>
    (if (s.running c || (!off && (c.task.bind s.findTask).any (fun t => t.state == .parked))) && (match c.waitsFor with
      | some (.version _ _ _) => c.lineWakes == 0
      | some (.creation _ _) => true
      | _ => false) then 1 else 0) +
    (if c.resident || !off then creationWaits (c.chans.map Prod.snd) else 0))).sum +
  if off then 0
  else creationWaits ((s.hostChans.filter (fun e => e.2.vd == v)).map (fun e => e.2.chan)) +
    (s.netHolds.filter (fun k => k.begun && (s.conn k.handle.toNat).vdn == v)).length

/-- The time of n ns for which a context waits for current or for its courses to power up, each unit's counted once
(R308, R409). (DESIGN CHOICE, log 17) -/
def State.currentWait (s : State) (c : Ctx) (n : Nat) : Nat :=
  let mine := (s.cluster (clusterOf c.core)).pending.filter (fun r => r.ctx == c.id)
  mine.length * n + if mine.any (fun r => r.unit == .x) then 0 else min n (s.courseWait c)

/-- Adds to a counter of the bank. -/
def State.pmcCount (s : State) (v i n : Nat) : State := if n = 0 then s else s.pmcAdd v i n

/-- The counters of the counter bank that n ns add to: PMC0, PMC2 to PMC5, PMC7, PMC8, PMC11, PMC12 (R308, R411).
(DESIGN CHOICE, log 17) -/
def State.ageCounters (s : State) (n : Nat) : State :=
  (List.range 64).foldl (fun (t : State) v => t.pmcCount v 8 (s.versionWaits v * n))
    ((s.allCtxs.filter s.running).foldl (fun (t : State) c =>
      let v := c.vdn.toNat
      let ice := min n ((s.cluster (clusterOf c.core)).freezeEnd - s.now)
      let t1 := (t.pmcAdd v 0 n).pmcCount v 11 (s.currentWait c n)
      let t2 := c.stallCounts.foldl (fun (t : State) e => t.pmcCount v e.1 (e.2 * n)) t1
      let t3 := if (c.bank.qX.isEmpty && c.bank.qV.isEmpty) = false then t2.pmcCount v 12 ice else t2
      t3.pmcAgent c.ownDevice 5 (c.agentWakes * n)) s)

/-- The cycles a running task has held a core (R338). (DESIGN CHOICE, log 4) (DEDUCED, log 42) -/
def State.ageTasks (s : State) (n : Nat) : State :=
  { s with tasks := s.tasks.map (fun t =>
      if t.state = .running ∧ t.members.any (fun m => (s.findCtx m).any s.running) = true then { t with used := t.used + n } else t) }

/-- A quantity moves towards a goal by at most a step. -/
def slewTo (x goal step : Int) : Int := if x ≤ goal then min goal (x + step) else max goal (x - step)

/-- Guest offsets slew towards their committed values, by at most n ns (R384). -/
def State.ageOffsets (s : State) (n : Nat) : State :=
  (List.range 64).foldl (fun (s : State) v =>
    let x := Sparse.get (fun _ => (0 : Int)) s.voff v
    if x = s.voffGoal v then s else s.setVoff v (slewTo x (s.voffGoal v) n)) s

/-- A mapped queue's thread spends time without completing a packet; blocked in WAIT it does not (R396). -/
def HQueue.age (n : Nat) (h : HQueue) : HQueue :=
  if h.thread.isSome && h.waiting.isNone then { h with idle := h.idle + n } else h

/-- n ns pass; what is left of a correction of package time, and guest offsets, are slewed by at most 200 ppm, 1 ns in
5,000; landings whose time has come look at their buffers (R95, R384). (DESIGN CHOICE, log 4) -/
def State.tick (s : State) (n : Nat) : State :=
  let step := (s.slewAcc + n) / 5000
  let adj := slewTo 0 s.slew step
  let s1 := ((s.ageCounters n).ageTasks n).ageOffsets step
  ({ s1 with
    now := ((s.now : Int) + n + adj).toNat, slew := s.slew - adj, slewAcc := (s.slewAcc + n) % 5000
    hqs := s1.hqs.map (fun e => (e.1, e.2.age n))
    ctx := s.ageCtx n s1.ctx, ctxs := s1.ctxs.map (s.ageCtx n) } : State).settleLandings

/-! ### Moves without a row (R84, R363, R395, R402) -/

/-- The instruction of a queue's next packet; a packet of no known kind stands under NOP, which finds it
malformed (R393). -/
def State.threadInstr (s : State) (vd q : Nat) : Instr :=
  match (s.packet vd q).toOption.map (fun p => bitsOf p 0 8) with
  | some 1 => .launch vd q
  | some 2 => .copyPacket vd q
  | some 3 => .signal vd q
  | some 4 => .wait vd q
  | some 5 => .bindPacket vd q
  | some 6 => .cancelPacket vd q
  | some 7 => .fencePacket vd q
  | _ => .nopPacket vd q

/-- The TLB of a core, or of its cluster, takes in a page that the running context reaches (R363).
(DESIGN CHOICE, log 8) -/
def State.fillTlb (s : State) (core va : Nat) (own : Bool) : State :=
  match (s.coreSlot core).run.bind s.findCtx with
  | none => s
  | some c => match s.tlbFor own (if own then core else clusterOf core) c.device c.partition va with
    | some e => s.tlbPut e
    | none => s

/-! ### What the host reads (R3, R389, R390, R399, R414) -/

/-- A register of a queue's window: HQSTAT from the control block that SEL names; fields of features not enabled, and
every other offset, read zero (R3, R389, R390, R395, R399). -/
def State.windowRead (s : State) (vd q off : Nat) : Nat :=
  let h := s.hq vd q
  let b := if h.sel then h.blkB else h.blkA
  if off = 0x48 then h.base.toNat
  else if off = 0x50 then
    packFields [(8, 8, if s.featOn vd 2 then h.msix.toNat else 0), (16, 5, h.log2cap.toNat),
      (21, 1, b2n (s.featOn vd 1 && h.hostr))]
  else if off = 0x58 then
    packFields [(0, 2, b.state.toNat), (2, 1, b2n h.thread.isSome), (3, 1, b2n h.waiting.isSome), (24, 8, b.ecode.toNat),
      (32, 32, b.ridx.toNat)]
  else 0

/-- The features of a function as it reads them (R399). -/
def State.featRead (s : State) (vd off : Nat) : Nat :=
  let x := s.feat vd
  if off = 0x40000 then Config.offeredFeatures.toNat
  else if off = 0x40010 then bitsOf x.drv.toNat 0 64
  else if off = 0x40018 then bitsOf x.drv.toNat 64 64
  else if off = 0x40020 then b2n x.accept + 2 * b2n x.refused
  else 0

/-- Eight bytes of a list from a place in it on. -/
def wordOfBytes (l : List Byte) (i : Nat) : Nat := natOfBytes ((l.drop i).take 8)

/-- The recovery window of the physical function (R414, R416). -/
def State.recoveryRead (s : State) (cause off : Nat) : Nat :=
  if off = 0 then packFields [(0, 8, s.rstate.toNat), (8, 8, cause)]
  else if off = 8 then s.imgaddr.toNat
  else if off = 0x10 then s.imglen.toNat
  else if off = 0x20 then s.mlog.length
  else if 0x1000 ≤ off ∧ off < 0x2000 then wordOfBytes (s.identity.headD []) (off - 0x1000)
  else if 0x2000 ≤ off ∧ off < 0x22000 then wordOfBytes (bytesOfNat 64 ((s.mlog.getD ((off - 0x2000) / 64) 0#512).toNat)) (off % 64)
  else 0

/-- A read by the host of eight bytes at an aligned offset of a function's BAR 0; what it returns is what the register
holds. The physical function is function 0, which alone answers in recovery (R3, R304, R398, R414).
(DESIGN CHOICE, log 58) -/
def State.hostReads (s : State) (vd off : Nat) : State :=
  let v := match s.boot with
    | .running => if !s.functionUp vd then 0 else if off < 0x40000 then s.windowRead vd (off / 4096) (off % 4096) else s.featRead vd off
    | .recovery cause => if vd = 0 then s.recoveryRead cause off else 0
    | .off => 0
  s.emit (.hostRead vd off (BitVec.ofNat 64 v))

/-- L1 of a core gives up a line, its dirty bytes written back (R84, R85). (DESIGN CHOICE, log 9) -/
def State.evictL1 (s : State) (core line : Nat) : State :=
  match (s.coreSlot core).run with
  | some id => s.onCtx id (fun s => s.evictLine line)
  | none => s

/-- The context that a core runs takes the focus; none where it runs none. -/
def State.onCore (s : State) (core : Nat) : Option State :=
  match (s.coreSlot core).run with
  | some id => if (s.findCtx id).any s.running then some (s.focus id) else none
  | none => none

/-- Cycles that the pipeline of a core waited and that no state of the model shows: on a source, on a full queue, for a
wake or on a lock; counters 2, 3, 5, 7 of the device that the core runs (R308).
(DESIGN CHOICE, log 17) -/
def State.countStall (s : State) (core ctr n : Nat) : State :=
  match (s.coreSlot core).run.bind s.findCtx with
  | none => s
  | some c => if [2, 3, 5, 7].contains ctr then s.pmcAdd c.vdn.toNat ctr n else s

/-- What could go on in the running context without its sequencer: wakes, channels, gutters. -/
def State.chores (s : State) : List (State → Host.Outcome State Fault Refusal) :=
  let c := s.ctx
  ((List.range 16).filter (fun t => (c.tile t).waking)).map (fun t => execBankWakeComplete c.id false t) ++
  ((List.range 48).filter (fun b => (c.padBank b).waking)).map (fun b => execBankWakeComplete c.id true b) ++
  (c.chans.filter (fun e => e.2.run)).map (fun e => execTransferRecord c.id e.1 []) ++
  (c.gutters.filter (fun e => !e.2.waiters.isEmpty)).map (fun e => execGutterClaim c.id e.1) ++
  (c.gutters.filter (fun e => !e.2.flight.isEmpty)).map (fun e => execGutterFill c.id e.1 [])

/-- Whether a move would stop a running context, or open a handler in it, with an entry of the code that it stops still
under way (R22, R348, R355). A context that ends, or whose die is lost, is not stopped. (DESIGN CHOICE, log 10) -/
def State.cutsShort (s s1 : State) : Bool := (s.allCtxs.filter s.running).any (fun c => match s1.findCtx c.id with
  | none => false
  | some d =>
    let b := if c.bankIx = 0 then d.base else if c.bankIx = 1 then d.tbank else d.sbank
    !d.halted && d.place != .nowhere && (!s1.running d || decide (c.bankIx < d.bankIx)) && s1.goesOn d b)

/-- A move that would cut an entry short is not made yet: the entry completes first (R22, R348, R355).
(DESIGN CHOICE, log 10) -/
def State.wholly (s : State) : Host.Outcome State Fault Refusal → Host.Outcome State Fault Refusal
  | .next s1 => if s.cutsShort s1 then .next s else .next s1
  | .fault f => .fault f
  | .refused r => .refused r

/-- Another running context, where there is one. -/
def State.otherRunning (s : State) : Option Nat := (s.ctxs.find? s.running).map Ctx.id

/-! ### A program from outside (log 2) -/

/-- The page where a loaded program stands. (DESIGN CHOICE, log 2) -/
def State.loadEntry (s : State) : TlbEntry :=
  { core := true, unit := s.ctx.core, vdn := 0, vbase := s.ctx.pc.toNat / 65536 * 65536, size := 65536
    pa := s.ctx.pc.toNat / 65536 * 65536 % 2 ^ 39, r := true, w := true, x := true, nl1 := false, m := false }

/-- The module with the focused context running STEWARD code on its core, the page at its program counter
translated, no cause pending, and that core's sequencer to move next. (DESIGN CHOICE, log 2) -/
def State.ready (s : State) : State :=
  let c := s.ctx
  { s with
    boot := .running, acting := none, agenda := [.seq c.core]
    ctx := { c with place := .core c.core, level := .steward, posted := [], latches := [], halted := false }
    cores := Sparse.set (fun _ => CoreSlot.zero) s.cores c.core { s.coreSlot c.core with run := some c.id }
    tlb := s.loadEntry :: s.tlb }

end Sys2Proof.Machine
end

