-- ==== Sys2Proof/Machine/Dispatch.lean ====
section
/-! DEFINITION. One arm for each row of the opcode table. -/

namespace Sys2Proof.Machine

/-- The meaning of each instruction and each event of the opcode table. -/
def exec (i : Instr) (s : State) : Host.Outcome State Fault Refusal :=
  match i with
  | .nop => Sys2Proof.Machine.execNop s
  | .add f => Sys2Proof.Machine.execAdd f s
  | .sub f => Sys2Proof.Machine.execSub f s
  | .mul f => Sys2Proof.Machine.execMul f s
  | .mulh f => Sys2Proof.Machine.execMulh f s
  | .mulhn f => Sys2Proof.Machine.execMulhn f s
  | .div f => Sys2Proof.Machine.execDiv f s
  | .divn f => Sys2Proof.Machine.execDivn f s
  | .rem f => Sys2Proof.Machine.execRem f s
  | .remn f => Sys2Proof.Machine.execRemn f s
  | .and f => Sys2Proof.Machine.execAnd f s
  | .or f => Sys2Proof.Machine.execOr f s
  | .xor f => Sys2Proof.Machine.execXor f s
  | .andn f => Sys2Proof.Machine.execAndn f s
  | .shl f => Sys2Proof.Machine.execShl f s
  | .shr f => Sys2Proof.Machine.execShr f s
  | .shra f => Sys2Proof.Machine.execShra f s
  | .rotl f => Sys2Proof.Machine.execRotl f s
  | .clz f => Sys2Proof.Machine.execClz f s
  | .ctz f => Sys2Proof.Machine.execCtz f s
  | .popc f => Sys2Proof.Machine.execPopc f s
  | .sext f => Sys2Proof.Machine.execSext f s
  | .zext f => Sys2Proof.Machine.execZext f s
  | .min f => Sys2Proof.Machine.execMin f s
  | .max f => Sys2Proof.Machine.execMax f s
  | .minn f => Sys2Proof.Machine.execMinn f s
  | .maxn f => Sys2Proof.Machine.execMaxn f s
  | .seteq f => Sys2Proof.Machine.execSeteq f s
  | .setlt f => Sys2Proof.Machine.execSetlt f s
  | .setltn f => Sys2Proof.Machine.execSetltn f s
  | .csel f => Sys2Proof.Machine.execCsel f s
  | .addsh f => Sys2Proof.Machine.execAddsh f s
  | .bfx f => Sys2Proof.Machine.execBfx f s
  | .bfi f => Sys2Proof.Machine.execBfi f s
  | .pois f => Sys2Proof.Machine.execPois f s
  | .unpois f => Sys2Proof.Machine.execUnpois f s
  | .chash f => Sys2Proof.Machine.execChash f s
  | .addi f => Sys2Proof.Machine.execAddi f s
  | .andi f => Sys2Proof.Machine.execAndi f s
  | .ori f => Sys2Proof.Machine.execOri f s
  | .xori f => Sys2Proof.Machine.execXori f s
  | .shli f => Sys2Proof.Machine.execShli f s
  | .shri f => Sys2Proof.Machine.execShri f s
  | .shrai f => Sys2Proof.Machine.execShrai f s
  | .li f => Sys2Proof.Machine.execLi f s
  | .lih f => Sys2Proof.Machine.execLih f s
  | .j f => Sys2Proof.Machine.execJ f s
  | .jl f => Sys2Proof.Machine.execJl f s
  | .jr f => Sys2Proof.Machine.execJr f s
  | .jlr f => Sys2Proof.Machine.execJlr f s
  | .beq f => Sys2Proof.Machine.execBeq f s
  | .bne f => Sys2Proof.Machine.execBne f s
  | .blt f => Sys2Proof.Machine.execBlt f s
  | .bge f => Sys2Proof.Machine.execBge f s
  | .bltn f => Sys2Proof.Machine.execBltn f s
  | .bgen f => Sys2Proof.Machine.execBgen f s
  | .loop f => Sys2Proof.Machine.execLoop f s
  | .halt => Sys2Proof.Machine.execHalt s
  | .yield => Sys2Proof.Machine.execYield s
  | .beat => Sys2Proof.Machine.execBeat s
  | .brk f => Sys2Proof.Machine.execBrk f s
  | .time f => Sys2Proof.Machine.execTime f s
  | .vcyc f => Sys2Proof.Machine.execVcyc f s
  | .waitt f => Sys2Proof.Machine.execWaitt f s
  | .qpop f => Sys2Proof.Machine.execQpop f s
  | .qpush f => Sys2Proof.Machine.execQpush f s
  | .qbind f => Sys2Proof.Machine.execQbind f s
  | .spawn f => Sys2Proof.Machine.execSpawn f s
  | .phase f => Sys2Proof.Machine.execPhase f s
  | .tkgive f => Sys2Proof.Machine.execTkgive f s
  | .tktake f => Sys2Proof.Machine.execTktake f s
  | .ld f => Sys2Proof.Machine.execLd f s
  | .lds f => Sys2Proof.Machine.execLds f s
  | .st f => Sys2Proof.Machine.execSt f s
  | .ldl f => Sys2Proof.Machine.execLdl f s
  | .stl f => Sys2Proof.Machine.execStl f s
  | .atomAdd f => Sys2Proof.Machine.execAtomAdd f s
  | .atomAnd f => Sys2Proof.Machine.execAtomAnd f s
  | .atomOr f => Sys2Proof.Machine.execAtomOr f s
  | .atomXor f => Sys2Proof.Machine.execAtomXor f s
  | .atomMin f => Sys2Proof.Machine.execAtomMin f s
  | .atomMax f => Sys2Proof.Machine.execAtomMax f s
  | .atomMinn f => Sys2Proof.Machine.execAtomMinn f s
  | .atomMaxn f => Sys2Proof.Machine.execAtomMaxn f s
  | .atomSwap f => Sys2Proof.Machine.execAtomSwap f s
  | .cas f => Sys2Proof.Machine.execCas f s
  | .csig f => Sys2Proof.Machine.execCsig f s
  | .cwait f => Sys2Proof.Machine.execCwait f s
  | .cread f => Sys2Proof.Machine.execCread f s
  | .fence f => Sys2Proof.Machine.execFence f s
  | .bind f => Sys2Proof.Machine.execBind f s
  | .unbind f => Sys2Proof.Machine.execUnbind f s
  | .vregion f => Sys2Proof.Machine.execVregion f s
  | .vld f => Sys2Proof.Machine.execVld f s
  | .vlds f => Sys2Proof.Machine.execVlds f s
  | .vst f => Sys2Proof.Machine.execVst f s
  | .vsts f => Sys2Proof.Machine.execVsts f s
  | .vfloor f => Sys2Proof.Machine.execVfloor f s
  | .vnewest f => Sys2Proof.Machine.execVnewest f s
  | .bpol f => Sys2Proof.Machine.execBpol f s
  | .bwake f => Sys2Proof.Machine.execBwake f s
  | .bdrop f => Sys2Proof.Machine.execBdrop f s
  | .bstate f => Sys2Proof.Machine.execBstate f s
  | .gwait f => Sys2Proof.Machine.execGwait f s
  | .grel f => Sys2Proof.Machine.execGrel f s
  | .gstat f => Sys2Proof.Machine.execGstat f s
  | .lbfree f => Sys2Proof.Machine.execLbfree f s
  | .lbusy f => Sys2Proof.Machine.execLbusy f s
  | .csrr f => Sys2Proof.Machine.execCsrr f s
  | .csrw f => Sys2Proof.Machine.execCsrw f s
  | .csrs f => Sys2Proof.Machine.execCsrs f s
  | .csrc f => Sys2Proof.Machine.execCsrc f s
  | .ecall f => Sys2Proof.Machine.execEcall f s
  | .tret => Sys2Proof.Machine.execTret s
  | .sret => Sys2Proof.Machine.execSret s
  | .fwcallIdentity f => Sys2Proof.Machine.execFwcallIdentity f s
  | .fwcallMeasurementLog f => Sys2Proof.Machine.execFwcallMeasurementLog f s
  | .fwcallQuote f => Sys2Proof.Machine.execFwcallQuote f s
  | .fwcallRepairMap f => Sys2Proof.Machine.execFwcallRepairMap f s
  | .stage2Map f => Sys2Proof.Machine.execStage2Map f s
  | .stage2Unmap f => Sys2Proof.Machine.execStage2Unmap f s
  | .moveToTier1 f => Sys2Proof.Machine.execMoveToTier1 f s
  | .moveToTier2 f => Sys2Proof.Machine.execMoveToTier2 f s
  | .setPermissions f => Sys2Proof.Machine.execSetPermissions f s
  | .pageRetirement f => Sys2Proof.Machine.execPageRetirement f s
  | .windowDeclare f => Sys2Proof.Machine.execWindowDeclare f s
  | .windowRemove f => Sys2Proof.Machine.execWindowRemove f s
  | .tspill f => Sys2Proof.Machine.execTspill f s
  | .tfill f => Sys2Proof.Machine.execTfill f s
  | .ctxsave f => Sys2Proof.Machine.execCtxsave f s
  | .ctxload f => Sys2Proof.Machine.execCtxload f s
  | .tlbinv f => Sys2Proof.Machine.execTlbinv f s
  | .zerorange f => Sys2Proof.Machine.execZerorange f s
  | .psync => Sys2Proof.Machine.execPsync s
  | .wdog f => Sys2Proof.Machine.execWdog f s
  | .dlvl f => Sys2Proof.Machine.execDlvl f s
  | .cancel f => Sys2Proof.Machine.execCancel f s
  | .cancelClear f => Sys2Proof.Machine.execCancelClear f s
  | .lline f => Sys2Proof.Machine.execLline f s
  | .ltile f => Sys2Proof.Machine.execLtile f s
  | .ltrans f => Sys2Proof.Machine.execLtrans f s
  | .lfeed f => Sys2Proof.Machine.execLfeed f s
  | .lsetf f => Sys2Proof.Machine.execLsetf f s
  | .lwgt f => Sys2Proof.Machine.execLwgt f s
  | .lgath f => Sys2Proof.Machine.execLgath f s
  | .lmask f => Sys2Proof.Machine.execLmask f s
  | .lvc f => Sys2Proof.Machine.execLvc f s
  | .lzero f => Sys2Proof.Machine.execLzero f s
  | .xmma f => Sys2Proof.Machine.execXmma f s
  | .xmmam f => Sys2Proof.Machine.execXmmam f s
  | .xspmm f => Sys2Proof.Machine.execXspmm f s
  | .xswap f => Sys2Proof.Machine.execXswap f s
  | .xshape f => Sys2Proof.Machine.execXshape f s
  | .xclr f => Sys2Proof.Machine.execXclr f s
  | .xbias f => Sys2Proof.Machine.execXbias f s
  | .vadd f => Sys2Proof.Machine.execVadd f s
  | .vsub f => Sys2Proof.Machine.execVsub f s
  | .vmul f => Sys2Proof.Machine.execVmul f s
  | .vfma f => Sys2Proof.Machine.execVfma f s
  | .vfms f => Sys2Proof.Machine.execVfms f s
  | .vfnma f => Sys2Proof.Machine.execVfnma f s
  | .vmin f => Sys2Proof.Machine.execVmin f s
  | .vmax f => Sys2Proof.Machine.execVmax f s
  | .vabs f => Sys2Proof.Machine.execVabs f s
  | .vneg f => Sys2Proof.Machine.execVneg f s
  | .vand f => Sys2Proof.Machine.execVand f s
  | .vor f => Sys2Proof.Machine.execVor f s
  | .vxor f => Sys2Proof.Machine.execVxor f s
  | .vnot f => Sys2Proof.Machine.execVnot f s
  | .vshl f => Sys2Proof.Machine.execVshl f s
  | .vshr f => Sys2Proof.Machine.execVshr f s
  | .vshra f => Sys2Proof.Machine.execVshra f s
  | .vrsh f => Sys2Proof.Machine.execVrsh f s
  | .vcmpeq f => Sys2Proof.Machine.execVcmpeq f s
  | .vcmpne f => Sys2Proof.Machine.execVcmpne f s
  | .vcmplt f => Sys2Proof.Machine.execVcmplt f s
  | .vcmple f => Sys2Proof.Machine.execVcmple f s
  | .vsel f => Sys2Proof.Machine.execVsel f s
  | .vcvt f => Sys2Proof.Machine.execVcvt f s
  | .vexp2 f => Sys2Proof.Machine.execVexp2 f s
  | .vlog2 f => Sys2Proof.Machine.execVlog2 f s
  | .vrcp f => Sys2Proof.Machine.execVrcp f s
  | .vrsq f => Sys2Proof.Machine.execVrsq f s
  | .vtanh f => Sys2Proof.Machine.execVtanh f s
  | .vredsum f => Sys2Proof.Machine.execVredsum f s
  | .vredmax f => Sys2Proof.Machine.execVredmax f s
  | .vredmin f => Sys2Proof.Machine.execVredmin f s
  | .vscanadd f => Sys2Proof.Machine.execVscanadd f s
  | .vbcast f => Sys2Proof.Machine.execVbcast f s
  | .vmov f => Sys2Proof.Machine.execVmov f s
  | .vperm f => Sys2Proof.Machine.execVperm f s
  | .viota f => Sys2Proof.Machine.execViota f s
  | .vgets f => Sys2Proof.Machine.execVgets f s
  | .vsets f => Sys2Proof.Machine.execVsets f s
  | .vkand f => Sys2Proof.Machine.execVkand f s
  | .vkor f => Sys2Proof.Machine.execVkor f s
  | .vkxor f => Sys2Proof.Machine.execVkxor f s
  | .vknot f => Sys2Proof.Machine.execVknot f s
  | .vkpopc f => Sys2Proof.Machine.execVkpopc f s
  | .vkfirst f => Sys2Proof.Machine.execVkfirst f s
  | .vacc f => Sys2Proof.Machine.execVacc f s
  | .vpois f => Sys2Proof.Machine.execVpois f s
  | .vhash f => Sys2Proof.Machine.execVhash f s
  | .sline f => Sys2Proof.Machine.execSline f s
  | .stile f => Sys2Proof.Machine.execStile f s
  | .strans f => Sys2Proof.Machine.execStrans f s
  | .sacc f => Sys2Proof.Machine.execSacc f s
  | .ckick f => Sys2Proof.Machine.execCkick f s
  | .cstop f => Sys2Proof.Machine.execCstop f s
  | .cstat f => Sys2Proof.Machine.execCstat f s
  | .cpfl2 f => Sys2Proof.Machine.execCpfl2 f s
  | .czero f => Sys2Proof.Machine.execCzero f s
  | .cwaitch f => Sys2Proof.Machine.execCwaitch f s
  | .nsend f => Sys2Proof.Machine.execNsend f s
  | .nstat f => Sys2Proof.Machine.execNstat f s
  | .gcfgWrite f => Sys2Proof.Machine.execGcfgWrite f s
  | .lbdWrite f => Sys2Proof.Machine.execLbdWrite f s
  | .cpfstatRead f => Sys2Proof.Machine.execCpfstatRead f s
  | .sevbaseWrite f => Sys2Proof.Machine.execSevbaseWrite f s
  | .sevlostRead f => Sys2Proof.Machine.execSevlostRead f s
  | .hqlaunch vd q pkt whole => Sys2Proof.Machine.execHqlaunch vd q pkt whole s
  | .hqdoor vd q widx => Sys2Proof.Machine.execHqdoor vd q widx s
  | .hqStart vd q => Sys2Proof.Machine.execHqStart vd q s
  | .hqStop vd q => Sys2Proof.Machine.execHqStop vd q s
  | .hqClrq vd q => Sys2Proof.Machine.execHqClrq vd q s
  | .accept vd => Sys2Proof.Machine.execAccept vd s
  | .featureReset vd => Sys2Proof.Machine.execFeatureReset vd s
  | .recoveryLoad vd => Sys2Proof.Machine.execRecoveryLoad vd s
  | .recoveryReset bist => Sys2Proof.Machine.execRecoveryReset bist s
  | .hostRegisterWrite r value => Sys2Proof.Machine.execHostRegisterWrite r value s
  | .nopPacket vd q => Sys2Proof.Machine.execNopPacket vd q s
  | .launch vd q => Sys2Proof.Machine.execLaunch vd q s
  | .copyPacket vd q => Sys2Proof.Machine.execCopyPacket vd q s
  | .signal vd q => Sys2Proof.Machine.execSignal vd q s
  | .wait vd q => Sys2Proof.Machine.execWait vd q s
  | .bindPacket vd q => Sys2Proof.Machine.execBindPacket vd q s
  | .cancelPacket vd q => Sys2Proof.Machine.execCancelPacket vd q s
  | .fencePacket vd q => Sys2Proof.Machine.execFencePacket vd q s
  | .waitSatisfied vd q => Sys2Proof.Machine.execWaitSatisfied vd q s
  | .waitTimeout vd q => Sys2Proof.Machine.execWaitTimeout vd q s
  | .copyChainEnd die ch => Sys2Proof.Machine.execCopyChainEnd die ch s
  | .firmwareRestart vd q => Sys2Proof.Machine.execFirmwareRestart vd q s
  | .queueMap vd q thread => Sys2Proof.Machine.execQueueMap vd q thread s
  | .queueUnmap vd q => Sys2Proof.Machine.execQueueUnmap vd q s
  | .taskRelease t => Sys2Proof.Machine.execTaskRelease t s
  | .heldTaskRelease t => Sys2Proof.Machine.execHeldTaskRelease t s
  | .schedulerSelection p die => Sys2Proof.Machine.execSchedulerSelection p die s
  | .deadlineMiss t => Sys2Proof.Machine.execDeadlineMiss t s
  | .progress t => Sys2Proof.Machine.execProgress t s
  | .budgetOverrun t => Sys2Proof.Machine.execBudgetOverrun t s
  | .admissionEvaluation p die => Sys2Proof.Machine.execAdmissionEvaluation p die s
  | .quarantineRotation die => Sys2Proof.Machine.execQuarantineRotation die s
  | .sliceEnd p => Sys2Proof.Machine.execSliceEnd p s
  | .sliceStart p => Sys2Proof.Machine.execSliceStart p s
  | .forcedSave c => Sys2Proof.Machine.execForcedSave c s
  | .takePendingCause c => Sys2Proof.Machine.execTakePendingCause c s
  | .bankWakeComplete c pad idx => Sys2Proof.Machine.execBankWakeComplete c pad idx s
  | .cwaitSatisfied c => Sys2Proof.Machine.execCwaitSatisfied c s
  | .queueEntryDelivered c => Sys2Proof.Machine.execQueueEntryDelivered c s
  | .waittExpiry c => Sys2Proof.Machine.execWaittExpiry c s
  | .gwaitSatisfied c => Sys2Proof.Machine.execGwaitSatisfied c s
  | .versionWaitWake c => Sys2Proof.Machine.execVersionWaitWake c s
  | .versionWaitRetry c => Sys2Proof.Machine.execVersionWaitRetry c s
  | .creationRetry who => Sys2Proof.Machine.execCreationRetry who s
  | .versionTimeout who => Sys2Proof.Machine.execVersionTimeout who s
  | .transferRecord c ch bad => Sys2Proof.Machine.execTransferRecord c ch bad s
  | .gutterClaim c g => Sys2Proof.Machine.execGutterClaim c g s
  | .gutterFill c g bad => Sys2Proof.Machine.execGutterFill c g bad s
  | .multicastLanding c ch bad => Sys2Proof.Machine.execMulticastLanding c ch bad s
  | .prefetchResident c failed => Sys2Proof.Machine.execPrefetchResident c failed s
  | .endpointTake c slot => Sys2Proof.Machine.execEndpointTake c slot s
  | .transmissionStart c slot => Sys2Proof.Machine.execTransmissionStart c slot s
  | .sendAcknowledged c slot => Sys2Proof.Machine.execSendAcknowledged c slot s
  | .inboundMessage handle word bytes => Sys2Proof.Machine.execInboundMessage handle word bytes s
  | .ptpMessage msg => Sys2Proof.Machine.execPtpMessage msg s
  | .reductionGroup win => Sys2Proof.Machine.execReductionGroup win s
  | .linkRetired link => Sys2Proof.Machine.execLinkRetired link s
  | .heartbeat die => Sys2Proof.Machine.execHeartbeat die s
  | .dieFailed die => Sys2Proof.Machine.execDieFailed die s
  | .partitionCommit => Sys2Proof.Machine.execPartitionCommit s
  | .deviceQuiet v => Sys2Proof.Machine.execDeviceQuiet v s
  | .thermalReport h tenths => Sys2Proof.Machine.execThermalReport h tenths s
  | .powerCap watts => Sys2Proof.Machine.execPowerCap watts s
  | .reservationRequest c u => Sys2Proof.Machine.execReservationRequest c u s
  | .reservationGrant cluster => Sys2Proof.Machine.execReservationGrant cluster s
  | .droop cluster => Sys2Proof.Machine.execDroop cluster s
  | .droopFreezeEnd cluster => Sys2Proof.Machine.execDroopFreezeEnd cluster s
  | .uncorrectableError where_ => Sys2Proof.Machine.execUncorrectableError where_ s
  | .watchdog die => Sys2Proof.Machine.execWatchdog die s
  | .powerOn bist => Sys2Proof.Machine.execPowerOn bist s
  | .sendFailed c slot code => Sys2Proof.Machine.execSendFailed c slot code s

end Sys2Proof.Machine
end

