-- ==== Sys2Proof/Machine/Step.lean ====
section
/-! DEFINITION. One step: the next move of the agenda, or the default move; and a word placed where the next
step fetches (log 2, log 3). -/

namespace Sys2Proof.Machine

/-- The sequencer of the focused context, what its engines have under way written: a trap at its boundary, or the
instruction there (R22). (DESIGN CHOICE, log 10) -/
def sequencerStep (s : State) : Host.Outcome State Fault Refusal :=
  let s0 := { s with ctx := s.ctx.settleLate }
  match s0.boundary with
  | .instr i => exec i s0
  | .trap s1 => .next s1

/-- An engine of the focused context: the entry it works on, where that may begin; pushes, and cells still to be
written, need no leave (R21, R147, R341). -/
def engineStep (e : Eng) (s : State) : Host.Outcome State Fault Refusal :=
  match s.nextEntry e with
  | none => .next s
  | some en =>
    if en.pushOwed || !en.late.isEmpty then exec en.instr { s with acting := some (e, en) }
    else match s.leave e with
      | (s1, false) => .next s1
      | (s1, true) => exec en.instr { s1 with acting := some (e, en) }

/-- One move. (DESIGN CHOICE, log 3) (DESIGN CHOICE, log 20) (DESIGN CHOICE, log 50) -/
def turnStep (t : Turn) (s : State) : Host.Outcome State Fault Refusal := match t with
  | .part u => turnStep u { s with parts := true }
  | .seq core => match s.onCore core with
    | some s1 => sequencerStep s1
    | none => .fault .noContext
  | .engine core e => match s.onCore core with
    | some s1 => engineStep e s1
    | none => .fault .noContext
  | .thread vd q => exec (s.threadInstr vd q) s
  | .event i => if encode i = BitVec.allOnes 64 then exec i s else .next s
  | .tick n => .next (s.tick n)
  | .tlbFill core va own => .next (s.fillTlb core va own)
  | .walkFill die vdn va => .next (s.fillWalks die vdn (s.vdPart vdn) va)
  | .tlbEvict i => .next { s with tlb := s.tlb.eraseIdx i }
  | .l1Evict core line => .next (s.evictL1 core line)
  | .openConn h conn => .next (s.openConn h conn)
  | .installKey h key => .next (s.installKey h key)
  | .timeSource port => .next (s.setTimePort port)
  | .functions n => .next (s.setFunctions n)
  | .farContribution ident off op val => .next (s.farContribution ident off op val)
  | .promotion => .next s.endPromotion
  | .carried vd c => .next (s.carried vd c)
  | .setFreeze cluster cycles => .next (s.setFreeze cluster cycles)
  | .factory image record => .next (s.factory image record)
  | .recovery bist => .next (s.recoveryGoes bist)
  | .hostRead vd off => .next (s.hostReads vd off)
  | .hostStore a bs => .next { s with hostMem := Sparse.setList memDefault s.hostMem a bs }
  | .commitBlock vd q => .next (s.setHq vd q (s.hq vd q).commit)
  | .stall core ctr n => .next (s.countStall core ctr n)

/-- The state an outcome leads to, where it differs from the one it began in. -/
def progressOf (s : State) (o : Host.Outcome State Fault Refusal) : Option State := match o with
  | .next s1 => if s1 = s then none else some s1
  | _ => none

/-- The default move of a running focus: an engine that can go on, else something else that can, else its
sequencer; a sequencer that only waits lets another running context have the focus. (DESIGN CHOICE, log 3) -/
def defaultStep (s : State) : Host.Outcome State Fault Refusal :=
  match [Eng.l, Eng.x, Eng.v, Eng.s].findSome? (fun e =>
      if (s.bank.queue e).isEmpty then none else progressOf s (s.wholly (engineStep e s))) with
  | some s1 => .next s1
  | none => match s.chores.findSome? (fun go => progressOf s (s.wholly (go s))) with
    | some s1 => .next s1
    | none => match s.otherRunning with
      | none => s.wholly (sequencerStep s)
      | some id => match s.wholly (sequencerStep s) with
        | .next s1 => if s1 = s then .next (s.focus id) else .next s1
        | o => o

/-- What a step leaves: moves are whole again, waits have been given what has come (R33, R107, R124). -/
def settled : Host.Outcome State Fault Refusal → Host.Outcome State Fault Refusal
  | .next s => .next ({ s with parts := false } : State).settle
  | .fault f => .fault f
  | .refused r => .refused r

/-- One step of the module: the agenda's next move; with none, the default move; with nothing running,
nothing. (DESIGN CHOICE, log 2) (DESIGN CHOICE, log 3) -/
def step (s : State) : Host.Outcome State Fault Refusal :=
  settled (match s.agenda with
    | t :: rest => ({ s with agenda := rest } : State).wholly (turnStep t { s with agenda := rest })
    | [] =>
      if s.running s.ctx then defaultStep s
      else match s.otherRunning with
        | some id => defaultStep (s.focus id)
        | none => .next s)

/-- A state whose next step fetches and runs an instruction word. (DESIGN CHOICE, log 2) -/
def State.withFetchWord (s : State) (nbits w : Nat) : State :=
  let s1 := s.ready
  let pa := s1.loadEntry.pa + s1.ctx.pc.toNat % 65536
  let v := if nbits ≤ 64 then w else 0
  ({ s1 with marks := Sparse.set (fun _ => false) s1.marks (pa / 64) false } : State).rawWrite pa
    (bytesOfWord (BitVec.ofNat 64 v))

end Sys2Proof.Machine
end

