-- ==== Sys2Proof/Safety.lean ====
section
/-! DEFINITION. What counts as a safe run: no stop, and states that keep the model's invariant; and the
plain conditions on registers under which statements speak of an instruction. -/

namespace Sys2Proof

/-- Whether an outcome is a next state. -/
def Goes (o : Host.Outcome Machine.State Machine.Fault Machine.Refusal) : Prop := ∃ t, o = .next t

/-- The canonical form of the state's memories: the module's, the host's. -/
def Inv (s : Machine.State) : Prop :=
  Machine.Memory.wf s.mem = true ∧ Machine.Sparse.wf Machine.memDefault s.hostMem = true

/-- A run of n steps that meets no stop. -/
def Safe (n : Nat) (s : Machine.State) : Prop := ∃ t, core.run n s = .next t

namespace Machine

/-- No register of a list is bound to a queue or pending on a V entry (R156, R247). -/
def State.Plain (s : State) (rs : List Reg) : Prop :=
  (∀ r ∈ rs, s.ctx.boundSlot r = none) ∧ ∀ r ∈ rs, s.bank.pends r = false

/-- No register of a list is poisoned (R52). -/
def State.Clean (s : State) (rs : List Reg) : Prop := ∀ r ∈ rs, (s.rd r).pois = false

/-- What is left of a retirement where no source is bound: no wait, the program counter, PMC1 (R22, R308). -/
def State.goOn (s : State) (pc : Word) : State := (s.endWait.setPc pc).pmcAdd s.ctx.vdn.toNat 1 1

/-- The next instruction in order (R137). -/
def State.pc8 (s : State) : Word := s.ctx.pc + 8#64

end Machine

end Sys2Proof
end

