-- ==== Sys2Proof/WellFormed.lean ====
section
/-! DEFINITION. Well-formed instructions: those a word of which reads as them (R139 to R144, R302). -/

namespace Sys2Proof

/-- Whether a row of the opcode table has a word of its own: events have none, rows that an operand decides
share the word of the row they vary, and the words of CSR accesses with a row of their own are read as that
row. -/
def Instr.ownWord : Instr → Bool
  | .stage2Unmap _ | .moveToTier1 _ | .moveToTier2 _ | .setPermissions _ | .windowRemove _ | .cancelClear _ => false
  | .csrr f => f.csr != 0x00D#12 && f.csr != 0x303#12
  | .csrw f => !(decide (0x010 ≤ f.csr.toNat) && decide (f.csr.toNat < 0x040)) && f.csr != 0x300#12
  | .hqlaunch _ _ _ _ | .hqdoor _ _ _ | .hqStart _ _ | .hqStop _ _ | .hqClrq _ _ | .accept _
  | .featureReset _ | .recoveryLoad _ | .recoveryReset _ | .hostRegisterWrite _ _ | .nopPacket _ _
  | .launch _ _ | .copyPacket _ _ | .signal _ _ | .wait _ _ | .bindPacket _ _ | .cancelPacket _ _
  | .fencePacket _ _ | .waitSatisfied _ _ | .waitTimeout _ _ | .copyChainEnd _ _ | .firmwareRestart _ _
  | .queueMap _ _ _ | .queueUnmap _ _ | .taskRelease _ | .heldTaskRelease _ | .schedulerSelection _ _
  | .deadlineMiss _ | .progress _ | .budgetOverrun _ | .admissionEvaluation _ _ | .quarantineRotation _
  | .sliceEnd _ | .sliceStart _ | .forcedSave _ | .takePendingCause _ | .bankWakeComplete _ _ _
  | .cwaitSatisfied _ | .queueEntryDelivered _ | .waittExpiry _ | .gwaitSatisfied _ | .versionWaitWake _
  | .versionWaitRetry _ | .creationRetry _ | .versionTimeout _ | .transferRecord _ _ _ | .gutterClaim _ _
  | .gutterFill _ _ _ | .multicastLanding _ _ _ | .prefetchResident _ _ | .endpointTake _ _
  | .transmissionStart _ _ | .sendAcknowledged _ _ | .inboundMessage _ _ _ | .ptpMessage _
  | .reductionGroup _ | .linkRetired _ | .heartbeat _ | .dieFailed _ | .partitionCommit | .deviceQuiet _
  | .thermalReport _ _ | .powerCap _ | .reservationRequest _ _ | .reservationGrant _ | .droop _
  | .droopFreezeEnd _ | .uncorrectableError _ | .watchdog _ | .powerOn _ | .sendFailed _ _ _ => false
  | _ => true

/-- An instruction is well formed where it has a word of its own and its fields hold what its form accepts. -/
def Instr.wf (i : Instr) : Bool := i.ownWord && fieldsOk i

end Sys2Proof
end

