-- ==== Sys2Proof/Certificates/Slice0/Obligations.lean ====
section
/-! DEFINITION. The statements for the provers: each says what an instruction, an event or the machine does,
in terms of `exec` and `step`, with the rule of the manual it rests on. -/

open Sys2Proof Sys2Proof.Machine

namespace Sys2Proof.Say

/-! ### What a SALU instruction writes, from its sources' values (R158 to R165) -/

/-- The integer quotient of R159. -/
def quot (a b : Word) : Word := if b = 0#64 then BitVec.ofInt 64 (-1) else BitVec.ofInt 64 (a.toInt.tdiv b.toInt)

/-- The integer remainder of R159. -/
def remd (a b : Word) : Word := if b = 0#64 then a else BitVec.ofInt 64 (a.toInt.tmod b.toInt)

/-- A count n of R161: 0 stands for 64. -/
def count (l : BitVec 6) : Nat := if l.toNat = 0 then 64 else l.toNat

/-- What a SALU instruction writes to D, `x` giving the value of each register. -/
def saluValue (x : Reg → Word) : Instr → Option Word
  | .add f => some (BitVec.ofNat 64 ((x f.a).toNat + (x f.b).toNat))
  | .sub f => some (BitVec.ofInt 64 ((x f.a).toInt - (x f.b).toInt))
  | .mul f => some (BitVec.ofNat 64 ((x f.a).toNat * (x f.b).toNat))
  | .mulh f => some (BitVec.ofInt 64 ((x f.a).toInt * (x f.b).toInt / 2 ^ 64))
  | .mulhn f => some (BitVec.ofNat 64 ((x f.a).toNat * (x f.b).toNat / 2 ^ 64))
  | .div f => some (quot (x f.a) (x f.b))
  | .divn f => some (if x f.b = 0#64 then BitVec.allOnes 64 else BitVec.ofNat 64 ((x f.a).toNat / (x f.b).toNat))
  | .rem f => some (remd (x f.a) (x f.b))
  | .remn f => some (if x f.b = 0#64 then x f.a else BitVec.ofNat 64 ((x f.a).toNat % (x f.b).toNat))
  | .and f => some (x f.a &&& x f.b)
  | .or f => some (x f.a ||| x f.b)
  | .xor f => some (x f.a ^^^ x f.b)
  | .andn f => some (x f.a &&& ~~~ x f.b)
  | .shl f => some (BitVec.ofNat 64 ((x f.a).toNat * 2 ^ ((x f.b).toNat % 64)))
  | .shr f => some (BitVec.ofNat 64 ((x f.a).toNat / 2 ^ ((x f.b).toNat % 64)))
  | .shra f => some (BitVec.ofInt 64 ((x f.a).toInt / 2 ^ ((x f.b).toNat % 64)))
  | .rotl f => some ((x f.a <<< ((x f.b).toNat % 64)) ||| (x f.a >>> (64 - (x f.b).toNat % 64)))
  | .clz f => some (BitVec.ofNat 64 ((List.range 64).takeWhile (fun i => !(x f.a).getMsbD i)).length)
  | .ctz f => some (BitVec.ofNat 64 ((List.range 64).takeWhile (fun i => !(x f.a).getLsbD i)).length)
  | .popc f => some (BitVec.ofNat 64 ((List.range 64).countP (fun i => (x f.a).getLsbD i)))
  | .sext f => some (((x f.a).setWidth (count f.len)).signExtend 64)
  | .zext f => some (((x f.a).setWidth (count f.len)).setWidth 64)
  | .min f => some (BitVec.ofInt 64 (min (x f.a).toInt (x f.b).toInt))
  | .max f => some (BitVec.ofInt 64 (max (x f.a).toInt (x f.b).toInt))
  | .minn f => some (BitVec.ofNat 64 (min (x f.a).toNat (x f.b).toNat))
  | .maxn f => some (BitVec.ofNat 64 (max (x f.a).toNat (x f.b).toNat))
  | .seteq f => some (if x f.a = x f.b then 1#64 else 0#64)
  | .setlt f => some (if (x f.a).toInt < (x f.b).toInt then 1#64 else 0#64)
  | .setltn f => some (if (x f.a).toNat < (x f.b).toNat then 1#64 else 0#64)
  | .csel f => some (if x f.c = 0#64 then x f.b else x f.a)
  | .addsh f => some (BitVec.ofNat 64 ((x f.a).toNat + (x f.b).toNat * 2 ^ f.len.toNat))
  | .bfx f => some (((x f.a >>> f.pos.toNat).setWidth (count f.len)).setWidth 64)
  | .bfi f => some (BitVec.ofNat 64 ((x f.d).toNat
      - (x f.d).toNat / 2 ^ f.pos.toNat % 2 ^ count f.len * 2 ^ f.pos.toNat
      + (x f.a).toNat % 2 ^ count f.len * 2 ^ f.pos.toNat))
  | .chash f => some (mix4 (x f.a) (x f.b) (x f.c))
  | .addi f => some (BitVec.ofInt 64 ((x f.a).toInt + f.imm.toInt))
  | .andi f => some (x f.a &&& BitVec.ofInt 64 f.imm.toInt)
  | .ori f => some (x f.a ||| BitVec.ofInt 64 f.imm.toInt)
  | .xori f => some (x f.a ^^^ BitVec.ofInt 64 f.imm.toInt)
  | .shli f => some (BitVec.ofNat 64 ((x f.a).toNat * 2 ^ f.imm.toNat))
  | .shri f => some (BitVec.ofNat 64 ((x f.a).toNat / 2 ^ f.imm.toNat))
  | .shrai f => some (BitVec.ofInt 64 ((x f.a).toInt / 2 ^ f.imm.toNat))
  | .li f => some (BitVec.ofInt 64 f.imm.toInt)
  | .lih f => some (BitVec.ofNat 64 (f.imm.toNat % 2 ^ 28 * 2 ^ 36 + (x f.a).toNat % 2 ^ 36))
  | _ => none

/-- The operands of a SALU instruction: D, SP, the sources it consumes with their operand numbers, in the
order they are consumed (R155, R163, R347). POIS and UNPOIS, which consume nothing, are not listed. -/
def saluForm (x : Reg → Word) : Instr → Option (Reg × Bool × List (Nat × Reg))
  | .add f => some (f.d, f.sp, [(1, f.a), (2, f.b)])
  | .sub f => some (f.d, f.sp, [(1, f.a), (2, f.b)])
  | .mul f => some (f.d, f.sp, [(1, f.a), (2, f.b)])
  | .mulh f => some (f.d, f.sp, [(1, f.a), (2, f.b)])
  | .mulhn f => some (f.d, f.sp, [(1, f.a), (2, f.b)])
  | .div f => some (f.d, f.sp, [(1, f.a), (2, f.b)])
  | .divn f => some (f.d, f.sp, [(1, f.a), (2, f.b)])
  | .rem f => some (f.d, f.sp, [(1, f.a), (2, f.b)])
  | .remn f => some (f.d, f.sp, [(1, f.a), (2, f.b)])
  | .and f => some (f.d, f.sp, [(1, f.a), (2, f.b)])
  | .or f => some (f.d, f.sp, [(1, f.a), (2, f.b)])
  | .xor f => some (f.d, f.sp, [(1, f.a), (2, f.b)])
  | .andn f => some (f.d, f.sp, [(1, f.a), (2, f.b)])
  | .shl f => some (f.d, f.sp, [(1, f.a), (2, f.b)])
  | .shr f => some (f.d, f.sp, [(1, f.a), (2, f.b)])
  | .shra f => some (f.d, f.sp, [(1, f.a), (2, f.b)])
  | .rotl f => some (f.d, f.sp, [(1, f.a), (2, f.b)])
  | .min f => some (f.d, f.sp, [(1, f.a), (2, f.b)])
  | .max f => some (f.d, f.sp, [(1, f.a), (2, f.b)])
  | .minn f => some (f.d, f.sp, [(1, f.a), (2, f.b)])
  | .maxn f => some (f.d, f.sp, [(1, f.a), (2, f.b)])
  | .seteq f => some (f.d, f.sp, [(1, f.a), (2, f.b)])
  | .setlt f => some (f.d, f.sp, [(1, f.a), (2, f.b)])
  | .setltn f => some (f.d, f.sp, [(1, f.a), (2, f.b)])
  | .addsh f => some (f.d, f.sp, [(1, f.a), (2, f.b)])
  | .clz f => some (f.d, f.sp, [(1, f.a)])
  | .ctz f => some (f.d, f.sp, [(1, f.a)])
  | .popc f => some (f.d, f.sp, [(1, f.a)])
  | .sext f => some (f.d, f.sp, [(1, f.a)])
  | .zext f => some (f.d, f.sp, [(1, f.a)])
  | .bfx f => some (f.d, f.sp, [(1, f.a)])
  | .bfi f => some (f.d, f.sp, [(1, f.a), (4, f.d)])
  | .csel f => some (f.d, f.sp, [(3, f.c), if x f.c = 0#64 then (2, f.b) else (1, f.a)])
  | .chash f => some (f.d, f.sp, [(1, f.a), (2, f.b), (3, f.c)])
  | .addi f => some (f.d, f.sp, [(1, f.a)])
  | .andi f => some (f.d, f.sp, [(1, f.a)])
  | .ori f => some (f.d, f.sp, [(1, f.a)])
  | .xori f => some (f.d, f.sp, [(1, f.a)])
  | .shli f => some (f.d, f.sp, [(1, f.a)])
  | .shri f => some (f.d, f.sp, [(1, f.a)])
  | .shrai f => some (f.d, f.sp, [(1, f.a)])
  | .lih f => some (f.d, f.sp, [(1, f.a)])
  | .li f => some (f.d, false, [])
  | _ => none

/-- The values of the scalar registers. -/
def vals (s : State) (r : Reg) : Word := (s.rd r).bits

/-- The registers a SALU instruction names. -/
def saluRegs : Instr → List Reg
  | .csel f => [f.a, f.b, f.c, f.d]
  | i => match saluForm (fun _ => 0#64) i with
    | some (d, _, l) => d :: l.map Prod.snd
    | none => []

end Sys2Proof.Say

/-- R155, R158 to R165: the result of a SALU instruction, and that nothing else changes. -/
def Obligations.ScalarResultWritten : Prop :=
  ∀ (i : Instr) (s : State) (d : Reg) (sp : Bool) (l : List (Nat × Reg)) (v : Word),
    Say.saluForm (Say.vals s) i = some (d, sp, l) → Say.saluValue (Say.vals s) i = some v →
    s.Plain (Say.saluRegs i) → s.Clean (l.map Prod.snd) →
    exec i s = .next ((s.wrc d v).goOn s.pc8)

/-- R155: poison consumed by a SALU instruction. -/
def Obligations.PoisonedScalarSource : Prop :=
  ∀ (i : Instr) (s : State) (d : Reg) (sp : Bool) (l : List (Nat × Reg)) (v : Word) (n : Nat) (r : Reg),
    Say.saluForm (Say.vals s) i = some (d, sp, l) → Say.saluValue (Say.vals s) i = some v →
    s.Plain (Say.saluRegs i) → l.find? (fun e => (s.rd e.2).pois) = some (n, r) →
    exec i s = .next (if sp then (s.wr d { bits := v, pois := true }).goOn s.pc8
      else s.fault (Cause.seq 0x07#8 n 0#64))

/-- R164: POIS and UNPOIS; R144: NOP. -/
def Obligations.PoisonTestAndClear : Prop :=
  ∀ (s : State), exec .nop s = .next (s.goOn s.pc8) ∧
    ∀ f : FR2, s.Plain [f.a, f.d] →
      exec (.pois f) s = .next ((s.wrc f.d (if (s.rd f.a).pois then 1#64 else 0#64)).goOn s.pc8) ∧
      exec (.unpois f) s = .next ((s.wrc f.d (if (s.rd f.a).pois then 0#64 else (s.rd f.a).bits)).goOn s.pc8)

/-- R38, R137: the frame of a scalar write followed by a retirement. -/
def Obligations.RetirementFrame : Prop :=
  ∀ (s : State) (d r : Reg) (v : SReg) (pc : Word), s.ctx.boundSlot d = none →
    let t := (s.wr d v).goOn pc
    t.rd r = (if r = d ∧ d ≠ 0#6 then v else s.rd r) ∧
    (t.bank.k = s.bank.k ∧ t.bank.vc = s.bank.vc ∧ t.bank.ashape = s.bank.ashape ∧ t.bank.emode = s.bank.emode ∧
      t.bank.estat = s.bank.estat ∧ t.bank.sqp = s.bank.sqp ∧ t.bank.fifo = s.bank.fifo ∧
      t.bank.qL = s.bank.qL ∧ t.bank.qX = s.bank.qX ∧ t.bank.qV = s.bank.qV ∧ t.bank.qS = s.bank.qS ∧
      t.bank.wait = none) ∧
    t.ctx.pc = pc ∧
    t.ctx.setBank s.bank = { s.ctx with pc := pc } ∧
    (∀ k, t.pmcGet (k / 16) (k % 16) =
      s.pmcGet (k / 16) (k % 16) + (if k = s.ctx.vdn.toNat * 16 + 1 then 1#64 else 0#64)) ∧
    { t with ctx := s.ctx, pmc := s.pmc } = s

namespace Sys2Proof.Say

/-- The target of a BR form: the address of the branch plus 8 × OFF, modulo 2⁶⁴ (R140, R191). -/
def target (s : State) (off : BitVec 30) : Word := BitVec.ofInt 64 (s.ctx.pc.toNat + 8 * off.toInt)

/-- A conditional branch: A, B, OFF, and whether it is taken on the values of A and B (R168). -/
def branch (x : Reg → Word) : Instr → Option (Reg × Reg × BitVec 30 × Prop)
  | .beq f => some (f.a, f.b, f.off, x f.a = x f.b)
  | .bne f => some (f.a, f.b, f.off, x f.a ≠ x f.b)
  | .blt f => some (f.a, f.b, f.off, (x f.a).toInt < (x f.b).toInt)
  | .bge f => some (f.a, f.b, f.off, (x f.a).toInt ≥ (x f.b).toInt)
  | .bltn f => some (f.a, f.b, f.off, (x f.a).toNat < (x f.b).toNat)
  | .bgen f => some (f.a, f.b, f.off, (x f.a).toNat ≥ (x f.b).toNat)
  | _ => none

/-- Guest wall time of a device: package time and the offset in force, modulo 2⁶⁴ (R175, R384). -/
def guest (s : State) (v : Nat) : Word := BitVec.ofInt 64 ((s.now : Int) + Sparse.get (fun _ => 0) s.voff v)

end Sys2Proof.Say

/-- R167: the four jumps. -/
def Obligations.JumpsReachTheirTarget : Prop :=
  ∀ (s : State),
    (∀ f : FOff, exec (.j f) s = .next (s.goOn (Say.target s f.off))) ∧
    (∀ f : FDOff, s.Plain [f.d] → exec (.jl f) s = .next ((s.wrc f.d s.pc8).goOn (Say.target s f.off))) ∧
    (∀ f : FAImm, s.Plain [f.a] →
      let t := BitVec.ofInt 64 ((s.rd f.a).bits.toInt + f.imm.toInt)
      exec (.jr f) s = .next (
        if (s.rd f.a).pois then s.fault (Cause.seq 0x07#8 1 0#64)
        else if t.toNat % 8 = 0 then s.goOn t else s.fault (Cause.seq 0x06#8 0 t))) ∧
    (∀ f : FDAImm, s.Plain [f.a, f.d] →
      let t := BitVec.ofInt 64 ((s.rd f.a).bits.toInt + f.imm.toInt)
      exec (.jlr f) s = .next (
        if (s.rd f.a).pois then s.fault (Cause.seq 0x07#8 1 0#64)
        else if t.toNat % 8 = 0 then (s.wrc f.d s.pc8).goOn t else s.fault (Cause.seq 0x06#8 0 t)))

/-- R168, R169: conditional branches. -/
def Obligations.BranchesGoWhereTaken : Prop :=
  ∀ (s : State),
    (∀ (i : Instr) (a b : Reg) (off : BitVec 30) (taken : Prop),
      Say.branch (Say.vals s) i = some (a, b, off, taken) → s.Plain [a, b] →
      (s.Clean [a, b] → (taken → exec i s = .next (s.goOn (Say.target s off))) ∧
        (¬ taken → exec i s = .next (s.goOn s.pc8))) ∧
      ((s.rd a).pois = true → exec i s = .next (s.fault (Cause.seq 0x07#8 1 0#64))) ∧
      ((s.rd a).pois = false → (s.rd b).pois = true → exec i s = .next (s.fault (Cause.seq 0x07#8 2 0#64)))) ∧
    (∀ f : FAOff, s.Plain [f.a] →
      let n := (s.rd f.a).bits - 1#64
      exec (.loop f) s = .next (
        if (s.rd f.a).pois then s.fault (Cause.seq 0x07#8 1 0#64)
        else (s.wrc f.a n).goOn (if n = 0#64 then s.pc8 else Say.target s f.off)))

/-- R148, R173 to R177. -/
def Obligations.TimeBeatAndTokens : Prop :=
  ∀ (s : State),
    (∀ f : FD1, s.Plain [f.d] →
      exec (.time f) s = .next ((s.wrc f.d (Say.guest s s.ctx.vdn.toNat)).goOn s.pc8) ∧
      exec (.vcyc f) s = .next ((s.wrc f.d (BitVec.ofNat 64 s.ctx.vcyc)).goOn s.pc8)) ∧
    (∀ f : FA1, s.Plain [f.a] → exec (.waitt f) s = .next (
      if (s.rd f.a).pois then s.fault (Cause.seq 0x07#8 1 0#64)
      else if (s.rd f.a).bits.toNat ≤ (Say.guest s s.ctx.vdn.toNat).toNat then s.goOn s.pc8
      else s.waitAt (.time (s.rd f.a).bits) false)) ∧
    (∃ t : State, exec .beat s = .next (t.goOn s.pc8) ∧ t.ctx.progX = 0 ∧
      t.ctx.progT = (((s.ctx.task.bind s.findTask).map Task.prog).getD 0) * 1000 ∧
      { t with ctx := { t.ctx with progX := s.ctx.progX, progT := s.ctx.progT } } = s) ∧
    (∀ f : FTk,
      exec (.tkgive f) s = .next (
        if s.bank.fifo.sl + f.n.toNat ≤ 8 then
          (s.setBank { s.bank with fifo := { s.bank.fifo with sl := s.bank.fifo.sl + f.n.toNat } }).goOn s.pc8
        else s.waitAt .other false) ∧
      exec (.tktake f) s = .next (
        if f.n.toNat ≤ s.bank.fifo.ls then
          (s.setBank { s.bank with fifo := { s.bank.fifo with ls := s.bank.fifo.ls - f.n.toNat } }).goOn s.pc8
        else s.waitAt .other false))

/-- R346, R348, R349: entry of the tenant handler. -/
def Sys2Proof.Say.TenantHandlerEntered : Prop :=
  ∀ (s : State) (c : Cause) (resume : Word),
    s.ctx.level = .tenant → s.ctx.risen = false → s.ctx.thnd = false → s.ctx.shnd = false → s.ctx.tvec ≠ 0#64 →
    c.code ∉ [0x0F#8, 0x13#8, 0x14#8, 0x19#8] → ¬ (c.code ∈ [0x04#8, 0x05#8] ∧ c.sub = 1#8) →
    c.unit < 8 → c.ch < 8 →
    let t := s.takeTrap c resume
    t.ctx.tepc = resume ∧ t.ctx.tval = c.val ∧ t.ctx.tbudget = s.ctx.pbud.toNat ∧ t.ctx.thnd = true ∧
    t.ctx.pc = s.ctx.tvec ∧
    t.ctx.tcause.toNat = c.code.toNat + 2 ^ 8 * c.sub.toNat + 2 ^ 16 * c.unit + 2 ^ 19 * (if c.async then 1 else 0) +
      2 ^ 21 * c.ch ∧
    (∀ r : Reg, t.bank.getS r.toNat = if r = 62#6 then { bits := s.ctx.tscr, pois := false } else SReg.zero) ∧
    (∀ k, k ≠ 0 → t.bank.getK k = KReg.zero) ∧
    t.bank.vc = 64#7 ∧ t.bank.ashape = 0xF#4 ∧ t.bank.emode = 0#4 ∧ t.bank.estat = 0#7 ∧ t.bank.sqp = 0#12 ∧
    t.bank.fifo = Fifos.zero ∧ t.bank.qL = [] ∧ t.bank.qX = [] ∧ t.bank.qV = [] ∧ t.bank.qS = [] ∧
    { t with ctx := { t.ctx with
        tepc := s.ctx.tepc, tval := s.ctx.tval, tcause := s.ctx.tcause, tbudget := s.ctx.tbudget
        tbank := s.ctx.tbank, thnd := s.ctx.thnd, pc := s.ctx.pc, sliceOld := s.ctx.sliceOld } } = s

/-- R346, R348: entry of the steward handler. -/
def Sys2Proof.Say.StewardHandlerEntered : Prop :=
  ∀ (s : State) (c : Cause) (resume : Word), c.unit < 8 → c.ch < 8 →
    ((s.ctx.shnd = false ∧
      (s.ctx.level = .steward ∨ s.ctx.risen = true ∨ s.ctx.thnd = true ∨ c.code ∈ [0x0F#8, 0x13#8, 0x14#8, 0x19#8] ∨
        (c.code ∈ [0x04#8, 0x05#8] ∧ c.sub = 1#8) ∨ (s.ctx.tvec = 0#64 ∧ c.code ∉ [0x12#8, 0x09#8, 0x11#8]))) ∨
      (s.ctx.shnd = true ∧ c.code ∈ [0x14#8, 0x15#8]) →
      let t := s.takeTrap c resume
      t.ctx.sepc = resume ∧ t.ctx.sval = c.val ∧ t.ctx.shnd = true ∧ t.ctx.atSteward = true ∧ t.ctx.pc = s.ctx.svec ∧
      t.ctx.scause.toNat = c.code.toNat + 2 ^ 8 * c.sub.toNat + 2 ^ 16 * c.unit +
        2 ^ 19 * (if c.async then 1 else 0) + 2 ^ 21 * c.ch + 2 ^ 24 * (if s.ctx.level = .steward ∨ s.ctx.shnd = true ∨ s.ctx.risen = true then 1 else 0) ∧
      (∀ r : Reg, t.bank.getS r.toNat = if r = 62#6 then { bits := s.ctx.sscr, pois := false } else SReg.zero) ∧
      { t with ctx := { t.ctx with
          sepc := s.ctx.sepc, sval := s.ctx.sval, scause := s.ctx.scause
          sbank := s.ctx.sbank, shnd := s.ctx.shnd, pc := s.ctx.pc } } = s) ∧
    (s.ctx.shnd = true → c.code ∉ [0x14#8, 0x15#8] →
      let t := s.takeTrap c resume
      t.outbox = s.outbox ++ [.stewardFailed (dieOf s.ctx.core)] ∧ t.ctx.held = true ∧ t.ctx.resident = false ∧
        t.ctx.pc = resume)

/-- R174, R314: ECALL and BRK. -/
def Obligations.CallsTrapAfterRetiring : Prop :=
  ∀ (s : State) (f : FImm),
    exec (.ecall f) s = .next ((s.goOn s.pc8).takeTrap
      { code := 0x14#8, sub := 0#8, unit := 0, ch := 0, async := false, val := f.imm.setWidth 64 } s.pc8) ∧
    exec (.brk f) s = .next ((s.goOn s.pc8).takeTrap
      { code := 0x15#8, sub := 0#8, unit := 0, ch := 0, async := false, val := f.imm.setWidth 64 } s.pc8) ∧
    (∃ t, exec (.ecall f) s = .next t ∧ t.ctx.shnd = true ∧ t.ctx.pc = s.ctx.svec ∧ t.ctx.sepc = s.pc8 ∧
      t.ctx.sval.toNat = f.imm.toNat ∧ t.ctx.scause.toNat % 256 = 0x14 ∧ t.mem = s.mem) ∧
    (s.ctx.level = .tenant → s.ctx.risen = false → s.ctx.thnd = false → s.ctx.shnd = false → s.ctx.tvec ≠ 0#64 →
      ∃ t, exec (.brk f) s = .next t ∧ t.ctx.thnd = true ∧ t.ctx.pc = s.ctx.tvec ∧ t.ctx.tepc = s.pc8 ∧
        t.ctx.tval.toNat = f.imm.toNat ∧ t.ctx.tcause.toNat % 256 = 0x15 ∧ t.mem = s.mem) ∧
    (s.ctx.level = .steward ∨ s.ctx.risen = true ∨ s.ctx.thnd = true ∨ s.ctx.shnd = true ∨ s.ctx.tvec = 0#64 →
      ∃ t, exec (.brk f) s = .next t ∧ t.ctx.shnd = true ∧ t.ctx.pc = s.ctx.svec ∧ t.ctx.sepc = s.pc8 ∧
        t.ctx.sval.toNat = f.imm.toNat ∧ t.ctx.scause.toNat % 256 = 0x15 ∧ t.mem = s.mem)

/-- R315, R316: the returns. -/
def Sys2Proof.Say.HandlersReturn : Prop :=
  ∀ (s : State),
    (¬ (s.ctx.thnd = true ∧ s.ctx.shnd = false) →
      exec .tret s = .next (s.fault (Cause.seq 0x01#8 0 0x3090000000000000#64))) ∧
    (s.ctx.thnd = true → s.ctx.shnd = false →
      (¬ (s.ctx.tbank.qL = [] ∧ s.ctx.tbank.qX = [] ∧ s.ctx.tbank.qV = [] ∧ s.ctx.tbank.qS = []) →
        exec .tret s = .next (s.waitAt .other false)) ∧
      (s.ctx.tbank.qL = [] ∧ s.ctx.tbank.qX = [] ∧ s.ctx.tbank.qV = [] ∧ s.ctx.tbank.qS = [] →
        s.ctx.tcause.toNat % 256 ≠ 0x12 → (s.ctx.sliceOld = true ∨ ∀ p ∈ s.ctx.posted, p.code ≠ 0x12#8) →
        ∃ t, exec .tret s = .next t ∧ t.ctx.thnd = false ∧ t.ctx.tbudget = 0 ∧ t.ctx.pc = s.ctx.tepc ∧
          t.bank = s.ctx.base ∧ (∀ r < 16, (t.ctx.tile r).spill = none) ∧ (∀ r < 2, (t.ctx.plane r).spill = none) ∧
          t.mem = s.mem ∧ t.ctxs = s.ctxs ∧ t.ctx.posted = s.ctx.posted)) ∧
    (s.ctx.shnd = false → exec .sret s = .next (s.fault (Cause.seq 0x01#8 0 0x30A0000000000000#64))) ∧
    (s.ctx.shnd = true → ∃ t, exec .sret s = .next t ∧ t.ctx.shnd = false ∧ t.ctx.pc = s.ctx.sepc ∧
      t.ctx.level = s.ctx.level ∧ (t.ctx.atSteward = true ↔ s.ctx.level = .steward ∨ s.ctx.scause.toNat / 2 ^ 24 % 2 = 1) ∧
      t.bank = (if s.ctx.thnd then s.ctx.tbank else s.ctx.base) ∧ t.mem = s.mem ∧
      t.ctxs = s.ctxs)

namespace Sys2Proof.Say

/-- The queue operation of the running code at `desc` reaches the queue `q`: the descriptor is aligned and
translates for reading and writing outside attached regions; with the issuer's own stores to it performed, it is
well formed and unpoisoned, and the scope check passes (R122, R178, R132). -/
def Reaches (s : State) (desc : Word) (sc : Nat) (q : QDesc) : Prop :=
  let s1 := s.flushBytes q.pa 64
  desc.toNat % 64 = 0 ∧ (∃ ps, s.checkData desc.toNat 64 .rw = .ok ps ∧ q.pa = physOf ps desc.toNat) ∧
  s1.marked q.pa = false ∧ s1.qdesc q.pa = some q ∧ s1.scopeOk s.me sc q.pa = true

/-- Every byte outside [a, a + n) reads alike in two states. -/
def SameBut (s t : State) (a n : Nat) : Prop := ∀ x, ¬ (a ≤ x ∧ x < a + n) → t.byteAt x = s.byteAt x

end Sys2Proof.Say

/-- R180: QPOP. -/
def Sys2Proof.Say.QueuePopTakesTheOldest : Prop :=
  ∀ (s : State) (f : FQPop) (q : QDesc), s.Plain [f.a, f.d] → s.Clean [f.a] → s.givenEntry = none →
    Say.Reaches s (s.rd f.a).bits f.scope.toNat q →
    let s1 := s.flushBytes q.pa 64
    (∀ ra, 0 < q.count → (∀ c ∈ s.ctxs, s.aheadOf q.pa c = false) → s1.ringSlot q q.popped = .ok ra →
      let s2 := s1.flushBytes ra 8
      ∃ t, exec (.qpop f) s = .next t ∧
        t.rd f.d = (if f.d = 0#6 then SReg.zero else { bits := BitVec.ofNat 64 (s2.natAt ra 8), pois := s2.marked ra }) ∧
        (∀ r, r ≠ f.d → t.rd r = s.rd r) ∧ t.ctx.qlast = 0#2 ∧ t.ctx.pc = s.pc8 ∧
        t.natAt (q.pa + 24) 8 = (q.popped + 1) % 2 ^ 64 ∧ Say.SameBut s2 t (q.pa + 24) 8) ∧
    (q.count = 0 → q.closed = true →
      ∃ t, exec (.qpop f) s = .next t ∧ t.rd f.d = SReg.zero ∧ (∀ r, r ≠ f.d → t.rd r = s.rd r) ∧
        t.ctx.qlast = 2#2 ∧ t.ctx.pc = s.pc8 ∧ t.mem = s1.mem) ∧
    (q.count = 0 → q.closed = false → f.tryF = true →
      ∃ t, exec (.qpop f) s = .next t ∧ t.rd f.d = SReg.zero ∧ (∀ r, r ≠ f.d → t.rd r = s.rd r) ∧
        t.ctx.qlast = 1#2 ∧ t.ctx.pc = s.pc8 ∧ t.mem = s1.mem) ∧
    (q.count = 0 → q.closed = false → f.tryF = false →
      ∃ t, exec (.qpop f) s = .next t ∧ (∀ r, t.rd r = s.rd r) ∧ t.ctx.pc = s.ctx.pc ∧ t.mem = s1.mem ∧
        t.bank.wait.map (fun w => (w.pc, w.kind)) = some (s.ctx.pc, .pop (BitVec.ofNat 64 q.pa) none f.scope))

/-- R33: an entry delivered to a waiting QPOP. -/
def Sys2Proof.Say.DeliveredEntryIsPopped : Prop :=
  ∀ (s : State) (f : FQPop) (v : SReg), s.Plain [f.a, f.d] → s.Clean [f.a] → s.givenEntry = some v →
    ∃ t, exec (.qpop f) s = .next t ∧ t.rd f.d = (if f.d = 0#6 then SReg.zero else v) ∧
      (∀ r, r ≠ f.d → t.rd r = s.rd r) ∧ t.ctx.qlast = 0#2 ∧ t.ctx.pc = s.pc8 ∧ t.mem = s.mem

/-- R181: QPUSH. -/
def Sys2Proof.Say.QueuePushAppends : Prop :=
  ∀ (s : State) (f : FQPush) (q : QDesc), s.Plain [f.a, f.b, f.d] → s.Clean [f.a] →
    ((s.rd f.b).pois = true → exec (.qpush f) s = .next (s.fault (Cause.seq 0x07#8 2 0#64))) ∧
    (s.Clean [f.b] → Say.Reaches s (s.rd f.a).bits f.scope.toNat q →
      let s1 := s.flushBytes q.pa 64
      (∀ ra, q.closed = false → q.count < q.cap → s1.ringSlot q q.pushed = .ok ra → (ra + 8 ≤ q.pa ∨ q.pa + 64 ≤ ra) →
        ∃ t, exec (.qpush f) s = .next t ∧ t.rd f.d = SReg.zero ∧ (∀ r, r ≠ f.d → t.rd r = s.rd r) ∧
          t.ctx.pc = s.pc8 ∧ t.natAt ra 8 = (s.rd f.b).bits.toNat ∧ t.natAt (q.pa + 16) 8 = (q.pushed + 1) % 2 ^ 64 ∧
          ∀ x, ¬ (ra ≤ x ∧ x < ra + 8) → ¬ (q.pa + 16 ≤ x ∧ x < q.pa + 24) →
            t.byteAt x = ((s1.releaseAll f.scope.toNat).flushBytes ra 8).byteAt x) ∧
      (q.closed = true →
        ∃ t, exec (.qpush f) s = .next t ∧ (f.d ≠ 0#6 → t.rd f.d = { bits := 2#64, pois := false }) ∧
          (∀ r, r ≠ f.d → t.rd r = s.rd r) ∧ t.ctx.pc = s.pc8 ∧ t.mem = s1.mem) ∧
      (q.closed = false → q.cap ≤ q.count → f.tryF = true →
        ∃ t, exec (.qpush f) s = .next t ∧ (f.d ≠ 0#6 → t.rd f.d = { bits := 1#64, pois := false }) ∧
          (∀ r, r ≠ f.d → t.rd r = s.rd r) ∧ t.ctx.pc = s.pc8 ∧ t.mem = s1.mem) ∧
      (q.closed = false → q.cap ≤ q.count → f.tryF = false →
        ∃ t, exec (.qpush f) s = .next t ∧ (∀ r, t.rd r = s.rd r) ∧ t.ctx.pc = s.ctx.pc ∧ t.mem = s1.mem ∧
          t.bank.wait.map (fun w => (w.pc, w.kind)) = some (s.ctx.pc, .push (BitVec.ofNat 64 q.pa))))

/-- R34, R156, R182: bound queue registers. -/
def Obligations.BoundRegistersPopAndBind : Prop :=
  ∀ (s : State),
    (∀ f : FQBind, f.unb = false → s.Plain [f.a] → s.Clean [f.a] →
      ((s.rd f.a).bits.toNat % 64 = 0 → ∃ t, exec (.qbind f) s = .next t ∧
        t.ctx.qbind f.q.toNat = { desc := some (s.rd f.a).bits, scope := f.scope, held := none } ∧
        (∀ n, n ≠ f.q.toNat → t.ctx.qbind n = s.ctx.qbind n) ∧ t.ctx.pc = s.pc8 ∧ t.mem = s.mem) ∧
      ((s.rd f.a).bits.toNat % 64 ≠ 0 →
        exec (.qbind f) s = .next (s.fault (Cause.seq 0x06#8 0 (s.rd f.a).bits)))) ∧
    (∀ f : FQBind, f.unb = true → (s.ctx.qbind f.q.toNat).desc.isSome →
      ∃ t, exec (.qbind f) s = .next t ∧ (t.ctx.qbind f.q.toNat).desc = none ∧
        t.bank.getS (56 + f.q.toNat) = ((s.ctx.qbind f.q.toNat).held).getD SReg.zero ∧
        (∀ n, n ≠ f.q.toNat → t.ctx.qbind n = s.ctx.qbind n) ∧ t.ctx.pc = s.pc8 ∧ t.mem = s.mem) ∧
    (∀ (f : FR3) (n : Nat) (v : SReg), s.ctx.boundSlot f.a = some n → (s.ctx.qbind n).held = some v → v.pois = false →
      s.Plain [f.b, f.d] → s.Clean [f.b] → s.bank.pends f.a = false →
      ∃ t, exec (.add f) s = .next t ∧ (f.d ≠ 0#6 → t.rd f.d = { bits := v.bits + (s.rd f.b).bits, pois := false }) ∧
        (t.ctx.qbind n).held = none ∧ (t.ctx.qbind n).desc = (s.ctx.qbind n).desc ∧ t.ctx.pc = s.pc8 ∧ t.mem = s.mem) ∧
    (∀ (f : FR3) (n : Nat) (q : QDesc), s.ctx.boundSlot f.a = some n → (s.ctx.qbind n).held = none →
      s.Plain [f.b, f.d] → s.Clean [f.b] → s.bank.pends f.a = false → s.givenEntry = none →
      Say.Reaches s ((s.ctx.qbind n).desc.getD 0#64) (s.ctx.qbind n).scope.toNat q →
      let s1 := s.flushBytes q.pa 64
      (∀ ra, 0 < q.count → (∀ c ∈ s.ctxs, s.aheadOf q.pa c = false) → s1.ringSlot q q.popped = .ok ra →
        let s2 := s1.flushBytes ra 8
        s2.marked ra = false →
        ∃ t, exec (.add f) s = .next t ∧
          (f.d ≠ 0#6 → t.rd f.d = { bits := BitVec.ofNat 64 (s2.natAt ra 8) + (s.rd f.b).bits, pois := false }) ∧
          (t.ctx.qbind n).held = none ∧ (t.ctx.qbind n).desc = (s.ctx.qbind n).desc ∧ t.ctx.pc = s.pc8 ∧
          t.natAt (q.pa + 24) 8 = (q.popped + 1) % 2 ^ 64 ∧ Say.SameBut s2 t (q.pa + 24) 8) ∧
      (q.count = 0 → q.closed = false →
        ∃ t, exec (.add f) s = .next t ∧ (∀ r, r ≠ f.a → t.rd r = s.rd r) ∧ t.ctx.pc = s.ctx.pc ∧ t.mem = s1.mem ∧
          t.bank.wait.map (fun w => (w.pc, w.kind)) =
            some (s.ctx.pc, .pop (BitVec.ofNat 64 q.pa) (some n) (s.ctx.qbind n).scope))) ∧
    (∀ (f : FR3) (n : Nat) (q : QDesc), s.ctx.boundSlot f.d = some n → s.Plain [f.a, f.b] → s.Clean [f.a, f.b] →
      s.bank.pends f.d = false → Say.Reaches s ((s.ctx.qbind n).desc.getD 0#64) (s.ctx.qbind n).scope.toNat q →
      let s1 := s.flushBytes q.pa 64
      let sc := (s.ctx.qbind n).scope.toNat
      (∀ ra, q.closed = false → q.count < q.cap → s1.ringSlot q q.pushed = .ok ra → (ra + 8 ≤ q.pa ∨ q.pa + 64 ≤ ra) →
        ∃ t, exec (.add f) s = .next t ∧ t.ctx.pc = s.pc8 ∧ (∀ r, r ≠ f.d → t.rd r = s.rd r) ∧
          t.natAt ra 8 = ((s.rd f.a).bits + (s.rd f.b).bits).toNat ∧ t.natAt (q.pa + 16) 8 = (q.pushed + 1) % 2 ^ 64 ∧
          ∀ x, ¬ (ra ≤ x ∧ x < ra + 8) → ¬ (q.pa + 16 ≤ x ∧ x < q.pa + 24) →
            t.byteAt x = ((s1.releaseAll sc).flushBytes ra 8).byteAt x) ∧
      (q.closed = false → q.cap ≤ q.count →
        ∃ t, exec (.add f) s = .next t ∧ (∀ r, t.rd r = s.rd r) ∧ t.ctx.pc = s.ctx.pc ∧ t.mem = s.mem ∧
          t.bank.wait.map (fun w => (w.pc, w.kind)) = some (s.ctx.pc, .push (BitVec.ofNat 64 q.pa))) ∧
      (q.closed = true →
        ∃ t, exec (.add f) s = .next t ∧ t.ctx.pc = s.pc8 ∧ (∀ r, r ≠ f.d → t.rd r = s.rd r) ∧ t.mem = s1.mem ∧
          t.ctx.qterm = s.ctx.qterm ||| BitVec.ofNat 4 (2 ^ n)))

/-- R24, R172, R184, R186. -/
def Obligations.TaskEndsAndWorkIsPosted : Prop :=
  ∀ (s : State),
    (s.ctx.inHandler = true → exec .halt s = .next (s.fault (Cause.seq 0x01#8 0 0x1100000000000000#64))) ∧
    (s.ctx.inHandler = false →
      let s1 := (s.finishBuilds (fun _ => true) 3).examineAll s.ctx.part.toNat
      exec .halt s = .next (if s1.mayHalt then s1.haltMember.goOn (s.ctx.pc + 8#64) else s1.waitAt .other false)) ∧
    (s.ctx.task = none → exec .yield s = .next (s.goOn s.pc8)) ∧
    (∀ t k, s.ctx.task = some t → s.findTask t = some k → k.crew = 1 → k.state = .running →
      exec .yield s = .next ((s.goOn s.pc8).yieldTo k) ∧
      (s.ctx.inHandler = true → (∀ u ∈ s.tasks, u.id ≠ s.postSeq) → ∃ v, exec .yield s = .next v ∧ v.ctx.pc = s.pc8 ∧
        v.mem = s.mem ∧ v.postSeq = s.postSeq + 1 ∧ v.findTask s.postSeq = some { k with id := s.postSeq, yielded := true })) ∧
    (∀ f : FDAB, s.Plain [f.a, f.b, f.d] → s.Clean [f.a, f.b] →
      ((s.rd f.b).bits.toNat = 0 ∨ 256 < (s.rd f.b).bits.toNat → exec (.spawn f) s = .next ((s.wrc f.d 2#64).goOn s.pc8)) ∧
      (1 ≤ (s.rd f.b).bits.toNat → (s.rd f.b).bits.toNat ≤ 256 → ∀ rs,
        let s1 := s.releaseAll 3
        let p := s.ctx.part.toNat
        s1.readRecords (s.rd f.a).bits.toNat (s.rd f.b).bits.toNat = .ok rs →
        (∀ i, rs.findIdx? (fun r => s1.recordBad p r.1 r.2) = some i →
          exec (.spawn f) s = .next ((s1.wrc f.d (BitVec.ofNat 64 (1 + 256 * i))).goOn s.pc8)) ∧
        (rs.all (fun r => !s1.recordBad p r.1 r.2) = true →
          let ts := rs.map (fun r => s1.taskOf p s.ctx.vdn.toNat (BitVec.ofNat 64 r.1) r.2 none)
          (s1.overflowRoom ts p = false → exec (.spawn f) s = .next ((s1.wrc f.d 3#64).goOn s.pc8)) ∧
          (s1.overflowRoom ts p = true →
            ∃ t, exec (.spawn f) s = .next (t.goOn s.pc8) ∧ t = (s1.postAll ts p).wrc f.d 0#64)))) ∧
    (∀ f : FPhase, s.Plain [f.d] →
      let q := s.quiet s.ctx.part.toNat f.tag s.ctx.task
      exec (.phase f) s = .next (if f.wait && !q then s.waitAt .other false
        else (s.wrc f.d (if q then 1#64 else 0#64)).goOn s.pc8))

namespace Sys2Proof.Say

/-- The byte at offset i of an access as the running core sees it: L1's where the access uses L1 and L1 holds
it, else its home's (R84, R193). -/
def seen (s : State) (ps : List (Nat × XOk)) (va n i : Nat) : Byte :=
  let pa := physOf ps (va + i)
  if pageL1 s ps (va + i) && (s.inWindow va n).isNone then match s.l1At pa with
    | some b => b.val
    | none => s.byteAt pa
  else s.byteAt pa

/-- Whether that byte is poisoned: as L1 holds its 64-byte sector, or by the home's mark (R53, R96). -/
def seenPois (s : State) (ps : List (Nat × XOk)) (va n i : Nat) : Bool :=
  let pa := physOf ps (va + i)
  if pageL1 s ps (va + i) && (s.inWindow va n).isNone then s.l1Poison pa else s.marked pa

/-- The bytes an access sees as a little-endian number (R1). -/
def seenNat (s : State) (ps : List (Nat × XOk)) (va n : Nat) : Nat :=
  natOfBytes ((List.range n).map (seen s ps va n))

/-- Whether any byte of an access is poisoned. -/
def seenBad (s : State) (ps : List (Nat × XOk)) (va n : Nat) : Bool := (List.range n).any (seenPois s ps va n)

/-- The address A + SignExt(OFF) modulo 2⁶⁴ (R191). -/
def addr (s : State) (a : Reg) (off : BitVec 24) : Word := BitVec.ofInt 64 ((s.rd a).bits.toInt + off.toInt)

/-- Bytes of a width code: 1, 2, 4, 8 (R191). -/
def bytes (w : BitVec 2) : Nat := [1, 2, 4, 8].getD w.toNat 8

/-- The signed value of a number of w bits. -/
def sgn (w x : Nat) : Int := if x < 2 ^ (w - 1) then x else (x : Int) - 2 ^ w

/-- The value an ATOM leaves, of w bits, by operation code: add, and, or, xor, min, max, minn, maxn, swap
(R196). -/
def atomLeaves (op w old b : Nat) : Nat :=
  match op with
  | 0 => (old + b) % 2 ^ w
  | 1 => Nat.land old b
  | 2 => Nat.lor old b
  | 3 => Nat.xor old b
  | 4 => if sgn w old ≤ sgn w b then old else b
  | 5 => if sgn w old ≤ sgn w b then b else old
  | 6 => min old b
  | 7 => max old b
  | _ => b

/-- Whether an access to global memory is performed whole by this step: it has no part behind it and none is cut
off (R121). -/
def Whole (s : State) (va n : Nat) : Prop := s.partBytes = ([], false) ∧ s.byteOnly va n = false

/-- Whether L1 has room for every line of an access that it does not hold (R84). -/
def Roomy (s : State) (ps : List (Nat × XOk)) (va n : Nat) : Prop :=
  let new := (linesOf va n).filter (fun v => pageL1 s ps v && !s.ctx.l1Lines.contains (physOf ps v / 256))
  new = [] ∨ s.ctx.l1Lines.length + new.length ≤ l1Capacity s.ctx.l1size

/-- A byte of memory that no store of an access names: as before, or written with a dirty byte that L1 gave up to
make room (R84). -/
def Evicted (s t : State) (x : Nat) : Prop :=
  t.byteAt x = s.byteAt x ∨ ∃ b, s.l1At x = some b ∧ b.dirty = true ∧ t.byteAt x = b.val

/-- The atomics by operation code (R196). -/
def atom (op : Nat) (f : FMAt) : Instr :=
  match op with
  | 0 => .atomAdd f
  | 1 => .atomAnd f
  | 2 => .atomOr f
  | 3 => .atomXor f
  | 4 => .atomMin f
  | 5 => .atomMax f
  | 6 => .atomMinn f
  | 7 => .atomMaxn f
  | _ => .atomSwap f

end Sys2Proof.Say

/-- R191, R194, R190: scalar loads. -/
def Obligations.LoadsReadWhatTheCoreSees : Prop :=
  ∀ (s : State) (f : FMLd), s.Plain [f.a, f.d] → s.Clean [f.a] →
    let va := (Say.addr s f.a f.off).toNat
    let n := Say.bytes f.w
    (∀ (i : Instr) (ps : List (Nat × XOk)), s.checkData va n .r = .ok ps → (i = .ld f ∨ i = .lds f) →
      Say.Whole s va n → (∀ w, s.inWindow va n = some w → s.homeHere w = true) →
      ∃ t, exec i s = .next t ∧ (∀ x, Say.Evicted s t x) ∧
        (Say.Roomy s ps va n → f.d ≠ 0#6 → Say.seenBad s ps va n = false → t.rd f.d = { pois := false, bits := (if i = .ld f
          then BitVec.ofNat 64 (Say.seenNat s ps va n)
          else (BitVec.ofNat (8 * n) (Say.seenNat s ps va n)).signExtend 64) }) ∧
        (Say.Roomy s ps va n → f.d ≠ 0#6 → Say.seenBad s ps va n = true → (t.rd f.d).pois = true) ∧
        (∀ r, r ≠ f.d → t.rd r = s.rd r) ∧ t.ctx.pc = s.pc8 ∧
        (Say.Roomy s ps va n → t.mem = s.mem ∧ t.marks = s.marks)) ∧
    (∀ (i : Instr) (s1 : State) (c : Cause), s.checkData va n .r = .error (s1, c) → (i = .ld f ∨ i = .lds f) →
      (f.sp = true → c.code = 0x05#8 → ∃ t, exec i s = .next t ∧ (f.d ≠ 0#6 → (t.rd f.d).pois = true) ∧
        (∀ r, r ≠ f.d → t.rd r = s.rd r) ∧ t.ctx.pc = s.pc8 ∧ t.mem = s.mem) ∧
      (f.sp = false ∨ c.code ≠ 0x05#8 → exec i s = .next (s1.fault c))) ∧
    (va + n ≤ s.ctx.spSize → (∀ b ∈ banksOf va n, s.ctx.padReady b = true) →
      ∃ t, exec (.ldl f) s = .next t ∧
        (f.d ≠ 0#6 → s.ctx.padPoison va n = false →
          t.rd f.d = { bits := BitVec.ofNat 64 (natOfBytes (s.ctx.padBytes va n)), pois := false }) ∧
        (f.d ≠ 0#6 → s.ctx.padPoison va n = true → (t.rd f.d).pois = true) ∧
        (∀ r, r ≠ f.d → t.rd r = s.rd r) ∧ t.ctx.pc = s.pc8 ∧ t.mem = s.mem ∧ t.ctx.pad = s.ctx.pad) ∧
    (s.ctx.spSize < va + n →
      (f.sp = true → ∃ t, exec (.ldl f) s = .next t ∧ (f.d ≠ 0#6 → (t.rd f.d).pois = true) ∧
        (∀ r, r ≠ f.d → t.rd r = s.rd r) ∧ t.ctx.pc = s.pc8 ∧ t.mem = s.mem) ∧
      (f.sp = false → exec (.ldl f) s = .next (s.fault (Cause.seq 0x05#8 0 (Say.addr s f.a f.off)))))

/-- R192, R194: scalar stores. -/
def Obligations.StoresWriteTheirBytesAndNoOther : Prop :=
  ∀ (s : State) (f : FMSt), s.Plain [f.a, f.b] → s.Clean [f.a] →
    let va := (Say.addr s f.a f.off).toNat
    let n := Say.bytes f.w
    let v := (s.rd f.b).bits.toNat
    (∀ ps, s.checkData va n .w = .ok ps → (s.inWindow va n).isNone → Say.Whole s va n →
      (∀ i j, i < n → j < n → physOf ps (va + i) = physOf ps (va + j) → i = j) →
      ∃ t, exec (.st f) s = .next t ∧ t.ctx.pc = s.pc8 ∧ (∀ r, t.rd r = s.rd r) ∧
        (∀ x, (∀ i < n, x ≠ physOf ps (va + i)) → Say.Evicted s t x) ∧
        (Say.Roomy s ps va n →
        (∀ i < n, pageL1 s ps (va + i) = false → t.byteAt (physOf ps (va + i)) = BitVec.ofNat 8 (v / 256 ^ i)) ∧
        (∀ i < n, pageL1 s ps (va + i) = true →
          (t.l1At (physOf ps (va + i))).map (fun b => (b.val, b.dirty)) = some (BitVec.ofNat 8 (v / 256 ^ i), true)) ∧
        (∀ x, (∀ i < n, pageL1 s ps (va + i) = false → x ≠ physOf ps (va + i)) → t.byteAt x = s.byteAt x))) ∧
    (∀ ps, s.checkData va n .w = .ok ps → (s.inWindow va n).isSome →
      exec (.st f) s = .next (s.fault (Cause.seq 0x17#8 0 (Say.addr s f.a f.off)))) ∧
    (va + n ≤ s.ctx.spSize → (∀ b ∈ banksOf va n, s.ctx.padReady b = true) →
      ∃ t, exec (.stl f) s = .next t ∧ t.ctx.pc = s.pc8 ∧ (∀ r, t.rd r = s.rd r) ∧ t.mem = s.mem ∧
        (∀ i < n, t.ctx.padByte (va + i) = BitVec.ofNat 8 (v / 256 ^ i)) ∧
        (∀ x, (∀ i < n, x ≠ va + i) → t.ctx.padByte x = s.ctx.padByte x)) ∧
    (s.ctx.spSize < va + n → exec (.stl f) s = .next (s.fault (Cause.seq 0x05#8 0 (Say.addr s f.a f.off))))

/-- R196 to R198: atomics. -/
def Obligations.AtomicsActAtTheHome : Prop :=
  ∀ (s : State) (f : FMAt) (op : Nat) (i : Instr), s.Plain [f.a, f.b, f.d] →
    (op < 9 ∧ i = Say.atom op f ∧ s.Clean [f.a, f.b] ∨ op = 9 ∧ i = .cas f ∧ s.Clean [f.a, f.b, f.d]) →
    let va := Say.addr s f.a f.off
    let n := Say.bytes f.w
    let b := (s.rd f.b).bits.toNat % 2 ^ (8 * n)
    let d := (s.rd f.d).bits.toNat % 2 ^ (8 * n)
    (va.toNat % n ≠ 0 → exec i s = .next (s.fault (Cause.seq 0x06#8 0 va))) ∧
    (∀ ps, va.toNat % n = 0 → s.checkData va.toNat n .rw = .ok ps → s.inWindow va.toNat n = none →
      let pa := physOf ps va.toNat
      let s1 := s.flushGranule pa
      let old := s1.natAt pa n
      (s1.scopeOk s.me f.scope.toNat pa = false → exec i s = .next (s.fault (Cause.seq 0x0E#8 0 va))) ∧
      (s1.scopeOk s.me f.scope.toNat pa = true → s1.marked pa = true →
        exec i s = .next (s.fault (Cause.seq 0x07#8 6 0#64))) ∧
      (s1.scopeOk s.me f.scope.toNat pa = true → s1.marked pa = false →
        ∃ t, exec i s = .next t ∧ t.ctx.pc = s.pc8 ∧
          t.natAt pa n = (if op = 9 then (if old = d then b else old) else Say.atomLeaves op (8 * n) old b) ∧
          (f.d ≠ 0#6 → t.rd f.d = { bits := BitVec.ofNat 64 old, pois := false }) ∧
          (∀ r, r ≠ f.d → t.rd r = s.rd r) ∧ Say.SameBut s1 t pa n))

/-- R199 to R202: counters. -/
def Sys2Proof.Say.CountersSignalWaitAndRead : Prop :=
  ∀ (s : State),
    (∀ f : FMCs, s.Plain [f.a, f.b] → s.Clean [f.a, f.b] →
      let va := Say.addr s f.a f.off
      let b := (s.rd f.b).bits
      (s.waitHere? = none → va.toNat % 8 ≠ 0 → exec (.csig f) s = .next (s.fault (Cause.seq 0x06#8 0 va)) ∧
        exec (.cwait f) s = .next (s.fault (Cause.seq 0x06#8 0 va))) ∧
      (∀ ps, s.waitHere? = none → va.toNat % 8 = 0 → s.inWindow va.toNat 8 = none →
        let pa := physOf ps va.toNat
        let s0 := s.flushGranule pa
        (s.checkData va.toNat 8 .rw = .ok ps → s0.scopeOk s.me f.scope.toNat pa = true →
          let s1 := s0.releaseBound f.scope.toNat va.toNat
          ∃ t, exec (.csig f) s = .next t ∧ t.ctx.pc = s.pc8 ∧
            t.natAt pa 8 = min (s1.natAt pa 8 + b.toNat) (2 ^ 64 - 1) ∧ Say.SameBut s1 t pa 8 ∧ t.ctx.progX = 0 ∧
            ∀ r, t.rd r = s.rd r) ∧
        (s.checkData va.toNat 8 .r = .ok ps → s0.scopeOk s.me f.scope.toNat pa = true →
          (b.toNat ≤ s0.natAt pa 8 → ∃ t, exec (.cwait f) s = .next t ∧ t.ctx.pc = s.pc8 ∧ t.mem = s0.mem ∧
            ∀ r, t.rd r = s.rd r) ∧
          (s0.natAt pa 8 < b.toNat → ∃ t, exec (.cwait f) s = .next t ∧ t.ctx.pc = s.ctx.pc ∧ t.mem = s0.mem ∧
            (∀ r, t.rd r = s.rd r) ∧
            t.bank.wait.map (fun w => (w.pc, w.kind, w.checked, w.cover)) =
              some (s.ctx.pc, .counter pa b, true, s.ctx.coverOf va.toNat)))) ∧
      (∀ w pa k, s.waitHere? = some w → w.kind = .counter pa k → w.checked = true →
        (w.given = .met ∨ b.toNat ≤ s.natAt pa 8 → ∃ t, exec (.cwait f) s = .next t ∧ t.ctx.pc = s.pc8 ∧
          t.mem = s.mem ∧ (∀ r, t.rd r = s.rd r) ∧
          ∀ e ∈ t.ctx.l1, ∀ y, e.2 = some y → y.dirty = true ∨ coversLine w.cover y.va = false))) ∧
    (∀ f : FMCr, s.Plain [f.a, f.d] → s.Clean [f.a] →
      let va := Say.addr s f.a f.off
      (va.toNat % 8 ≠ 0 → exec (.cread f) s = .next (s.fault (Cause.seq 0x06#8 0 va))) ∧
      (∀ ps, va.toNat % 8 = 0 → s.checkData va.toNat 8 .r = .ok ps → s.inWindow va.toNat 8 = none →
        let s0 := s.flushGranule (physOf ps va.toNat)
        s0.scopeOk s.me f.scope.toNat (physOf ps va.toNat) = true →
        ∃ t, exec (.cread f) s = .next t ∧ t.ctx.pc = s.pc8 ∧ t.mem = s0.mem ∧
          (f.d ≠ 0#6 → t.rd f.d = { bits := BitVec.ofNat 64 (s0.natAt (physOf ps va.toNat) 8), pois := false }) ∧
          ∀ r, r ≠ f.d → t.rd r = s.rd r))

/-- R203, R204: FENCE, BIND, UNBIND. -/
def Sys2Proof.Say.FencesAndBindings : Prop :=
  ∀ (s : State),
    (∀ f : FSc, ∃ t, exec (.fence f) s = .next t ∧ t.ctx.pc = s.pc8 ∧ (∀ r, t.rd r = s.rd r) ∧
      (∀ c ∈ t.contribs, c.ctx ≠ s.ctx.id) ∧ (f.scope ≠ 0#3 → ∀ a, t.l1At a = none) ∧
      (f.scope = 0#3 → (∀ a b, t.l1At a = some b → b.dirty = true) ∧
        (∀ e ∈ s.ctx.l1, ∀ b, e.2 = some b → b.dirty = true → e ∈ t.ctx.l1) ∧
        ((∀ c ∈ s.contribs, c.ctx ≠ s.ctx.id) → t.mem = s.mem))) ∧
    (∀ f : FDABC, s.Plain [f.a, f.b, f.c, f.d] → s.Clean [f.a, f.b, f.c] →
      let a := (s.rd f.a).bits
      let b := (s.rd f.b).bits
      let c := (s.rd f.c).bits
      let bad2 := a.toNat % 256 ≠ 0 ∨ b.toNat = 0 ∨ b.toNat % 256 ≠ 0 ∨ 2 ^ 30 < b.toNat
      let bad3 := c.toNat % 8 ≠ 0 ∨ s.touchesRegion s.ctx c.toNat 8 = true ∨ (s.inWindow c.toNat 8).isSome
      let have_ := ∃ x ∈ s.ctx.bindings, x.base = a ∧ x.cnt = c
      ∃ t v, exec (.bind f) s = .next t ∧ t.ctx.pc = s.pc8 ∧ t.mem = s.mem ∧
        (f.d ≠ 0#6 → t.rd f.d = { bits := v, pois := false }) ∧ (∀ r, r ≠ f.d → t.rd r = s.rd r) ∧
        (bad2 → v = 2#64 ∧ t.ctx.bindings = s.ctx.bindings) ∧
        (¬ bad2 → bad3 → v = 3#64 ∧ t.ctx.bindings = s.ctx.bindings) ∧
        (¬ bad2 → ¬ bad3 → have_ → v = 0#64 ∧ t.ctx.bindings.length = s.ctx.bindings.length ∧
          ∀ (j : Nat) (x : Binding), s.ctx.bindings[j]? = some x →
            t.ctx.bindings[j]? = some (if x.base = a ∧ x.cnt = c then { base := a, len := b, cnt := c } else x)) ∧
        (¬ bad2 → ¬ bad3 → ¬ have_ → s.ctx.bindings.length < 32 →
          v = 0#64 ∧ t.ctx.bindings = s.ctx.bindings ++ [{ base := a, len := b, cnt := c }]) ∧
        (¬ bad2 → ¬ bad3 → ¬ have_ → 32 ≤ s.ctx.bindings.length → v = 1#64 ∧ t.ctx.bindings = s.ctx.bindings)) ∧
    (∀ f : FDAC, s.Plain [f.a, f.c, f.d] → s.Clean [f.a, f.c] →
      let a := (s.rd f.a).bits
      let c := (s.rd f.c).bits
      let have_ := ∃ x ∈ s.ctx.bindings, x.base = a ∧ x.cnt = c
      ∃ t v, exec (.unbind f) s = .next t ∧ t.ctx.pc = s.pc8 ∧ t.mem = s.mem ∧
        (f.d ≠ 0#6 → t.rd f.d = { bits := v, pois := false }) ∧ (∀ r, r ≠ f.d → t.rd r = s.rd r) ∧
        (∀ x, x ∈ t.ctx.bindings ↔ x ∈ s.ctx.bindings ∧ ¬ (x.base = a ∧ x.cnt = c)) ∧
        (have_ → v = 0#64) ∧ (¬ have_ → v = 5#64))

namespace Sys2Proof.Say

/-- The line index an operand gives: its field, or bits 5:0 of the register it names (R41). -/
def lineIx (s : State) (l : Line) : Nat := if l.fromReg then (s.rd l.idx).bits.toNat % 64 else l.idx.toNat

/-- The cell of lane j of line i in a direction: row, column, diagonal, anti-diagonal (R40). -/
def laneCell (dir : BitVec 2) (i j : Nat) : Nat × Nat :=
  if dir = 0#2 then (i, j) else if dir = 1#2 then (j, i) else if dir = 2#2 then (j, (i + j) % 64)
  else (j, (i + 64 - j) % 64)

/-- A cell of a tile register by line and lane. -/
def lane (s : State) (l : Line) (i j : Nat) : Cell :=
  s.ctx.cell l.tile.toNat (laneCell l.dir i j).1 (laneCell l.dir i j).2

/-- A tile register serves accesses: it is FULL and not waking (R54). -/
def Awake (s : State) (t : Nat) : Prop := (s.ctx.tile t).state = .full ∧ (s.ctx.tile t).waking = false

/-- The region of a state at the base of another region. -/
def Region.now (r : Region) (s : State) : Option Region := s.regionAt r.part r.base.toNat

/-- No task waits for its input versions, so that a creation re-examines none (R333). -/
def NoneWaits (s : State) : Prop := ∀ k ∈ s.tasks, k.state ≠ .waiting

end Sys2Proof.Say

/-- R107, R207, R208: version loads. -/
def Obligations.VersionLoadsReadTheChosenVersion : Prop :=
  ∀ (s : State) (r : Region),
    (∀ f : FVLd, s.Plain ([f.a, f.b, f.d] ++ lineRegs f.line) → s.Clean ([f.a, f.b] ++ lineRegs f.line) →
      let va := (s.rd f.a).bits.toNat
      let ix := Say.lineIx s f.line
      let i := r.index va
      let w := r.find (dieOf s.ctx.core) i f.mode.toNat ((s.rd f.b).bits.toNat % 2 ^ 32)
      (∀ u, s.given (.version (s.rd f.a).bits f.mode.toNat ((s.rd f.b).bits.toNat % 2 ^ 32)) = .line u →
        versionScopeOk s.me f.scope.toNat u = true → Say.Awake s f.line.tile.toNat →
        s.tileBusy f.line.tile.toNat = false → (s.ctx.tile f.line.tile.toNat).state ≠ .absent →
        ∃ t, exec (.vld f) s = .next t ∧ t.ctx.pc = s.pc8 ∧ t.mem = s.mem ∧
          (f.d ≠ 0#6 → t.rd f.d = { bits := BitVec.ofNat 64 u.num, pois := false }) ∧ (∀ q, q ≠ f.d → t.rd q = s.rd q)) ∧
      (s.waitHere? = none → va % 256 = 0 → s.versioned va 256 .r = .ok r → Say.Awake s f.line.tile.toNat → s.ctx.inHandler = false →
      s.tileBusy f.line.tile.toNat = false →
      (∀ u, w = .ver u → versionScopeOk s.me f.scope.toNat u = true →
        ∃ t, exec (.vld f) s = .next t ∧ t.ctx.pc = s.pc8 ∧ t.mem = s.mem ∧
          (f.d ≠ 0#6 → t.rd f.d = { bits := BitVec.ofNat 64 u.num, pois := false }) ∧ (∀ q, q ≠ f.d → t.rd q = s.rd q) ∧
          (∀ j < 64, (Say.lane t f.line ix j).pois = u.marks.getLsbD (j / 16) ∧
            (u.marks.getLsbD (j / 16) = false →
              (Say.lane t f.line ix j).bits = BitVec.ofNat 32 (u.data.toNat / 2 ^ (32 * j)))) ∧
          (∀ m row col, (m ≠ f.line.tile.toNat ∨ ∀ j < 64, (row, col) ≠ Say.laneCell f.line.dir ix j) →
            row < 64 → col < 64 → t.ctx.cell m row col = s.ctx.cell m row col)) ∧
      (w = .missing → f.sp = false → exec (.vld f) s = .next ((s.putRegion (r.dropWaiter i s.ctx.id)).fault
        (Cause.seq 0x0A#8 0 (BitVec.ofNat 64 (va / 256 * 256))))) ∧
      (w = .missing → f.sp = true → ∃ t, exec (.vld f) s = .next t ∧ t.ctx.pc = s.pc8 ∧ t.mem = s.mem ∧
        (f.d ≠ 0#6 → (t.rd f.d).pois = true) ∧ (∀ q, q ≠ f.d → t.rd q = s.rd q) ∧
        (∀ j < 64, (Say.lane t f.line ix j).pois = true) ∧
        (∀ m row col, (m ≠ f.line.tile.toNat ∨ ∀ j < 64, (row, col) ≠ Say.laneCell f.line.dir ix j) →
          row < 64 → col < 64 → t.ctx.cell m row col = s.ctx.cell m row col)) ∧
      (w = .wait → ∃ t, exec (.vld f) s = .next t ∧ t.ctx.pc = s.ctx.pc ∧ t.mem = s.mem ∧
        t.bank.wait.map (fun x => x.kind) = some (.version (s.rd f.a).bits f.mode.toNat ((s.rd f.b).bits.toNat % 2 ^ 32))))) ∧
    (∀ f : FVLds, s.Plain [f.a, f.b, f.d, f.c] → s.Clean [f.a, f.b] →
      let va := (s.rd f.a).bits.toNat
      let i := r.index va
      let w := r.find (dieOf s.ctx.core) i f.mode.toNat ((s.rd f.b).bits.toNat % 2 ^ 32)
      s.waitHere? = none → va % 8 = 0 → s.versioned va 8 .r = .ok r →
      (∀ u, w = .ver u → versionScopeOk s.me f.scope.toNat u = true →
        ∃ t, exec (.vlds f) s = .next t ∧ t.ctx.pc = s.pc8 ∧ t.mem = s.mem ∧
          (f.c ≠ 0#6 → t.rd f.c = { bits := BitVec.ofNat 64 u.num, pois := false }) ∧
          (f.d ≠ 0#6 → f.d ≠ f.c → (t.rd f.d).pois = u.marks.getLsbD (va % 256 / 64) ∧
            (u.marks.getLsbD (va % 256 / 64) = false →
              (t.rd f.d).bits = BitVec.ofNat 64 (u.data.toNat / 2 ^ (8 * (va % 256))))) ∧
          (∀ q, q ≠ f.d → q ≠ f.c → t.rd q = s.rd q)) ∧
      (w = .missing → f.sp = false → exec (.vlds f) s = .next ((s.putRegion (r.dropWaiter i s.ctx.id)).fault
        (Cause.seq 0x0A#8 0 (BitVec.ofNat 64 (va / 256 * 256))))) ∧
      (w = .missing → f.sp = true → ∃ t, exec (.vlds f) s = .next t ∧ t.ctx.pc = s.pc8 ∧ t.mem = s.mem ∧
        (f.d ≠ 0#6 → (t.rd f.d).pois = true) ∧ (f.c ≠ 0#6 → (t.rd f.c).pois = true) ∧
        (∀ q, q ≠ f.d → q ≠ f.c → t.rd q = s.rd q)) ∧
      (w = .wait → ∃ t, exec (.vlds f) s = .next t ∧ t.ctx.pc = s.ctx.pc ∧ t.mem = s.mem ∧ (∀ q, t.rd q = s.rd q) ∧
        t.bank.wait.map (fun x => x.kind) = some (.version (s.rd f.a).bits f.mode.toNat ((s.rd f.b).bits.toNat % 2 ^ 32))))

/-- R103, R104, R209, R210: creations. -/
def Obligations.CreationsMakeVersionsExist : Prop :=
  ∀ (s : State) (r : Region), Say.NoneWaits s → Say.Region.now r s = some r → r.base.toNat % 256 = 0 →
    s.waitHere? = none → (r.mirror = true → s.parts = false) →
    (∀ f : FVSt, s.Plain ([f.a, f.b] ++ lineRegs f.line) → s.Clean ([f.a, f.b] ++ lineRegs f.line) →
      let va := (s.rd f.a).bits.toNat
      let v := (s.rd f.b).bits.toNat % 2 ^ 32
      let i := r.index va
      let ix := Say.lineIx s f.line
      va % 256 = 0 → s.versioned va 256 .w = .ok r → Say.Awake s f.line.tile.toNat →
      s.tileBusy f.line.tile.toNat = false →
      (v ≠ 0xFFFFFFFF → r.floor ≤ v → (∀ u ∈ (r.sec i).vers, u.num ≠ v) → s.versionRoom r i = true →
        ∃ t q u, exec (.vst f) s = .next t ∧ t.ctx.pc = s.pc8 ∧ t.ctx.progX = 0 ∧ (∀ x, t.rd x = s.rd x) ∧
          Say.Region.now r t = some q ∧ u ∈ (q.sec i).vers ∧ u.num = v ∧ u.exist = true ∧
          u.scope = (if r.mirror then 4 else f.scope.toNat) ∧
          (∀ j < 64, u.data.toNat / 2 ^ (32 * j) % 2 ^ 32 = (Say.lane s f.line ix j).bits.toNat) ∧
          (∀ k < 4, u.marks.getLsbD k = true ↔ ∃ j < 64, j / 16 = k ∧ (Say.lane s f.line ix j).pois = true)) ∧
      (v = 0xFFFFFFFF → exec (.vst f) s = .next (s.fault (Cause.seq 0x0D#8 0 (BitVec.ofNat 64 va)))) ∧
      (v ≠ 0xFFFFFFFF → v < r.floor → exec (.vst f) s = .next (s.fault (Cause.seq 0x0A#8 0 (BitVec.ofNat 64 va)))) ∧
      (v ≠ 0xFFFFFFFF → r.floor ≤ v → (∃ u ∈ (r.sec i).vers, u.num = v) →
        exec (.vst f) s = .next (s.fault (Cause.seq 0x0B#8 0 (BitVec.ofNat 64 va))))) ∧
    (∀ f : FVSts, s.Plain [f.a, f.b, f.c] → s.Clean [f.a, f.b, f.c] →
      let va := (s.rd f.a).bits.toNat
      let v := (s.rd f.b).bits.toNat % 2 ^ 32
      let i := r.index va
      let sec : Word := BitVec.ofNat 64 (va / 256 * 256)
      let k := va % 256 / 8
      let c := (s.rd f.c).bits.toNat
      va % 8 = 0 → s.versioned va 8 .w = .ok r →
      (f.fin = false → s.ctx.builds = [] → v ≠ 0xFFFFFFFF → r.floor ≤ v → (∀ u ∈ (r.sec i).vers, u.num ≠ v) →
        s.versionRoom r i = true →
        ∃ t q u b, exec (.vsts f) s = .next t ∧ t.ctx.pc = s.pc8 ∧ (∀ x, t.rd x = s.rd x) ∧ t.mem = s.mem ∧
          Say.Region.now r t = some q ∧ u ∈ (q.sec i).vers ∧ u.num = v ∧ u.exist = false ∧
          t.ctx.builds = [b] ∧ b.sector = sec ∧ b.version.toNat = v ∧ b.data.toNat = c * 2 ^ (64 * k)) ∧
      (∀ b, f.fin = true → s.ctx.builds = [b] → b.sector = sec → b.version.toNat = v →
        s.attached s.ctx sec.toNat = some r → r.floor ≤ v →
        ∃ t q u, exec (.vsts f) s = .next t ∧ t.ctx.pc = s.pc8 ∧ (∀ x, t.rd x = s.rd x) ∧ t.ctx.builds = [] ∧
          Say.Region.now r t = some q ∧ u ∈ (q.sec i).vers ∧ u.num = v ∧ u.exist = true ∧
          (∀ m < 32, u.data.toNat / 2 ^ (64 * m) % 2 ^ 64 =
            if m = k then c else b.data.toNat / 2 ^ (64 * m) % 2 ^ 64)))

/-- R211, R212: floors. -/
def Sys2Proof.Say.FloorsAndNewest : Prop :=
  ∀ (s : State) (r : Region),
    (∀ f : FAB, Say.NoneWaits s → s.Plain [f.a, f.b] → s.Clean [f.a, f.b] →
      s.versioned (s.rd f.a).bits.toNat 1 .w = .ok r → (r.secs.map Prod.fst).Nodup →
      ∃ t q, exec (.vfloor f) s = .next t ∧ t.ctx.pc = s.pc8 ∧ (∀ x, t.rd x = s.rd x) ∧ t.mem = s.mem ∧
        Say.Region.now r t = some q ∧ q.floor = max r.floor ((s.rd f.b).bits.toNat % 2 ^ 32) ∧
        ∀ i, ∀ u ∈ (q.sec i).vers, u ∈ (r.sec i).vers) ∧
    (∀ f : FDA, s.Plain [f.a, f.d] → s.Clean [f.a] →
      let va := (s.rd f.a).bits
      (va.toNat % 256 ≠ 0 → exec (.vnewest f) s = .next (s.fault (Cause.seq 0x06#8 0 va))) ∧
      (va.toNat % 256 = 0 → s.versioned va.toNat 256 .r = .ok r →
        ((r.sec (r.index va.toNat)).vers.map Ver.num).Pairwise (fun a b => a < b) →
        ∃ t n, exec (.vnewest f) s = .next t ∧ t.ctx.pc = s.pc8 ∧ t.mem = s.mem ∧ (∀ x, x ≠ f.d → t.rd x = s.rd x) ∧
          (f.d ≠ 0#6 → t.rd f.d = { bits := BitVec.ofNat 64 n, pois := false }) ∧
          let vs := (r.sec (r.index va.toNat)).vers.filter (fun u => u.exist && u.seen (dieOf s.ctx.core))
          ((∃ u, u ∈ vs) → (∃ u ∈ vs, u.num = n) ∧ ∀ u ∈ vs, u.num ≤ n) ∧ (vs = [] → n = 0xFFFFFFFF)))

/-- R99, R205: VREGION. -/
def Sys2Proof.Say.RegionsAttachAndDetach : Prop :=
  ∀ (s : State) (f : FDAImm), s.Plain [f.a, f.d] → s.Clean [f.a] →
    let a := (s.rd f.a).bits
    (a.toNat % 32 ≠ 0 → exec (.vregion f) s = .next (s.fault (Cause.seq 0x06#8 0 a))) ∧
    (∀ s1 bs, a.toNat % 32 = 0 → s.loadAt a.toNat 32 .r = .ok (s1, bs, false) →
      let d := regionDesc (natOfBytes bs)
      let slot := f.imm.toNat
      (d.sectors = 0 → Sparse.get (fun _ => none) s.ctx.rslots slot = none →
        ∃ t, exec (.vregion f) s = .next t ∧ t.ctx.pc = s.pc8 ∧ (∀ x, x ≠ f.d → t.rd x = s.rd x) ∧
          t.rd f.d = SReg.zero ∧ t.regions = s.regions ∧ t.mem = s1.mem) ∧
      (∀ e, d.sectors ≠ 0 → s1.regionStatus slot d = .error e → exec (.vregion f) s = .next (e.1.fault e.2)) ∧
      (∀ s2 st, d.sectors ≠ 0 → s1.regionStatus slot d = .ok (s2, st) →
        ∃ t, exec (.vregion f) s = .next t ∧ t.ctx.pc = s.pc8 ∧ (∀ x, x ≠ f.d → t.rd x = s.rd x) ∧
          (f.d ≠ 0#6 → t.rd f.d = { bits := BitVec.ofNat 64 st, pois := false }) ∧ t.mem = s2.mem ∧
          ((Sparse.get (fun _ => none) s.ctx.rslots slot).isSome → st = 1 ∧ s2 = s1) ∧
          (Sparse.get (fun _ => none) s.ctx.rslots slot = none → d.bad = true → st = 2 ∧ s2 = s1) ∧
          (st ≠ 0 → t.regions = s.regions ∧ t.ctx.rslots = s.ctx.rslots) ∧
          (st = 0 → Sparse.get (fun _ => none) t.ctx.rslots slot = some (BitVec.ofNat 64 d.base) ∧
            ∃ q, t.regionAt s.ctx.part.toNat d.base = some q ∧ s.ctx.id ∈ q.atts ∧
              (∀ r, s.regionAt s.ctx.part.toNat d.base = some r → q.floor = r.floor ∧ q.sectors = r.sectors ∧ q.secs = r.secs) ∧
              (s.regionAt s.ctx.part.toNat d.base = none →
                q.sectors = d.sectors ∧ q.floor = d.floor0 ∧ q.retain = d.retain ∧ q.secs = []))))

/-- R214 to R217: bank supply. -/
def Obligations.BankSupplyInstructions : Prop :=
  ∀ (s : State),
    (∀ (i : Nat) (ix : BitVec 6), ix.toNat = i → i < 16 → s.ctx.inHandler = false →
      ((s.ctx.tile i).state = .absent →
        ∀ j, (j = .bwake { kind := false, idx := ix } ∨ j = .bdrop { kind := false, idx := ix } ∨
            ∃ p, j = .bpol { pol := p, kind := false, idx := ix }) →
          ∃ t : State, exec j s = .next (t.fault (Cause.seq 0x09#8 0 (BitVec.ofNat 64 i))) ∧ t.ctx = s.ctx ∧ t.mem = s.mem) ∧
      ((s.ctx.tile i).state ≠ .absent → (s.ctx.tile i).waking = false → s.tileBusy i = false →
        (∀ p : BitVec 2, exec (.bpol { pol := p, kind := false, idx := ix }) s = .next ((s.setCtx (s.ctx.setTile i
          { s.ctx.tile i with pol := [Supply.full, .retain, .off].getD p.toNat .absent })).goOn s.pc8)) ∧
        exec (.bwake { kind := false, idx := ix }) s = .next (if (s.ctx.tile i).state = .full then s.goOn s.pc8
          else (s.setCtx (s.ctx.setTile i { s.ctx.tile i with state := .full, waking := true, dropAtWake := false })).goOn s.pc8) ∧
        exec (.bdrop { kind := false, idx := ix }) s = .next ((s.setCtx (s.ctx.setTile i
          { s.ctx.tile i with state := .off, waking := false, dropAtWake := false, cells := [] })).goOn s.pc8))) ∧
    (∀ (b : Nat) (ix : BitVec 6), ix.toNat = b → b < s.ctx.spbanks → s.bank.entries = [] → s.ctx.pinned b = false →
      (s.ctx.padBank b).waking = false →
      (∀ p : BitVec 2, exec (.bpol { pol := p, kind := true, idx := ix }) s = .next ((s.setCtx (s.ctx.setPadBank b
        { s.ctx.padBank b with pol := [Supply.full, .retain, .off].getD p.toNat .absent })).goOn s.pc8)) ∧
      (∃ t, exec (.bwake { kind := true, idx := ix }) s = .next t ∧ t.ctx.pc = s.pc8 ∧ t.mem = s.mem ∧
        t.ctx.pad = s.ctx.pad ∧ ((s.ctx.padBank b).state = .retain ∨ (s.ctx.padBank b).state = .off →
          (t.ctx.padBank b).state = .full ∧ (t.ctx.padBank b).waking = true) ∧
        ((s.ctx.padBank b).state = .full → t.ctx.padBank b = s.ctx.padBank b)) ∧
      (∃ t, exec (.bdrop { kind := true, idx := ix }) s = .next t ∧ t.ctx.pc = s.pc8 ∧ t.mem = s.mem ∧
        (t.ctx.padBank b).state = .off ∧
        (∀ a, a / 16384 = b → t.ctx.padByte a = 0#8) ∧ (∀ a, a / 16384 ≠ b → t.ctx.padByte a = s.ctx.padByte a) ∧
        (∀ g, g / 64 = b → t.ctx.padPoison (256 * g) 256 = false) ∧ t.ctx.liveCount b = 0)) ∧
    (∀ f : FBkD, s.Plain [f.d] → ∃ t w, exec (.bstate f) s = .next t ∧ t = (s.wrc f.d w).goOn s.pc8 ∧
      (f.kind = false →
        let k := s.ctx.tile f.idx.toNat
        w.toNat = k.state.code + 4 * k.pol.code + (if k.waking then 16 else 0) + (if k.lock then 32 else 0)) ∧
      (f.kind = true → s.ctx.spbanks ≤ f.idx.toNat → w = 3#64) ∧
      (f.kind = true → f.idx.toNat < s.ctx.spbanks →
        let k := s.ctx.padBank f.idx.toNat
        w.toNat = k.state.code + 4 * k.pol.code + (if k.waking then 16 else 0) +
          (if s.ctx.pinned f.idx.toNat then 32 else 0) + 256 * s.ctx.liveCount f.idx.toNat))

/-- R218 to R222: gutters and landing buffers. -/
def Obligations.GuttersAndLandingBuffers : Prop :=
  ∀ (s : State),
    (∀ f : FGu, s.Plain [f.a] → s.Clean [f.a] →
      let g := s.ctx.gutter f.idx.toNat
      let k := (s.rd f.a).bits.toNat + f.n.toNat
      (g.en = false ∨ g.nslot.toNat < k →
        ∃ t : State, ∃ v, exec (.gwait f) s = .next (t.fault (Cause.seq 0x05#8 0 v)) ∧ t.ctx = s.ctx ∧ t.mem = s.mem) ∧
      (g.en = true → k ≤ g.nslot.toNat →
        exec (.gwait f) s = .next (if k ≤ g.filled then s.goOn s.pc8 else s.waitAt (.gutter f.idx.toNat k) false)) ∧
      (g.filled < k →
        ∃ t : State, ∃ v, exec (.grel f) s = .next (t.fault (Cause.seq 0x05#8 0 v)) ∧ t.ctx = s.ctx ∧ t.mem = s.mem) ∧
      (k ≤ g.filled → k = 0 → exec (.grel f) s = .next (s.goOn s.pc8)) ∧
      (k ≤ g.filled → 0 < k → s.padReadsLeft = true → exec (.grel f) s = .next (s.waitAt .other false)) ∧
      (k ≤ g.filled → 0 < k → s.padReadsLeft = false → exec (.grel f) s = .next ((s.setCtx (s.ctx.setGutter f.idx.toNat
        { g with free := g.free + k, filled := g.filled - k, head := (g.head + k) % g.nslot.toNat })).goOn s.pc8))) ∧
    (∀ f : FGuD, s.Plain [f.d, f.d + 1#6] →
      let g := s.ctx.gutter f.idx.toNat
      (f.d.toNat % 2 = 1 ∨ f.d = 0#6 →
        ∃ t : State, ∃ v, exec (.gstat f) s = .next (t.fault (Cause.seq 0x05#8 0 v)) ∧ t.ctx = s.ctx ∧ t.mem = s.mem) ∧
      (f.d.toNat % 2 = 0 → f.d ≠ 0#6 → g.free < 4096 → g.filled < 4096 → g.head < 4096 → (∀ i, g.lenAt i < 2 ^ 20) →
        ∃ v w : Word, exec (.gstat f) s = .next (((s.wrc f.d v).wrc (f.d + 1#6) w).goOn s.pc8) ∧
          v.toNat = g.free + 2 ^ 12 * g.filled + 2 ^ 24 * g.head + (if g.waiters = [] then 0 else 2 ^ 61) +
            (if g.err then 2 ^ 62 else 0) + (if g.en then 2 ^ 63 else 0) ∧
          w.toNat = (if 1 ≤ g.filled then g.lenAt g.head else 0) +
            2 ^ 32 * (if 2 ≤ g.filled then g.lenAt ((g.head + 1) % g.nslot.toNat) else 0))) ∧
    (∀ f : FGuI, exec (.lbfree f) s = .next (
      if s.padReadsLeft then s.waitAt .other false
      else if (s.ctx.lbuf f.idx.toNat).en then
        (s.setCtx (s.ctx.setLBuf f.idx.toNat { s.ctx.lbuf f.idx.toNat with inuse := false })).goOn s.pc8
      else s.goOn s.pc8)) ∧
    (∀ f : FGuD, s.Plain [f.d] → exec (.lbusy f) s = .next ((s.wrc f.d (BitVec.ofNat 64
      ((if (s.ctx.lbuf f.idx.toNat).inuse then 1 else 0) + (if (s.ctx.lbuf f.idx.toNat).en then 2 else 0)))).goOn s.pc8))

namespace Sys2Proof.Say

/-- The system registers whose one field is read and written plainly (R301, R44 to R49, R101, R306, R307, R310,
R311). -/
def plainCsrs : List Nat :=
  [0x000, 0x001, 0x002, 0x004, 0x00B, 0x00F, 0x100, 0x101, 0x104, 0x200, 0x201, 0x204, 0x210, 0x302, 0x304]

/-- The value such a register holds after a write of v, `old` being what it held: VC at most 64, ASHAPE never
0, EMODE.RM never 5 to 7, PBUD between 2,000 and 200,000, addresses a multiple of 8, fields cut to their
width. -/
def csrHolds (n old v : Nat) : Nat :=
  match n with
  | 0x000 => min (v % 128) 64
  | 0x001 => if v % 16 = 0 then old else v % 16
  | 0x002 => (if v % 8 < 5 then v % 8 else old % 8) + v / 8 % 2 * 8
  | 0x004 => v % 2 ^ 12
  | 0x00B => v % 2 ^ 20
  | 0x00F => max 2000 (min 200000 (v % 2 ^ 18))
  | 0x104 => v
  | 0x204 => v
  | 0x210 => v % 64
  | 0x302 => v % 2 ^ 32
  | _ => v / 8 * 8

end Sys2Proof.Say

/-- R302: the CSR instructions. -/
def Obligations.SystemRegistersReadAndWrite : Prop :=
  ∀ (s : State),
    (∀ f : FCsrD, s.Plain [f.d] → ∃ t, exec (.csrr f) s = .next t ∧ t.ctx.pc = s.pc8 ∧ t.mem = s.mem ∧
      (f.d ≠ 0#6 → t.rd f.d = { bits := s.csrValue f.csr.toNat, pois := false }) ∧ (∀ r, r ≠ f.d → t.rd r = s.rd r) ∧
      (f.csr.toNat = 0x00D → t.ctx.cpfail = 0#32) ∧
      (f.csr.toNat = 0x303 → (t.die (dieOf s.ctx.core)).sevlost = 0#32) ∧
      (f.csr.toNat ≠ 0x00D → t.ctx.cpfail = s.ctx.cpfail) ∧ (f.csr.toNat ≠ 0x303 → t.dies = s.dies)) ∧
    (∀ (i : Instr) (a : Reg) (d : Option Reg) (n : Nat) (new : Word → Word → Word),
      ((∃ f, i = .csrw f ∧ a = f.a ∧ d = none ∧ n = f.csr.toNat ∧ new = fun _ v => v) ∨
        (∃ f, i = .csrs f ∧ a = f.a ∧ d = some f.d ∧ n = f.csr.toNat ∧ new = fun old v => old ||| v) ∨
        (∃ f, i = .csrc f ∧ a = f.a ∧ d = some f.d ∧ n = f.csr.toNat ∧ new = fun old v => old &&& ~~~v)) →
      s.Plain (a :: d.toList) → s.Clean [a] →
      let old := s.csrValue n
      let v := (s.rd a).bits
      (n ∈ Say.plainCsrs → ∃ t, exec i s = .next t ∧ t.ctx.pc = s.pc8 ∧ t.mem = s.mem ∧
        (t.csrValue n).toNat = Say.csrHolds n old.toNat (new old v).toNat ∧
        (∀ m ∈ Say.plainCsrs, m ≠ n → t.csrValue m = s.csrValue m) ∧
        (∀ r, some r ≠ d → t.rd r = s.rd r) ∧ (∀ r, d = some r → r ≠ 0#6 → t.rd r = { bits := old, pois := false })) ∧
      (n = 0x003 → ∃ t, exec i s = .next t ∧ t.ctx.pc = s.pc8 ∧
        ((∃ f, i = .csrs f) → t.bank.estat = s.bank.estat) ∧
        ((¬ ∃ f, i = .csrs f) → t.bank.estat = s.bank.estat &&& ~~~(v.setWidth 7))) ∧
      (n = 0x00C → ∃ t, exec i s = .next t ∧ t.ctx.pc = s.pc8 ∧
        ((∃ f, i = .csrs f) → t.ctx.qterm = s.ctx.qterm) ∧
        ((¬ ∃ f, i = .csrs f) → t.ctx.qterm = s.ctx.qterm &&& ~~~(v.extractLsb' 8 4)) ∧
        t.ctx.qlast = s.ctx.qlast) ∧
      (0x400 ≤ n → ∃ t, exec i s = .next t ∧ t.ctx.pc = s.pc8 ∧
        t.stg n = stagedValue n (s.stg n) (new (s.stg n) v) ∧ (∀ m, m ≠ n → t.stg m = s.stg m) ∧
        t.committed = s.committed ∧ t.mem = s.mem))

/-- R90, R94, R283, R311: descriptors and event registers. -/
def Obligations.DescriptorAndEventRegisters : Prop :=
  ∀ (s : State),
    (∀ f : FCsrG, s.Plain [f.a] → s.Clean [f.a] →
      let v := (s.rd f.a).bits.toNat
      let n := f.n.toNat
      let g := s.ctx.gutter n
      let base := v / 2 ^ 32 % 2 ^ 12
      let slotg := v / 2 ^ 16 % 2 ^ 8
      let nslot := v % 2 ^ 12
      let fits := 1 ≤ slotg ∧ slotg ≤ 64 ∧ 1 ≤ nslot ∧ s.ctx.spanFree (base, slotg * nslot) = true
      let en := v / 2 ^ 63 = 1
      (¬ (g.en = true ∧ ¬ en ∧ g.flight ≠ []) → ∃ t, exec (.gcfgWrite f) s = .next t ∧ t.ctx.pc = s.pc8 ∧ t.mem = s.mem ∧
        (∀ r, t.rd r = s.rd r) ∧ (∀ m, m ≠ n → t.ctx.gutter m = s.ctx.gutter m) ∧
        let h := t.ctx.gutter n
        (en → g.en = false → fits → h.en = true ∧ h.base.toNat = base ∧ h.slotg.toNat = slotg ∧ h.nslot.toNat = nslot ∧
          h.free = nslot ∧ h.filled = 0 ∧ h.head = 0 ∧ h.err = false) ∧
        (en → (g.en = true ∨ ¬ fits) → h = { g with err := true }) ∧
        (¬ en → h.en = false ∧ h.err = false ∧ h.base.toNat = base ∧ h.slotg.toNat = slotg ∧ h.nslot.toNat = nslot) ∧
        (¬ en → g.en = true → h.free = 0 ∧ h.filled = 0 ∧ h.head = 0 ∧ h.flight = [])) ∧
      (g.en = true → ¬ en → g.flight ≠ [] → exec (.gcfgWrite f) s = .next (s.waitAt .other false))) ∧
    (∀ f : FCsrL, s.Plain [f.a] → s.Clean [f.a] →
      let v := (s.rd f.a).bits.toNat
      let n := f.n.toNat
      let b := s.ctx.lbuf n
      let base := v / 2 ^ 32 % 2 ^ 12
      let size := v / 2 ^ 16 % 2 ^ 9
      let fits := 1 ≤ size ∧ size ≤ 256 ∧ s.ctx.spanFree (base, size) = true
      let en := v / 2 ^ 63 = 1
      ∃ t, exec (.lbdWrite f) s = .next t ∧ t.ctx.pc = s.pc8 ∧ t.mem = s.mem ∧ (∀ r, t.rd r = s.rd r) ∧
        (∀ m, m ≠ n → t.ctx.lbuf m = s.ctx.lbuf m) ∧
        (en → b.en = false → fits → t.ctx.lbuf n =
          { en := true, inuse := false, base := BitVec.ofNat 12 base, sizeg := BitVec.ofNat 9 size }) ∧
        (en → (b.en = true ∨ ¬ fits) → t.ctx.lbuf n = b) ∧
        (¬ en → t.ctx.lbuf n =
          { en := false, inuse := false, base := BitVec.ofNat 12 base, sizeg := BitVec.ofNat 9 size })) ∧
    (∀ f : FA1x, s.Plain [f.a] → s.Clean [f.a] →
      let d := dieOf s.ctx.core
      let v := (s.rd f.a).bits
      ∃ t, exec (.sevbaseWrite f) s = .next t ∧ t.ctx.pc = s.pc8 ∧ t.mem = s.mem ∧ (∀ r, t.rd r = s.rd r) ∧
        (t.die d).sevprod = 0#32 ∧ (t.die d).sevcons = 0#32 ∧ (t.die d).sevlost = (s.die d).sevlost ∧
        (t.die d).sevbase.toNat / 4096 = v.toNat / 4096 ∧ (∀ e, e ≠ d → t.die e = s.die e)) ∧
    (∀ f : FD1x, s.Plain [f.d] → f.d ≠ 0#6 →
      (∃ t, exec (.cpfstatRead f) s = .next t ∧ t.ctx.pc = s.pc8 ∧ t.mem = s.mem ∧
        t.rd f.d = { bits := s.ctx.cpfail.setWidth 64, pois := false } ∧ t.ctx.cpfail = 0#32 ∧
        ∀ r, r ≠ f.d → t.rd r = s.rd r) ∧
      (∃ t, exec (.sevlostRead f) s = .next t ∧ t.ctx.pc = s.pc8 ∧ t.mem = s.mem ∧
        t.rd f.d = { bits := (s.die (dieOf s.ctx.core)).sevlost.setWidth 64, pois := false } ∧
        (t.die (dieOf s.ctx.core)).sevlost = 0#32 ∧ ∀ r, r ≠ f.d → t.rd r = s.rd r))

/-- R317: spilling. -/
def Sys2Proof.Say.HandlersSpillAndFill : Prop :=
  ∀ (s : State),
    (s.ctx.inHandler = false → ∀ f : FBk,
      exec (.tspill f) s = .next (s.fault (Cause.seq 0x01#8 0 (encode (.tspill f)))) ∧
      exec (.tfill f) s = .next (s.fault (Cause.seq 0x01#8 0 (encode (.tfill f))))) ∧
    (s.ctx.inHandler = true → ∀ (ix : BitVec 6) (i : Nat), ix.toNat = i →
      let f : FBk := { kind := false, idx := ix }
      let g : FBk := { kind := true, idx := ix }
      let k := s.ctx.tile i
      let p := s.ctx.plane i
      (k.state = .absent →
        exec (.tspill f) s = .next (s.fault (Cause.seq 0x09#8 0 (BitVec.ofNat 64 i))) ∧
        exec (.tfill f) s = .next (s.fault (Cause.seq 0x09#8 0 (BitVec.ofNat 64 i)))) ∧
      (k.state ≠ .absent →
        (k.spill = none → s.tileBusy i = true → exec (.tspill f) s = .next (s.waitAt .other false)) ∧
        (k.spill = none → s.tileBusy i = false → exec (.tspill f) s = .next ((s.setCtx (s.ctx.setTile i { k with
          lock := false, spill := some {
            cells := if k.state = .off then [] else k.cells, pcells := [], state := k.state,
            lock := k.lock } })).goOn s.pc8)) ∧
        (k.spill ≠ none → exec (.tspill f) s = .next (s.goOn s.pc8)) ∧
        (k.spill = none → exec (.tfill f) s = .next (s.goOn s.pc8)) ∧
        (∀ c, k.spill = some c → s.tileBusy i = false → exec (.tfill f) s = .next ((s.setCtx (s.ctx.setTile i { k with
          cells := c.cells, state := c.state, lock := c.lock, waking := false, dropAtWake := false,
          spill := none })).goOn s.pc8))) ∧
      (p.spill = none → s.planeBusy i = false → ∃ t, exec (.tspill g) s = .next t ∧ t.ctx.pc = s.pc8 ∧ t.mem = s.mem ∧
        ((t.ctx.plane i).spill.map (fun c => (c.pcells, c.lock))) = some (p.cells, p.zmask) ∧
        (t.ctx.plane i).cells = p.cells ∧ (∀ j, j ≠ i → t.ctx.plane j = s.ctx.plane j) ∧ t.ctx.tiles = s.ctx.tiles) ∧
      (∀ c, p.spill = some c → s.planeBusy i = false → ∃ t, exec (.tfill g) s = .next t ∧ t.ctx.pc = s.pc8 ∧
        t.mem = s.mem ∧ t.ctx.plane i = { cells := c.pcells, zmask := c.lock, spill := none } ∧
        (∀ j, j ≠ i → t.ctx.plane j = s.ctx.plane j) ∧ t.ctx.tiles = s.ctx.tiles))

/-- R318, R319. -/
def Sys2Proof.Say.ContextsSaveAndLoad : Prop :=
  ∀ (s : State) (f : FDA), s.Plain [f.a, f.d] → s.Clean [f.a] →
    let a := (s.rd f.a).bits
    (a.toNat % 4096 ≠ 0 → exec (.ctxsave f) s = .next (s.fault (Cause.seq 0x06#8 0 a)) ∧
      exec (.ctxload f) s = .next (s.fault (Cause.seq 0x06#8 0 a))) ∧
    (a.toNat % 4096 = 0 →
      (s.findCtx a.toNat = none → exec (.ctxsave f) s = .next ((s.wrc f.d 3#64).goOn s.pc8)) ∧
      (∀ c, s.findCtx a.toNat = some c → c.id ≠ s.ctx.id →
        (c.place = .memory → ∃ t, exec (.ctxsave f) s = .next t ∧ t.ctx.pc = s.pc8 ∧
          (f.d ≠ 0#6 → t.rd f.d = { bits := if c.saveReq then 0#64 else 1#64, pois := false }) ∧
          (∀ r, r ≠ f.d → t.rd r = s.rd r) ∧
          (t.findCtx c.id).map (fun x => (x.held, x.saveReq)) = some (true, false)) ∧
        (∀ p, c.place = .core p → c.inHandler = true → ∃ t, exec (.ctxsave f) s = .next t ∧ t.ctx.pc = s.ctx.pc ∧
          (∀ r, t.rd r = s.rd r) ∧ t.mem = s.mem ∧ t.tasks = s.tasks ∧
          (t.findCtx c.id).map (fun x => (x.saveReq, x.place)) = some (true, .core p)) ∧
        (∀ p, c.place = .core p → c.inHandler = false → c.task = none → ∃ t, exec (.ctxsave f) s = .next t ∧
          t.ctx.pc = s.pc8 ∧ (f.d ≠ 0#6 → t.rd f.d = { bits := 0#64, pois := false }) ∧
          (∀ r, r ≠ f.d → t.rd r = s.rd r) ∧
          (t.findCtx c.id).map (fun x => (x.held, x.place)) = some (true, .memory)) ∧
        (∀ p n k, c.place = .core p → c.inHandler = false → c.task = some n → s.findTask n = some k → k.id = n →
          k.members = [c.id] → (s.coreSlot p).run = some c.id → (s.coreSlot p).second = none → k.state = .running →
          ∃ t, exec (.ctxsave f) s = .next t ∧ t.ctx.pc = s.pc8 ∧
            (f.d ≠ 0#6 → t.rd f.d = { bits := 0#64, pois := false }) ∧ (∀ r, r ≠ f.d → t.rd r = s.rd r) ∧
            (t.findCtx c.id).map (fun x => (x.held, x.place, x.pc)) = some (true, .memory, c.pc) ∧
            (t.coreSlot p).run ≠ some c.id ∧ (t.findTask n).map Task.state = some .ready) ∧
        (∀ p, c.place = .core p → exec (.ctxload f) s = .next ((s.wrc f.d 0#64).goOn s.pc8)) ∧
        (c.place = .memory →
          let n := s.loadStatus a.toNat (s.rereadArea c)
          ∃ t, exec (.ctxload f) s = .next t ∧ t.ctx.pc = s.pc8 ∧
            (f.d ≠ 0#6 → t.rd f.d = { bits := BitVec.ofNat 64 n, pois := false }) ∧ (∀ r, r ≠ f.d → t.rd r = s.rd r) ∧
            t.mem = s.mem ∧ (n = 0 → (t.findCtx c.id).map Ctx.held =
              some (decide (c.level = .tenant) && s.vdPaused c.vdn.toNat)) ∧ (n ≠ 0 → t.ctxs = s.ctxs)))) ∧
    (∀ c, a.toNat % 4096 = 0 → (s.findCtx a.toNat = none ∨ s.findCtx a.toNat = some c ∧ c.place = .nowhere) →
      s.ctx.place ≠ .nowhere →
      let n := s.loadStatus a.toNat { s.readArea a.toNat with kept := true }
      ∃ t, exec (.ctxload f) s = .next t ∧ t.ctx.pc = s.pc8 ∧
        (f.d ≠ 0#6 → t.rd f.d = { bits := BitVec.ofNat 64 n, pois := false }) ∧ (∀ r, r ≠ f.d → t.rd r = s.rd r) ∧
        (n = 1 ∨ n = 3 → t = (s.wrc f.d (BitVec.ofNat 64 n)).goOn s.pc8) ∧
        (n = 0 → (t.findCtx a.toNat).isSome = true) ∧ (n = 2 → (t.findCtx a.toNat).map Ctx.held = some true)) ∧
    (a.toNat % 4096 = 0 → ∀ x : Ctx,
      (s.areaOk a.toNat = false → s.loadStatus a.toNat x = 1) ∧
      (s.areaOk a.toNat = true → s.partEnabled x.part.toNat = false → s.loadStatus a.toNat x = 3) ∧
      (s.areaOk a.toNat = true → s.partEnabled x.part.toNat = true → x.level = .tenant →
        (∀ y, Sparse.get (fun _ => none) s.shapes x.vdn.toNat = some y → y = s.shapeOf x.part.toNat) →
        x.lcore.toNat < (s.coresOf x.part.toNat).length →
        ((∃ p ∈ s.coresOf x.part.toNat, (s.coreSlot p).fits x.spbanks x.l1size.toNat (x.fullt || x.regabs) x.liveMask = true) →
          s.loadStatus a.toNat x = 0) ∧
        ((∀ p ∈ s.coresOf x.part.toNat, (s.coreSlot p).fits x.spbanks x.l1size.toNat (x.fullt || x.regabs) x.liveMask = false) →
          s.loadStatus a.toNat x = 2)) ∧
      (s.areaOk a.toNat = true → s.partEnabled x.part.toNat = true → x.level = .tenant →
        (∃ y, Sparse.get (fun _ => none) s.shapes x.vdn.toNat = some y ∧ y ≠ s.shapeOf x.part.toNat) →
        s.loadStatus a.toNat x = 2))

/-- R320, R321. -/
def Sys2Proof.Say.TranslationsDropAndRangesZero : Prop :=
  ∀ (s : State) (a b : Reg), s.Plain [a, b] → s.Clean [a, b] →
    let x := (s.rd a).bits
    let y := (s.rd b).bits
    (∀ sc : BitVec 3,
      let f : FScAB := { scope := sc, a := a, b := b }
      let n := y.toNat % 2 ^ 40
      let rsv := y.toNat / 2 ^ 54 ≠ 0 ∨ y.toNat / 2 ^ 40 % 2 ^ 8 ≠ 0 ∨ (n = 0 ∧ x ≠ 0#64)
      (x.toNat % 65536 ≠ 0 → exec (.tlbinv f) s = .next (s.fault (Cause.seq 0x06#8 0 x))) ∧
      (x.toNat % 65536 = 0 → rsv → ∃ t : State, ∃ v, exec (.tlbinv f) s = .next (t.fault (Cause.seq 0x05#8 0 v)) ∧
        t.ctx = s.ctx ∧ t.mem = s.mem ∧ t.tlb = s.tlb) ∧
      (x.toNat % 65536 = 0 → ¬ rsv → ∃ t, exec (.tlbinv f) s = .next t ∧ t.ctx.pc = s.pc8 ∧ (∀ r, t.rd r = s.rd r) ∧
        (∀ e, e ∈ t.tlb ↔ e ∈ s.tlb ∧ ¬ (e.vdn = y.toNat / 2 ^ 48 % 64 ∧ e.inScope s.ctx.core sc.toNat = true ∧
          (n = 0 ∨ (e.vbase < x.toNat + 65536 * n ∧ x.toNat < e.vbase + e.size)))) ∧
        ∀ e, e ∈ t.walks ↔ e ∈ s.walks ∧ ¬ (e.stage = 1 ∧ e.owner = y.toNat / 2 ^ 48 % 64 ∧
          (sc = 3#3 ∨ e.die = dieOf s.ctx.core) ∧
          (n = 0 ∨ (e.vbase < x.toNat + 65536 * n ∧ x.toNat < e.vbase + e.size))))) ∧
    (let f : FAB := { a := a, b := b };
      (x.toNat % 65536 ≠ 0 → exec (.zerorange f) s = .next (s.fault (Cause.seq 0x06#8 0 x))) ∧
      (x.toNat % 65536 = 0 → y.toNat % 65536 ≠ 0 → exec (.zerorange f) s = .next (s.fault (Cause.seq 0x06#8 0 y))) ∧
      (x.toNat % 65536 = 0 → y.toNat % 65536 = 0 →
        (2 ^ 48 < x.toNat + y.toNat → exec (.zerorange f) s = .next (s.fault (Cause.seq 0x05#8 1 x))) ∧
        (∀ e, x.toNat + y.toNat ≤ 2 ^ 48 → s.ipaPages x.toNat (y.toNat / 65536) = .error e →
          exec (.zerorange f) s = .next ((s.xEvent (dieOf s.ctx.core) s.ctx.part.toNat s.ctx.vdn.toNat e).fault
            (e.cause 0x05#8 x.toNat))) ∧
        (∀ ps, x.toNat + y.toNat ≤ 2 ^ 48 → s.ipaPages x.toNat (y.toNat / 65536) = .ok ps → s.parts = true →
          1 < ps.length → (ps.headD 0) % 65536 = 0 → a ≠ b → a ≠ 0#6 → b ≠ 0#6 → ∃ t, exec (.zerorange f) s = .next t ∧ t.ctx.pc = s.ctx.pc ∧
            t.mem = (s.zeroRange (ps.headD 0) 65536).mem ∧ t.rd a = { bits := x + 65536#64, pois := false } ∧
            t.rd b = { bits := y - 65536#64, pois := false } ∧ (∀ r, r ≠ a → r ≠ b → t.rd r = s.rd r)) ∧
        (∀ ps, x.toNat + y.toNat ≤ 2 ^ 48 → s.ipaPages x.toNat (y.toNat / 65536) = .ok ps → s.parts = false →
          (∀ p ∈ ps, p % 65536 = 0) → ∃ t, exec (.zerorange f) s = .next t ∧ t.ctx.pc = s.pc8 ∧
            (∀ z, t.byteAt z = if z / 65536 * 65536 ∈ ps then 0#8 else s.byteAt z) ∧
            (∀ z, t.marked z = if z / 65536 * 65536 ∈ ps then false else s.marked z) ∧
            (a ≠ b → a ≠ 0#6 → t.rd a = { bits := x + y, pois := false }) ∧
            (b ≠ 0#6 → t.rd b = { bits := 0#64, pois := false }) ∧ (∀ r, r ≠ a → r ≠ b → t.rd r = s.rd r))))

/-- R322 to R324. -/
def Sys2Proof.Say.CommitsWatchdogsAndLevels : Prop :=
  ∀ (s : State),
    (s.waitHere? = none → ∃ t p, exec .psync s = .next t ∧ t.ctx.pc = s.ctx.pc ∧ t.mem = s.mem ∧ (∀ r, t.rd r = s.rd r) ∧
      p % 1024 = 0 ∧ s.now + 2048 ≤ p ∧ p < s.now + 2048 + 1024 ∧ (p, s.staged) ∈ t.psyncs ∧ t.committed = s.committed ∧
      (t.bank.wait.map (fun w => (w.pc, w.since))) = some (s.ctx.pc, s.now)) ∧
    (∀ w, s.waitHere? = some w →
      ((∀ e ∈ s.psyncs, e.1 ≠ psyncPoint w.since) → exec .psync s = .next (s.goOn s.pc8)) ∧
      ((∃ e ∈ s.psyncs, e.1 = psyncPoint w.since) → exec .psync s = .next (s.waitAt .other false))) ∧
    (∀ f : FA1, s.Plain [f.a] → s.Clean [f.a] →
      let v := (s.rd f.a).bits.toNat
      let d := dieOf s.ctx.core
      (v ≤ 1000000 → ∃ t, exec (.wdog f) s = .next t ∧ t.ctx.pc = s.pc8 ∧ t.mem = s.mem ∧ (∀ r, t.rd r = s.rd r) ∧
        (t.die d).wdog = (if v = 0 then none else some v) ∧ (v ≠ 0 → (t.die d).wdogAt = s.now + 1000 * v) ∧
        (t.die d).wdogX = 0 ∧ ∀ e, e ≠ d → t.die e = s.die e) ∧
      (1000000 < v → ∃ t : State, ∃ x, exec (.wdog f) s = .next (t.fault (Cause.seq 0x05#8 0 x)) ∧ t.ctx = s.ctx ∧
        t.dies = s.dies ∧ t.mem = s.mem)) ∧
    (∀ f : FAB, s.Plain [f.a, f.b] → s.Clean [f.a, f.b] →
      let a := (s.rd f.a).bits.toNat
      let b := (s.rd f.b).bits.toNat
      let p := a / 2 ^ 8 % 16
      let q := a % 64
      let good := a / 2 ^ 6 % 4 = 0 ∧ a / 2 ^ 12 % 2 ^ 51 = 0 ∧ b / 8 = 0
      (good → a / 2 ^ 63 = 0 → s.partEnabled p = true → s.queueOn p q = true →
        ∃ t, exec (.dlvl f) s = .next t ∧ t.ctx.pc = s.pc8 ∧ (∀ r, t.rd r = s.rd r) ∧
          t.qlevel p q = { level := b % 4, floor := if b / 4 % 2 = 1 then b % 4 else 0 } ∧
          ∀ i j, j < 64 → (i, j) ≠ (p, q) → t.qlevel i j = s.qlevel i j) ∧
      (¬ good ∨ s.partEnabled p = false ∨ (a / 2 ^ 63 = 0 ∧ s.queueOn p q = false) →
        ∃ t : State, ∃ x, exec (.dlvl f) s = .next (t.fault (Cause.seq 0x05#8 0 x)) ∧ t.ctx = s.ctx ∧
          t.qlevels = s.qlevels))

/-- R325: cancels. -/
def Sys2Proof.Say.CancelsAreRecordedAndCleared : Prop :=
  ∀ (s : State) (f : FDAB) (i : Instr), (i = .cancel f ∨ i = .cancelClear f) → s.Plain [f.a, f.b, f.d] →
    s.Clean [f.a, f.b] →
    let a := (s.rd f.a).bits
    let b := (s.rd f.b).bits.toNat
    let p := b / 2 ^ 8 % 16
    let lvl := b % 4
    let rsv := b / 2 ^ 12 ≠ 0 ∨ b / 2 ^ 3 % 2 ^ 5 ≠ 0
    (a.toNat % 16 ≠ 0 → exec i s = .next (s.fault (Cause.seq 0x06#8 0 a))) ∧
    (a.toNat % 16 = 0 → rsv → ∃ t : State, ∃ x, exec i s = .next (t.fault (Cause.seq 0x05#8 0 x)) ∧ t.ctx = s.ctx ∧
      t.cancels = s.cancels) ∧
    (a.toNat % 16 = 0 → ¬ rsv →
      (a = 0#64 → exec i s = .next (s.fault (Cause.seq 0x05#8 0 0#64))) ∧
      (a ≠ 0#64 → s.partEnabled p = false → exec i s = .next ((s.wrc f.d 3#64).goOn s.pc8)) ∧
      (a ≠ 0#64 → s.partEnabled p = true → b / 4 % 2 = 1 →
        ((∀ c ∈ s.cancels, ¬ (c.part = p ∧ c.addr = a ∧ c.level = lvl)) →
          exec i s = .next ((s.wrc f.d 2#64).goOn s.pc8)) ∧
        ((∃ c ∈ s.cancels, c.part = p ∧ c.addr = a ∧ c.level = lvl) →
          ∃ t, exec i s = .next t ∧ t.ctx.pc = s.pc8 ∧ t.mem = s.mem ∧
            (f.d ≠ 0#6 → t.rd f.d = { bits := 0#64, pois := false }) ∧ (∀ r, r ≠ f.d → t.rd r = s.rd r) ∧
            ∀ c, c ∈ t.cancels ↔ c ∈ s.cancels ∧ ¬ (c.part = p ∧ c.addr = a ∧ c.level = lvl))) ∧
      (a ≠ 0#64 → s.partEnabled p = true → b / 4 % 2 = 0 →
        (s.cancelLevel p a lvl = none → exec i s = .next ((s.wrc f.d 1#64).goOn s.pc8)) ∧
        (∀ u, s.cancelLevel p a lvl = some u → u.ctx.qbinds = s.ctx.qbinds →
          exec i s = .next ((u.wrc f.d 0#64).goOn s.pc8)) ∧
        ((∀ k ∈ s.tasks, k.state = .complete ∨ k.part ≠ p ∨ k.counter lvl ≠ a) →
          (s.cancels.filter (fun c => c.part == p)).length < 64 →
          ∃ t, exec i s = .next t ∧ t.ctx.pc = s.pc8 ∧ t.mem = s.mem ∧
            (f.d ≠ 0#6 → t.rd f.d = { bits := 0#64, pois := false }) ∧ (∀ r, r ≠ f.d → t.rd r = s.rd r) ∧
            ∀ c, c ∈ t.cancels ↔ c ∈ s.cancels ∨ c = { part := p, addr := a, level := lvl })))

namespace Sys2Proof.Say

/-- A field of a 64-byte block or a packet: `n` bytes at byte `off`. -/
def fld (blk off n : Nat) : Nat := blk / 2 ^ (8 * off) % 2 ^ (8 * n)

/-- The FWCALL of the running code with its block at A, which reads as the number `n`, clean, leaving `s1`. -/
def Block (s s1 : State) (a : Reg) (n : Nat) : Prop :=
  s.Clean [a] ∧ (s.rd a).bits.toNat % 64 = 0 ∧
    ∃ bs, s.loadAt (s.rd a).bits.toNat 64 .r = .ok (s1, bs, false) ∧ natOfBytes bs = n

/-- The bytes of a translated range fall on distinct physical addresses. -/
def Apart (ps : List (Nat × XOk)) (va n : Nat) : Prop :=
  ∀ i j, i < n → j < n → physOf ps (va + i) = physOf ps (va + j) → i = j

/-- A translated range holds some bytes, and no other byte has changed. -/
def Stored (s t : State) (ps : List (Nat × XOk)) (va : Nat) (bs : List Byte) : Prop :=
  (∀ k < bs.length, t.byteAt (physOf ps (va + k)) = bs.getD k 0#8) ∧
    ∀ x, (∀ k < bs.length, x ≠ physOf ps (va + k)) → t.byteAt x = s.byteAt x

/-- The instruction goes on, writing a status to D, every other register as before. -/
def Status (s t : State) (d : Reg) (v : Nat) : Prop :=
  t.ctx.pc = s.pc8 ∧ (d ≠ 0#6 → t.rd d = { bits := BitVec.ofNat 64 v, pois := false }) ∧ ∀ r, r ≠ d → t.rd r = s.rd r

/-- The services that report: their instruction by number, the field OUT, the size of its buffer, whether the block is
valid, the bytes of the result (R416, R417). -/
def fwReport (s : State) (d a : Reg) (n : Nat) : Nat → Option (Instr × Nat × Nat × Bool × List Byte)
  | 0 => some (.fwcallIdentity { d := d, a := a, imm := 0#36 }, fld n 8 8, 64,
      decide (fld n 0 8 = 0 ∧ fld n 16 48 = 0),
      bytesOfNat 8 Config.firmwareVersion.toNat ++ (bytesOfNat 64 (Config.shake256 s.flash).toNat).take 56)
  | 1 => some (.fwcallMeasurementLog { d := d, a := a }, fld n 8 8, 64 * fld n 20 4,
      decide (fld n 0 8 = 0 ∧ fld n 24 40 = 0 ∧ fld n 16 4 + fld n 20 4 ≤ s.mlog.length),
      ((s.mlog.drop (fld n 16 4)).take (fld n 20 4)).flatMap (fun e => bytesOfNat 64 e.toNat))
  | 2 =>
    let log := bytesOfNat 64 (Config.shake256 (s.mlog.flatMap (fun e => bytesOfNat 64 e.toNat))).toNat
    let sig := Config.falconSign (bytesOfNat 64 (Config.shake256
      (bytesOfNat 32 (fld n 8 32) ++ log ++ bytesOfNat 1 s.ctx.device)).toNat)
    some (.fwcallQuote { d := d, a := a }, fld n 40 8, 2048, decide (fld n 0 8 = 0 ∧ fld n 48 16 = 0),
      (List.range 1280).map (fun i => sig.getD i 0#8) ++ log)
  | _ => none

/-- A bit of a byte string. -/
def bitIn (bs : List Byte) (i : Nat) : Bool := (bs.getD (i / 8) 0#8).getLsbD (i % 8)

/-- The operations on pages: service 4 by OP, service 5 (R367, R368). -/
def fwPage (f : FDAfw) : Nat → Instr
  | 0 => .stage2Map f
  | 1 => .stage2Unmap f
  | 2 => .moveToTier1 f
  | 3 => .moveToTier2 f
  | 4 => .setPermissions f
  | _ => .pageRetirement f

/-- Two ranges of bytes have none in common. -/
def Disjoint (a n b m : Nat) : Prop := a + n ≤ b ∨ b + m ≤ a

end Sys2Proof.Say

/-- R326, R416, R417: the reports of firmware. -/
def Obligations.FirmwareReports : Prop :=
  ∀ (s : State) (d a : Reg), s.Plain [a, d] →
    (∀ imm, s.Clean [a] → (s.rd a).bits.toNat % 64 ≠ 0 →
      exec (.fwcallIdentity { d := d, a := a, imm := imm }) s = .next (s.fault (Cause.seq 0x06#8 0 (s.rd a).bits))) ∧
    (∀ imm : BitVec 36, s.Clean [a] → (s.rd a).bits.toNat % 64 = 0 → imm ≠ 0#36 →
      ∃ t, exec (.fwcallIdentity { d := d, a := a, imm := imm }) s = .next t ∧ Say.Status s t d 0xFF ∧ t.mem = s.mem) ∧
    (∀ (s1 : State) (n : Nat), Say.Block s s1 a n →
      (∀ k i out sz ok bs, Say.fwReport s d a n k = some (i, out, sz, ok, bs) →
        (ok = false → ∃ t, exec i s = .next t ∧ Say.Status s t d 1 ∧ t.mem = s1.mem) ∧
        (∀ e, ok = true → s1.checkData out sz .w = .error e → ∃ t, exec i s = .next t ∧ Say.Status s t d 1) ∧
        (∀ ps, ok = true → s1.checkData out sz .w = .ok ps → Say.Apart ps out sz →
          ∃ t, exec i s = .next t ∧ Say.Status s t d 0 ∧ Say.Stored s1 t ps out bs)) ∧
      (let i : Instr := .fwcallRepairMap { d := d, a := a };
        let out := Say.fld n 8 8;
        (Say.fld n 0 8 ≠ 0 ∨ Say.fld n 16 48 ≠ 0 → ∃ t, exec i s = .next t ∧ Say.Status s t d 1 ∧ t.mem = s1.mem) ∧
        (∀ ps, Say.fld n 0 8 = 0 → Say.fld n 16 48 = 0 → s1.checkData out 640 .w = .ok ps → Say.Apart ps out 640 →
          ∃ t bs, exec i s = .next t ∧ Say.Status s t d 0 ∧ Say.Stored s1 t ps out bs ∧ bs.length = 640 ∧
            ∀ c < 640, Say.bitIn bs c = (s.coreSlot c).disabled ∧ Say.bitIn bs (640 + c) = (s.coreSlot c).noT15 ∧
              natOfBytes (bs.drop 256) / 16 ^ c % 16 =
                if (s.coreSlot c).disabled then 0 else (s.coreSlot c).removed % 16)))

/-- R367, R368: services 4 and 5. -/
def Sys2Proof.Say.FirmwareChangesPages : Prop :=
  ∀ (s s1 : State) (f : FDAfw) (n k : Nat), k ≤ 5 → s.Plain [f.a, f.d] → Say.Block s s1 f.a n →
    let a := (s.rd f.a).bits.toNat
    let ipa := Say.fld n 0 8
    let np := Say.fld n 8 4
    let op := Say.fld n 12 1
    let fl := Say.fld n 13 1
    let valid := ipa % 65536 = 0 ∧ 1 ≤ np ∧ np ≤ 16384 ∧ ipa + 65536 * np ≤ 2 ^ 48 ∧ fl < 32 ∧
      Say.fld n 14 2 = 0 ∧ Say.fld n 20 44 = 0 ∧ (if k = 5 then op = 0 else op ≤ 4)
    (¬ valid → ∃ t, exec (Say.fwPage f k) s = .next t ∧ Say.Status s t f.d 1 ∧ t.mem = s1.mem) ∧
    (∀ ps, valid → s1.checkData (a + 16) 4 .w = .ok ps →
      let u := s1.pageOps s1.ctx.part.toNat (if k = 5 then 5 else op) fl ipa np
      let v : State := { u.1 with tlb := [], walks := [] }
      ∃ t, exec (Say.fwPage f k) s = .next t ∧ Say.Status s t f.d (if u.2 = np then 0 else 2) ∧
        t.tlb = [] ∧ t.walks = [] ∧
        ∀ qs, v.checkData (a + 16) 4 .w = .ok qs → Say.Stored v t qs (a + 16) (bytesOfNat 4 u.2))

/-- R97, R360, R362, R367, R368: one page of service 4 (its OP) or 5 (code 5). -/
def Sys2Proof.Say.FirmwareChangesOnePage : Prop :=
  ∀ (u : State) (part fl ipa slot : Nat), Inv u → fl < 32 → u.cfg (0x440 + part) ≠ 0#64 →
    State.entryOf false ipa walkLevels (u.cfg (0x440 + part)).toNat u = some (u, slot) →
    let e := u.natAt slot 8
    let old := e / 2 ^ 8 % 2 ^ 48 * 256
    let m : Bool := e / 2 ^ 5 % 2 == 1
    let big : Bool := fl / 16 % 2 == 1
    let mir : Bool := fl / 8 % 2 == 1
    let Clear := fun (fs : List Nat) => fs.Nodup ∧ ∀ x ∈ fs, Say.Disjoint (65536 * x) 65536 slot 8
    (∀ (tier2 pair : Bool),
      let free := fun x => (tierFrames tier2).1 ≤ x ∧ x < (tierFrames tier2).1 + (tierFrames tier2).2 ∧
        u.frameBusy x = false ∧ (pair = true → u.frameBusy (mirrorFrame x) = false)
      (∀ new, u.freshFrame tier2 pair = some new → ∃ x, new = 65536 * x ∧ free x) ∧
      (u.freshFrame tier2 pair = none → ∀ x, ¬ free x)) ∧
    (e % 2 = 1 → u.pageOp part 0 fl ipa = none) ∧
    (∀ k, 1 ≤ k → k ≤ 5 → e % 2 = 0 → u.pageOp part k fl ipa = none) ∧
    (e % 2 = 0 → u.pageQuota part big ≤ u.pagesUsed part big ∨ (big = true ∧ mir = true) ∨ u.freshFrame big mir = none →
      u.pageOp part 0 fl ipa = none) ∧
    (∀ new, u.freshFrame big mir = some new →
      e % 2 = 0 → u.pagesUsed part big < u.pageQuota part big → ¬ (big = true ∧ mir = true) →
      Clear (framesOf new mir) →
      ∃ t, u.pageOp part 0 fl ipa = some t ∧ t.natAt slot 8 = new + 1 + 4 * (fl % 8) + 32 * (fl / 8 % 2) ∧
        ∀ x ∈ framesOf new mir, ∀ j < 65536, t.byteAt (65536 * x + j) = 0#8) ∧
    (e % 2 = 1 → ∃ t, u.pageOp part 1 fl ipa = some t ∧ t.natAt slot 8 = 0 ∧
      ∀ c ∈ t.allCtxs, ∀ b ∈ c.l1, b.1 / 65536 ≠ old / 65536) ∧
    (e % 2 = 1 → ¬ (isTier2 old = true ∧ mir = true) →
      (mir = true → m = false → u.frameBusy (mirrorFrame (old / 65536)) = false ∧
        Clear [mirrorFrame (old / 65536)]) →
      ∃ t, u.pageOp part 4 fl ipa = some t ∧ t.natAt slot 8 = old + 1 + 4 * (fl % 8) + 32 * (fl / 8 % 2)) ∧
    (∀ k, (k = 2 ∨ k = 3 ∨ k = 5) → e % 2 = 1 → old % 65536 = 0 →
      let tier2 := if k = 5 then isTier2 old else k == 3
      (u.freshFrame tier2 m = none → u.pageOp part k fl ipa = none) ∧
      ∀ new, u.freshFrame tier2 m = some new →
      (k = 5 ∨ isTier2 old = tier2 ∨ u.pagesUsed part tier2 < u.pageQuota part tier2) →
      ¬ (tier2 = true ∧ m = true) → Clear (framesOf old m ++ framesOf new m) →
      ∃ t, u.pageOp part k fl ipa = some t ∧ t.natAt slot 8 = new + e % 256 ∧
        (∀ j < 65536, t.byteAt (new + j) = u.byteAt (old + j)) ∧ (k = 5 → old / 65536 ∈ t.retired))

/-- R408: windows. -/
def Sys2Proof.Say.FirmwareKeepsReductionWindows : Prop :=
  ∀ (s s1 : State) (f : FDAfw) (n : Nat) (i : Instr), s.Plain [f.a, f.d] → Say.Block s s1 f.a n →
    (i = .windowDeclare f ∨ i = .windowRemove f) →
    let base := Say.fld n 0 8
    let size := Say.fld n 8 8
    let ident := Say.fld n 16 2
    let home := Say.fld n 18 2
    let part := s.ctx.part.toNat
    let ok := base % 65536 = 0 ∧ size % 65536 = 0 ∧ 0 < size ∧ size ≤ 2 ^ 30 ∧ base + size ≤ 2 ^ 48 ∧ ident ≤ 1023 ∧
      home ≤ 4095 ∧ n / 2 ^ 162 % 2 ^ 350 = 0
    (¬ ok → ∃ t, exec i s = .next t ∧ Say.Status s t f.d 1 ∧ t.windows = s.windows ∧ t.mem = s1.mem) ∧
    (ok → n / 2 ^ 161 % 2 = 0 →
      let clash := ∃ w ∈ s.windows, w.ident = ident ∨ (w.part = part ∧ w.base < base + size ∧ base < w.base + w.size)
      (clash → ∃ t, exec i s = .next t ∧ Say.Status s t f.d 2 ∧ t.windows = s.windows ∧ t.mem = s1.mem) ∧
      (¬ clash → ∃ t, exec i s = .next t ∧ Say.Status s t f.d 0 ∧ t.mem = s1.mem ∧ t.windows = s.windows ++
        [{ ident := ident, part := part, vdn := s.ctx.vdn.toNat, base := base, size := size, w64 := n / 2 ^ 160 % 2 == 1, home := home }])) ∧
    (ok → n / 2 ^ 161 % 2 = 1 →
      let mine := ∃ w ∈ s.windows, w.part = part ∧ w.ident = ident
      (¬ mine → ∃ t, exec i s = .next t ∧ Say.Status s t f.d 2 ∧ t.windows = s.windows ∧ t.mem = s1.mem) ∧
      (mine → ∃ t, exec i s = .next t ∧ Say.Status s t f.d 0 ∧
        (∀ w, w ∈ t.windows ↔ w ∈ s.windows ∧ ¬ (w.part = part ∧ w.ident = ident)) ∧
        (∀ c, c ∈ t.contribs ↔ c ∈ s.contribs ∧ c.ident ≠ ident)))

namespace Sys2Proof.Say

/-- The index of a line operand as an entry carries it (R41). -/
def carriedIx (s : State) (fromReg : Bool) (idx : BitVec 6) : BitVec 6 :=
  if fromReg then (s.rd idx).bits.setWidth 6 else idx

/-- A + SignExt(OFF) of an engine word (R224). -/
def engAddr (s : State) (a : Reg) (off : BitVec 16) : Word := BitVec.ofInt 64 ((s.rd a).bits.toInt + off.toInt)

/-- A scratchpad address is aligned and n bytes from it lie below SPSIZE (R224, R265). -/
def InPad (s : State) (ad : Word) (align n : Nat) : Prop :=
  ad.toNat % align = 0 ∧ (n = 0 ∨ ad.toNat + n ≤ 16384 * s.ctx.spbanks)

/-- Bytes from a row of LTILE and STILE to the next, and of LTRANS and STRANS; bytes of an element (R226). -/
def rowPitch (param : BitVec 6) : Nat := 256 + 64 * param.toNat
def transPitch (param : BitVec 6) : Nat := 64 * (param.toNat % 16 + 1)
def transElem (param : BitVec 6) : Nat := 4 / 2 ^ (param.toNat / 16)

/-- The bytes an L or S word touches from its address, where they are known as it is issued (R226, R231 to
R233, R266, R268), and the alignment asked. -/
def span (s : State) : Instr → Option (Reg × BitVec 16 × Nat × Nat)
  | .lline f => some (f.a, f.off, 64, 256)
  | .ltile f => some (f.a, f.off, 64, 63 * rowPitch f.param + 256)
  | .ltrans f => some (f.a, f.off, 64, (256 / transElem f.param - 1) * transPitch f.param + 64 * transElem f.param)
  | .lwgt f => some (f.a, f.off, 64,
      if f.param.getLsbD 3 then 512 else (if f.param.getLsbD 2 then 64 else 16) * (if f.param.getLsbD 4 then 256 else 128))
  | .lgath f => some (f.a, f.off, 64, 64)
  | .lmask f => some (f.a, f.off, 64, 576)
  | .sline f => some (f.a, f.off, 64, 256)
  | .stile f => some (f.a, f.off, 64, 63 * rowPitch f.param + 256)
  | .strans f => some (f.a, f.off, 64, (256 / transElem f.param - 1) * transPitch f.param + 64 * transElem f.param)
  | .sacc f => some (f.a, f.off, 32, (s.bank.vc.toNat * (dtOf f.dt.toNat).width + 7) / 8)
  | _ => none

/-- The scalar registers an engine word names. -/
def v3Names (f : FV3) : List Reg := lineRegs f.src1 ++ lineRegs f.src2 ++ dlineRegs f.dst

/-- What a V word of three lines carries: its indices. -/
def v3Carried (s : State) (f : FV3) : Taken :=
  { Taken.none_ with
    i1 := carriedIx s f.src1.fromReg f.src1.idx, i2 := carriedIx s f.src2.fromReg f.src2.idx,
    idst := carriedIx s f.dst.fromReg f.dst.idx }

/-- A V word of three lines. -/
def v3 (s : State) (f : FV3) : Option (Eng × Tok × List Reg × Taken × Prop) :=
  some (.v, f.tok, v3Names f, v3Carried s f, s.ctx.tileProtected f.dst.tile.toNat = false)

/-- A compare word. -/
def vcm (s : State) (f : FVCm) : Option (Eng × Tok × List Reg × Taken × Prop) :=
  some (.v, f.tok, lineRegs f.src1 ++ lineRegs f.src2,
    { Taken.none_ with
      i1 := carriedIx s f.src1.fromReg f.src1.idx, i2 := carriedIx s f.src2.fromReg f.src2.idx }, True)

/-- A word whose result is a scalar register, which may not be bound (R247). -/
def vsc (s : State) (tok : Tok) (names : List Reg) (i1 : BitVec 6) (r : Reg) :
    Option (Eng × Tok × List Reg × Taken × Prop) :=
  some (.v, tok, names, { Taken.none_ with i1 := i1, idst := r, sPend := r != 0#6 }, s.ctx.boundSlot r = none)

/-- An L or S word with an address, and the line index where it has one. -/
def lsw (s : State) (e : Eng) (f : FLN) (ix : Bool) (cond : Prop) : Option (Eng × Tok × List Reg × Taken × Prop) :=
  some (e, f.tok, f.a :: lineRegs f.line,
    { Taken.none_ with
      val := engAddr s f.a f.off, i1 := if ix then carriedIx s f.line.fromReg f.line.idx else 0#6 }, cond)

/-- Every engine word: its engine, its tokens, the scalar registers it names, what its entry carries, and the
conditions under which it is queued: an address in the scratchpad, no register or plane protected from an open
handler, no change of the array in a handler, no bound result register (R10, R41, R224, R247, R265, R350). -/
def issue (s : State) (i : Instr) : Option (Eng × Tok × List Reg × Taken × Prop) :=
  let here : Prop := match span s i with
    | some (a, off, al, n) => InPad s (engAddr s a off) al n
    | none => True
  let base : Prop := s.ctx.inHandler = false
  let open_ (l : Line) : Prop := s.ctx.tileProtected l.tile.toNat = false
  let pl (p : Bool) : Prop := s.ctx.planeProtected (if p then 1 else 0) = false
  let xm (f : FXM) : Option (Eng × Tok × List Reg × Taken × Prop) :=
    some (.x, f.tok, [], Taken.none_, pl f.p ∧ (f.param.getLsbD 2 = true → base))
  match i with
  | .lline f => lsw s .l f true (here ∧ open_ f.line)
  | .ltile f => lsw s .l f true (here ∧ open_ f.line)
  | .ltrans f => lsw s .l f true (here ∧ open_ f.line)
  | .lwgt f => lsw s .l f true (here ∧ base)
  | .lgath f => lsw s .l f true (here ∧ base)
  | .lmask f => lsw s .l f true (here ∧ base)
  | .lfeed f => lsw s .l f false base
  | .lsetf f => lsw s .l f false base
  | .lvc f => lsw s .l f false True
  | .lzero f => some (.l, f.tok, [], Taken.none_, open_ f.line)
  | .xmma f => xm f
  | .xmmam f => xm f
  | .xspmm f => xm f
  | .xswap f => some (.x, f.tok, [], Taken.none_, base)
  | .xshape f => some (.x, f.tok, [], Taken.none_, True)
  | .xclr f => some (.x, f.tok, [], Taken.none_, pl f.p)
  | .xbias f => some (.x, f.tok, lineRegs f.line,
      { Taken.none_ with i1 := carriedIx s f.line.fromReg f.line.idx }, pl f.p)
  | .vadd f => v3 s f
  | .vsub f => v3 s f
  | .vmul f => v3 s f
  | .vfma f => v3 s f
  | .vfms f => v3 s f
  | .vfnma f => v3 s f
  | .vmin f => v3 s f
  | .vmax f => v3 s f
  | .vabs f => v3 s f
  | .vneg f => v3 s f
  | .vand f => v3 s f
  | .vor f => v3 s f
  | .vxor f => v3 s f
  | .vnot f => v3 s f
  | .vshl f => v3 s f
  | .vshr f => v3 s f
  | .vshra f => v3 s f
  | .vrsh f => v3 s f
  | .vsel f => v3 s f
  | .vexp2 f => v3 s f
  | .vlog2 f => v3 s f
  | .vrcp f => v3 s f
  | .vrsq f => v3 s f
  | .vtanh f => v3 s f
  | .vredsum f => v3 s f
  | .vredmax f => v3 s f
  | .vredmin f => v3 s f
  | .vscanadd f => v3 s f
  | .vmov f => v3 s f
  | .vperm f => v3 s f
  | .viota f => v3 s f
  | .vpois f => v3 s f
  | .vhash f => v3 s f
  | .vcmpeq f => vcm s f
  | .vcmpne f => vcm s f
  | .vcmplt f => vcm s f
  | .vcmple f => vcm s f
  | .vkand f => some (.v, f.tok, [], Taken.none_, True)
  | .vkor f => some (.v, f.tok, [], Taken.none_, True)
  | .vkxor f => some (.v, f.tok, [], Taken.none_, True)
  | .vknot f => some (.v, f.tok, [], Taken.none_, True)
  | .vkpopc f => vsc s f.tok [] 0#6 f.s
  | .vkfirst f => vsc s f.tok [] 0#6 f.s
  | .vgets f => vsc s f.tok (lineRegs f.line) (carriedIx s f.line.fromReg f.line.idx) f.s
  | .vbcast f => some (.v, f.tok, f.s :: lineRegs f.line, { Taken.none_ with
      val := (s.rd f.s).bits, idst := carriedIx s f.line.fromReg f.line.idx }, open_ f.line)
  | .vsets f => some (.v, f.tok, f.s :: lineRegs f.line, { Taken.none_ with
      val := (s.rd f.s).bits, idst := carriedIx s f.line.fromReg f.line.idx }, open_ f.line)
  | .vcvt f => some (.v, f.tok, lineRegs f.src ++ dlineRegs f.dst, { Taken.none_ with
      i1 := carriedIx s f.src.fromReg f.src.idx, idst := carriedIx s f.dst.fromReg f.dst.idx },
      s.ctx.tileProtected f.dst.tile.toNat = false)
  | .vacc f => some (.v, f.tok, dlineRegs f.dst, { Taken.none_ with
      idst := carriedIx s f.dst.fromReg f.dst.idx }, s.ctx.tileProtected f.dst.tile.toNat = false)
  | .sline f => lsw s .s f true here
  | .stile f => lsw s .s f false here
  | .strans f => lsw s .s f false here
  | .sacc f => some (.s, f.tok, [f.a], { Taken.none_ with val := engAddr s f.a f.off }, here)
  | _ => none

/-- What the issue of a word changes at once beside its queue: LVC sets VC, XSHAPE ASHAPE (R228, R242). -/
def atIssue (s : State) (b : RegBank) : Instr → RegBank
  | .lvc f => { b with vc := BitVec.ofNat 7 (min (engAddr s f.a f.off).toNat 64) }
  | .xshape f => { b with ashape := if f.param.toNat % 16 = 0 then b.ashape else BitVec.ofNat 4 f.param.toNat }
  | _ => b

end Sys2Proof.Say

/-- R10, R44, R224: engine words at the sequencer. -/
def Obligations.EngineWordsAreQueued : Prop :=
  ∀ (i : Instr) (s : State) (e : Eng) (tok : Tok) (rs : List Reg) (k : Taken) (ok : Prop),
    Say.issue s i = some (e, tok, rs, k, ok) → s.acting = none → s.Plain rs → s.Clean rs → ok →
    let q := s.bank.queue e
    let depth := if s.ctx.inHandler then 8 else match e with
      | .x => 16
      | _ => 32
    exec i s = .next (
      if depth ≤ q.length then s.waitAt .full false
      else (s.setBank (Say.atIssue s (s.bank.setQueue e (q ++ [{
        instr := i, val := k.val, i1 := k.i1, i2 := k.i2, idst := k.idst, bad := false, sPend := k.sPend,
        popsTaken := false, pushOwed := false, rows := 0, offs := [], late := [], stall := .none, addr := s.ctx.pc,
        stamp := { vc := s.bank.vc, ashape := s.bank.ashape, emode := s.bank.emode, sqp := s.bank.sqp } }])) i)).goOn
        s.pc8)

/-- R224, R265: checks at issue. -/
def Obligations.EngineAddressesAreChecked : Prop :=
  ∀ (i : Instr) (s : State) (e : Eng) (tok : Tok) (rs : List Reg) (k : Taken) (ok : Prop) (a : Reg) (off : BitVec 16)
    (al n : Nat), Say.issue s i = some (e, tok, rs, k, ok) → Say.span s i = some (a, off, al, n) → s.acting = none →
    s.Plain rs →
    ((s.rd a).pois = true → ∃ t : State, exec i s = .next (t.fault (Cause.seq 0x07#8 1 0#64)) ∧ t.ctx = s.ctx ∧
      t.mem = s.mem ∧ t.ctxs = s.ctxs) ∧
    (s.Clean rs → (Say.engAddr s a off).toNat % al ≠ 0 →
      ∃ t : State, exec i s = .next (t.fault (Cause.seq 0x06#8 0 (Say.engAddr s a off))) ∧ t.ctx = s.ctx ∧
        t.mem = s.mem ∧ t.ctxs = s.ctxs) ∧
    (s.Clean rs → (Say.engAddr s a off).toNat % al = 0 → ¬ Say.InPad s (Say.engAddr s a off) al n →
      s.bank.emode.getLsbD 3 = false →
      ∃ t : State, exec i s = .next (t.fault (Cause.seq 0x05#8 0 (Say.engAddr s a off))) ∧ t.ctx = s.ctx ∧
        t.mem = s.mem ∧ t.ctxs = s.ctxs)

/-- R147: tokens. -/
def Obligations.EntriesTakeAndGiveTokens : Prop :=
  ∀ (i : Instr) (s : State) (e : Eng) (tok : Tok) (rs : List Reg) (k : Taken) (ok : Prop) (en : Entry) (q : List Entry),
    Say.issue s i = some (e, tok, rs, k, ok) → s.acting = some (e, en) → s.bank.queue e = en :: q →
    (en.late ≠ [] → exec i s = .next { s with acting := none, ctx := s.ctx.settleLate }) ∧
    (en.late = [] → en.pushOwed = false → en.popsTaken = false → (∃ n ∈ popsOf e tok, s.bank.fifo.at n = 0) →
      exec i s = .next { s with acting := none }) ∧
    (en.late = [] → en.pushOwed = true → ∃ t, exec i s = .next t ∧ t.acting = none ∧ t.mem = s.mem ∧ t.ctx.tiles = s.ctx.tiles ∧
      t.ctx.acc = s.ctx.acc ∧ t.ctx.pad = s.ctx.pad ∧ t.ctx.pc = s.ctx.pc ∧
      ((∀ n ∈ pushesOf e tok, s.bank.fifo.at n < 8) → t.bank.queue e = q ∧
        ∀ n < 8, t.bank.fifo.at n = s.bank.fifo.at n + (if n ∈ pushesOf e tok then 1 else 0)) ∧
      ((∃ n ∈ pushesOf e tok, 8 ≤ s.bank.fifo.at n) → t.bank.fifo = s.bank.fifo ∧
        ∃ en1, t.bank.queue e = en1 :: q ∧ en1.pushOwed = true ∧ en1.instr = en.instr)) ∧
    ((∃ f, i = .lvc f) ∨ (∃ f, i = .xshape f) → s.parts = false → en.late = [] → en.pushOwed = false → en.popsTaken = false →
      (∀ n ∈ popsOf e tok, 0 < s.bank.fifo.at n) → (∀ n ∈ pushesOf e tok, s.bank.fifo.at n < 8) →
      ∃ t, exec i s = .next t ∧ t.acting = none ∧ t.mem = s.mem ∧ t.ctx.tiles = s.ctx.tiles ∧ t.ctx.acc = s.ctx.acc ∧
        t.ctx.pad = s.ctx.pad ∧ t.bank.s = s.bank.s ∧ t.bank.vc = s.bank.vc ∧ t.bank.ashape = s.bank.ashape ∧
        t.bank.queue e = q ∧ ∀ n < 8, t.bank.fifo.at n + (if n ∈ popsOf e tok then 1 else 0) =
          s.bank.fifo.at n + (if n ∈ pushesOf e tok then 1 else 0))

namespace Sys2Proof.Say

/-- The engine e runs the entry en, and whole: its tokens are taken or there, no cells of it are left to write, its
pushes are not owed (R147, R248). -/
def Runs (s : State) (e : Eng) (tok : Tok) (en : Entry) : Prop :=
  s.acting = some (e, en) ∧ s.parts = false ∧ en.late = [] ∧ en.pushOwed = false ∧ (en.popsTaken = true ∨ ∀ n ∈ popsOf e tok, 0 < s.bank.fifo.at n)

/-- n scratchpad bytes as a little-endian number. -/
def padNat (s : State) (a n : Nat) : Nat := natOfBytes ((List.range n).map (fun i => s.ctx.padByte (a + i)))

/-- The banks of n scratchpad bytes serve accesses. -/
def PadAwake (s : State) (a n : Nat) : Prop := ∀ b ∈ banksOf a n, (s.ctx.padBank b).state = .full ∧ (s.ctx.padBank b).waking = false

/-- A tile register can be written at once: awake and unlocked (R50, R54). -/
def Writable (s : State) (t : Nat) : Prop := Awake s t ∧ (s.ctx.tile t).lock = false

/-- A cell holds what scratchpad bytes hold: their poison, or their value. -/
def Holds (s : State) (c : Cell) (a n : Nat) : Prop :=
  c.pois = s.ctx.padPoison a n ∧ (s.ctx.padPoison a n = false → c.bits.toNat = padNat s a n)

/-- Every cell but those a predicate picks is unchanged. -/
def CellsBut (s t : State) (p : Nat → Nat → Nat → Prop) : Prop :=
  ∀ m r c, r < 64 → c < 64 → ¬ p m r c → t.ctx.cell m r c = s.ctx.cell m r c

/-- Byte i of a weight plane, poison of its group i, scale byte i, poison of scale group i (R223). -/
def wByte (p : WPlane) (i : Nat) : Byte := Sparse.get memDefault p.bytes i
def wPois (p : WPlane) (i : Nat) : Bool := Sparse.get (fun _ => false) p.pois i
def wScale (p : WPlane) (i : Nat) : Byte := Sparse.get memDefault p.scales i
def wSpois (p : WPlane) (i : Nat) : Bool := Sparse.get (fun _ => false) p.spois i

/-- Address of byte i of the next row of an LFEED of w bytes (R230). -/
def feedAt (s : State) (seg : Bool) (w i : Nat) : Nat :=
  if seg then (s.ctx.foffAt (i / (w / 8))).toNat + i % (w / 8) else (s.ctx.foffAt 0).toNat + i

end Sys2Proof.Say

/-- R226, R227: loads of tiles. -/
def Obligations.LoadEntriesFillTiles : Prop :=
  ∀ (s : State) (f : FLN) (en : Entry), Say.Runs s .l f.tok en → Say.Writable s f.line.tile.toNat →
    let m := f.line.tile.toNat
    let ad := en.val.toNat
    let ix := en.i1.toNat
    let Rest := fun (t : State) => t.acting = none ∧ (f.slu = false → t.ctx.pad = s.ctx.pad) ∧
      (f.rel = false → t.mem = s.mem) ∧ t.ctx.pc = s.ctx.pc
    (en.bad = false → Say.PadAwake s ad 256 → ∃ t, exec (.lline f) s = .next t ∧ Rest t ∧
      (∀ j < 64, Say.Holds s (Say.lane t f.line ix j) (ad + 4 * j) 4) ∧
      Say.CellsBut s t (fun n r c => n = m ∧ ∃ j < 64, (r, c) = Say.laneCell f.line.dir ix j)) ∧
    (en.bad = true → ∃ t, exec (.lline f) s = .next t ∧ Rest t ∧ (∀ j < 64, (Say.lane t f.line ix j).pois = true) ∧
      Say.CellsBut s t (fun n r c => n = m ∧ ∃ j < 64, (r, c) = Say.laneCell f.line.dir ix j)) ∧
    (let p := Say.rowPitch f.param;
      en.bad = false → (∀ r < 64, Say.PadAwake s (ad + r * p) 256) → ∃ t, exec (.ltile f) s = .next t ∧ Rest t ∧
        (∀ r < 64, ∀ j < 64, Say.Holds s (t.ctx.cell m r j) (ad + r * p + 4 * j) 4) ∧
        Say.CellsBut s t (fun n _ _ => n = m)) ∧
    (let p := Say.transPitch f.param;
      let e := Say.transElem f.param;
      en.bad = false → f.param.toNat / 16 ≤ 2 → (∀ k < 256 / e, Say.PadAwake s (ad + k * p) (64 * e)) →
      ∃ t, exec (.ltrans f) s = .next t ∧ Rest t ∧ Say.CellsBut s t (fun n _ _ => n = m) ∧
        ∀ i < 64, ∀ col < 64,
          let at_ := fun q => ad + (col * (4 / e) + q) * p + e * i
          (t.ctx.cell m i col).pois = (List.range (4 / e)).any (fun q => s.ctx.padPoison (at_ q) e) ∧
          ((t.ctx.cell m i col).pois = false → ∀ q < 4 / e,
            (t.ctx.cell m i col).bits.toNat / 2 ^ (8 * e * q) % 2 ^ (8 * e) = Say.padNat s (at_ q) e)) ∧
    (∃ t, exec (.lzero f) s = .next t ∧ t.acting = none ∧ t.ctx.pad = s.ctx.pad ∧ t.mem = s.mem ∧
      (∀ r < 64, ∀ c < 64, t.ctx.cell m r c = { bits := 0#32, pois := false }) ∧
      Say.CellsBut s t (fun n _ _ => n = m))

/-- R229 to R231, R233. -/
def Sys2Proof.Say.LoadEntriesFeedTheArray : Prop :=
  ∀ (s : State) (f : FLN) (en : Entry), Say.Runs s .l f.tok en → en.bad = false →
    let ad := en.val.toNat
    let Rest := fun (t : State) => t.acting = none ∧ t.ctx.tiles = s.ctx.tiles ∧ (f.slu = false → t.ctx.pad = s.ctx.pad) ∧
      (f.rel = false → t.mem = s.mem) ∧ t.ctx.active = s.ctx.active
    (∃ t, exec (.lsetf f) s = .next t ∧ t.acting = none ∧ t.ctx.tiles = s.ctx.tiles ∧ t.mem = s.mem ∧ t.ctx.pad = s.ctx.pad ∧
      ∀ n < 8, t.ctx.foffAt n =
        if f.param.getLsbD 3 = true ∨ n = f.param.toNat % 8 then
          (if f.param.getLsbD 4 then s.ctx.foffAt n + en.val.setWidth 32 else en.val.setWidth 32)
        else s.ctx.foffAt n) ∧
    (let seg := f.param.getLsbD 4;
      let w := if f.param.getLsbD 5 then 128 else 64;
      let reads := if seg then (List.range 8).map (fun n => ((s.ctx.foffAt n).toNat, w / 8)) else [((s.ctx.foffAt 0).toNat, w)];
      s.ctx.feed.length < 16 → (∀ r ∈ reads, r.1 % (if seg then w / 8 else 8) = 0 ∧ r.1 + r.2 ≤ s.ctx.spSize ∧
        Say.PadAwake s r.1 r.2) →
      ∃ t row, exec (.lfeed f) s = .next t ∧ Rest t ∧ t.ctx.feed = s.ctx.feed ++ [row] ∧
        (∀ g < 32, Sparse.get (fun _ => false) row.pois g =
          (List.range 4).any (fun b => decide (4 * g + b < w) && s.ctx.padPoison (Say.feedAt s seg w (4 * g + b)) 1)) ∧
        (∀ i < 128, Sparse.get (fun _ => false) row.pois (i / 4) = false →
          Sparse.get memDefault row.bytes i = if i < w then s.ctx.padByte (Say.feedAt s seg w i) else 0#8) ∧
        (∀ n < 8, t.ctx.foffAt n = if seg = true ∨ n = 0 then s.ctx.foffAt n + en.val.setWidth 32 else s.ctx.foffAt n) ∧
        (en.rows ≠ f.param.toNat % 16 → ∃ en1, (t.bank.queue .l).head? = some en1 ∧ en1.rows = en.rows + 1 ∧
          en1.pushOwed = false)) ∧
    (let course := f.param.toNat % 4;
      let all := f.param.getLsbD 2;
      let rb := if f.param.getLsbD 4 then 256 else 128;
      let n := if all then 64 else 16;
      f.param.getLsbD 3 = false → (all = true → course = 0) → Say.PadAwake s ad (n * rb) →
      ∃ t, exec (.lwgt f) s = .next t ∧ Rest t ∧
        (∀ k < n, ∀ g < rb / 4, Say.wPois t.ctx.shadow (64 * (16 * course + k) + g) = s.ctx.padPoison (ad + k * rb + 4 * g) 4 ∧
          (s.ctx.padPoison (ad + k * rb + 4 * g) 4 = false → ∀ b < 4,
            Say.wByte t.ctx.shadow (256 * (16 * course + k) + 4 * g + b) = s.ctx.padByte (ad + k * rb + 4 * g + b))) ∧
        (∀ i, ¬ (16 * course ≤ i / 256 ∧ i / 256 < 16 * course + n ∧ i % 256 < rb) →
          Say.wByte t.ctx.shadow i = Say.wByte s.ctx.shadow i) ∧
        (∀ i < 32, t.ctx.shadow.presence.getLsbD i = (s.ctx.shadow.presence.getLsbD i || all || decide (i / 8 = course))) ∧
        t.ctx.shadow.scales = s.ctx.shadow.scales ∧ t.ctx.shadow.spois = s.ctx.shadow.spois) ∧
    (f.param.getLsbD 3 = true → Say.PadAwake s ad 512 → ∃ t, exec (.lwgt f) s = .next t ∧ Rest t ∧
      (∀ k < 128, Say.wSpois t.ctx.shadow k = s.ctx.padPoison (ad + 4 * k) 4 ∧
        (s.ctx.padPoison (ad + 4 * k) 4 = false → ∀ b < 4,
          Say.wScale t.ctx.shadow (4 * k + b) = s.ctx.padByte (ad + 4 * k + b))) ∧
      t.ctx.shadow.bytes = s.ctx.shadow.bytes ∧ t.ctx.shadow.pois = s.ctx.shadow.pois ∧
      t.ctx.shadow.presence = s.ctx.shadow.presence) ∧
    (s.maskInUse = false → Say.PadAwake s ad 576 → ∃ t, exec (.lmask f) s = .next t ∧ Rest t ∧
      t.ctx.shadow = s.ctx.shadow ∧ t.ctx.mask.pois = s.ctx.padPoison ad 576 ∧
      (s.ctx.padPoison ad 576 = false →
        (∀ m < 64, (Sparse.get (fun _ => 0#64) t.ctx.mask.rows m).toNat = Say.padNat s (ad + 8 * m) 8) ∧
        t.ctx.mask.fill.toNat = Say.padNat s (ad + 512) 6 ∧
        t.ctx.mask.half = (s.ctx.padByte (ad + 520)).getLsbD 0 ∧ t.ctx.mask.out = (s.ctx.padByte (ad + 520)).getLsbD 1))

/-- R232: sparse images. -/
def Sys2Proof.Say.SparseImagesFillTheShadowPlane : Prop :=
  ∀ (s : State) (f : FLN) (en : Entry), Say.Runs s .l f.tok en → en.bad = false → Say.PadAwake s en.val.toNat 64 →
    let ad := en.val.toNat
    let es := if f.param.getLsbD 0 then 2 else 1
    let rp := fun c => Say.padNat s (ad + 2 * c) 2
    let ci := fun e => (s.ctx.padByte (ad + 16 + e)).toNat
    let inRow := fun c e => rp c ≤ e ∧ e < rp (c + 1)
    let good := rp 0 = 0 ∧ (∀ c < 4, rp c ≤ rp (c + 1)) ∧ rp 4 ≤ 32 ∧ (∀ c < 4, ∀ e < 32, inRow c e → ci e ≤ 7) ∧
      (∀ c < 4, ∀ e < 32, inRow c e → inRow c (e + 1) → ci e < ci (e + 1)) ∧ ad + 64 + rp 4 * (256 * es) ≤ s.ctx.spSize
    (s.ctx.padPoison ad 64 = false → good → Say.PadAwake s ad (64 + rp 4 * (256 * es)) →
      ∃ t, exec (.lgath f) s = .next t ∧ t.acting = none ∧ t.ctx.tiles = s.ctx.tiles ∧ t.ctx.active = s.ctx.active ∧
        t.ctx.shadow.scales = s.ctx.shadow.scales ∧ t.ctx.shadow.spois = s.ctx.shadow.spois ∧
        (∀ c < 4, ∀ b < 8, t.ctx.shadow.presence.getLsbD (8 * c + b) = true ↔ ∃ e < 32, inRow c e ∧ ci e = b) ∧
        (∀ c < 4, ∀ e < 32, inRow c e → ∀ r < 16, ∀ g < 4 * es,
          let from_ := ad + 64 + e * (256 * es) + 16 * es * r + 4 * g
          let to_ := 256 * (16 * c + r) + 16 * ci e * es + 4 * g
          Say.wPois t.ctx.shadow (to_ / 4) = s.ctx.padPoison from_ 4 ∧
          (s.ctx.padPoison from_ 4 = false → ∀ b < 4, Say.wByte t.ctx.shadow (to_ + b) = s.ctx.padByte (from_ + b))) ∧
        (∀ c < 4, ∀ b < 8, (¬ ∃ e < 32, inRow c e ∧ ci e = b) → ∀ r < 16, ∀ x < 16 * es,
          let to_ := 256 * (16 * c + r) + 16 * b * es + x
          Say.wByte t.ctx.shadow to_ = 0#8 ∧ Say.wPois t.ctx.shadow (to_ / 4) = false)) ∧
    (s.ctx.padPoison ad 64 = true →
      ∃ t, exec (.lgath f) s = .next t ∧ t.acting = none ∧ t.ctx.tiles = s.ctx.tiles ∧ t.ctx.active = s.ctx.active ∧
        t.ctx.shadow.presence = BitVec.allOnes 32 ∧ (∀ g < 4096, Say.wPois t.ctx.shadow g = true) ∧
        t.ctx.shadow.scales = s.ctx.shadow.scales) ∧
    (s.ctx.padPoison ad 64 = false → ¬ good → en.stamp.emode.getLsbD 3 = false → s.ctx.inHandler = false →
      s.ctx.latch 0 = none → ∃ t, exec (.lgath f) s = .next t ∧ t.ctx.tiles = s.ctx.tiles ∧
        t.ctx.shadow = s.ctx.shadow ∧ t.ctx.active = s.ctx.active ∧
        t.ctx.latch 0 = some { code := 0x05#8, sub := 0#8, addr := en.addr })

namespace Sys2Proof.Say

/-- A field of a macro-operation's PARAM (R235). -/
def xm (f : FXM) (lo n : Nat) : Nat := f.param.toNat / 2 ^ lo % 2 ^ n

/-- Byte n of A's row m, row j of the step: of the feed's row j, or of cell n / 4 of the tile's row m (R223,
R236). -/
def aByte (s : State) (f : FXM) (m j n : Nat) : Nat :=
  if xm f 2 1 = 1 then ((s.ctx.feed[j]?).map (fun r => (Sparse.get memDefault r.bytes n).toNat)).getD 0
  else (s.ctx.cell f.line.tile.toNat m (n / 4)).bits.toNat / 2 ^ (8 * (n % 4)) % 256

/-- K element k of A's row: of the K block, 4-bit elements low half first, 16-bit ones little-endian
(R235). -/
def aElem (s : State) (f : FXM) (m j k : Nat) : Nat :=
  let w := (dtOf f.at_.toNat).width
  let kb := xm f 0 2
  if w = 4 then aByte s f m j (64 * kb + k / 2) / 2 ^ (4 * (k % 2)) % 16
  else if w = 8 then aByte s f m j (64 * kb + k)
  else aByte s f m j (128 * kb + 2 * k) + 256 * aByte s f m j (128 * kb + 2 * k + 1)

/-- K element k of column n of the active plane (R223). -/
def bElem (s : State) (f : FXM) (k n : Nat) : Nat :=
  let w := (dtOf f.bt.toNat).width
  let byte := fun r i => (wByte s.ctx.active (256 * r + i)).toNat
  if w = 4 then byte (k / 2) n / 2 ^ (4 * (k % 2)) % 16
  else if w = 8 then byte k n
  else byte k (2 * n) + 256 * byte k (2 * n + 1)

/-- The scale of A's row m for K element k, where A is scaled; of column n, where B is (R223, R235). -/
def aScale (s : State) (f : FXM) (m k : Nat) : Option Nat :=
  if scaledType f.at_.toNat then
    some ((s.ctx.cell (xm f 6 4) m (xm f 0 2)).bits.toNat / 2 ^ (8 * (k / 32)) % 256)
  else none
def bScale (s : State) (f : FXM) (k n : Nat) : Option Nat :=
  if scaledType f.bt.toNat then some (wScale s.ctx.active (128 * (k / 32) + n)).toNat else none

/-- K elements of a course: 32 of four bits, else 16 (R72). -/
def perCourse (f : FXM) : Nat := if (dtOf f.at_.toNat).width = 4 then 32 else 16

/-- Whether column n's block of course c counts: in XSPMM where it is present (R236). -/
def blockCounts (s : State) (sparse : Bool) (c n : Nat) : Bool :=
  !sparse || s.ctx.active.presence.getLsbD (8 * c + n / 16)

/-- The courses of a step: those of ASHAPE, in XSPMM those with a present block (R236). -/
def coursesOf (s : State) (sparse : Bool) (en : Entry) : List Nat :=
  [0, 1, 2, 3].filter (fun c => en.stamp.ashape.getLsbD c &&
    (!sparse || (List.range 8).any (fun b => s.ctx.active.presence.getLsbD (8 * c + b))))

/-- A cell's new value: of an i8 pairing the old one plus the exact sum modulo 2⁴⁸; of another the chain of the
courses' rounded sums, added to the old one; CLR overwrites (R65, R73 to R75, R236). -/
def xValue (s : State) (f : FXM) (sparse : Bool) (cs : List Nat) (m j n old : Nat) : Nat :=
  let clr := xm f 5 1 = 1
  let per := perCourse f
  if f.at_ = 0#5 then
    let sum : Int := (cs.map (fun c => if blockCounts s sparse c n then
      ((List.range 16).map (fun i => sgn 8 (aElem s f m j (16 * c + i)) * sgn 8 (bElem s f (16 * c + i) n))).sum else 0)).sum
    (((if clr then 0 else (old : Int)) + sum) % 2 ^ 48).toNat
  else if cs.isEmpty then (if clr then 0 else old)
  else
    let v := (courseChain (cs.map (fun c => if blockCounts s sparse c n then
      (List.range per).map (fun i =>
        (scaledVal f.at_.toNat (aElem s f m j (per * c + i)) (aScale s f m (per * c + i))).mul
          (scaledVal f.bt.toNat (bElem s f (per * c + i) n) (bScale s f (per * c + i) n)))
      else [.fin false 0 0]))).1
    if clr then v else (addF48 old v).1

/-- Whether XMMAM masks a cell (R236). -/
def maskedCell (s : State) (m n : Nat) : Bool :=
  !(if n / 64 = (if s.ctx.mask.half then 1 else 0) then (Sparse.get (fun _ => 0#64) s.ctx.mask.rows m).getLsbD (n % 64)
    else s.ctx.mask.out)

/-- No element, scale or mask that a macro-operation could consume is poisoned. -/
def xClean (s : State) (f : FXM) : Prop :=
  (∀ k ∈ xmSources f, ∀ m < 64, ∀ c < 64, (s.ctx.cell k m c).pois = false) ∧
  (∀ r ∈ s.ctx.feed, ∀ g, Sparse.get (fun _ => false) r.pois g = false) ∧
  (∀ g, wPois s.ctx.active g = false ∧ wSpois s.ctx.active g = false) ∧ s.ctx.mask.pois = false

/-- The three macro-operations: dense, masked, sparse. -/
def macroOp (f : FXM) : Nat → Instr
  | 0 => .xmma f
  | 1 => .xmmam f
  | _ => .xspmm f

end Sys2Proof.Say

/-- R235, R236, R239: a step. -/
def Obligations.MacroOperationsStep : Prop :=
  ∀ (s : State) (f : FXM) (en : Entry) (kind : Nat), kind < 3 → Say.Runs s .x f.tok en → s.ctx.inHandler = false →
    en.bad = false → Say.xClean s f → (f.at_ = 0#5 → f.bt = 0#5) →
    let st := s.ctx.prog.getD 0
    let feed := Say.xm f 2 1 = 1
    let p := if f.p then 1 else 0
    let cs := Say.coursesOf s (kind == 2) en
    let inStep := fun m => 16 * (Say.xm f 3 2 + st) ≤ m ∧ m < 16 * (Say.xm f 3 2 + st) + 16 ∧ m < en.stamp.vc.toNat
    (feed → 16 ≤ s.ctx.feed.length) → (¬ feed → ∀ k ∈ xmSources f, Say.Awake s k) →
    ∃ t, exec (Say.macroOp f kind) s = .next t ∧ t.acting = none ∧ t.mem = s.mem ∧ t.ctx.pad = s.ctx.pad ∧
      (∀ m < 64, ∀ n < 128, inStep m →
        let old := s.ctx.pcell p m n
        let c := t.ctx.pcell p m n
        (kind = 1 ∧ Say.maskedCell s m n = true → c = { bits := s.ctx.mask.fill, pois := false }) ∧
        (¬ (kind = 1 ∧ Say.maskedCell s m n = true) → cs = [] → Say.xm f 5 1 = 0 → c = old) ∧
        (¬ (kind = 1 ∧ Say.maskedCell s m n = true) → cs = [] → Say.xm f 5 1 = 1 → c = { bits := 0#48, pois := false }) ∧
        (¬ (kind = 1 ∧ Say.maskedCell s m n = true) → cs ≠ [] →
          c.pois = (decide (Say.xm f 5 1 = 0) && old.pois) ∧
          (c.pois = false → c.bits = BitVec.ofNat 48 (Say.xValue s f (kind == 2) cs m
            (m - 16 * (Say.xm f 3 2 + st)) n old.bits.toNat)))) ∧
      (∀ q m n, n < 128 → ¬ (q = p ∧ inStep m) → t.ctx.pcell q m n = s.ctx.pcell q m n) ∧
      (f.line.last = false → (∀ k ∈ xmSources f, (s.ctx.tile k).moveDue = false) →
        Say.CellsBut s t (fun _ _ _ => False)) ∧
      t.ctx.feed = (if feed then s.ctx.feed.drop 16 else s.ctx.feed) ∧
      t.pmcGet s.ctx.vdn.toNat 10 = s.pmcGet s.ctx.vdn.toNat 10 + 1#64 ∧
      (st + 1 = f.nstep.toNat → t.ctx.prog = none) ∧
      (st + 1 ≠ f.nstep.toNat → t.ctx.prog = some (st + 1) ∧
        (∃ en1, ((t.bank.queue .x).drop (t.bank.lead .x)).head? = some en1 ∧ en1.instr = en.instr ∧ en1.pushOwed = false) ∧
        (st = 0 → ¬ feed → ∀ k ∈ xmSources f, (t.ctx.tile k).lock = true))

/-- R241, R243, R244. -/
def Obligations.ArrayControlsAct : Prop :=
  ∀ (s : State) (f : FXM) (en : Entry), Say.Runs s .x f.tok en →
    let p := if f.p then 1 else 0
    (∃ t, exec (.xswap f) s = .next t ∧ t.acting = none ∧ t.mem = s.mem ∧ t.ctx.pad = s.ctx.pad ∧
      t.ctx.active = s.ctx.shadow ∧ t.ctx.shadow = s.ctx.active ∧ t.ctx.acc = s.ctx.acc ∧ t.ctx.tiles = s.ctx.tiles) ∧
    (∃ t, exec (.xclr f) s = .next t ∧ t.acting = none ∧ t.mem = s.mem ∧ t.ctx.pad = s.ctx.pad ∧
      (∀ m n, t.ctx.pcell p m n = { bits := 0#48, pois := false }) ∧
      (∀ q, q ≠ p → t.ctx.plane q = s.ctx.plane q) ∧ t.ctx.tiles = s.ctx.tiles) ∧
    (Say.Awake s f.line.tile.toNat → (∀ r < 64, ∀ c < 64, (s.ctx.cell f.line.tile.toNat r c).pois = false) →
      let ty := dtOf f.at_.toNat
      let ix := en.i1.toNat
      let b := fun n => if ty.width = 16 then
          (Say.lane s f.line ix (n / 2)).bits.toNat / 2 ^ (16 * (n % 2)) % 2 ^ 16
        else (Say.lane s f.line (if n < 64 then ix else (ix + 1) % 64) (n % 64)).bits.toNat
      ∃ t, exec (.xbias f) s = .next t ∧ t.acting = none ∧ t.mem = s.mem ∧ t.ctx.pad = s.ctx.pad ∧
        (∀ m < 64, ∀ n < 128, m < en.stamp.vc.toNat →
          let old := s.ctx.pcell p m n
          (t.ctx.pcell p m n).pois = old.pois ∧ (old.pois = false → (t.ctx.pcell p m n).bits = BitVec.ofNat 48
            (match ty with
              | .int sg w => (((old.bits.toNat : Int) + (if sg then Say.sgn w (b n) else b n)) % 2 ^ 48).toNat
              | .flt g => (roundF48 ((fF48.decode old.bits.toNat).add .rne (g.decode (b n)))).1))) ∧
        (∀ q m n, n < 128 → ¬ (q = p ∧ m < en.stamp.vc.toNat) → t.ctx.pcell q m n = s.ctx.pcell q m n) ∧
        (f.line.last = false → Say.CellsBut s t (fun _ _ _ => False)))

namespace Sys2Proof.Say

/-- The bits of lane j of a line of a register (R40). -/
def bitsAt (s : State) (tile : BitVec 4) (dir : BitVec 2) (i j : Nat) : Nat :=
  (s.ctx.cell tile.toNat (laneCell dir (i % 64) j).1 (laneCell dir (i % 64) j).2).bits.toNat

/-- Element e, of w bits, of a cell (R42). -/
def el (w x e : Nat) : Nat := x / 2 ^ (w * e) % 2 ^ w

/-- A cell of 32 / w results of w bits, the first lowest, and the union of their flags. -/
def cellOf (w : Nat) (g : Nat → Nat × BitVec 7) : List Nat × BitVec 7 :=
  let es := (List.range (32 / w)).map g
  ([(es.zipIdx.map (fun e => e.1.1 % 2 ^ w * 2 ^ (w * e.2))).sum], es.foldl (fun a e => a ||| e.2) 0#7)

/-- An element as an integer of its type, as a value of its format. -/
def iv (ty : ETy) (x : Nat) : Int := match ty with
  | .int sg w => if sg then sgn w x else x
  | .flt _ => 0
def fv (ty : ETy) (x : Nat) : Val := match ty with
  | .flt t => t.decode x
  | .int _ _ => .nan false

/-- The range of an integer type (R61). -/
def least (sg : Bool) (w : Nat) : Int := if sg then -(2 ^ (w - 1)) else 0
def most (sg : Bool) (w : Nat) : Int := if sg then 2 ^ (w - 1) - 1 else 2 ^ w - 1

/-- An exact integer narrowed: modulo 2ʷ, or clamped with SAT (R71). -/
def narrowed (sg : Bool) (w : Nat) (sat : Bool) (v : Int) : Nat × BitVec 7 :=
  if sat then ((max (least sg w) (min (most sg w) v) % 2 ^ w).toNat,
    if v < least sg w ∨ most sg w < v then 32#7 else 0#7)
  else ((v % 2 ^ w).toNat, 0#7)

/-- An exact result in an element type: an integer narrowed, a value rounded once (R249). -/
def made (ty : ETy) (m : Rm) (sat : Bool) (i : Int) (v : Val) : Nat × BitVec 7 := match ty with
  | .int sg w => narrowed sg w sat i
  | .flt t => t.round m sat v

/-- A word of three lines: its tokens, DST, K, whether all lanes below VC are written, its source lines, and
for each written lane the values of DST's line and of those after it, with its flags. -/
abbrev Form := Tok × DLine × BitVec 3 × Bool × List Line × (Nat → List Nat × BitVec 7)

/-- The lane rule of the element-by-element words (R249 to R251, R258, R261): from the elements a, b, d. That VMIN and
VMAX hold an infinite result under the saturate bit is the model's reading (log 47). -/
def elemOp (m : Rm) : Instr → Option (FV3 × Nat × (Nat → Nat → Nat → Nat × BitVec 7))
  | .vadd f => let ty := etOf f.et.toNat
    some (f, 2, fun a b _ => made ty m f.sat (iv ty a + iv ty b) ((fv ty a).add m (fv ty b)))
  | .vsub f => let ty := etOf f.et.toNat
    some (f, 2, fun a b _ => made ty m f.sat (iv ty a - iv ty b) ((fv ty a).add m (fv ty b).neg))
  | .vmul f => let ty := etOf f.et.toNat
    some (f, 2, fun a b _ => made ty m f.sat (iv ty a * iv ty b) ((fv ty a).mul (fv ty b)))
  | .vfma f => let ty := etOf f.et.toNat
    some (f, 3, fun a b d => made ty m f.sat (iv ty d + iv ty a * iv ty b) ((fv ty d).add m ((fv ty a).mul (fv ty b))))
  | .vfms f => let ty := etOf f.et.toNat
    some (f, 3, fun a b d => made ty m f.sat (iv ty a * iv ty b - iv ty d)
      (((fv ty a).mul (fv ty b)).add m (fv ty d).neg))
  | .vfnma f => let ty := etOf f.et.toNat
    some (f, 3, fun a b d => made ty m f.sat (iv ty d - iv ty a * iv ty b)
      ((fv ty d).add m ((fv ty a).mul (fv ty b)).neg))
  | .vmin f => some (f, 2, fun a b _ => match etOf f.et.toNat with
    | .int sg w => (if iv (.int sg w) a < iv (.int sg w) b then a else b, 0#7)
    | .flt t => if f.sat then t.round .rne true (t.decode (minMax (.flt t) false a b)) else (minMax (.flt t) false a b, 0#7))
  | .vmax f => some (f, 2, fun a b _ => match etOf f.et.toNat with
    | .int sg w => (if iv (.int sg w) a < iv (.int sg w) b then b else a, 0#7)
    | .flt t => if f.sat then t.round .rne true (t.decode (minMax (.flt t) true a b)) else (minMax (.flt t) true a b, 0#7))
  | .vabs f => some (f, 1, fun a _ _ => match etOf f.et.toNat with
    | .int sg w => narrowed sg w f.sat (iv (.int sg w) a).natAbs
    | .flt t => (if (t.decode a).isNan then t.nanBits else a % 2 ^ (t.width - 1), 0#7))
  | .vneg f => some (f, 1, fun a _ _ => match etOf f.et.toNat with
    | .int sg w => narrowed sg w f.sat (-(iv (.int sg w) a))
    | .flt t => (if (t.decode a).isNan then t.nanBits else a ^^^ 2 ^ (t.width - 1), 0#7))
  | .vand f => some (f, 2, fun a b _ => (Nat.land a b, 0#7))
  | .vor f => some (f, 2, fun a b _ => (Nat.lor a b, 0#7))
  | .vxor f => some (f, 2, fun a b _ => (Nat.xor a b, 0#7))
  | .vnot f => some (f, 1, fun a _ _ => ((etOf f.et.toNat).width |> fun w => 2 ^ w - 1 - a, 0#7))
  | .vshl f => some (f, 2, fun a c _ => match etOf f.et.toNat with
    | .int sg w => narrowed sg w f.sat (iv (.int sg w) a * 2 ^ c)
    | .flt _ => (a, 0#7))
  | .vshr f => some (f, 2, fun a c _ => match etOf f.et.toNat with
    | .int _ _ => (a / 2 ^ c, 0#7)
    | .flt _ => (a, 0#7))
  | .vshra f => some (f, 2, fun a c _ => match etOf f.et.toNat with
    | .int sg w => ((iv (.int sg w) a / 2 ^ c % 2 ^ w).toNat, 0#7)
    | .flt _ => (a, 0#7))
  | .vexp2 f => some (f, 1, fun a _ _ => vexp2Elem (fltOf f.et.toNat) a)
  | .vlog2 f => some (f, 1, fun a _ _ => vlog2Elem (fltOf f.et.toNat) a)
  | .vrcp f => some (f, 1, fun a _ _ => vrcpElem (fltOf f.et.toNat) a)
  | .vrsq f => some (f, 1, fun a _ _ => vrsqElem (fltOf f.et.toNat) a)
  | .vtanh f => some (f, 1, fun a _ _ => vtanhElem (fltOf f.et.toNat) a)
  | .vmov f => some (f, 1, fun a _ _ => (a, 0#7))
  | _ => none

/-- Whether the entry writes lane j of its destination: below VC with its mask bit set (R45). -/
def covers (s : State) (en : Entry) (k : BitVec 3) (all : Bool) (j : Nat) : Bool :=
  decide (j < en.stamp.vc.toNat) && (all || (s.bank.getK k.toNat).bits.getLsbD j)

/-- The covered elements in ascending order (R259). -/
def elems (s : State) (en : Entry) (k : BitVec 3) (w : Nat) (x : Nat → Nat) : List Nat :=
  ((List.range 64).filter (covers s en k false)).flatMap (fun j => (List.range (32 / w)).map (fun e => el w (x j) e))

/-- The first element of a scan: itself, a NaN in its canonical form (R62, R260). -/
def scanBegin (ty : ETy) (x : Nat) : Nat := match ty with
  | .flt t => if (t.decode x).isNan then t.nanBits else x
  | .int _ _ => x

/-- The running sum after the elements of a list (R260). -/
def runningSum (ty : ETy) (m : Rm) : List Nat → Nat
  | [] => 0
  | x :: xs => xs.foldl (fun a y => (made ty m false (iv ty a + iv ty y) ((fv ty a).add m (fv ty y))).1) (scanBegin ty x)

/-- Elements a VCVT converts, and the element k of its source line (R256). -/
def cvtN (f : FVC) : Nat := 2048 / max (dtOf f.st.toNat).width (dtOf f.dt.toNat).width
def cvtIn (f : FVC) (x : Nat → Nat) (k : Nat) : Nat :=
  let w := (dtOf f.st.toNat).width
  el w (x (k / (32 / w))) (k % (32 / w))

/-- The words that combine lanes or lines (R252, R254, R256, R257, R259 to R261, R263, R264). -/
def mixForm (s : State) (en : Entry) (i : Instr) : Option Form :=
  let m := en.stamp.rm
  let one := fun (f : FV3) k j => bitsAt s f.src1.tile f.src1.dir (en.i1.toNat + k) j
  let two := fun (f : FV3) k j => bitsAt s f.src2.tile f.src2.dir (en.i2.toNat + k) j
  match i with
  | .vrsh f => some (f.tok, f.dst, f.k, false, [f.src1, f.src2], fun j =>
      let c := two f 2 j
      let r : Int × Int := match c / 2 ^ 8 % 8 with
        | 0 => (-8, 7)
        | 1 => (-128, 127)
        | 2 => (0, 255)
        | 3 => (-32768, 32767)
        | 4 => (0, 65535)
        | _ => (-2147483648, 2147483647)
      let v := requant (sgn 32 (one f 0 j)) (sgn 32 (two f 0 j)) (sgn 32 (two f 1 j)) (c % 64) r.1 r.2 m
      ([(v.1 % 2 ^ 32).toNat], v.2))
  | .vsel f => some (f.tok, f.dst, f.k, true, [f.src1, f.src2], fun j =>
      ([if (s.bank.getK f.k.toNat).bits.getLsbD j then one f 0 j else two f 0 j], 0#7))
  | .vcvt f =>
    let x := fun j => bitsAt s f.src.tile f.src.dir en.i1.toNat j
    let w := (dtOf f.dt.toNat).width
    some (f.tok, f.dst, f.k, false, [f.src], fun j =>
      if scaledType f.dt.toNat then
        let block := fun b => blockConvert (fltFmt f.st.toNat) f.dt.toNat m
          ((List.range 32).map (fun i => (fltFmt f.st.toNat).decode (cvtIn f x (32 * b + i))))
        if j < cvtN f * w / 32 then
          cellOf w (fun e => ((block ((j * (32 / w) + e) / 32)).2).getD ((j * (32 / w) + e) % 32) (0, 0#7))
        else if j = cvtN f * w / 32 then
          ([((List.range ((cvtN f + 31) / 32)).map (fun b => (block b).1 % 256 * 256 ^ b)).sum], 0#7)
        else ([0], 0#7)
      else cellOf w (fun e => if j * (32 / w) + e < cvtN f then
          convert (dtOf f.st.toNat) (dtOf f.dt.toNat) m f.sat (cvtIn f x (j * (32 / w) + e)) else (0, 0#7)))
  | .vredsum f => let ty := etOf f.et.toNat
    some (f.tok, f.dst, f.k, false, [f.src1], fun _ =>
      let r := sumOf ty m (elems s en f.k ty.width (one f 0))
      ([r.1], r.2))
  | .vredmax f => let ty := etOf f.et.toNat
    some (f.tok, f.dst, f.k, false, [f.src1], fun _ => ([(extremeOf ty true (elems s en f.k ty.width (one f 0))).1], 0#7))
  | .vredmin f => let ty := etOf f.et.toNat
    some (f.tok, f.dst, f.k, false, [f.src1], fun _ => ([(extremeOf ty false (elems s en f.k ty.width (one f 0))).1], 0#7))
  | .vscanadd f => let ty := etOf f.et.toNat
    some (f.tok, f.dst, f.k, false, [f.src1], fun j =>
      let below := ((List.range j).filter (covers s en f.k false)).flatMap (fun l =>
        (List.range (32 / ty.width)).map (fun e => el ty.width (one f 0 l) e))
      let upTo := fun e => below ++ (List.range (e + 1)).map (fun q => el ty.width (one f 0 j) q)
      cellOf ty.width (fun e => (runningSum ty m (upTo e),
        if (upTo e).length ≤ 1 then 0#7
        else let a := runningSum ty m (upTo e).dropLast
          let y := el ty.width (one f 0 j) e
          (made ty m false (iv ty a + iv ty y) ((fv ty a).add m (fv ty y))).2)))
  | .vbcast f => let w := (etOf f.et.toNat).width
    some (f.tok, { tile := f.line.tile, dir := f.line.dir, fromReg := f.line.fromReg, idx := f.line.idx }, f.k, false, [],
      fun _ => cellOf w (fun _ => (en.val.toNat % 2 ^ w, 0#7)))
  | .vperm f => let w := (etOf f.et.toNat).width
    some (f.tok, f.dst, f.k, false, [f.src1, f.src2], fun j => cellOf w (fun e =>
      let x := el w (two f 0 j) e % (2048 / w)
      (el w (one f 0 (x / (32 / w))) (x % (32 / w)), 0#7)))
  | .viota f => let w := (etOf f.et.toNat).width
    some (f.tok, f.dst, f.k, false, [], fun j => cellOf w (fun e =>
      let n := j * (32 / w) + e
      (match etOf f.et.toNat with
        | .int _ _ => n % 2 ^ w
        | .flt t => (t.round .rne false (.fin false n 0)).1, 0#7)))
  | .vhash f => some (f.tok, f.dst, f.k, false, [f.src1, f.src2], fun j =>
      let pair := fun (lo hi : Nat) => BitVec.ofNat 64 (lo + 2 ^ 32 * hi)
      let r := (mix4 (pair (one f 0 j) (one f 1 j)) (pair (one f 2 j) (one f 3 j)) (pair (two f 0 j) (two f 1 j))).toNat
      ([r % 2 ^ 32, r / 2 ^ 32], 0#7))
  | .vacc f => some (f.tok, f.dst, f.k, false, [], fun j =>
      let x := (s.ctx.pcell (if f.p then 1 else 0) (if f.dir then j else f.idx.toNat)
        (if f.dir then f.idx.toNat else 64 * (if f.h then 1 else 0) + j)).bits.toNat
      let r := if f.dt = 13#5 then fF32.round m f.sat (fF48.decode x) else narrowed (f.dt == 4#5) 32 f.sat (sgn 48 x)
      ([r.1], r.2))
  | _ => none

/-- The form of an element-by-element word: each written lane holds the rule's results on its elements; VMOV,
VAND, VOR, VXOR and VNOT act on the bits whatever the type. -/
def elemForm (s : State) (en : Entry) (i : Instr) : Option Form :=
  match elemOp en.stamp.rm i with
  | none => none
  | some (f, n, op) =>
    let w := match i with
      | .vmov _ => 32
      | _ => (etOf f.et.toNat).width
    let d : Line := { tile := f.dst.tile, dir := f.dst.dir, fromReg := f.dst.fromReg, idx := f.dst.idx, last := false }
    some (f.tok, f.dst, f.k, false, [f.src1] ++ (if 2 ≤ n then [f.src2] else []) ++ (if n = 3 then [d] else []), fun j =>
      cellOf w (fun e => op (el w (bitsAt s f.src1.tile f.src1.dir en.i1.toNat j) e)
        (el w (bitsAt s f.src2.tile f.src2.dir en.i2.toNat j) e) (el w (bitsAt s f.dst.tile f.dst.dir en.idst.toNat j) e)))

/-- The state after a V entry that writes lines: the lanes it covers hold its results, clean; without a last use
every other cell is unchanged; its flags join ESTAT; registers, planes, scratchpad and memory are unchanged. -/
def LinesWritten (s t : State) (en : Entry) (f : Form) : Prop :=
  let (_, dst, k, all, srcs, val) := f
  t.acting = none ∧ t.mem = s.mem ∧ t.ctx.pad = s.ctx.pad ∧ t.ctx.acc = s.ctx.acc ∧ t.bank.s = s.bank.s ∧
    t.bank.k = s.bank.k ∧
    (∀ j < 64, covers s en k all j = true → ∀ x < (val j).1.length,
      let rc := laneCell dst.dir ((en.idst.toNat + x) % 64) j
      t.ctx.cell dst.tile.toNat rc.1 rc.2 = { bits := BitVec.ofNat 32 ((val j).1.getD x 0), pois := false }) ∧
    ((∀ l ∈ srcs, l.last = true → l.tile = dst.tile) → CellsBut s t (fun n r c => n = dst.tile.toNat ∧
      ∃ j < 64, ∃ x < (val j).1.length, covers s en k all j = true ∧
        (r, c) = laneCell dst.dir ((en.idst.toNat + x) % 64) j)) ∧
    ∀ b < 7, t.bank.estat.getLsbD b = (s.bank.estat.getLsbD b ||
      (List.range 64).any (fun j => covers s en k all j && (val j).2.getLsbD b))

/-- V runs the entry, its lines ready: sources awake and clean, the destination awake and unlocked, the mask
clean, the stamped VC at most 64. -/
def LinesReady (s : State) (en : Entry) (f : Form) : Prop :=
  let (tok, dst, k, _, srcs, _) := f
  Runs s .v tok en ∧ en.bad = false ∧ en.offs = [] ∧ en.stamp.vc.toNat ≤ 64 ∧ Writable s dst.tile.toNat ∧
    (s.bank.getK k.toNat).pois = 0#64 ∧
    ∀ l ∈ srcs, Awake s l.tile.toNat ∧ ∀ r < 64, ∀ c < 64, (s.ctx.cell l.tile.toNat r c).pois = false

end Sys2Proof.Say

/-- R249 to R251, R258, R261: lane by lane. -/
def Obligations.VectorElementsComputed : Prop :=
  ∀ (s : State) (en : Entry) (i : Instr) (f : Say.Form), Say.elemForm s en i = some f → Say.LinesReady s en f →
    ∃ t, exec i s = .next t ∧ Say.LinesWritten s t en f

/-- R252, R254, R256, R257, R259 to R261, R263, R264. -/
def Obligations.VectorLinesCombined : Prop :=
  ∀ (s : State) (en : Entry) (i : Instr) (f : Say.Form), Say.mixForm s en i = some f → Say.LinesReady s en f →
    (∀ g, i = .vacc g → ∀ m n, (s.ctx.pcell (if g.p then 1 else 0) m n).pois = false) →
    ∃ t, exec i s = .next t ∧ Say.LinesWritten s t en f

namespace Sys2Proof.Say

/-- The compares: the instruction, the relation (0 EQ, 1 LT, 2 LE) and whether it is negated (R253). -/
def compare (f : FVCm) : Nat → Instr × Nat × Bool
  | 0 => (.vcmpeq f, 0, false)
  | 1 => (.vcmpne f, 0, true)
  | 2 => (.vcmplt f, 1, false)
  | _ => (.vcmple f, 2, false)

/-- The relation on one element: of integers by value, of floats false for a NaN (R253). -/
def related (ty : ETy) (rel a b : Nat) : Bool := match ty with
  | .int _ _ => if rel = 0 then decide (iv ty a = iv ty b) else if rel = 1 then decide (iv ty a < iv ty b)
    else decide (iv ty a ≤ iv ty b)
  | .flt t => (relElem (.flt t) rel a b).1

/-- The mask operations on whole registers (R255). -/
def maskOp (f : FVK) (a b : Word) : Nat → Instr × Word
  | 0 => (.vkand f, a &&& b)
  | 1 => (.vkor f, a ||| b)
  | 2 => (.vkxor f, a ^^^ b)
  | _ => (.vknot f, ~~~a)

/-- The count of set bits; the place of the lowest, or 64 (R255). -/
def ones (a : Word) : Nat := (List.range 64).countP (fun i => a.getLsbD i)
def lowest (a : Word) : Nat := ((List.range 64).takeWhile (fun i => !a.getLsbD i)).length

end Sys2Proof.Say

/-- R253, R255, R261, R262. -/
def Obligations.MasksAndScalarsComputed : Prop :=
  ∀ (s : State) (en : Entry), en.stamp.vc.toNat ≤ 64 → en.bad = false →
    (∀ (f : FVCm) (n : Nat), n < 4 → Say.Runs s .v f.tok en → (s.bank.getK f.k.toNat).pois = 0#64 → f.kd ≠ 0#3 →
      (∀ l ∈ [f.src1, f.src2], Say.Awake s l.tile.toNat ∧
        ∀ r < 64, ∀ c < 64, (s.ctx.cell l.tile.toNat r c).pois = false) →
      let ty := etOf f.et.toNat
      let a := fun j => Say.bitsAt s f.src1.tile f.src1.dir en.i1.toNat j
      let b := fun j => Say.bitsAt s f.src2.tile f.src2.dir en.i2.toNat j
      let (i, rel, neg) := Say.compare f n
      ∃ t, exec i s = .next t ∧ t.acting = none ∧ t.mem = s.mem ∧ t.ctx.pad = s.ctx.pad ∧ t.bank.s = s.bank.s ∧
        (∀ j < 64, (t.bank.getK f.kd.toNat).bits.getLsbD j =
          if Say.covers s en f.k false j then ((List.range (32 / ty.width)).all (fun e =>
              Say.related ty rel (Say.el ty.width (a j) e) (Say.el ty.width (b j) e))) != neg
          else (s.bank.getK f.kd.toNat).bits.getLsbD j) ∧
        (∀ j < 64, (t.bank.getK f.kd.toNat).pois.getLsbD j =
          (!Say.covers s en f.k false j && (s.bank.getK f.kd.toNat).pois.getLsbD j)) ∧
        (∀ q, q ≠ f.kd.toNat → t.bank.getK q = s.bank.getK q) ∧
        (f.src1.last = false → f.src2.last = false → t.ctx.tiles = s.ctx.tiles)) ∧
    (∀ f : FVK, Say.Runs s .v f.tok en → (s.bank.getK f.ka.toNat).pois = 0#64 →
      (∀ n, n < 4 → (n < 3 → (s.bank.getK f.kb.toNat).pois = 0#64) →
        let (i, v) := Say.maskOp f (s.bank.getK f.ka.toNat).bits (s.bank.getK f.kb.toNat).bits n
        ∃ t, exec i s = .next t ∧ t.acting = none ∧ t.mem = s.mem ∧ t.ctx.tiles = s.ctx.tiles ∧ t.bank.s = s.bank.s ∧
          (f.kd ≠ 0#3 → t.bank.getK f.kd.toNat = { bits := v, pois := 0#64 }) ∧
          ∀ q, q ≠ f.kd.toNat → t.bank.getK q = s.bank.getK q) ∧
      (∀ i v, (i = .vkpopc f ∧ v = Say.ones (s.bank.getK f.ka.toNat).bits) ∨
          (i = .vkfirst f ∧ v = Say.lowest (s.bank.getK f.ka.toNat).bits) →
        ∃ t, exec i s = .next t ∧ t.acting = none ∧ t.mem = s.mem ∧ t.ctx.tiles = s.ctx.tiles ∧ t.bank.k = s.bank.k ∧
          (f.s ≠ 0#6 → t.bank.getS f.s.toNat = { bits := BitVec.ofNat 64 v, pois := false }) ∧
          ∀ r, (r ≠ f.s.toNat ∨ r = 0) → t.bank.getS r = s.bank.getS r)) ∧
    (∀ f : FVX, Say.Runs s .v f.tok en → Say.Awake s f.line.tile.toNat →
      let ty := etOf f.et.toNat
      (((s.ctx.cell f.line.tile.toNat (Say.laneCell f.line.dir en.i1.toNat f.lane.toNat).1
          (Say.laneCell f.line.dir en.i1.toNat f.lane.toNat).2).pois = false) →
        let x := Say.el ty.width (Say.bitsAt s f.line.tile f.line.dir en.i1.toNat f.lane.toNat) 0
        ∃ t, exec (.vgets f) s = .next t ∧ t.acting = none ∧ t.mem = s.mem ∧
          (f.s ≠ 0#6 → t.bank.getS f.s.toNat = { pois := false, bits := match ty with
            | .int _ _ => BitVec.ofInt 64 (Say.iv ty x)
            | .flt _ => BitVec.ofNat 64 x }) ∧
          (∀ r, (r ≠ f.s.toNat ∨ r = 0) → t.bank.getS r = s.bank.getS r) ∧
          (f.line.last = false → t.ctx.tiles = s.ctx.tiles)) ∧
      ((s.ctx.tile f.line.tile.toNat).lock = false →
        let rc := Say.laneCell f.line.dir en.idst.toNat f.lane.toNat
        let old := s.ctx.cell f.line.tile.toNat rc.1 rc.2
        ∃ t, exec (.vsets f) s = .next t ∧ t.acting = none ∧ t.mem = s.mem ∧ t.bank.s = s.bank.s ∧
          Say.CellsBut s t (fun m r c => m = f.line.tile.toNat ∧ (r, c) = rc ∧ f.lane.toNat < en.stamp.vc.toNat) ∧
          (f.lane.toNat < en.stamp.vc.toNat → let c := t.ctx.cell f.line.tile.toNat rc.1 rc.2
            c.pois = (decide (ty.width ≠ 32) && old.pois) ∧ (c.pois = false → c.bits.toNat =
              old.bits.toNat / 2 ^ ty.width * 2 ^ ty.width + en.val.toNat % 2 ^ ty.width)))) ∧
    (∀ f : FV3, Say.Runs s .v f.tok en → Say.Awake s f.src1.tile.toNat → Say.Writable s f.dst.tile.toNat →
      ∃ t, exec (.vpois f) s = .next t ∧ t.acting = none ∧ t.mem = s.mem ∧ t.ctx.pad = s.ctx.pad ∧ t.bank.s = s.bank.s ∧
        (∀ j < 64, Say.covers s en f.k false j = true →
          let to_ := Say.laneCell f.dst.dir en.idst.toNat j
          t.ctx.cell f.dst.tile.toNat to_.1 to_.2 = { pois := false, bits :=
            if (Say.lane s f.src1 en.i1.toNat j).pois then 1#32 else 0#32 }) ∧
        ((f.src1.last = true → f.src1.tile = f.dst.tile) → Say.CellsBut s t (fun m r c => m = f.dst.tile.toNat ∧
          ∃ j < 64, Say.covers s en f.k false j = true ∧ (r, c) = Say.laneCell f.dst.dir en.idst.toNat j)))

/-- R51, R54, R246, R344: engine faults. -/
def Obligations.EngineFaultsAreLatched : Prop :=
  ∀ (s : State) (en : Entry) (i : Instr) (tok : Tok) (dst : DLine) (k : BitVec 3) (all : Bool) (srcs : List Line)
    (val : Nat → List Nat × BitVec 7),
    (Say.elemForm s en i = some (tok, dst, k, all, srcs, val) ∨ Say.mixForm s en i = some (tok, dst, k, all, srcs, val)) →
    Say.Runs s .v tok en → s.ctx.inHandler = false → s.ctx.latch 2 = none → en.stamp.vc.toNat ≤ 64 →
    let tiles := srcs.map (fun l => l.tile.toNat)
    let spec := en.stamp.emode.getLsbD 3
    let Latched := fun (t : State) (code sub : Nat) => t.acting = none ∧ t.mem = s.mem ∧ t.ctx.tiles = s.ctx.tiles ∧
      t.ctx.latch 2 = some { code := BitVec.ofNat 8 code, sub := BitVec.ofNat 8 sub, addr := en.addr } ∧
      ((∀ n ∈ pushesOf .v tok, s.bank.fifo.at n < 8 ∧ (en.popsTaken = true ∨ n ∉ popsOf .v tok)) →
        t.bank.queue .v = (s.bank.queue .v).tail)
    (∀ m, (tiles ++ [dst.tile.toNat]).find? (fun x => (s.ctx.tile x).state == .absent) = some m →
      ∃ t, exec i s = .next t ∧ Latched t 0x09 m) ∧
    ((∀ x ∈ tiles ++ [dst.tile.toNat], (s.ctx.tile x).state ≠ .absent) → (s.ctx.tile dst.tile.toNat).lock = true →
      ∃ t, exec i s = .next t ∧ t.acting = none ∧ t.mem = s.mem ∧ t.ctx.tiles = s.ctx.tiles ∧
        t.ctx.latches = s.ctx.latches) ∧
    (∀ m, (∀ x ∈ tiles ++ [dst.tile.toNat], (s.ctx.tile x).state ≠ .absent) → (s.ctx.tile dst.tile.toNat).lock = false →
      spec = false → tiles.find? (fun x => (s.ctx.tile x).state == .off) = some m →
      ∃ t, exec i s = .next t ∧ Latched t 0x08 m) ∧
    (∀ f n op, Say.elemOp en.stamp.rm i = some (f, n, op) → en.offs = [] → (∀ x ∈ tiles, Say.Awake s x) →
      Say.Writable s dst.tile.toNat → (s.bank.getK k.toNat).pois = 0#64 →
      let bad := fun (q j : Nat) => match q with
        | 0 => (Say.lane s f.src1 en.i1.toNat j).pois
        | 1 => decide (2 ≤ n) && (Say.lane s f.src2 en.i2.toNat j).pois
        | _ => decide (n = 3) && (s.ctx.cell dst.tile.toNat (Say.laneCell dst.dir en.idst.toNat j).1
            (Say.laneCell dst.dir en.idst.toNat j).2).pois
      let some_ := fun (q : Nat) => (List.range 64).any (fun j => Say.covers s en k all j && bad q j)
      (∀ q < 3, some_ q = true → (∀ r < q, some_ r = false) → spec = false →
        ∃ t, exec i s = .next t ∧ Latched t 0x07 (if q = 2 then 4 else q + 1)) ∧
      (spec = true → ∃ t, exec i s = .next t ∧ t.acting = none ∧ t.mem = s.mem ∧ t.ctx.latches = s.ctx.latches ∧
        ∀ j < 64, Say.covers s en k all j = true →
          let rc := Say.laneCell dst.dir en.idst.toNat j
          let c := t.ctx.cell dst.tile.toNat rc.1 rc.2
          c.pois = (bad 0 j || bad 1 j || bad 2 j) ∧
            (c.pois = false → c.bits = BitVec.ofNat 32 ((val j).1.getD 0 0))))

namespace Sys2Proof.Say

/-- The scratchpad after an S entry has written the bytes that `out` gives by address, each with its poison:
contents, live granules, marks set by a poisoned byte and cleared where a whole granule is written clean (R53,
R57, R265). -/
def PadWritten (s t : State) (out : Nat → Option (Nat × Bool)) : Prop :=
  (∀ a, t.ctx.padByte a = match out a with
    | some (b, _) => BitVec.ofNat 8 b
    | none => s.ctx.padByte a) ∧
  ∀ g,
    let here := (List.range 256).map (fun i => out (256 * g + i))
    Sparse.get (fun _ => false) t.ctx.glive g = (here.any Option.isSome || Sparse.get (fun _ => false) s.ctx.glive g) ∧
    Sparse.get (fun _ => false) t.ctx.gpois g =
      if here.any (fun o => (o.map Prod.snd).getD false) then true
      else if here.all Option.isSome then false
      else Sparse.get (fun _ => false) s.ctx.gpois g

/-- Byte b of element q, of e bytes, of a cell. -/
def byteOf (c : Cell) (e q b : Nat) : Nat × Bool := (c.bits.toNat / 2 ^ (8 * e * q + 8 * b) % 256, c.pois)

/-- The bytes of SLINE, STILE, STRANS by address (R266). -/
def lineOut (s : State) (f : FLN) (en : Entry) (a : Nat) : Option (Nat × Bool) :=
  let o := a - en.val.toNat
  if en.val.toNat ≤ a ∧ o < 4 * en.stamp.vc.toNat then
    some (byteOf (lane s f.line en.i1.toNat (o / 4)) 4 0 (o % 4)) else none
def tileOut (s : State) (f : FLN) (en : Entry) (a : Nat) : Option (Nat × Bool) :=
  let p := rowPitch f.param
  let r := (a - en.val.toNat) / p
  let o := (a - en.val.toNat) % p
  if en.val.toNat ≤ a ∧ r < en.stamp.vc.toNat ∧ o < 256 then
    some (byteOf (lane s { f.line with dir := 0#2 } r (o / 4)) 4 0 (o % 4)) else none
def transOut (s : State) (f : FLN) (en : Entry) (a : Nat) : Option (Nat × Bool) :=
  let p := transPitch f.param
  let e := transElem f.param
  let k := (a - en.val.toNat) / p
  let o := (a - en.val.toNat) % p
  if en.val.toNat ≤ a ∧ k < 256 / e ∧ o < e * en.stamp.vc.toNat then
    some (byteOf (lane s { f.line with dir := 0#2 } (o / e) (k / (4 / e))) e (k % (4 / e)) (o % e)) else none

/-- Column of element k of SACC's plane line, and its result: the cell times the multiplier plus the zero point,
shifted and saturated into an integer type, or rounded into a float (R76, R267, R268). -/
def saccCol (f : FSA) (k : Nat) : Nat := if f.dir then f.idx.toNat else 64 * (if f.h then 1 else 0) + k
def saccElem (s : State) (f : FSA) (en : Entry) (k : Nat) : Nat :=
  let base := 256 * en.stamp.sqp.toNat
  let c := saccCol f k
  let x := (s.ctx.pcell (if f.p then 1 else 0) (if f.dir then k else f.idx.toNat) c).bits.toNat
  let m := padNat s (base + 4 * c) 4
  let z := padNat s (base + 512 + 4 * c) 4
  match dtOf f.dt.toNat with
  | .int sg w => ((requant (sgn 48 x) (sgn 32 m) (sgn 32 z) (padNat s (base + 1024 + c) 1 % 64) (least sg w) (most sg w)
      .rna).1 % 2 ^ w).toNat
  | .flt t => (t.round .rna true (((fF48.decode x).mul (fF32.decode m)).add .rna (fF32.decode z))).1

/-- The bytes of SACC: elements of 8, 16 or 32 bits side by side; of 4 bits two to a byte, a half that no
element fills as it was (R42, R268). -/
def saccOut (s : State) (f : FSA) (en : Entry) (a : Nat) : Option (Nat × Bool) :=
  let w := (dtOf f.dt.toNat).width
  let vc := en.stamp.vc.toNat
  let o := a - en.val.toNat
  if a < en.val.toNat then none
  else if w = 4 then
    if 2 * o < vc then
      some (saccElem s f en (2 * o) % 16 + 16 * (if 2 * o + 1 < vc then saccElem s f en (2 * o + 1) % 16
        else (s.ctx.padByte a).toNat / 16), false)
    else none
  else if o / (w / 8) < vc then some (saccElem s f en (o / (w / 8)) / 256 ^ (o % (w / 8)) % 256, false) else none

/-- Every bank that holds a byte of `out` serves accesses. -/
def OutAwake (s : State) (out : Nat → Option (Nat × Bool)) : Prop :=
  ∀ a, (out a).isSome = true → (s.ctx.padBank (a / 16384)).state = .full ∧ (s.ctx.padBank (a / 16384)).waking = false

end Sys2Proof.Say

/-- R265 to R268: stores to the scratchpad. -/
def Obligations.StoreEntriesWriteTheScratchpad : Prop :=
  ∀ (s : State) (en : Entry), en.stamp.vc.toNat ≤ 64 →
    (∀ (f : FLN) (i : Instr) (out : Nat → Option (Nat × Bool)), Say.Runs s .s f.tok en →
      ((i = .sline f ∧ out = Say.lineOut s f en) ∨ (i = .stile f ∧ f.line.dir = 0#2 ∧ out = Say.tileOut s f en) ∨
        (i = .strans f ∧ f.line.dir = 0#2 ∧ f.param.toNat / 16 ≤ 2 ∧
          64 * Say.transElem f.param ≤ Say.transPitch f.param ∧ out = Say.transOut s f en)) →
      (en.bad = false → Say.Awake s f.line.tile.toNat → Say.OutAwake s out →
        ∃ t, exec i s = .next t ∧ t.acting = none ∧ (f.rel = false → t.mem = s.mem) ∧ Say.PadWritten s t out ∧
          t.ctx.acc = s.ctx.acc ∧ (f.line.last = false → t.ctx.tiles = s.ctx.tiles)) ∧
      (en.bad = true → Say.Awake s f.line.tile.toNat →
        ∃ t, exec i s = .next t ∧ t.acting = none ∧ (f.rel = false → t.mem = s.mem) ∧ Say.PadWritten s t (fun _ => none) ∧
          t.ctx.acc = s.ctx.acc ∧ (f.line.last = false → t.ctx.tiles = s.ctx.tiles)) ∧
      (∀ c, s.ctx.inHandler = false → s.ctx.latch 3 = none → en.stamp.emode.getLsbD 3 = false →
        (s.ctx.tile f.line.tile.toNat).state = c → (c = .absent ∨ c = .off) →
        ∃ t, exec i s = .next t ∧ t.acting = none ∧ t.mem = s.mem ∧ t.ctx.pad = s.ctx.pad ∧ t.ctx.tiles = s.ctx.tiles ∧
          t.ctx.latch 3 = some { code := if c = .absent then 0x09#8 else 0x08#8, sub := BitVec.ofNat 8 f.line.tile.toNat,
                                 addr := en.addr })) ∧
    (∀ f : FSA, Say.Runs s .s f.tok en → en.bad = false → en.offs = [] →
      (∀ k < en.stamp.vc.toNat, let c := Say.saccCol f k
        (s.ctx.pcell (if f.p then 1 else 0) (if f.dir then k else f.idx.toNat) c).pois = false ∧
        ∀ sp ∈ [(256 * en.stamp.sqp.toNat + 4 * c, 4), (256 * en.stamp.sqp.toNat + 512 + 4 * c, 4),
            (256 * en.stamp.sqp.toNat + 1024 + c, 1)],
          sp.1 + sp.2 ≤ s.ctx.spSize ∧ Say.PadAwake s sp.1 sp.2 ∧ s.ctx.padPoison sp.1 sp.2 = false) →
      Say.OutAwake s (Say.saccOut s f en) →
      ∃ t, exec (.sacc f) s = .next t ∧ t.acting = none ∧ (f.rel = false → t.mem = s.mem) ∧
        Say.PadWritten s t (Say.saccOut s f en) ∧ t.ctx.acc = s.ctx.acc ∧ t.ctx.tiles = s.ctx.tiles)

namespace Sys2Proof.Say

/-- Field [lo + n - 1 : lo] of a word. -/
def field (w : Word) (lo n : Nat) : Nat := w.toNat / 2 ^ lo % 2 ^ n

end Sys2Proof.Say

/-- R282: the C class on a channel. -/
def Obligations.ChainsStartStopAndReport : Prop :=
  ∀ (s : State),
    let started (k : Chan) (x : Chain) : Chan :=
      { run := true, err := false, phase := .start, ecode := 0#8, donecnt := if k.err then k.donecnt else 0#16
        cur := some x, pend := k.pend, elems := 0, bytes := 0, bad := [], badoff := 2 ^ 64 - 1, held := [], code := none
        ptag := none, resv := [], fetched := none, vlim := none, stalled := false }
    let enqueued (n : Nat) (x : Chain) : State :=
      let k := s.ctx.chan n
      if k.run = false then (s.setCtx (s.ctx.setChan n (started k x))).goOn s.pc8
      else if k.pend = none then (s.setCtx (s.ctx.setChan n { k with pend := some x })).goOn s.pc8
      else s.waitAt (.kick n) false
    (∀ f : FChA, s.Plain [f.a] → s.Clean [f.a] →
      let a := (s.rd f.a).bits
      exec (.ckick f) s = .next (if a.toNat % 128 ≠ 0 then s.fault (Cause.seq 0x06#8 0 a)
        else if a = 0#64 then s.goOn s.pc8 else enqueued f.ch.toNat (.record a))) ∧
    (∀ f : FChAB, s.Plain [f.a, f.b] → s.Clean [f.a, f.b] →
      let a := (s.rd f.a).bits
      let b := (s.rd f.b).bits
      (a.toNat % 64 ≠ 0 → exec (.czero f) s = .next (s.fault (Cause.seq 0x06#8 0 a))) ∧
      (a.toNat % 64 = 0 → b.toNat % 64 ≠ 0 → exec (.czero f) s = .next (s.fault (Cause.seq 0x06#8 0 b))) ∧
      (a.toNat % 64 = 0 → b.toNat % 64 = 0 → 2 ^ 32 < b.toNat →
        ∃ t : State, ∃ v, exec (.czero f) s = .next (t.fault (Cause.seq 0x05#8 0 v)) ∧ t.ctx = s.ctx ∧ t.mem = s.mem) ∧
      (a.toNat % 64 = 0 → b.toNat % 64 = 0 → b.toNat ≤ 2 ^ 32 →
        exec (.czero f) s = .next (if b = 0#64 then s.goOn s.pc8 else enqueued f.ch.toNat (.zero a b)))) ∧
    (∀ f : FCh,
      let n := f.ch.toNat
      let k := s.ctx.chan n
      (k.run = false → exec (.cstop f) s = .next ((s.setCtx (s.ctx.setChan n { k with pend := none })).goOn s.pc8)) ∧
      (k.run = true → k.phase = .start →
        exec (.cstop f) s = .next ((s.setCtx (s.ctx.setChan n { k with pend := none, run := false })).goOn s.pc8)) ∧
      (k.run = true → k.phase ≠ .start →
        ∃ t, exec (.cstop f) s = .next t ∧ t.ctx.pc = s.pc8 ∧ (t.ctx.chan n).run = false ∧
          (t.ctx.chan n).pend = none ∧ (∀ m, m ≠ n → t.ctx.chan m = s.ctx.chan m) ∧ ∀ r, t.rd r = s.rd r) ∧
      exec (.cwaitch f) s = .next (if k.run = true ∨ (k.err = true ∧ k.pend.isSome = true) then s.waitAt (.chanIdle n) false
        else s.goOn s.pc8)) ∧
    (∀ f : FChD, s.Plain [f.d, f.d + 1#6] →
      let k := s.ctx.chan f.ch.toNat
      ((f.d.toNat % 2 = 1 ∨ f.d = 0#6) →
        ∃ t : State, ∃ v, exec (.cstat f) s = .next (t.fault (Cause.seq 0x05#8 0 v)) ∧ t.ctx = s.ctx ∧ t.mem = s.mem) ∧
      (f.d.toNat % 2 = 0 → f.d ≠ 0#6 → ∃ w v, exec (.cstat f) s = .next (((s.wrc f.d w).wrc (f.d + 1#6) v).goOn s.pc8) ∧
        Say.field w 32 16 = k.donecnt.toNat ∧ Say.field w 16 8 = k.ecode.toNat ∧
        Say.field w 5 11 = (if k.run = true ∧ k.cur.isSome = true then 1 else 0) ∧
        Say.field w 4 1 = (if k.pend.isSome = true then 1 else 0) ∧
        Say.field w 0 3 = (if k.err then 3 else if k.run = false then 0
          else if k.phase = .gutter ∨ k.phase = .landing ∨ k.phase = .held then 2 else 1) ∧
        (∀ a, k.cur = some (.record a) → v = a) ∧ (∀ a b, k.cur = some (.zero a b) → v = a)))

/-- R283 to R285: CPFL2, NSEND, NSTAT. -/
def Obligations.SendsAndPrefetchesAreAccepted : Prop :=
  ∀ (s : State),
    (∀ f : FDABC, s.Plain [f.a, f.b, f.c, f.d] → s.Clean [f.a, f.b, f.c] →
      let a := (s.rd f.a).bits
      let b := (s.rd f.b).bits
      let k := s.conn (b.toNat % 2 ^ 15)
      (a.toNat % 16 ≠ 0 → exec (.nsend f) s = .next (s.fault (Cause.seq 0x06#8 0 a))) ∧
      (a.toNat % 16 = 0 → (∃ e ∈ s.bank.entries, e.pushOwed = false) → exec (.nsend f) s = .next (s.waitAt .other false)) ∧
      (a.toNat % 16 = 0 → (∀ e ∈ s.bank.entries, e.pushOwed = true) →
        (2 ^ 15 ≤ b.toNat ∨ k.isOpen = false ∨ k.vdn ≠ s.ctx.ownDevice →
          exec (.nsend f) s = .next ((s.wrc f.d 1#64).goOn s.pc8)) ∧
        (b.toNat < 2 ^ 15 → k.isOpen = true → k.vdn = s.ctx.ownDevice →
          (s.ctx.sendList a.toNat 16 = none → exec (.nsend f) s = .next ((s.wrc f.d 2#64).goOn s.pc8)) ∧
          (∀ es, s.ctx.sendList a.toNat 16 = some es →
            (s.ctx.sendOk a.toNat es = false → exec (.nsend f) s = .next ((s.wrc f.d 2#64).goOn s.pc8)) ∧
            (∀ i, s.ctx.sendOk a.toNat es = true → i < 32 → (s.ctx.send i).vacant = true →
              (∀ j < i, (s.ctx.send j).vacant = false) →
              (∀ bk ∈ banksOf a.toNat (16 * es.length) ++ (es.map bufOf).flatMap (fun x => banksOf x.addr x.len),
                s.ctx.padReady bk = true) →
              ∃ t, exec (.nsend f) s = .next t ∧ t.ctx.pc = s.pc8 ∧ t.mem = s.mem ∧ t.ctx.progX = 0 ∧
                let x := t.ctx.send i
                x.gen = (if (s.ctx.send i).gen = 255#8 then 1#8 else (s.ctx.send i).gen + 1#8) ∧
                x.used = true ∧ x.taken = false ∧ x.sent = false ∧ x.delivered = false ∧ x.err = false ∧
                x.due = (if (s.rd f.c).bits = 0#64 then (s.now : Int)
                  else ((s.rd f.c).bits.toNat : Int) - Sparse.get (fun _ => 0) s.voff s.ctx.ownDevice) ∧
                x.shadow = k.shadow ∧ x.handle = b.setWidth 32 ∧ x.bufs = es.map bufOf ∧ x.time = (s.rd f.c).bits ∧
                x.ver.toNat = bitsOf (es.headD 0) 96 32 ∧
                (∀ j, j ≠ i → t.ctx.send j = s.ctx.send j) ∧
                (f.d ≠ 0#6 → t.rd f.d = { bits := BitVec.ofNat 64 (256 * i + 8192 * x.gen.toNat), pois := false }) ∧
                ∀ r, r ≠ f.d → t.rd r = s.rd r))))) ∧
    (∀ f : FDA, s.Plain [f.a, f.d] → s.Clean [f.a] →
      let a := (s.rd f.a).bits.toNat
      let x := s.ctx.send (a % 32)
      (2 ^ 13 ≤ a → ∃ t : State, ∃ v, exec (.nstat f) s = .next (t.fault (Cause.seq 0x05#8 0 v)) ∧ t.ctx = s.ctx ∧ t.mem = s.mem) ∧
      (a < 2 ^ 13 → (a / 32 ≠ x.gen.toNat ∨ x.gen = 0#8) → exec (.nstat f) s = .next ((s.wrc f.d 0x20#64).goOn s.pc8)) ∧
      (a < 2 ^ 13 → a / 32 = x.gen.toNat → x.gen ≠ 0#8 → ∃ w, exec (.nstat f) s = .next ((s.wrc f.d w).goOn s.pc8) ∧
        Say.field w 16 48 = x.tstamp.toNat ∧ Say.field w 8 8 = x.ecode.toNat ∧ Say.field w 5 3 = 0 ∧
        Say.field w 4 1 = x.err.toNat ∧ Say.field w 3 1 = x.late.toNat ∧ Say.field w 2 1 = x.delivered.toNat ∧
        Say.field w 1 1 = x.sent.toNat ∧ Say.field w 0 1 = x.taken.toNat)) ∧
    (∀ f : FCpf, s.Plain [f.a, f.b, f.c] → s.Clean [f.a, f.b, f.c] →
      let b := (s.rd f.b).bits
      let c := (s.rd f.c).bits
      (c.toNat % 8 ≠ 0 → exec (.cpfl2 f) s = .next (s.fault (Cause.seq 0x06#8 0 c))) ∧
      (c.toNat % 8 = 0 → 2 ^ 30 < b.toNat →
        ∃ t : State, ∃ v, exec (.cpfl2 f) s = .next (t.fault (Cause.seq 0x05#8 0 v)) ∧ t.ctx = s.ctx ∧ t.mem = s.mem) ∧
      (∀ ps, c.toNat % 8 = 0 → b.toNat ≤ 2 ^ 30 → s.checkData c.toNat 8 .rw = .ok ps → s.inWindow c.toNat 8 = none →
        let pa := physOf ps c.toNat
        let s0 := s.flushGranule pa
        (s0.scopeOk s.me f.scope.toNat pa = false → exec (.cpfl2 f) s = .next (s.fault (Cause.seq 0x0E#8 0 c))) ∧
        (s0.scopeOk s.me f.scope.toNat pa = true → ∃ t, exec (.cpfl2 f) s = .next t ∧ t.ctx.pc = s.pc8 ∧
          (∀ r, t.rd r = s.rd r) ∧
          (b = 0#64 → t.natAt pa 8 = min (s0.natAt pa 8 + f.val.toNat) (2 ^ 64 - 1) ∧ Say.SameBut s0 t pa 8 ∧
            t.ctx.prefetches = s.ctx.prefetches) ∧
          (b ≠ 0#64 → ((∀ v ∈ linesOf (s.rd f.a).bits.toNat b.toNat, s.prefetchFails v = none) → t.mem = s0.mem) ∧
            ∃ p : Prefetch, t.ctx.prefetches = s.ctx.prefetches ++ [p] ∧
            p.cnt = BitVec.ofNat 64 pa ∧ p.val.toNat = f.val.toNat))))

namespace Sys2Proof.Say

/-- Function vd of the module serves its registers: one of those the steward has enabled, the physical one is 0 (R398). -/
def Up (s : State) (vd : Nat) : Prop :=
  vd < 64 ∧ vd ≤ s.functions ∧ s.boot = .running ∧ (s.die 0).alive = true

/-- A host queue's window answers, and only that queue has changed: every other queue, memory and the contexts
are as before. -/
def QueueOnly (s t : State) (vd q : Nat) : Prop :=
  t.mem = s.mem ∧ t.ctx = s.ctx ∧ t.ctxs = s.ctxs ∧ t.tasks = s.tasks ∧
    ∀ v p, hqKey v p ≠ hqKey vd q → t.hq v p = s.hq v p

/-- The block that a commit of a queue's working copy writes: with what the window registers hold (R395). -/
def block (h : HQueue) : QBlock :=
  { h.work with rbase := h.base, log2cap := h.log2cap, hostr := h.hostr, msix := h.msix }

/-- The same, naming the queue's device and number. -/
def ownBlock (h : HQueue) (vd q : Nat) : QBlock :=
  { block h with vdn := BitVec.ofNat 6 vd, qnum := BitVec.ofNat 6 q }

/-- A queue after an offered write index (R391): how far it lies ahead decides, the capacity by the committed copy (R395). -/
def Offered (h h2 : HQueue) (w : BitVec 32) (inl : Option (BitVec 512)) : Prop :=
  let d := (w - h.work.widx).toNat
  (d = 0 ∨ 2 ^ 31 ≤ d → h2 = h) ∧
  (1 ≤ d → d < 2 ^ 31 → h2.work.widx = w ∧ h2.work.ridx = h.work.ridx ∧
    h2.inline = (match inl with
      | some p => some (w - 1#32, p)
      | none => h.inline) ∧
    ((w - h.current.ridx).toNat ≤ 2 ^ h.current.log2cap.toNat → h2.work.state = h.work.state ∧ h2.current = h.current) ∧
    (2 ^ h.current.log2cap.toNat < (w - h.current.ridx).toNat → h2.work.state = 2#2 ∧ h2.work.ecode = 5#8 ∧ h2.current = h2.work))

end Sys2Proof.Say

/-- R389 to R391, R397, R399: the host's registers. -/
def Obligations.HostWindowsActAsWritten : Prop :=
  ∀ (s : State) (vd q : Nat), Say.Up s vd → q < 64 →
    let h := s.hq vd q
    (∀ w, ∃ t, exec (.hqdoor vd q w) s = .next t ∧ Say.QueueOnly s t vd q ∧ Say.Offered h (t.hq vd q) w none) ∧
    (∀ pkt : BitVec 512, ∃ t, exec (.hqlaunch vd q pkt true) s = .next t ∧ Say.QueueOnly s t vd q ∧
      Say.Offered h (t.hq vd q) (BitVec.ofNat 32 (pkt.toNat / 2 ^ 32)) (if s.featOn vd 0 then some pkt else none)) ∧
    (∀ pkt : BitVec 512, ∃ t, exec (.hqlaunch vd q pkt false) s = .next t ∧ t.ctx = s.ctx ∧ t.hqs = s.hqs) ∧
    (∃ t, exec (.hqStart vd q) s = .next t ∧ Say.QueueOnly s t vd q ∧
      (h.current.state = 0#2 → (s.feat vd).accept = true → s.pcstat.toNat % 2 ^ 32 ≠ 0 →
        (t.hq vd q).work = { Say.ownBlock h vd q with state := 1#2, ridx := 0#32, widx := 0#32 } ∧
        (t.hq vd q).current = (t.hq vd q).work ∧ (t.hq vd q).inline = none) ∧
      (h.current.state ≠ 0#2 ∨ (s.feat vd).accept = false ∨ s.pcstat.toNat % 2 ^ 32 = 0 → t = s)) ∧
    (∃ t, exec (.hqStop vd q) s = .next t ∧ Say.QueueOnly s t vd q ∧
      (h.current.state = 0#2 → t = s) ∧
      (h.current.state ≠ 0#2 → (h.waiting.isSome ∨ h.begun = true ∨ (h.eph = true ∧ h.eidx = h.work.ridx)) →
        t.hq vd q = { h with stopReq := true }) ∧
      (h.current.state ≠ 0#2 → h.waiting = none → h.begun = false → (h.eph = false ∨ h.eidx ≠ h.work.ridx) → (t.hq vd q).work = { Say.block h with state := 0#2 } ∧
        (t.hq vd q).current = (t.hq vd q).work)) ∧
    (∃ t, exec (.hqClrq vd q) s = .next t ∧ Say.QueueOnly s t vd q ∧
      (h.current.state.toNat ≥ 2 → (t.hq vd q).work = { Say.block h with state := 1#2 } ∧
        (t.hq vd q).current = (t.hq vd q).work) ∧
      (h.current.state.toNat < 2 → t = s)) ∧
    (∃ t, exec (.accept vd) s = .next t ∧ t.hqs = s.hqs ∧ t.mem = s.mem ∧ t.ctx = s.ctx ∧
      ((∀ i < 128, (s.feat vd).drv.getLsbD i = true → i < 6 ∧ Config.offeredFeatures.getLsbD i = true) →
        t.feat vd = { s.feat vd with on := (s.feat vd).drv, accept := true, refused := false }) ∧
      (∀ i < 128, (s.feat vd).drv.getLsbD i = true → (6 ≤ i ∨ Config.offeredFeatures.getLsbD i = false) →
        t.feat vd = { s.feat vd with refused := true })) ∧
    (∃ t, exec (.featureReset vd) s = .next t ∧ t.feat vd = { s.feat vd with on := 0#128, accept := false } ∧
      (∀ p < 64, t.hq vd p = HQueue.zero) ∧
      ((∀ e ∈ s.hostChans, e.2.busy = true → e.2.vd ≠ vd) →
        t.mem = s.mem ∧ t.ctx = s.ctx ∧ ∀ v p, p < 64 → v ≠ vd → t.hq v p = s.hq v p)) ∧
    (∀ v : BitVec 128,
      (∃ t, exec (.hostRegisterWrite (.hqbase vd q) v) s = .next t ∧ Say.QueueOnly s t vd q ∧
        (h.current.state = 0#2 → ∃ b : Word, t.hq vd q = { h with base := b } ∧ b.toNat = v.toNat % 2 ^ 64 / 64 * 64) ∧
        (h.current.state ≠ 0#2 → t = s)) ∧
      (∃ t, exec (.hostRegisterWrite (.hqctl vd q) v) s = .next t ∧ Say.QueueOnly s t vd q ∧
        (v.toNat % 8 = 0 →
          let cap := v.toNat / 2 ^ 16 % 32
          let h2 := t.hq vd q
          h2.work = h.work ∧ h2.base = h.base ∧
          h2.log2cap.toNat = (if h.current.state = 0#2 ∧ 4 ≤ cap ∧ cap ≤ 16 then cap else h.log2cap.toNat) ∧
          h2.hostr = (if s.featOn vd 1 then v.getLsbD 21 else h.hostr) ∧
          h2.msix.toNat = (if s.featOn vd 2 then v.toNat / 256 % 256 else h.msix.toNat))) ∧
      (∃ t, exec (.hostRegisterWrite (.drvfeat vd) v) s = .next t ∧ t.hqs = s.hqs ∧ t.mem = s.mem ∧
        t.feat vd = { s.feat vd with drv := v }))

namespace Sys2Proof.Say

/-- A queue consumes packets: running or quarantined (R397). -/
def Consumes (h : HQueue) : Prop := h.work.state = 1#2 ∨ h.work.state = 3#2

/-- A queue whose thread takes its next packet p, of bits p: mapped, running or quarantined, not blocked, work
unserved, not below EIDX, no effect of this packet made yet (R394 to R396). -/
def Served (s : State) (vd q p : Nat) : Prop :=
  let h := s.hq vd q
  Up s vd ∧ q < 64 ∧ h.thread.isSome = true ∧ h.waiting = none ∧ Consumes h ∧ h.work.ridx ≠ h.work.widx ∧
    ((h.eidx - h.work.ridx).toNat = 0 ∨ 2 ^ 31 ≤ (h.eidx - h.work.ridx).toNat) ∧ h.eph = false ∧
    h.stopReq = false ∧ s.packet vd q = .ok p

/-- A packet without NOTIFY has had its effect: RIDX and EIDX past it, EPH 0; one with NOTIFY: EIDX at it, EPH 1,
still at RIDX (R396). -/
def Took (s t : State) (vd q p : Nat) : Prop :=
  let h := s.hq vd q
  let k := t.hq vd q
  k.waiting = none ∧
  (bitOf p 8 = false → k.work.ridx = h.work.ridx + 1#32 ∧ k.eidx = h.work.ridx + 1#32 ∧ k.eph = false) ∧
  (bitOf p 8 = true → k.work.ridx = h.work.ridx ∧ k.eidx = h.work.ridx ∧ k.eph = true)

/-- A NOTIFY adds one to the bound counter and to nothing else; without such a counter no memory changes (R392). -/
def Noted (s t : State) (vd q : Nat) : Prop :=
  let n := (s.hq vd q).work.ncnt
  (n = 0#64 → t.mem = s.mem) ∧
  ∀ o, n ≠ 0#64 → s.walk vd (s.vdPart vd) n.toNat .rw = .ok o →
    t.natAt o.pa 8 = min (s.natAt o.pa 8 + 1) (2 ^ 64 - 1) ∧ SameBut s t o.pa 8

/-- A packet with no main effect is complete: RIDX past it; without NOTIFY (EIDX, EPH) stays and no memory changes; the
NOTIFY, where there is one, is made with it, and EIDX is past it (R396). -/
def Passed (s t : State) (vd q p : Nat) : Prop :=
  let h := s.hq vd q
  let k := t.hq vd q
  k.waiting = none ∧ k.work.ridx = h.work.ridx + 1#32 ∧
  (bitOf p 8 = false → k.eidx = h.eidx ∧ k.eph = h.eph ∧ t.mem = s.mem) ∧
  (bitOf p 8 = true → k.eidx = h.work.ridx + 1#32 ∧ k.eph = false ∧ Noted s t vd q)

/-- The packet's kind is k, its header's reserved bits and every byte past `used` are zero (R392, R393). -/
def Kind (p k used : Nat) : Prop := bitsOf p 0 8 = k ∧ bitsOf p 9 23 = 0 ∧ p / 2 ^ (8 * used) = 0

/-- The instruction of a packet kind. -/
def packetOf (vd q : Nat) : Nat → Instr
  | 0 => .nopPacket vd q
  | 1 => .launch vd q
  | 2 => .copyPacket vd q
  | 3 => .signal vd q
  | 4 => .wait vd q
  | 5 => .bindPacket vd q
  | 6 => .cancelPacket vd q
  | _ => .fencePacket vd q

end Sys2Proof.Say

/-- R392 to R397: packets. -/
def Obligations.PacketsTakeEffectOnce : Prop :=
  ∀ (s : State) (vd q p : Nat), Say.Served s vd q p →
    let h := s.hq vd q
    let part := s.vdPart vd
    let cnt := bitsOf p 64 64
    let good := cnt % 8 = 0 ∧ (∀ r ∈ s.regions, r.part = part → cnt + 8 ≤ r.base.toNat ∨ r.base.toNat + 256 * r.sectors ≤ cnt) ∧
      s.window part cnt 8 = none
    (Say.Kind p 0 8 → ∃ t, exec (.nopPacket vd q) s = .next t ∧ Say.Passed s t vd q p) ∧
    (Say.Kind p 7 8 → h.work.outc = 0 → ∃ t, exec (.fencePacket vd q) s = .next t ∧ Say.Passed s t vd q p) ∧
    (Say.Kind p 7 8 → h.work.outc ≠ 0 → ∃ t, exec (.fencePacket vd q) s = .next t ∧ Say.QueueOnly s t vd q ∧
      t.hq vd q = { h with begun := true }) ∧
    (∀ o, Say.Kind p 3 24 → good → s.walk vd part cnt .rw = .ok o →
      ∃ t, exec (.signal vd q) s = .next t ∧ Say.Took s t vd q p ∧ Say.SameBut s t o.pa 8 ∧
        t.natAt o.pa 8 = min (s.natAt o.pa 8 + bitsOf p 128 64) (2 ^ 64 - 1)) ∧
    (Say.Kind p 5 16 → good ∨ cnt = 0 → ∃ t, exec (.bindPacket vd q) s = .next t ∧ Say.Took s t vd q p ∧ t.mem = s.mem ∧
      (t.hq vd q).work.ncnt.toNat = cnt) ∧
    (∀ o, Say.Kind p 4 28 → good → s.walk vd part cnt .r = .ok o →
      (bitsOf p 128 64 ≤ s.natAt o.pa 8 → ∃ t, exec (.wait vd q) s = .next t ∧ Say.Passed s t vd q p) ∧
      (s.natAt o.pa 8 < bitsOf p 128 64 → ∃ t, exec (.wait vd q) s = .next t ∧ t.mem = s.mem ∧
        (t.hq vd q).work = h.work ∧ (t.hq vd q).eidx = h.eidx ∧ (t.hq vd q).eph = h.eph ∧
        ∃ w : PktWait, (t.hq vd q).waiting = some w ∧ w.cnt.toNat = cnt ∧ w.value.toNat = bitsOf p 128 64 ∧
          w.since = s.now ∧ w.tmo = bitsOf p 192 32)) ∧
    (Say.Kind p 6 17 → good → cnt ≠ 0 → bitsOf p 128 8 ≤ 3 →
      (∀ s1, s.cancelLevel part (BitVec.ofNat 64 cnt) (bitsOf p 128 8) = some s1 →
        ∃ t, exec (.cancelPacket vd q) s = .next t ∧ t.tasks = s1.tasks ∧ t.cancels = s1.cancels ∧ t.mem = s1.mem ∧
          (t.hq vd q).eidx = (if bitOf p 8 then (s1.hq vd q).work.ridx else (s1.hq vd q).work.ridx + 1#32)) ∧
      (s.cancelLevel part (BitVec.ofNat 64 cnt) (bitsOf p 128 8) = none →
        ∃ t, exec (.cancelPacket vd q) s = .next t ∧ Say.Took s t vd q p ∧ t.mem = s.mem ∧ (t.hq vd q).work.ecode = 9#8)) ∧
    (∀ n s1, Say.Kind p 2 16 → cnt % 128 = 0 → State.chainSpaces vd q 65536 cnt s = (s1, true) → h.work.outc < 4 → n < 4 →
      (∀ j < 4, (s.hostChan (4 * (q % 2) + j)).busy = decide (j < n)) →
      ∃ t, exec (.copyPacket vd q) s = .next t ∧ t.mem = s1.mem ∧ (t.hq vd q).work.outc = h.work.outc + 1 ∧
        (t.hq vd q).work.ridx = h.work.ridx + 1#32 ∧ (t.hq vd q).eidx = h.work.ridx + 1#32 ∧ (t.hq vd q).eph = false ∧
        let c := t.hostChan (4 * (q % 2) + n)
        c.busy = true ∧ c.notify = bitOf p 8 ∧ c.vd = vd ∧ c.q = q ∧ c.chan.run = true ∧
          c.chan.cur = some (.record (BitVec.ofNat 64 cnt))) ∧
    (∀ s1, Say.Kind p 2 16 → cnt % 128 = 0 → State.chainSpaces vd q 65536 cnt s = (s1, false) → h.work.outc < 4 →
      ∃ t, exec (.copyPacket vd q) s = .next t ∧ t.mem = s1.mem ∧ (t.hq vd q).work.state = 3#2 ∧
        (t.hq vd q).work.ecode = 6#8 ∧ (t.hq vd q).work.ridx = h.work.ridx + 1#32) ∧
    (∀ rs, Say.Kind p 1 20 → 1 ≤ bitsOf p 128 16 → bitsOf p 128 16 ≤ 256 → bitsOf p 144 16 ≤ 512 →
      s.launchRecords vd q cnt (bitsOf p 128 16) = .ok rs → (∀ r ∈ rs, s.recordBad part r.1 r.2 = false) →
      let ts := rs.map (fun r => let k := { s.taskOf part vd (BitVec.ofNat 64 r.1) r.2 (some (vd, q)) with pfw := bitsOf p 144 16 }
        if h.work.state = 3#2 then { k with cls := 3 } else k)
      let dest := if h.work.state = 3#2 then 15 else part
      let s1 := s.postAll ts dest
      (s.overflowRoom ts dest = true → ∃ t, exec (.launch vd q) s = .next t ∧ t.tasks = s1.tasks ∧ t.mem = s1.mem ∧
        (t.hq vd q).eidx = (if bitOf p 8 then (s1.hq vd q).work.ridx else (s1.hq vd q).work.ridx + 1#32)) ∧
      (s.overflowRoom ts dest = false → ∃ t, exec (.launch vd q) s = .next t ∧ t.tasks = s.tasks ∧
        (t.hq vd q).work.state = 2#2 ∧ (t.hq vd q).work.ecode = 10#8)) ∧
    (∀ k c, k < 8 → (c = 1 ∧ 8 ≤ bitsOf p 0 8 ∨ c = 2 ∧ bitsOf p 0 8 = k ∧ bitsOf p 9 23 ≠ 0 ∨
        c = 8 ∧ Say.Kind p 3 24 ∧ k = 3 ∧ cnt % 8 ≠ 0) →
      ∃ t, exec (Say.packetOf vd q k) s = .next t ∧ t.mem = s.mem ∧ (t.hq vd q).work.state = 3#2 ∧
        (t.hq vd q).work.ecode.toNat = c ∧ (t.hq vd q).work.ridx = h.work.ridx + 1#32)

namespace Sys2Proof.Say

/-- An unmapped queue that consumes packets (R388). -/
def Waits (s : State) (v p : Nat) : Prop := (s.hq v p).thread = none ∧ Consumes (s.hq v p)

/-- A stored write index that the queue has not served yet (R388). -/
def Ahead (h : HQueue) (w : BitVec 32) : Prop :=
  1 ≤ (w - h.work.ridx).toNat ∧ (w - h.work.ridx).toNat < 2 ^ 31

end Sys2Proof.Say

/-- R388, R393, R395, R396: threads. -/
def Obligations.ThreadsGoOnWithTheirQueues : Prop :=
  ∀ (s : State) (vd q : Nat),
    let h := s.hq vd q
    (∀ w o, h.waiting = some w → h.thread.isSome = true → Say.Consumes h → s.walk vd (s.vdPart vd) w.cnt.toNat .r = .ok o →
      w.value.toNat ≤ s.natAt o.pa 8 → h.stopReq = false →
      ∃ t, exec (.waitSatisfied vd q) s = .next t ∧ (t.hq vd q).waiting = none ∧
        (∀ p, s.packet vd q = .ok p → Say.Passed s t vd q p)) ∧
    (∀ w, h.waiting = some w → w.tmo ≠ 0 → w.since + 1000 * w.tmo ≤ s.now →
      ∃ t, exec (.waitTimeout vd q) s = .next t ∧ t.mem = s.mem ∧ (t.hq vd q).waiting = none ∧
        (t.hq vd q).work = { Say.block h with state := 2#2, ecode := 7#8 }) ∧
    (∀ die ch, let c := s.hostChan (4 * die + ch)
      c.busy = true → c.chan.run = false → c.vd = vd → c.q = q →
      ∃ t, exec (.copyChainEnd die ch) s = .next t ∧ t.hostChan (4 * die + ch) = HostChan.idle ∧
        t.hq vd q = { h with work := { h.work with outc := h.work.outc - 1 } } ∧
        (c.notify = false ∨ h.work.ncnt = 0#64 → t.mem = s.mem) ∧
        (∀ o, c.notify = true → h.work.ncnt ≠ 0#64 → s.walk vd (s.vdPart vd) h.work.ncnt.toNat .rw = .ok o →
          t.natAt o.pa 8 = min (s.natAt o.pa 8 + 1) (2 ^ 64 - 1) ∧ Say.SameBut s t o.pa 8)) ∧
    (h.thread.isSome = true → h.waiting = none → 100000 ≤ h.idle →
      ∃ t, exec (.firmwareRestart vd q) s = .next t ∧ t.ctx = s.ctx ∧ t.tasks = s.tasks ∧
        (t.hq vd q).inline = none ∧ (t.hq vd q).eidx = h.eidx ∧ (t.hq vd q).eph = h.eph ∧
        (t.hq vd q).work.outc = (s.hostChans.filter (fun e => e.2.busy && e.2.vd == vd && e.2.q == q)).length ∧
        (t.hq vd q).work.state = h.current.state ∧ (t.hq vd q).work.ridx = h.current.ridx ∧
        (t.hq vd q).work.ecode = h.current.ecode ∧ (t.hq vd q).work.widx = h.work.widx ∧
        (t.hq vd q).work.ncnt = h.work.ncnt) ∧
    (∀ th w l1 l2, Say.Up s vd → q < 64 → th < 32 → (∀ e ∈ s.hqs, e.1 % 2 = q % 2 → e.2.thread ≠ some th) →
      Say.Waits s vd q → s.stores = l1 ++ (hqKey vd q, w) :: l2 → Say.Ahead h w →
      (∀ e ∈ l1, ∀ v p, e.1 = hqKey v p → p < 64 → p % 2 = q % 2 → Say.Waits s v p → ¬ Say.Ahead (s.hq v p) e.2) →
      ∃ t, exec (.queueMap vd q th) s = .next t ∧ Say.QueueOnly s t vd q ∧ (t.hq vd q).thread = some th ∧
        (t.hq vd q).work = Say.ownBlock h vd q ∧ (t.hq vd q).current = Say.ownBlock h vd q ∧ (t.hq vd q).seq = h.seq + 1) ∧
    (h.thread.isSome = true → (h.work.ridx = h.work.widx ∨ ∃ w, h.waiting = some w ∧ w.since + 20000 < s.now) →
      (∀ th < 32, ∃ e ∈ s.hqs, e.1 % 2 = q % 2 ∧ e.2.thread = some th) →
      (∃ e ∈ s.stores, ∃ v p, e.1 = hqKey v p ∧ p < 64 ∧ p % 2 = q % 2 ∧ Say.Waits s v p ∧ Say.Ahead (s.hq v p) e.2) →
      ∃ t, exec (.queueUnmap vd q) s = .next t ∧ Say.QueueOnly s t vd q ∧ (t.hq vd q).thread = none ∧
        (t.hq vd q).work = Say.block h ∧ (t.hq vd q).current = Say.block h ∧ (t.hq vd q).seq = h.seq + 1) ∧
    (Say.Up s vd → q < 64 → h.thread.isSome = true → h.waiting = none → Say.Consumes h →
      h.work.ridx ≠ h.work.widx → h.stopReq = false → ∀ k < 8,
      (1 ≤ (h.eidx - h.work.ridx).toNat → (h.eidx - h.work.ridx).toNat < 2 ^ 31 →
        ∃ t, exec (Say.packetOf vd q k) s = .next t ∧ t.mem = s.mem ∧ t.tasks = s.tasks ∧
          (t.hq vd q).work.ridx = h.work.ridx + 1#32 ∧ (t.hq vd q).eidx = h.eidx) ∧
      (h.eidx = h.work.ridx → h.eph = true →
        ∃ t, exec (Say.packetOf vd q k) s = .next t ∧ t.tasks = s.tasks ∧ (t.hq vd q).work.ridx = h.work.ridx + 1#32 ∧
          (t.hq vd q).eidx = h.work.ridx + 1#32 ∧ (t.hq vd q).eph = false ∧ Say.Noted s t vd q))

namespace Sys2Proof.Say

/-- A task of the same identity stands at the next state, every other task as it was. -/
def TaskNow (s t : State) (n : Nat) (P : Task → Prop) : Prop :=
  (∃ k, t.findTask n = some k ∧ P k) ∧ ∀ m, m ≠ n → t.findTask m = s.findTask m

/-- The same, every other task as it was but for its place in the heap or the overflow list, which a completion
settles anew (R332). -/
def TaskDone (s t : State) (n : Nat) (P : Task → Prop) : Prop :=
  (∃ k, t.findTask n = some k ∧ P k) ∧
    ∀ m, m ≠ n → (t.findTask m).map (fun k => { k with overflow := false }) =
      (s.findTask m).map (fun k => { k with overflow := false })

/-- A cause is pending in a context. -/
def Pending (t : State) (m : Nat) (code : BitVec 8) : Prop := ∃ c, t.findCtx m = some c ∧ ∃ p ∈ c.posted, p.code = code

/-- Whether a context's progress interval has run out, its expiry not reported (R32, R340). -/
def RanOut (c : Ctx) : Prop := c.progT = 0 ∧ ∀ p ∈ c.posted, p.code ≠ 0x10#8

end Sys2Proof.Say

/-- R31 to R33, R333, R338 to R340: a task's times. -/
def Obligations.TasksAreReleasedAndJudged : Prop :=
  ∀ (s : State) (n : Nat),
    (∀ k, s.findTask n = some k → k.state = .pending → k.release ≤ s.now →
      ∃ t, exec (.taskRelease n) s = .next t ∧ Say.TaskNow s t n (fun u =>
        u.state = if k.pairs.all (fun p => s.pairOk k.part k.die p) = true then .ready else .waiting)) ∧
    (∀ k, s.findTask n = some k → k.state = .held →
      ((∀ u ∈ s.tasks, u.part = k.part → u.ptag = k.ptag → u.state = .held → u.id < k.id → u.cphase = k.cphase) →
        s.quiet k.part k.ptag none = true →
        ∃ t, exec (.heldTaskRelease n) s = .next t ∧ Say.TaskNow s t n (fun u => u = { k with state := .pending })) ∧
      ((∃ u ∈ s.tasks, u.part = k.part ∧ u.ptag = k.ptag ∧ u.state = .running ∧ u.cphase ≠ k.cphase) →
        exec (.heldTaskRelease n) s = .next s)) ∧
    (∀ k, s.findTask n = some k → k.state ≠ .complete → k.missed = false → k.sched ≤ s.now →
      ∃ t, exec (.deadlineMiss n) s = .next t ∧
        Say.TaskDone s t n (fun u => u.missed = true ∧ u.state = if k.miss = 1 then .complete else k.state) ∧
        (k.miss ≠ 1 → Say.TaskNow s t n (fun u => u = { k with missed := true })) ∧
        (k.miss = 0 → k.dispatched = true → ∀ m ∈ k.members, (s.findCtx m).isSome = true → Say.Pending t m 0x11#8) ∧
        (2 ≤ k.miss → (t.qlevel k.part k.queue).level = min 3 ((s.qlevel k.part k.queue).level + 1))) ∧
    (∀ k, s.findTask n = some k → k.missed = true ∨ s.now < k.sched → exec (.deadlineMiss n) s = .next s) ∧
    (∀ k m c, s.findTask n = some k → k.prog ≠ 0 → (k.state = .running ∨ k.state = .parked) → m ∈ k.members →
      s.findCtx m = some c → Say.RanOut c →
      ((∀ m' ∈ k.members, ∀ c', s.findCtx m' = some c' → Say.RanOut c' → c'.progX = 0) →
        ∃ t, exec (.progress n) s = .next t ∧ Say.Pending t m 0x10#8 ∧ (t.findCtx m).map Ctx.progX = some 1 ∧
          t.tasks = s.tasks) ∧
      (c.progX ≠ 0 → ∃ t, exec (.progress n) s = .next t ∧ Say.TaskDone s t n (fun u => u.state = .complete))) ∧
    (∀ k, s.findTask n = some k → k.state ≠ .complete → k.overTold = false →
      (if k.cls = 3 then (k.budget + 1) / 2 else k.budget) < k.used →
      ∃ t, exec (.budgetOverrun n) s = .next t ∧ Say.TaskNow s t n (fun u => u = { k with overTold := true }) ∧
        exec (.budgetOverrun n) t = .next t) ∧
    (∀ p die, (s.die die).alive = true → s.partEnabled p = true → (s.devicesOf p).length ≤ 1 →
      (die = 0 ∨ (s.die 0).alive = false) → Sparse.get (fun _ => 0) s.admAt (2 * p + die) + 64000 ≤ s.now →
      ∃ t, exec (.admissionEvaluation p die) s = .next t ∧ t.tasks = s.tasks ∧ t.ctx = s.ctx ∧
        ((∀ k ∈ s.tasks, k.runPart ≠ p) → ∀ q < 64,
          let above (j : Nat) : Prop := j < 64 ∧ s.queueOn p j = true ∧ (s.qlevel p j).floor < (s.qlevel p j).level
          let old := s.qlevel p q
          ((above q ∧ (s.qcfg p q).cls ≤ 2 ∧ ∀ j, above j → (s.qcfg p j).cls ≤ 2 → (s.qcfg p q).cls ≤ (s.qcfg p j).cls) →
            t.qlevel p q = { old with level := old.level - 1 }) ∧
          (¬ (above q ∧ (s.qcfg p q).cls ≤ 2 ∧
            ∀ j, above j → (s.qcfg p j).cls ≤ 2 → (s.qcfg p q).cls ≤ (s.qcfg p j).cls) → t.qlevel p q = old))) ∧
    (∀ p die, s.now < Sparse.get (fun _ => 0) s.admAt (2 * p + die) + 64000 →
      exec (.admissionEvaluation p die) s = .next s)

/-- R17, R334, R335: dispatch; R383: slices; R397: the rotation. -/
def Obligations.CoresAreGivenAndSliced : Prop :=
  ∀ (s : State) (p die : Nat),
    (∀ (k : Task) (core sl : Nat) (rest : List Nat) (pc : Word), s.tasks = [k] → (s.die die).alive = true →
      s.partEnabled p = true → s.mayConsider p die k = true → k.cls ≠ 3 → k.crew = 1 → k.dispatched = false → k.members = [] →
      0 < s.cfgField (0x400 + p) 40 13 → k.entry (s.qlevel k.part k.queue).level = some pc → s.freeSlots k.part = sl :: rest →
      (∀ c ∈ s.allCtxs, c.resident = false ∧ (c.task = none → c.place ≠ .memory)) → (∀ j, (s.coreSlot j).run = none) →
      core < 640 → s.eligible k core = true → (∀ j, s.eligible k j = true → j = core) →
      let id := (s.cfg (0x430 + k.part)).toNat / 4096 * 4096 + 1228800 * sl
      let lvl := (s.qlevel k.part k.queue).level
      ∃ t c, exec (.schedulerSelection p die) s = .next t ∧ t.findCtx id = some c ∧ (t.coreSlot core).run = some id ∧
        Say.TaskNow s t k.id (fun u => u.state = .running ∧ u.dispatched = true ∧ u.disp = lvl ∧ u.members = [id]) ∧
        c.place = .core core ∧ c.pc = pc ∧ c.level = .tenant ∧ c.thnd = false ∧ c.shnd = false ∧ c.task = some k.id ∧
        (∀ r < 64, c.base.getS r = { pois := false, bits := if r = 1 then k.arg else if r = 3 then 1#64
          else if r = 4 then BitVec.ofNat 64 lvl else if r = 5 then k.record
          else if r = 61 then (s.qcfg k.part k.queue).tp
          else if r = 62 then (s.qcfg k.part k.queue).stack + BitVec.ofNat 64 (2 ^ (s.qcfg k.part k.queue).ssh * (sl + 1))
          else 0#64 }) ∧
        (∀ i < 8, c.base.fifo.list[i]? = some (k.lnote.toNat / 16 ^ i % 16)) ∧
        c.base.vc = 64#7 ∧ c.base.ashape = 15#4 ∧ c.base.emode = 0#4) ∧
    (∀ (x : SliceSt) (c : Ctx), s.slice p = some x → x.ended = false → 2 ≤ (s.devicesOf p).length →
      x.start + 1000 * s.cfgField (0x5C0 + x.vdn) 36 20 ≤ s.now → s.residents x.vdn = [c] → s.running c = true →
      s.findCtx c.id = some c →
      ∃ t, exec (.sliceEnd p) s = .next t ∧ t.slice p = some { x with ended := true } ∧ Say.Pending t c.id 0x12#8 ∧
        t.mem = s.mem) ∧
    (∃ t, exec (.sliceStart p) s = .next t ∧
      let vs := s.devicesOf p
      (vs.length ≤ 1 → t.slice p = none ∧ t.mem = s.mem ∧ t.ctx = s.ctx) ∧
      (2 ≤ vs.length → s.slice p = none → (∀ w ∈ vs, vs.head? ≠ some w → s.residents w = []) →
        (∃ v, vs.head? = some v ∧ t.slice p = some { vdn := v, start := s.now, ended := false }) ∧
          t.mem = s.mem ∧ t.ctx = s.ctx) ∧
      (∀ w (c : Ctx), 2 ≤ vs.length → s.slice p = none → w ∈ vs → vs.head? ≠ some w → s.residents w = [c] →
        (∀ v ∈ vs, vs.head? ≠ some v → v ≠ w → s.residents v = []) → s.running c = true → s.findCtx c.id = some c →
        t.slice p = none ∧ Say.Pending t c.id 0x12#8 ∧ t.mem = s.mem) ∧
      (∀ x, 2 ≤ vs.length → s.slice p = some x → x.ended = true → s.residents x.vdn = [] →
        t.mem = s.mem ∧ t.ctx = s.ctx ∧ ∃ v ∈ vs, t.slice p = some { vdn := v, start := s.now, ended := false } ∧
          ((x.vdn < v ∧ ∀ w ∈ vs, x.vdn < w → v ≤ w) ∨ ((∀ w ∈ vs, w ≤ x.vdn) ∧ vs.head? = some v))) ∧
      (∀ x, 2 ≤ vs.length → s.slice p = some x → x.ended = false → x.vdn ∈ vs → t = s)) ∧
    (∀ i, s.nextDemoted = some i → (s.die die).alive = true → s.demAt + 1000000 ≤ s.now →
      (∀ u ∈ s.tasks, u.cls = 3 → u.state = .running → ∀ m ∈ u.members, ∀ c, s.findCtx m = some c →
        c.thnd = false ∧ c.shnd = false) →
      ∃ t, exec (.quarantineRotation die) s = .next t ∧ t.demCur = i ∧ t.demAt = s.now ∧ t.demoted = s.demoted)

namespace Sys2Proof.Say

/-- The focused context runs with no cause to take, no handler of it at the end of its budget, and waits, as w says, at
the instruction i. -/
def Here (s : State) (w : WaitSt) (i : Instr) : Prop :=
  s.running s.ctx = true ∧ s.ctx.hasCause = false ∧
    (s.ctx.thnd = true → s.ctx.shnd = false → s.ctx.tbudget ≠ 0) ∧ s.waitHere? = some w ∧ s.waiting = some i

/-- An event performs the waiting instruction again, as its execution would. -/
def Again (s : State) (ev i : Instr) : Prop := ∃ t, exec i s = .next t ∧ exec ev s = .next (t.focus s.ctx.id)

/-- A waiting pop of the focused context is over: an entry has been delivered to it, or reached the scope check in its
turn; or the queue holds one and no waiter comes before it; or the queue is closed and empty (R33, R132). -/
def PopComes (s : State) (w : WaitSt) (q : QDesc) : Prop :=
  (∃ v, w.given = .entry v) ∨ w.given = .met ∨ (q.count ≠ 0 ∧ ∀ c ∈ s.ctxs, s.aheadOf q.pa c = false) ∨ (q.count = 0 ∧ q.closed = true)

/-- The order in which posted causes are taken: ascending code, COPY_ERROR last by channel (R345). -/
def rank (p : Posted) : Nat := if p.code = 0x16#8 then 256 + p.ch else p.code.toNat

/-- Causes that go to the tenant handler: FETCH_FAULT and DATA_FAULT where stage one faults (R342, R346). -/
def TenantCause (code sub : BitVec 8) : Prop :=
  code ∉ [0x0F#8, 0x13#8, 0x14#8, 0x19#8] ∧ (code ∈ [0x04#8, 0x05#8] → sub ≠ 1#8)

/-- Nothing of a bank is under way: no entry has begun, no push is owed, no line is in part (R22, R351). -/
def Idle (b : RegBank) : Prop :=
  b.lateCells = [] ∧ ∀ e, ∀ en ∈ b.queue e, en.popsTaken = false ∧ en.pushOwed = false

end Sys2Proof.Say

/-- R345: pending causes; R351: the forced save; R55: wakes. -/
def Obligations.CausesAreTakenInOrder : Prop :=
  ∀ (s : State), let c := s.ctx
    (c.level = .tenant → c.thnd = false → c.shnd = false → c.risen = false → c.tvec ≠ 0#64 → s.running c = true →
      (∀ (i : Nat) (l : Latch), i < 4 → c.latch i = some l → (∀ j < i, c.latch j = none) → Say.TenantCause l.code l.sub →
        ∃ t, exec (.takePendingCause c.id) s = .next t ∧ t.ctx.thnd = true ∧ t.ctx.pc = c.tvec ∧ t.ctx.tepc = c.pc ∧
          t.ctx.tval = l.addr ∧ t.ctx.tcause.toNat % 256 = l.code.toNat ∧ t.ctx.tcause.toNat / 256 % 256 = l.sub.toNat ∧
          t.ctx.tcause.toNat / 65536 % 8 = i + 1 ∧ t.ctx.latch i = none ∧ (∀ j, j ≠ i → t.ctx.latch j = c.latch j) ∧
          t.ctx.posted = c.posted ∧ t.mem = s.mem) ∧
      (∀ p ∈ c.posted, (∀ j < 4, c.latch j = none) → (∀ q ∈ c.posted, q ≠ p → Say.rank p < Say.rank q) →
        Say.TenantCause p.code p.sub →
        ∃ t, exec (.takePendingCause c.id) s = .next t ∧ t.ctx.thnd = true ∧ t.ctx.pc = c.tvec ∧ t.ctx.tepc = c.pc ∧
          t.ctx.tval = p.val ∧ t.ctx.tcause.toNat % 256 = p.code.toNat ∧ t.ctx.tcause.toNat / 256 % 256 = p.sub.toNat ∧
          t.ctx.posted = c.posted.filter (fun q => q != p) ∧ t.mem = s.mem)) ∧
    (c.thnd = true ∨ c.shnd = true → exec (.takePendingCause c.id) s = .next s) ∧
    (c.thnd = true → c.shnd = false → c.tbudget = 0 → s.running c = true → Say.Idle c.tbank → c.base.lateCells = [] →
      c.sbank.lateCells = [] →
      ∃ t x, exec (.forcedSave c.id) s = .next t ∧ t.findCtx c.id = some x ∧ x.place = .memory ∧ x.thnd = false ∧
        x.pc = c.tepc ∧ x.forced = true ∧ x.base = c.base ∧ (t.coreSlot c.core).run ≠ some c.id ∧
        (∀ n k, c.task = some n → s.findTask n = some k → k.state = .running →
          Say.TaskDone s t n (fun u => u.state = .ready))) ∧
    (0 < c.tbudget → exec (.forcedSave c.id) s = .next s) ∧
    (∀ (e : Eng) (en : Entry) (rest : List Entry), c.thnd = true → c.shnd = false → e ≠ .x → c.tbank.queue e = en :: rest →
      en.popsTaken = true → en.pushOwed = false → en.stall ≠ .lock → (∀ f, en.instr ≠ .lfeed f) → (∀ f, en.instr ≠ .lmask f) →
      exec (.forcedSave c.id) s = .next s) ∧
    (∀ (m : Nat) (x : Ctx) (n : Nat), s.findCtx m = some x →
      (∃ t y, exec (.bankWakeComplete m false n) s = .next t ∧ t.findCtx m = some y ∧ t.mem = s.mem ∧
        (∀ j, j ≠ n → y.tile j = x.tile j) ∧
        ((x.tile n).waking = false → y.tile n = x.tile n) ∧
        ((x.tile n).waking = true → (x.tile n).dropAtWake = false → y.tile n = { x.tile n with waking := false }) ∧
        ((x.tile n).waking = true → (x.tile n).dropAtWake = true →
          (y.tile n).state = .off ∧ (y.tile n).waking = false ∧ (y.tile n).cells = [])) ∧
      (∃ t y, exec (.bankWakeComplete m true n) s = .next t ∧ t.findCtx m = some y ∧ t.mem = s.mem ∧
        (∀ j, j ≠ n → y.padBank j = x.padBank j) ∧ (y.padBank n).waking = false ∧
        ((x.padBank n).waking = false → y = x) ∧
        ((x.padBank n).waking = true → (x.padBank n).dropAtWake = false ∨ x.pinned n = true →
          (y.padBank n).state = (x.padBank n).state ∧ y.pad = x.pad) ∧
        ((x.padBank n).waking = true → (x.padBank n).dropAtWake = true → x.pinned n = false →
          (∃ e ∈ x.chans, e.2.run = true ∧ e.2.stalled = true) →
          y.padBank n = { x.padBank n with waking := false } ∧ y.pad = x.pad) ∧
        ((x.padBank n).waking = true → (x.padBank n).dropAtWake = true → x.pinned n = false →
          (∀ e ∈ x.chans, e.2.run = true → e.2.stalled = false) →
          (y.padBank n).state = .off ∧ ∀ a, a / 16384 = n → y.padByte a = 0#8)))

/-- R22, R33, R103, R109, R127, R177, R218: what ends a wait. -/
def Obligations.WaitsEndWhenTheyAreMet : Prop :=
  ∀ (s : State), let id := s.ctx.id
    (∀ (w : WaitSt) (i : Instr), Say.Here s w i →
      (∀ pa v f, w.kind = .counter pa v → i = .cwait f →
        (v.toNat ≤ s.natAt pa 8 → Say.Again s (.cwaitSatisfied id) i) ∧
        (w.given = .met → Say.Again s (.cwaitSatisfied id) i) ∧
        (s.natAt pa 8 < v.toNat → w.given ≠ .met → exec (.cwaitSatisfied id) s = .next s)) ∧
      (∀ v f, w.kind = .time v → i = .waitt f → Say.Again s (.waittExpiry id) i) ∧
      (∀ g k f, w.kind = .gutter g k → i = .gwait f → Say.Again s (.gwaitSatisfied id) i) ∧
      (∀ d r q f, w.kind = .pop d none r → i = .qpop f → s.qdesc d.toNat = some q →
        (Say.PopComes s w q → Say.Again s (.queueEntryDelivered id) i) ∧
        (¬ Say.PopComes s w q → exec (.queueEntryDelivered id) s = .next s)) ∧
      (∀ d n r q s1 v, w.kind = .pop d (some n) r → s.qdesc d.toNat = some q → Say.PopComes s w q →
        (s.ctx.qbind n).held = none → s.popQueue ((s.ctx.qbind n).desc.getD 0#64) (s.ctx.qbind n).scope.toNat = .entry s1 v →
        ∃ t, exec (.queueEntryDelivered id) s = .next t ∧ (t.ctx.qbind n).held = some v ∧ t.bank.wait = none ∧
          t.mem = s1.mem ∧ t.ctx.pc = s.ctx.pc) ∧
      (∀ d n r v, w.kind = .pop d (some n) r → (s.ctx.qbind n).held = some v →
        ∃ t, exec (.queueEntryDelivered id) s = .next t ∧ (t.ctx.qbind n).held = some v ∧ t.bank.wait = none ∧
          t.mem = s.mem ∧ t.ctx.pc = s.ctx.pc) ∧
      (∀ va m v, w.kind = .version va m v → (∃ f, i = .vld f ∨ ∃ f, i = .vlds f) →
        ((w.given = .missing ∨ ∃ u, w.given = .line u) → Say.Again s (.versionWaitWake id) i ∧
          exec (.versionWaitRetry id) s = .next s) ∧
        (∀ at_, w.given = .retry at_ → exec (.versionWaitWake id) s = .next s ∧
          (at_ ≤ s.now → Say.Again s (.versionWaitRetry id) i) ∧
          (s.now < at_ → exec (.versionWaitRetry id) s = .next s)) ∧
        (w.given = .nothing → exec (.versionWaitWake id) s = .next s ∧ exec (.versionWaitRetry id) s = .next s)) ∧
      (∀ va v, w.kind = .creation va v →
        ((∃ f, i = .vst f ∨ ∃ f, i = .vsts f) → Say.Again s (.creationRetry (.ctx id)) i) ∧
        (w.given = .met → exec (.versionTimeout (.ctx id)) s = .next s) ∧
        (w.given ≠ .met → s.ctx.vwlim ≠ 0#20 → w.since + 1000 * s.ctx.vwlim.toNat ≤ s.now →
          exec (.versionTimeout (.ctx id)) s = .next ((s.fault (Cause.seq 0x0C#8 0
            (BitVec.ofNat 64 (va.toNat / 256 * 256)))).focus id)) ∧
        (s.ctx.vwlim = 0#20 ∨ s.now < w.since + 1000 * s.ctx.vwlim.toNat →
          exec (.versionTimeout (.ctx id)) s = .next s)) ∧
      (w.kind = .other → ∀ ev ∈ [Instr.cwaitSatisfied id, .waittExpiry id, .gwaitSatisfied id, .queueEntryDelivered id,
        .creationRetry (.ctx id), .versionTimeout (.ctx id)], exec ev s = .next s)) ∧
    (∀ c x w n k, s.findCtx c = some x → s.running x = false → x.bank.wait = some w → w.pc = x.pc → x.task = some n →
      s.findTask n = some k → k.state = .parked →
      (∀ pa v, w.kind = .counter pa v → v.toNat ≤ s.natAt pa 8 → ∃ t, exec (.cwaitSatisfied c) s = .next t ∧
        t.mem = s.mem ∧ Say.TaskDone s t n (fun u => u.state = .ready)) ∧
      (∀ v, w.kind = .time v → v.toNat ≤ (Say.guest s x.vdn.toNat).toNat → ∃ t, exec (.waittExpiry c) s = .next t ∧
        t.mem = s.mem ∧ Say.TaskDone s t n (fun u => u.state = .ready))) ∧
    (∀ ch since lim a h ev, ev ∈ [Instr.versionTimeout (.channel id ch), .creationRetry (.channel id ch)] → id < 2 ^ 64 → s.ctx.resident = true → (s.ctx.chan ch).phase = .version since lim → lim ≠ 0 →
      since + lim ≤ s.now → s.curRecord ch = some (a, h) →
      ∃ t, exec ev s = .next t ∧ (t.ctx.chan ch).run = false ∧
        (t.ctx.chan ch).err = true ∧ (t.ctx.chan ch).ecode = 11#8) ∧
    (∀ ch since lim, id < 2 ^ 64 → s.ctx.resident = true → (s.ctx.chan ch).phase = .version since lim →
      (lim = 0 ∨ s.now < since + lim) →
      exec (.creationRetry (.channel id ch)) s = .next ((s.runRecord ch []).focus id))

namespace Sys2Proof.Say

/-- The copy channel n of the focused, resident context runs; its current record lies at a and its 128 bytes,
fetched, are the number h (R272, R276). -/
def Fetches (s : State) (n : Nat) (a : Word) (h : Nat) : Prop :=
  s.ctx.id < 2 ^ 64 ∧ s.ctx.resident = true ∧ (s.ctx.chan n).run = true ∧ (s.ctx.chan n).cur = some (.record a) ∧
    s.copyFetch n a.toNat 128 = .ok h

/-- A channel's walk has not begun, moves run records whole, and nothing else of the cluster holds or asks for current
(R270, R341). -/
def Free (s : State) (n : Nat) : Prop :=
  let k := s.ctx.chan n
  let u := s.cluster (clusterOf s.ctx.core)
  k.elems = 0 ∧ k.bytes = 0 ∧ k.bad = [] ∧ k.held = [] ∧ k.code = none ∧ s.parts = false ∧ u.held = [] ∧ u.pending = []

/-- Byte i of source element k of a plain record whose source map lies in global memory, in no window: the byte at its address
as the copy engine reads it, or the fill where it is out of bounds (R134, R275). -/
def CopyByte (s : State) (h : Nat) (m : TMap) (k i : Nat) (v : Byte) : Prop :=
  match m.addr k with
  | none => v = BitVec.ofNat 8 (if bitOf h 204 then bitsOf h 320 64 / 256 ^ (i % 8) else 0)
  | some a => a % min m.esize 8 = 0 ∧ s.touchesRegion s.ctx a m.esize = false ∧ s.inWindow a m.esize = none ∧
      ∃ ps, s.copyX a m.esize .r = .ok ps ∧ v = (s.copyByte (physOf ps (a + i))).1

/-- The scratchpad address of byte j of a landing from a slot on (R89). -/
def slotByte (g : Gutter) (slot j : Nat) : Nat :=
  let per := 256 * g.slotg.toNat
  256 * g.base.toNat + per * ((slot + j / per) % g.nslot.toNat) + j % per

end Sys2Proof.Say

/-- R276, R92, R93, R283: the copy engine's events. -/
def Obligations.RecordsRunAndLand : Prop :=
  ∀ (s : State),
    (∀ n a h, Say.Fetches s n a h → (s.ctx.chan n).phase = .start →
      let k := s.ctx.chan n
      (bitOf h 192 = false → ∃ t, exec (.transferRecord s.ctx.id n []) s = .next t ∧ t.mem = s.mem ∧
        (k.pend = none → t.ctx.chan n = { k with run := false }) ∧
        (∀ p, k.pend = some p → t.ctx.chan n = { k with cur := some p, pend := none })) ∧
      (bitOf h 192 = true → (bitsOf h 205 3 ≠ 0 ∨ bitsOf h 217 7 ≠ 0 ∨ bitsOf h 0 64 % 128 ≠ 0 ∨ bitsOf h 64 64 % 64 ≠ 0 ∨
          5 ≤ bitsOf h 195 3 ∨ bitOf h 200 = true ∧ bitOf h 202 = true ∨ bitOf h 203 = true ∧ bitOf h 202 = false) →
        ∃ t, exec (.transferRecord s.ctx.id n []) s = .next t ∧ (t.ctx.chan n).run = false ∧ (t.ctx.chan n).err = true ∧
          (t.ctx.chan n).ecode = 1#8 ∧ ∃ p ∈ t.ctx.posted, p.code = 0x16#8 ∧ p.ch = n) ∧
      (∀ (sm dm : TMap) (da : Nat → Nat), bitOf h 192 = true → s.recMaps n h = .ok { src := sm, dst := some dm } →
        sm.space = 0 → dm.space = 1 → bitOf h 193 = false → bitOf h 200 = false → bitOf h 201 = false →
        bitOf h 202 = false → bitsOf h 448 64 = 0 → s.recordHeld n h = false → Say.Free s n →
        (∀ i < sm.count, dm.addr i = some (da i) ∧ da i % min sm.esize 8 = 0 ∧ da i + sm.esize ≤ s.ctx.spSize ∧
          ∀ b ∈ banksOf (da i) sm.esize, s.ctx.padReady b = true) →
        (∀ i j, i < sm.count → j < sm.count → i ≠ j → da i + sm.esize ≤ da j ∨ da j + sm.esize ≤ da i) →
        (∀ i < sm.count, ∀ b < sm.esize, ∃ v, Say.CopyByte s h sm i b v) →
        ∃ t, exec (.transferRecord s.ctx.id n []) s = .next t ∧
          (∀ i < sm.count, ∀ b < sm.esize, Say.CopyByte s h sm i b (t.ctx.padByte (da i + b))) ∧
          (∀ x, (∀ i < sm.count, ¬ (da i ≤ x ∧ x < da i + sm.esize)) → t.ctx.padByte x = s.ctx.padByte x) ∧
          (t.ctx.chan n).err = k.err ∧ (t.ctx.chan n).donecnt = k.donecnt + 1#16)) ∧
    (∀ n bad, s.ctx.id < 2 ^ 64 → s.ctx.resident = true →
      ((s.ctx.chan n).phase = .walk →
        exec (.multicastLanding s.ctx.id n bad) s = .next ((s.runRecord n bad).focus s.ctx.id)) ∧
      (∀ (a : Word) (f : Fetched), (s.ctx.chan n).phase = .landing → (s.ctx.chan n).run = true →
          (s.ctx.chan n).cur = some (.record a) → (s.ctx.chan n).fetched = some f →
        let h := f.head.toNat
        (∀ at_, s.landTime h = some at_ → (s.now : Int) < at_ → exec (.multicastLanding s.ctx.id n bad) s = .next s) ∧
        ((∀ at_, s.landTime h = some at_ → at_ ≤ (s.now : Int)) →
          exec (.multicastLanding s.ctx.id n bad) s =
            .next ((s.landNow n a.toNat h f.maps.src.esize).focus s.ctx.id))) ∧
      ((s.ctx.chan n).phase ≠ .landing → (s.ctx.chan n).phase ≠ .walk →
        exec (.multicastLanding s.ctx.id n bad) s = .next s)) ∧
    (∀ c x gi sq hd w bs rest, s.findCtx c = some x → x.resident = true → (x.gutter gi).waiters = .net sq hd w bs :: rest →
      let g := x.gutter gi
      let k := max 1 ((bs.length + 256 * g.slotg.toNat - 1) / (256 * g.slotg.toNat))
      g.en = true → k ≤ g.nslot.toNat → k ≤ g.free →
      ∃ t y, exec (.gutterClaim c gi) s = .next t ∧ t.mem = s.mem ∧ t.findCtx c = some y ∧
        (y.gutter gi).free = g.free - k ∧ (y.gutter gi).filled = g.filled ∧
        (y.gutter gi).flight = g.flight ++ [{ slot := (g.head + g.filled + (g.nslot.toNat - g.free - g.filled)) % g.nslot.toNat, slots := k, prod := .net sq hd w bs, ended := none }] ∧
        (y.gutter gi).waiters = rest) ∧
    (∀ c x gi l rest sq hd w bs, s.findCtx c = some x → x.resident = true → (x.gutter gi).flight = l :: rest →
      l.prod = .net sq hd w bs → l.ended = none → x.slotsReady gi = true →
      let g := x.gutter gi
      let all := 256 * g.slotg.toNat * l.slots
      0 < g.slotg.toNat → 1 ≤ l.slots → l.slots ≤ g.nslot.toNat → bs.length ≤ all →
      ∃ t y, exec (.gutterFill c gi []) s = .next t ∧ t.mem = s.mem ∧ t.findCtx c = some y ∧
        (∀ j < all, y.padByte (Say.slotByte g l.slot j) = bs.getD j 0#8) ∧
        (y.gutter gi).filled = g.filled + l.slots ∧ (y.gutter gi).flight = rest ∧ (y.gutter gi).free = g.free ∧
        Sparse.get (fun _ => 0) (y.gutter gi).lens (l.slot % g.nslot.toNat) = bs.length) ∧
    (∀ c x p rest failed, s.findCtx c = some x → x.prefetches = p :: rest →
      ∃ t y, exec (.prefetchResident c failed) s = .next t ∧ t.findCtx c = some y ∧ y.prefetches = rest ∧
        t.natAt p.cnt.toNat 8 = min (s.natAt p.cnt.toNat 8 + p.val.toNat) (2 ^ 64 - 1) ∧ Say.SameBut s t p.cnt.toNat 8 ∧
        y.cpfail.toNat = min (2 ^ 32 - 1) (x.cpfail.toNat + min failed p.lines))

namespace Sys2Proof.Say

/-- A send slot at the next state of a context's send, every other slot as it was. -/
def SendNow (s t : State) (c slot : Nat) (P : SendSlot → Prop) : Prop :=
  ∃ x y, s.findCtx c = some x ∧ t.findCtx c = some y ∧ P (y.send slot) ∧ (∀ j, j ≠ slot → y.send j = x.send j)

/-- A send whose transmission may begin: taken, not begun, its time in package time come (R285). -/
def Ready (s : State) (m : SendSlot) : Prop :=
  m.used = true ∧ m.taken = true ∧ m.sent = false ∧ m.err = false ∧ m.bufs ≠ [] ∧ m.due ≤ s.now

/-- A send accepted on a shadow side that is still one, or whose time fell before the end of its promotion (R405,
R406). -/
def Suppressed (s : State) (m : SendSlot) : Prop :=
  m.shadow = true ∧ ((s.conn (m.handle.toNat % 2 ^ 15)).shadow = true ∨ m.due < s.promoEnd)

end Sys2Proof.Say

/-- R285, R403: sends and inbound messages. -/
def Obligations.SendsLeaveAndMessagesLand : Prop :=
  ∀ (s : State),
    (∀ c x i, s.findCtx c = some x →
      let m := x.send i
      s.flies c i = none →
      (m.used = true → m.taken = false → m.err = false →
        (∀ b ∈ m.bufs, ∀ k ∈ banksOf b.addr b.len, (x.padBank k).state ≠ .retain ∧ (x.padBank k).waking = false) →
        ∃ t, exec (.endpointTake c i) s = .next t ∧ t.mem = s.mem ∧
        Say.SendNow s t c i (fun y => y.taken = true ∧ y.msg = m.bufs.flatMap (fun b => x.padBytes b.addr b.len) ∧
          (y.late = true ↔ (m.time ≠ 0#64 ∧ m.due < s.now)) ∧ y.err = false ∧ y.sent = m.sent)) ∧
      (Say.Ready s m → ¬ Say.Suppressed s m →
        ∃ t w, exec (.transmissionStart c i) s = .next t ∧ t.mem = s.mem ∧ t.outbox = s.outbox ++ [.message m.handle w m.msg] ∧
          w.getLsbD 33 = m.pois ∧
          Say.SendNow s t c i (fun y => y = { m with
            sent := true, tstamp := BitVec.ofInt 48 ((s.now : Int) + Sparse.get (fun _ => 0) s.voff x.ownDevice) })) ∧
      (Say.Ready s m → Say.Suppressed s m → ∃ t, exec (.transmissionStart c i) s = .next t ∧ t.mem = s.mem ∧
        t.outbox = s.outbox ∧ Say.SendNow s t c i (fun y => y = { m with err := true, ecode := 5#8 })) ∧
      ((s.now : Int) < m.due → ∃ t, exec (.transmissionStart c i) s = .next t ∧ t.outbox = s.outbox ∧
        Say.SendNow s t c i (fun y => y = m)) ∧
      (m.used = true → m.taken = true → (m.sent = true ∨ m.bufs = []) → m.err = false →
        ∃ t, exec (.sendAcknowledged c i) s = .next t ∧ t.mem = s.mem ∧
        Say.SendNow s t c i (fun y => y = { m with sent := true, delivered := true })) ∧
      (∀ e, m.used = true → m.taken = true → m.delivered = false → m.err = false → 1 ≤ e → e ≤ 4 →
        ∃ t, exec (.sendFailed c i e) s = .next t ∧ t.mem = s.mem ∧
          Say.SendNow s t c i (fun y => y = { m with err := true, ecode := BitVec.ofNat 8 e }))) ∧
    (∀ c i x, s.flies c i = some x →
      (x.send.sent = true → exec (.sendAcknowledged c i) s = .next { s with flying := s.flying.erase x }) ∧
      (∀ e, 1 ≤ e → e ≤ 4 → exec (.sendFailed c i e) s = .next { s with flying := s.flying.erase x }) ∧
      (Say.Ready s x.send → Say.Suppressed s x.send →
        exec (.transmissionStart c i) s = .next { s with flying := s.flying.erase x }) ∧
      (Say.Ready s x.send → ¬ Say.Suppressed s x.send → ∃ t w, exec (.transmissionStart c i) s = .next t ∧
        t.mem = s.mem ∧ t.ctx = s.ctx ∧ t.ctxs = s.ctxs ∧ t.outbox = s.outbox ++ [.message x.send.handle w x.send.msg])) ∧
    (∀ (hd : BitVec 32) w bs,
      let k := s.conn hd.toNat
      let part := s.vdPart k.vdn
      let v := w.toNat % 2 ^ 32
      (2 ^ 15 ≤ hd.toNat ∨ k.isOpen = false → exec (.inboundMessage hd w bs) s = .next s) ∧
      (hd.toNat < 2 ^ 15 → k.isOpen = true → k.repl = false →
        (k.ingress ≠ 1 → k.ingress ≠ 2 → ∃ t, exec (.inboundMessage hd w bs) s = .next t ∧
          t.conn hd.toNat = { k with rxerr := (k.rxerr + 1) % 2 ^ 64 } ∧ t.regions = s.regions) ∧
        (∀ n, k.ingress = 2 → w.getLsbD 32 = true → 1 ≤ n → bs.length = 256 * n → (∃ y ∈ s.netHolds, y.handle = hd) →
          exec (.inboundMessage hd w bs) s = .next { s with netHolds := s.netHolds ++
            [{ handle := hd, word := w, bytes := bs, begun := false, since := s.now, got := 0, lost := false }] }) ∧
        (∀ r, k.ingress = 2 → w.getLsbD 32 = true → bs.length = 256 → s.regionAt part k.base.toNat = some r →
          k.sector < r.sectors → s.vdPaused k.vdn = false → (∀ y ∈ s.netHolds, y.handle ≠ hd) → s.parts = false →
          (∃ ps, s.agentX k.vdn part (k.base.toNat + 256 * k.sector) 256 .w = .ok ps) →
          (s.createCheck r k.sector v = .ok → Say.NoneWaits s → r.retain = 0 →
            ∃ t r2, exec (.inboundMessage hd w bs) s = .next t ∧ t.mem = s.mem ∧ t.conns = s.conns ∧
              t.regionAt part k.base.toNat = some r2 ∧
              ∃ u ∈ (r2.sec k.sector).vers, u.num = v ∧ u.exist = true ∧
                (∀ i < 256, BitVec.ofNat 8 (u.data.toNat / 256 ^ i) = bs.getD i 0#8) ∧
                u.marks = (if w.getLsbD 33 then 15#4 else 0#4)) ∧
          (s.createCheck r k.sector v = .full → ∃ t, exec (.inboundMessage hd w bs) s = .next t ∧ t.regions = s.regions ∧
            t.netHolds = s.netHolds ++ [{ handle := hd, word := w, bytes := bs, begun := true, since := s.now, got := 0, lost := false }]) ∧
          (s.createCheck r k.sector v = .duplicate ∨ s.createCheck r k.sector v = .missing ∨ s.createCheck r k.sector v = .exhausted →
            ∃ t, exec (.inboundMessage hd w bs) s = .next t ∧ t.regions = s.regions ∧ t.netHolds = s.netHolds ∧
              t.conn hd.toNat = { k with rxerr := (k.rxerr + 1) % 2 ^ 64 })) ∧
        (∀ x, k.ingress = 1 → s.gutterOwner part k.lcore k.gutter = some x → s.findCtx x.id = some x → x.resident = true →
          s.vdPaused k.vdn = false →
          let g := x.gutter k.gutter
          let n := max 1 ((bs.length + 256 * g.slotg.toNat - 1) / (256 * g.slotg.toNat))
          g.en = true → n ≤ g.nslot.toNat → bs.length ≤ 65536 → g.waiters = [] → n ≤ g.free →
          ∃ t y, exec (.inboundMessage hd w bs) s = .next t ∧ t.findCtx x.id = some y ∧
            (y.gutter k.gutter).free = g.free - n ∧ (y.gutter k.gutter).waiters = [] ∧
            ((y.gutter k.gutter).flight.map (fun l => (l.slots, l.prod))) =
              g.flight.map (fun l => (l.slots, l.prod)) ++ [(n, .net s.netSeq hd w bs)]))) ∧
    (∀ (x : NetHold) rest, s.netHolds = x :: rest → x.got = 0 →
      let k := s.conn (x.handle.toNat % 2 ^ 15)
      let part := s.vdPart k.vdn
      let v := x.word.toNat % 2 ^ 32
      1 ≤ x.bytes.length / 256 →
      (∀ ev ∈ [Instr.versionTimeout (.network x.handle), .creationRetry (.network x.handle)], x.begun = true →
        x.since + 1000000 ≤ s.now → ∃ t, exec ev s = .next t ∧ t.regions = s.regions ∧
        t.netHolds.map NetHold.bytes = rest.map NetHold.bytes ∧
        t.conn (x.handle.toNat % 2 ^ 15) = { k with rxerr := (k.rxerr + 1) % 2 ^ 64 }) ∧
      (x.begun = false ∨ s.now < x.since + 1000000 → exec (.versionTimeout (.network x.handle)) s = .next s) ∧
      (x.lost = true → (x.begun = false ∨ s.now < x.since + 1000000) → s.vdPaused k.vdn = false →
        ∃ t, exec (.creationRetry (.network x.handle)) s = .next t ∧ t.regions = s.regions ∧ t.netHolds = rest ∧
          t.conn (x.handle.toNat % 2 ^ 15) = { k with rxerr := (k.rxerr + 1) % 2 ^ 64 }) ∧
      (∀ r, x.lost = false → (x.begun = false ∨ s.now < x.since + 1000000) → s.vdPaused k.vdn = false → s.parts = false →
        x.bytes.length = 256 →
        (∃ ps, s.agentX k.vdn part (k.base.toNat + 256 * k.sector) 256 .w = .ok ps) →
        s.regionAt part k.base.toNat = some r → k.sector < r.sectors →
        s.createCheck r k.sector v = .ok → Say.NoneWaits s → r.retain = 0 →
        ∃ t r2, exec (.creationRetry (.network x.handle)) s = .next t ∧ t.mem = s.mem ∧
          t.netHolds.map NetHold.bytes = rest.map NetHold.bytes ∧ t.regionAt part k.base.toNat = some r2 ∧
          ∃ u ∈ (r2.sec k.sector).vers, u.num = v ∧ u.exist = true ∧
            ∀ i < 256, BitVec.ofNat 8 (u.data.toNat / 256 ^ i) = x.bytes.getD i 0#8))

namespace Sys2Proof.Say

/-- Field n bits from bit lo of partition p's register at base, over the enabled partitions of a staged copy, summed. -/
def summed (g : Nat → Nat) (base lo n : Nat) : Nat :=
  (((List.range 16).filter (fun p => p == 0 || p == 15 || bitOf (g (0x400 + p)) 63)).map
    (fun p => bitsOf (g (base + p)) lo n)).sum

/-- The pages of 64 KiB retired in a tier. -/
def retiredIn (s : State) (tier2 : Bool) : Nat := (s.retired.filter (fun f => isTier2 (65536 * f) == tier2)).length

/-- Register r of a staged copy g fails check c of R376, by the fields of R371 to R374 and R382: 4, the sums of memory,
whose register is that of the highest enabled partition, 15; 5, ways in common; 6, devices; 7, the fields' ranges; 8, an
entry of a queue table; 9, the length and the place of an overflow list or heap. -/
def FailsAt (s : State) (g : Nat → Nat) (c r : Nat) : Prop :=
  (c = 4 ∧ r = 0x41F ∧ (16384 * 512 < 16384 * summed g 0x410 36 10 + retiredIn s false ∨
    16384 * 1024 < 16384 * summed g 0x410 46 11 + retiredIn s true ∨ 64 < summed g 0x410 57 7)) ∨
  (∃ p < 16, c = 5 ∧ r = 0x410 + p ∧ ∃ q < 16, q ≠ p ∧ ∃ i, 4 ≤ i ∧ i < 36 ∧
    bitOf (g (0x410 + p)) i = true ∧ bitOf (g (0x410 + q)) i = true) ∨
  (∃ v < 64, c = 6 ∧ r = 0x5C0 + v ∧ bitOf (g r) 63 = true ∧
    (bitsOf (g r) 56 4 = 0 ∨ bitsOf (g r) 56 4 = 15 ∨ bitsOf (g r) 36 20 < 100 ∨ 1000000 < bitsOf (g r) 36 20)) ∨
  (∃ p < 16, c = 7 ∧ r = 0x400 + p ∧ (bitsOf (g r) 61 2 = 3 ∨ 128 < bitsOf (g r) 53 8 ∨ 4096 < bitsOf (g r) 40 13 ∨
    bitsOf (g r) 30 10 = 0 ∨ 1000 < bitsOf (g r) 30 10 ∨ bitsOf (g r) 20 10 = 0 ∨ 1000 < bitsOf (g r) 20 10 ∨
    bitsOf (g r) 4 16 = 0 ∨ 60000 < bitsOf (g r) 4 16)) ∨
  (∃ p < 16, c = 7 ∧ r = 0x410 + p ∧
    (64 < bitsOf (g r) 57 7 ∨ 1024 < bitsOf (g r) 46 11 ∨ 512 < bitsOf (g r) 36 10)) ∨
  (∃ p < 16, c = 7 ∧ r = 0x420 + p ∧ 64 < bitsOf (g r) 0 7) ∨
  (∃ p < 16, c = 8 ∧ r = 0x420 + p ∧ ∃ q < bitsOf (g r) 0 7,
    let e := s.natAt (bitsOf (g r) 8 56 * 256 + 32 * q) 32
    let v := bitsOf e 8 6
    bitOf e 0 = true ∧ (bitsOf e 2 2 = 3 ∨ bitOf (g (0x5C0 + v)) 63 = false ∨ bitsOf (g (0x5C0 + v)) 56 4 ≠ p ∨
      bitsOf e 24 5 < 12 ∨ 24 < bitsOf e 24 5 ∨ bitsOf e 192 64 ≠ 0)) ∨
  (∃ p < 16, c = 9 ∧ r = 0x690 + p ∧ (p = 0 ∨ p = 15 ∨ bitOf (g (0x400 + p)) 63 = true) ∧
    bitsOf (g (0x400 + p)) 40 13 ≠ 0 ∧ 128 * bitsOf (g r) 0 12 ≤ 2 * bitsOf (g (0x400 + p)) 40 13) ∨
  (∃ p < 16, c = 9 ∧ r = 0x680 + p ∧ bitsOf (g r) 0 16 ≠ 0 ∧ 2 ^ 39 < bitsOf (g r) 16 48 * 65536 + bitsOf (g r) 0 16 * 65536)

end Sys2Proof.Say

/-- R136, R375, R376, R385, R406, R407: the module's events. -/
def Obligations.FabricAndConfigurationTurn : Prop :=
  ∀ (s : State),
    (∀ m, exec (.ptpMessage m) s = .next (if s.timePort = some m.port then { s with slew := m.correction } else s)) ∧
    (∀ win, ∃ t, exec (.reductionGroup win) s = .next t ∧ t.ctx = s.ctx ∧
      t.contribs = s.contribs.filter (fun c => c.ident != win) ∧
      (∀ c w, s.contribs.filter (fun x => x.ident == win) = [c] → s.windows.find? (fun w => w.ident == win) = some w →
        let n := if w.w64 then 8 else 4
        (s.homeHere w = true → t.outbox = s.outbox ∧ Say.SameBut s t c.pa n ∧
          t.natAt c.pa n = Say.atomLeaves c.op (8 * n) (s.natAt c.pa n) (c.val.toNat % 2 ^ (8 * n))) ∧
        (s.homeHere w = false → t.mem = s.mem ∧ t.outbox = s.outbox ++ [.contribution c.ident c.off c.op c.val])) ∧
      ((∀ c ∈ s.contribs, c.ident ≠ win) → t.mem = s.mem)) ∧
    (∀ l, l < 16 → (s.links.getLsbD l = false → ∃ t, exec (.linkRetired l) s = .next t ∧ t.ctx = s.ctx ∧
        (∀ j, t.links.getLsbD j = (s.links.getLsbD j || j == l)) ∧ exec (.linkRetired l) t = .next t) ∧
      (s.links.getLsbD l = true → exec (.linkRetired l) s = .next s)) ∧
    (∀ d, d < 2 → (s.die d).alive = true → ∃ t, exec (.heartbeat d) s = .next t ∧ t.mem = s.mem ∧ t.ctx = s.ctx ∧
      t.die d = { s.die d with beatAt := s.now } ∧ t.die (1 - d) = s.die (1 - d)) ∧
    (∀ d, d < 2 → (s.die d).alive = true → (s.die (1 - d)).alive = true →
      ((s.die d).beatAt + 200000 ≤ s.now → ∃ t, exec (.dieFailed d) s = .next t ∧ (t.die d).alive = false ∧
        (t.die (1 - d)).alive = true ∧ (∀ c ∈ t.allCtxs, c.resident = true → dieOf c.core ≠ d) ∧
        t.conns = s.conns ∧ t.promoting = some d ∧
        t.outbox = (if d = 0 then s.outbox ++ [.linkDown] else s.outbox)) ∧
      (s.now < (s.die d).beatAt + 200000 → exec (.dieFailed d) s = .next s)) ∧
    (∀ d, s.promoting = some d → ∃ t, turnStep .promotion s = .next t ∧ t.promoting = none ∧ t.promoEnd = s.now ∧
      ∀ k, t.conn k = if (s.conn k).repl = true ∧ k / 2 ^ 14 ≠ d then { s.conn k with shadow := false } else s.conn k) ∧
    (∀ tm m, s.psyncs = [(tm, m)] →
      (s.now < tm → exec .partitionCommit s = .next s) ∧
      (tm ≤ s.now → ∃ t, exec .partitionCommit s = .next t ∧ t.psyncs = [] ∧
        (∀ c r, ({ s with psyncs := [] } : State).configCheck (configOf m) = some (c, r) → c < 10 → r < 2048 →
          t.committed = s.committed ∧ t.tasks = s.tasks ∧ t.mem = s.mem ∧ Say.field t.pcstat 63 1 = 0 ∧
          Say.field t.pcstat 56 7 = c ∧ Say.field t.pcstat 44 12 = r ∧
          Say.field t.pcstat 0 32 = Say.field s.pcstat 0 32) ∧
        (∀ n, 0x460 ≤ n → n < 0x488 →
          (∃ i < 16, let p := configOf m n / 16 ^ i % 16
            p ≠ 0 ∧ p ≠ 15 ∧ bitOf (configOf m (0x400 + p)) 63 = false) →
          (∀ j, 0x460 ≤ j → j < n → ∀ i < 16, let p := configOf m j / 16 ^ i % 16
            p = 0 ∨ p = 15 ∨ bitOf (configOf m (0x400 + p)) 63 = true) →
          t.committed = s.committed ∧ Say.field t.pcstat 63 1 = 0 ∧ Say.field t.pcstat 56 7 = 1 ∧ Say.field t.pcstat 44 12 = n) ∧
        (∀ c r, Say.FailsAt s (configOf m) c r → t.committed = s.committed ∧ Say.field t.pcstat 63 1 = 0 ∧
          1 ≤ Say.field t.pcstat 56 7 ∧ Say.field t.pcstat 56 7 ≤ c ∧
          (Say.field t.pcstat 56 7 = c → c ≠ 9 → Say.field t.pcstat 44 12 ≤ r)) ∧
        (∀ c, c = 4 ∨ c = 5 ∨ c = 6 → Say.field t.pcstat 63 1 = 0 → Say.field t.pcstat 56 7 = c →
          Say.FailsAt s (configOf m) c (Say.field t.pcstat 44 12)) ∧
        (({ s with psyncs := [] } : State).configCheck (configOf m) = none →
          t.committed = m ∧ Say.field t.pcstat 63 1 = 1 ∧ Say.field t.pcstat 56 7 = 0 ∧
          Say.field t.pcstat 0 32 = (Say.field s.pcstat 0 32 + 1) % 2 ^ 32))) ∧
    (∀ v, (s.vdPaused v = false → exec (.deviceQuiet v) s = .next s) ∧
      (s.vdPaused v = true → v ∉ s.atRest → (∀ c ∈ s.allCtxs, c.level = .tenant → c.vdn.toNat = v → c.resident = false) →
        ∃ t, exec (.deviceQuiet v) s = .next t ∧ t.atRest = s.atRest ++ [v]))

/-- R323, R341, R357, R379 to R381, R409 to R411. -/
def Obligations.PowerHeatAndErrorsAct : Prop :=
  ∀ (s : State),
    (∀ (h : Nat) (tenths : Int), h < 8 → ∃ t, exec (.thermalReport h tenths) s = .next t ∧ t.tasks = s.tasks ∧ t.ctx = s.ctx ∧
      let old := Sparse.get (fun _ => 0) s.thermal h
      let new := Sparse.get (fun _ => 0) t.thermal h
      (950 < tenths → new = 24) ∧ (850 < tenths → tenths < 920 → new = 4) ∧ (tenths < 820 → new = 0) ∧
      (920 ≤ tenths → tenths ≤ 950 → new = if old = 24 then 24 else 4) ∧
      (820 ≤ tenths → tenths ≤ 850 → new = if old = 0 then 0 else 4) ∧
      (∀ j, j ≠ h → Sparse.get (fun _ => 0) t.thermal j = Sparse.get (fun _ => 0) s.thermal j) ∧
      ∀ p q, p < 16 → q < 64 →
        ((s.lossOf h old p < s.lossOf h new p ∧ s.queueOn p q = true ∧ (s.qcfg p q).cls ≠ 0) →
          (t.qlevel p q).level = min 3 ((s.qlevel p q).level + 1)) ∧
        (¬ (s.lossOf h old p < s.lossOf h new p ∧ s.queueOn p q = true ∧ (s.qcfg p q).cls ≠ 0) →
          t.qlevel p q = s.qlevel p q)) ∧
    (∀ h l i j, i ∈ s.removedSlots h l → i < j → j < 64 → s.slotOwner h j = s.slotOwner h i → j ∈ s.removedSlots h l) ∧
    (∀ w, ∃ t, exec (.powerCap w) s = .next t ∧ t.ctx = s.ctx ∧
      let old := (s.cluster 0).limit
      (2000 < w → 1200 ≤ old → ∀ n < 40, t.cluster n = { s.cluster n with limit := old - 1200 }) ∧
      (w < 1900 → old < 38400 → ∀ n < 40, t.cluster n = { s.cluster n with limit := min 38400 (old + 1200) }) ∧
      (1900 ≤ w → w ≤ 2000 → t = s)) ∧
    (∀ c x u a, s.findCtx c = some x → x.resident = true → x.asks u = some a →
      let n := clusterOf x.core
      let bk : Nat := if u = .copy then 0 else if x.shnd then 2 else if x.thnd then 1 else 0
      ((∀ r ∈ (s.cluster n).held ++ (s.cluster n).pending, r.ctx ≠ x.id ∨ r.unit ≠ u ∨ r.bank ≠ bk) →
        ∃ t, exec (.reservationRequest c u) s = .next t ∧ t.mem = s.mem ∧ t.cluster n = { s.cluster n with pending := (s.cluster n).pending ++ [{ core := x.core, ctx := x.id, bank := bk, unit := u, amount := a }] }) ∧
      ((∃ r ∈ (s.cluster n).held ++ (s.cluster n).pending, r.ctx = x.id ∧ r.unit = u ∧ r.bank = bk) → exec (.reservationRequest c u) s = .next s)) ∧
    (∀ n r, (s.cluster n).pending = [r] →
      (∀ e ∈ (s.cluster n).held ++ [r], ∃ c, s.findCtx e.ctx = some c ∧ s.running c = true ∧ clusterOf c.core = n ∧
        (e.bank = 0 ∨ (e.bank = 1 ∧ c.thnd = true) ∨ (e.bank = 2 ∧ c.shnd = true))) →
      let used := ((s.cluster n).held.map Reserve.amount).sum
      let stopped (e : Reserve) : Prop := ∃ c, s.findCtx e.ctx = some c ∧ e.unit ≠ .copy ∧
        ((e.bank < 2 ∧ c.shnd = true) ∨ (e.bank = 0 ∧ c.thnd = true))
      ∃ t, exec (.reservationGrant n) s = .next t ∧ t.mem = s.mem ∧ t.ctx = s.ctx ∧
        (used + r.amount ≤ (s.cluster n).limit ∨ (∀ e ∈ (s.cluster n).held, stopped e) →
          t.cluster n = { s.cluster n with held := (s.cluster n).held ++ [r], pending := [] }) ∧
        ((s.cluster n).limit < used + r.amount → (∃ e ∈ (s.cluster n).held, e.unit ≠ .copy ∧ ¬ stopped e) → t.cluster n = s.cluster n)) ∧
    (∀ n, (∃ t, exec (.droop n) s = .next t ∧ t.ctx = s.ctx ∧ t.cluster n = { s.cluster n with freezeEnd := s.now + (s.cluster n).dfrz }) ∧
      (s.now < (s.cluster n).freezeEnd → exec (.droopFreezeEnd n) s = .next s) ∧
      ((s.cluster n).freezeEnd ≤ s.now → ∃ t, exec (.droopFreezeEnd n) s = .next t ∧ t.ctx = s.ctx ∧
        t.cluster n = { s.cluster n with freezeEnd := 0 })) ∧
    (∀ sec, ∃ t, exec (.uncorrectableError (.memory sec)) s = .next t ∧ t.ctx = s.ctx ∧ t.tasks = s.tasks ∧
      ((s.die (homeDie (64 * sec))).ringCap = 0 → t.mem = s.mem ∧ ∀ j, Sparse.get (fun _ => false) t.marks j =
        (Sparse.get (fun _ => false) s.marks j || j == sec))) ∧
    (∀ id x, s.findCtx id = some x →
      (∀ r k n, r < 16 → k < 64 → n < 64 → ∃ t y, exec (.uncorrectableError (.tileCell id r (64 * k + n))) s = .next t ∧
        t.findCtx id = some y ∧ (y.cell r k n).pois = true ∧
        ∀ r' k' n', k' < 64 → n' < 64 → (r', k', n') ≠ (r, k, n) → y.cell r' k' n' = x.cell r' k' n') ∧
      (∀ p k n, p < 2 → k < 64 → n < 128 → ∃ t y, exec (.uncorrectableError (.planeCell id p (128 * k + n))) s = .next t ∧
        t.findCtx id = some y ∧ (y.pcell p k n).pois = true ∧
        ∀ p' k' n', k' < 64 → n' < 128 → (p', k', n') ≠ (p, k, n) → y.pcell p' k' n' = x.pcell p' k' n') ∧
      (∀ g, g < 3072 → ∃ t y, exec (.uncorrectableError (.granule id g)) s = .next t ∧ t.findCtx id = some y ∧
        y.padPoison (256 * g) 1 = true ∧ y.pad = x.pad) ∧
      (∀ r, 1 ≤ r → r < 64 → ∃ t y, exec (.uncorrectableError (.scalar id r)) s = .next t ∧ t.findCtx id = some y ∧
        (y.bank.getS r).pois = true ∧ ∀ j, j ≠ r → y.bank.getS j = x.bank.getS j) ∧
      (∀ k b, 1 ≤ k → k < 8 → ∃ t y, exec (.uncorrectableError (.mask id k b)) s = .next t ∧ t.findCtx id = some y ∧
        (y.bank.getK k).pois = (x.bank.getK k).pois ||| b ∧ (y.bank.getK k).bits &&& ~~~b = (x.bank.getK k).bits &&& ~~~b ∧
        ∀ j, j ≠ k → y.bank.getK j = x.bank.getK j) ∧
      (∀ n k, x.resident = true → x.task = some n → s.findTask n = some k → k.state = .running →
        ∃ t, exec (.uncorrectableError (.bare id)) s = .next t ∧ Say.TaskDone s t n (fun u => u.state = .complete)) ∧
      (∀ pa b, Sparse.get (fun _ => none) x.l1 pa = some b →
        ∃ t y, exec (.uncorrectableError (.l1Byte id pa)) s = .next t ∧ t.findCtx id = some y ∧
          ∀ a, Sparse.get (fun _ => none) y.l1 a = if a / 64 = pa / 64 then
            (Sparse.get (fun _ => none) x.l1 a).map (fun e => { e with pois := true }) else Sparse.get (fun _ => none) x.l1 a) ∧
      (x.resident = true → x.task = none → ∃ t y, exec (.uncorrectableError (.bare id)) s = .next t ∧
        t.findCtx id = some y ∧ y.held = true ∧ y.place = .memory)) ∧
    (∀ d a, (s.die d).wdog = some a → (s.die d).wdogAt ≤ s.now →
      ((s.die d).wdogX = 0 → ∃ t, exec (.watchdog d) s = .next t ∧ t.mem = s.mem ∧
        t.die d = { s.die d with wdogX := 1, wdogAt := (s.die d).wdogAt + 1000 * a } ∧
        ∀ c, s.stewardOf d = some c → Say.Pending t c.id 0x19#8) ∧
      ((s.die d).wdogX ≠ 0 → ∃ t, exec (.watchdog d) s = .next t ∧ t.mem = s.mem ∧ (t.die d).wdog = none ∧
        t.outbox = s.outbox ++ [.stewardFailed d])) ∧
    (∀ sel, s.bank.selects = some sel →
      let k := s.coreSlot s.ctx.core
      let t := s.powerCourses.1.coreSlot s.ctx.core
      t.courses = sel ∧ t.volts = k.volts ∧ (s.powerCourses.2 = true ↔ t.courseAt ≤ s.now) ∧
        (sel &&& ~~~k.courses = 0#4 → t.courseAt = k.courseAt) ∧
        (sel &&& ~~~k.courses ≠ 0#4 → s.now ≤ t.courseAt ∧ t.courseAt ≤ s.now + 16))

/-- R413, R414, R418, R419: power-on and recovery. -/
def Obligations.TheModuleStartsAndRecovers : Prop :=
  ∀ (s : State) (b : Bist),
    (s.boot ≠ .off → exec (.powerOn b) s = .next s) ∧
    (s.boot = .off → ∃ t, exec (.powerOn b) s = .next t ∧ t.now = s.now ∧ t.flash = s.flash ∧ t.hostMem = s.hostMem ∧
      t.devRec = s.devRec ∧ t.ctxs = [] ∧ t.tasks = [] ∧ t.regions = [] ∧ t.mlog.length = 4 ∧
      t.identity = [Config.dieKey 0, Config.dieKey 1] ∧
      let good := Config.imageVerifies s.flash
      (∀ c, t.boot = .recovery c → t.ctx.place = .nowhere) ∧
      (s.flash = [] → t.boot = .recovery 4) ∧
      (s.flash ≠ [] → (good = false ∨ b.read0 = false ∧ b.read1 = false) → t.boot = .recovery 1) ∧
      (s.flash ≠ [] → good = true → b.read0 ≠ b.read1 → t.boot = .recovery 2) ∧
      (s.flash ≠ [] → good = true → b.read0 = true → b.read1 = true → b.fabricOk = false → t.boot = .recovery 3) ∧
      (s.flash ≠ [] → good = true → b.read0 = true → b.read1 = true → b.fabricOk = true → b.defects = [] →
        s.devRec.defects = [] →
        t.boot = .running ∧ t.mem = [] ∧ t.staged = t.committed ∧
        t.ctx.level = .steward ∧ t.running t.ctx = true ∧ t.ownerOf t.ctx.core = 0 ∧ (∀ p < 16, t.cfg (0x440 + p) = 0#64) ∧
        (let l0 := (t.cfg 0x690).toNat / 4096;
          let l15 := (t.cfg 0x69F).toNat / 4096;
          t.cfgField 0x690 0 12 = 128 ∧ t.cfgField 0x69F 0 12 = 8 ∧ l0 + 128 ≤ 2 ^ 26 ∧ l15 + 8 ≤ 2 ^ 26 ∧
            (l0 + 128 ≤ l15 ∨ l15 + 8 ≤ l0)) ∧
        (∀ k < 640, (t.coreSlot k).courses = 15#4 ∧ ∀ c < 4,
          550 ≤ Sparse.get (fun _ => 0) (t.coreSlot k).volts c ∧ Sparse.get (fun _ => 0) (t.coreSlot k).volts c ≤ 800) ∧
        (∀ k < 640, t.ownerOf k = if k % 320 = 2 ∨ k % 320 = 3 then 15 else 0) ∧
        t.cfgField 0x400 53 8 = 120 ∧ t.cfgField 0x400 40 13 = 3840 ∧ t.cfgField 0x40F 53 8 = 8 ∧ t.cfgField 0x40F 40 13 = 256)) ∧
    (∀ c, s.boot = .recovery c →
      (s.rstate = 1#8 → (∃ t, exec (.recoveryReset b) s = .next t ∧ exec (.powerOn b) { s with boot := .off } = .next t) ∧
        exec (.recoveryLoad 0) s = .next { s with rstate := 2#8 } ∧ ∀ vd, vd ≠ 0 → exec (.recoveryLoad vd) s = .next s) ∧
      (s.rstate = 2#8 →
        let img := Sparse.getList memDefault s.hostMem s.imgaddr.toNat s.imglen.toNat
        (Config.imageVerifies img = true → s.imglen.toNat ≤ 2 ^ 26 → s.imgaddr.toNat % 4096 = 0 →
          turnStep (.recovery b) s = .next { s with flash := img, rstate := 3#8 }) ∧
        ((Config.imageVerifies img = false ∨ 2 ^ 26 < s.imglen.toNat ∨ s.imgaddr.toNat % 4096 ≠ 0) →
          turnStep (.recovery b) s = .next { s with boot := .recovery 1, rstate := 1#8 })) ∧
      (s.rstate = 3#8 → ∃ t, turnStep (.recovery b) s = .next t ∧ t.rstate = 4#8 ∧ t.boot = s.boot ∧ t.flash = s.flash ∧
        ∀ a < 2 ^ 39, t.byteAt a = 0#8 ∧ Sparse.get (fun _ => false) t.marks (a / 64) = false) ∧
      (s.rstate = 4#8 → ∃ t, turnStep (.recovery b) s = .next t ∧ exec (.powerOn b) { s with boot := .off } = .next t) ∧
      (s.rstate ≠ 1#8 → (∀ vd, exec (.recoveryLoad vd) s = .next s) ∧ exec (.recoveryReset b) s = .next s)) ∧
    (s.boot = .running → (∀ vd, exec (.recoveryLoad vd) s = .next s) ∧ exec (.recoveryReset b) s = .next s) ∧
    (∀ v : BitVec 128,
      (∀ c, s.boot = .recovery c → ∃ t, exec (.hostRegisterWrite .imgaddr v) s = .next t ∧
        t.imgaddr.toNat = v.toNat % 2 ^ 64 ∧ t.mem = s.mem ∧ t.imglen = s.imglen) ∧
      (∀ c, s.boot = .recovery c → ∃ t, exec (.hostRegisterWrite .imglen v) s = .next t ∧
        t.imglen.toNat = v.toNat % 2 ^ 32 ∧ t.mem = s.mem ∧ t.imgaddr = s.imgaddr) ∧
      (∀ o, exec (.hostRegisterWrite (.other o) v) s = .next s))

/-- Both statements: `TenantHandlerEntered` and `StewardHandlerEntered`. -/
def Obligations.HandlersAreEntered : Prop := Sys2Proof.Say.TenantHandlerEntered ∧ Sys2Proof.Say.StewardHandlerEntered

/-- Both statements: `FloorsAndNewest` and `RegionsAttachAndDetach`. -/
def Obligations.FloorsAndAttachments : Prop := Sys2Proof.Say.FloorsAndNewest ∧ Sys2Proof.Say.RegionsAttachAndDetach

/-- Both statements: `CommitsWatchdogsAndLevels` and `CancelsAreRecordedAndCleared`. -/
def Obligations.CommitsWatchdogsLevelsAndCancels : Prop := Sys2Proof.Say.CommitsWatchdogsAndLevels ∧ Sys2Proof.Say.CancelsAreRecordedAndCleared

/-- The statements `FirmwareChangesPages`, `FirmwareChangesOnePage`, `FirmwareKeepsReductionWindows`. -/
def Obligations.FirmwareChangesPagesAndWindows : Prop := Sys2Proof.Say.FirmwareChangesPages ∧
  Sys2Proof.Say.FirmwareChangesOnePage ∧ Sys2Proof.Say.FirmwareKeepsReductionWindows

/-- Both statements: `LoadEntriesFeedTheArray` and `SparseImagesFillTheShadowPlane`. -/
def Obligations.LoadEntriesFeedTheArrayAndItsPlanes : Prop := Sys2Proof.Say.LoadEntriesFeedTheArray ∧ Sys2Proof.Say.SparseImagesFillTheShadowPlane

/-- The statements `QueuePopTakesTheOldest`, `DeliveredEntryIsPopped`, `QueuePushAppends`. -/
def Obligations.QueuesPopAndPush : Prop := Sys2Proof.Say.QueuePopTakesTheOldest ∧
  Sys2Proof.Say.DeliveredEntryIsPopped ∧ Sys2Proof.Say.QueuePushAppends

/-- Both statements: `CountersSignalWaitAndRead` and `FencesAndBindings`. -/
def Obligations.CountersFencesAndBindings : Prop := Sys2Proof.Say.CountersSignalWaitAndRead ∧ Sys2Proof.Say.FencesAndBindings

/-- Both statements: `ContextsSaveAndLoad` and `TranslationsDropAndRangesZero`. -/
def Obligations.ContextsMoveAndTranslationsDrop : Prop := Sys2Proof.Say.ContextsSaveAndLoad ∧ Sys2Proof.Say.TranslationsDropAndRangesZero

/-- Both statements: `HandlersReturn` and `HandlersSpillAndFill`. -/
def Obligations.HandlersReturnSpillAndFill : Prop := Sys2Proof.Say.HandlersReturn ∧ Sys2Proof.Say.HandlersSpillAndFill

namespace Sys2Proof.Say

/-- The assigned opcodes of a class, as first and last of each run of the opcode map (R146). -/
def opcodeRuns : Nat → List (Nat × Nat)
  | 0 => [(0x00, 0x09), (0x10, 0x1C), (0x20, 0x2A), (0x30, 0x32), (0x40, 0x48)]
  | 1 => [(0x00, 0x0A), (0x10, 0x13), (0x18, 0x1A), (0x20, 0x22), (0x28, 0x29), (0x30, 0x31)]
  | 2 => [(0x00, 0x04), (0x08, 0x09), (0x10, 0x15), (0x20, 0x26), (0x30, 0x33), (0x38, 0x3C)]
  | 3 => [(0x00, 0x03), (0x08, 0x0B), (0x10, 0x13), (0x18, 0x1D)]
  | 4 => [(0x00, 0x09)]
  | 5 => [(0x00, 0x06)]
  | 6 => [(0x00, 0x09), (0x10, 0x17), (0x20, 0x24), (0x28, 0x28), (0x30, 0x34), (0x38, 0x3B), (0x40, 0x45),
      (0x48, 0x4D), (0x50, 0x52)]
  | 7 => [(0x00, 0x03)]
  | 8 => [(0x00, 0x05)]
  | 9 => [(0x00, 0x01)]
  | _ => []

/-- Whether the opcode map assigns the class and opcode of a word (R146). -/
def Assigned (w : Word) : Prop := ∃ r ∈ opcodeRuns (field w 60 4), r.1 ≤ field w 52 8 ∧ field w 52 8 ≤ r.2

/-- Whether a level lacks the privilege for a word: at TENANT every SYS instruction but the CSR accesses, ECALL,
TRET, TSPILL and TFILL; at either level an access that the system register map does not give it (R145, R301,
R313). -/
def LacksPrivilege (steward : Bool) (w : Word) : Prop :=
  field w 60 4 = 3 ∧
  ((steward = false ∧ field w 52 8 ∉ [0x00, 0x01, 0x02, 0x03, 0x08, 0x09, 0x10, 0x11]) ∨
    (csrAssigned (field w 0 12) = true ∧
      ((field w 52 8 = 0x00 ∧ csrAccess steward (field w 0 12) = 0) ∨
       (field w 52 8 ∈ [0x01, 0x02, 0x03] ∧ csrAccess steward (field w 0 12) ≠ 2))))

/-- The next move is the focused context's sequencer's, s0 is the state with that move taken from the agenda, and s2 what
it moves from, the cells its engines have under way written (log 10): the agenda says so, or it is empty and nothing else
can move. -/
def SeqTurn (s s0 s2 : State) : Prop :=
  s.running s.ctx = true ∧ s2 = { s0 with ctx := s.ctx.settleLate } ∧
  ((∃ core rest, s.agenda = .seq core :: rest ∧ (s.coreSlot core).run = some s.ctx.id ∧ s0 = { s with agenda := rest }) ∨
   (s.agenda = [] ∧ (∀ e, s.bank.queue e = []) ∧ s.chores = [] ∧ s.otherRunning = none ∧ s0 = s))

/-- A move from a to t stops no running context and opens no handler in one. -/
def StopsNone (a t : State) : Prop := ∀ c ∈ a.allCtxs, a.running c = true →
  t.findCtx c.id = none ∨ ∃ d, t.findCtx c.id = some d ∧ t.running d = true ∧ d.bankIx ≤ c.bankIx

/-- No context has an entry on a shelf or in a queue. -/
def NoEntries (t : State) : Prop := ∀ d ∈ t.allCtxs, ∀ e, d.base.queue e = [] ∧ d.tbank.queue e = [] ∧ d.sbank.queue e = []

/-- A move from a to t stops a running context's base code, or opens a handler in it, with a V or S entry that has taken
its pops, waits for no lock and is not done. -/
def CutsAnEntry (a t : State) : Prop := ∃ c ∈ a.allCtxs, ∃ d, ∃ e, ∃ en, ∃ rest, a.running c = true ∧ c.bankIx = 0 ∧
  t.findCtx c.id = some d ∧ d.halted = false ∧ d.place ≠ .nowhere ∧ (t.running d = false ∨ 0 < d.bankIx) ∧
  (e = .v ∨ e = .s) ∧ d.base.queue e = en :: rest ∧ en.pushOwed = false ∧ en.popsTaken = true ∧ en.stall ≠ .lock ∧
  (∀ f, en.instr ≠ .lfeed f) ∧ ∀ f, en.instr ≠ .lmask f

/-- Nothing ends the focused context's code at its boundary: its handler has time left, its crew has not left it
behind (R19, R351). -/
def RunsOn (s : State) : Prop :=
  (s.ctx.thnd = true → s.ctx.shnd = false → s.ctx.tbudget ≠ 0) ∧ s.straggles s.ctx = false

/-- The word at the program counter of the focused context, which has no cause to take. -/
def AtWord (s : State) (w : Word) : Prop :=
  RunsOn s ∧ s.ctx.hasCause = false ∧
  ∃ o, s.xlate s.ctx.pc.toNat .x = .ok o ∧ s.marked o.pa = false ∧ w = BitVec.ofNat 64 (s.natAt o.pa 8)

end Sys2Proof.Say

/-- The step around exec: R22, R137, R144, R345. -/
def Obligations.StepRunsTheDecodedInstruction : Prop :=
  ∀ (s : State),
    (∀ s0 s2, Say.SeqTurn s s0 s2 →
      (∀ w i, Say.AtWord s2 w → decodeAt s2.ctx.atSteward w = .ok i →
        step s = settled (s0.wholly (exec (s2.resolve i) s2))) ∧
      (s2.ctx.thnd = true → s2.ctx.shnd = false → s2.ctx.tbudget = 0 → step s = settled (s0.wholly (.next (if s2.underWay then s2 else s2.forceSave)))) ∧
      (s2.ctx.thnd = false → s2.straggles s2.ctx = true → step s = settled (s0.wholly (.next (s2.displace [] s2.ctx.id)))) ∧
      (Say.RunsOn s2 → s2.ctx.hasCause = true → step s = settled (s0.wholly (.next s2.takePending))) ∧
      (∀ f, Say.RunsOn s2 → s2.ctx.hasCause = false → s2.xlate s2.ctx.pc.toNat .x = .error f →
        step s = settled (s0.wholly (.next ((s2.xEvent (dieOf s2.ctx.core) s2.ctx.part.toNat s2.ctx.vdn.toNat f).fault
          (f.cause 0x04#8 s2.ctx.pc.toNat))))) ∧
      (∀ o, Say.RunsOn s2 → s2.ctx.hasCause = false → s2.xlate s2.ctx.pc.toNat .x = .ok o → s2.marked o.pa = true →
        step s = settled (s0.wholly (.next (s2.fault (Cause.seq 0x13#8 0 s2.ctx.pc)))))) ∧
    (∀ f, s.resolve (.cancel f) = if (s.rd f.b).bits.getLsbD 2 then .cancelClear f else .cancel f) ∧
    (∀ f n, s.blockAt f.a = some n →
      s.resolve (.stage2Map f) = (if n / 2 ^ 96 % 256 = 1 then .stage2Unmap f else if n / 2 ^ 96 % 256 = 2 then .moveToTier1 f
        else if n / 2 ^ 96 % 256 = 3 then .moveToTier2 f else if n / 2 ^ 96 % 256 = 4 then .setPermissions f else .stage2Map f) ∧
      s.resolve (.windowDeclare f) = if n.testBit 161 then .windowRemove f else .windowDeclare f) ∧
    (∀ core e rest, s.agenda = .engine core e :: rest → (s.coreSlot core).run = some s.ctx.id → s.running s.ctx = true →
      let s2 : State := { s with agenda := rest }
      (s.bank.queue e = [] → step s = settled (.next s2)) ∧
      (∀ en q, s.bank.queue e = en :: q → (∀ x ∈ s.bank.queue e, x.late = []) → e ≠ .x ∨ en.pushOwed = false →
        s2.nextEntry e = some en) ∧
      (∀ en, s2.nextEntry e = some en →
        (e = .l ∨ e = .s ∨ en.pushOwed = true ∨ en.late ≠ [] →
          step s = settled (s2.wholly (exec en.instr { s2 with acting := some (e, en) }))) ∧
        (∀ s3, en.pushOwed = false → en.late = [] → s2.leave e = (s3, true) →
          step s = settled (s2.wholly (exec en.instr { s3 with acting := some (e, en) }))) ∧
        (∀ s3, en.pushOwed = false → en.late = [] → s2.leave e = (s3, false) → step s = settled (s2.wholly (.next s3))))) ∧
    (∀ vd q rest, s.agenda = .thread vd q :: rest →
      let s0 : State := { s with agenda := rest }
      step s = settled (s0.wholly (exec (s0.threadInstr vd q) s0))) ∧
    (∀ i rest, s.agenda = .event i :: rest → encode i = BitVec.allOnes 64 →
      step s = settled (({ s with agenda := rest } : State).wholly (exec i { s with agenda := rest }))) ∧
    (∀ u rest, s.agenda = .part u :: rest → step s = step { s with agenda := u :: rest, parts := true }) ∧
    (∀ t, settled (.next t) = .next ({ t with parts := false } : State).settle) ∧
    (∀ o, s.wholly o = o ∨ ∃ t, o = .next t ∧ s.wholly o = .next s) ∧
    (∀ t, Say.StopsNone s t ∨ Say.NoEntries t → s.wholly (.next t) = .next t) ∧
    (∀ t, Say.CutsAnEntry s t → s.wholly (.next t) = .next s)

/-- R144: the order of the checks. -/
def Obligations.WordsAreCheckedInOrder : Prop :=
  (∀ (s s0 s2 : State) (w : Word), Say.SeqTurn s s0 s2 → Say.AtWord s2 w →
    (¬ Say.Assigned w → step s = settled (s0.wholly (.next (s2.fault (Cause.seq 0x01#8 0 w))))) ∧
    (Say.Assigned w → Say.LacksPrivilege s2.ctx.atSteward w →
      step s = settled (s0.wholly (.next (s2.fault (Cause.seq 0x03#8 0 w))))) ∧
    (Say.Assigned w → ¬ Say.LacksPrivilege s2.ctx.atSteward w → (∀ i : Instr, i.wf = true → encode i ≠ w) →
      step s = settled (s0.wholly (.next (s2.fault (Cause.seq 0x02#8 0 w))))) ∧
    (∀ i : Instr, i.wf = true → encode i = w → ¬ Say.LacksPrivilege s2.ctx.atSteward w →
      step s = settled (s0.wholly (exec (s2.resolve i) s2)))) ∧
  (∀ b, decodeAt b 0#64 = .ok .nop ∧ ∀ w : Word, w ≠ 0#64 → Say.field w 52 12 = 0 → decodeAt b w = .reserved)

/-- The decoder and the encoder agree. -/
def Obligations.EncodingIsUndone : Prop :=
  (∀ i : Instr, i.wf = true → decode (encode i) = some i) ∧
  (∀ (w : Word) (i : Instr), decode w = some i → encode i = w ∧ i.wf = true) ∧
  (∀ i j : Instr, i.wf = true → j.wf = true → encode i = encode j → i = j)

/-- The invariant of the memories. -/
def Obligations.StepKeepsCanonicalMemory : Prop := ∀ s t : State, Inv s → step s = .next t → Inv t

/-- What reset leaves, and that s0 reads zero. -/
def Obligations.ResetHoldsWhatTheManualGives : Prop :=
  let s := State.reset
  Inv s ∧ s.boot = .off ∧ (∀ c ∈ s.allCtxs, c.resident = false) ∧ step s = .next s ∧
  (∀ n, n < 4096 → ¬ (0x400 ≤ n ∧ n < 0x410) → s.cfg n = 0#64) ∧
  (∀ p, p < 16 → s.cfgField (0x400 + p) 30 10 = 1000 ∧ s.cfgField (0x400 + p) 20 10 = 10 ∧ s.cfgField (0x400 + p) 4 16 = 100 ∧
    s.cfgField (0x400 + p) 40 23 = 0 ∧ s.cfgField (0x400 + p) 63 1 = if p = 0 ∨ p = 15 then 1 else 0) ∧
  (Say.field s.pcstat 63 1 = 1 ∧ Say.field s.pcstat 0 63 = 0 ∧ s.rstate = 1#8) ∧
  (∀ p q, s.qlevel p q = { level := 0, floor := 0 }) ∧
  (∀ n, (s.cluster n).limit = 38400 ∧ (s.cluster n).dfrz = 32) ∧
  (s.ctx.vwlim = 1000#20 ∧ s.ctx.pbud = 20000#18 ∧ s.bank.vc = 64#7 ∧ s.bank.ashape = 15#4 ∧ s.bank.emode = 0#4 ∧
    s.bank.estat = 0#7 ∧ s.bank.fifo = Fifos.zero ∧ ∀ r, s.bank.getS r = { bits := 0#64, pois := false }) ∧
  (∀ (t : State) (v : SReg), t.rd 0#6 = { bits := 0#64, pois := false } ∧ (t.wr 0#6 v).rd 0#6 = t.rd 0#6)

/-- Words printed in the manual. -/
def Obligations.PrintedWordsDecode : Prop :=
  decode 0x0400145FFFFFFFFD#64 = some (.addi { sp := false, d := 5#6, a := 5#6, imm := 0xFFFFFFFFD#36 }) ∧
  decode 0x02701C824A000000#64 = some (.csel { sp := false, d := 7#6, a := 8#6, b := 9#6, c := 10#6 }) ∧
  decode 0x02781C824A000000#64 = some (.csel { sp := true, d := 7#6, a := 8#6, b := 9#6, c := 10#6 }) ∧
  decode 0x3080000000000007#64 = some (.ecall { imm := 7#36 }) ∧
  decode 0x1100000000000000#64 = some .halt ∧
  decodeAt false 0#64 = .ok .nop ∧
  decodeAt false 0xB000000000000000#64 = .illegal ∧
  decodeAt false 0x0033000000000000#64 = .reserved ∧
  decodeAt false 0x3190000000000001#64 = .privilege ∧
  decodeAt true 0x3190000000000001#64 = .reserved ∧
  decodeAt false 0x2135000000000000#64 = .reserved ∧
  decodeAt false 0x7003000000000000#64 = .reserved
end

