-- ==== Sys2Proof/Laws/Sparse.lean ====
section
/-! SUPPORT. Laws of sparse tables: a read after a write, and that every operation keeps the canonical
form. -/

namespace Sys2Proof.Machine

variable {α : Type}

@[simp] theorem Sparse.get_nil (d : Nat → α) (k : Nat) : Sparse.get d [] k = d k := rfl

theorem Sparse.get_erase_self (d : Nat → α) (m : Sparse α) (k : Nat) :
    Sparse.get d (Sparse.erase m k) k = d k := by
  induction m with
  | nil => rfl
  | cons e t ih =>
    obtain ⟨j, v⟩ := e
    by_cases h : j = k
    · simpa [Sparse.erase, h] using ih
    · simpa [Sparse.erase, h, Sparse.get] using ih

theorem Sparse.get_erase_ne (d : Nat → α) (m : Sparse α) {j k : Nat} (h : j ≠ k) :
    Sparse.get d (Sparse.erase m k) j = Sparse.get d m j := by
  induction m with
  | nil => rfl
  | cons e t ih =>
    obtain ⟨i, v⟩ := e
    by_cases hi : i = k
    · have : Sparse.erase ((i, v) :: t) k = Sparse.erase t k := by simp [Sparse.erase, hi]
      rw [this, ih, Sparse.get, if_neg (by omega)]
    · have : Sparse.erase ((i, v) :: t) k = (i, v) :: Sparse.erase t k := by simp [Sparse.erase, hi]
      rw [this, Sparse.get, Sparse.get, ih]

theorem Sparse.get_insert_self (d : Nat → α) (m : Sparse α) (k : Nat) (v : α)
    (h : ∀ e ∈ m, e.1 ≠ k) : Sparse.get d (Sparse.insert m k v) k = v := by
  induction m with
  | nil => simp [Sparse.insert, Sparse.get]
  | cons e t ih =>
    obtain ⟨j, u⟩ := e
    have hj : j ≠ k := h (j, u) (by simp)
    by_cases hk : k < j
    · simp [Sparse.insert, hk, Sparse.get]
    · simpa [Sparse.insert, hk, Sparse.get, hj] using ih (fun e he => h e (by simp [he]))

theorem Sparse.get_insert_ne (d : Nat → α) (m : Sparse α) {j k : Nat} (v : α) (h : j ≠ k) :
    Sparse.get d (Sparse.insert m k v) j = Sparse.get d m j := by
  induction m with
  | nil => simp [Sparse.insert, Sparse.get, Ne.symm h]
  | cons e t ih =>
    obtain ⟨i, u⟩ := e
    by_cases hk : k < i
    · simp [Sparse.insert, hk, Sparse.get, Ne.symm h]
    · simp [Sparse.insert, hk, Sparse.get, ih]

theorem Sparse.erase_no_key (m : Sparse α) (k : Nat) : ∀ e ∈ Sparse.erase m k, e.1 ≠ k := by
  intro e he
  simpa using (List.mem_filter.mp he).2

variable [DecidableEq α]

/-- A read after a write to the same key gives the value written. -/
@[simp] theorem Sparse.get_set_self (d : Nat → α) (m : Sparse α) (k : Nat) (v : α) :
    Sparse.get d (Sparse.set d m k v) k = v := by
  unfold Sparse.set
  split
  · rw [Sparse.get_erase_self, ‹v = d k›]
  · exact Sparse.get_insert_self d _ k v (Sparse.erase_no_key m k)

/-- A write leaves every other key alone. -/
theorem Sparse.get_set_ne (d : Nat → α) (m : Sparse α) {j k : Nat} (v : α) (h : j ≠ k) :
    Sparse.get d (Sparse.set d m k v) j = Sparse.get d m j := by
  unfold Sparse.set
  split
  · exact Sparse.get_erase_ne d m h
  · rw [Sparse.get_insert_ne d _ v h, Sparse.get_erase_ne d m h]

/-- Both cases of a read after a write. -/
theorem Sparse.get_set (d : Nat → α) (m : Sparse α) (j k : Nat) (v : α) :
    Sparse.get d (Sparse.set d m k v) j = if j = k then v else Sparse.get d m j := by
  by_cases h : j = k
  · simp [h]
  · simp [h, Sparse.get_set_ne]

theorem Sparse.wf_cons (d : Nat → α) (k : Nat) (v : α) (t : Sparse α) :
    Sparse.wf d ((k, v) :: t) = true ↔
      v ≠ d k ∧ (∀ e ∈ t, k < e.1) ∧ Sparse.wf d t = true := by
  simp [Sparse.wf, and_assoc]

theorem Sparse.wf_filter (d : Nat → α) (m : Sparse α) (p : Nat × α → Bool)
    (h : Sparse.wf d m = true) : Sparse.wf d (m.filter p) = true := by
  induction m with
  | nil => rfl
  | cons e t ih =>
    obtain ⟨k, v⟩ := e
    rw [Sparse.wf_cons] at h
    by_cases hp : p (k, v) = true
    · rw [List.filter_cons_of_pos hp, Sparse.wf_cons]
      exact ⟨h.1, fun e he => h.2.1 e (List.mem_of_mem_filter he), ih h.2.2⟩
    · rw [List.filter_cons_of_neg hp]
      exact ih h.2.2

theorem Sparse.mem_insert (m : Sparse α) (k : Nat) (v : α) (e : Nat × α) :
    e ∈ Sparse.insert m k v ↔ e = (k, v) ∨ e ∈ m := by
  induction m with
  | nil => simp [Sparse.insert]
  | cons a t ih =>
    obtain ⟨j, u⟩ := a
    by_cases hk : k < j
    · simp [Sparse.insert, hk]
    · simp only [Sparse.insert, hk, if_false, List.mem_cons, ih]
      tauto

theorem Sparse.wf_insert (d : Nat → α) (m : Sparse α) (k : Nat) (v : α)
    (hv : v ≠ d k) (hm : Sparse.wf d m = true) (hk : ∀ e ∈ m, e.1 ≠ k) :
    Sparse.wf d (Sparse.insert m k v) = true := by
  induction m with
  | nil => simp [Sparse.insert, Sparse.wf, hv]
  | cons e t ih =>
    obtain ⟨j, u⟩ := e
    have hw := (Sparse.wf_cons d j u t).mp hm
    by_cases hlt : k < j
    · rw [Sparse.insert, if_pos hlt, Sparse.wf_cons]
      refine ⟨hv, fun e he => ?_, hm⟩
      rcases List.mem_cons.mp he with rfl | he'
      · exact hlt
      · exact Nat.lt_trans hlt (hw.2.1 e he')
    · rw [Sparse.insert, if_neg hlt, Sparse.wf_cons]
      refine ⟨hw.1, fun e he => ?_, ih hw.2.2 (fun e he => hk e (by simp [he]))⟩
      rcases (Sparse.mem_insert t k v e).mp he with rfl | he'
      · have : j ≠ k := hk (j, u) (by simp)
        show j < k
        omega
      · exact hw.2.1 e he'

/-- A write keeps the canonical form. -/
theorem Sparse.wf_set (d : Nat → α) (m : Sparse α) (k : Nat) (v : α) (h : Sparse.wf d m = true) :
    Sparse.wf d (Sparse.set d m k v) = true := by
  unfold Sparse.set
  split
  · exact Sparse.wf_filter d m _ h
  · exact Sparse.wf_insert d _ k v ‹_› (Sparse.wf_filter d m _ h) (Sparse.erase_no_key m k)

/-- Writing a list of values keeps the canonical form. -/
theorem Sparse.wf_setList (d : Nat → α) (m : Sparse α) (k : Nat) (vs : List α)
    (h : Sparse.wf d m = true) : Sparse.wf d (Sparse.setList d m k vs) = true := by
  induction vs generalizing m k with
  | nil => exact h
  | cons v vs ih => exact ih _ _ (Sparse.wf_set d m k v h)

/-- Clearing a range keeps the canonical form. -/
theorem Sparse.wf_clear (d : Nat → α) (m : Sparse α) (k n : Nat) (h : Sparse.wf d m = true) :
    Sparse.wf d (Sparse.clear m k n) = true :=
  Sparse.wf_filter d m _ h

/-- A list write leaves every key outside its range alone. -/
theorem Sparse.get_setList_outside (d : Nat → α) (m : Sparse α) (k j : Nat) (vs : List α)
    (h : j < k ∨ k + vs.length ≤ j) :
    Sparse.get d (Sparse.setList d m k vs) j = Sparse.get d m j := by
  induction vs generalizing m k with
  | nil => rfl
  | cons v vs ih =>
    simp only [List.length_cons] at h
    rw [Sparse.setList, ih _ _ (by omega), Sparse.get_set_ne _ _ _ (by omega)]

/-- A list write stores its values in order. -/
theorem Sparse.get_setList_inside (d : Nat → α) (m : Sparse α) (k i : Nat) (vs : List α)
    (h : i < vs.length) : Sparse.get d (Sparse.setList d m k vs) (k + i) = vs[i] := by
  induction vs generalizing m k i with
  | nil => simp at h
  | cons v vs ih =>
    cases i with
    | zero =>
      rw [Sparse.setList, Sparse.get_setList_outside _ _ _ _ _ (by omega)]
      simp
    | succ n =>
      have := ih (Sparse.set d m k v) (k + 1) n (by simpa using h)
      rw [Sparse.setList, show k + (n + 1) = k + 1 + n by omega, this]
      simp

end Sys2Proof.Machine
end

