-- ==== Sys2Proof/Laws/State.lean ====
section
/-! SUPPORT. One lemma for each field of State and each of its plain updates. -/

namespace Sys2Proof.Machine

set_option linter.unusedVariables false

/-! ### State.setCtx -/

@[simp] theorem State.setCtx_now (s : State) (c : Ctx) : (s.setCtx c).now = s.now := rfl
@[simp] theorem State.setCtx_ctx (s : State) (c : Ctx) : (s.setCtx c).ctx = c := rfl
@[simp] theorem State.setCtx_ctxs (s : State) (c : Ctx) : (s.setCtx c).ctxs = s.ctxs := rfl
@[simp] theorem State.setCtx_residues (s : State) (c : Ctx) : (s.setCtx c).residues = s.residues := rfl
@[simp] theorem State.setCtx_flying (s : State) (c : Ctx) : (s.setCtx c).flying = s.flying := rfl
@[simp] theorem State.setCtx_acting (s : State) (c : Ctx) : (s.setCtx c).acting = s.acting := rfl
@[simp] theorem State.setCtx_parts (s : State) (c : Ctx) : (s.setCtx c).parts = s.parts := rfl
@[simp] theorem State.setCtx_agenda (s : State) (c : Ctx) : (s.setCtx c).agenda = s.agenda := rfl
@[simp] theorem State.setCtx_free (s : State) (c : Ctx) : (s.setCtx c).free = s.free := rfl
@[simp] theorem State.setCtx_mem (s : State) (c : Ctx) : (s.setCtx c).mem = s.mem := rfl
@[simp] theorem State.setCtx_marks (s : State) (c : Ctx) : (s.setCtx c).marks = s.marks := rfl
@[simp] theorem State.setCtx_scopes (s : State) (c : Ctx) : (s.setCtx c).scopes = s.scopes := rfl
@[simp] theorem State.setCtx_tlb (s : State) (c : Ctx) : (s.setCtx c).tlb = s.tlb := rfl
@[simp] theorem State.setCtx_walks (s : State) (c : Ctx) : (s.setCtx c).walks = s.walks := rfl
@[simp] theorem State.setCtx_cores (s : State) (c : Ctx) : (s.setCtx c).cores = s.cores := rfl
@[simp] theorem State.setCtx_dies (s : State) (c : Ctx) : (s.setCtx c).dies = s.dies := rfl
@[simp] theorem State.setCtx_cancels (s : State) (c : Ctx) : (s.setCtx c).cancels = s.cancels := rfl
@[simp] theorem State.setCtx_staged (s : State) (c : Ctx) : (s.setCtx c).staged = s.staged := rfl
@[simp] theorem State.setCtx_committed (s : State) (c : Ctx) : (s.setCtx c).committed = s.committed := rfl
@[simp] theorem State.setCtx_pcstat (s : State) (c : Ctx) : (s.setCtx c).pcstat = s.pcstat := rfl
@[simp] theorem State.setCtx_psyncs (s : State) (c : Ctx) : (s.setCtx c).psyncs = s.psyncs := rfl
@[simp] theorem State.setCtx_qlevels (s : State) (c : Ctx) : (s.setCtx c).qlevels = s.qlevels := rfl
@[simp] theorem State.setCtx_qcfgs (s : State) (c : Ctx) : (s.setCtx c).qcfgs = s.qcfgs := rfl
@[simp] theorem State.setCtx_tasks (s : State) (c : Ctx) : (s.setCtx c).tasks = s.tasks := rfl
@[simp] theorem State.setCtx_postSeq (s : State) (c : Ctx) : (s.setCtx c).postSeq = s.postSeq := rfl
@[simp] theorem State.setCtx_slices (s : State) (c : Ctx) : (s.setCtx c).slices = s.slices := rfl
@[simp] theorem State.setCtx_admAt (s : State) (c : Ctx) : (s.setCtx c).admAt = s.admAt := rfl
@[simp] theorem State.setCtx_pmc (s : State) (c : Ctx) : (s.setCtx c).pmc = s.pmc := rfl
@[simp] theorem State.setCtx_regions (s : State) (c : Ctx) : (s.setCtx c).regions = s.regions := rfl
@[simp] theorem State.setCtx_windows (s : State) (c : Ctx) : (s.setCtx c).windows = s.windows := rfl
@[simp] theorem State.setCtx_contribs (s : State) (c : Ctx) : (s.setCtx c).contribs = s.contribs := rfl
@[simp] theorem State.setCtx_conns (s : State) (c : Ctx) : (s.setCtx c).conns = s.conns := rfl
@[simp] theorem State.setCtx_netHolds (s : State) (c : Ctx) : (s.setCtx c).netHolds = s.netHolds := rfl
@[simp] theorem State.setCtx_netSeq (s : State) (c : Ctx) : (s.setCtx c).netSeq = s.netSeq := rfl
@[simp] theorem State.setCtx_tssKeys (s : State) (c : Ctx) : (s.setCtx c).tssKeys = s.tssKeys := rfl
@[simp] theorem State.setCtx_timePort (s : State) (c : Ctx) : (s.setCtx c).timePort = s.timePort := rfl
@[simp] theorem State.setCtx_promoting (s : State) (c : Ctx) : (s.setCtx c).promoting = s.promoting := rfl
@[simp] theorem State.setCtx_promoEnd (s : State) (c : Ctx) : (s.setCtx c).promoEnd = s.promoEnd := rfl
@[simp] theorem State.setCtx_node (s : State) (c : Ctx) : (s.setCtx c).node = s.node := rfl
@[simp] theorem State.setCtx_links (s : State) (c : Ctx) : (s.setCtx c).links = s.links := rfl
@[simp] theorem State.setCtx_hqs (s : State) (c : Ctx) : (s.setCtx c).hqs = s.hqs := rfl
@[simp] theorem State.setCtx_hostChans (s : State) (c : Ctx) : (s.setCtx c).hostChans = s.hostChans := rfl
@[simp] theorem State.setCtx_feats (s : State) (c : Ctx) : (s.setCtx c).feats = s.feats := rfl
@[simp] theorem State.setCtx_functions (s : State) (c : Ctx) : (s.setCtx c).functions = s.functions := rfl
@[simp] theorem State.setCtx_stores (s : State) (c : Ctx) : (s.setCtx c).stores = s.stores := rfl
@[simp] theorem State.setCtx_atRest (s : State) (c : Ctx) : (s.setCtx c).atRest = s.atRest := rfl
@[simp] theorem State.setCtx_shapes (s : State) (c : Ctx) : (s.setCtx c).shapes = s.shapes := rfl
@[simp] theorem State.setCtx_demoted (s : State) (c : Ctx) : (s.setCtx c).demoted = s.demoted := rfl
@[simp] theorem State.setCtx_demCur (s : State) (c : Ctx) : (s.setCtx c).demCur = s.demCur := rfl
@[simp] theorem State.setCtx_demAt (s : State) (c : Ctx) : (s.setCtx c).demAt = s.demAt := rfl
@[simp] theorem State.setCtx_boot (s : State) (c : Ctx) : (s.setCtx c).boot = s.boot := rfl
@[simp] theorem State.setCtx_rstate (s : State) (c : Ctx) : (s.setCtx c).rstate = s.rstate := rfl
@[simp] theorem State.setCtx_imgaddr (s : State) (c : Ctx) : (s.setCtx c).imgaddr = s.imgaddr := rfl
@[simp] theorem State.setCtx_imglen (s : State) (c : Ctx) : (s.setCtx c).imglen = s.imglen := rfl
@[simp] theorem State.setCtx_flash (s : State) (c : Ctx) : (s.setCtx c).flash = s.flash := rfl
@[simp] theorem State.setCtx_devRec (s : State) (c : Ctx) : (s.setCtx c).devRec = s.devRec := rfl
@[simp] theorem State.setCtx_identity (s : State) (c : Ctx) : (s.setCtx c).identity = s.identity := rfl
@[simp] theorem State.setCtx_hostMem (s : State) (c : Ctx) : (s.setCtx c).hostMem = s.hostMem := rfl
@[simp] theorem State.setCtx_mlog (s : State) (c : Ctx) : (s.setCtx c).mlog = s.mlog := rfl
@[simp] theorem State.setCtx_repair (s : State) (c : Ctx) : (s.setCtx c).repair = s.repair := rfl
@[simp] theorem State.setCtx_thermal (s : State) (c : Ctx) : (s.setCtx c).thermal = s.thermal := rfl
@[simp] theorem State.setCtx_clusters (s : State) (c : Ctx) : (s.setCtx c).clusters = s.clusters := rfl
@[simp] theorem State.setCtx_voff (s : State) (c : Ctx) : (s.setCtx c).voff = s.voff := rfl
@[simp] theorem State.setCtx_slew (s : State) (c : Ctx) : (s.setCtx c).slew = s.slew := rfl
@[simp] theorem State.setCtx_slewAcc (s : State) (c : Ctx) : (s.setCtx c).slewAcc = s.slewAcc := rfl
@[simp] theorem State.setCtx_retired (s : State) (c : Ctx) : (s.setCtx c).retired = s.retired := rfl
@[simp] theorem State.setCtx_frames (s : State) (c : Ctx) : (s.setCtx c).frames = s.frames := rfl
@[simp] theorem State.setCtx_quotaUsed (s : State) (c : Ctx) : (s.setCtx c).quotaUsed = s.quotaUsed := rfl
@[simp] theorem State.setCtx_outbox (s : State) (c : Ctx) : (s.setCtx c).outbox = s.outbox := rfl

/-! ### State.setBank -/

@[simp] theorem State.setBank_now (s : State) (b : RegBank) : (s.setBank b).now = s.now := rfl
@[simp] theorem State.setBank_ctx (s : State) (b : RegBank) : (s.setBank b).ctx = s.ctx.setBank b := rfl
@[simp] theorem State.setBank_ctxs (s : State) (b : RegBank) : (s.setBank b).ctxs = s.ctxs := rfl
@[simp] theorem State.setBank_residues (s : State) (b : RegBank) : (s.setBank b).residues = s.residues := rfl
@[simp] theorem State.setBank_flying (s : State) (b : RegBank) : (s.setBank b).flying = s.flying := rfl
@[simp] theorem State.setBank_acting (s : State) (b : RegBank) : (s.setBank b).acting = s.acting := rfl
@[simp] theorem State.setBank_parts (s : State) (b : RegBank) : (s.setBank b).parts = s.parts := rfl
@[simp] theorem State.setBank_agenda (s : State) (b : RegBank) : (s.setBank b).agenda = s.agenda := rfl
@[simp] theorem State.setBank_free (s : State) (b : RegBank) : (s.setBank b).free = s.free := rfl
@[simp] theorem State.setBank_mem (s : State) (b : RegBank) : (s.setBank b).mem = s.mem := rfl
@[simp] theorem State.setBank_marks (s : State) (b : RegBank) : (s.setBank b).marks = s.marks := rfl
@[simp] theorem State.setBank_scopes (s : State) (b : RegBank) : (s.setBank b).scopes = s.scopes := rfl
@[simp] theorem State.setBank_tlb (s : State) (b : RegBank) : (s.setBank b).tlb = s.tlb := rfl
@[simp] theorem State.setBank_walks (s : State) (b : RegBank) : (s.setBank b).walks = s.walks := rfl
@[simp] theorem State.setBank_cores (s : State) (b : RegBank) : (s.setBank b).cores = s.cores := rfl
@[simp] theorem State.setBank_dies (s : State) (b : RegBank) : (s.setBank b).dies = s.dies := rfl
@[simp] theorem State.setBank_cancels (s : State) (b : RegBank) : (s.setBank b).cancels = s.cancels := rfl
@[simp] theorem State.setBank_staged (s : State) (b : RegBank) : (s.setBank b).staged = s.staged := rfl
@[simp] theorem State.setBank_committed (s : State) (b : RegBank) : (s.setBank b).committed = s.committed := rfl
@[simp] theorem State.setBank_pcstat (s : State) (b : RegBank) : (s.setBank b).pcstat = s.pcstat := rfl
@[simp] theorem State.setBank_psyncs (s : State) (b : RegBank) : (s.setBank b).psyncs = s.psyncs := rfl
@[simp] theorem State.setBank_qlevels (s : State) (b : RegBank) : (s.setBank b).qlevels = s.qlevels := rfl
@[simp] theorem State.setBank_qcfgs (s : State) (b : RegBank) : (s.setBank b).qcfgs = s.qcfgs := rfl
@[simp] theorem State.setBank_tasks (s : State) (b : RegBank) : (s.setBank b).tasks = s.tasks := rfl
@[simp] theorem State.setBank_postSeq (s : State) (b : RegBank) : (s.setBank b).postSeq = s.postSeq := rfl
@[simp] theorem State.setBank_slices (s : State) (b : RegBank) : (s.setBank b).slices = s.slices := rfl
@[simp] theorem State.setBank_admAt (s : State) (b : RegBank) : (s.setBank b).admAt = s.admAt := rfl
@[simp] theorem State.setBank_pmc (s : State) (b : RegBank) : (s.setBank b).pmc = s.pmc := rfl
@[simp] theorem State.setBank_regions (s : State) (b : RegBank) : (s.setBank b).regions = s.regions := rfl
@[simp] theorem State.setBank_windows (s : State) (b : RegBank) : (s.setBank b).windows = s.windows := rfl
@[simp] theorem State.setBank_contribs (s : State) (b : RegBank) : (s.setBank b).contribs = s.contribs := rfl
@[simp] theorem State.setBank_conns (s : State) (b : RegBank) : (s.setBank b).conns = s.conns := rfl
@[simp] theorem State.setBank_netHolds (s : State) (b : RegBank) : (s.setBank b).netHolds = s.netHolds := rfl
@[simp] theorem State.setBank_netSeq (s : State) (b : RegBank) : (s.setBank b).netSeq = s.netSeq := rfl
@[simp] theorem State.setBank_tssKeys (s : State) (b : RegBank) : (s.setBank b).tssKeys = s.tssKeys := rfl
@[simp] theorem State.setBank_timePort (s : State) (b : RegBank) : (s.setBank b).timePort = s.timePort := rfl
@[simp] theorem State.setBank_promoting (s : State) (b : RegBank) : (s.setBank b).promoting = s.promoting := rfl
@[simp] theorem State.setBank_promoEnd (s : State) (b : RegBank) : (s.setBank b).promoEnd = s.promoEnd := rfl
@[simp] theorem State.setBank_node (s : State) (b : RegBank) : (s.setBank b).node = s.node := rfl
@[simp] theorem State.setBank_links (s : State) (b : RegBank) : (s.setBank b).links = s.links := rfl
@[simp] theorem State.setBank_hqs (s : State) (b : RegBank) : (s.setBank b).hqs = s.hqs := rfl
@[simp] theorem State.setBank_hostChans (s : State) (b : RegBank) : (s.setBank b).hostChans = s.hostChans := rfl
@[simp] theorem State.setBank_feats (s : State) (b : RegBank) : (s.setBank b).feats = s.feats := rfl
@[simp] theorem State.setBank_functions (s : State) (b : RegBank) : (s.setBank b).functions = s.functions := rfl
@[simp] theorem State.setBank_stores (s : State) (b : RegBank) : (s.setBank b).stores = s.stores := rfl
@[simp] theorem State.setBank_atRest (s : State) (b : RegBank) : (s.setBank b).atRest = s.atRest := rfl
@[simp] theorem State.setBank_shapes (s : State) (b : RegBank) : (s.setBank b).shapes = s.shapes := rfl
@[simp] theorem State.setBank_demoted (s : State) (b : RegBank) : (s.setBank b).demoted = s.demoted := rfl
@[simp] theorem State.setBank_demCur (s : State) (b : RegBank) : (s.setBank b).demCur = s.demCur := rfl
@[simp] theorem State.setBank_demAt (s : State) (b : RegBank) : (s.setBank b).demAt = s.demAt := rfl
@[simp] theorem State.setBank_boot (s : State) (b : RegBank) : (s.setBank b).boot = s.boot := rfl
@[simp] theorem State.setBank_rstate (s : State) (b : RegBank) : (s.setBank b).rstate = s.rstate := rfl
@[simp] theorem State.setBank_imgaddr (s : State) (b : RegBank) : (s.setBank b).imgaddr = s.imgaddr := rfl
@[simp] theorem State.setBank_imglen (s : State) (b : RegBank) : (s.setBank b).imglen = s.imglen := rfl
@[simp] theorem State.setBank_flash (s : State) (b : RegBank) : (s.setBank b).flash = s.flash := rfl
@[simp] theorem State.setBank_devRec (s : State) (b : RegBank) : (s.setBank b).devRec = s.devRec := rfl
@[simp] theorem State.setBank_identity (s : State) (b : RegBank) : (s.setBank b).identity = s.identity := rfl
@[simp] theorem State.setBank_hostMem (s : State) (b : RegBank) : (s.setBank b).hostMem = s.hostMem := rfl
@[simp] theorem State.setBank_mlog (s : State) (b : RegBank) : (s.setBank b).mlog = s.mlog := rfl
@[simp] theorem State.setBank_repair (s : State) (b : RegBank) : (s.setBank b).repair = s.repair := rfl
@[simp] theorem State.setBank_thermal (s : State) (b : RegBank) : (s.setBank b).thermal = s.thermal := rfl
@[simp] theorem State.setBank_clusters (s : State) (b : RegBank) : (s.setBank b).clusters = s.clusters := rfl
@[simp] theorem State.setBank_voff (s : State) (b : RegBank) : (s.setBank b).voff = s.voff := rfl
@[simp] theorem State.setBank_slew (s : State) (b : RegBank) : (s.setBank b).slew = s.slew := rfl
@[simp] theorem State.setBank_slewAcc (s : State) (b : RegBank) : (s.setBank b).slewAcc = s.slewAcc := rfl
@[simp] theorem State.setBank_retired (s : State) (b : RegBank) : (s.setBank b).retired = s.retired := rfl
@[simp] theorem State.setBank_frames (s : State) (b : RegBank) : (s.setBank b).frames = s.frames := rfl
@[simp] theorem State.setBank_quotaUsed (s : State) (b : RegBank) : (s.setBank b).quotaUsed = s.quotaUsed := rfl
@[simp] theorem State.setBank_outbox (s : State) (b : RegBank) : (s.setBank b).outbox = s.outbox := rfl

/-! ### State.setPc -/

@[simp] theorem State.setPc_now (s : State) (p : Word) : (s.setPc p).now = s.now := rfl
@[simp] theorem State.setPc_ctx (s : State) (p : Word) : (s.setPc p).ctx = { s.ctx with pc := p } := rfl
@[simp] theorem State.setPc_ctxs (s : State) (p : Word) : (s.setPc p).ctxs = s.ctxs := rfl
@[simp] theorem State.setPc_residues (s : State) (p : Word) : (s.setPc p).residues = s.residues := rfl
@[simp] theorem State.setPc_flying (s : State) (p : Word) : (s.setPc p).flying = s.flying := rfl
@[simp] theorem State.setPc_acting (s : State) (p : Word) : (s.setPc p).acting = s.acting := rfl
@[simp] theorem State.setPc_parts (s : State) (p : Word) : (s.setPc p).parts = s.parts := rfl
@[simp] theorem State.setPc_agenda (s : State) (p : Word) : (s.setPc p).agenda = s.agenda := rfl
@[simp] theorem State.setPc_free (s : State) (p : Word) : (s.setPc p).free = s.free := rfl
@[simp] theorem State.setPc_mem (s : State) (p : Word) : (s.setPc p).mem = s.mem := rfl
@[simp] theorem State.setPc_marks (s : State) (p : Word) : (s.setPc p).marks = s.marks := rfl
@[simp] theorem State.setPc_scopes (s : State) (p : Word) : (s.setPc p).scopes = s.scopes := rfl
@[simp] theorem State.setPc_tlb (s : State) (p : Word) : (s.setPc p).tlb = s.tlb := rfl
@[simp] theorem State.setPc_walks (s : State) (p : Word) : (s.setPc p).walks = s.walks := rfl
@[simp] theorem State.setPc_cores (s : State) (p : Word) : (s.setPc p).cores = s.cores := rfl
@[simp] theorem State.setPc_dies (s : State) (p : Word) : (s.setPc p).dies = s.dies := rfl
@[simp] theorem State.setPc_cancels (s : State) (p : Word) : (s.setPc p).cancels = s.cancels := rfl
@[simp] theorem State.setPc_staged (s : State) (p : Word) : (s.setPc p).staged = s.staged := rfl
@[simp] theorem State.setPc_committed (s : State) (p : Word) : (s.setPc p).committed = s.committed := rfl
@[simp] theorem State.setPc_pcstat (s : State) (p : Word) : (s.setPc p).pcstat = s.pcstat := rfl
@[simp] theorem State.setPc_psyncs (s : State) (p : Word) : (s.setPc p).psyncs = s.psyncs := rfl
@[simp] theorem State.setPc_qlevels (s : State) (p : Word) : (s.setPc p).qlevels = s.qlevels := rfl
@[simp] theorem State.setPc_qcfgs (s : State) (p : Word) : (s.setPc p).qcfgs = s.qcfgs := rfl
@[simp] theorem State.setPc_tasks (s : State) (p : Word) : (s.setPc p).tasks = s.tasks := rfl
@[simp] theorem State.setPc_postSeq (s : State) (p : Word) : (s.setPc p).postSeq = s.postSeq := rfl
@[simp] theorem State.setPc_slices (s : State) (p : Word) : (s.setPc p).slices = s.slices := rfl
@[simp] theorem State.setPc_admAt (s : State) (p : Word) : (s.setPc p).admAt = s.admAt := rfl
@[simp] theorem State.setPc_pmc (s : State) (p : Word) : (s.setPc p).pmc = s.pmc := rfl
@[simp] theorem State.setPc_regions (s : State) (p : Word) : (s.setPc p).regions = s.regions := rfl
@[simp] theorem State.setPc_windows (s : State) (p : Word) : (s.setPc p).windows = s.windows := rfl
@[simp] theorem State.setPc_contribs (s : State) (p : Word) : (s.setPc p).contribs = s.contribs := rfl
@[simp] theorem State.setPc_conns (s : State) (p : Word) : (s.setPc p).conns = s.conns := rfl
@[simp] theorem State.setPc_netHolds (s : State) (p : Word) : (s.setPc p).netHolds = s.netHolds := rfl
@[simp] theorem State.setPc_netSeq (s : State) (p : Word) : (s.setPc p).netSeq = s.netSeq := rfl
@[simp] theorem State.setPc_tssKeys (s : State) (p : Word) : (s.setPc p).tssKeys = s.tssKeys := rfl
@[simp] theorem State.setPc_timePort (s : State) (p : Word) : (s.setPc p).timePort = s.timePort := rfl
@[simp] theorem State.setPc_promoting (s : State) (p : Word) : (s.setPc p).promoting = s.promoting := rfl
@[simp] theorem State.setPc_promoEnd (s : State) (p : Word) : (s.setPc p).promoEnd = s.promoEnd := rfl
@[simp] theorem State.setPc_node (s : State) (p : Word) : (s.setPc p).node = s.node := rfl
@[simp] theorem State.setPc_links (s : State) (p : Word) : (s.setPc p).links = s.links := rfl
@[simp] theorem State.setPc_hqs (s : State) (p : Word) : (s.setPc p).hqs = s.hqs := rfl
@[simp] theorem State.setPc_hostChans (s : State) (p : Word) : (s.setPc p).hostChans = s.hostChans := rfl
@[simp] theorem State.setPc_feats (s : State) (p : Word) : (s.setPc p).feats = s.feats := rfl
@[simp] theorem State.setPc_functions (s : State) (p : Word) : (s.setPc p).functions = s.functions := rfl
@[simp] theorem State.setPc_stores (s : State) (p : Word) : (s.setPc p).stores = s.stores := rfl
@[simp] theorem State.setPc_atRest (s : State) (p : Word) : (s.setPc p).atRest = s.atRest := rfl
@[simp] theorem State.setPc_shapes (s : State) (p : Word) : (s.setPc p).shapes = s.shapes := rfl
@[simp] theorem State.setPc_demoted (s : State) (p : Word) : (s.setPc p).demoted = s.demoted := rfl
@[simp] theorem State.setPc_demCur (s : State) (p : Word) : (s.setPc p).demCur = s.demCur := rfl
@[simp] theorem State.setPc_demAt (s : State) (p : Word) : (s.setPc p).demAt = s.demAt := rfl
@[simp] theorem State.setPc_boot (s : State) (p : Word) : (s.setPc p).boot = s.boot := rfl
@[simp] theorem State.setPc_rstate (s : State) (p : Word) : (s.setPc p).rstate = s.rstate := rfl
@[simp] theorem State.setPc_imgaddr (s : State) (p : Word) : (s.setPc p).imgaddr = s.imgaddr := rfl
@[simp] theorem State.setPc_imglen (s : State) (p : Word) : (s.setPc p).imglen = s.imglen := rfl
@[simp] theorem State.setPc_flash (s : State) (p : Word) : (s.setPc p).flash = s.flash := rfl
@[simp] theorem State.setPc_devRec (s : State) (p : Word) : (s.setPc p).devRec = s.devRec := rfl
@[simp] theorem State.setPc_identity (s : State) (p : Word) : (s.setPc p).identity = s.identity := rfl
@[simp] theorem State.setPc_hostMem (s : State) (p : Word) : (s.setPc p).hostMem = s.hostMem := rfl
@[simp] theorem State.setPc_mlog (s : State) (p : Word) : (s.setPc p).mlog = s.mlog := rfl
@[simp] theorem State.setPc_repair (s : State) (p : Word) : (s.setPc p).repair = s.repair := rfl
@[simp] theorem State.setPc_thermal (s : State) (p : Word) : (s.setPc p).thermal = s.thermal := rfl
@[simp] theorem State.setPc_clusters (s : State) (p : Word) : (s.setPc p).clusters = s.clusters := rfl
@[simp] theorem State.setPc_voff (s : State) (p : Word) : (s.setPc p).voff = s.voff := rfl
@[simp] theorem State.setPc_slew (s : State) (p : Word) : (s.setPc p).slew = s.slew := rfl
@[simp] theorem State.setPc_slewAcc (s : State) (p : Word) : (s.setPc p).slewAcc = s.slewAcc := rfl
@[simp] theorem State.setPc_retired (s : State) (p : Word) : (s.setPc p).retired = s.retired := rfl
@[simp] theorem State.setPc_frames (s : State) (p : Word) : (s.setPc p).frames = s.frames := rfl
@[simp] theorem State.setPc_quotaUsed (s : State) (p : Word) : (s.setPc p).quotaUsed = s.quotaUsed := rfl
@[simp] theorem State.setPc_outbox (s : State) (p : Word) : (s.setPc p).outbox = s.outbox := rfl

/-! ### State.setMem -/

@[simp] theorem State.setMem_now (s : State) (m : List Host.Cell) : (s.setMem m).now = s.now := rfl
@[simp] theorem State.setMem_ctx (s : State) (m : List Host.Cell) : (s.setMem m).ctx = s.ctx := rfl
@[simp] theorem State.setMem_ctxs (s : State) (m : List Host.Cell) : (s.setMem m).ctxs = s.ctxs := rfl
@[simp] theorem State.setMem_residues (s : State) (m : List Host.Cell) : (s.setMem m).residues = s.residues := rfl
@[simp] theorem State.setMem_flying (s : State) (m : List Host.Cell) : (s.setMem m).flying = s.flying := rfl
@[simp] theorem State.setMem_acting (s : State) (m : List Host.Cell) : (s.setMem m).acting = s.acting := rfl
@[simp] theorem State.setMem_parts (s : State) (m : List Host.Cell) : (s.setMem m).parts = s.parts := rfl
@[simp] theorem State.setMem_agenda (s : State) (m : List Host.Cell) : (s.setMem m).agenda = s.agenda := rfl
@[simp] theorem State.setMem_free (s : State) (m : List Host.Cell) : (s.setMem m).free = s.free := rfl
@[simp] theorem State.setMem_mem (s : State) (m : List Host.Cell) : (s.setMem m).mem = m := rfl
@[simp] theorem State.setMem_marks (s : State) (m : List Host.Cell) : (s.setMem m).marks = s.marks := rfl
@[simp] theorem State.setMem_scopes (s : State) (m : List Host.Cell) : (s.setMem m).scopes = s.scopes := rfl
@[simp] theorem State.setMem_tlb (s : State) (m : List Host.Cell) : (s.setMem m).tlb = s.tlb := rfl
@[simp] theorem State.setMem_walks (s : State) (m : List Host.Cell) : (s.setMem m).walks = s.walks := rfl
@[simp] theorem State.setMem_cores (s : State) (m : List Host.Cell) : (s.setMem m).cores = s.cores := rfl
@[simp] theorem State.setMem_dies (s : State) (m : List Host.Cell) : (s.setMem m).dies = s.dies := rfl
@[simp] theorem State.setMem_cancels (s : State) (m : List Host.Cell) : (s.setMem m).cancels = s.cancels := rfl
@[simp] theorem State.setMem_staged (s : State) (m : List Host.Cell) : (s.setMem m).staged = s.staged := rfl
@[simp] theorem State.setMem_committed (s : State) (m : List Host.Cell) : (s.setMem m).committed = s.committed := rfl
@[simp] theorem State.setMem_pcstat (s : State) (m : List Host.Cell) : (s.setMem m).pcstat = s.pcstat := rfl
@[simp] theorem State.setMem_psyncs (s : State) (m : List Host.Cell) : (s.setMem m).psyncs = s.psyncs := rfl
@[simp] theorem State.setMem_qlevels (s : State) (m : List Host.Cell) : (s.setMem m).qlevels = s.qlevels := rfl
@[simp] theorem State.setMem_qcfgs (s : State) (m : List Host.Cell) : (s.setMem m).qcfgs = s.qcfgs := rfl
@[simp] theorem State.setMem_tasks (s : State) (m : List Host.Cell) : (s.setMem m).tasks = s.tasks := rfl
@[simp] theorem State.setMem_postSeq (s : State) (m : List Host.Cell) : (s.setMem m).postSeq = s.postSeq := rfl
@[simp] theorem State.setMem_slices (s : State) (m : List Host.Cell) : (s.setMem m).slices = s.slices := rfl
@[simp] theorem State.setMem_admAt (s : State) (m : List Host.Cell) : (s.setMem m).admAt = s.admAt := rfl
@[simp] theorem State.setMem_pmc (s : State) (m : List Host.Cell) : (s.setMem m).pmc = s.pmc := rfl
@[simp] theorem State.setMem_regions (s : State) (m : List Host.Cell) : (s.setMem m).regions = s.regions := rfl
@[simp] theorem State.setMem_windows (s : State) (m : List Host.Cell) : (s.setMem m).windows = s.windows := rfl
@[simp] theorem State.setMem_contribs (s : State) (m : List Host.Cell) : (s.setMem m).contribs = s.contribs := rfl
@[simp] theorem State.setMem_conns (s : State) (m : List Host.Cell) : (s.setMem m).conns = s.conns := rfl
@[simp] theorem State.setMem_netHolds (s : State) (m : List Host.Cell) : (s.setMem m).netHolds = s.netHolds := rfl
@[simp] theorem State.setMem_netSeq (s : State) (m : List Host.Cell) : (s.setMem m).netSeq = s.netSeq := rfl
@[simp] theorem State.setMem_tssKeys (s : State) (m : List Host.Cell) : (s.setMem m).tssKeys = s.tssKeys := rfl
@[simp] theorem State.setMem_timePort (s : State) (m : List Host.Cell) : (s.setMem m).timePort = s.timePort := rfl
@[simp] theorem State.setMem_promoting (s : State) (m : List Host.Cell) : (s.setMem m).promoting = s.promoting := rfl
@[simp] theorem State.setMem_promoEnd (s : State) (m : List Host.Cell) : (s.setMem m).promoEnd = s.promoEnd := rfl
@[simp] theorem State.setMem_node (s : State) (m : List Host.Cell) : (s.setMem m).node = s.node := rfl
@[simp] theorem State.setMem_links (s : State) (m : List Host.Cell) : (s.setMem m).links = s.links := rfl
@[simp] theorem State.setMem_hqs (s : State) (m : List Host.Cell) : (s.setMem m).hqs = s.hqs := rfl
@[simp] theorem State.setMem_hostChans (s : State) (m : List Host.Cell) : (s.setMem m).hostChans = s.hostChans := rfl
@[simp] theorem State.setMem_feats (s : State) (m : List Host.Cell) : (s.setMem m).feats = s.feats := rfl
@[simp] theorem State.setMem_functions (s : State) (m : List Host.Cell) : (s.setMem m).functions = s.functions := rfl
@[simp] theorem State.setMem_stores (s : State) (m : List Host.Cell) : (s.setMem m).stores = s.stores := rfl
@[simp] theorem State.setMem_atRest (s : State) (m : List Host.Cell) : (s.setMem m).atRest = s.atRest := rfl
@[simp] theorem State.setMem_shapes (s : State) (m : List Host.Cell) : (s.setMem m).shapes = s.shapes := rfl
@[simp] theorem State.setMem_demoted (s : State) (m : List Host.Cell) : (s.setMem m).demoted = s.demoted := rfl
@[simp] theorem State.setMem_demCur (s : State) (m : List Host.Cell) : (s.setMem m).demCur = s.demCur := rfl
@[simp] theorem State.setMem_demAt (s : State) (m : List Host.Cell) : (s.setMem m).demAt = s.demAt := rfl
@[simp] theorem State.setMem_boot (s : State) (m : List Host.Cell) : (s.setMem m).boot = s.boot := rfl
@[simp] theorem State.setMem_rstate (s : State) (m : List Host.Cell) : (s.setMem m).rstate = s.rstate := rfl
@[simp] theorem State.setMem_imgaddr (s : State) (m : List Host.Cell) : (s.setMem m).imgaddr = s.imgaddr := rfl
@[simp] theorem State.setMem_imglen (s : State) (m : List Host.Cell) : (s.setMem m).imglen = s.imglen := rfl
@[simp] theorem State.setMem_flash (s : State) (m : List Host.Cell) : (s.setMem m).flash = s.flash := rfl
@[simp] theorem State.setMem_devRec (s : State) (m : List Host.Cell) : (s.setMem m).devRec = s.devRec := rfl
@[simp] theorem State.setMem_identity (s : State) (m : List Host.Cell) : (s.setMem m).identity = s.identity := rfl
@[simp] theorem State.setMem_hostMem (s : State) (m : List Host.Cell) : (s.setMem m).hostMem = s.hostMem := rfl
@[simp] theorem State.setMem_mlog (s : State) (m : List Host.Cell) : (s.setMem m).mlog = s.mlog := rfl
@[simp] theorem State.setMem_repair (s : State) (m : List Host.Cell) : (s.setMem m).repair = s.repair := rfl
@[simp] theorem State.setMem_thermal (s : State) (m : List Host.Cell) : (s.setMem m).thermal = s.thermal := rfl
@[simp] theorem State.setMem_clusters (s : State) (m : List Host.Cell) : (s.setMem m).clusters = s.clusters := rfl
@[simp] theorem State.setMem_voff (s : State) (m : List Host.Cell) : (s.setMem m).voff = s.voff := rfl
@[simp] theorem State.setMem_slew (s : State) (m : List Host.Cell) : (s.setMem m).slew = s.slew := rfl
@[simp] theorem State.setMem_slewAcc (s : State) (m : List Host.Cell) : (s.setMem m).slewAcc = s.slewAcc := rfl
@[simp] theorem State.setMem_retired (s : State) (m : List Host.Cell) : (s.setMem m).retired = s.retired := rfl
@[simp] theorem State.setMem_frames (s : State) (m : List Host.Cell) : (s.setMem m).frames = s.frames := rfl
@[simp] theorem State.setMem_quotaUsed (s : State) (m : List Host.Cell) : (s.setMem m).quotaUsed = s.quotaUsed := rfl
@[simp] theorem State.setMem_outbox (s : State) (m : List Host.Cell) : (s.setMem m).outbox = s.outbox := rfl

/-! ### State.wr -/

@[simp] theorem State.wr_now (s : State) (r : Reg) (v : SReg) : (s.wr r v).now = s.now := rfl
@[simp] theorem State.wr_ctx (s : State) (r : Reg) (v : SReg) : (s.wr r v).ctx = s.ctx.writeS r v := rfl
@[simp] theorem State.wr_ctxs (s : State) (r : Reg) (v : SReg) : (s.wr r v).ctxs = s.ctxs := rfl
@[simp] theorem State.wr_residues (s : State) (r : Reg) (v : SReg) : (s.wr r v).residues = s.residues := rfl
@[simp] theorem State.wr_flying (s : State) (r : Reg) (v : SReg) : (s.wr r v).flying = s.flying := rfl
@[simp] theorem State.wr_acting (s : State) (r : Reg) (v : SReg) : (s.wr r v).acting = s.acting := rfl
@[simp] theorem State.wr_parts (s : State) (r : Reg) (v : SReg) : (s.wr r v).parts = s.parts := rfl
@[simp] theorem State.wr_agenda (s : State) (r : Reg) (v : SReg) : (s.wr r v).agenda = s.agenda := rfl
@[simp] theorem State.wr_free (s : State) (r : Reg) (v : SReg) : (s.wr r v).free = s.free := rfl
@[simp] theorem State.wr_mem (s : State) (r : Reg) (v : SReg) : (s.wr r v).mem = s.mem := rfl
@[simp] theorem State.wr_marks (s : State) (r : Reg) (v : SReg) : (s.wr r v).marks = s.marks := rfl
@[simp] theorem State.wr_scopes (s : State) (r : Reg) (v : SReg) : (s.wr r v).scopes = s.scopes := rfl
@[simp] theorem State.wr_tlb (s : State) (r : Reg) (v : SReg) : (s.wr r v).tlb = s.tlb := rfl
@[simp] theorem State.wr_walks (s : State) (r : Reg) (v : SReg) : (s.wr r v).walks = s.walks := rfl
@[simp] theorem State.wr_cores (s : State) (r : Reg) (v : SReg) : (s.wr r v).cores = s.cores := rfl
@[simp] theorem State.wr_dies (s : State) (r : Reg) (v : SReg) : (s.wr r v).dies = s.dies := rfl
@[simp] theorem State.wr_cancels (s : State) (r : Reg) (v : SReg) : (s.wr r v).cancels = s.cancels := rfl
@[simp] theorem State.wr_staged (s : State) (r : Reg) (v : SReg) : (s.wr r v).staged = s.staged := rfl
@[simp] theorem State.wr_committed (s : State) (r : Reg) (v : SReg) : (s.wr r v).committed = s.committed := rfl
@[simp] theorem State.wr_pcstat (s : State) (r : Reg) (v : SReg) : (s.wr r v).pcstat = s.pcstat := rfl
@[simp] theorem State.wr_psyncs (s : State) (r : Reg) (v : SReg) : (s.wr r v).psyncs = s.psyncs := rfl
@[simp] theorem State.wr_qlevels (s : State) (r : Reg) (v : SReg) : (s.wr r v).qlevels = s.qlevels := rfl
@[simp] theorem State.wr_qcfgs (s : State) (r : Reg) (v : SReg) : (s.wr r v).qcfgs = s.qcfgs := rfl
@[simp] theorem State.wr_tasks (s : State) (r : Reg) (v : SReg) : (s.wr r v).tasks = s.tasks := rfl
@[simp] theorem State.wr_postSeq (s : State) (r : Reg) (v : SReg) : (s.wr r v).postSeq = s.postSeq := rfl
@[simp] theorem State.wr_slices (s : State) (r : Reg) (v : SReg) : (s.wr r v).slices = s.slices := rfl
@[simp] theorem State.wr_admAt (s : State) (r : Reg) (v : SReg) : (s.wr r v).admAt = s.admAt := rfl
@[simp] theorem State.wr_pmc (s : State) (r : Reg) (v : SReg) : (s.wr r v).pmc = s.pmc := rfl
@[simp] theorem State.wr_regions (s : State) (r : Reg) (v : SReg) : (s.wr r v).regions = s.regions := rfl
@[simp] theorem State.wr_windows (s : State) (r : Reg) (v : SReg) : (s.wr r v).windows = s.windows := rfl
@[simp] theorem State.wr_contribs (s : State) (r : Reg) (v : SReg) : (s.wr r v).contribs = s.contribs := rfl
@[simp] theorem State.wr_conns (s : State) (r : Reg) (v : SReg) : (s.wr r v).conns = s.conns := rfl
@[simp] theorem State.wr_netHolds (s : State) (r : Reg) (v : SReg) : (s.wr r v).netHolds = s.netHolds := rfl
@[simp] theorem State.wr_netSeq (s : State) (r : Reg) (v : SReg) : (s.wr r v).netSeq = s.netSeq := rfl
@[simp] theorem State.wr_tssKeys (s : State) (r : Reg) (v : SReg) : (s.wr r v).tssKeys = s.tssKeys := rfl
@[simp] theorem State.wr_timePort (s : State) (r : Reg) (v : SReg) : (s.wr r v).timePort = s.timePort := rfl
@[simp] theorem State.wr_promoting (s : State) (r : Reg) (v : SReg) : (s.wr r v).promoting = s.promoting := rfl
@[simp] theorem State.wr_promoEnd (s : State) (r : Reg) (v : SReg) : (s.wr r v).promoEnd = s.promoEnd := rfl
@[simp] theorem State.wr_node (s : State) (r : Reg) (v : SReg) : (s.wr r v).node = s.node := rfl
@[simp] theorem State.wr_links (s : State) (r : Reg) (v : SReg) : (s.wr r v).links = s.links := rfl
@[simp] theorem State.wr_hqs (s : State) (r : Reg) (v : SReg) : (s.wr r v).hqs = s.hqs := rfl
@[simp] theorem State.wr_hostChans (s : State) (r : Reg) (v : SReg) : (s.wr r v).hostChans = s.hostChans := rfl
@[simp] theorem State.wr_feats (s : State) (r : Reg) (v : SReg) : (s.wr r v).feats = s.feats := rfl
@[simp] theorem State.wr_functions (s : State) (r : Reg) (v : SReg) : (s.wr r v).functions = s.functions := rfl
@[simp] theorem State.wr_stores (s : State) (r : Reg) (v : SReg) : (s.wr r v).stores = s.stores := rfl
@[simp] theorem State.wr_atRest (s : State) (r : Reg) (v : SReg) : (s.wr r v).atRest = s.atRest := rfl
@[simp] theorem State.wr_shapes (s : State) (r : Reg) (v : SReg) : (s.wr r v).shapes = s.shapes := rfl
@[simp] theorem State.wr_demoted (s : State) (r : Reg) (v : SReg) : (s.wr r v).demoted = s.demoted := rfl
@[simp] theorem State.wr_demCur (s : State) (r : Reg) (v : SReg) : (s.wr r v).demCur = s.demCur := rfl
@[simp] theorem State.wr_demAt (s : State) (r : Reg) (v : SReg) : (s.wr r v).demAt = s.demAt := rfl
@[simp] theorem State.wr_boot (s : State) (r : Reg) (v : SReg) : (s.wr r v).boot = s.boot := rfl
@[simp] theorem State.wr_rstate (s : State) (r : Reg) (v : SReg) : (s.wr r v).rstate = s.rstate := rfl
@[simp] theorem State.wr_imgaddr (s : State) (r : Reg) (v : SReg) : (s.wr r v).imgaddr = s.imgaddr := rfl
@[simp] theorem State.wr_imglen (s : State) (r : Reg) (v : SReg) : (s.wr r v).imglen = s.imglen := rfl
@[simp] theorem State.wr_flash (s : State) (r : Reg) (v : SReg) : (s.wr r v).flash = s.flash := rfl
@[simp] theorem State.wr_devRec (s : State) (r : Reg) (v : SReg) : (s.wr r v).devRec = s.devRec := rfl
@[simp] theorem State.wr_identity (s : State) (r : Reg) (v : SReg) : (s.wr r v).identity = s.identity := rfl
@[simp] theorem State.wr_hostMem (s : State) (r : Reg) (v : SReg) : (s.wr r v).hostMem = s.hostMem := rfl
@[simp] theorem State.wr_mlog (s : State) (r : Reg) (v : SReg) : (s.wr r v).mlog = s.mlog := rfl
@[simp] theorem State.wr_repair (s : State) (r : Reg) (v : SReg) : (s.wr r v).repair = s.repair := rfl
@[simp] theorem State.wr_thermal (s : State) (r : Reg) (v : SReg) : (s.wr r v).thermal = s.thermal := rfl
@[simp] theorem State.wr_clusters (s : State) (r : Reg) (v : SReg) : (s.wr r v).clusters = s.clusters := rfl
@[simp] theorem State.wr_voff (s : State) (r : Reg) (v : SReg) : (s.wr r v).voff = s.voff := rfl
@[simp] theorem State.wr_slew (s : State) (r : Reg) (v : SReg) : (s.wr r v).slew = s.slew := rfl
@[simp] theorem State.wr_slewAcc (s : State) (r : Reg) (v : SReg) : (s.wr r v).slewAcc = s.slewAcc := rfl
@[simp] theorem State.wr_retired (s : State) (r : Reg) (v : SReg) : (s.wr r v).retired = s.retired := rfl
@[simp] theorem State.wr_frames (s : State) (r : Reg) (v : SReg) : (s.wr r v).frames = s.frames := rfl
@[simp] theorem State.wr_quotaUsed (s : State) (r : Reg) (v : SReg) : (s.wr r v).quotaUsed = s.quotaUsed := rfl
@[simp] theorem State.wr_outbox (s : State) (r : Reg) (v : SReg) : (s.wr r v).outbox = s.outbox := rfl

/-! ### State.wrc -/

@[simp] theorem State.wrc_now (s : State) (r : Reg) (v : Word) : (s.wrc r v).now = s.now := rfl
@[simp] theorem State.wrc_ctx (s : State) (r : Reg) (v : Word) : (s.wrc r v).ctx = s.ctx.writeS r { bits := v, pois := false } := rfl
@[simp] theorem State.wrc_ctxs (s : State) (r : Reg) (v : Word) : (s.wrc r v).ctxs = s.ctxs := rfl
@[simp] theorem State.wrc_residues (s : State) (r : Reg) (v : Word) : (s.wrc r v).residues = s.residues := rfl
@[simp] theorem State.wrc_flying (s : State) (r : Reg) (v : Word) : (s.wrc r v).flying = s.flying := rfl
@[simp] theorem State.wrc_acting (s : State) (r : Reg) (v : Word) : (s.wrc r v).acting = s.acting := rfl
@[simp] theorem State.wrc_parts (s : State) (r : Reg) (v : Word) : (s.wrc r v).parts = s.parts := rfl
@[simp] theorem State.wrc_agenda (s : State) (r : Reg) (v : Word) : (s.wrc r v).agenda = s.agenda := rfl
@[simp] theorem State.wrc_free (s : State) (r : Reg) (v : Word) : (s.wrc r v).free = s.free := rfl
@[simp] theorem State.wrc_mem (s : State) (r : Reg) (v : Word) : (s.wrc r v).mem = s.mem := rfl
@[simp] theorem State.wrc_marks (s : State) (r : Reg) (v : Word) : (s.wrc r v).marks = s.marks := rfl
@[simp] theorem State.wrc_scopes (s : State) (r : Reg) (v : Word) : (s.wrc r v).scopes = s.scopes := rfl
@[simp] theorem State.wrc_tlb (s : State) (r : Reg) (v : Word) : (s.wrc r v).tlb = s.tlb := rfl
@[simp] theorem State.wrc_walks (s : State) (r : Reg) (v : Word) : (s.wrc r v).walks = s.walks := rfl
@[simp] theorem State.wrc_cores (s : State) (r : Reg) (v : Word) : (s.wrc r v).cores = s.cores := rfl
@[simp] theorem State.wrc_dies (s : State) (r : Reg) (v : Word) : (s.wrc r v).dies = s.dies := rfl
@[simp] theorem State.wrc_cancels (s : State) (r : Reg) (v : Word) : (s.wrc r v).cancels = s.cancels := rfl
@[simp] theorem State.wrc_staged (s : State) (r : Reg) (v : Word) : (s.wrc r v).staged = s.staged := rfl
@[simp] theorem State.wrc_committed (s : State) (r : Reg) (v : Word) : (s.wrc r v).committed = s.committed := rfl
@[simp] theorem State.wrc_pcstat (s : State) (r : Reg) (v : Word) : (s.wrc r v).pcstat = s.pcstat := rfl
@[simp] theorem State.wrc_psyncs (s : State) (r : Reg) (v : Word) : (s.wrc r v).psyncs = s.psyncs := rfl
@[simp] theorem State.wrc_qlevels (s : State) (r : Reg) (v : Word) : (s.wrc r v).qlevels = s.qlevels := rfl
@[simp] theorem State.wrc_qcfgs (s : State) (r : Reg) (v : Word) : (s.wrc r v).qcfgs = s.qcfgs := rfl
@[simp] theorem State.wrc_tasks (s : State) (r : Reg) (v : Word) : (s.wrc r v).tasks = s.tasks := rfl
@[simp] theorem State.wrc_postSeq (s : State) (r : Reg) (v : Word) : (s.wrc r v).postSeq = s.postSeq := rfl
@[simp] theorem State.wrc_slices (s : State) (r : Reg) (v : Word) : (s.wrc r v).slices = s.slices := rfl
@[simp] theorem State.wrc_admAt (s : State) (r : Reg) (v : Word) : (s.wrc r v).admAt = s.admAt := rfl
@[simp] theorem State.wrc_pmc (s : State) (r : Reg) (v : Word) : (s.wrc r v).pmc = s.pmc := rfl
@[simp] theorem State.wrc_regions (s : State) (r : Reg) (v : Word) : (s.wrc r v).regions = s.regions := rfl
@[simp] theorem State.wrc_windows (s : State) (r : Reg) (v : Word) : (s.wrc r v).windows = s.windows := rfl
@[simp] theorem State.wrc_contribs (s : State) (r : Reg) (v : Word) : (s.wrc r v).contribs = s.contribs := rfl
@[simp] theorem State.wrc_conns (s : State) (r : Reg) (v : Word) : (s.wrc r v).conns = s.conns := rfl
@[simp] theorem State.wrc_netHolds (s : State) (r : Reg) (v : Word) : (s.wrc r v).netHolds = s.netHolds := rfl
@[simp] theorem State.wrc_netSeq (s : State) (r : Reg) (v : Word) : (s.wrc r v).netSeq = s.netSeq := rfl
@[simp] theorem State.wrc_tssKeys (s : State) (r : Reg) (v : Word) : (s.wrc r v).tssKeys = s.tssKeys := rfl
@[simp] theorem State.wrc_timePort (s : State) (r : Reg) (v : Word) : (s.wrc r v).timePort = s.timePort := rfl
@[simp] theorem State.wrc_promoting (s : State) (r : Reg) (v : Word) : (s.wrc r v).promoting = s.promoting := rfl
@[simp] theorem State.wrc_promoEnd (s : State) (r : Reg) (v : Word) : (s.wrc r v).promoEnd = s.promoEnd := rfl
@[simp] theorem State.wrc_node (s : State) (r : Reg) (v : Word) : (s.wrc r v).node = s.node := rfl
@[simp] theorem State.wrc_links (s : State) (r : Reg) (v : Word) : (s.wrc r v).links = s.links := rfl
@[simp] theorem State.wrc_hqs (s : State) (r : Reg) (v : Word) : (s.wrc r v).hqs = s.hqs := rfl
@[simp] theorem State.wrc_hostChans (s : State) (r : Reg) (v : Word) : (s.wrc r v).hostChans = s.hostChans := rfl
@[simp] theorem State.wrc_feats (s : State) (r : Reg) (v : Word) : (s.wrc r v).feats = s.feats := rfl
@[simp] theorem State.wrc_functions (s : State) (r : Reg) (v : Word) : (s.wrc r v).functions = s.functions := rfl
@[simp] theorem State.wrc_stores (s : State) (r : Reg) (v : Word) : (s.wrc r v).stores = s.stores := rfl
@[simp] theorem State.wrc_atRest (s : State) (r : Reg) (v : Word) : (s.wrc r v).atRest = s.atRest := rfl
@[simp] theorem State.wrc_shapes (s : State) (r : Reg) (v : Word) : (s.wrc r v).shapes = s.shapes := rfl
@[simp] theorem State.wrc_demoted (s : State) (r : Reg) (v : Word) : (s.wrc r v).demoted = s.demoted := rfl
@[simp] theorem State.wrc_demCur (s : State) (r : Reg) (v : Word) : (s.wrc r v).demCur = s.demCur := rfl
@[simp] theorem State.wrc_demAt (s : State) (r : Reg) (v : Word) : (s.wrc r v).demAt = s.demAt := rfl
@[simp] theorem State.wrc_boot (s : State) (r : Reg) (v : Word) : (s.wrc r v).boot = s.boot := rfl
@[simp] theorem State.wrc_rstate (s : State) (r : Reg) (v : Word) : (s.wrc r v).rstate = s.rstate := rfl
@[simp] theorem State.wrc_imgaddr (s : State) (r : Reg) (v : Word) : (s.wrc r v).imgaddr = s.imgaddr := rfl
@[simp] theorem State.wrc_imglen (s : State) (r : Reg) (v : Word) : (s.wrc r v).imglen = s.imglen := rfl
@[simp] theorem State.wrc_flash (s : State) (r : Reg) (v : Word) : (s.wrc r v).flash = s.flash := rfl
@[simp] theorem State.wrc_devRec (s : State) (r : Reg) (v : Word) : (s.wrc r v).devRec = s.devRec := rfl
@[simp] theorem State.wrc_identity (s : State) (r : Reg) (v : Word) : (s.wrc r v).identity = s.identity := rfl
@[simp] theorem State.wrc_hostMem (s : State) (r : Reg) (v : Word) : (s.wrc r v).hostMem = s.hostMem := rfl
@[simp] theorem State.wrc_mlog (s : State) (r : Reg) (v : Word) : (s.wrc r v).mlog = s.mlog := rfl
@[simp] theorem State.wrc_repair (s : State) (r : Reg) (v : Word) : (s.wrc r v).repair = s.repair := rfl
@[simp] theorem State.wrc_thermal (s : State) (r : Reg) (v : Word) : (s.wrc r v).thermal = s.thermal := rfl
@[simp] theorem State.wrc_clusters (s : State) (r : Reg) (v : Word) : (s.wrc r v).clusters = s.clusters := rfl
@[simp] theorem State.wrc_voff (s : State) (r : Reg) (v : Word) : (s.wrc r v).voff = s.voff := rfl
@[simp] theorem State.wrc_slew (s : State) (r : Reg) (v : Word) : (s.wrc r v).slew = s.slew := rfl
@[simp] theorem State.wrc_slewAcc (s : State) (r : Reg) (v : Word) : (s.wrc r v).slewAcc = s.slewAcc := rfl
@[simp] theorem State.wrc_retired (s : State) (r : Reg) (v : Word) : (s.wrc r v).retired = s.retired := rfl
@[simp] theorem State.wrc_frames (s : State) (r : Reg) (v : Word) : (s.wrc r v).frames = s.frames := rfl
@[simp] theorem State.wrc_quotaUsed (s : State) (r : Reg) (v : Word) : (s.wrc r v).quotaUsed = s.quotaUsed := rfl
@[simp] theorem State.wrc_outbox (s : State) (r : Reg) (v : Word) : (s.wrc r v).outbox = s.outbox := rfl

/-! ### State.endWait -/

@[simp] theorem State.endWait_now (s : State) : (s.endWait).now = s.now := rfl
@[simp] theorem State.endWait_ctx (s : State) : (s.endWait).ctx = s.ctx.setBank { s.ctx.bank with wait := none } := rfl
@[simp] theorem State.endWait_ctxs (s : State) : (s.endWait).ctxs = s.ctxs := rfl
@[simp] theorem State.endWait_residues (s : State) : (s.endWait).residues = s.residues := rfl
@[simp] theorem State.endWait_flying (s : State) : (s.endWait).flying = s.flying := rfl
@[simp] theorem State.endWait_acting (s : State) : (s.endWait).acting = s.acting := rfl
@[simp] theorem State.endWait_parts (s : State) : (s.endWait).parts = s.parts := rfl
@[simp] theorem State.endWait_agenda (s : State) : (s.endWait).agenda = s.agenda := rfl
@[simp] theorem State.endWait_free (s : State) : (s.endWait).free = s.free := rfl
@[simp] theorem State.endWait_mem (s : State) : (s.endWait).mem = s.mem := rfl
@[simp] theorem State.endWait_marks (s : State) : (s.endWait).marks = s.marks := rfl
@[simp] theorem State.endWait_scopes (s : State) : (s.endWait).scopes = s.scopes := rfl
@[simp] theorem State.endWait_tlb (s : State) : (s.endWait).tlb = s.tlb := rfl
@[simp] theorem State.endWait_walks (s : State) : (s.endWait).walks = s.walks := rfl
@[simp] theorem State.endWait_cores (s : State) : (s.endWait).cores = s.cores := rfl
@[simp] theorem State.endWait_dies (s : State) : (s.endWait).dies = s.dies := rfl
@[simp] theorem State.endWait_cancels (s : State) : (s.endWait).cancels = s.cancels := rfl
@[simp] theorem State.endWait_staged (s : State) : (s.endWait).staged = s.staged := rfl
@[simp] theorem State.endWait_committed (s : State) : (s.endWait).committed = s.committed := rfl
@[simp] theorem State.endWait_pcstat (s : State) : (s.endWait).pcstat = s.pcstat := rfl
@[simp] theorem State.endWait_psyncs (s : State) : (s.endWait).psyncs = s.psyncs := rfl
@[simp] theorem State.endWait_qlevels (s : State) : (s.endWait).qlevels = s.qlevels := rfl
@[simp] theorem State.endWait_qcfgs (s : State) : (s.endWait).qcfgs = s.qcfgs := rfl
@[simp] theorem State.endWait_tasks (s : State) : (s.endWait).tasks = s.tasks := rfl
@[simp] theorem State.endWait_postSeq (s : State) : (s.endWait).postSeq = s.postSeq := rfl
@[simp] theorem State.endWait_slices (s : State) : (s.endWait).slices = s.slices := rfl
@[simp] theorem State.endWait_admAt (s : State) : (s.endWait).admAt = s.admAt := rfl
@[simp] theorem State.endWait_pmc (s : State) : (s.endWait).pmc = s.pmc := rfl
@[simp] theorem State.endWait_regions (s : State) : (s.endWait).regions = s.regions := rfl
@[simp] theorem State.endWait_windows (s : State) : (s.endWait).windows = s.windows := rfl
@[simp] theorem State.endWait_contribs (s : State) : (s.endWait).contribs = s.contribs := rfl
@[simp] theorem State.endWait_conns (s : State) : (s.endWait).conns = s.conns := rfl
@[simp] theorem State.endWait_netHolds (s : State) : (s.endWait).netHolds = s.netHolds := rfl
@[simp] theorem State.endWait_netSeq (s : State) : (s.endWait).netSeq = s.netSeq := rfl
@[simp] theorem State.endWait_tssKeys (s : State) : (s.endWait).tssKeys = s.tssKeys := rfl
@[simp] theorem State.endWait_timePort (s : State) : (s.endWait).timePort = s.timePort := rfl
@[simp] theorem State.endWait_promoting (s : State) : (s.endWait).promoting = s.promoting := rfl
@[simp] theorem State.endWait_promoEnd (s : State) : (s.endWait).promoEnd = s.promoEnd := rfl
@[simp] theorem State.endWait_node (s : State) : (s.endWait).node = s.node := rfl
@[simp] theorem State.endWait_links (s : State) : (s.endWait).links = s.links := rfl
@[simp] theorem State.endWait_hqs (s : State) : (s.endWait).hqs = s.hqs := rfl
@[simp] theorem State.endWait_hostChans (s : State) : (s.endWait).hostChans = s.hostChans := rfl
@[simp] theorem State.endWait_feats (s : State) : (s.endWait).feats = s.feats := rfl
@[simp] theorem State.endWait_functions (s : State) : (s.endWait).functions = s.functions := rfl
@[simp] theorem State.endWait_stores (s : State) : (s.endWait).stores = s.stores := rfl
@[simp] theorem State.endWait_atRest (s : State) : (s.endWait).atRest = s.atRest := rfl
@[simp] theorem State.endWait_shapes (s : State) : (s.endWait).shapes = s.shapes := rfl
@[simp] theorem State.endWait_demoted (s : State) : (s.endWait).demoted = s.demoted := rfl
@[simp] theorem State.endWait_demCur (s : State) : (s.endWait).demCur = s.demCur := rfl
@[simp] theorem State.endWait_demAt (s : State) : (s.endWait).demAt = s.demAt := rfl
@[simp] theorem State.endWait_boot (s : State) : (s.endWait).boot = s.boot := rfl
@[simp] theorem State.endWait_rstate (s : State) : (s.endWait).rstate = s.rstate := rfl
@[simp] theorem State.endWait_imgaddr (s : State) : (s.endWait).imgaddr = s.imgaddr := rfl
@[simp] theorem State.endWait_imglen (s : State) : (s.endWait).imglen = s.imglen := rfl
@[simp] theorem State.endWait_flash (s : State) : (s.endWait).flash = s.flash := rfl
@[simp] theorem State.endWait_devRec (s : State) : (s.endWait).devRec = s.devRec := rfl
@[simp] theorem State.endWait_identity (s : State) : (s.endWait).identity = s.identity := rfl
@[simp] theorem State.endWait_hostMem (s : State) : (s.endWait).hostMem = s.hostMem := rfl
@[simp] theorem State.endWait_mlog (s : State) : (s.endWait).mlog = s.mlog := rfl
@[simp] theorem State.endWait_repair (s : State) : (s.endWait).repair = s.repair := rfl
@[simp] theorem State.endWait_thermal (s : State) : (s.endWait).thermal = s.thermal := rfl
@[simp] theorem State.endWait_clusters (s : State) : (s.endWait).clusters = s.clusters := rfl
@[simp] theorem State.endWait_voff (s : State) : (s.endWait).voff = s.voff := rfl
@[simp] theorem State.endWait_slew (s : State) : (s.endWait).slew = s.slew := rfl
@[simp] theorem State.endWait_slewAcc (s : State) : (s.endWait).slewAcc = s.slewAcc := rfl
@[simp] theorem State.endWait_retired (s : State) : (s.endWait).retired = s.retired := rfl
@[simp] theorem State.endWait_frames (s : State) : (s.endWait).frames = s.frames := rfl
@[simp] theorem State.endWait_quotaUsed (s : State) : (s.endWait).quotaUsed = s.quotaUsed := rfl
@[simp] theorem State.endWait_outbox (s : State) : (s.endWait).outbox = s.outbox := rfl

/-! ### State.setFlags -/

@[simp] theorem State.setFlags_now (s : State) (f : BitVec 7) : (s.setFlags f).now = s.now := rfl
@[simp] theorem State.setFlags_ctx (s : State) (f : BitVec 7) : (s.setFlags f).ctx = s.ctx.setBank { s.ctx.bank with estat := s.ctx.bank.estat ||| f } := rfl
@[simp] theorem State.setFlags_ctxs (s : State) (f : BitVec 7) : (s.setFlags f).ctxs = s.ctxs := rfl
@[simp] theorem State.setFlags_residues (s : State) (f : BitVec 7) : (s.setFlags f).residues = s.residues := rfl
@[simp] theorem State.setFlags_flying (s : State) (f : BitVec 7) : (s.setFlags f).flying = s.flying := rfl
@[simp] theorem State.setFlags_acting (s : State) (f : BitVec 7) : (s.setFlags f).acting = s.acting := rfl
@[simp] theorem State.setFlags_parts (s : State) (f : BitVec 7) : (s.setFlags f).parts = s.parts := rfl
@[simp] theorem State.setFlags_agenda (s : State) (f : BitVec 7) : (s.setFlags f).agenda = s.agenda := rfl
@[simp] theorem State.setFlags_free (s : State) (f : BitVec 7) : (s.setFlags f).free = s.free := rfl
@[simp] theorem State.setFlags_mem (s : State) (f : BitVec 7) : (s.setFlags f).mem = s.mem := rfl
@[simp] theorem State.setFlags_marks (s : State) (f : BitVec 7) : (s.setFlags f).marks = s.marks := rfl
@[simp] theorem State.setFlags_scopes (s : State) (f : BitVec 7) : (s.setFlags f).scopes = s.scopes := rfl
@[simp] theorem State.setFlags_tlb (s : State) (f : BitVec 7) : (s.setFlags f).tlb = s.tlb := rfl
@[simp] theorem State.setFlags_walks (s : State) (f : BitVec 7) : (s.setFlags f).walks = s.walks := rfl
@[simp] theorem State.setFlags_cores (s : State) (f : BitVec 7) : (s.setFlags f).cores = s.cores := rfl
@[simp] theorem State.setFlags_dies (s : State) (f : BitVec 7) : (s.setFlags f).dies = s.dies := rfl
@[simp] theorem State.setFlags_cancels (s : State) (f : BitVec 7) : (s.setFlags f).cancels = s.cancels := rfl
@[simp] theorem State.setFlags_staged (s : State) (f : BitVec 7) : (s.setFlags f).staged = s.staged := rfl
@[simp] theorem State.setFlags_committed (s : State) (f : BitVec 7) : (s.setFlags f).committed = s.committed := rfl
@[simp] theorem State.setFlags_pcstat (s : State) (f : BitVec 7) : (s.setFlags f).pcstat = s.pcstat := rfl
@[simp] theorem State.setFlags_psyncs (s : State) (f : BitVec 7) : (s.setFlags f).psyncs = s.psyncs := rfl
@[simp] theorem State.setFlags_qlevels (s : State) (f : BitVec 7) : (s.setFlags f).qlevels = s.qlevels := rfl
@[simp] theorem State.setFlags_qcfgs (s : State) (f : BitVec 7) : (s.setFlags f).qcfgs = s.qcfgs := rfl
@[simp] theorem State.setFlags_tasks (s : State) (f : BitVec 7) : (s.setFlags f).tasks = s.tasks := rfl
@[simp] theorem State.setFlags_postSeq (s : State) (f : BitVec 7) : (s.setFlags f).postSeq = s.postSeq := rfl
@[simp] theorem State.setFlags_slices (s : State) (f : BitVec 7) : (s.setFlags f).slices = s.slices := rfl
@[simp] theorem State.setFlags_admAt (s : State) (f : BitVec 7) : (s.setFlags f).admAt = s.admAt := rfl
@[simp] theorem State.setFlags_pmc (s : State) (f : BitVec 7) : (s.setFlags f).pmc = s.pmc := rfl
@[simp] theorem State.setFlags_regions (s : State) (f : BitVec 7) : (s.setFlags f).regions = s.regions := rfl
@[simp] theorem State.setFlags_windows (s : State) (f : BitVec 7) : (s.setFlags f).windows = s.windows := rfl
@[simp] theorem State.setFlags_contribs (s : State) (f : BitVec 7) : (s.setFlags f).contribs = s.contribs := rfl
@[simp] theorem State.setFlags_conns (s : State) (f : BitVec 7) : (s.setFlags f).conns = s.conns := rfl
@[simp] theorem State.setFlags_netHolds (s : State) (f : BitVec 7) : (s.setFlags f).netHolds = s.netHolds := rfl
@[simp] theorem State.setFlags_netSeq (s : State) (f : BitVec 7) : (s.setFlags f).netSeq = s.netSeq := rfl
@[simp] theorem State.setFlags_tssKeys (s : State) (f : BitVec 7) : (s.setFlags f).tssKeys = s.tssKeys := rfl
@[simp] theorem State.setFlags_timePort (s : State) (f : BitVec 7) : (s.setFlags f).timePort = s.timePort := rfl
@[simp] theorem State.setFlags_promoting (s : State) (f : BitVec 7) : (s.setFlags f).promoting = s.promoting := rfl
@[simp] theorem State.setFlags_promoEnd (s : State) (f : BitVec 7) : (s.setFlags f).promoEnd = s.promoEnd := rfl
@[simp] theorem State.setFlags_node (s : State) (f : BitVec 7) : (s.setFlags f).node = s.node := rfl
@[simp] theorem State.setFlags_links (s : State) (f : BitVec 7) : (s.setFlags f).links = s.links := rfl
@[simp] theorem State.setFlags_hqs (s : State) (f : BitVec 7) : (s.setFlags f).hqs = s.hqs := rfl
@[simp] theorem State.setFlags_hostChans (s : State) (f : BitVec 7) : (s.setFlags f).hostChans = s.hostChans := rfl
@[simp] theorem State.setFlags_feats (s : State) (f : BitVec 7) : (s.setFlags f).feats = s.feats := rfl
@[simp] theorem State.setFlags_functions (s : State) (f : BitVec 7) : (s.setFlags f).functions = s.functions := rfl
@[simp] theorem State.setFlags_stores (s : State) (f : BitVec 7) : (s.setFlags f).stores = s.stores := rfl
@[simp] theorem State.setFlags_atRest (s : State) (f : BitVec 7) : (s.setFlags f).atRest = s.atRest := rfl
@[simp] theorem State.setFlags_shapes (s : State) (f : BitVec 7) : (s.setFlags f).shapes = s.shapes := rfl
@[simp] theorem State.setFlags_demoted (s : State) (f : BitVec 7) : (s.setFlags f).demoted = s.demoted := rfl
@[simp] theorem State.setFlags_demCur (s : State) (f : BitVec 7) : (s.setFlags f).demCur = s.demCur := rfl
@[simp] theorem State.setFlags_demAt (s : State) (f : BitVec 7) : (s.setFlags f).demAt = s.demAt := rfl
@[simp] theorem State.setFlags_boot (s : State) (f : BitVec 7) : (s.setFlags f).boot = s.boot := rfl
@[simp] theorem State.setFlags_rstate (s : State) (f : BitVec 7) : (s.setFlags f).rstate = s.rstate := rfl
@[simp] theorem State.setFlags_imgaddr (s : State) (f : BitVec 7) : (s.setFlags f).imgaddr = s.imgaddr := rfl
@[simp] theorem State.setFlags_imglen (s : State) (f : BitVec 7) : (s.setFlags f).imglen = s.imglen := rfl
@[simp] theorem State.setFlags_flash (s : State) (f : BitVec 7) : (s.setFlags f).flash = s.flash := rfl
@[simp] theorem State.setFlags_devRec (s : State) (f : BitVec 7) : (s.setFlags f).devRec = s.devRec := rfl
@[simp] theorem State.setFlags_identity (s : State) (f : BitVec 7) : (s.setFlags f).identity = s.identity := rfl
@[simp] theorem State.setFlags_hostMem (s : State) (f : BitVec 7) : (s.setFlags f).hostMem = s.hostMem := rfl
@[simp] theorem State.setFlags_mlog (s : State) (f : BitVec 7) : (s.setFlags f).mlog = s.mlog := rfl
@[simp] theorem State.setFlags_repair (s : State) (f : BitVec 7) : (s.setFlags f).repair = s.repair := rfl
@[simp] theorem State.setFlags_thermal (s : State) (f : BitVec 7) : (s.setFlags f).thermal = s.thermal := rfl
@[simp] theorem State.setFlags_clusters (s : State) (f : BitVec 7) : (s.setFlags f).clusters = s.clusters := rfl
@[simp] theorem State.setFlags_voff (s : State) (f : BitVec 7) : (s.setFlags f).voff = s.voff := rfl
@[simp] theorem State.setFlags_slew (s : State) (f : BitVec 7) : (s.setFlags f).slew = s.slew := rfl
@[simp] theorem State.setFlags_slewAcc (s : State) (f : BitVec 7) : (s.setFlags f).slewAcc = s.slewAcc := rfl
@[simp] theorem State.setFlags_retired (s : State) (f : BitVec 7) : (s.setFlags f).retired = s.retired := rfl
@[simp] theorem State.setFlags_frames (s : State) (f : BitVec 7) : (s.setFlags f).frames = s.frames := rfl
@[simp] theorem State.setFlags_quotaUsed (s : State) (f : BitVec 7) : (s.setFlags f).quotaUsed = s.quotaUsed := rfl
@[simp] theorem State.setFlags_outbox (s : State) (f : BitVec 7) : (s.setFlags f).outbox = s.outbox := rfl

/-! ### State.setL1 -/

@[simp] theorem State.setL1_now (s : State) (m : Sparse (Option L1Byte)) : (s.setL1 m).now = s.now := rfl
@[simp] theorem State.setL1_ctx (s : State) (m : Sparse (Option L1Byte)) : (s.setL1 m).ctx = { s.ctx with l1 := m } := rfl
@[simp] theorem State.setL1_ctxs (s : State) (m : Sparse (Option L1Byte)) : (s.setL1 m).ctxs = s.ctxs := rfl
@[simp] theorem State.setL1_residues (s : State) (m : Sparse (Option L1Byte)) : (s.setL1 m).residues = s.residues := rfl
@[simp] theorem State.setL1_flying (s : State) (m : Sparse (Option L1Byte)) : (s.setL1 m).flying = s.flying := rfl
@[simp] theorem State.setL1_acting (s : State) (m : Sparse (Option L1Byte)) : (s.setL1 m).acting = s.acting := rfl
@[simp] theorem State.setL1_parts (s : State) (m : Sparse (Option L1Byte)) : (s.setL1 m).parts = s.parts := rfl
@[simp] theorem State.setL1_agenda (s : State) (m : Sparse (Option L1Byte)) : (s.setL1 m).agenda = s.agenda := rfl
@[simp] theorem State.setL1_free (s : State) (m : Sparse (Option L1Byte)) : (s.setL1 m).free = s.free := rfl
@[simp] theorem State.setL1_mem (s : State) (m : Sparse (Option L1Byte)) : (s.setL1 m).mem = s.mem := rfl
@[simp] theorem State.setL1_marks (s : State) (m : Sparse (Option L1Byte)) : (s.setL1 m).marks = s.marks := rfl
@[simp] theorem State.setL1_scopes (s : State) (m : Sparse (Option L1Byte)) : (s.setL1 m).scopes = s.scopes := rfl
@[simp] theorem State.setL1_tlb (s : State) (m : Sparse (Option L1Byte)) : (s.setL1 m).tlb = s.tlb := rfl
@[simp] theorem State.setL1_walks (s : State) (m : Sparse (Option L1Byte)) : (s.setL1 m).walks = s.walks := rfl
@[simp] theorem State.setL1_cores (s : State) (m : Sparse (Option L1Byte)) : (s.setL1 m).cores = s.cores := rfl
@[simp] theorem State.setL1_dies (s : State) (m : Sparse (Option L1Byte)) : (s.setL1 m).dies = s.dies := rfl
@[simp] theorem State.setL1_cancels (s : State) (m : Sparse (Option L1Byte)) : (s.setL1 m).cancels = s.cancels := rfl
@[simp] theorem State.setL1_staged (s : State) (m : Sparse (Option L1Byte)) : (s.setL1 m).staged = s.staged := rfl
@[simp] theorem State.setL1_committed (s : State) (m : Sparse (Option L1Byte)) : (s.setL1 m).committed = s.committed := rfl
@[simp] theorem State.setL1_pcstat (s : State) (m : Sparse (Option L1Byte)) : (s.setL1 m).pcstat = s.pcstat := rfl
@[simp] theorem State.setL1_psyncs (s : State) (m : Sparse (Option L1Byte)) : (s.setL1 m).psyncs = s.psyncs := rfl
@[simp] theorem State.setL1_qlevels (s : State) (m : Sparse (Option L1Byte)) : (s.setL1 m).qlevels = s.qlevels := rfl
@[simp] theorem State.setL1_qcfgs (s : State) (m : Sparse (Option L1Byte)) : (s.setL1 m).qcfgs = s.qcfgs := rfl
@[simp] theorem State.setL1_tasks (s : State) (m : Sparse (Option L1Byte)) : (s.setL1 m).tasks = s.tasks := rfl
@[simp] theorem State.setL1_postSeq (s : State) (m : Sparse (Option L1Byte)) : (s.setL1 m).postSeq = s.postSeq := rfl
@[simp] theorem State.setL1_slices (s : State) (m : Sparse (Option L1Byte)) : (s.setL1 m).slices = s.slices := rfl
@[simp] theorem State.setL1_admAt (s : State) (m : Sparse (Option L1Byte)) : (s.setL1 m).admAt = s.admAt := rfl
@[simp] theorem State.setL1_pmc (s : State) (m : Sparse (Option L1Byte)) : (s.setL1 m).pmc = s.pmc := rfl
@[simp] theorem State.setL1_regions (s : State) (m : Sparse (Option L1Byte)) : (s.setL1 m).regions = s.regions := rfl
@[simp] theorem State.setL1_windows (s : State) (m : Sparse (Option L1Byte)) : (s.setL1 m).windows = s.windows := rfl
@[simp] theorem State.setL1_contribs (s : State) (m : Sparse (Option L1Byte)) : (s.setL1 m).contribs = s.contribs := rfl
@[simp] theorem State.setL1_conns (s : State) (m : Sparse (Option L1Byte)) : (s.setL1 m).conns = s.conns := rfl
@[simp] theorem State.setL1_netHolds (s : State) (m : Sparse (Option L1Byte)) : (s.setL1 m).netHolds = s.netHolds := rfl
@[simp] theorem State.setL1_netSeq (s : State) (m : Sparse (Option L1Byte)) : (s.setL1 m).netSeq = s.netSeq := rfl
@[simp] theorem State.setL1_tssKeys (s : State) (m : Sparse (Option L1Byte)) : (s.setL1 m).tssKeys = s.tssKeys := rfl
@[simp] theorem State.setL1_timePort (s : State) (m : Sparse (Option L1Byte)) : (s.setL1 m).timePort = s.timePort := rfl
@[simp] theorem State.setL1_promoting (s : State) (m : Sparse (Option L1Byte)) : (s.setL1 m).promoting = s.promoting := rfl
@[simp] theorem State.setL1_promoEnd (s : State) (m : Sparse (Option L1Byte)) : (s.setL1 m).promoEnd = s.promoEnd := rfl
@[simp] theorem State.setL1_node (s : State) (m : Sparse (Option L1Byte)) : (s.setL1 m).node = s.node := rfl
@[simp] theorem State.setL1_links (s : State) (m : Sparse (Option L1Byte)) : (s.setL1 m).links = s.links := rfl
@[simp] theorem State.setL1_hqs (s : State) (m : Sparse (Option L1Byte)) : (s.setL1 m).hqs = s.hqs := rfl
@[simp] theorem State.setL1_hostChans (s : State) (m : Sparse (Option L1Byte)) : (s.setL1 m).hostChans = s.hostChans := rfl
@[simp] theorem State.setL1_feats (s : State) (m : Sparse (Option L1Byte)) : (s.setL1 m).feats = s.feats := rfl
@[simp] theorem State.setL1_functions (s : State) (m : Sparse (Option L1Byte)) : (s.setL1 m).functions = s.functions := rfl
@[simp] theorem State.setL1_stores (s : State) (m : Sparse (Option L1Byte)) : (s.setL1 m).stores = s.stores := rfl
@[simp] theorem State.setL1_atRest (s : State) (m : Sparse (Option L1Byte)) : (s.setL1 m).atRest = s.atRest := rfl
@[simp] theorem State.setL1_shapes (s : State) (m : Sparse (Option L1Byte)) : (s.setL1 m).shapes = s.shapes := rfl
@[simp] theorem State.setL1_demoted (s : State) (m : Sparse (Option L1Byte)) : (s.setL1 m).demoted = s.demoted := rfl
@[simp] theorem State.setL1_demCur (s : State) (m : Sparse (Option L1Byte)) : (s.setL1 m).demCur = s.demCur := rfl
@[simp] theorem State.setL1_demAt (s : State) (m : Sparse (Option L1Byte)) : (s.setL1 m).demAt = s.demAt := rfl
@[simp] theorem State.setL1_boot (s : State) (m : Sparse (Option L1Byte)) : (s.setL1 m).boot = s.boot := rfl
@[simp] theorem State.setL1_rstate (s : State) (m : Sparse (Option L1Byte)) : (s.setL1 m).rstate = s.rstate := rfl
@[simp] theorem State.setL1_imgaddr (s : State) (m : Sparse (Option L1Byte)) : (s.setL1 m).imgaddr = s.imgaddr := rfl
@[simp] theorem State.setL1_imglen (s : State) (m : Sparse (Option L1Byte)) : (s.setL1 m).imglen = s.imglen := rfl
@[simp] theorem State.setL1_flash (s : State) (m : Sparse (Option L1Byte)) : (s.setL1 m).flash = s.flash := rfl
@[simp] theorem State.setL1_devRec (s : State) (m : Sparse (Option L1Byte)) : (s.setL1 m).devRec = s.devRec := rfl
@[simp] theorem State.setL1_identity (s : State) (m : Sparse (Option L1Byte)) : (s.setL1 m).identity = s.identity := rfl
@[simp] theorem State.setL1_hostMem (s : State) (m : Sparse (Option L1Byte)) : (s.setL1 m).hostMem = s.hostMem := rfl
@[simp] theorem State.setL1_mlog (s : State) (m : Sparse (Option L1Byte)) : (s.setL1 m).mlog = s.mlog := rfl
@[simp] theorem State.setL1_repair (s : State) (m : Sparse (Option L1Byte)) : (s.setL1 m).repair = s.repair := rfl
@[simp] theorem State.setL1_thermal (s : State) (m : Sparse (Option L1Byte)) : (s.setL1 m).thermal = s.thermal := rfl
@[simp] theorem State.setL1_clusters (s : State) (m : Sparse (Option L1Byte)) : (s.setL1 m).clusters = s.clusters := rfl
@[simp] theorem State.setL1_voff (s : State) (m : Sparse (Option L1Byte)) : (s.setL1 m).voff = s.voff := rfl
@[simp] theorem State.setL1_slew (s : State) (m : Sparse (Option L1Byte)) : (s.setL1 m).slew = s.slew := rfl
@[simp] theorem State.setL1_slewAcc (s : State) (m : Sparse (Option L1Byte)) : (s.setL1 m).slewAcc = s.slewAcc := rfl
@[simp] theorem State.setL1_retired (s : State) (m : Sparse (Option L1Byte)) : (s.setL1 m).retired = s.retired := rfl
@[simp] theorem State.setL1_frames (s : State) (m : Sparse (Option L1Byte)) : (s.setL1 m).frames = s.frames := rfl
@[simp] theorem State.setL1_quotaUsed (s : State) (m : Sparse (Option L1Byte)) : (s.setL1 m).quotaUsed = s.quotaUsed := rfl
@[simp] theorem State.setL1_outbox (s : State) (m : Sparse (Option L1Byte)) : (s.setL1 m).outbox = s.outbox := rfl

/-! ### State.pmcAdd -/

@[simp] theorem State.pmcAdd_now (s : State) (v i n : Nat) : (s.pmcAdd v i n).now = s.now := rfl
@[simp] theorem State.pmcAdd_ctx (s : State) (v i n : Nat) : (s.pmcAdd v i n).ctx = s.ctx := rfl
@[simp] theorem State.pmcAdd_ctxs (s : State) (v i n : Nat) : (s.pmcAdd v i n).ctxs = s.ctxs := rfl
@[simp] theorem State.pmcAdd_residues (s : State) (v i n : Nat) : (s.pmcAdd v i n).residues = s.residues := rfl
@[simp] theorem State.pmcAdd_flying (s : State) (v i n : Nat) : (s.pmcAdd v i n).flying = s.flying := rfl
@[simp] theorem State.pmcAdd_acting (s : State) (v i n : Nat) : (s.pmcAdd v i n).acting = s.acting := rfl
@[simp] theorem State.pmcAdd_parts (s : State) (v i n : Nat) : (s.pmcAdd v i n).parts = s.parts := rfl
@[simp] theorem State.pmcAdd_agenda (s : State) (v i n : Nat) : (s.pmcAdd v i n).agenda = s.agenda := rfl
@[simp] theorem State.pmcAdd_free (s : State) (v i n : Nat) : (s.pmcAdd v i n).free = s.free := rfl
@[simp] theorem State.pmcAdd_mem (s : State) (v i n : Nat) : (s.pmcAdd v i n).mem = s.mem := rfl
@[simp] theorem State.pmcAdd_marks (s : State) (v i n : Nat) : (s.pmcAdd v i n).marks = s.marks := rfl
@[simp] theorem State.pmcAdd_scopes (s : State) (v i n : Nat) : (s.pmcAdd v i n).scopes = s.scopes := rfl
@[simp] theorem State.pmcAdd_tlb (s : State) (v i n : Nat) : (s.pmcAdd v i n).tlb = s.tlb := rfl
@[simp] theorem State.pmcAdd_walks (s : State) (v i n : Nat) : (s.pmcAdd v i n).walks = s.walks := rfl
@[simp] theorem State.pmcAdd_cores (s : State) (v i n : Nat) : (s.pmcAdd v i n).cores = s.cores := rfl
@[simp] theorem State.pmcAdd_dies (s : State) (v i n : Nat) : (s.pmcAdd v i n).dies = s.dies := rfl
@[simp] theorem State.pmcAdd_cancels (s : State) (v i n : Nat) : (s.pmcAdd v i n).cancels = s.cancels := rfl
@[simp] theorem State.pmcAdd_staged (s : State) (v i n : Nat) : (s.pmcAdd v i n).staged = s.staged := rfl
@[simp] theorem State.pmcAdd_committed (s : State) (v i n : Nat) : (s.pmcAdd v i n).committed = s.committed := rfl
@[simp] theorem State.pmcAdd_pcstat (s : State) (v i n : Nat) : (s.pmcAdd v i n).pcstat = s.pcstat := rfl
@[simp] theorem State.pmcAdd_psyncs (s : State) (v i n : Nat) : (s.pmcAdd v i n).psyncs = s.psyncs := rfl
@[simp] theorem State.pmcAdd_qlevels (s : State) (v i n : Nat) : (s.pmcAdd v i n).qlevels = s.qlevels := rfl
@[simp] theorem State.pmcAdd_qcfgs (s : State) (v i n : Nat) : (s.pmcAdd v i n).qcfgs = s.qcfgs := rfl
@[simp] theorem State.pmcAdd_tasks (s : State) (v i n : Nat) : (s.pmcAdd v i n).tasks = s.tasks := rfl
@[simp] theorem State.pmcAdd_postSeq (s : State) (v i n : Nat) : (s.pmcAdd v i n).postSeq = s.postSeq := rfl
@[simp] theorem State.pmcAdd_slices (s : State) (v i n : Nat) : (s.pmcAdd v i n).slices = s.slices := rfl
@[simp] theorem State.pmcAdd_admAt (s : State) (v i n : Nat) : (s.pmcAdd v i n).admAt = s.admAt := rfl
@[simp] theorem State.pmcAdd_pmc (s : State) (v i n : Nat) : (s.pmcAdd v i n).pmc = Sparse.set (fun _ => 0#64) s.pmc (v * 16 + i) (Sparse.get (fun _ => 0#64) s.pmc (v * 16 + i) + BitVec.ofNat 64 n) := rfl
@[simp] theorem State.pmcAdd_regions (s : State) (v i n : Nat) : (s.pmcAdd v i n).regions = s.regions := rfl
@[simp] theorem State.pmcAdd_windows (s : State) (v i n : Nat) : (s.pmcAdd v i n).windows = s.windows := rfl
@[simp] theorem State.pmcAdd_contribs (s : State) (v i n : Nat) : (s.pmcAdd v i n).contribs = s.contribs := rfl
@[simp] theorem State.pmcAdd_conns (s : State) (v i n : Nat) : (s.pmcAdd v i n).conns = s.conns := rfl
@[simp] theorem State.pmcAdd_netHolds (s : State) (v i n : Nat) : (s.pmcAdd v i n).netHolds = s.netHolds := rfl
@[simp] theorem State.pmcAdd_netSeq (s : State) (v i n : Nat) : (s.pmcAdd v i n).netSeq = s.netSeq := rfl
@[simp] theorem State.pmcAdd_tssKeys (s : State) (v i n : Nat) : (s.pmcAdd v i n).tssKeys = s.tssKeys := rfl
@[simp] theorem State.pmcAdd_timePort (s : State) (v i n : Nat) : (s.pmcAdd v i n).timePort = s.timePort := rfl
@[simp] theorem State.pmcAdd_promoting (s : State) (v i n : Nat) : (s.pmcAdd v i n).promoting = s.promoting := rfl
@[simp] theorem State.pmcAdd_promoEnd (s : State) (v i n : Nat) : (s.pmcAdd v i n).promoEnd = s.promoEnd := rfl
@[simp] theorem State.pmcAdd_node (s : State) (v i n : Nat) : (s.pmcAdd v i n).node = s.node := rfl
@[simp] theorem State.pmcAdd_links (s : State) (v i n : Nat) : (s.pmcAdd v i n).links = s.links := rfl
@[simp] theorem State.pmcAdd_hqs (s : State) (v i n : Nat) : (s.pmcAdd v i n).hqs = s.hqs := rfl
@[simp] theorem State.pmcAdd_hostChans (s : State) (v i n : Nat) : (s.pmcAdd v i n).hostChans = s.hostChans := rfl
@[simp] theorem State.pmcAdd_feats (s : State) (v i n : Nat) : (s.pmcAdd v i n).feats = s.feats := rfl
@[simp] theorem State.pmcAdd_functions (s : State) (v i n : Nat) : (s.pmcAdd v i n).functions = s.functions := rfl
@[simp] theorem State.pmcAdd_stores (s : State) (v i n : Nat) : (s.pmcAdd v i n).stores = s.stores := rfl
@[simp] theorem State.pmcAdd_atRest (s : State) (v i n : Nat) : (s.pmcAdd v i n).atRest = s.atRest := rfl
@[simp] theorem State.pmcAdd_shapes (s : State) (v i n : Nat) : (s.pmcAdd v i n).shapes = s.shapes := rfl
@[simp] theorem State.pmcAdd_demoted (s : State) (v i n : Nat) : (s.pmcAdd v i n).demoted = s.demoted := rfl
@[simp] theorem State.pmcAdd_demCur (s : State) (v i n : Nat) : (s.pmcAdd v i n).demCur = s.demCur := rfl
@[simp] theorem State.pmcAdd_demAt (s : State) (v i n : Nat) : (s.pmcAdd v i n).demAt = s.demAt := rfl
@[simp] theorem State.pmcAdd_boot (s : State) (v i n : Nat) : (s.pmcAdd v i n).boot = s.boot := rfl
@[simp] theorem State.pmcAdd_rstate (s : State) (v i n : Nat) : (s.pmcAdd v i n).rstate = s.rstate := rfl
@[simp] theorem State.pmcAdd_imgaddr (s : State) (v i n : Nat) : (s.pmcAdd v i n).imgaddr = s.imgaddr := rfl
@[simp] theorem State.pmcAdd_imglen (s : State) (v i n : Nat) : (s.pmcAdd v i n).imglen = s.imglen := rfl
@[simp] theorem State.pmcAdd_flash (s : State) (v i n : Nat) : (s.pmcAdd v i n).flash = s.flash := rfl
@[simp] theorem State.pmcAdd_devRec (s : State) (v i n : Nat) : (s.pmcAdd v i n).devRec = s.devRec := rfl
@[simp] theorem State.pmcAdd_identity (s : State) (v i n : Nat) : (s.pmcAdd v i n).identity = s.identity := rfl
@[simp] theorem State.pmcAdd_hostMem (s : State) (v i n : Nat) : (s.pmcAdd v i n).hostMem = s.hostMem := rfl
@[simp] theorem State.pmcAdd_mlog (s : State) (v i n : Nat) : (s.pmcAdd v i n).mlog = s.mlog := rfl
@[simp] theorem State.pmcAdd_repair (s : State) (v i n : Nat) : (s.pmcAdd v i n).repair = s.repair := rfl
@[simp] theorem State.pmcAdd_thermal (s : State) (v i n : Nat) : (s.pmcAdd v i n).thermal = s.thermal := rfl
@[simp] theorem State.pmcAdd_clusters (s : State) (v i n : Nat) : (s.pmcAdd v i n).clusters = s.clusters := rfl
@[simp] theorem State.pmcAdd_voff (s : State) (v i n : Nat) : (s.pmcAdd v i n).voff = s.voff := rfl
@[simp] theorem State.pmcAdd_slew (s : State) (v i n : Nat) : (s.pmcAdd v i n).slew = s.slew := rfl
@[simp] theorem State.pmcAdd_slewAcc (s : State) (v i n : Nat) : (s.pmcAdd v i n).slewAcc = s.slewAcc := rfl
@[simp] theorem State.pmcAdd_retired (s : State) (v i n : Nat) : (s.pmcAdd v i n).retired = s.retired := rfl
@[simp] theorem State.pmcAdd_frames (s : State) (v i n : Nat) : (s.pmcAdd v i n).frames = s.frames := rfl
@[simp] theorem State.pmcAdd_quotaUsed (s : State) (v i n : Nat) : (s.pmcAdd v i n).quotaUsed = s.quotaUsed := rfl
@[simp] theorem State.pmcAdd_outbox (s : State) (v i n : Nat) : (s.pmcAdd v i n).outbox = s.outbox := rfl

/-! ### State.setCore -/

@[simp] theorem State.setCore_now (s : State) (p : Nat) (c : CoreSlot) : (s.setCore p c).now = s.now := rfl
@[simp] theorem State.setCore_ctx (s : State) (p : Nat) (c : CoreSlot) : (s.setCore p c).ctx = s.ctx := rfl
@[simp] theorem State.setCore_ctxs (s : State) (p : Nat) (c : CoreSlot) : (s.setCore p c).ctxs = s.ctxs := rfl
@[simp] theorem State.setCore_residues (s : State) (p : Nat) (c : CoreSlot) : (s.setCore p c).residues = s.residues := rfl
@[simp] theorem State.setCore_flying (s : State) (p : Nat) (c : CoreSlot) : (s.setCore p c).flying = s.flying := rfl
@[simp] theorem State.setCore_acting (s : State) (p : Nat) (c : CoreSlot) : (s.setCore p c).acting = s.acting := rfl
@[simp] theorem State.setCore_parts (s : State) (p : Nat) (c : CoreSlot) : (s.setCore p c).parts = s.parts := rfl
@[simp] theorem State.setCore_agenda (s : State) (p : Nat) (c : CoreSlot) : (s.setCore p c).agenda = s.agenda := rfl
@[simp] theorem State.setCore_free (s : State) (p : Nat) (c : CoreSlot) : (s.setCore p c).free = s.free := rfl
@[simp] theorem State.setCore_mem (s : State) (p : Nat) (c : CoreSlot) : (s.setCore p c).mem = s.mem := rfl
@[simp] theorem State.setCore_marks (s : State) (p : Nat) (c : CoreSlot) : (s.setCore p c).marks = s.marks := rfl
@[simp] theorem State.setCore_scopes (s : State) (p : Nat) (c : CoreSlot) : (s.setCore p c).scopes = s.scopes := rfl
@[simp] theorem State.setCore_tlb (s : State) (p : Nat) (c : CoreSlot) : (s.setCore p c).tlb = s.tlb := rfl
@[simp] theorem State.setCore_walks (s : State) (p : Nat) (c : CoreSlot) : (s.setCore p c).walks = s.walks := rfl
@[simp] theorem State.setCore_cores (s : State) (p : Nat) (c : CoreSlot) : (s.setCore p c).cores = Sparse.set (fun _ => CoreSlot.zero) s.cores p c := rfl
@[simp] theorem State.setCore_dies (s : State) (p : Nat) (c : CoreSlot) : (s.setCore p c).dies = s.dies := rfl
@[simp] theorem State.setCore_cancels (s : State) (p : Nat) (c : CoreSlot) : (s.setCore p c).cancels = s.cancels := rfl
@[simp] theorem State.setCore_staged (s : State) (p : Nat) (c : CoreSlot) : (s.setCore p c).staged = s.staged := rfl
@[simp] theorem State.setCore_committed (s : State) (p : Nat) (c : CoreSlot) : (s.setCore p c).committed = s.committed := rfl
@[simp] theorem State.setCore_pcstat (s : State) (p : Nat) (c : CoreSlot) : (s.setCore p c).pcstat = s.pcstat := rfl
@[simp] theorem State.setCore_psyncs (s : State) (p : Nat) (c : CoreSlot) : (s.setCore p c).psyncs = s.psyncs := rfl
@[simp] theorem State.setCore_qlevels (s : State) (p : Nat) (c : CoreSlot) : (s.setCore p c).qlevels = s.qlevels := rfl
@[simp] theorem State.setCore_qcfgs (s : State) (p : Nat) (c : CoreSlot) : (s.setCore p c).qcfgs = s.qcfgs := rfl
@[simp] theorem State.setCore_tasks (s : State) (p : Nat) (c : CoreSlot) : (s.setCore p c).tasks = s.tasks := rfl
@[simp] theorem State.setCore_postSeq (s : State) (p : Nat) (c : CoreSlot) : (s.setCore p c).postSeq = s.postSeq := rfl
@[simp] theorem State.setCore_slices (s : State) (p : Nat) (c : CoreSlot) : (s.setCore p c).slices = s.slices := rfl
@[simp] theorem State.setCore_admAt (s : State) (p : Nat) (c : CoreSlot) : (s.setCore p c).admAt = s.admAt := rfl
@[simp] theorem State.setCore_pmc (s : State) (p : Nat) (c : CoreSlot) : (s.setCore p c).pmc = s.pmc := rfl
@[simp] theorem State.setCore_regions (s : State) (p : Nat) (c : CoreSlot) : (s.setCore p c).regions = s.regions := rfl
@[simp] theorem State.setCore_windows (s : State) (p : Nat) (c : CoreSlot) : (s.setCore p c).windows = s.windows := rfl
@[simp] theorem State.setCore_contribs (s : State) (p : Nat) (c : CoreSlot) : (s.setCore p c).contribs = s.contribs := rfl
@[simp] theorem State.setCore_conns (s : State) (p : Nat) (c : CoreSlot) : (s.setCore p c).conns = s.conns := rfl
@[simp] theorem State.setCore_netHolds (s : State) (p : Nat) (c : CoreSlot) : (s.setCore p c).netHolds = s.netHolds := rfl
@[simp] theorem State.setCore_netSeq (s : State) (p : Nat) (c : CoreSlot) : (s.setCore p c).netSeq = s.netSeq := rfl
@[simp] theorem State.setCore_tssKeys (s : State) (p : Nat) (c : CoreSlot) : (s.setCore p c).tssKeys = s.tssKeys := rfl
@[simp] theorem State.setCore_timePort (s : State) (p : Nat) (c : CoreSlot) : (s.setCore p c).timePort = s.timePort := rfl
@[simp] theorem State.setCore_promoting (s : State) (p : Nat) (c : CoreSlot) : (s.setCore p c).promoting = s.promoting := rfl
@[simp] theorem State.setCore_promoEnd (s : State) (p : Nat) (c : CoreSlot) : (s.setCore p c).promoEnd = s.promoEnd := rfl
@[simp] theorem State.setCore_node (s : State) (p : Nat) (c : CoreSlot) : (s.setCore p c).node = s.node := rfl
@[simp] theorem State.setCore_links (s : State) (p : Nat) (c : CoreSlot) : (s.setCore p c).links = s.links := rfl
@[simp] theorem State.setCore_hqs (s : State) (p : Nat) (c : CoreSlot) : (s.setCore p c).hqs = s.hqs := rfl
@[simp] theorem State.setCore_hostChans (s : State) (p : Nat) (c : CoreSlot) : (s.setCore p c).hostChans = s.hostChans := rfl
@[simp] theorem State.setCore_feats (s : State) (p : Nat) (c : CoreSlot) : (s.setCore p c).feats = s.feats := rfl
@[simp] theorem State.setCore_functions (s : State) (p : Nat) (c : CoreSlot) : (s.setCore p c).functions = s.functions := rfl
@[simp] theorem State.setCore_stores (s : State) (p : Nat) (c : CoreSlot) : (s.setCore p c).stores = s.stores := rfl
@[simp] theorem State.setCore_atRest (s : State) (p : Nat) (c : CoreSlot) : (s.setCore p c).atRest = s.atRest := rfl
@[simp] theorem State.setCore_shapes (s : State) (p : Nat) (c : CoreSlot) : (s.setCore p c).shapes = s.shapes := rfl
@[simp] theorem State.setCore_demoted (s : State) (p : Nat) (c : CoreSlot) : (s.setCore p c).demoted = s.demoted := rfl
@[simp] theorem State.setCore_demCur (s : State) (p : Nat) (c : CoreSlot) : (s.setCore p c).demCur = s.demCur := rfl
@[simp] theorem State.setCore_demAt (s : State) (p : Nat) (c : CoreSlot) : (s.setCore p c).demAt = s.demAt := rfl
@[simp] theorem State.setCore_boot (s : State) (p : Nat) (c : CoreSlot) : (s.setCore p c).boot = s.boot := rfl
@[simp] theorem State.setCore_rstate (s : State) (p : Nat) (c : CoreSlot) : (s.setCore p c).rstate = s.rstate := rfl
@[simp] theorem State.setCore_imgaddr (s : State) (p : Nat) (c : CoreSlot) : (s.setCore p c).imgaddr = s.imgaddr := rfl
@[simp] theorem State.setCore_imglen (s : State) (p : Nat) (c : CoreSlot) : (s.setCore p c).imglen = s.imglen := rfl
@[simp] theorem State.setCore_flash (s : State) (p : Nat) (c : CoreSlot) : (s.setCore p c).flash = s.flash := rfl
@[simp] theorem State.setCore_devRec (s : State) (p : Nat) (c : CoreSlot) : (s.setCore p c).devRec = s.devRec := rfl
@[simp] theorem State.setCore_identity (s : State) (p : Nat) (c : CoreSlot) : (s.setCore p c).identity = s.identity := rfl
@[simp] theorem State.setCore_hostMem (s : State) (p : Nat) (c : CoreSlot) : (s.setCore p c).hostMem = s.hostMem := rfl
@[simp] theorem State.setCore_mlog (s : State) (p : Nat) (c : CoreSlot) : (s.setCore p c).mlog = s.mlog := rfl
@[simp] theorem State.setCore_repair (s : State) (p : Nat) (c : CoreSlot) : (s.setCore p c).repair = s.repair := rfl
@[simp] theorem State.setCore_thermal (s : State) (p : Nat) (c : CoreSlot) : (s.setCore p c).thermal = s.thermal := rfl
@[simp] theorem State.setCore_clusters (s : State) (p : Nat) (c : CoreSlot) : (s.setCore p c).clusters = s.clusters := rfl
@[simp] theorem State.setCore_voff (s : State) (p : Nat) (c : CoreSlot) : (s.setCore p c).voff = s.voff := rfl
@[simp] theorem State.setCore_slew (s : State) (p : Nat) (c : CoreSlot) : (s.setCore p c).slew = s.slew := rfl
@[simp] theorem State.setCore_slewAcc (s : State) (p : Nat) (c : CoreSlot) : (s.setCore p c).slewAcc = s.slewAcc := rfl
@[simp] theorem State.setCore_retired (s : State) (p : Nat) (c : CoreSlot) : (s.setCore p c).retired = s.retired := rfl
@[simp] theorem State.setCore_frames (s : State) (p : Nat) (c : CoreSlot) : (s.setCore p c).frames = s.frames := rfl
@[simp] theorem State.setCore_quotaUsed (s : State) (p : Nat) (c : CoreSlot) : (s.setCore p c).quotaUsed = s.quotaUsed := rfl
@[simp] theorem State.setCore_outbox (s : State) (p : Nat) (c : CoreSlot) : (s.setCore p c).outbox = s.outbox := rfl

/-! ### State.setDie -/

@[simp] theorem State.setDie_now (s : State) (d : Nat) (v : Die) : (s.setDie d v).now = s.now := rfl
@[simp] theorem State.setDie_ctx (s : State) (d : Nat) (v : Die) : (s.setDie d v).ctx = s.ctx := rfl
@[simp] theorem State.setDie_ctxs (s : State) (d : Nat) (v : Die) : (s.setDie d v).ctxs = s.ctxs := rfl
@[simp] theorem State.setDie_residues (s : State) (d : Nat) (v : Die) : (s.setDie d v).residues = s.residues := rfl
@[simp] theorem State.setDie_flying (s : State) (d : Nat) (v : Die) : (s.setDie d v).flying = s.flying := rfl
@[simp] theorem State.setDie_acting (s : State) (d : Nat) (v : Die) : (s.setDie d v).acting = s.acting := rfl
@[simp] theorem State.setDie_parts (s : State) (d : Nat) (v : Die) : (s.setDie d v).parts = s.parts := rfl
@[simp] theorem State.setDie_agenda (s : State) (d : Nat) (v : Die) : (s.setDie d v).agenda = s.agenda := rfl
@[simp] theorem State.setDie_free (s : State) (d : Nat) (v : Die) : (s.setDie d v).free = s.free := rfl
@[simp] theorem State.setDie_mem (s : State) (d : Nat) (v : Die) : (s.setDie d v).mem = s.mem := rfl
@[simp] theorem State.setDie_marks (s : State) (d : Nat) (v : Die) : (s.setDie d v).marks = s.marks := rfl
@[simp] theorem State.setDie_scopes (s : State) (d : Nat) (v : Die) : (s.setDie d v).scopes = s.scopes := rfl
@[simp] theorem State.setDie_tlb (s : State) (d : Nat) (v : Die) : (s.setDie d v).tlb = s.tlb := rfl
@[simp] theorem State.setDie_walks (s : State) (d : Nat) (v : Die) : (s.setDie d v).walks = s.walks := rfl
@[simp] theorem State.setDie_cores (s : State) (d : Nat) (v : Die) : (s.setDie d v).cores = s.cores := rfl
@[simp] theorem State.setDie_dies (s : State) (d : Nat) (v : Die) : (s.setDie d v).dies = Sparse.set (fun _ => Die.zero) s.dies d v := rfl
@[simp] theorem State.setDie_cancels (s : State) (d : Nat) (v : Die) : (s.setDie d v).cancels = s.cancels := rfl
@[simp] theorem State.setDie_staged (s : State) (d : Nat) (v : Die) : (s.setDie d v).staged = s.staged := rfl
@[simp] theorem State.setDie_committed (s : State) (d : Nat) (v : Die) : (s.setDie d v).committed = s.committed := rfl
@[simp] theorem State.setDie_pcstat (s : State) (d : Nat) (v : Die) : (s.setDie d v).pcstat = s.pcstat := rfl
@[simp] theorem State.setDie_psyncs (s : State) (d : Nat) (v : Die) : (s.setDie d v).psyncs = s.psyncs := rfl
@[simp] theorem State.setDie_qlevels (s : State) (d : Nat) (v : Die) : (s.setDie d v).qlevels = s.qlevels := rfl
@[simp] theorem State.setDie_qcfgs (s : State) (d : Nat) (v : Die) : (s.setDie d v).qcfgs = s.qcfgs := rfl
@[simp] theorem State.setDie_tasks (s : State) (d : Nat) (v : Die) : (s.setDie d v).tasks = s.tasks := rfl
@[simp] theorem State.setDie_postSeq (s : State) (d : Nat) (v : Die) : (s.setDie d v).postSeq = s.postSeq := rfl
@[simp] theorem State.setDie_slices (s : State) (d : Nat) (v : Die) : (s.setDie d v).slices = s.slices := rfl
@[simp] theorem State.setDie_admAt (s : State) (d : Nat) (v : Die) : (s.setDie d v).admAt = s.admAt := rfl
@[simp] theorem State.setDie_pmc (s : State) (d : Nat) (v : Die) : (s.setDie d v).pmc = s.pmc := rfl
@[simp] theorem State.setDie_regions (s : State) (d : Nat) (v : Die) : (s.setDie d v).regions = s.regions := rfl
@[simp] theorem State.setDie_windows (s : State) (d : Nat) (v : Die) : (s.setDie d v).windows = s.windows := rfl
@[simp] theorem State.setDie_contribs (s : State) (d : Nat) (v : Die) : (s.setDie d v).contribs = s.contribs := rfl
@[simp] theorem State.setDie_conns (s : State) (d : Nat) (v : Die) : (s.setDie d v).conns = s.conns := rfl
@[simp] theorem State.setDie_netHolds (s : State) (d : Nat) (v : Die) : (s.setDie d v).netHolds = s.netHolds := rfl
@[simp] theorem State.setDie_netSeq (s : State) (d : Nat) (v : Die) : (s.setDie d v).netSeq = s.netSeq := rfl
@[simp] theorem State.setDie_tssKeys (s : State) (d : Nat) (v : Die) : (s.setDie d v).tssKeys = s.tssKeys := rfl
@[simp] theorem State.setDie_timePort (s : State) (d : Nat) (v : Die) : (s.setDie d v).timePort = s.timePort := rfl
@[simp] theorem State.setDie_promoting (s : State) (d : Nat) (v : Die) : (s.setDie d v).promoting = s.promoting := rfl
@[simp] theorem State.setDie_promoEnd (s : State) (d : Nat) (v : Die) : (s.setDie d v).promoEnd = s.promoEnd := rfl
@[simp] theorem State.setDie_node (s : State) (d : Nat) (v : Die) : (s.setDie d v).node = s.node := rfl
@[simp] theorem State.setDie_links (s : State) (d : Nat) (v : Die) : (s.setDie d v).links = s.links := rfl
@[simp] theorem State.setDie_hqs (s : State) (d : Nat) (v : Die) : (s.setDie d v).hqs = s.hqs := rfl
@[simp] theorem State.setDie_hostChans (s : State) (d : Nat) (v : Die) : (s.setDie d v).hostChans = s.hostChans := rfl
@[simp] theorem State.setDie_feats (s : State) (d : Nat) (v : Die) : (s.setDie d v).feats = s.feats := rfl
@[simp] theorem State.setDie_functions (s : State) (d : Nat) (v : Die) : (s.setDie d v).functions = s.functions := rfl
@[simp] theorem State.setDie_stores (s : State) (d : Nat) (v : Die) : (s.setDie d v).stores = s.stores := rfl
@[simp] theorem State.setDie_atRest (s : State) (d : Nat) (v : Die) : (s.setDie d v).atRest = s.atRest := rfl
@[simp] theorem State.setDie_shapes (s : State) (d : Nat) (v : Die) : (s.setDie d v).shapes = s.shapes := rfl
@[simp] theorem State.setDie_demoted (s : State) (d : Nat) (v : Die) : (s.setDie d v).demoted = s.demoted := rfl
@[simp] theorem State.setDie_demCur (s : State) (d : Nat) (v : Die) : (s.setDie d v).demCur = s.demCur := rfl
@[simp] theorem State.setDie_demAt (s : State) (d : Nat) (v : Die) : (s.setDie d v).demAt = s.demAt := rfl
@[simp] theorem State.setDie_boot (s : State) (d : Nat) (v : Die) : (s.setDie d v).boot = s.boot := rfl
@[simp] theorem State.setDie_rstate (s : State) (d : Nat) (v : Die) : (s.setDie d v).rstate = s.rstate := rfl
@[simp] theorem State.setDie_imgaddr (s : State) (d : Nat) (v : Die) : (s.setDie d v).imgaddr = s.imgaddr := rfl
@[simp] theorem State.setDie_imglen (s : State) (d : Nat) (v : Die) : (s.setDie d v).imglen = s.imglen := rfl
@[simp] theorem State.setDie_flash (s : State) (d : Nat) (v : Die) : (s.setDie d v).flash = s.flash := rfl
@[simp] theorem State.setDie_devRec (s : State) (d : Nat) (v : Die) : (s.setDie d v).devRec = s.devRec := rfl
@[simp] theorem State.setDie_identity (s : State) (d : Nat) (v : Die) : (s.setDie d v).identity = s.identity := rfl
@[simp] theorem State.setDie_hostMem (s : State) (d : Nat) (v : Die) : (s.setDie d v).hostMem = s.hostMem := rfl
@[simp] theorem State.setDie_mlog (s : State) (d : Nat) (v : Die) : (s.setDie d v).mlog = s.mlog := rfl
@[simp] theorem State.setDie_repair (s : State) (d : Nat) (v : Die) : (s.setDie d v).repair = s.repair := rfl
@[simp] theorem State.setDie_thermal (s : State) (d : Nat) (v : Die) : (s.setDie d v).thermal = s.thermal := rfl
@[simp] theorem State.setDie_clusters (s : State) (d : Nat) (v : Die) : (s.setDie d v).clusters = s.clusters := rfl
@[simp] theorem State.setDie_voff (s : State) (d : Nat) (v : Die) : (s.setDie d v).voff = s.voff := rfl
@[simp] theorem State.setDie_slew (s : State) (d : Nat) (v : Die) : (s.setDie d v).slew = s.slew := rfl
@[simp] theorem State.setDie_slewAcc (s : State) (d : Nat) (v : Die) : (s.setDie d v).slewAcc = s.slewAcc := rfl
@[simp] theorem State.setDie_retired (s : State) (d : Nat) (v : Die) : (s.setDie d v).retired = s.retired := rfl
@[simp] theorem State.setDie_frames (s : State) (d : Nat) (v : Die) : (s.setDie d v).frames = s.frames := rfl
@[simp] theorem State.setDie_quotaUsed (s : State) (d : Nat) (v : Die) : (s.setDie d v).quotaUsed = s.quotaUsed := rfl
@[simp] theorem State.setDie_outbox (s : State) (d : Nat) (v : Die) : (s.setDie d v).outbox = s.outbox := rfl

/-! ### State.setCluster -/

@[simp] theorem State.setCluster_now (s : State) (n : Nat) (v : Cluster) : (s.setCluster n v).now = s.now := rfl
@[simp] theorem State.setCluster_ctx (s : State) (n : Nat) (v : Cluster) : (s.setCluster n v).ctx = s.ctx := rfl
@[simp] theorem State.setCluster_ctxs (s : State) (n : Nat) (v : Cluster) : (s.setCluster n v).ctxs = s.ctxs := rfl
@[simp] theorem State.setCluster_residues (s : State) (n : Nat) (v : Cluster) : (s.setCluster n v).residues = s.residues := rfl
@[simp] theorem State.setCluster_flying (s : State) (n : Nat) (v : Cluster) : (s.setCluster n v).flying = s.flying := rfl
@[simp] theorem State.setCluster_acting (s : State) (n : Nat) (v : Cluster) : (s.setCluster n v).acting = s.acting := rfl
@[simp] theorem State.setCluster_parts (s : State) (n : Nat) (v : Cluster) : (s.setCluster n v).parts = s.parts := rfl
@[simp] theorem State.setCluster_agenda (s : State) (n : Nat) (v : Cluster) : (s.setCluster n v).agenda = s.agenda := rfl
@[simp] theorem State.setCluster_free (s : State) (n : Nat) (v : Cluster) : (s.setCluster n v).free = s.free := rfl
@[simp] theorem State.setCluster_mem (s : State) (n : Nat) (v : Cluster) : (s.setCluster n v).mem = s.mem := rfl
@[simp] theorem State.setCluster_marks (s : State) (n : Nat) (v : Cluster) : (s.setCluster n v).marks = s.marks := rfl
@[simp] theorem State.setCluster_scopes (s : State) (n : Nat) (v : Cluster) : (s.setCluster n v).scopes = s.scopes := rfl
@[simp] theorem State.setCluster_tlb (s : State) (n : Nat) (v : Cluster) : (s.setCluster n v).tlb = s.tlb := rfl
@[simp] theorem State.setCluster_walks (s : State) (n : Nat) (v : Cluster) : (s.setCluster n v).walks = s.walks := rfl
@[simp] theorem State.setCluster_cores (s : State) (n : Nat) (v : Cluster) : (s.setCluster n v).cores = s.cores := rfl
@[simp] theorem State.setCluster_dies (s : State) (n : Nat) (v : Cluster) : (s.setCluster n v).dies = s.dies := rfl
@[simp] theorem State.setCluster_cancels (s : State) (n : Nat) (v : Cluster) : (s.setCluster n v).cancels = s.cancels := rfl
@[simp] theorem State.setCluster_staged (s : State) (n : Nat) (v : Cluster) : (s.setCluster n v).staged = s.staged := rfl
@[simp] theorem State.setCluster_committed (s : State) (n : Nat) (v : Cluster) : (s.setCluster n v).committed = s.committed := rfl
@[simp] theorem State.setCluster_pcstat (s : State) (n : Nat) (v : Cluster) : (s.setCluster n v).pcstat = s.pcstat := rfl
@[simp] theorem State.setCluster_psyncs (s : State) (n : Nat) (v : Cluster) : (s.setCluster n v).psyncs = s.psyncs := rfl
@[simp] theorem State.setCluster_qlevels (s : State) (n : Nat) (v : Cluster) : (s.setCluster n v).qlevels = s.qlevels := rfl
@[simp] theorem State.setCluster_qcfgs (s : State) (n : Nat) (v : Cluster) : (s.setCluster n v).qcfgs = s.qcfgs := rfl
@[simp] theorem State.setCluster_tasks (s : State) (n : Nat) (v : Cluster) : (s.setCluster n v).tasks = s.tasks := rfl
@[simp] theorem State.setCluster_postSeq (s : State) (n : Nat) (v : Cluster) : (s.setCluster n v).postSeq = s.postSeq := rfl
@[simp] theorem State.setCluster_slices (s : State) (n : Nat) (v : Cluster) : (s.setCluster n v).slices = s.slices := rfl
@[simp] theorem State.setCluster_admAt (s : State) (n : Nat) (v : Cluster) : (s.setCluster n v).admAt = s.admAt := rfl
@[simp] theorem State.setCluster_pmc (s : State) (n : Nat) (v : Cluster) : (s.setCluster n v).pmc = s.pmc := rfl
@[simp] theorem State.setCluster_regions (s : State) (n : Nat) (v : Cluster) : (s.setCluster n v).regions = s.regions := rfl
@[simp] theorem State.setCluster_windows (s : State) (n : Nat) (v : Cluster) : (s.setCluster n v).windows = s.windows := rfl
@[simp] theorem State.setCluster_contribs (s : State) (n : Nat) (v : Cluster) : (s.setCluster n v).contribs = s.contribs := rfl
@[simp] theorem State.setCluster_conns (s : State) (n : Nat) (v : Cluster) : (s.setCluster n v).conns = s.conns := rfl
@[simp] theorem State.setCluster_netHolds (s : State) (n : Nat) (v : Cluster) : (s.setCluster n v).netHolds = s.netHolds := rfl
@[simp] theorem State.setCluster_netSeq (s : State) (n : Nat) (v : Cluster) : (s.setCluster n v).netSeq = s.netSeq := rfl
@[simp] theorem State.setCluster_tssKeys (s : State) (n : Nat) (v : Cluster) : (s.setCluster n v).tssKeys = s.tssKeys := rfl
@[simp] theorem State.setCluster_timePort (s : State) (n : Nat) (v : Cluster) : (s.setCluster n v).timePort = s.timePort := rfl
@[simp] theorem State.setCluster_promoting (s : State) (n : Nat) (v : Cluster) : (s.setCluster n v).promoting = s.promoting := rfl
@[simp] theorem State.setCluster_promoEnd (s : State) (n : Nat) (v : Cluster) : (s.setCluster n v).promoEnd = s.promoEnd := rfl
@[simp] theorem State.setCluster_node (s : State) (n : Nat) (v : Cluster) : (s.setCluster n v).node = s.node := rfl
@[simp] theorem State.setCluster_links (s : State) (n : Nat) (v : Cluster) : (s.setCluster n v).links = s.links := rfl
@[simp] theorem State.setCluster_hqs (s : State) (n : Nat) (v : Cluster) : (s.setCluster n v).hqs = s.hqs := rfl
@[simp] theorem State.setCluster_hostChans (s : State) (n : Nat) (v : Cluster) : (s.setCluster n v).hostChans = s.hostChans := rfl
@[simp] theorem State.setCluster_feats (s : State) (n : Nat) (v : Cluster) : (s.setCluster n v).feats = s.feats := rfl
@[simp] theorem State.setCluster_functions (s : State) (n : Nat) (v : Cluster) : (s.setCluster n v).functions = s.functions := rfl
@[simp] theorem State.setCluster_stores (s : State) (n : Nat) (v : Cluster) : (s.setCluster n v).stores = s.stores := rfl
@[simp] theorem State.setCluster_atRest (s : State) (n : Nat) (v : Cluster) : (s.setCluster n v).atRest = s.atRest := rfl
@[simp] theorem State.setCluster_shapes (s : State) (n : Nat) (v : Cluster) : (s.setCluster n v).shapes = s.shapes := rfl
@[simp] theorem State.setCluster_demoted (s : State) (n : Nat) (v : Cluster) : (s.setCluster n v).demoted = s.demoted := rfl
@[simp] theorem State.setCluster_demCur (s : State) (n : Nat) (v : Cluster) : (s.setCluster n v).demCur = s.demCur := rfl
@[simp] theorem State.setCluster_demAt (s : State) (n : Nat) (v : Cluster) : (s.setCluster n v).demAt = s.demAt := rfl
@[simp] theorem State.setCluster_boot (s : State) (n : Nat) (v : Cluster) : (s.setCluster n v).boot = s.boot := rfl
@[simp] theorem State.setCluster_rstate (s : State) (n : Nat) (v : Cluster) : (s.setCluster n v).rstate = s.rstate := rfl
@[simp] theorem State.setCluster_imgaddr (s : State) (n : Nat) (v : Cluster) : (s.setCluster n v).imgaddr = s.imgaddr := rfl
@[simp] theorem State.setCluster_imglen (s : State) (n : Nat) (v : Cluster) : (s.setCluster n v).imglen = s.imglen := rfl
@[simp] theorem State.setCluster_flash (s : State) (n : Nat) (v : Cluster) : (s.setCluster n v).flash = s.flash := rfl
@[simp] theorem State.setCluster_devRec (s : State) (n : Nat) (v : Cluster) : (s.setCluster n v).devRec = s.devRec := rfl
@[simp] theorem State.setCluster_identity (s : State) (n : Nat) (v : Cluster) : (s.setCluster n v).identity = s.identity := rfl
@[simp] theorem State.setCluster_hostMem (s : State) (n : Nat) (v : Cluster) : (s.setCluster n v).hostMem = s.hostMem := rfl
@[simp] theorem State.setCluster_mlog (s : State) (n : Nat) (v : Cluster) : (s.setCluster n v).mlog = s.mlog := rfl
@[simp] theorem State.setCluster_repair (s : State) (n : Nat) (v : Cluster) : (s.setCluster n v).repair = s.repair := rfl
@[simp] theorem State.setCluster_thermal (s : State) (n : Nat) (v : Cluster) : (s.setCluster n v).thermal = s.thermal := rfl
@[simp] theorem State.setCluster_clusters (s : State) (n : Nat) (v : Cluster) : (s.setCluster n v).clusters = Sparse.set (fun _ => Cluster.zero) s.clusters n v := rfl
@[simp] theorem State.setCluster_voff (s : State) (n : Nat) (v : Cluster) : (s.setCluster n v).voff = s.voff := rfl
@[simp] theorem State.setCluster_slew (s : State) (n : Nat) (v : Cluster) : (s.setCluster n v).slew = s.slew := rfl
@[simp] theorem State.setCluster_slewAcc (s : State) (n : Nat) (v : Cluster) : (s.setCluster n v).slewAcc = s.slewAcc := rfl
@[simp] theorem State.setCluster_retired (s : State) (n : Nat) (v : Cluster) : (s.setCluster n v).retired = s.retired := rfl
@[simp] theorem State.setCluster_frames (s : State) (n : Nat) (v : Cluster) : (s.setCluster n v).frames = s.frames := rfl
@[simp] theorem State.setCluster_quotaUsed (s : State) (n : Nat) (v : Cluster) : (s.setCluster n v).quotaUsed = s.quotaUsed := rfl
@[simp] theorem State.setCluster_outbox (s : State) (n : Nat) (v : Cluster) : (s.setCluster n v).outbox = s.outbox := rfl

/-! ### State.setQlevel -/

@[simp] theorem State.setQlevel_now (s : State) (p q : Nat) (v : QLevel) : (s.setQlevel p q v).now = s.now := rfl
@[simp] theorem State.setQlevel_ctx (s : State) (p q : Nat) (v : QLevel) : (s.setQlevel p q v).ctx = s.ctx := rfl
@[simp] theorem State.setQlevel_ctxs (s : State) (p q : Nat) (v : QLevel) : (s.setQlevel p q v).ctxs = s.ctxs := rfl
@[simp] theorem State.setQlevel_residues (s : State) (p q : Nat) (v : QLevel) : (s.setQlevel p q v).residues = s.residues := rfl
@[simp] theorem State.setQlevel_flying (s : State) (p q : Nat) (v : QLevel) : (s.setQlevel p q v).flying = s.flying := rfl
@[simp] theorem State.setQlevel_acting (s : State) (p q : Nat) (v : QLevel) : (s.setQlevel p q v).acting = s.acting := rfl
@[simp] theorem State.setQlevel_parts (s : State) (p q : Nat) (v : QLevel) : (s.setQlevel p q v).parts = s.parts := rfl
@[simp] theorem State.setQlevel_agenda (s : State) (p q : Nat) (v : QLevel) : (s.setQlevel p q v).agenda = s.agenda := rfl
@[simp] theorem State.setQlevel_free (s : State) (p q : Nat) (v : QLevel) : (s.setQlevel p q v).free = s.free := rfl
@[simp] theorem State.setQlevel_mem (s : State) (p q : Nat) (v : QLevel) : (s.setQlevel p q v).mem = s.mem := rfl
@[simp] theorem State.setQlevel_marks (s : State) (p q : Nat) (v : QLevel) : (s.setQlevel p q v).marks = s.marks := rfl
@[simp] theorem State.setQlevel_scopes (s : State) (p q : Nat) (v : QLevel) : (s.setQlevel p q v).scopes = s.scopes := rfl
@[simp] theorem State.setQlevel_tlb (s : State) (p q : Nat) (v : QLevel) : (s.setQlevel p q v).tlb = s.tlb := rfl
@[simp] theorem State.setQlevel_walks (s : State) (p q : Nat) (v : QLevel) : (s.setQlevel p q v).walks = s.walks := rfl
@[simp] theorem State.setQlevel_cores (s : State) (p q : Nat) (v : QLevel) : (s.setQlevel p q v).cores = s.cores := rfl
@[simp] theorem State.setQlevel_dies (s : State) (p q : Nat) (v : QLevel) : (s.setQlevel p q v).dies = s.dies := rfl
@[simp] theorem State.setQlevel_cancels (s : State) (p q : Nat) (v : QLevel) : (s.setQlevel p q v).cancels = s.cancels := rfl
@[simp] theorem State.setQlevel_staged (s : State) (p q : Nat) (v : QLevel) : (s.setQlevel p q v).staged = s.staged := rfl
@[simp] theorem State.setQlevel_committed (s : State) (p q : Nat) (v : QLevel) : (s.setQlevel p q v).committed = s.committed := rfl
@[simp] theorem State.setQlevel_pcstat (s : State) (p q : Nat) (v : QLevel) : (s.setQlevel p q v).pcstat = s.pcstat := rfl
@[simp] theorem State.setQlevel_psyncs (s : State) (p q : Nat) (v : QLevel) : (s.setQlevel p q v).psyncs = s.psyncs := rfl
@[simp] theorem State.setQlevel_qlevels (s : State) (p q : Nat) (v : QLevel) : (s.setQlevel p q v).qlevels = Sparse.set (fun _ => QLevel.zero) s.qlevels (p * 64 + q) v := rfl
@[simp] theorem State.setQlevel_qcfgs (s : State) (p q : Nat) (v : QLevel) : (s.setQlevel p q v).qcfgs = s.qcfgs := rfl
@[simp] theorem State.setQlevel_tasks (s : State) (p q : Nat) (v : QLevel) : (s.setQlevel p q v).tasks = s.tasks := rfl
@[simp] theorem State.setQlevel_postSeq (s : State) (p q : Nat) (v : QLevel) : (s.setQlevel p q v).postSeq = s.postSeq := rfl
@[simp] theorem State.setQlevel_slices (s : State) (p q : Nat) (v : QLevel) : (s.setQlevel p q v).slices = s.slices := rfl
@[simp] theorem State.setQlevel_admAt (s : State) (p q : Nat) (v : QLevel) : (s.setQlevel p q v).admAt = s.admAt := rfl
@[simp] theorem State.setQlevel_pmc (s : State) (p q : Nat) (v : QLevel) : (s.setQlevel p q v).pmc = s.pmc := rfl
@[simp] theorem State.setQlevel_regions (s : State) (p q : Nat) (v : QLevel) : (s.setQlevel p q v).regions = s.regions := rfl
@[simp] theorem State.setQlevel_windows (s : State) (p q : Nat) (v : QLevel) : (s.setQlevel p q v).windows = s.windows := rfl
@[simp] theorem State.setQlevel_contribs (s : State) (p q : Nat) (v : QLevel) : (s.setQlevel p q v).contribs = s.contribs := rfl
@[simp] theorem State.setQlevel_conns (s : State) (p q : Nat) (v : QLevel) : (s.setQlevel p q v).conns = s.conns := rfl
@[simp] theorem State.setQlevel_netHolds (s : State) (p q : Nat) (v : QLevel) : (s.setQlevel p q v).netHolds = s.netHolds := rfl
@[simp] theorem State.setQlevel_netSeq (s : State) (p q : Nat) (v : QLevel) : (s.setQlevel p q v).netSeq = s.netSeq := rfl
@[simp] theorem State.setQlevel_tssKeys (s : State) (p q : Nat) (v : QLevel) : (s.setQlevel p q v).tssKeys = s.tssKeys := rfl
@[simp] theorem State.setQlevel_timePort (s : State) (p q : Nat) (v : QLevel) : (s.setQlevel p q v).timePort = s.timePort := rfl
@[simp] theorem State.setQlevel_promoting (s : State) (p q : Nat) (v : QLevel) : (s.setQlevel p q v).promoting = s.promoting := rfl
@[simp] theorem State.setQlevel_promoEnd (s : State) (p q : Nat) (v : QLevel) : (s.setQlevel p q v).promoEnd = s.promoEnd := rfl
@[simp] theorem State.setQlevel_node (s : State) (p q : Nat) (v : QLevel) : (s.setQlevel p q v).node = s.node := rfl
@[simp] theorem State.setQlevel_links (s : State) (p q : Nat) (v : QLevel) : (s.setQlevel p q v).links = s.links := rfl
@[simp] theorem State.setQlevel_hqs (s : State) (p q : Nat) (v : QLevel) : (s.setQlevel p q v).hqs = s.hqs := rfl
@[simp] theorem State.setQlevel_hostChans (s : State) (p q : Nat) (v : QLevel) : (s.setQlevel p q v).hostChans = s.hostChans := rfl
@[simp] theorem State.setQlevel_feats (s : State) (p q : Nat) (v : QLevel) : (s.setQlevel p q v).feats = s.feats := rfl
@[simp] theorem State.setQlevel_functions (s : State) (p q : Nat) (v : QLevel) : (s.setQlevel p q v).functions = s.functions := rfl
@[simp] theorem State.setQlevel_stores (s : State) (p q : Nat) (v : QLevel) : (s.setQlevel p q v).stores = s.stores := rfl
@[simp] theorem State.setQlevel_atRest (s : State) (p q : Nat) (v : QLevel) : (s.setQlevel p q v).atRest = s.atRest := rfl
@[simp] theorem State.setQlevel_shapes (s : State) (p q : Nat) (v : QLevel) : (s.setQlevel p q v).shapes = s.shapes := rfl
@[simp] theorem State.setQlevel_demoted (s : State) (p q : Nat) (v : QLevel) : (s.setQlevel p q v).demoted = s.demoted := rfl
@[simp] theorem State.setQlevel_demCur (s : State) (p q : Nat) (v : QLevel) : (s.setQlevel p q v).demCur = s.demCur := rfl
@[simp] theorem State.setQlevel_demAt (s : State) (p q : Nat) (v : QLevel) : (s.setQlevel p q v).demAt = s.demAt := rfl
@[simp] theorem State.setQlevel_boot (s : State) (p q : Nat) (v : QLevel) : (s.setQlevel p q v).boot = s.boot := rfl
@[simp] theorem State.setQlevel_rstate (s : State) (p q : Nat) (v : QLevel) : (s.setQlevel p q v).rstate = s.rstate := rfl
@[simp] theorem State.setQlevel_imgaddr (s : State) (p q : Nat) (v : QLevel) : (s.setQlevel p q v).imgaddr = s.imgaddr := rfl
@[simp] theorem State.setQlevel_imglen (s : State) (p q : Nat) (v : QLevel) : (s.setQlevel p q v).imglen = s.imglen := rfl
@[simp] theorem State.setQlevel_flash (s : State) (p q : Nat) (v : QLevel) : (s.setQlevel p q v).flash = s.flash := rfl
@[simp] theorem State.setQlevel_devRec (s : State) (p q : Nat) (v : QLevel) : (s.setQlevel p q v).devRec = s.devRec := rfl
@[simp] theorem State.setQlevel_identity (s : State) (p q : Nat) (v : QLevel) : (s.setQlevel p q v).identity = s.identity := rfl
@[simp] theorem State.setQlevel_hostMem (s : State) (p q : Nat) (v : QLevel) : (s.setQlevel p q v).hostMem = s.hostMem := rfl
@[simp] theorem State.setQlevel_mlog (s : State) (p q : Nat) (v : QLevel) : (s.setQlevel p q v).mlog = s.mlog := rfl
@[simp] theorem State.setQlevel_repair (s : State) (p q : Nat) (v : QLevel) : (s.setQlevel p q v).repair = s.repair := rfl
@[simp] theorem State.setQlevel_thermal (s : State) (p q : Nat) (v : QLevel) : (s.setQlevel p q v).thermal = s.thermal := rfl
@[simp] theorem State.setQlevel_clusters (s : State) (p q : Nat) (v : QLevel) : (s.setQlevel p q v).clusters = s.clusters := rfl
@[simp] theorem State.setQlevel_voff (s : State) (p q : Nat) (v : QLevel) : (s.setQlevel p q v).voff = s.voff := rfl
@[simp] theorem State.setQlevel_slew (s : State) (p q : Nat) (v : QLevel) : (s.setQlevel p q v).slew = s.slew := rfl
@[simp] theorem State.setQlevel_slewAcc (s : State) (p q : Nat) (v : QLevel) : (s.setQlevel p q v).slewAcc = s.slewAcc := rfl
@[simp] theorem State.setQlevel_retired (s : State) (p q : Nat) (v : QLevel) : (s.setQlevel p q v).retired = s.retired := rfl
@[simp] theorem State.setQlevel_frames (s : State) (p q : Nat) (v : QLevel) : (s.setQlevel p q v).frames = s.frames := rfl
@[simp] theorem State.setQlevel_quotaUsed (s : State) (p q : Nat) (v : QLevel) : (s.setQlevel p q v).quotaUsed = s.quotaUsed := rfl
@[simp] theorem State.setQlevel_outbox (s : State) (p q : Nat) (v : QLevel) : (s.setQlevel p q v).outbox = s.outbox := rfl

/-! ### State.useFree -/

@[simp] theorem State.useFree_now (s : State) : (s.useFree).now = s.now := rfl
@[simp] theorem State.useFree_ctx (s : State) : (s.useFree).ctx = s.ctx := rfl
@[simp] theorem State.useFree_ctxs (s : State) : (s.useFree).ctxs = s.ctxs := rfl
@[simp] theorem State.useFree_residues (s : State) : (s.useFree).residues = s.residues := rfl
@[simp] theorem State.useFree_flying (s : State) : (s.useFree).flying = s.flying := rfl
@[simp] theorem State.useFree_acting (s : State) : (s.useFree).acting = s.acting := rfl
@[simp] theorem State.useFree_parts (s : State) : (s.useFree).parts = s.parts := rfl
@[simp] theorem State.useFree_agenda (s : State) : (s.useFree).agenda = s.agenda := rfl
@[simp] theorem State.useFree_free (s : State) : (s.useFree).free = s.free + 1 := rfl
@[simp] theorem State.useFree_mem (s : State) : (s.useFree).mem = s.mem := rfl
@[simp] theorem State.useFree_marks (s : State) : (s.useFree).marks = s.marks := rfl
@[simp] theorem State.useFree_scopes (s : State) : (s.useFree).scopes = s.scopes := rfl
@[simp] theorem State.useFree_tlb (s : State) : (s.useFree).tlb = s.tlb := rfl
@[simp] theorem State.useFree_walks (s : State) : (s.useFree).walks = s.walks := rfl
@[simp] theorem State.useFree_cores (s : State) : (s.useFree).cores = s.cores := rfl
@[simp] theorem State.useFree_dies (s : State) : (s.useFree).dies = s.dies := rfl
@[simp] theorem State.useFree_cancels (s : State) : (s.useFree).cancels = s.cancels := rfl
@[simp] theorem State.useFree_staged (s : State) : (s.useFree).staged = s.staged := rfl
@[simp] theorem State.useFree_committed (s : State) : (s.useFree).committed = s.committed := rfl
@[simp] theorem State.useFree_pcstat (s : State) : (s.useFree).pcstat = s.pcstat := rfl
@[simp] theorem State.useFree_psyncs (s : State) : (s.useFree).psyncs = s.psyncs := rfl
@[simp] theorem State.useFree_qlevels (s : State) : (s.useFree).qlevels = s.qlevels := rfl
@[simp] theorem State.useFree_qcfgs (s : State) : (s.useFree).qcfgs = s.qcfgs := rfl
@[simp] theorem State.useFree_tasks (s : State) : (s.useFree).tasks = s.tasks := rfl
@[simp] theorem State.useFree_postSeq (s : State) : (s.useFree).postSeq = s.postSeq := rfl
@[simp] theorem State.useFree_slices (s : State) : (s.useFree).slices = s.slices := rfl
@[simp] theorem State.useFree_admAt (s : State) : (s.useFree).admAt = s.admAt := rfl
@[simp] theorem State.useFree_pmc (s : State) : (s.useFree).pmc = s.pmc := rfl
@[simp] theorem State.useFree_regions (s : State) : (s.useFree).regions = s.regions := rfl
@[simp] theorem State.useFree_windows (s : State) : (s.useFree).windows = s.windows := rfl
@[simp] theorem State.useFree_contribs (s : State) : (s.useFree).contribs = s.contribs := rfl
@[simp] theorem State.useFree_conns (s : State) : (s.useFree).conns = s.conns := rfl
@[simp] theorem State.useFree_netHolds (s : State) : (s.useFree).netHolds = s.netHolds := rfl
@[simp] theorem State.useFree_netSeq (s : State) : (s.useFree).netSeq = s.netSeq := rfl
@[simp] theorem State.useFree_tssKeys (s : State) : (s.useFree).tssKeys = s.tssKeys := rfl
@[simp] theorem State.useFree_timePort (s : State) : (s.useFree).timePort = s.timePort := rfl
@[simp] theorem State.useFree_promoting (s : State) : (s.useFree).promoting = s.promoting := rfl
@[simp] theorem State.useFree_promoEnd (s : State) : (s.useFree).promoEnd = s.promoEnd := rfl
@[simp] theorem State.useFree_node (s : State) : (s.useFree).node = s.node := rfl
@[simp] theorem State.useFree_links (s : State) : (s.useFree).links = s.links := rfl
@[simp] theorem State.useFree_hqs (s : State) : (s.useFree).hqs = s.hqs := rfl
@[simp] theorem State.useFree_hostChans (s : State) : (s.useFree).hostChans = s.hostChans := rfl
@[simp] theorem State.useFree_feats (s : State) : (s.useFree).feats = s.feats := rfl
@[simp] theorem State.useFree_functions (s : State) : (s.useFree).functions = s.functions := rfl
@[simp] theorem State.useFree_stores (s : State) : (s.useFree).stores = s.stores := rfl
@[simp] theorem State.useFree_atRest (s : State) : (s.useFree).atRest = s.atRest := rfl
@[simp] theorem State.useFree_shapes (s : State) : (s.useFree).shapes = s.shapes := rfl
@[simp] theorem State.useFree_demoted (s : State) : (s.useFree).demoted = s.demoted := rfl
@[simp] theorem State.useFree_demCur (s : State) : (s.useFree).demCur = s.demCur := rfl
@[simp] theorem State.useFree_demAt (s : State) : (s.useFree).demAt = s.demAt := rfl
@[simp] theorem State.useFree_boot (s : State) : (s.useFree).boot = s.boot := rfl
@[simp] theorem State.useFree_rstate (s : State) : (s.useFree).rstate = s.rstate := rfl
@[simp] theorem State.useFree_imgaddr (s : State) : (s.useFree).imgaddr = s.imgaddr := rfl
@[simp] theorem State.useFree_imglen (s : State) : (s.useFree).imglen = s.imglen := rfl
@[simp] theorem State.useFree_flash (s : State) : (s.useFree).flash = s.flash := rfl
@[simp] theorem State.useFree_devRec (s : State) : (s.useFree).devRec = s.devRec := rfl
@[simp] theorem State.useFree_identity (s : State) : (s.useFree).identity = s.identity := rfl
@[simp] theorem State.useFree_hostMem (s : State) : (s.useFree).hostMem = s.hostMem := rfl
@[simp] theorem State.useFree_mlog (s : State) : (s.useFree).mlog = s.mlog := rfl
@[simp] theorem State.useFree_repair (s : State) : (s.useFree).repair = s.repair := rfl
@[simp] theorem State.useFree_thermal (s : State) : (s.useFree).thermal = s.thermal := rfl
@[simp] theorem State.useFree_clusters (s : State) : (s.useFree).clusters = s.clusters := rfl
@[simp] theorem State.useFree_voff (s : State) : (s.useFree).voff = s.voff := rfl
@[simp] theorem State.useFree_slew (s : State) : (s.useFree).slew = s.slew := rfl
@[simp] theorem State.useFree_slewAcc (s : State) : (s.useFree).slewAcc = s.slewAcc := rfl
@[simp] theorem State.useFree_retired (s : State) : (s.useFree).retired = s.retired := rfl
@[simp] theorem State.useFree_frames (s : State) : (s.useFree).frames = s.frames := rfl
@[simp] theorem State.useFree_quotaUsed (s : State) : (s.useFree).quotaUsed = s.quotaUsed := rfl
@[simp] theorem State.useFree_outbox (s : State) : (s.useFree).outbox = s.outbox := rfl

/-! ### State.putTask -/

@[simp] theorem State.putTask_now (s : State) (k : Task) : (s.putTask k).now = s.now := rfl
@[simp] theorem State.putTask_ctx (s : State) (k : Task) : (s.putTask k).ctx = s.ctx := rfl
@[simp] theorem State.putTask_ctxs (s : State) (k : Task) : (s.putTask k).ctxs = s.ctxs := rfl
@[simp] theorem State.putTask_residues (s : State) (k : Task) : (s.putTask k).residues = s.residues := rfl
@[simp] theorem State.putTask_flying (s : State) (k : Task) : (s.putTask k).flying = s.flying := rfl
@[simp] theorem State.putTask_acting (s : State) (k : Task) : (s.putTask k).acting = s.acting := rfl
@[simp] theorem State.putTask_parts (s : State) (k : Task) : (s.putTask k).parts = s.parts := rfl
@[simp] theorem State.putTask_agenda (s : State) (k : Task) : (s.putTask k).agenda = s.agenda := rfl
@[simp] theorem State.putTask_free (s : State) (k : Task) : (s.putTask k).free = s.free := rfl
@[simp] theorem State.putTask_mem (s : State) (k : Task) : (s.putTask k).mem = s.mem := rfl
@[simp] theorem State.putTask_marks (s : State) (k : Task) : (s.putTask k).marks = s.marks := rfl
@[simp] theorem State.putTask_scopes (s : State) (k : Task) : (s.putTask k).scopes = s.scopes := rfl
@[simp] theorem State.putTask_tlb (s : State) (k : Task) : (s.putTask k).tlb = s.tlb := rfl
@[simp] theorem State.putTask_walks (s : State) (k : Task) : (s.putTask k).walks = s.walks := rfl
@[simp] theorem State.putTask_cores (s : State) (k : Task) : (s.putTask k).cores = s.cores := rfl
@[simp] theorem State.putTask_dies (s : State) (k : Task) : (s.putTask k).dies = s.dies := rfl
@[simp] theorem State.putTask_cancels (s : State) (k : Task) : (s.putTask k).cancels = s.cancels := rfl
@[simp] theorem State.putTask_staged (s : State) (k : Task) : (s.putTask k).staged = s.staged := rfl
@[simp] theorem State.putTask_committed (s : State) (k : Task) : (s.putTask k).committed = s.committed := rfl
@[simp] theorem State.putTask_pcstat (s : State) (k : Task) : (s.putTask k).pcstat = s.pcstat := rfl
@[simp] theorem State.putTask_psyncs (s : State) (k : Task) : (s.putTask k).psyncs = s.psyncs := rfl
@[simp] theorem State.putTask_qlevels (s : State) (k : Task) : (s.putTask k).qlevels = s.qlevels := rfl
@[simp] theorem State.putTask_qcfgs (s : State) (k : Task) : (s.putTask k).qcfgs = s.qcfgs := rfl
@[simp] theorem State.putTask_tasks (s : State) (k : Task) : (s.putTask k).tasks = s.tasks.map (fun j => if j.id = k.id then k else j) := rfl
@[simp] theorem State.putTask_postSeq (s : State) (k : Task) : (s.putTask k).postSeq = s.postSeq := rfl
@[simp] theorem State.putTask_slices (s : State) (k : Task) : (s.putTask k).slices = s.slices := rfl
@[simp] theorem State.putTask_admAt (s : State) (k : Task) : (s.putTask k).admAt = s.admAt := rfl
@[simp] theorem State.putTask_pmc (s : State) (k : Task) : (s.putTask k).pmc = s.pmc := rfl
@[simp] theorem State.putTask_regions (s : State) (k : Task) : (s.putTask k).regions = s.regions := rfl
@[simp] theorem State.putTask_windows (s : State) (k : Task) : (s.putTask k).windows = s.windows := rfl
@[simp] theorem State.putTask_contribs (s : State) (k : Task) : (s.putTask k).contribs = s.contribs := rfl
@[simp] theorem State.putTask_conns (s : State) (k : Task) : (s.putTask k).conns = s.conns := rfl
@[simp] theorem State.putTask_netHolds (s : State) (k : Task) : (s.putTask k).netHolds = s.netHolds := rfl
@[simp] theorem State.putTask_netSeq (s : State) (k : Task) : (s.putTask k).netSeq = s.netSeq := rfl
@[simp] theorem State.putTask_tssKeys (s : State) (k : Task) : (s.putTask k).tssKeys = s.tssKeys := rfl
@[simp] theorem State.putTask_timePort (s : State) (k : Task) : (s.putTask k).timePort = s.timePort := rfl
@[simp] theorem State.putTask_promoting (s : State) (k : Task) : (s.putTask k).promoting = s.promoting := rfl
@[simp] theorem State.putTask_promoEnd (s : State) (k : Task) : (s.putTask k).promoEnd = s.promoEnd := rfl
@[simp] theorem State.putTask_node (s : State) (k : Task) : (s.putTask k).node = s.node := rfl
@[simp] theorem State.putTask_links (s : State) (k : Task) : (s.putTask k).links = s.links := rfl
@[simp] theorem State.putTask_hqs (s : State) (k : Task) : (s.putTask k).hqs = s.hqs := rfl
@[simp] theorem State.putTask_hostChans (s : State) (k : Task) : (s.putTask k).hostChans = s.hostChans := rfl
@[simp] theorem State.putTask_feats (s : State) (k : Task) : (s.putTask k).feats = s.feats := rfl
@[simp] theorem State.putTask_functions (s : State) (k : Task) : (s.putTask k).functions = s.functions := rfl
@[simp] theorem State.putTask_stores (s : State) (k : Task) : (s.putTask k).stores = s.stores := rfl
@[simp] theorem State.putTask_atRest (s : State) (k : Task) : (s.putTask k).atRest = s.atRest := rfl
@[simp] theorem State.putTask_shapes (s : State) (k : Task) : (s.putTask k).shapes = s.shapes := rfl
@[simp] theorem State.putTask_demoted (s : State) (k : Task) : (s.putTask k).demoted = s.demoted := rfl
@[simp] theorem State.putTask_demCur (s : State) (k : Task) : (s.putTask k).demCur = s.demCur := rfl
@[simp] theorem State.putTask_demAt (s : State) (k : Task) : (s.putTask k).demAt = s.demAt := rfl
@[simp] theorem State.putTask_boot (s : State) (k : Task) : (s.putTask k).boot = s.boot := rfl
@[simp] theorem State.putTask_rstate (s : State) (k : Task) : (s.putTask k).rstate = s.rstate := rfl
@[simp] theorem State.putTask_imgaddr (s : State) (k : Task) : (s.putTask k).imgaddr = s.imgaddr := rfl
@[simp] theorem State.putTask_imglen (s : State) (k : Task) : (s.putTask k).imglen = s.imglen := rfl
@[simp] theorem State.putTask_flash (s : State) (k : Task) : (s.putTask k).flash = s.flash := rfl
@[simp] theorem State.putTask_devRec (s : State) (k : Task) : (s.putTask k).devRec = s.devRec := rfl
@[simp] theorem State.putTask_identity (s : State) (k : Task) : (s.putTask k).identity = s.identity := rfl
@[simp] theorem State.putTask_hostMem (s : State) (k : Task) : (s.putTask k).hostMem = s.hostMem := rfl
@[simp] theorem State.putTask_mlog (s : State) (k : Task) : (s.putTask k).mlog = s.mlog := rfl
@[simp] theorem State.putTask_repair (s : State) (k : Task) : (s.putTask k).repair = s.repair := rfl
@[simp] theorem State.putTask_thermal (s : State) (k : Task) : (s.putTask k).thermal = s.thermal := rfl
@[simp] theorem State.putTask_clusters (s : State) (k : Task) : (s.putTask k).clusters = s.clusters := rfl
@[simp] theorem State.putTask_voff (s : State) (k : Task) : (s.putTask k).voff = s.voff := rfl
@[simp] theorem State.putTask_slew (s : State) (k : Task) : (s.putTask k).slew = s.slew := rfl
@[simp] theorem State.putTask_slewAcc (s : State) (k : Task) : (s.putTask k).slewAcc = s.slewAcc := rfl
@[simp] theorem State.putTask_retired (s : State) (k : Task) : (s.putTask k).retired = s.retired := rfl
@[simp] theorem State.putTask_frames (s : State) (k : Task) : (s.putTask k).frames = s.frames := rfl
@[simp] theorem State.putTask_quotaUsed (s : State) (k : Task) : (s.putTask k).quotaUsed = s.quotaUsed := rfl
@[simp] theorem State.putTask_outbox (s : State) (k : Task) : (s.putTask k).outbox = s.outbox := rfl

/-! ### State.emit -/

@[simp] theorem State.emit_now (s : State) (o : Out) : (s.emit o).now = s.now := rfl
@[simp] theorem State.emit_ctx (s : State) (o : Out) : (s.emit o).ctx = s.ctx := rfl
@[simp] theorem State.emit_ctxs (s : State) (o : Out) : (s.emit o).ctxs = s.ctxs := rfl
@[simp] theorem State.emit_residues (s : State) (o : Out) : (s.emit o).residues = s.residues := rfl
@[simp] theorem State.emit_flying (s : State) (o : Out) : (s.emit o).flying = s.flying := rfl
@[simp] theorem State.emit_acting (s : State) (o : Out) : (s.emit o).acting = s.acting := rfl
@[simp] theorem State.emit_parts (s : State) (o : Out) : (s.emit o).parts = s.parts := rfl
@[simp] theorem State.emit_agenda (s : State) (o : Out) : (s.emit o).agenda = s.agenda := rfl
@[simp] theorem State.emit_free (s : State) (o : Out) : (s.emit o).free = s.free := rfl
@[simp] theorem State.emit_mem (s : State) (o : Out) : (s.emit o).mem = s.mem := rfl
@[simp] theorem State.emit_marks (s : State) (o : Out) : (s.emit o).marks = s.marks := rfl
@[simp] theorem State.emit_scopes (s : State) (o : Out) : (s.emit o).scopes = s.scopes := rfl
@[simp] theorem State.emit_tlb (s : State) (o : Out) : (s.emit o).tlb = s.tlb := rfl
@[simp] theorem State.emit_walks (s : State) (o : Out) : (s.emit o).walks = s.walks := rfl
@[simp] theorem State.emit_cores (s : State) (o : Out) : (s.emit o).cores = s.cores := rfl
@[simp] theorem State.emit_dies (s : State) (o : Out) : (s.emit o).dies = s.dies := rfl
@[simp] theorem State.emit_cancels (s : State) (o : Out) : (s.emit o).cancels = s.cancels := rfl
@[simp] theorem State.emit_staged (s : State) (o : Out) : (s.emit o).staged = s.staged := rfl
@[simp] theorem State.emit_committed (s : State) (o : Out) : (s.emit o).committed = s.committed := rfl
@[simp] theorem State.emit_pcstat (s : State) (o : Out) : (s.emit o).pcstat = s.pcstat := rfl
@[simp] theorem State.emit_psyncs (s : State) (o : Out) : (s.emit o).psyncs = s.psyncs := rfl
@[simp] theorem State.emit_qlevels (s : State) (o : Out) : (s.emit o).qlevels = s.qlevels := rfl
@[simp] theorem State.emit_qcfgs (s : State) (o : Out) : (s.emit o).qcfgs = s.qcfgs := rfl
@[simp] theorem State.emit_tasks (s : State) (o : Out) : (s.emit o).tasks = s.tasks := rfl
@[simp] theorem State.emit_postSeq (s : State) (o : Out) : (s.emit o).postSeq = s.postSeq := rfl
@[simp] theorem State.emit_slices (s : State) (o : Out) : (s.emit o).slices = s.slices := rfl
@[simp] theorem State.emit_admAt (s : State) (o : Out) : (s.emit o).admAt = s.admAt := rfl
@[simp] theorem State.emit_pmc (s : State) (o : Out) : (s.emit o).pmc = s.pmc := rfl
@[simp] theorem State.emit_regions (s : State) (o : Out) : (s.emit o).regions = s.regions := rfl
@[simp] theorem State.emit_windows (s : State) (o : Out) : (s.emit o).windows = s.windows := rfl
@[simp] theorem State.emit_contribs (s : State) (o : Out) : (s.emit o).contribs = s.contribs := rfl
@[simp] theorem State.emit_conns (s : State) (o : Out) : (s.emit o).conns = s.conns := rfl
@[simp] theorem State.emit_netHolds (s : State) (o : Out) : (s.emit o).netHolds = s.netHolds := rfl
@[simp] theorem State.emit_netSeq (s : State) (o : Out) : (s.emit o).netSeq = s.netSeq := rfl
@[simp] theorem State.emit_tssKeys (s : State) (o : Out) : (s.emit o).tssKeys = s.tssKeys := rfl
@[simp] theorem State.emit_timePort (s : State) (o : Out) : (s.emit o).timePort = s.timePort := rfl
@[simp] theorem State.emit_promoting (s : State) (o : Out) : (s.emit o).promoting = s.promoting := rfl
@[simp] theorem State.emit_promoEnd (s : State) (o : Out) : (s.emit o).promoEnd = s.promoEnd := rfl
@[simp] theorem State.emit_node (s : State) (o : Out) : (s.emit o).node = s.node := rfl
@[simp] theorem State.emit_links (s : State) (o : Out) : (s.emit o).links = s.links := rfl
@[simp] theorem State.emit_hqs (s : State) (o : Out) : (s.emit o).hqs = s.hqs := rfl
@[simp] theorem State.emit_hostChans (s : State) (o : Out) : (s.emit o).hostChans = s.hostChans := rfl
@[simp] theorem State.emit_feats (s : State) (o : Out) : (s.emit o).feats = s.feats := rfl
@[simp] theorem State.emit_functions (s : State) (o : Out) : (s.emit o).functions = s.functions := rfl
@[simp] theorem State.emit_stores (s : State) (o : Out) : (s.emit o).stores = s.stores := rfl
@[simp] theorem State.emit_atRest (s : State) (o : Out) : (s.emit o).atRest = s.atRest := rfl
@[simp] theorem State.emit_shapes (s : State) (o : Out) : (s.emit o).shapes = s.shapes := rfl
@[simp] theorem State.emit_demoted (s : State) (o : Out) : (s.emit o).demoted = s.demoted := rfl
@[simp] theorem State.emit_demCur (s : State) (o : Out) : (s.emit o).demCur = s.demCur := rfl
@[simp] theorem State.emit_demAt (s : State) (o : Out) : (s.emit o).demAt = s.demAt := rfl
@[simp] theorem State.emit_boot (s : State) (o : Out) : (s.emit o).boot = s.boot := rfl
@[simp] theorem State.emit_rstate (s : State) (o : Out) : (s.emit o).rstate = s.rstate := rfl
@[simp] theorem State.emit_imgaddr (s : State) (o : Out) : (s.emit o).imgaddr = s.imgaddr := rfl
@[simp] theorem State.emit_imglen (s : State) (o : Out) : (s.emit o).imglen = s.imglen := rfl
@[simp] theorem State.emit_flash (s : State) (o : Out) : (s.emit o).flash = s.flash := rfl
@[simp] theorem State.emit_devRec (s : State) (o : Out) : (s.emit o).devRec = s.devRec := rfl
@[simp] theorem State.emit_identity (s : State) (o : Out) : (s.emit o).identity = s.identity := rfl
@[simp] theorem State.emit_hostMem (s : State) (o : Out) : (s.emit o).hostMem = s.hostMem := rfl
@[simp] theorem State.emit_mlog (s : State) (o : Out) : (s.emit o).mlog = s.mlog := rfl
@[simp] theorem State.emit_repair (s : State) (o : Out) : (s.emit o).repair = s.repair := rfl
@[simp] theorem State.emit_thermal (s : State) (o : Out) : (s.emit o).thermal = s.thermal := rfl
@[simp] theorem State.emit_clusters (s : State) (o : Out) : (s.emit o).clusters = s.clusters := rfl
@[simp] theorem State.emit_voff (s : State) (o : Out) : (s.emit o).voff = s.voff := rfl
@[simp] theorem State.emit_slew (s : State) (o : Out) : (s.emit o).slew = s.slew := rfl
@[simp] theorem State.emit_slewAcc (s : State) (o : Out) : (s.emit o).slewAcc = s.slewAcc := rfl
@[simp] theorem State.emit_retired (s : State) (o : Out) : (s.emit o).retired = s.retired := rfl
@[simp] theorem State.emit_frames (s : State) (o : Out) : (s.emit o).frames = s.frames := rfl
@[simp] theorem State.emit_quotaUsed (s : State) (o : Out) : (s.emit o).quotaUsed = s.quotaUsed := rfl
@[simp] theorem State.emit_outbox (s : State) (o : Out) : (s.emit o).outbox = s.outbox ++ [o] := rfl

/-! ### State.setMark -/

@[simp] theorem State.setMark_now (s : State) (n : Nat) (v : Bool) : (s.setMark n v).now = s.now := rfl
@[simp] theorem State.setMark_ctx (s : State) (n : Nat) (v : Bool) : (s.setMark n v).ctx = s.ctx := rfl
@[simp] theorem State.setMark_ctxs (s : State) (n : Nat) (v : Bool) : (s.setMark n v).ctxs = s.ctxs := rfl
@[simp] theorem State.setMark_residues (s : State) (n : Nat) (v : Bool) : (s.setMark n v).residues = s.residues := rfl
@[simp] theorem State.setMark_flying (s : State) (n : Nat) (v : Bool) : (s.setMark n v).flying = s.flying := rfl
@[simp] theorem State.setMark_acting (s : State) (n : Nat) (v : Bool) : (s.setMark n v).acting = s.acting := rfl
@[simp] theorem State.setMark_parts (s : State) (n : Nat) (v : Bool) : (s.setMark n v).parts = s.parts := rfl
@[simp] theorem State.setMark_agenda (s : State) (n : Nat) (v : Bool) : (s.setMark n v).agenda = s.agenda := rfl
@[simp] theorem State.setMark_free (s : State) (n : Nat) (v : Bool) : (s.setMark n v).free = s.free := rfl
@[simp] theorem State.setMark_mem (s : State) (n : Nat) (v : Bool) : (s.setMark n v).mem = s.mem := rfl
@[simp] theorem State.setMark_marks (s : State) (n : Nat) (v : Bool) : (s.setMark n v).marks = Sparse.set (fun _ => false) s.marks n v := rfl
@[simp] theorem State.setMark_scopes (s : State) (n : Nat) (v : Bool) : (s.setMark n v).scopes = s.scopes := rfl
@[simp] theorem State.setMark_tlb (s : State) (n : Nat) (v : Bool) : (s.setMark n v).tlb = s.tlb := rfl
@[simp] theorem State.setMark_walks (s : State) (n : Nat) (v : Bool) : (s.setMark n v).walks = s.walks := rfl
@[simp] theorem State.setMark_cores (s : State) (n : Nat) (v : Bool) : (s.setMark n v).cores = s.cores := rfl
@[simp] theorem State.setMark_dies (s : State) (n : Nat) (v : Bool) : (s.setMark n v).dies = s.dies := rfl
@[simp] theorem State.setMark_cancels (s : State) (n : Nat) (v : Bool) : (s.setMark n v).cancels = s.cancels := rfl
@[simp] theorem State.setMark_staged (s : State) (n : Nat) (v : Bool) : (s.setMark n v).staged = s.staged := rfl
@[simp] theorem State.setMark_committed (s : State) (n : Nat) (v : Bool) : (s.setMark n v).committed = s.committed := rfl
@[simp] theorem State.setMark_pcstat (s : State) (n : Nat) (v : Bool) : (s.setMark n v).pcstat = s.pcstat := rfl
@[simp] theorem State.setMark_psyncs (s : State) (n : Nat) (v : Bool) : (s.setMark n v).psyncs = s.psyncs := rfl
@[simp] theorem State.setMark_qlevels (s : State) (n : Nat) (v : Bool) : (s.setMark n v).qlevels = s.qlevels := rfl
@[simp] theorem State.setMark_qcfgs (s : State) (n : Nat) (v : Bool) : (s.setMark n v).qcfgs = s.qcfgs := rfl
@[simp] theorem State.setMark_tasks (s : State) (n : Nat) (v : Bool) : (s.setMark n v).tasks = s.tasks := rfl
@[simp] theorem State.setMark_postSeq (s : State) (n : Nat) (v : Bool) : (s.setMark n v).postSeq = s.postSeq := rfl
@[simp] theorem State.setMark_slices (s : State) (n : Nat) (v : Bool) : (s.setMark n v).slices = s.slices := rfl
@[simp] theorem State.setMark_admAt (s : State) (n : Nat) (v : Bool) : (s.setMark n v).admAt = s.admAt := rfl
@[simp] theorem State.setMark_pmc (s : State) (n : Nat) (v : Bool) : (s.setMark n v).pmc = s.pmc := rfl
@[simp] theorem State.setMark_regions (s : State) (n : Nat) (v : Bool) : (s.setMark n v).regions = s.regions := rfl
@[simp] theorem State.setMark_windows (s : State) (n : Nat) (v : Bool) : (s.setMark n v).windows = s.windows := rfl
@[simp] theorem State.setMark_contribs (s : State) (n : Nat) (v : Bool) : (s.setMark n v).contribs = s.contribs := rfl
@[simp] theorem State.setMark_conns (s : State) (n : Nat) (v : Bool) : (s.setMark n v).conns = s.conns := rfl
@[simp] theorem State.setMark_netHolds (s : State) (n : Nat) (v : Bool) : (s.setMark n v).netHolds = s.netHolds := rfl
@[simp] theorem State.setMark_netSeq (s : State) (n : Nat) (v : Bool) : (s.setMark n v).netSeq = s.netSeq := rfl
@[simp] theorem State.setMark_tssKeys (s : State) (n : Nat) (v : Bool) : (s.setMark n v).tssKeys = s.tssKeys := rfl
@[simp] theorem State.setMark_timePort (s : State) (n : Nat) (v : Bool) : (s.setMark n v).timePort = s.timePort := rfl
@[simp] theorem State.setMark_promoting (s : State) (n : Nat) (v : Bool) : (s.setMark n v).promoting = s.promoting := rfl
@[simp] theorem State.setMark_promoEnd (s : State) (n : Nat) (v : Bool) : (s.setMark n v).promoEnd = s.promoEnd := rfl
@[simp] theorem State.setMark_node (s : State) (n : Nat) (v : Bool) : (s.setMark n v).node = s.node := rfl
@[simp] theorem State.setMark_links (s : State) (n : Nat) (v : Bool) : (s.setMark n v).links = s.links := rfl
@[simp] theorem State.setMark_hqs (s : State) (n : Nat) (v : Bool) : (s.setMark n v).hqs = s.hqs := rfl
@[simp] theorem State.setMark_hostChans (s : State) (n : Nat) (v : Bool) : (s.setMark n v).hostChans = s.hostChans := rfl
@[simp] theorem State.setMark_feats (s : State) (n : Nat) (v : Bool) : (s.setMark n v).feats = s.feats := rfl
@[simp] theorem State.setMark_functions (s : State) (n : Nat) (v : Bool) : (s.setMark n v).functions = s.functions := rfl
@[simp] theorem State.setMark_stores (s : State) (n : Nat) (v : Bool) : (s.setMark n v).stores = s.stores := rfl
@[simp] theorem State.setMark_atRest (s : State) (n : Nat) (v : Bool) : (s.setMark n v).atRest = s.atRest := rfl
@[simp] theorem State.setMark_shapes (s : State) (n : Nat) (v : Bool) : (s.setMark n v).shapes = s.shapes := rfl
@[simp] theorem State.setMark_demoted (s : State) (n : Nat) (v : Bool) : (s.setMark n v).demoted = s.demoted := rfl
@[simp] theorem State.setMark_demCur (s : State) (n : Nat) (v : Bool) : (s.setMark n v).demCur = s.demCur := rfl
@[simp] theorem State.setMark_demAt (s : State) (n : Nat) (v : Bool) : (s.setMark n v).demAt = s.demAt := rfl
@[simp] theorem State.setMark_boot (s : State) (n : Nat) (v : Bool) : (s.setMark n v).boot = s.boot := rfl
@[simp] theorem State.setMark_rstate (s : State) (n : Nat) (v : Bool) : (s.setMark n v).rstate = s.rstate := rfl
@[simp] theorem State.setMark_imgaddr (s : State) (n : Nat) (v : Bool) : (s.setMark n v).imgaddr = s.imgaddr := rfl
@[simp] theorem State.setMark_imglen (s : State) (n : Nat) (v : Bool) : (s.setMark n v).imglen = s.imglen := rfl
@[simp] theorem State.setMark_flash (s : State) (n : Nat) (v : Bool) : (s.setMark n v).flash = s.flash := rfl
@[simp] theorem State.setMark_devRec (s : State) (n : Nat) (v : Bool) : (s.setMark n v).devRec = s.devRec := rfl
@[simp] theorem State.setMark_identity (s : State) (n : Nat) (v : Bool) : (s.setMark n v).identity = s.identity := rfl
@[simp] theorem State.setMark_hostMem (s : State) (n : Nat) (v : Bool) : (s.setMark n v).hostMem = s.hostMem := rfl
@[simp] theorem State.setMark_mlog (s : State) (n : Nat) (v : Bool) : (s.setMark n v).mlog = s.mlog := rfl
@[simp] theorem State.setMark_repair (s : State) (n : Nat) (v : Bool) : (s.setMark n v).repair = s.repair := rfl
@[simp] theorem State.setMark_thermal (s : State) (n : Nat) (v : Bool) : (s.setMark n v).thermal = s.thermal := rfl
@[simp] theorem State.setMark_clusters (s : State) (n : Nat) (v : Bool) : (s.setMark n v).clusters = s.clusters := rfl
@[simp] theorem State.setMark_voff (s : State) (n : Nat) (v : Bool) : (s.setMark n v).voff = s.voff := rfl
@[simp] theorem State.setMark_slew (s : State) (n : Nat) (v : Bool) : (s.setMark n v).slew = s.slew := rfl
@[simp] theorem State.setMark_slewAcc (s : State) (n : Nat) (v : Bool) : (s.setMark n v).slewAcc = s.slewAcc := rfl
@[simp] theorem State.setMark_retired (s : State) (n : Nat) (v : Bool) : (s.setMark n v).retired = s.retired := rfl
@[simp] theorem State.setMark_frames (s : State) (n : Nat) (v : Bool) : (s.setMark n v).frames = s.frames := rfl
@[simp] theorem State.setMark_quotaUsed (s : State) (n : Nat) (v : Bool) : (s.setMark n v).quotaUsed = s.quotaUsed := rfl
@[simp] theorem State.setMark_outbox (s : State) (n : Nat) (v : Bool) : (s.setMark n v).outbox = s.outbox := rfl

/-! ### State.rawWrite -/

@[simp] theorem State.rawWrite_now (s : State) (pa : Nat) (bs : List Byte) : (s.rawWrite pa bs).now = s.now := rfl
@[simp] theorem State.rawWrite_ctx (s : State) (pa : Nat) (bs : List Byte) : (s.rawWrite pa bs).ctx = s.ctx := rfl
@[simp] theorem State.rawWrite_ctxs (s : State) (pa : Nat) (bs : List Byte) : (s.rawWrite pa bs).ctxs = s.ctxs := rfl
@[simp] theorem State.rawWrite_residues (s : State) (pa : Nat) (bs : List Byte) : (s.rawWrite pa bs).residues = s.residues := rfl
@[simp] theorem State.rawWrite_flying (s : State) (pa : Nat) (bs : List Byte) : (s.rawWrite pa bs).flying = s.flying := rfl
@[simp] theorem State.rawWrite_acting (s : State) (pa : Nat) (bs : List Byte) : (s.rawWrite pa bs).acting = s.acting := rfl
@[simp] theorem State.rawWrite_parts (s : State) (pa : Nat) (bs : List Byte) : (s.rawWrite pa bs).parts = s.parts := rfl
@[simp] theorem State.rawWrite_agenda (s : State) (pa : Nat) (bs : List Byte) : (s.rawWrite pa bs).agenda = s.agenda := rfl
@[simp] theorem State.rawWrite_free (s : State) (pa : Nat) (bs : List Byte) : (s.rawWrite pa bs).free = s.free := rfl
@[simp] theorem State.rawWrite_mem (s : State) (pa : Nat) (bs : List Byte) : (s.rawWrite pa bs).mem = Sparse.setList memDefault s.mem pa bs := rfl
@[simp] theorem State.rawWrite_marks (s : State) (pa : Nat) (bs : List Byte) : (s.rawWrite pa bs).marks = s.marks := rfl
@[simp] theorem State.rawWrite_scopes (s : State) (pa : Nat) (bs : List Byte) : (s.rawWrite pa bs).scopes = s.scopes := rfl
@[simp] theorem State.rawWrite_tlb (s : State) (pa : Nat) (bs : List Byte) : (s.rawWrite pa bs).tlb = s.tlb := rfl
@[simp] theorem State.rawWrite_walks (s : State) (pa : Nat) (bs : List Byte) : (s.rawWrite pa bs).walks = s.walks := rfl
@[simp] theorem State.rawWrite_cores (s : State) (pa : Nat) (bs : List Byte) : (s.rawWrite pa bs).cores = s.cores := rfl
@[simp] theorem State.rawWrite_dies (s : State) (pa : Nat) (bs : List Byte) : (s.rawWrite pa bs).dies = s.dies := rfl
@[simp] theorem State.rawWrite_cancels (s : State) (pa : Nat) (bs : List Byte) : (s.rawWrite pa bs).cancels = s.cancels := rfl
@[simp] theorem State.rawWrite_staged (s : State) (pa : Nat) (bs : List Byte) : (s.rawWrite pa bs).staged = s.staged := rfl
@[simp] theorem State.rawWrite_committed (s : State) (pa : Nat) (bs : List Byte) : (s.rawWrite pa bs).committed = s.committed := rfl
@[simp] theorem State.rawWrite_pcstat (s : State) (pa : Nat) (bs : List Byte) : (s.rawWrite pa bs).pcstat = s.pcstat := rfl
@[simp] theorem State.rawWrite_psyncs (s : State) (pa : Nat) (bs : List Byte) : (s.rawWrite pa bs).psyncs = s.psyncs := rfl
@[simp] theorem State.rawWrite_qlevels (s : State) (pa : Nat) (bs : List Byte) : (s.rawWrite pa bs).qlevels = s.qlevels := rfl
@[simp] theorem State.rawWrite_qcfgs (s : State) (pa : Nat) (bs : List Byte) : (s.rawWrite pa bs).qcfgs = s.qcfgs := rfl
@[simp] theorem State.rawWrite_tasks (s : State) (pa : Nat) (bs : List Byte) : (s.rawWrite pa bs).tasks = s.tasks := rfl
@[simp] theorem State.rawWrite_postSeq (s : State) (pa : Nat) (bs : List Byte) : (s.rawWrite pa bs).postSeq = s.postSeq := rfl
@[simp] theorem State.rawWrite_slices (s : State) (pa : Nat) (bs : List Byte) : (s.rawWrite pa bs).slices = s.slices := rfl
@[simp] theorem State.rawWrite_admAt (s : State) (pa : Nat) (bs : List Byte) : (s.rawWrite pa bs).admAt = s.admAt := rfl
@[simp] theorem State.rawWrite_pmc (s : State) (pa : Nat) (bs : List Byte) : (s.rawWrite pa bs).pmc = s.pmc := rfl
@[simp] theorem State.rawWrite_regions (s : State) (pa : Nat) (bs : List Byte) : (s.rawWrite pa bs).regions = s.regions := rfl
@[simp] theorem State.rawWrite_windows (s : State) (pa : Nat) (bs : List Byte) : (s.rawWrite pa bs).windows = s.windows := rfl
@[simp] theorem State.rawWrite_contribs (s : State) (pa : Nat) (bs : List Byte) : (s.rawWrite pa bs).contribs = s.contribs := rfl
@[simp] theorem State.rawWrite_conns (s : State) (pa : Nat) (bs : List Byte) : (s.rawWrite pa bs).conns = s.conns := rfl
@[simp] theorem State.rawWrite_netHolds (s : State) (pa : Nat) (bs : List Byte) : (s.rawWrite pa bs).netHolds = s.netHolds := rfl
@[simp] theorem State.rawWrite_netSeq (s : State) (pa : Nat) (bs : List Byte) : (s.rawWrite pa bs).netSeq = s.netSeq := rfl
@[simp] theorem State.rawWrite_tssKeys (s : State) (pa : Nat) (bs : List Byte) : (s.rawWrite pa bs).tssKeys = s.tssKeys := rfl
@[simp] theorem State.rawWrite_timePort (s : State) (pa : Nat) (bs : List Byte) : (s.rawWrite pa bs).timePort = s.timePort := rfl
@[simp] theorem State.rawWrite_promoting (s : State) (pa : Nat) (bs : List Byte) : (s.rawWrite pa bs).promoting = s.promoting := rfl
@[simp] theorem State.rawWrite_promoEnd (s : State) (pa : Nat) (bs : List Byte) : (s.rawWrite pa bs).promoEnd = s.promoEnd := rfl
@[simp] theorem State.rawWrite_node (s : State) (pa : Nat) (bs : List Byte) : (s.rawWrite pa bs).node = s.node := rfl
@[simp] theorem State.rawWrite_links (s : State) (pa : Nat) (bs : List Byte) : (s.rawWrite pa bs).links = s.links := rfl
@[simp] theorem State.rawWrite_hqs (s : State) (pa : Nat) (bs : List Byte) : (s.rawWrite pa bs).hqs = s.hqs := rfl
@[simp] theorem State.rawWrite_hostChans (s : State) (pa : Nat) (bs : List Byte) : (s.rawWrite pa bs).hostChans = s.hostChans := rfl
@[simp] theorem State.rawWrite_feats (s : State) (pa : Nat) (bs : List Byte) : (s.rawWrite pa bs).feats = s.feats := rfl
@[simp] theorem State.rawWrite_functions (s : State) (pa : Nat) (bs : List Byte) : (s.rawWrite pa bs).functions = s.functions := rfl
@[simp] theorem State.rawWrite_stores (s : State) (pa : Nat) (bs : List Byte) : (s.rawWrite pa bs).stores = s.stores := rfl
@[simp] theorem State.rawWrite_atRest (s : State) (pa : Nat) (bs : List Byte) : (s.rawWrite pa bs).atRest = s.atRest := rfl
@[simp] theorem State.rawWrite_shapes (s : State) (pa : Nat) (bs : List Byte) : (s.rawWrite pa bs).shapes = s.shapes := rfl
@[simp] theorem State.rawWrite_demoted (s : State) (pa : Nat) (bs : List Byte) : (s.rawWrite pa bs).demoted = s.demoted := rfl
@[simp] theorem State.rawWrite_demCur (s : State) (pa : Nat) (bs : List Byte) : (s.rawWrite pa bs).demCur = s.demCur := rfl
@[simp] theorem State.rawWrite_demAt (s : State) (pa : Nat) (bs : List Byte) : (s.rawWrite pa bs).demAt = s.demAt := rfl
@[simp] theorem State.rawWrite_boot (s : State) (pa : Nat) (bs : List Byte) : (s.rawWrite pa bs).boot = s.boot := rfl
@[simp] theorem State.rawWrite_rstate (s : State) (pa : Nat) (bs : List Byte) : (s.rawWrite pa bs).rstate = s.rstate := rfl
@[simp] theorem State.rawWrite_imgaddr (s : State) (pa : Nat) (bs : List Byte) : (s.rawWrite pa bs).imgaddr = s.imgaddr := rfl
@[simp] theorem State.rawWrite_imglen (s : State) (pa : Nat) (bs : List Byte) : (s.rawWrite pa bs).imglen = s.imglen := rfl
@[simp] theorem State.rawWrite_flash (s : State) (pa : Nat) (bs : List Byte) : (s.rawWrite pa bs).flash = s.flash := rfl
@[simp] theorem State.rawWrite_devRec (s : State) (pa : Nat) (bs : List Byte) : (s.rawWrite pa bs).devRec = s.devRec := rfl
@[simp] theorem State.rawWrite_identity (s : State) (pa : Nat) (bs : List Byte) : (s.rawWrite pa bs).identity = s.identity := rfl
@[simp] theorem State.rawWrite_hostMem (s : State) (pa : Nat) (bs : List Byte) : (s.rawWrite pa bs).hostMem = s.hostMem := rfl
@[simp] theorem State.rawWrite_mlog (s : State) (pa : Nat) (bs : List Byte) : (s.rawWrite pa bs).mlog = s.mlog := rfl
@[simp] theorem State.rawWrite_repair (s : State) (pa : Nat) (bs : List Byte) : (s.rawWrite pa bs).repair = s.repair := rfl
@[simp] theorem State.rawWrite_thermal (s : State) (pa : Nat) (bs : List Byte) : (s.rawWrite pa bs).thermal = s.thermal := rfl
@[simp] theorem State.rawWrite_clusters (s : State) (pa : Nat) (bs : List Byte) : (s.rawWrite pa bs).clusters = s.clusters := rfl
@[simp] theorem State.rawWrite_voff (s : State) (pa : Nat) (bs : List Byte) : (s.rawWrite pa bs).voff = s.voff := rfl
@[simp] theorem State.rawWrite_slew (s : State) (pa : Nat) (bs : List Byte) : (s.rawWrite pa bs).slew = s.slew := rfl
@[simp] theorem State.rawWrite_slewAcc (s : State) (pa : Nat) (bs : List Byte) : (s.rawWrite pa bs).slewAcc = s.slewAcc := rfl
@[simp] theorem State.rawWrite_retired (s : State) (pa : Nat) (bs : List Byte) : (s.rawWrite pa bs).retired = s.retired := rfl
@[simp] theorem State.rawWrite_frames (s : State) (pa : Nat) (bs : List Byte) : (s.rawWrite pa bs).frames = s.frames := rfl
@[simp] theorem State.rawWrite_quotaUsed (s : State) (pa : Nat) (bs : List Byte) : (s.rawWrite pa bs).quotaUsed = s.quotaUsed := rfl
@[simp] theorem State.rawWrite_outbox (s : State) (pa : Nat) (bs : List Byte) : (s.rawWrite pa bs).outbox = s.outbox := rfl

end Sys2Proof.Machine
end

