-- ==== Sys2Proof/Laws/Ctx.lean ====
section
/-! SUPPORT. What a write of the running bank and of a scalar register leaves of a context; reads after
writes. -/

namespace Sys2Proof.Machine

@[simp] theorem Ctx.setBank_id (c : Ctx) (b : RegBank) : (c.setBank b).id = c.id := by
  unfold Ctx.setBank; split <;> (try split) <;> rfl
@[simp] theorem Ctx.setBank_place (c : Ctx) (b : RegBank) : (c.setBank b).place = c.place := by
  unfold Ctx.setBank; split <;> (try split) <;> rfl
@[simp] theorem Ctx.setBank_pc (c : Ctx) (b : RegBank) : (c.setBank b).pc = c.pc := by
  unfold Ctx.setBank; split <;> (try split) <;> rfl
@[simp] theorem Ctx.setBank_tiles (c : Ctx) (b : RegBank) : (c.setBank b).tiles = c.tiles := by
  unfold Ctx.setBank; split <;> (try split) <;> rfl
@[simp] theorem Ctx.setBank_acc (c : Ctx) (b : RegBank) : (c.setBank b).acc = c.acc := by
  unfold Ctx.setBank; split <;> (try split) <;> rfl
@[simp] theorem Ctx.setBank_active (c : Ctx) (b : RegBank) : (c.setBank b).active = c.active := by
  unfold Ctx.setBank; split <;> (try split) <;> rfl
@[simp] theorem Ctx.setBank_shadow (c : Ctx) (b : RegBank) : (c.setBank b).shadow = c.shadow := by
  unfold Ctx.setBank; split <;> (try split) <;> rfl
@[simp] theorem Ctx.setBank_mask (c : Ctx) (b : RegBank) : (c.setBank b).mask = c.mask := by
  unfold Ctx.setBank; split <;> (try split) <;> rfl
@[simp] theorem Ctx.setBank_feed (c : Ctx) (b : RegBank) : (c.setBank b).feed = c.feed := by
  unfold Ctx.setBank; split <;> (try split) <;> rfl
@[simp] theorem Ctx.setBank_foff (c : Ctx) (b : RegBank) : (c.setBank b).foff = c.foff := by
  unfold Ctx.setBank; split <;> (try split) <;> rfl
@[simp] theorem Ctx.setBank_prog (c : Ctx) (b : RegBank) : (c.setBank b).prog = c.prog := by
  unfold Ctx.setBank; split <;> (try split) <;> rfl
@[simp] theorem Ctx.setBank_latches (c : Ctx) (b : RegBank) : (c.setBank b).latches = c.latches := by
  unfold Ctx.setBank; split <;> (try split) <;> rfl
@[simp] theorem Ctx.setBank_pad (c : Ctx) (b : RegBank) : (c.setBank b).pad = c.pad := by
  unfold Ctx.setBank; split <;> (try split) <;> rfl
@[simp] theorem Ctx.setBank_gpois (c : Ctx) (b : RegBank) : (c.setBank b).gpois = c.gpois := by
  unfold Ctx.setBank; split <;> (try split) <;> rfl
@[simp] theorem Ctx.setBank_glive (c : Ctx) (b : RegBank) : (c.setBank b).glive = c.glive := by
  unfold Ctx.setBank; split <;> (try split) <;> rfl
@[simp] theorem Ctx.setBank_banks (c : Ctx) (b : RegBank) : (c.setBank b).banks = c.banks := by
  unfold Ctx.setBank; split <;> (try split) <;> rfl
@[simp] theorem Ctx.setBank_spbanks (c : Ctx) (b : RegBank) : (c.setBank b).spbanks = c.spbanks := by
  unfold Ctx.setBank; split <;> (try split) <;> rfl
@[simp] theorem Ctx.setBank_l1size (c : Ctx) (b : RegBank) : (c.setBank b).l1size = c.l1size := by
  unfold Ctx.setBank; split <;> (try split) <;> rfl
@[simp] theorem Ctx.setBank_l1 (c : Ctx) (b : RegBank) : (c.setBank b).l1 = c.l1 := by
  unfold Ctx.setBank; split <;> (try split) <;> rfl
@[simp] theorem Ctx.setBank_gutters (c : Ctx) (b : RegBank) : (c.setBank b).gutters = c.gutters := by
  unfold Ctx.setBank; split <;> (try split) <;> rfl
@[simp] theorem Ctx.setBank_lbufs (c : Ctx) (b : RegBank) : (c.setBank b).lbufs = c.lbufs := by
  unfold Ctx.setBank; split <;> (try split) <;> rfl
@[simp] theorem Ctx.setBank_bindings (c : Ctx) (b : RegBank) : (c.setBank b).bindings = c.bindings := by
  unfold Ctx.setBank; split <;> (try split) <;> rfl
@[simp] theorem Ctx.setBank_qbinds (c : Ctx) (b : RegBank) : (c.setBank b).qbinds = c.qbinds := by
  unfold Ctx.setBank; split <;> (try split) <;> rfl
@[simp] theorem Ctx.setBank_qterm (c : Ctx) (b : RegBank) : (c.setBank b).qterm = c.qterm := by
  unfold Ctx.setBank; split <;> (try split) <;> rfl
@[simp] theorem Ctx.setBank_qlast (c : Ctx) (b : RegBank) : (c.setBank b).qlast = c.qlast := by
  unfold Ctx.setBank; split <;> (try split) <;> rfl
@[simp] theorem Ctx.setBank_cpfail (c : Ctx) (b : RegBank) : (c.setBank b).cpfail = c.cpfail := by
  unfold Ctx.setBank; split <;> (try split) <;> rfl
@[simp] theorem Ctx.setBank_vwlim (c : Ctx) (b : RegBank) : (c.setBank b).vwlim = c.vwlim := by
  unfold Ctx.setBank; split <;> (try split) <;> rfl
@[simp] theorem Ctx.setBank_pbud (c : Ctx) (b : RegBank) : (c.setBank b).pbud = c.pbud := by
  unfold Ctx.setBank; split <;> (try split) <;> rfl
@[simp] theorem Ctx.setBank_spmsel (c : Ctx) (b : RegBank) : (c.setBank b).spmsel = c.spmsel := by
  unfold Ctx.setBank; split <;> (try split) <;> rfl
@[simp] theorem Ctx.setBank_rslots (c : Ctx) (b : RegBank) : (c.setBank b).rslots = c.rslots := by
  unfold Ctx.setBank; split <;> (try split) <;> rfl
@[simp] theorem Ctx.setBank_builds (c : Ctx) (b : RegBank) : (c.setBank b).builds = c.builds := by
  unfold Ctx.setBank; split <;> (try split) <;> rfl
@[simp] theorem Ctx.setBank_chans (c : Ctx) (b : RegBank) : (c.setBank b).chans = c.chans := by
  unfold Ctx.setBank; split <;> (try split) <;> rfl
@[simp] theorem Ctx.setBank_sends (c : Ctx) (b : RegBank) : (c.setBank b).sends = c.sends := by
  unfold Ctx.setBank; split <;> (try split) <;> rfl
@[simp] theorem Ctx.setBank_prefetches (c : Ctx) (b : RegBank) : (c.setBank b).prefetches = c.prefetches := by
  unfold Ctx.setBank; split <;> (try split) <;> rfl
@[simp] theorem Ctx.setBank_tvec (c : Ctx) (b : RegBank) : (c.setBank b).tvec = c.tvec := by
  unfold Ctx.setBank; split <;> (try split) <;> rfl
@[simp] theorem Ctx.setBank_tepc (c : Ctx) (b : RegBank) : (c.setBank b).tepc = c.tepc := by
  unfold Ctx.setBank; split <;> (try split) <;> rfl
@[simp] theorem Ctx.setBank_tcause (c : Ctx) (b : RegBank) : (c.setBank b).tcause = c.tcause := by
  unfold Ctx.setBank; split <;> (try split) <;> rfl
@[simp] theorem Ctx.setBank_tval (c : Ctx) (b : RegBank) : (c.setBank b).tval = c.tval := by
  unfold Ctx.setBank; split <;> (try split) <;> rfl
@[simp] theorem Ctx.setBank_tscr (c : Ctx) (b : RegBank) : (c.setBank b).tscr = c.tscr := by
  unfold Ctx.setBank; split <;> (try split) <;> rfl
@[simp] theorem Ctx.setBank_tbudget (c : Ctx) (b : RegBank) : (c.setBank b).tbudget = c.tbudget := by
  unfold Ctx.setBank; split <;> (try split) <;> rfl
@[simp] theorem Ctx.setBank_svec (c : Ctx) (b : RegBank) : (c.setBank b).svec = c.svec := by
  unfold Ctx.setBank; split <;> (try split) <;> rfl
@[simp] theorem Ctx.setBank_sepc (c : Ctx) (b : RegBank) : (c.setBank b).sepc = c.sepc := by
  unfold Ctx.setBank; split <;> (try split) <;> rfl
@[simp] theorem Ctx.setBank_scause (c : Ctx) (b : RegBank) : (c.setBank b).scause = c.scause := by
  unfold Ctx.setBank; split <;> (try split) <;> rfl
@[simp] theorem Ctx.setBank_sval (c : Ctx) (b : RegBank) : (c.setBank b).sval = c.sval := by
  unfold Ctx.setBank; split <;> (try split) <;> rfl
@[simp] theorem Ctx.setBank_sscr (c : Ctx) (b : RegBank) : (c.setBank b).sscr = c.sscr := by
  unfold Ctx.setBank; split <;> (try split) <;> rfl
@[simp] theorem Ctx.setBank_thnd (c : Ctx) (b : RegBank) : (c.setBank b).thnd = c.thnd := by
  unfold Ctx.setBank; split <;> (try split) <;> rfl
@[simp] theorem Ctx.setBank_shnd (c : Ctx) (b : RegBank) : (c.setBank b).shnd = c.shnd := by
  unfold Ctx.setBank; split <;> (try split) <;> rfl
@[simp] theorem Ctx.setBank_level (c : Ctx) (b : RegBank) : (c.setBank b).level = c.level := by
  unfold Ctx.setBank; split <;> (try split) <;> rfl
@[simp] theorem Ctx.setBank_vdn (c : Ctx) (b : RegBank) : (c.setBank b).vdn = c.vdn := by
  unfold Ctx.setBank; split <;> (try split) <;> rfl
@[simp] theorem Ctx.setBank_part (c : Ctx) (b : RegBank) : (c.setBank b).part = c.part := by
  unfold Ctx.setBank; split <;> (try split) <;> rfl
@[simp] theorem Ctx.setBank_queue (c : Ctx) (b : RegBank) : (c.setBank b).queue = c.queue := by
  unfold Ctx.setBank; split <;> (try split) <;> rfl
@[simp] theorem Ctx.setBank_disp (c : Ctx) (b : RegBank) : (c.setBank b).disp = c.disp := by
  unfold Ctx.setBank; split <;> (try split) <;> rfl
@[simp] theorem Ctx.setBank_lcore (c : Ctx) (b : RegBank) : (c.setBank b).lcore = c.lcore := by
  unfold Ctx.setBank; split <;> (try split) <;> rfl
@[simp] theorem Ctx.setBank_kept (c : Ctx) (b : RegBank) : (c.setBank b).kept = c.kept := by
  unfold Ctx.setBank; split <;> (try split) <;> rfl
@[simp] theorem Ctx.setBank_crewIx (c : Ctx) (b : RegBank) : (c.setBank b).crewIx = c.crewIx := by
  unfold Ctx.setBank; split <;> (try split) <;> rfl
@[simp] theorem Ctx.setBank_crewSz (c : Ctx) (b : RegBank) : (c.setBank b).crewSz = c.crewSz := by
  unfold Ctx.setBank; split <;> (try split) <;> rfl
@[simp] theorem Ctx.setBank_trec (c : Ctx) (b : RegBank) : (c.setBank b).trec = c.trec := by
  unfold Ctx.setBank; split <;> (try split) <;> rfl
@[simp] theorem Ctx.setBank_fullt (c : Ctx) (b : RegBank) : (c.setBank b).fullt = c.fullt := by
  unfold Ctx.setBank; split <;> (try split) <;> rfl
@[simp] theorem Ctx.setBank_regabs (c : Ctx) (b : RegBank) : (c.setBank b).regabs = c.regabs := by
  unfold Ctx.setBank; split <;> (try split) <;> rfl
@[simp] theorem Ctx.setBank_held (c : Ctx) (b : RegBank) : (c.setBank b).held = c.held := by
  unfold Ctx.setBank; split <;> (try split) <;> rfl
@[simp] theorem Ctx.setBank_saveReq (c : Ctx) (b : RegBank) : (c.setBank b).saveReq = c.saveReq := by
  unfold Ctx.setBank; split <;> (try split) <;> rfl
@[simp] theorem Ctx.setBank_sliceOld (c : Ctx) (b : RegBank) : (c.setBank b).sliceOld = c.sliceOld := by
  unfold Ctx.setBank; split <;> (try split) <;> rfl
@[simp] theorem Ctx.setBank_risen (c : Ctx) (b : RegBank) : (c.setBank b).risen = c.risen := by
  unfold Ctx.setBank; split <;> (try split) <;> rfl
@[simp] theorem Ctx.setBank_forced (c : Ctx) (b : RegBank) : (c.setBank b).forced = c.forced := by
  unfold Ctx.setBank; split <;> (try split) <;> rfl
@[simp] theorem Ctx.setBank_sliced (c : Ctx) (b : RegBank) : (c.setBank b).sliced = c.sliced := by
  unfold Ctx.setBank; split <;> (try split) <;> rfl
@[simp] theorem Ctx.setBank_vcyc (c : Ctx) (b : RegBank) : (c.setBank b).vcyc = c.vcyc := by
  unfold Ctx.setBank; split <;> (try split) <;> rfl
@[simp] theorem Ctx.setBank_posted (c : Ctx) (b : RegBank) : (c.setBank b).posted = c.posted := by
  unfold Ctx.setBank; split <;> (try split) <;> rfl
@[simp] theorem Ctx.setBank_progT (c : Ctx) (b : RegBank) : (c.setBank b).progT = c.progT := by
  unfold Ctx.setBank; split <;> (try split) <;> rfl
@[simp] theorem Ctx.setBank_progX (c : Ctx) (b : RegBank) : (c.setBank b).progX = c.progX := by
  unfold Ctx.setBank; split <;> (try split) <;> rfl
@[simp] theorem Ctx.setBank_task (c : Ctx) (b : RegBank) : (c.setBank b).task = c.task := by
  unfold Ctx.setBank; split <;> (try split) <;> rfl
@[simp] theorem Ctx.setBank_halted (c : Ctx) (b : RegBank) : (c.setBank b).halted = c.halted := by
  unfold Ctx.setBank; split <;> (try split) <;> rfl
@[simp] theorem Ctx.setBank_savet (c : Ctx) (b : RegBank) : (c.setBank b).savet = c.savet := by
  unfold Ctx.setBank; split <;> (try split) <;> rfl
@[simp] theorem Ctx.writeS_id (c : Ctx) (r : Reg) (v : SReg) : (c.writeS r v).id = c.id := by
  unfold Ctx.writeS; split <;> simp
@[simp] theorem Ctx.writeS_place (c : Ctx) (r : Reg) (v : SReg) : (c.writeS r v).place = c.place := by
  unfold Ctx.writeS; split <;> simp
@[simp] theorem Ctx.writeS_pc (c : Ctx) (r : Reg) (v : SReg) : (c.writeS r v).pc = c.pc := by
  unfold Ctx.writeS; split <;> simp
@[simp] theorem Ctx.writeS_tiles (c : Ctx) (r : Reg) (v : SReg) : (c.writeS r v).tiles = c.tiles := by
  unfold Ctx.writeS; split <;> simp
@[simp] theorem Ctx.writeS_acc (c : Ctx) (r : Reg) (v : SReg) : (c.writeS r v).acc = c.acc := by
  unfold Ctx.writeS; split <;> simp
@[simp] theorem Ctx.writeS_active (c : Ctx) (r : Reg) (v : SReg) : (c.writeS r v).active = c.active := by
  unfold Ctx.writeS; split <;> simp
@[simp] theorem Ctx.writeS_shadow (c : Ctx) (r : Reg) (v : SReg) : (c.writeS r v).shadow = c.shadow := by
  unfold Ctx.writeS; split <;> simp
@[simp] theorem Ctx.writeS_mask (c : Ctx) (r : Reg) (v : SReg) : (c.writeS r v).mask = c.mask := by
  unfold Ctx.writeS; split <;> simp
@[simp] theorem Ctx.writeS_feed (c : Ctx) (r : Reg) (v : SReg) : (c.writeS r v).feed = c.feed := by
  unfold Ctx.writeS; split <;> simp
@[simp] theorem Ctx.writeS_foff (c : Ctx) (r : Reg) (v : SReg) : (c.writeS r v).foff = c.foff := by
  unfold Ctx.writeS; split <;> simp
@[simp] theorem Ctx.writeS_prog (c : Ctx) (r : Reg) (v : SReg) : (c.writeS r v).prog = c.prog := by
  unfold Ctx.writeS; split <;> simp
@[simp] theorem Ctx.writeS_latches (c : Ctx) (r : Reg) (v : SReg) : (c.writeS r v).latches = c.latches := by
  unfold Ctx.writeS; split <;> simp
@[simp] theorem Ctx.writeS_pad (c : Ctx) (r : Reg) (v : SReg) : (c.writeS r v).pad = c.pad := by
  unfold Ctx.writeS; split <;> simp
@[simp] theorem Ctx.writeS_gpois (c : Ctx) (r : Reg) (v : SReg) : (c.writeS r v).gpois = c.gpois := by
  unfold Ctx.writeS; split <;> simp
@[simp] theorem Ctx.writeS_glive (c : Ctx) (r : Reg) (v : SReg) : (c.writeS r v).glive = c.glive := by
  unfold Ctx.writeS; split <;> simp
@[simp] theorem Ctx.writeS_banks (c : Ctx) (r : Reg) (v : SReg) : (c.writeS r v).banks = c.banks := by
  unfold Ctx.writeS; split <;> simp
@[simp] theorem Ctx.writeS_spbanks (c : Ctx) (r : Reg) (v : SReg) : (c.writeS r v).spbanks = c.spbanks := by
  unfold Ctx.writeS; split <;> simp
@[simp] theorem Ctx.writeS_l1size (c : Ctx) (r : Reg) (v : SReg) : (c.writeS r v).l1size = c.l1size := by
  unfold Ctx.writeS; split <;> simp
@[simp] theorem Ctx.writeS_l1 (c : Ctx) (r : Reg) (v : SReg) : (c.writeS r v).l1 = c.l1 := by
  unfold Ctx.writeS; split <;> simp
@[simp] theorem Ctx.writeS_gutters (c : Ctx) (r : Reg) (v : SReg) : (c.writeS r v).gutters = c.gutters := by
  unfold Ctx.writeS; split <;> simp
@[simp] theorem Ctx.writeS_lbufs (c : Ctx) (r : Reg) (v : SReg) : (c.writeS r v).lbufs = c.lbufs := by
  unfold Ctx.writeS; split <;> simp
@[simp] theorem Ctx.writeS_bindings (c : Ctx) (r : Reg) (v : SReg) : (c.writeS r v).bindings = c.bindings := by
  unfold Ctx.writeS; split <;> simp
@[simp] theorem Ctx.writeS_qbinds (c : Ctx) (r : Reg) (v : SReg) : (c.writeS r v).qbinds = c.qbinds := by
  unfold Ctx.writeS; split <;> simp
@[simp] theorem Ctx.writeS_qterm (c : Ctx) (r : Reg) (v : SReg) : (c.writeS r v).qterm = c.qterm := by
  unfold Ctx.writeS; split <;> simp
@[simp] theorem Ctx.writeS_qlast (c : Ctx) (r : Reg) (v : SReg) : (c.writeS r v).qlast = c.qlast := by
  unfold Ctx.writeS; split <;> simp
@[simp] theorem Ctx.writeS_cpfail (c : Ctx) (r : Reg) (v : SReg) : (c.writeS r v).cpfail = c.cpfail := by
  unfold Ctx.writeS; split <;> simp
@[simp] theorem Ctx.writeS_vwlim (c : Ctx) (r : Reg) (v : SReg) : (c.writeS r v).vwlim = c.vwlim := by
  unfold Ctx.writeS; split <;> simp
@[simp] theorem Ctx.writeS_pbud (c : Ctx) (r : Reg) (v : SReg) : (c.writeS r v).pbud = c.pbud := by
  unfold Ctx.writeS; split <;> simp
@[simp] theorem Ctx.writeS_spmsel (c : Ctx) (r : Reg) (v : SReg) : (c.writeS r v).spmsel = c.spmsel := by
  unfold Ctx.writeS; split <;> simp
@[simp] theorem Ctx.writeS_rslots (c : Ctx) (r : Reg) (v : SReg) : (c.writeS r v).rslots = c.rslots := by
  unfold Ctx.writeS; split <;> simp
@[simp] theorem Ctx.writeS_builds (c : Ctx) (r : Reg) (v : SReg) : (c.writeS r v).builds = c.builds := by
  unfold Ctx.writeS; split <;> simp
@[simp] theorem Ctx.writeS_chans (c : Ctx) (r : Reg) (v : SReg) : (c.writeS r v).chans = c.chans := by
  unfold Ctx.writeS; split <;> simp
@[simp] theorem Ctx.writeS_sends (c : Ctx) (r : Reg) (v : SReg) : (c.writeS r v).sends = c.sends := by
  unfold Ctx.writeS; split <;> simp
@[simp] theorem Ctx.writeS_prefetches (c : Ctx) (r : Reg) (v : SReg) : (c.writeS r v).prefetches = c.prefetches := by
  unfold Ctx.writeS; split <;> simp
@[simp] theorem Ctx.writeS_tvec (c : Ctx) (r : Reg) (v : SReg) : (c.writeS r v).tvec = c.tvec := by
  unfold Ctx.writeS; split <;> simp
@[simp] theorem Ctx.writeS_tepc (c : Ctx) (r : Reg) (v : SReg) : (c.writeS r v).tepc = c.tepc := by
  unfold Ctx.writeS; split <;> simp
@[simp] theorem Ctx.writeS_tcause (c : Ctx) (r : Reg) (v : SReg) : (c.writeS r v).tcause = c.tcause := by
  unfold Ctx.writeS; split <;> simp
@[simp] theorem Ctx.writeS_tval (c : Ctx) (r : Reg) (v : SReg) : (c.writeS r v).tval = c.tval := by
  unfold Ctx.writeS; split <;> simp
@[simp] theorem Ctx.writeS_tscr (c : Ctx) (r : Reg) (v : SReg) : (c.writeS r v).tscr = c.tscr := by
  unfold Ctx.writeS; split <;> simp
@[simp] theorem Ctx.writeS_tbudget (c : Ctx) (r : Reg) (v : SReg) : (c.writeS r v).tbudget = c.tbudget := by
  unfold Ctx.writeS; split <;> simp
@[simp] theorem Ctx.writeS_svec (c : Ctx) (r : Reg) (v : SReg) : (c.writeS r v).svec = c.svec := by
  unfold Ctx.writeS; split <;> simp
@[simp] theorem Ctx.writeS_sepc (c : Ctx) (r : Reg) (v : SReg) : (c.writeS r v).sepc = c.sepc := by
  unfold Ctx.writeS; split <;> simp
@[simp] theorem Ctx.writeS_scause (c : Ctx) (r : Reg) (v : SReg) : (c.writeS r v).scause = c.scause := by
  unfold Ctx.writeS; split <;> simp
@[simp] theorem Ctx.writeS_sval (c : Ctx) (r : Reg) (v : SReg) : (c.writeS r v).sval = c.sval := by
  unfold Ctx.writeS; split <;> simp
@[simp] theorem Ctx.writeS_sscr (c : Ctx) (r : Reg) (v : SReg) : (c.writeS r v).sscr = c.sscr := by
  unfold Ctx.writeS; split <;> simp
@[simp] theorem Ctx.writeS_thnd (c : Ctx) (r : Reg) (v : SReg) : (c.writeS r v).thnd = c.thnd := by
  unfold Ctx.writeS; split <;> simp
@[simp] theorem Ctx.writeS_shnd (c : Ctx) (r : Reg) (v : SReg) : (c.writeS r v).shnd = c.shnd := by
  unfold Ctx.writeS; split <;> simp
@[simp] theorem Ctx.writeS_level (c : Ctx) (r : Reg) (v : SReg) : (c.writeS r v).level = c.level := by
  unfold Ctx.writeS; split <;> simp
@[simp] theorem Ctx.writeS_vdn (c : Ctx) (r : Reg) (v : SReg) : (c.writeS r v).vdn = c.vdn := by
  unfold Ctx.writeS; split <;> simp
@[simp] theorem Ctx.writeS_part (c : Ctx) (r : Reg) (v : SReg) : (c.writeS r v).part = c.part := by
  unfold Ctx.writeS; split <;> simp
@[simp] theorem Ctx.writeS_queue (c : Ctx) (r : Reg) (v : SReg) : (c.writeS r v).queue = c.queue := by
  unfold Ctx.writeS; split <;> simp
@[simp] theorem Ctx.writeS_disp (c : Ctx) (r : Reg) (v : SReg) : (c.writeS r v).disp = c.disp := by
  unfold Ctx.writeS; split <;> simp
@[simp] theorem Ctx.writeS_lcore (c : Ctx) (r : Reg) (v : SReg) : (c.writeS r v).lcore = c.lcore := by
  unfold Ctx.writeS; split <;> simp
@[simp] theorem Ctx.writeS_kept (c : Ctx) (r : Reg) (v : SReg) : (c.writeS r v).kept = c.kept := by
  unfold Ctx.writeS; split <;> simp
@[simp] theorem Ctx.writeS_crewIx (c : Ctx) (r : Reg) (v : SReg) : (c.writeS r v).crewIx = c.crewIx := by
  unfold Ctx.writeS; split <;> simp
@[simp] theorem Ctx.writeS_crewSz (c : Ctx) (r : Reg) (v : SReg) : (c.writeS r v).crewSz = c.crewSz := by
  unfold Ctx.writeS; split <;> simp
@[simp] theorem Ctx.writeS_trec (c : Ctx) (r : Reg) (v : SReg) : (c.writeS r v).trec = c.trec := by
  unfold Ctx.writeS; split <;> simp
@[simp] theorem Ctx.writeS_fullt (c : Ctx) (r : Reg) (v : SReg) : (c.writeS r v).fullt = c.fullt := by
  unfold Ctx.writeS; split <;> simp
@[simp] theorem Ctx.writeS_regabs (c : Ctx) (r : Reg) (v : SReg) : (c.writeS r v).regabs = c.regabs := by
  unfold Ctx.writeS; split <;> simp
@[simp] theorem Ctx.writeS_held (c : Ctx) (r : Reg) (v : SReg) : (c.writeS r v).held = c.held := by
  unfold Ctx.writeS; split <;> simp
@[simp] theorem Ctx.writeS_saveReq (c : Ctx) (r : Reg) (v : SReg) : (c.writeS r v).saveReq = c.saveReq := by
  unfold Ctx.writeS; split <;> simp
@[simp] theorem Ctx.writeS_sliceOld (c : Ctx) (r : Reg) (v : SReg) : (c.writeS r v).sliceOld = c.sliceOld := by
  unfold Ctx.writeS; split <;> simp
@[simp] theorem Ctx.writeS_risen (c : Ctx) (r : Reg) (v : SReg) : (c.writeS r v).risen = c.risen := by
  unfold Ctx.writeS; split <;> simp
@[simp] theorem Ctx.writeS_forced (c : Ctx) (r : Reg) (v : SReg) : (c.writeS r v).forced = c.forced := by
  unfold Ctx.writeS; split <;> simp
@[simp] theorem Ctx.writeS_sliced (c : Ctx) (r : Reg) (v : SReg) : (c.writeS r v).sliced = c.sliced := by
  unfold Ctx.writeS; split <;> simp
@[simp] theorem Ctx.writeS_vcyc (c : Ctx) (r : Reg) (v : SReg) : (c.writeS r v).vcyc = c.vcyc := by
  unfold Ctx.writeS; split <;> simp
@[simp] theorem Ctx.writeS_posted (c : Ctx) (r : Reg) (v : SReg) : (c.writeS r v).posted = c.posted := by
  unfold Ctx.writeS; split <;> simp
@[simp] theorem Ctx.writeS_progT (c : Ctx) (r : Reg) (v : SReg) : (c.writeS r v).progT = c.progT := by
  unfold Ctx.writeS; split <;> simp
@[simp] theorem Ctx.writeS_progX (c : Ctx) (r : Reg) (v : SReg) : (c.writeS r v).progX = c.progX := by
  unfold Ctx.writeS; split <;> simp
@[simp] theorem Ctx.writeS_task (c : Ctx) (r : Reg) (v : SReg) : (c.writeS r v).task = c.task := by
  unfold Ctx.writeS; split <;> simp
@[simp] theorem Ctx.writeS_halted (c : Ctx) (r : Reg) (v : SReg) : (c.writeS r v).halted = c.halted := by
  unfold Ctx.writeS; split <;> simp
@[simp] theorem Ctx.writeS_savet (c : Ctx) (r : Reg) (v : SReg) : (c.writeS r v).savet = c.savet := by
  unfold Ctx.writeS; split <;> simp

/-- The bank of the running code is the one written. -/
@[simp] theorem Ctx.bank_setBank (c : Ctx) (b : RegBank) : (c.setBank b).bank = b := by
  cases hs : c.shnd <;> cases ht : c.thnd <;> simp [Ctx.setBank, Ctx.bank, hs, ht]

/-- The second of two writes of the running bank stays. -/
@[simp] theorem Ctx.setBank_setBank (c : Ctx) (b b' : RegBank) : (c.setBank b).setBank b' = c.setBank b' := by
  cases hs : c.shnd <;> cases ht : c.thnd <;> simp [Ctx.setBank, hs, ht]

/-- Writing the running bank as it is changes nothing. -/
@[simp] theorem Ctx.setBank_bank (c : Ctx) : c.setBank c.bank = c := by
  obtain ⟨⟩ := c
  unfold Ctx.setBank Ctx.bank
  dsimp only
  split <;> (try split) <;> rfl

/-- A new program counter and a new bank, in either order. -/
theorem Ctx.setBank_withPc (c : Ctx) (pc : Word) (b : RegBank) :
    ({ c with pc := pc } : Ctx).setBank b = { c.setBank b with pc := pc } := by
  unfold Ctx.setBank; split <;> (try split) <;> rfl

/-- A bank written after a scalar register replaces it. -/
@[simp] theorem Ctx.setBank_writeS (c : Ctx) (r : Reg) (v : SReg) (b : RegBank) :
    (c.writeS r v).setBank b = c.setBank b := by
  unfold Ctx.writeS; split
  · rfl
  · exact Ctx.setBank_setBank _ _ _

/-- The running bank after a scalar write. -/
theorem Ctx.bank_writeS (c : Ctx) (d : Reg) (v : SReg) :
    (c.writeS d v).bank = if d = 0#6 then c.bank else c.bank.setS d.toNat v := by
  unfold Ctx.writeS; split
  · rfl
  · exact Ctx.bank_setBank _ _

@[simp] theorem State.bank_setBank (s : State) (b : RegBank) : (s.setBank b).bank = b := by
  simp [State.bank]

@[simp] theorem State.setBank_setBank (s : State) (b b' : RegBank) : (s.setBank b).setBank b' = s.setBank b' := by
  simp [State.setBank]

@[simp] theorem State.bank_setPc (s : State) (p : Word) : (s.setPc p).bank = s.bank := rfl

@[simp] theorem State.bank_pmcAdd (s : State) (v i n : Nat) : (s.pmcAdd v i n).bank = s.bank := rfl

/-- The running bank after the wait of its code ends. -/
@[simp] theorem State.bank_endWait (s : State) : s.endWait.bank = { s.bank with wait := none } := by
  simp [State.endWait]

/-- Bindings stand outside the banks. -/
@[simp] theorem Ctx.qbind_setBank (c : Ctx) (b : RegBank) (n : Nat) : (c.setBank b).qbind n = c.qbind n := by
  simp [Ctx.qbind]

@[simp] theorem Ctx.boundSlot_setBank (c : Ctx) (b : RegBank) (r : Reg) :
    (c.setBank b).boundSlot r = c.boundSlot r := by
  simp [Ctx.boundSlot]

@[simp] theorem Ctx.boundSlot_writeS (c : Ctx) (q : Reg) (v : SReg) (r : Reg) :
    (c.writeS q v).boundSlot r = c.boundSlot r := by
  unfold Ctx.writeS; split <;> simp

/-- s0 reads as clean zero (R38). -/
@[simp] theorem Ctx.readS_zero (c : Ctx) : c.readS 0#6 = SReg.zero := rfl

/-- A slot reads as written. -/
@[simp] theorem RegBank.getS_setS_self (b : RegBank) (r : Nat) (v : SReg) : (b.setS r v).getS r = v := by
  simp [RegBank.getS, RegBank.setS]

/-- Writing one slot leaves the others. -/
theorem RegBank.getS_setS_ne (b : RegBank) {r q : Nat} (v : SReg) (h : q ≠ r) : (b.setS r v).getS q = b.getS q := by
  simp [RegBank.getS, RegBank.setS, Sparse.get_set_ne _ _ _ h]

/-- What a scalar register reads after a scalar write: the value, where it is the register written and
neither s0 nor bound (R38). -/
theorem Ctx.readS_writeS (c : Ctx) (d r : Reg) (v : SReg) (hd : c.boundSlot d = none) :
    (c.writeS d v).readS r = if r = d ∧ d ≠ 0#6 then v else c.readS r := by
  by_cases h0 : r = 0#6
  · subst h0
    by_cases hd0 : d = 0#6
    · simp [hd0]
    · have hn : ¬ (0#6 = d) := fun e => hd0 e.symm
      simp [hn]
  · by_cases hd0 : d = 0#6
    · subst hd0; simp [Ctx.writeS]
    · unfold Ctx.readS
      simp only [h0, if_false, Ctx.boundSlot_writeS]
      by_cases hrd : r = d
      · subst hrd; simp [hd, Ctx.writeS, hd0]
      · have hne : r.toNat ≠ d.toNat := fun e => hrd (BitVec.eq_of_toNat_eq e)
        simp only [hrd, false_and, if_false]
        simp [Ctx.writeS, hd0, RegBank.getS_setS_ne _ _ hne, Ctx.qbind]

end Sys2Proof.Machine
end

