-- ==== Sys2Proof/Laws/Encode.lean ====
section
/-! SUPPORT. The class and the opcode of the word that each form of the encoder makes. -/

namespace Sys2Proof

/-- A field that lies above the low part of a join lies in its high part. -/
theorem extractLsb'_append_high {w v : Nat} (x : BitVec w) (y : BitVec v) (lo n : Nat) (h : v ≤ lo) :
    BitVec.extractLsb' lo n (x ++ y) = BitVec.extractLsb' (lo - v) n x := BitVec.extractLsb'_append_eq_of_le h

/-- A field that is the low part of a join. -/
@[simp] theorem extractLsb'_append_low {w v : Nat} (x : BitVec w) (y : BitVec v) :
    BitVec.extractLsb' 0 v (x ++ y) = y := by
  simp [BitVec.extractLsb'_append_eq_of_add_le]

@[simp] theorem encR3_cls (c : BitVec 4) (o : BitVec 8) (f : FR3) : fld (encR3 c o f) 60 4 = c := by
  unfold fld encR3
  repeat (refine (extractLsb'_append_high _ _ _ _ (by decide)).trans ?_)
  simp

@[simp] theorem encR3_op (c : BitVec 4) (o : BitVec 8) (f : FR3) : fld (encR3 c o f) 52 8 = o := by
  unfold fld encR3
  repeat (refine (extractLsb'_append_high _ _ _ _ (by decide)).trans ?_)
  exact extractLsb'_append_low c o

@[simp] theorem encR2_cls (c : BitVec 4) (o : BitVec 8) (f : FR2) : fld (encR2 c o f) 60 4 = c := by
  unfold fld encR2
  repeat (refine (extractLsb'_append_high _ _ _ _ (by decide)).trans ?_)
  simp

@[simp] theorem encR2_op (c : BitVec 4) (o : BitVec 8) (f : FR2) : fld (encR2 c o f) 52 8 = o := by
  unfold fld encR2
  repeat (refine (extractLsb'_append_high _ _ _ _ (by decide)).trans ?_)
  exact extractLsb'_append_low c o

@[simp] theorem encR2L_cls (c : BitVec 4) (o : BitVec 8) (f : FR2L) : fld (encR2L c o f) 60 4 = c := by
  unfold fld encR2L
  repeat (refine (extractLsb'_append_high _ _ _ _ (by decide)).trans ?_)
  simp

@[simp] theorem encR2L_op (c : BitVec 4) (o : BitVec 8) (f : FR2L) : fld (encR2L c o f) 52 8 = o := by
  unfold fld encR2L
  repeat (refine (extractLsb'_append_high _ _ _ _ (by decide)).trans ?_)
  exact extractLsb'_append_low c o

@[simp] theorem encR3L_cls (c : BitVec 4) (o : BitVec 8) (f : FR3L) : fld (encR3L c o f) 60 4 = c := by
  unfold fld encR3L
  repeat (refine (extractLsb'_append_high _ _ _ _ (by decide)).trans ?_)
  simp

@[simp] theorem encR3L_op (c : BitVec 4) (o : BitVec 8) (f : FR3L) : fld (encR3L c o f) 52 8 = o := by
  unfold fld encR3L
  repeat (refine (extractLsb'_append_high _ _ _ _ (by decide)).trans ?_)
  exact extractLsb'_append_low c o

@[simp] theorem encR2PL_cls (c : BitVec 4) (o : BitVec 8) (f : FR2PL) : fld (encR2PL c o f) 60 4 = c := by
  unfold fld encR2PL
  repeat (refine (extractLsb'_append_high _ _ _ _ (by decide)).trans ?_)
  simp

@[simp] theorem encR2PL_op (c : BitVec 4) (o : BitVec 8) (f : FR2PL) : fld (encR2PL c o f) 52 8 = o := by
  unfold fld encR2PL
  repeat (refine (extractLsb'_append_high _ _ _ _ (by decide)).trans ?_)
  exact extractLsb'_append_low c o

@[simp] theorem encR4_cls (c : BitVec 4) (o : BitVec 8) (f : FR4) : fld (encR4 c o f) 60 4 = c := by
  unfold fld encR4
  repeat (refine (extractLsb'_append_high _ _ _ _ (by decide)).trans ?_)
  simp

@[simp] theorem encR4_op (c : BitVec 4) (o : BitVec 8) (f : FR4) : fld (encR4 c o f) 52 8 = o := by
  unfold fld encR4
  repeat (refine (extractLsb'_append_high _ _ _ _ (by decide)).trans ?_)
  exact extractLsb'_append_low c o

@[simp] theorem encRI_cls (c : BitVec 4) (o : BitVec 8) (f : FRI) : fld (encRI c o f) 60 4 = c := by
  unfold fld encRI
  repeat (refine (extractLsb'_append_high _ _ _ _ (by decide)).trans ?_)
  simp

@[simp] theorem encRI_op (c : BitVec 4) (o : BitVec 8) (f : FRI) : fld (encRI c o f) 52 8 = o := by
  unfold fld encRI
  repeat (refine (extractLsb'_append_high _ _ _ _ (by decide)).trans ?_)
  exact extractLsb'_append_low c o

@[simp] theorem encRI1_cls (c : BitVec 4) (o : BitVec 8) (f : FRI1) : fld (encRI1 c o f) 60 4 = c := by
  unfold fld encRI1
  repeat (refine (extractLsb'_append_high _ _ _ _ (by decide)).trans ?_)
  simp

@[simp] theorem encRI1_op (c : BitVec 4) (o : BitVec 8) (f : FRI1) : fld (encRI1 c o f) 52 8 = o := by
  unfold fld encRI1
  repeat (refine (extractLsb'_append_high _ _ _ _ (by decide)).trans ?_)
  exact extractLsb'_append_low c o

@[simp] theorem encOff_cls (c : BitVec 4) (o : BitVec 8) (f : FOff) : fld (encOff c o f) 60 4 = c := by
  unfold fld encOff
  repeat (refine (extractLsb'_append_high _ _ _ _ (by decide)).trans ?_)
  simp

@[simp] theorem encOff_op (c : BitVec 4) (o : BitVec 8) (f : FOff) : fld (encOff c o f) 52 8 = o := by
  unfold fld encOff
  repeat (refine (extractLsb'_append_high _ _ _ _ (by decide)).trans ?_)
  exact extractLsb'_append_low c o

@[simp] theorem encDOff_cls (c : BitVec 4) (o : BitVec 8) (f : FDOff) : fld (encDOff c o f) 60 4 = c := by
  unfold fld encDOff
  repeat (refine (extractLsb'_append_high _ _ _ _ (by decide)).trans ?_)
  simp

@[simp] theorem encDOff_op (c : BitVec 4) (o : BitVec 8) (f : FDOff) : fld (encDOff c o f) 52 8 = o := by
  unfold fld encDOff
  repeat (refine (extractLsb'_append_high _ _ _ _ (by decide)).trans ?_)
  exact extractLsb'_append_low c o

@[simp] theorem encAImm_cls (c : BitVec 4) (o : BitVec 8) (f : FAImm) : fld (encAImm c o f) 60 4 = c := by
  unfold fld encAImm
  repeat (refine (extractLsb'_append_high _ _ _ _ (by decide)).trans ?_)
  simp

@[simp] theorem encAImm_op (c : BitVec 4) (o : BitVec 8) (f : FAImm) : fld (encAImm c o f) 52 8 = o := by
  unfold fld encAImm
  repeat (refine (extractLsb'_append_high _ _ _ _ (by decide)).trans ?_)
  exact extractLsb'_append_low c o

@[simp] theorem encDAImm_cls (c : BitVec 4) (o : BitVec 8) (f : FDAImm) : fld (encDAImm c o f) 60 4 = c := by
  unfold fld encDAImm
  repeat (refine (extractLsb'_append_high _ _ _ _ (by decide)).trans ?_)
  simp

@[simp] theorem encDAImm_op (c : BitVec 4) (o : BitVec 8) (f : FDAImm) : fld (encDAImm c o f) 52 8 = o := by
  unfold fld encDAImm
  repeat (refine (extractLsb'_append_high _ _ _ _ (by decide)).trans ?_)
  exact extractLsb'_append_low c o

@[simp] theorem encABOff_cls (c : BitVec 4) (o : BitVec 8) (f : FABOff) : fld (encABOff c o f) 60 4 = c := by
  unfold fld encABOff
  repeat (refine (extractLsb'_append_high _ _ _ _ (by decide)).trans ?_)
  simp

@[simp] theorem encABOff_op (c : BitVec 4) (o : BitVec 8) (f : FABOff) : fld (encABOff c o f) 52 8 = o := by
  unfold fld encABOff
  repeat (refine (extractLsb'_append_high _ _ _ _ (by decide)).trans ?_)
  exact extractLsb'_append_low c o

@[simp] theorem encAOff_cls (c : BitVec 4) (o : BitVec 8) (f : FAOff) : fld (encAOff c o f) 60 4 = c := by
  unfold fld encAOff
  repeat (refine (extractLsb'_append_high _ _ _ _ (by decide)).trans ?_)
  simp

@[simp] theorem encAOff_op (c : BitVec 4) (o : BitVec 8) (f : FAOff) : fld (encAOff c o f) 52 8 = o := by
  unfold fld encAOff
  repeat (refine (extractLsb'_append_high _ _ _ _ (by decide)).trans ?_)
  exact extractLsb'_append_low c o

@[simp] theorem encImm_cls (c : BitVec 4) (o : BitVec 8) (f : FImm) : fld (encImm c o f) 60 4 = c := by
  unfold fld encImm
  repeat (refine (extractLsb'_append_high _ _ _ _ (by decide)).trans ?_)
  simp

@[simp] theorem encImm_op (c : BitVec 4) (o : BitVec 8) (f : FImm) : fld (encImm c o f) 52 8 = o := by
  unfold fld encImm
  repeat (refine (extractLsb'_append_high _ _ _ _ (by decide)).trans ?_)
  exact extractLsb'_append_low c o

@[simp] theorem encD1_cls (c : BitVec 4) (o : BitVec 8) (f : FD1) : fld (encD1 c o f) 60 4 = c := by
  unfold fld encD1
  repeat (refine (extractLsb'_append_high _ _ _ _ (by decide)).trans ?_)
  simp

@[simp] theorem encD1_op (c : BitVec 4) (o : BitVec 8) (f : FD1) : fld (encD1 c o f) 52 8 = o := by
  unfold fld encD1
  repeat (refine (extractLsb'_append_high _ _ _ _ (by decide)).trans ?_)
  exact extractLsb'_append_low c o

@[simp] theorem encA1_cls (c : BitVec 4) (o : BitVec 8) (f : FA1) : fld (encA1 c o f) 60 4 = c := by
  unfold fld encA1
  repeat (refine (extractLsb'_append_high _ _ _ _ (by decide)).trans ?_)
  simp

@[simp] theorem encA1_op (c : BitVec 4) (o : BitVec 8) (f : FA1) : fld (encA1 c o f) 52 8 = o := by
  unfold fld encA1
  repeat (refine (extractLsb'_append_high _ _ _ _ (by decide)).trans ?_)
  exact extractLsb'_append_low c o

@[simp] theorem encDA_cls (c : BitVec 4) (o : BitVec 8) (f : FDA) : fld (encDA c o f) 60 4 = c := by
  unfold fld encDA
  repeat (refine (extractLsb'_append_high _ _ _ _ (by decide)).trans ?_)
  simp

@[simp] theorem encDA_op (c : BitVec 4) (o : BitVec 8) (f : FDA) : fld (encDA c o f) 52 8 = o := by
  unfold fld encDA
  repeat (refine (extractLsb'_append_high _ _ _ _ (by decide)).trans ?_)
  exact extractLsb'_append_low c o

@[simp] theorem encAB_cls (c : BitVec 4) (o : BitVec 8) (f : FAB) : fld (encAB c o f) 60 4 = c := by
  unfold fld encAB
  repeat (refine (extractLsb'_append_high _ _ _ _ (by decide)).trans ?_)
  simp

@[simp] theorem encAB_op (c : BitVec 4) (o : BitVec 8) (f : FAB) : fld (encAB c o f) 52 8 = o := by
  unfold fld encAB
  repeat (refine (extractLsb'_append_high _ _ _ _ (by decide)).trans ?_)
  exact extractLsb'_append_low c o

@[simp] theorem encDAB_cls (c : BitVec 4) (o : BitVec 8) (f : FDAB) : fld (encDAB c o f) 60 4 = c := by
  unfold fld encDAB
  repeat (refine (extractLsb'_append_high _ _ _ _ (by decide)).trans ?_)
  simp

@[simp] theorem encDAB_op (c : BitVec 4) (o : BitVec 8) (f : FDAB) : fld (encDAB c o f) 52 8 = o := by
  unfold fld encDAB
  repeat (refine (extractLsb'_append_high _ _ _ _ (by decide)).trans ?_)
  exact extractLsb'_append_low c o

@[simp] theorem encDABC_cls (c : BitVec 4) (o : BitVec 8) (f : FDABC) : fld (encDABC c o f) 60 4 = c := by
  unfold fld encDABC
  repeat (refine (extractLsb'_append_high _ _ _ _ (by decide)).trans ?_)
  simp

@[simp] theorem encDABC_op (c : BitVec 4) (o : BitVec 8) (f : FDABC) : fld (encDABC c o f) 52 8 = o := by
  unfold fld encDABC
  repeat (refine (extractLsb'_append_high _ _ _ _ (by decide)).trans ?_)
  exact extractLsb'_append_low c o

@[simp] theorem encDAC_cls (c : BitVec 4) (o : BitVec 8) (f : FDAC) : fld (encDAC c o f) 60 4 = c := by
  unfold fld encDAC
  repeat (refine (extractLsb'_append_high _ _ _ _ (by decide)).trans ?_)
  simp

@[simp] theorem encDAC_op (c : BitVec 4) (o : BitVec 8) (f : FDAC) : fld (encDAC c o f) 52 8 = o := by
  unfold fld encDAC
  repeat (refine (extractLsb'_append_high _ _ _ _ (by decide)).trans ?_)
  exact extractLsb'_append_low c o

@[simp] theorem encQPop_cls (c : BitVec 4) (o : BitVec 8) (f : FQPop) : fld (encQPop c o f) 60 4 = c := by
  unfold fld encQPop
  repeat (refine (extractLsb'_append_high _ _ _ _ (by decide)).trans ?_)
  simp

@[simp] theorem encQPop_op (c : BitVec 4) (o : BitVec 8) (f : FQPop) : fld (encQPop c o f) 52 8 = o := by
  unfold fld encQPop
  repeat (refine (extractLsb'_append_high _ _ _ _ (by decide)).trans ?_)
  exact extractLsb'_append_low c o

@[simp] theorem encQPush_cls (c : BitVec 4) (o : BitVec 8) (f : FQPush) : fld (encQPush c o f) 60 4 = c := by
  unfold fld encQPush
  repeat (refine (extractLsb'_append_high _ _ _ _ (by decide)).trans ?_)
  simp

@[simp] theorem encQPush_op (c : BitVec 4) (o : BitVec 8) (f : FQPush) : fld (encQPush c o f) 52 8 = o := by
  unfold fld encQPush
  repeat (refine (extractLsb'_append_high _ _ _ _ (by decide)).trans ?_)
  exact extractLsb'_append_low c o

@[simp] theorem encQBind_cls (c : BitVec 4) (o : BitVec 8) (f : FQBind) : fld (encQBind c o f) 60 4 = c := by
  unfold fld encQBind
  repeat (refine (extractLsb'_append_high _ _ _ _ (by decide)).trans ?_)
  simp

@[simp] theorem encQBind_op (c : BitVec 4) (o : BitVec 8) (f : FQBind) : fld (encQBind c o f) 52 8 = o := by
  unfold fld encQBind
  repeat (refine (extractLsb'_append_high _ _ _ _ (by decide)).trans ?_)
  exact extractLsb'_append_low c o

@[simp] theorem encPhase_cls (c : BitVec 4) (o : BitVec 8) (f : FPhase) : fld (encPhase c o f) 60 4 = c := by
  unfold fld encPhase
  repeat (refine (extractLsb'_append_high _ _ _ _ (by decide)).trans ?_)
  simp

@[simp] theorem encPhase_op (c : BitVec 4) (o : BitVec 8) (f : FPhase) : fld (encPhase c o f) 52 8 = o := by
  unfold fld encPhase
  repeat (refine (extractLsb'_append_high _ _ _ _ (by decide)).trans ?_)
  exact extractLsb'_append_low c o

@[simp] theorem encTk_cls (c : BitVec 4) (o : BitVec 8) (f : FTk) : fld (encTk c o f) 60 4 = c := by
  unfold fld encTk
  repeat (refine (extractLsb'_append_high _ _ _ _ (by decide)).trans ?_)
  simp

@[simp] theorem encTk_op (c : BitVec 4) (o : BitVec 8) (f : FTk) : fld (encTk c o f) 52 8 = o := by
  unfold fld encTk
  repeat (refine (extractLsb'_append_high _ _ _ _ (by decide)).trans ?_)
  exact extractLsb'_append_low c o

@[simp] theorem encMLd_cls (c : BitVec 4) (o : BitVec 8) (f : FMLd) : fld (encMLd c o f) 60 4 = c := by
  unfold fld encMLd
  repeat (refine (extractLsb'_append_high _ _ _ _ (by decide)).trans ?_)
  simp

@[simp] theorem encMLd_op (c : BitVec 4) (o : BitVec 8) (f : FMLd) : fld (encMLd c o f) 52 8 = o := by
  unfold fld encMLd
  repeat (refine (extractLsb'_append_high _ _ _ _ (by decide)).trans ?_)
  exact extractLsb'_append_low c o

@[simp] theorem encMSt_cls (c : BitVec 4) (o : BitVec 8) (f : FMSt) : fld (encMSt c o f) 60 4 = c := by
  unfold fld encMSt
  repeat (refine (extractLsb'_append_high _ _ _ _ (by decide)).trans ?_)
  simp

@[simp] theorem encMSt_op (c : BitVec 4) (o : BitVec 8) (f : FMSt) : fld (encMSt c o f) 52 8 = o := by
  unfold fld encMSt
  repeat (refine (extractLsb'_append_high _ _ _ _ (by decide)).trans ?_)
  exact extractLsb'_append_low c o

@[simp] theorem encMAt_cls (c : BitVec 4) (o : BitVec 8) (k : BitVec 4) (f : FMAt) : fld (encMAt c o k f) 60 4 = c := by
  unfold fld encMAt
  repeat (refine (extractLsb'_append_high _ _ _ _ (by decide)).trans ?_)
  simp

@[simp] theorem encMAt_op (c : BitVec 4) (o : BitVec 8) (k : BitVec 4) (f : FMAt) : fld (encMAt c o k f) 52 8 = o := by
  unfold fld encMAt
  repeat (refine (extractLsb'_append_high _ _ _ _ (by decide)).trans ?_)
  exact extractLsb'_append_low c o

@[simp] theorem encMCs_cls (c : BitVec 4) (o : BitVec 8) (f : FMCs) : fld (encMCs c o f) 60 4 = c := by
  unfold fld encMCs
  repeat (refine (extractLsb'_append_high _ _ _ _ (by decide)).trans ?_)
  simp

@[simp] theorem encMCs_op (c : BitVec 4) (o : BitVec 8) (f : FMCs) : fld (encMCs c o f) 52 8 = o := by
  unfold fld encMCs
  repeat (refine (extractLsb'_append_high _ _ _ _ (by decide)).trans ?_)
  exact extractLsb'_append_low c o

@[simp] theorem encMCr_cls (c : BitVec 4) (o : BitVec 8) (f : FMCr) : fld (encMCr c o f) 60 4 = c := by
  unfold fld encMCr
  repeat (refine (extractLsb'_append_high _ _ _ _ (by decide)).trans ?_)
  simp

@[simp] theorem encMCr_op (c : BitVec 4) (o : BitVec 8) (f : FMCr) : fld (encMCr c o f) 52 8 = o := by
  unfold fld encMCr
  repeat (refine (extractLsb'_append_high _ _ _ _ (by decide)).trans ?_)
  exact extractLsb'_append_low c o

@[simp] theorem encSc_cls (c : BitVec 4) (o : BitVec 8) (f : FSc) : fld (encSc c o f) 60 4 = c := by
  unfold fld encSc
  repeat (refine (extractLsb'_append_high _ _ _ _ (by decide)).trans ?_)
  simp

@[simp] theorem encSc_op (c : BitVec 4) (o : BitVec 8) (f : FSc) : fld (encSc c o f) 52 8 = o := by
  unfold fld encSc
  repeat (refine (extractLsb'_append_high _ _ _ _ (by decide)).trans ?_)
  exact extractLsb'_append_low c o

@[simp] theorem encVLd_cls (c : BitVec 4) (o : BitVec 8) (f : FVLd) : fld (encVLd c o f) 60 4 = c := by
  unfold fld encVLd
  repeat (refine (extractLsb'_append_high _ _ _ _ (by decide)).trans ?_)
  simp

@[simp] theorem encVLd_op (c : BitVec 4) (o : BitVec 8) (f : FVLd) : fld (encVLd c o f) 52 8 = o := by
  unfold fld encVLd
  repeat (refine (extractLsb'_append_high _ _ _ _ (by decide)).trans ?_)
  exact extractLsb'_append_low c o

@[simp] theorem encVLds_cls (c : BitVec 4) (o : BitVec 8) (f : FVLds) : fld (encVLds c o f) 60 4 = c := by
  unfold fld encVLds
  repeat (refine (extractLsb'_append_high _ _ _ _ (by decide)).trans ?_)
  simp

@[simp] theorem encVLds_op (c : BitVec 4) (o : BitVec 8) (f : FVLds) : fld (encVLds c o f) 52 8 = o := by
  unfold fld encVLds
  repeat (refine (extractLsb'_append_high _ _ _ _ (by decide)).trans ?_)
  exact extractLsb'_append_low c o

@[simp] theorem encVSt_cls (c : BitVec 4) (o : BitVec 8) (f : FVSt) : fld (encVSt c o f) 60 4 = c := by
  unfold fld encVSt
  repeat (refine (extractLsb'_append_high _ _ _ _ (by decide)).trans ?_)
  simp

@[simp] theorem encVSt_op (c : BitVec 4) (o : BitVec 8) (f : FVSt) : fld (encVSt c o f) 52 8 = o := by
  unfold fld encVSt
  repeat (refine (extractLsb'_append_high _ _ _ _ (by decide)).trans ?_)
  exact extractLsb'_append_low c o

@[simp] theorem encVSts_cls (c : BitVec 4) (o : BitVec 8) (f : FVSts) : fld (encVSts c o f) 60 4 = c := by
  unfold fld encVSts
  repeat (refine (extractLsb'_append_high _ _ _ _ (by decide)).trans ?_)
  simp

@[simp] theorem encVSts_op (c : BitVec 4) (o : BitVec 8) (f : FVSts) : fld (encVSts c o f) 52 8 = o := by
  unfold fld encVSts
  repeat (refine (extractLsb'_append_high _ _ _ _ (by decide)).trans ?_)
  exact extractLsb'_append_low c o

@[simp] theorem encBk_cls (c : BitVec 4) (o : BitVec 8) (f : FBk) : fld (encBk c o f) 60 4 = c := by
  unfold fld encBk
  repeat (refine (extractLsb'_append_high _ _ _ _ (by decide)).trans ?_)
  simp

@[simp] theorem encBk_op (c : BitVec 4) (o : BitVec 8) (f : FBk) : fld (encBk c o f) 52 8 = o := by
  unfold fld encBk
  repeat (refine (extractLsb'_append_high _ _ _ _ (by decide)).trans ?_)
  exact extractLsb'_append_low c o

@[simp] theorem encBkPol_cls (c : BitVec 4) (o : BitVec 8) (f : FBkPol) : fld (encBkPol c o f) 60 4 = c := by
  unfold fld encBkPol
  repeat (refine (extractLsb'_append_high _ _ _ _ (by decide)).trans ?_)
  simp

@[simp] theorem encBkPol_op (c : BitVec 4) (o : BitVec 8) (f : FBkPol) : fld (encBkPol c o f) 52 8 = o := by
  unfold fld encBkPol
  repeat (refine (extractLsb'_append_high _ _ _ _ (by decide)).trans ?_)
  exact extractLsb'_append_low c o

@[simp] theorem encBkD_cls (c : BitVec 4) (o : BitVec 8) (f : FBkD) : fld (encBkD c o f) 60 4 = c := by
  unfold fld encBkD
  repeat (refine (extractLsb'_append_high _ _ _ _ (by decide)).trans ?_)
  simp

@[simp] theorem encBkD_op (c : BitVec 4) (o : BitVec 8) (f : FBkD) : fld (encBkD c o f) 52 8 = o := by
  unfold fld encBkD
  repeat (refine (extractLsb'_append_high _ _ _ _ (by decide)).trans ?_)
  exact extractLsb'_append_low c o

@[simp] theorem encGu_cls (c : BitVec 4) (o : BitVec 8) (f : FGu) : fld (encGu c o f) 60 4 = c := by
  unfold fld encGu
  repeat (refine (extractLsb'_append_high _ _ _ _ (by decide)).trans ?_)
  simp

@[simp] theorem encGu_op (c : BitVec 4) (o : BitVec 8) (f : FGu) : fld (encGu c o f) 52 8 = o := by
  unfold fld encGu
  repeat (refine (extractLsb'_append_high _ _ _ _ (by decide)).trans ?_)
  exact extractLsb'_append_low c o

@[simp] theorem encGuD_cls (c : BitVec 4) (o : BitVec 8) (f : FGuD) : fld (encGuD c o f) 60 4 = c := by
  unfold fld encGuD
  repeat (refine (extractLsb'_append_high _ _ _ _ (by decide)).trans ?_)
  simp

@[simp] theorem encGuD_op (c : BitVec 4) (o : BitVec 8) (f : FGuD) : fld (encGuD c o f) 52 8 = o := by
  unfold fld encGuD
  repeat (refine (extractLsb'_append_high _ _ _ _ (by decide)).trans ?_)
  exact extractLsb'_append_low c o

@[simp] theorem encGuI_cls (c : BitVec 4) (o : BitVec 8) (f : FGuI) : fld (encGuI c o f) 60 4 = c := by
  unfold fld encGuI
  repeat (refine (extractLsb'_append_high _ _ _ _ (by decide)).trans ?_)
  simp

@[simp] theorem encGuI_op (c : BitVec 4) (o : BitVec 8) (f : FGuI) : fld (encGuI c o f) 52 8 = o := by
  unfold fld encGuI
  repeat (refine (extractLsb'_append_high _ _ _ _ (by decide)).trans ?_)
  exact extractLsb'_append_low c o

@[simp] theorem encCsrD_cls (c : BitVec 4) (o : BitVec 8) (f : FCsrD) : fld (encCsrD c o f) 60 4 = c := by
  unfold fld encCsrD
  repeat (refine (extractLsb'_append_high _ _ _ _ (by decide)).trans ?_)
  simp

@[simp] theorem encCsrD_op (c : BitVec 4) (o : BitVec 8) (f : FCsrD) : fld (encCsrD c o f) 52 8 = o := by
  unfold fld encCsrD
  repeat (refine (extractLsb'_append_high _ _ _ _ (by decide)).trans ?_)
  exact extractLsb'_append_low c o

@[simp] theorem encCsrA_cls (c : BitVec 4) (o : BitVec 8) (f : FCsrA) : fld (encCsrA c o f) 60 4 = c := by
  unfold fld encCsrA
  repeat (refine (extractLsb'_append_high _ _ _ _ (by decide)).trans ?_)
  simp

@[simp] theorem encCsrA_op (c : BitVec 4) (o : BitVec 8) (f : FCsrA) : fld (encCsrA c o f) 52 8 = o := by
  unfold fld encCsrA
  repeat (refine (extractLsb'_append_high _ _ _ _ (by decide)).trans ?_)
  exact extractLsb'_append_low c o

@[simp] theorem encCsrDA_cls (c : BitVec 4) (o : BitVec 8) (f : FCsrDA) : fld (encCsrDA c o f) 60 4 = c := by
  unfold fld encCsrDA
  repeat (refine (extractLsb'_append_high _ _ _ _ (by decide)).trans ?_)
  simp

@[simp] theorem encCsrDA_op (c : BitVec 4) (o : BitVec 8) (f : FCsrDA) : fld (encCsrDA c o f) 52 8 = o := by
  unfold fld encCsrDA
  repeat (refine (extractLsb'_append_high _ _ _ _ (by decide)).trans ?_)
  exact extractLsb'_append_low c o

@[simp] theorem encDAfw_cls (c : BitVec 4) (o : BitVec 8) (k : BitVec 36) (f : FDAfw) : fld (encDAfw c o k f) 60 4 = c := by
  unfold fld encDAfw
  repeat (refine (extractLsb'_append_high _ _ _ _ (by decide)).trans ?_)
  simp

@[simp] theorem encDAfw_op (c : BitVec 4) (o : BitVec 8) (k : BitVec 36) (f : FDAfw) : fld (encDAfw c o k f) 52 8 = o := by
  unfold fld encDAfw
  repeat (refine (extractLsb'_append_high _ _ _ _ (by decide)).trans ?_)
  exact extractLsb'_append_low c o

@[simp] theorem encScAB_cls (c : BitVec 4) (o : BitVec 8) (f : FScAB) : fld (encScAB c o f) 60 4 = c := by
  unfold fld encScAB
  repeat (refine (extractLsb'_append_high _ _ _ _ (by decide)).trans ?_)
  simp

@[simp] theorem encScAB_op (c : BitVec 4) (o : BitVec 8) (f : FScAB) : fld (encScAB c o f) 52 8 = o := by
  unfold fld encScAB
  repeat (refine (extractLsb'_append_high _ _ _ _ (by decide)).trans ?_)
  exact extractLsb'_append_low c o

@[simp] theorem encChA_cls (c : BitVec 4) (o : BitVec 8) (f : FChA) : fld (encChA c o f) 60 4 = c := by
  unfold fld encChA
  repeat (refine (extractLsb'_append_high _ _ _ _ (by decide)).trans ?_)
  simp

@[simp] theorem encChA_op (c : BitVec 4) (o : BitVec 8) (f : FChA) : fld (encChA c o f) 52 8 = o := by
  unfold fld encChA
  repeat (refine (extractLsb'_append_high _ _ _ _ (by decide)).trans ?_)
  exact extractLsb'_append_low c o

@[simp] theorem encCh_cls (c : BitVec 4) (o : BitVec 8) (f : FCh) : fld (encCh c o f) 60 4 = c := by
  unfold fld encCh
  repeat (refine (extractLsb'_append_high _ _ _ _ (by decide)).trans ?_)
  simp

@[simp] theorem encCh_op (c : BitVec 4) (o : BitVec 8) (f : FCh) : fld (encCh c o f) 52 8 = o := by
  unfold fld encCh
  repeat (refine (extractLsb'_append_high _ _ _ _ (by decide)).trans ?_)
  exact extractLsb'_append_low c o

@[simp] theorem encChD_cls (c : BitVec 4) (o : BitVec 8) (f : FChD) : fld (encChD c o f) 60 4 = c := by
  unfold fld encChD
  repeat (refine (extractLsb'_append_high _ _ _ _ (by decide)).trans ?_)
  simp

@[simp] theorem encChD_op (c : BitVec 4) (o : BitVec 8) (f : FChD) : fld (encChD c o f) 52 8 = o := by
  unfold fld encChD
  repeat (refine (extractLsb'_append_high _ _ _ _ (by decide)).trans ?_)
  exact extractLsb'_append_low c o

@[simp] theorem encChAB_cls (c : BitVec 4) (o : BitVec 8) (f : FChAB) : fld (encChAB c o f) 60 4 = c := by
  unfold fld encChAB
  repeat (refine (extractLsb'_append_high _ _ _ _ (by decide)).trans ?_)
  simp

@[simp] theorem encChAB_op (c : BitVec 4) (o : BitVec 8) (f : FChAB) : fld (encChAB c o f) 52 8 = o := by
  unfold fld encChAB
  repeat (refine (extractLsb'_append_high _ _ _ _ (by decide)).trans ?_)
  exact extractLsb'_append_low c o

@[simp] theorem encCpf_cls (c : BitVec 4) (o : BitVec 8) (f : FCpf) : fld (encCpf c o f) 60 4 = c := by
  unfold fld encCpf
  repeat (refine (extractLsb'_append_high _ _ _ _ (by decide)).trans ?_)
  simp

@[simp] theorem encCpf_op (c : BitVec 4) (o : BitVec 8) (f : FCpf) : fld (encCpf c o f) 52 8 = o := by
  unfold fld encCpf
  repeat (refine (extractLsb'_append_high _ _ _ _ (by decide)).trans ?_)
  exact extractLsb'_append_low c o

@[simp] theorem encCsrG_cls (c : BitVec 4) (o : BitVec 8) (f : FCsrG) : fld (encCsrG c o f) 60 4 = c := by
  unfold fld encCsrG
  repeat (refine (extractLsb'_append_high _ _ _ _ (by decide)).trans ?_)
  simp

@[simp] theorem encCsrG_op (c : BitVec 4) (o : BitVec 8) (f : FCsrG) : fld (encCsrG c o f) 52 8 = o := by
  unfold fld encCsrG
  repeat (refine (extractLsb'_append_high _ _ _ _ (by decide)).trans ?_)
  exact extractLsb'_append_low c o

@[simp] theorem encCsrL_cls (c : BitVec 4) (o : BitVec 8) (f : FCsrL) : fld (encCsrL c o f) 60 4 = c := by
  unfold fld encCsrL
  repeat (refine (extractLsb'_append_high _ _ _ _ (by decide)).trans ?_)
  simp

@[simp] theorem encCsrL_op (c : BitVec 4) (o : BitVec 8) (f : FCsrL) : fld (encCsrL c o f) 52 8 = o := by
  unfold fld encCsrL
  repeat (refine (extractLsb'_append_high _ _ _ _ (by decide)).trans ?_)
  exact extractLsb'_append_low c o

@[simp] theorem encD1x_cls (c : BitVec 4) (o : BitVec 8) (k : BitVec 12) (f : FD1x) : fld (encD1x c o k f) 60 4 = c := by
  unfold fld encD1x
  repeat (refine (extractLsb'_append_high _ _ _ _ (by decide)).trans ?_)
  simp

@[simp] theorem encD1x_op (c : BitVec 4) (o : BitVec 8) (k : BitVec 12) (f : FD1x) : fld (encD1x c o k f) 52 8 = o := by
  unfold fld encD1x
  repeat (refine (extractLsb'_append_high _ _ _ _ (by decide)).trans ?_)
  exact extractLsb'_append_low c o

@[simp] theorem encA1x_cls (c : BitVec 4) (o : BitVec 8) (k : BitVec 12) (f : FA1x) : fld (encA1x c o k f) 60 4 = c := by
  unfold fld encA1x
  repeat (refine (extractLsb'_append_high _ _ _ _ (by decide)).trans ?_)
  simp

@[simp] theorem encA1x_op (c : BitVec 4) (o : BitVec 8) (k : BitVec 12) (f : FA1x) : fld (encA1x c o k f) 52 8 = o := by
  unfold fld encA1x
  repeat (refine (extractLsb'_append_high _ _ _ _ (by decide)).trans ?_)
  exact extractLsb'_append_low c o

@[simp] theorem encLN_cls (c : BitVec 4) (o : BitVec 8) (f : FLN) : fld (encLN c o f) 60 4 = c := by
  unfold fld encLN
  repeat (refine (extractLsb'_append_high _ _ _ _ (by decide)).trans ?_)
  simp

@[simp] theorem encLN_op (c : BitVec 4) (o : BitVec 8) (f : FLN) : fld (encLN c o f) 52 8 = o := by
  unfold fld encLN
  repeat (refine (extractLsb'_append_high _ _ _ _ (by decide)).trans ?_)
  exact extractLsb'_append_low c o

@[simp] theorem encSA_cls (c : BitVec 4) (o : BitVec 8) (f : FSA) : fld (encSA c o f) 60 4 = c := by
  unfold fld encSA
  repeat (refine (extractLsb'_append_high _ _ _ _ (by decide)).trans ?_)
  simp

@[simp] theorem encSA_op (c : BitVec 4) (o : BitVec 8) (f : FSA) : fld (encSA c o f) 52 8 = o := by
  unfold fld encSA
  repeat (refine (extractLsb'_append_high _ _ _ _ (by decide)).trans ?_)
  exact extractLsb'_append_low c o

@[simp] theorem encXM_cls (c : BitVec 4) (o : BitVec 8) (f : FXM) : fld (encXM c o f) 60 4 = c := by
  unfold fld encXM
  repeat (refine (extractLsb'_append_high _ _ _ _ (by decide)).trans ?_)
  simp

@[simp] theorem encXM_op (c : BitVec 4) (o : BitVec 8) (f : FXM) : fld (encXM c o f) 52 8 = o := by
  unfold fld encXM
  repeat (refine (extractLsb'_append_high _ _ _ _ (by decide)).trans ?_)
  exact extractLsb'_append_low c o

@[simp] theorem encV3_cls (c : BitVec 4) (o : BitVec 8) (f : FV3) : fld (encV3 c o f) 60 4 = c := by
  unfold fld encV3
  repeat (refine (extractLsb'_append_high _ _ _ _ (by decide)).trans ?_)
  simp

@[simp] theorem encV3_op (c : BitVec 4) (o : BitVec 8) (f : FV3) : fld (encV3 c o f) 52 8 = o := by
  unfold fld encV3
  repeat (refine (extractLsb'_append_high _ _ _ _ (by decide)).trans ?_)
  exact extractLsb'_append_low c o

@[simp] theorem encVCm_cls (c : BitVec 4) (o : BitVec 8) (f : FVCm) : fld (encVCm c o f) 60 4 = c := by
  unfold fld encVCm
  repeat (refine (extractLsb'_append_high _ _ _ _ (by decide)).trans ?_)
  simp

@[simp] theorem encVCm_op (c : BitVec 4) (o : BitVec 8) (f : FVCm) : fld (encVCm c o f) 52 8 = o := by
  unfold fld encVCm
  repeat (refine (extractLsb'_append_high _ _ _ _ (by decide)).trans ?_)
  exact extractLsb'_append_low c o

@[simp] theorem encVC_cls (c : BitVec 4) (o : BitVec 8) (f : FVC) : fld (encVC c o f) 60 4 = c := by
  unfold fld encVC
  repeat (refine (extractLsb'_append_high _ _ _ _ (by decide)).trans ?_)
  simp

@[simp] theorem encVC_op (c : BitVec 4) (o : BitVec 8) (f : FVC) : fld (encVC c o f) 52 8 = o := by
  unfold fld encVC
  repeat (refine (extractLsb'_append_high _ _ _ _ (by decide)).trans ?_)
  exact extractLsb'_append_low c o

@[simp] theorem encVX_cls (c : BitVec 4) (o : BitVec 8) (f : FVX) : fld (encVX c o f) 60 4 = c := by
  unfold fld encVX
  repeat (refine (extractLsb'_append_high _ _ _ _ (by decide)).trans ?_)
  simp

@[simp] theorem encVX_op (c : BitVec 4) (o : BitVec 8) (f : FVX) : fld (encVX c o f) 52 8 = o := by
  unfold fld encVX
  repeat (refine (extractLsb'_append_high _ _ _ _ (by decide)).trans ?_)
  exact extractLsb'_append_low c o

@[simp] theorem encVK_cls (c : BitVec 4) (o : BitVec 8) (f : FVK) : fld (encVK c o f) 60 4 = c := by
  unfold fld encVK
  repeat (refine (extractLsb'_append_high _ _ _ _ (by decide)).trans ?_)
  simp

@[simp] theorem encVK_op (c : BitVec 4) (o : BitVec 8) (f : FVK) : fld (encVK c o f) 52 8 = o := by
  unfold fld encVK
  repeat (refine (extractLsb'_append_high _ _ _ _ (by decide)).trans ?_)
  exact extractLsb'_append_low c o

@[simp] theorem encVA_cls (c : BitVec 4) (o : BitVec 8) (f : FVA) : fld (encVA c o f) 60 4 = c := by
  unfold fld encVA
  repeat (refine (extractLsb'_append_high _ _ _ _ (by decide)).trans ?_)
  simp

@[simp] theorem encVA_op (c : BitVec 4) (o : BitVec 8) (f : FVA) : fld (encVA c o f) 52 8 = o := by
  unfold fld encVA
  repeat (refine (extractLsb'_append_high _ _ _ _ (by decide)).trans ?_)
  exact extractLsb'_append_low c o

@[simp] theorem encMAt_opx (c : BitVec 4) (o : BitVec 8) (k : BitVec 4) (f : FMAt) : fld (encMAt c o k f) 24 4 = k := by
  unfold fld encMAt
  repeat (refine (extractLsb'_append_high _ _ _ _ (by decide)).trans ?_)
  exact extractLsb'_append_low _ k

end Sys2Proof
end

