-- ==== Sys2Proof/Laws/Engine.lean ====
section
/-! SUPPORT. An engine's turn on the entry at its head: everything it can do. -/

namespace Sys2Proof.Machine

/-- An engine word that the sequencer reaches is forwarded as a sequencer instruction (R21). -/
theorem engineInstr_forward {s : State} (h : s.acting = none) (e : Eng) (i : Instr) (tok : Tok) (rel : Option Nat)
    (srcs : List Reg) (read : State → Except Cause Taken) (work : Entry → State → EngOut) :
    engineInstr e i tok rel srcs read work s = seqInstr srcs [] (forward e i read) s := by
  unfold engineInstr; rw [h]

/-- An engine word that an engine runs is its entry's turn (R21). -/
theorem engineInstr_run {s : State} {d : Eng} {en : Entry} (h : s.acting = some (d, en)) (e : Eng) (i : Instr) (tok : Tok)
    (rel : Option Nat) (srcs : List Reg) (read : State → Except Cause Taken) (work : Entry → State → EngOut) :
    engineInstr e i tok rel srcs read work s = .next (engineRun e en tok rel work { s with acting := none }) := by
  unfold engineInstr; rw [h]

/-- An entry with cells to write only writes them (R248). -/
theorem engineRun_late {en : Entry} (h : en.late ≠ []) (e : Eng) (tok : Tok) (rel : Option Nat)
    (work : Entry → State → EngOut) (s : State) : engineRun e en tok rel work s = { s with ctx := s.ctx.settleLate } := by
  unfold engineRun; rw [if_pos (by cases hl : en.late <;> simp_all)]

/-- An entry whose pushes are owed only pushes. -/
theorem engineRun_owed {en : Entry} (h0 : en.late = []) (h : en.pushOwed = true) (e : Eng) (tok : Tok) (rel : Option Nat)
    (work : Entry → State → EngOut) (s : State) : engineRun e en tok rel work s = pushOut e en tok s := by
  unfold engineRun; rw [if_neg (by simp [h0]), if_pos h]

/-- An entry whose pops are not there yet changes nothing (R147). -/
theorem engineRun_starved {en : Entry} {s : State} {e : Eng} {tok : Tok} (h0 : en.late = []) (h : en.pushOwed = false)
    (h1 : en.popsTaken = false) (h2 : s.bank.fifo.pop (popsOf e tok) = none) (rel : Option Nat)
    (work : Entry → State → EngOut) : engineRun e en tok rel work s = s := by
  unfold engineRun
  rw [if_neg (by simp [h0]), if_neg (by simp [h])]
  simp [h1, h2]

/-- A whole move leaves no cell for later (R248). -/
theorem State.leaves_whole {s : State} (h : s.parts = false) (old : Ctx) : s.leaves old = [] := by
  unfold State.leaves; rw [if_neg (by simp [h])]

/-- So a part of the work stays as it is. -/
theorem State.holdCells_whole {s : State} (h : s.parts = false) (e : Eng) (old : Ctx) : s.holdCells e old = s := by
  unfold State.holdCells; rw [State.leaves_whole h]

/-- A whole move makes the pushes of an entry that none stands before (R147). -/
theorem State.complete_whole {s : State} {e : Eng} (h : s.parts = false) (h1 : s.bank.lead e = 0) (en : Entry) (tok : Tok)
    (old : Ctx) : s.complete e en tok old = pushOut e en tok s := by
  unfold State.complete
  rw [if_pos ⟨h1, by rw [State.leaves_whole h]; rfl, by rw [h]; rfl⟩]

/-- Only X has entries under way behind others (R240). -/
theorem RegBank.lead_other (b : RegBank) {e : Eng} (h : e ≠ .x) : b.lead e = 0 := by
  cases e <;> simp_all [RegBank.lead]

/-- What an entry's work leaves of the turn, once its pops are taken: its wait or part; its effect, the release
of REL and its pushes; or its fault, its pushes made first (R133, R147, R344). -/
theorem engineRun_work {en : Entry} {s : State} {e : Eng} {tok : Tok} {f : Fifos} (h0 : en.late = []) (h : en.pushOwed = false)
    (hf : (if en.popsTaken then some s.bank.fifo else s.bank.fifo.pop (popsOf e tok)) = some f) (rel : Option Nat)
    (work : Entry → State → EngOut) :
    engineRun e en tok rel work s =
      let en1 := { en with popsTaken := true, stall := .none }
      let s1 := (s.setBank { s.bank with fifo := f }).setHead e en1
      match work en1 s1 with
      | .wait s2 w => s2.onHead e (fun x => { x with stall := w })
      | .part s2 => s2.holdCells e s1.ctx
      | .done s2 => (match rel with
          | some sc => s2.releaseAll sc
          | none => s2).complete e en1 tok s1.ctx
      | .fault s2 code sub => (s2.complete e en1 tok s1.ctx).engineFault e code sub en.addr := by
  unfold engineRun
  rw [if_neg (by simp [h0]), if_neg (by simp [h])]
  simp only [hf]
  all_goals rfl

/-- Without tokens to push an entry leaves its queue. -/
theorem pushOut_none (e : Eng) (en : Entry) (tok : Tok) (s : State) (h : pushesOf e tok = []) :
    pushOut e en tok s = (s.freeCurrent e).setBank
      ((s.freeCurrent e).bank.setQueue e ((s.freeCurrent e).bank.queue e).tail) := by
  unfold pushOut
  simp [h, Fifos.push]
  cases e <;> rfl

/-- Outside a handler an engine fault is latched (R344). -/
theorem engineFault_base {s : State} (h : s.ctx.inHandler = false) (e : Eng) (code sub : BitVec 8) (addr : Word) :
    s.engineFault e code sub addr = s.latchFault e code sub addr := by
  unfold State.engineFault; rw [if_neg (by simp [h])]

end Sys2Proof.Machine
end

