-- ==== Sys2Proof/Laws/Memory.lean ====
section
/-! SUPPORT. What the operations over memory can do: the parts of the state they change, a byte after a write,
and that each keeps the canonical form. -/

namespace Sys2Proof.Machine

/-! ### What they change -/

/-- A fold of updates of marks is one. -/
theorem State.foldl_marks (f : State → Nat → State) (hf : ∀ s a, ∃ m, f s a = { s with marks := m }) (l : List Nat)
    (s : State) : ∃ m, l.foldl f s = { s with marks := m } := by
  induction l generalizing s with
  | nil => exact ⟨s.marks, rfl⟩
  | cons a t ih =>
    obtain ⟨m, h⟩ := hf s a
    obtain ⟨k, h2⟩ := ih { s with marks := m }
    exact ⟨k, by rw [List.foldl_cons, h, h2]⟩

/-- Marking a write changes marks only. -/
theorem State.markWrite_eq (s : State) (pa n : Nat) (p : Bool) : ∃ m, s.markWrite pa n p = { s with marks := m } := by
  refine State.foldl_marks _ (fun s a => ?_) _ s
  split
  · exact ⟨_, rfl⟩
  · split
    · exact ⟨_, rfl⟩
    · exact ⟨s.marks, rfl⟩

/-- A store at its home changes memory, marks and scope records only. -/
theorem State.homeWrite_eq (s : State) (pa : Nat) (bs : List Byte) (p : Bool) : ∃ m c, s.homeWrite pa bs p =
    { s with mem := Sparse.setList memDefault s.mem pa bs, marks := m, scopes := c } := by
  obtain ⟨m, h⟩ := (s.rawWrite pa bs).markWrite_eq pa bs.length p
  exact ⟨m, _, by unfold State.homeWrite State.clearScopes; rw [h]; rfl⟩

@[simp] theorem State.homeWrite_mem (s : State) (pa : Nat) (bs : List Byte) (p : Bool) :
    (s.homeWrite pa bs p).mem = Sparse.setList memDefault s.mem pa bs := by
  obtain ⟨m, c, h⟩ := s.homeWrite_eq pa bs p
  rw [h]

/-- A scope record's update changes scope records only. -/
theorem State.scopeTake_eq (s : State) (w : Who) (sc pa : Nat) : ∃ c, s.scopeTake w sc pa = { s with scopes := c } :=
  ⟨_, rfl⟩

/-- A signal writes its counter's eight bytes and takes the scope record. -/
theorem State.signalAt_eq (s : State) (w : Who) (sc pa n : Nat) : ∃ c, s.signalAt w sc pa n =
    { s with mem := Sparse.setList memDefault s.mem pa (bytesOfNat 8 (min (s.natAt pa 8 + n) (2 ^ 64 - 1))), scopes := c } := by
  obtain ⟨c, h⟩ := (s.rawWrite pa (bytesOfNat 8 (min (s.natAt pa 8 + n) (2 ^ 64 - 1)))).scopeTake_eq w sc pa
  exact ⟨c, by unfold State.signalAt; rw [h]; rfl⟩

/-- An event's entry changes memory, marks, scope records and the registers of its die only. -/
theorem State.ringEvent_eq (s : State) (die code part vd a0 a1 : Nat) : ∃ m k c d,
    s.ringEvent die code part vd a0 a1 = { s with mem := m, marks := k, scopes := c, dies := d } := by
  unfold State.ringEvent
  simp only
  split
  · obtain ⟨m, c, h⟩ := s.homeWrite_eq
      (((s.die die).sevbase >>> 12 <<< 12).toNat + 32 * ((s.die die).sevprod.toNat % (s.die die).ringCap))
      (eventBytes s die code part vd a0 a1) false
    rw [h]
    exact ⟨_, _, _, _, rfl⟩
  · exact ⟨_, _, _, _, rfl⟩

/-- So do the events of a failed signal to SEVCNT. -/
theorem State.sevFails_eq (s : State) (die va : Nat) (f : XFail) : ∃ m k c d,
    s.sevFails die va f = { s with mem := m, marks := k, scopes := c, dies := d } := by
  unfold State.sevFails
  cases f with
  | malformed n a =>
    obtain ⟨m, k, c, d, h⟩ := s.ringEvent_eq die 0x0A 0 0 a n
    simp only [h]
    split
    · exact State.ringEvent_eq { s with mem := m, marks := k, scopes := c, dies := d } ..
    · exact ⟨_, _, _, _, rfl⟩
  | _ =>
    simp only
    split
    · exact State.ringEvent_eq ..
    · exact ⟨_, _, _, _, rfl⟩

/-- A steward event changes memory, marks, scope records and the registers of its die only. -/
theorem State.event_eq (s : State) (die code part vd a0 a1 : Nat) : ∃ m k c d,
    s.event die code part vd a0 a1 = { s with mem := m, marks := k, scopes := c, dies := d } := by
  obtain ⟨m, k, c, d, h⟩ := s.ringEvent_eq die code part vd a0 a1
  unfold State.event
  simp only [h]
  split
  · exact ⟨_, _, _, _, rfl⟩
  · split
    · obtain ⟨c2, h2⟩ := State.signalAt_eq { s with mem := m, marks := k, scopes := c, dies := d } (.die die) 3 ‹XOk›.pa 1
      exact ⟨_, _, _, _, h2⟩
    · exact State.sevFails_eq { s with mem := m, marks := k, scopes := c, dies := d } ..

/-! ### A byte after a write -/

/-- A store leaves every byte outside it alone. -/
theorem State.byteAt_homeWrite_outside (s : State) (pa a : Nat) (bs : List Byte) (p : Bool)
    (h : a < pa ∨ pa + bs.length ≤ a) : (s.homeWrite pa bs p).byteAt a = s.byteAt a := by
  unfold State.byteAt
  rw [State.homeWrite_mem]
  exact Sparse.get_setList_outside _ _ _ _ _ (by omega)

/-! ### The canonical form -/

/-- A raw write keeps it. -/
theorem State.rawWrite_wf (s : State) (pa : Nat) (bs : List Byte) (h : Memory.wf s.mem = true) :
    Memory.wf (s.rawWrite pa bs).mem = true := Sparse.wf_setList _ _ _ _ h

/-- A store keeps it. -/
theorem State.homeWrite_wf (s : State) (pa : Nat) (bs : List Byte) (p : Bool) (h : Memory.wf s.mem = true) :
    Memory.wf (s.homeWrite pa bs p).mem = true := by
  rw [State.homeWrite_mem]
  exact Sparse.wf_setList _ _ _ _ h

/-- A range zeroed keeps it. -/
theorem State.zeroRange_wf (s : State) (pa n : Nat) (h : Memory.wf s.mem = true) :
    Memory.wf (s.zeroRange pa n).mem = true := Sparse.wf_clear _ _ _ _ h

/-- A write over several pages keeps it. -/
theorem State.pagedWrite_wf (s : State) (ps : List (Nat × XOk)) (va : Nat) (bs : List Byte) (p : Bool)
    (h : Memory.wf s.mem = true) : Memory.wf (s.pagedWrite ps va bs p).mem = true := by
  unfold State.pagedWrite
  split
  · exact h
  · simp only
    split
    · exact State.homeWrite_wf _ _ _ _ h
    · exact State.homeWrite_wf _ _ _ _ (State.homeWrite_wf _ _ _ _ h)

/-- A signal keeps it. -/
theorem State.signalAt_wf (s : State) (w : Who) (sc pa n : Nat) (h : Memory.wf s.mem = true) :
    Memory.wf (s.signalAt w sc pa n).mem = true := by
  obtain ⟨c, e⟩ := s.signalAt_eq w sc pa n
  rw [e]
  exact Sparse.wf_setList _ _ _ _ h

/-- An event's entry keeps it. -/
theorem State.ringEvent_wf (s : State) (die code part vd a0 a1 : Nat) (h : Memory.wf s.mem = true) :
    Memory.wf (s.ringEvent die code part vd a0 a1).mem = true := by
  unfold State.ringEvent
  simp only
  split
  · exact State.homeWrite_wf _ _ _ _ h
  · exact h

/-- The events of a failed signal keep it. -/
theorem State.sevFails_wf (s : State) (die va : Nat) (f : XFail) (h : Memory.wf s.mem = true) :
    Memory.wf (s.sevFails die va f).mem = true := by
  unfold State.sevFails
  cases f <;> simp only <;> split <;> first | exact h | (repeat' apply State.ringEvent_wf); exact h

/-- A steward event keeps it. -/
theorem State.event_wf (s : State) (die code part vd a0 a1 : Nat) (h : Memory.wf s.mem = true) :
    Memory.wf (s.event die code part vd a0 a1).mem = true := by
  have h1 := State.ringEvent_wf s die code part vd a0 a1 h
  unfold State.event
  simp only
  split
  · exact h1
  · split
    · exact State.signalAt_wf _ _ _ _ _ h1
    · exact State.sevFails_wf _ _ _ _ h1

/-- A contribution performed at its window keeps it. -/
theorem State.contribute_wf (s : State) (c : Contrib) (h : Memory.wf s.mem = true) :
    Memory.wf (s.contribute c).mem = true := by
  unfold State.contribute
  split
  · exact h
  · simp only
    split
    · exact State.rawWrite_wf _ _ _ h
    · exact h

/-- The reset state's memory has it. -/
theorem State.reset_wf : Memory.wf State.reset.mem = true := rfl

end Sys2Proof.Machine
end

