-- ==== Sys2Proof/Laws/PerInstr.lean ====
section
/-! SUPPORT. Per instruction: an instruction with a word of its own encodes to an assigned class and opcode. -/

namespace Sys2Proof.Laws.Encodable

set_option Elab.async false

/-- The word of an instruction that has one stands at an assigned opcode (R146). -/
def Statement (i : Instr) : Prop := i.ownWord = true → (rawDecode (encode i)).isSome = true

/-- The decoder of a class. -/
def classDecoder (w : BitVec 64) (c o : Nat) : Option Instr := match c with
  | 0 => decSaluOp w o
  | 1 => decCtrlOp w o
  | 2 => decMemOp w o
  | 3 => decSysOp w o
  | 4 => decLOp w o
  | 5 => decXOp w o
  | 6 => decVOp w o
  | 7 => decSOp w o
  | 8 => decCOp w o
  | 9 => decNOp w o
  | _ => none

/-- A word of known class and opcode is read by its class's decoder. -/
theorem isSome_of {w : BitVec 64} {c : BitVec 4} {o : BitVec 8} (hc : fld w 60 4 = c) (ho : fld w 52 8 = o)
    (h : (classDecoder w c.toNat o.toNat).isSome = true) : (rawDecode w).isSome = true := by
  subst hc ho
  exact h

theorem decAtom_isSome (w : BitVec 64) : (decAtom w).isSome = true := by
  unfold decAtom
  simp only
  split <;> rfl

theorem nop : Statement .nop := fun _ => rfl

theorem add (f : FR3) : Statement (.add f) := fun _ => isSome_of (encR3_cls _ _ _) (encR3_op _ _ _) (rfl)

theorem sub (f : FR3) : Statement (.sub f) := fun _ => isSome_of (encR3_cls _ _ _) (encR3_op _ _ _) (rfl)

theorem mul (f : FR3) : Statement (.mul f) := fun _ => isSome_of (encR3_cls _ _ _) (encR3_op _ _ _) (rfl)

theorem mulh (f : FR3) : Statement (.mulh f) := fun _ => isSome_of (encR3_cls _ _ _) (encR3_op _ _ _) (rfl)

theorem mulhn (f : FR3) : Statement (.mulhn f) := fun _ => isSome_of (encR3_cls _ _ _) (encR3_op _ _ _) (rfl)

theorem div (f : FR3) : Statement (.div f) := fun _ => isSome_of (encR3_cls _ _ _) (encR3_op _ _ _) (rfl)

theorem divn (f : FR3) : Statement (.divn f) := fun _ => isSome_of (encR3_cls _ _ _) (encR3_op _ _ _) (rfl)

theorem rem (f : FR3) : Statement (.rem f) := fun _ => isSome_of (encR3_cls _ _ _) (encR3_op _ _ _) (rfl)

theorem remn (f : FR3) : Statement (.remn f) := fun _ => isSome_of (encR3_cls _ _ _) (encR3_op _ _ _) (rfl)

theorem and (f : FR3) : Statement (.and f) := fun _ => isSome_of (encR3_cls _ _ _) (encR3_op _ _ _) (rfl)

theorem or (f : FR3) : Statement (.or f) := fun _ => isSome_of (encR3_cls _ _ _) (encR3_op _ _ _) (rfl)

theorem xor (f : FR3) : Statement (.xor f) := fun _ => isSome_of (encR3_cls _ _ _) (encR3_op _ _ _) (rfl)

theorem andn (f : FR3) : Statement (.andn f) := fun _ => isSome_of (encR3_cls _ _ _) (encR3_op _ _ _) (rfl)

theorem shl (f : FR3) : Statement (.shl f) := fun _ => isSome_of (encR3_cls _ _ _) (encR3_op _ _ _) (rfl)

theorem shr (f : FR3) : Statement (.shr f) := fun _ => isSome_of (encR3_cls _ _ _) (encR3_op _ _ _) (rfl)

theorem shra (f : FR3) : Statement (.shra f) := fun _ => isSome_of (encR3_cls _ _ _) (encR3_op _ _ _) (rfl)

theorem rotl (f : FR3) : Statement (.rotl f) := fun _ => isSome_of (encR3_cls _ _ _) (encR3_op _ _ _) (rfl)

theorem clz (f : FR2) : Statement (.clz f) := fun _ => isSome_of (encR2_cls _ _ _) (encR2_op _ _ _) (rfl)

theorem ctz (f : FR2) : Statement (.ctz f) := fun _ => isSome_of (encR2_cls _ _ _) (encR2_op _ _ _) (rfl)

theorem popc (f : FR2) : Statement (.popc f) := fun _ => isSome_of (encR2_cls _ _ _) (encR2_op _ _ _) (rfl)

theorem sext (f : FR2L) : Statement (.sext f) := fun _ => isSome_of (encR2L_cls _ _ _) (encR2L_op _ _ _) (rfl)

theorem zext (f : FR2L) : Statement (.zext f) := fun _ => isSome_of (encR2L_cls _ _ _) (encR2L_op _ _ _) (rfl)

theorem min (f : FR3) : Statement (.min f) := fun _ => isSome_of (encR3_cls _ _ _) (encR3_op _ _ _) (rfl)

theorem max (f : FR3) : Statement (.max f) := fun _ => isSome_of (encR3_cls _ _ _) (encR3_op _ _ _) (rfl)

theorem minn (f : FR3) : Statement (.minn f) := fun _ => isSome_of (encR3_cls _ _ _) (encR3_op _ _ _) (rfl)

theorem maxn (f : FR3) : Statement (.maxn f) := fun _ => isSome_of (encR3_cls _ _ _) (encR3_op _ _ _) (rfl)

theorem seteq (f : FR3) : Statement (.seteq f) := fun _ => isSome_of (encR3_cls _ _ _) (encR3_op _ _ _) (rfl)

theorem setlt (f : FR3) : Statement (.setlt f) := fun _ => isSome_of (encR3_cls _ _ _) (encR3_op _ _ _) (rfl)

theorem setltn (f : FR3) : Statement (.setltn f) := fun _ => isSome_of (encR3_cls _ _ _) (encR3_op _ _ _) (rfl)

theorem csel (f : FR4) : Statement (.csel f) := fun _ => isSome_of (encR4_cls _ _ _) (encR4_op _ _ _) (rfl)

theorem addsh (f : FR3L) : Statement (.addsh f) := fun _ => isSome_of (encR3L_cls _ _ _) (encR3L_op _ _ _) (rfl)

theorem bfx (f : FR2PL) : Statement (.bfx f) := fun _ => isSome_of (encR2PL_cls _ _ _) (encR2PL_op _ _ _) (rfl)

theorem bfi (f : FR2PL) : Statement (.bfi f) := fun _ => isSome_of (encR2PL_cls _ _ _) (encR2PL_op _ _ _) (rfl)

theorem pois (f : FR2) : Statement (.pois f) := fun _ => isSome_of (encR2_cls _ _ _) (encR2_op _ _ _) (rfl)

theorem unpois (f : FR2) : Statement (.unpois f) := fun _ => isSome_of (encR2_cls _ _ _) (encR2_op _ _ _) (rfl)

theorem chash (f : FR4) : Statement (.chash f) := fun _ => isSome_of (encR4_cls _ _ _) (encR4_op _ _ _) (rfl)

theorem addi (f : FRI) : Statement (.addi f) := fun _ => isSome_of (encRI_cls _ _ _) (encRI_op _ _ _) (rfl)

theorem andi (f : FRI) : Statement (.andi f) := fun _ => isSome_of (encRI_cls _ _ _) (encRI_op _ _ _) (rfl)

theorem ori (f : FRI) : Statement (.ori f) := fun _ => isSome_of (encRI_cls _ _ _) (encRI_op _ _ _) (rfl)

theorem xori (f : FRI) : Statement (.xori f) := fun _ => isSome_of (encRI_cls _ _ _) (encRI_op _ _ _) (rfl)

theorem shli (f : FRI) : Statement (.shli f) := fun _ => isSome_of (encRI_cls _ _ _) (encRI_op _ _ _) (rfl)

theorem shri (f : FRI) : Statement (.shri f) := fun _ => isSome_of (encRI_cls _ _ _) (encRI_op _ _ _) (rfl)

theorem shrai (f : FRI) : Statement (.shrai f) := fun _ => isSome_of (encRI_cls _ _ _) (encRI_op _ _ _) (rfl)

theorem li (f : FRI1) : Statement (.li f) := fun _ => isSome_of (encRI1_cls _ _ _) (encRI1_op _ _ _) (rfl)

theorem lih (f : FRI) : Statement (.lih f) := fun _ => isSome_of (encRI_cls _ _ _) (encRI_op _ _ _) (rfl)

theorem j (f : FOff) : Statement (.j f) := fun _ => isSome_of (encOff_cls _ _ _) (encOff_op _ _ _) (rfl)

theorem jl (f : FDOff) : Statement (.jl f) := fun _ => isSome_of (encDOff_cls _ _ _) (encDOff_op _ _ _) (rfl)

theorem jr (f : FAImm) : Statement (.jr f) := fun _ => isSome_of (encAImm_cls _ _ _) (encAImm_op _ _ _) (rfl)

theorem jlr (f : FDAImm) : Statement (.jlr f) := fun _ => isSome_of (encDAImm_cls _ _ _) (encDAImm_op _ _ _) (rfl)

theorem beq (f : FABOff) : Statement (.beq f) := fun _ => isSome_of (encABOff_cls _ _ _) (encABOff_op _ _ _) (rfl)

theorem bne (f : FABOff) : Statement (.bne f) := fun _ => isSome_of (encABOff_cls _ _ _) (encABOff_op _ _ _) (rfl)

theorem blt (f : FABOff) : Statement (.blt f) := fun _ => isSome_of (encABOff_cls _ _ _) (encABOff_op _ _ _) (rfl)

theorem bge (f : FABOff) : Statement (.bge f) := fun _ => isSome_of (encABOff_cls _ _ _) (encABOff_op _ _ _) (rfl)

theorem bltn (f : FABOff) : Statement (.bltn f) := fun _ => isSome_of (encABOff_cls _ _ _) (encABOff_op _ _ _) (rfl)

theorem bgen (f : FABOff) : Statement (.bgen f) := fun _ => isSome_of (encABOff_cls _ _ _) (encABOff_op _ _ _) (rfl)

theorem loop (f : FAOff) : Statement (.loop f) := fun _ => isSome_of (encAOff_cls _ _ _) (encAOff_op _ _ _) (rfl)

theorem halt : Statement .halt := fun _ => rfl

theorem yield : Statement .yield := fun _ => rfl

theorem beat : Statement .beat := fun _ => rfl

theorem brk (f : FImm) : Statement (.brk f) := fun _ => isSome_of (encImm_cls _ _ _) (encImm_op _ _ _) (rfl)

theorem time (f : FD1) : Statement (.time f) := fun _ => isSome_of (encD1_cls _ _ _) (encD1_op _ _ _) (rfl)

theorem vcyc (f : FD1) : Statement (.vcyc f) := fun _ => isSome_of (encD1_cls _ _ _) (encD1_op _ _ _) (rfl)

theorem waitt (f : FA1) : Statement (.waitt f) := fun _ => isSome_of (encA1_cls _ _ _) (encA1_op _ _ _) (rfl)

theorem qpop (f : FQPop) : Statement (.qpop f) := fun _ => isSome_of (encQPop_cls _ _ _) (encQPop_op _ _ _) (rfl)

theorem qpush (f : FQPush) : Statement (.qpush f) := fun _ => isSome_of (encQPush_cls _ _ _) (encQPush_op _ _ _) (rfl)

theorem qbind (f : FQBind) : Statement (.qbind f) := fun _ => isSome_of (encQBind_cls _ _ _) (encQBind_op _ _ _) (rfl)

theorem spawn (f : FDAB) : Statement (.spawn f) := fun _ => isSome_of (encDAB_cls _ _ _) (encDAB_op _ _ _) (rfl)

theorem phase (f : FPhase) : Statement (.phase f) := fun _ => isSome_of (encPhase_cls _ _ _) (encPhase_op _ _ _) (rfl)

theorem tkgive (f : FTk) : Statement (.tkgive f) := fun _ => isSome_of (encTk_cls _ _ _) (encTk_op _ _ _) (rfl)

theorem tktake (f : FTk) : Statement (.tktake f) := fun _ => isSome_of (encTk_cls _ _ _) (encTk_op _ _ _) (rfl)

theorem ld (f : FMLd) : Statement (.ld f) := fun _ => isSome_of (encMLd_cls _ _ _) (encMLd_op _ _ _) (rfl)

theorem lds (f : FMLd) : Statement (.lds f) := fun _ => isSome_of (encMLd_cls _ _ _) (encMLd_op _ _ _) (rfl)

theorem st (f : FMSt) : Statement (.st f) := fun _ => isSome_of (encMSt_cls _ _ _) (encMSt_op _ _ _) (rfl)

theorem ldl (f : FMLd) : Statement (.ldl f) := fun _ => isSome_of (encMLd_cls _ _ _) (encMLd_op _ _ _) (rfl)

theorem stl (f : FMSt) : Statement (.stl f) := fun _ => isSome_of (encMSt_cls _ _ _) (encMSt_op _ _ _) (rfl)

theorem atomAdd (f : FMAt) : Statement (.atomAdd f) := fun _ => isSome_of (encMAt_cls _ _ _ _) (encMAt_op _ _ _ _) (decAtom_isSome _)

theorem atomAnd (f : FMAt) : Statement (.atomAnd f) := fun _ => isSome_of (encMAt_cls _ _ _ _) (encMAt_op _ _ _ _) (decAtom_isSome _)

theorem atomOr (f : FMAt) : Statement (.atomOr f) := fun _ => isSome_of (encMAt_cls _ _ _ _) (encMAt_op _ _ _ _) (decAtom_isSome _)

theorem atomXor (f : FMAt) : Statement (.atomXor f) := fun _ => isSome_of (encMAt_cls _ _ _ _) (encMAt_op _ _ _ _) (decAtom_isSome _)

theorem atomMin (f : FMAt) : Statement (.atomMin f) := fun _ => isSome_of (encMAt_cls _ _ _ _) (encMAt_op _ _ _ _) (decAtom_isSome _)

theorem atomMax (f : FMAt) : Statement (.atomMax f) := fun _ => isSome_of (encMAt_cls _ _ _ _) (encMAt_op _ _ _ _) (decAtom_isSome _)

theorem atomMinn (f : FMAt) : Statement (.atomMinn f) := fun _ => isSome_of (encMAt_cls _ _ _ _) (encMAt_op _ _ _ _) (decAtom_isSome _)

theorem atomMaxn (f : FMAt) : Statement (.atomMaxn f) := fun _ => isSome_of (encMAt_cls _ _ _ _) (encMAt_op _ _ _ _) (decAtom_isSome _)

theorem atomSwap (f : FMAt) : Statement (.atomSwap f) := fun _ => isSome_of (encMAt_cls _ _ _ _) (encMAt_op _ _ _ _) (decAtom_isSome _)

theorem cas (f : FMAt) : Statement (.cas f) := fun _ => isSome_of (encMAt_cls _ _ _ _) (encMAt_op _ _ _ _) (rfl)

theorem csig (f : FMCs) : Statement (.csig f) := fun _ => isSome_of (encMCs_cls _ _ _) (encMCs_op _ _ _) (rfl)

theorem cwait (f : FMCs) : Statement (.cwait f) := fun _ => isSome_of (encMCs_cls _ _ _) (encMCs_op _ _ _) (rfl)

theorem cread (f : FMCr) : Statement (.cread f) := fun _ => isSome_of (encMCr_cls _ _ _) (encMCr_op _ _ _) (rfl)

theorem fence (f : FSc) : Statement (.fence f) := fun _ => isSome_of (encSc_cls _ _ _) (encSc_op _ _ _) (rfl)

theorem bind (f : FDABC) : Statement (.bind f) := fun _ => isSome_of (encDABC_cls _ _ _) (encDABC_op _ _ _) (rfl)

theorem unbind (f : FDAC) : Statement (.unbind f) := fun _ => isSome_of (encDAC_cls _ _ _) (encDAC_op _ _ _) (rfl)

theorem vregion (f : FDAImm) : Statement (.vregion f) := fun _ => isSome_of (encDAImm_cls _ _ _) (encDAImm_op _ _ _) (rfl)

theorem vld (f : FVLd) : Statement (.vld f) := fun _ => isSome_of (encVLd_cls _ _ _) (encVLd_op _ _ _) (rfl)

theorem vlds (f : FVLds) : Statement (.vlds f) := fun _ => isSome_of (encVLds_cls _ _ _) (encVLds_op _ _ _) (rfl)

theorem vst (f : FVSt) : Statement (.vst f) := fun _ => isSome_of (encVSt_cls _ _ _) (encVSt_op _ _ _) (rfl)

theorem vsts (f : FVSts) : Statement (.vsts f) := fun _ => isSome_of (encVSts_cls _ _ _) (encVSts_op _ _ _) (rfl)

theorem vfloor (f : FAB) : Statement (.vfloor f) := fun _ => isSome_of (encAB_cls _ _ _) (encAB_op _ _ _) (rfl)

theorem vnewest (f : FDA) : Statement (.vnewest f) := fun _ => isSome_of (encDA_cls _ _ _) (encDA_op _ _ _) (rfl)

theorem bpol (f : FBkPol) : Statement (.bpol f) := fun _ => isSome_of (encBkPol_cls _ _ _) (encBkPol_op _ _ _) (rfl)

theorem bwake (f : FBk) : Statement (.bwake f) := fun _ => isSome_of (encBk_cls _ _ _) (encBk_op _ _ _) (rfl)

theorem bdrop (f : FBk) : Statement (.bdrop f) := fun _ => isSome_of (encBk_cls _ _ _) (encBk_op _ _ _) (rfl)

theorem bstate (f : FBkD) : Statement (.bstate f) := fun _ => isSome_of (encBkD_cls _ _ _) (encBkD_op _ _ _) (rfl)

theorem gwait (f : FGu) : Statement (.gwait f) := fun _ => isSome_of (encGu_cls _ _ _) (encGu_op _ _ _) (rfl)

theorem grel (f : FGu) : Statement (.grel f) := fun _ => isSome_of (encGu_cls _ _ _) (encGu_op _ _ _) (rfl)

theorem gstat (f : FGuD) : Statement (.gstat f) := fun _ => isSome_of (encGuD_cls _ _ _) (encGuD_op _ _ _) (rfl)

theorem lbfree (f : FGuI) : Statement (.lbfree f) := fun _ => isSome_of (encGuI_cls _ _ _) (encGuI_op _ _ _) (rfl)

theorem lbusy (f : FGuD) : Statement (.lbusy f) := fun _ => isSome_of (encGuD_cls _ _ _) (encGuD_op _ _ _) (rfl)

theorem csrr (f : FCsrD) : Statement (.csrr f) := fun _ => isSome_of (encCsrD_cls _ _ _) (encCsrD_op _ _ _) (rfl)

theorem csrw (f : FCsrA) : Statement (.csrw f) := fun _ => isSome_of (encCsrA_cls _ _ _) (encCsrA_op _ _ _) (rfl)

theorem csrs (f : FCsrDA) : Statement (.csrs f) := fun _ => isSome_of (encCsrDA_cls _ _ _) (encCsrDA_op _ _ _) (rfl)

theorem csrc (f : FCsrDA) : Statement (.csrc f) := fun _ => isSome_of (encCsrDA_cls _ _ _) (encCsrDA_op _ _ _) (rfl)

theorem ecall (f : FImm) : Statement (.ecall f) := fun _ => isSome_of (encImm_cls _ _ _) (encImm_op _ _ _) (rfl)

theorem tret : Statement .tret := fun _ => rfl

theorem sret : Statement .sret := fun _ => rfl

theorem fwcallIdentity (f : FDAImm) : Statement (.fwcallIdentity f) := fun _ => isSome_of (encDAImm_cls _ _ _) (encDAImm_op _ _ _) (rfl)

theorem fwcallMeasurementLog (f : FDAfw) : Statement (.fwcallMeasurementLog f) := fun _ => isSome_of (encDAfw_cls _ _ _ _) (encDAfw_op _ _ _ _) (rfl)

theorem fwcallQuote (f : FDAfw) : Statement (.fwcallQuote f) := fun _ => isSome_of (encDAfw_cls _ _ _ _) (encDAfw_op _ _ _ _) (rfl)

theorem fwcallRepairMap (f : FDAfw) : Statement (.fwcallRepairMap f) := fun _ => isSome_of (encDAfw_cls _ _ _ _) (encDAfw_op _ _ _ _) (rfl)

theorem stage2Map (f : FDAfw) : Statement (.stage2Map f) := fun _ => isSome_of (encDAfw_cls _ _ _ _) (encDAfw_op _ _ _ _) (rfl)

theorem stage2Unmap (f : FDAfw) : Statement (.stage2Unmap f) := fun _ => isSome_of (encDAfw_cls _ _ _ _) (encDAfw_op _ _ _ _) (rfl)

theorem moveToTier1 (f : FDAfw) : Statement (.moveToTier1 f) := fun _ => isSome_of (encDAfw_cls _ _ _ _) (encDAfw_op _ _ _ _) (rfl)

theorem moveToTier2 (f : FDAfw) : Statement (.moveToTier2 f) := fun _ => isSome_of (encDAfw_cls _ _ _ _) (encDAfw_op _ _ _ _) (rfl)

theorem setPermissions (f : FDAfw) : Statement (.setPermissions f) := fun _ => isSome_of (encDAfw_cls _ _ _ _) (encDAfw_op _ _ _ _) (rfl)

theorem pageRetirement (f : FDAfw) : Statement (.pageRetirement f) := fun _ => isSome_of (encDAfw_cls _ _ _ _) (encDAfw_op _ _ _ _) (rfl)

theorem windowDeclare (f : FDAfw) : Statement (.windowDeclare f) := fun _ => isSome_of (encDAfw_cls _ _ _ _) (encDAfw_op _ _ _ _) (rfl)

theorem windowRemove (f : FDAfw) : Statement (.windowRemove f) := fun _ => isSome_of (encDAfw_cls _ _ _ _) (encDAfw_op _ _ _ _) (rfl)

theorem tspill (f : FBk) : Statement (.tspill f) := fun _ => isSome_of (encBk_cls _ _ _) (encBk_op _ _ _) (rfl)

theorem tfill (f : FBk) : Statement (.tfill f) := fun _ => isSome_of (encBk_cls _ _ _) (encBk_op _ _ _) (rfl)

theorem ctxsave (f : FDA) : Statement (.ctxsave f) := fun _ => isSome_of (encDA_cls _ _ _) (encDA_op _ _ _) (rfl)

theorem ctxload (f : FDA) : Statement (.ctxload f) := fun _ => isSome_of (encDA_cls _ _ _) (encDA_op _ _ _) (rfl)

theorem tlbinv (f : FScAB) : Statement (.tlbinv f) := fun _ => isSome_of (encScAB_cls _ _ _) (encScAB_op _ _ _) (rfl)

theorem zerorange (f : FAB) : Statement (.zerorange f) := fun _ => isSome_of (encAB_cls _ _ _) (encAB_op _ _ _) (rfl)

theorem psync : Statement .psync := fun _ => rfl

theorem wdog (f : FA1) : Statement (.wdog f) := fun _ => isSome_of (encA1_cls _ _ _) (encA1_op _ _ _) (rfl)

theorem dlvl (f : FAB) : Statement (.dlvl f) := fun _ => isSome_of (encAB_cls _ _ _) (encAB_op _ _ _) (rfl)

theorem cancel (f : FDAB) : Statement (.cancel f) := fun _ => isSome_of (encDAB_cls _ _ _) (encDAB_op _ _ _) (rfl)

theorem cancelClear (f : FDAB) : Statement (.cancelClear f) := fun _ => isSome_of (encDAB_cls _ _ _) (encDAB_op _ _ _) (rfl)

theorem lline (f : FLN) : Statement (.lline f) := fun _ => isSome_of (encLN_cls _ _ _) (encLN_op _ _ _) (rfl)

theorem ltile (f : FLN) : Statement (.ltile f) := fun _ => isSome_of (encLN_cls _ _ _) (encLN_op _ _ _) (rfl)

theorem ltrans (f : FLN) : Statement (.ltrans f) := fun _ => isSome_of (encLN_cls _ _ _) (encLN_op _ _ _) (rfl)

theorem lfeed (f : FLN) : Statement (.lfeed f) := fun _ => isSome_of (encLN_cls _ _ _) (encLN_op _ _ _) (rfl)

theorem lsetf (f : FLN) : Statement (.lsetf f) := fun _ => isSome_of (encLN_cls _ _ _) (encLN_op _ _ _) (rfl)

theorem lwgt (f : FLN) : Statement (.lwgt f) := fun _ => isSome_of (encLN_cls _ _ _) (encLN_op _ _ _) (rfl)

theorem lgath (f : FLN) : Statement (.lgath f) := fun _ => isSome_of (encLN_cls _ _ _) (encLN_op _ _ _) (rfl)

theorem lmask (f : FLN) : Statement (.lmask f) := fun _ => isSome_of (encLN_cls _ _ _) (encLN_op _ _ _) (rfl)

theorem lvc (f : FLN) : Statement (.lvc f) := fun _ => isSome_of (encLN_cls _ _ _) (encLN_op _ _ _) (rfl)

theorem lzero (f : FLN) : Statement (.lzero f) := fun _ => isSome_of (encLN_cls _ _ _) (encLN_op _ _ _) (rfl)

theorem xmma (f : FXM) : Statement (.xmma f) := fun _ => isSome_of (encXM_cls _ _ _) (encXM_op _ _ _) (rfl)

theorem xmmam (f : FXM) : Statement (.xmmam f) := fun _ => isSome_of (encXM_cls _ _ _) (encXM_op _ _ _) (rfl)

theorem xspmm (f : FXM) : Statement (.xspmm f) := fun _ => isSome_of (encXM_cls _ _ _) (encXM_op _ _ _) (rfl)

theorem xswap (f : FXM) : Statement (.xswap f) := fun _ => isSome_of (encXM_cls _ _ _) (encXM_op _ _ _) (rfl)

theorem xshape (f : FXM) : Statement (.xshape f) := fun _ => isSome_of (encXM_cls _ _ _) (encXM_op _ _ _) (rfl)

theorem xclr (f : FXM) : Statement (.xclr f) := fun _ => isSome_of (encXM_cls _ _ _) (encXM_op _ _ _) (rfl)

theorem xbias (f : FXM) : Statement (.xbias f) := fun _ => isSome_of (encXM_cls _ _ _) (encXM_op _ _ _) (rfl)

theorem vadd (f : FV3) : Statement (.vadd f) := fun _ => isSome_of (encV3_cls _ _ _) (encV3_op _ _ _) (rfl)

theorem vsub (f : FV3) : Statement (.vsub f) := fun _ => isSome_of (encV3_cls _ _ _) (encV3_op _ _ _) (rfl)

theorem vmul (f : FV3) : Statement (.vmul f) := fun _ => isSome_of (encV3_cls _ _ _) (encV3_op _ _ _) (rfl)

theorem vfma (f : FV3) : Statement (.vfma f) := fun _ => isSome_of (encV3_cls _ _ _) (encV3_op _ _ _) (rfl)

theorem vfms (f : FV3) : Statement (.vfms f) := fun _ => isSome_of (encV3_cls _ _ _) (encV3_op _ _ _) (rfl)

theorem vfnma (f : FV3) : Statement (.vfnma f) := fun _ => isSome_of (encV3_cls _ _ _) (encV3_op _ _ _) (rfl)

theorem vmin (f : FV3) : Statement (.vmin f) := fun _ => isSome_of (encV3_cls _ _ _) (encV3_op _ _ _) (rfl)

theorem vmax (f : FV3) : Statement (.vmax f) := fun _ => isSome_of (encV3_cls _ _ _) (encV3_op _ _ _) (rfl)

theorem vabs (f : FV3) : Statement (.vabs f) := fun _ => isSome_of (encV3_cls _ _ _) (encV3_op _ _ _) (rfl)

theorem vneg (f : FV3) : Statement (.vneg f) := fun _ => isSome_of (encV3_cls _ _ _) (encV3_op _ _ _) (rfl)

theorem vand (f : FV3) : Statement (.vand f) := fun _ => isSome_of (encV3_cls _ _ _) (encV3_op _ _ _) (rfl)

theorem vor (f : FV3) : Statement (.vor f) := fun _ => isSome_of (encV3_cls _ _ _) (encV3_op _ _ _) (rfl)

theorem vxor (f : FV3) : Statement (.vxor f) := fun _ => isSome_of (encV3_cls _ _ _) (encV3_op _ _ _) (rfl)

theorem vnot (f : FV3) : Statement (.vnot f) := fun _ => isSome_of (encV3_cls _ _ _) (encV3_op _ _ _) (rfl)

theorem vshl (f : FV3) : Statement (.vshl f) := fun _ => isSome_of (encV3_cls _ _ _) (encV3_op _ _ _) (rfl)

theorem vshr (f : FV3) : Statement (.vshr f) := fun _ => isSome_of (encV3_cls _ _ _) (encV3_op _ _ _) (rfl)

theorem vshra (f : FV3) : Statement (.vshra f) := fun _ => isSome_of (encV3_cls _ _ _) (encV3_op _ _ _) (rfl)

theorem vrsh (f : FV3) : Statement (.vrsh f) := fun _ => isSome_of (encV3_cls _ _ _) (encV3_op _ _ _) (rfl)

theorem vcmpeq (f : FVCm) : Statement (.vcmpeq f) := fun _ => isSome_of (encVCm_cls _ _ _) (encVCm_op _ _ _) (rfl)

theorem vcmpne (f : FVCm) : Statement (.vcmpne f) := fun _ => isSome_of (encVCm_cls _ _ _) (encVCm_op _ _ _) (rfl)

theorem vcmplt (f : FVCm) : Statement (.vcmplt f) := fun _ => isSome_of (encVCm_cls _ _ _) (encVCm_op _ _ _) (rfl)

theorem vcmple (f : FVCm) : Statement (.vcmple f) := fun _ => isSome_of (encVCm_cls _ _ _) (encVCm_op _ _ _) (rfl)

theorem vsel (f : FV3) : Statement (.vsel f) := fun _ => isSome_of (encV3_cls _ _ _) (encV3_op _ _ _) (rfl)

theorem vcvt (f : FVC) : Statement (.vcvt f) := fun _ => isSome_of (encVC_cls _ _ _) (encVC_op _ _ _) (rfl)

theorem vexp2 (f : FV3) : Statement (.vexp2 f) := fun _ => isSome_of (encV3_cls _ _ _) (encV3_op _ _ _) (rfl)

theorem vlog2 (f : FV3) : Statement (.vlog2 f) := fun _ => isSome_of (encV3_cls _ _ _) (encV3_op _ _ _) (rfl)

theorem vrcp (f : FV3) : Statement (.vrcp f) := fun _ => isSome_of (encV3_cls _ _ _) (encV3_op _ _ _) (rfl)

theorem vrsq (f : FV3) : Statement (.vrsq f) := fun _ => isSome_of (encV3_cls _ _ _) (encV3_op _ _ _) (rfl)

theorem vtanh (f : FV3) : Statement (.vtanh f) := fun _ => isSome_of (encV3_cls _ _ _) (encV3_op _ _ _) (rfl)

theorem vredsum (f : FV3) : Statement (.vredsum f) := fun _ => isSome_of (encV3_cls _ _ _) (encV3_op _ _ _) (rfl)

theorem vredmax (f : FV3) : Statement (.vredmax f) := fun _ => isSome_of (encV3_cls _ _ _) (encV3_op _ _ _) (rfl)

theorem vredmin (f : FV3) : Statement (.vredmin f) := fun _ => isSome_of (encV3_cls _ _ _) (encV3_op _ _ _) (rfl)

theorem vscanadd (f : FV3) : Statement (.vscanadd f) := fun _ => isSome_of (encV3_cls _ _ _) (encV3_op _ _ _) (rfl)

theorem vbcast (f : FVX) : Statement (.vbcast f) := fun _ => isSome_of (encVX_cls _ _ _) (encVX_op _ _ _) (rfl)

theorem vmov (f : FV3) : Statement (.vmov f) := fun _ => isSome_of (encV3_cls _ _ _) (encV3_op _ _ _) (rfl)

theorem vperm (f : FV3) : Statement (.vperm f) := fun _ => isSome_of (encV3_cls _ _ _) (encV3_op _ _ _) (rfl)

theorem viota (f : FV3) : Statement (.viota f) := fun _ => isSome_of (encV3_cls _ _ _) (encV3_op _ _ _) (rfl)

theorem vgets (f : FVX) : Statement (.vgets f) := fun _ => isSome_of (encVX_cls _ _ _) (encVX_op _ _ _) (rfl)

theorem vsets (f : FVX) : Statement (.vsets f) := fun _ => isSome_of (encVX_cls _ _ _) (encVX_op _ _ _) (rfl)

theorem vkand (f : FVK) : Statement (.vkand f) := fun _ => isSome_of (encVK_cls _ _ _) (encVK_op _ _ _) (rfl)

theorem vkor (f : FVK) : Statement (.vkor f) := fun _ => isSome_of (encVK_cls _ _ _) (encVK_op _ _ _) (rfl)

theorem vkxor (f : FVK) : Statement (.vkxor f) := fun _ => isSome_of (encVK_cls _ _ _) (encVK_op _ _ _) (rfl)

theorem vknot (f : FVK) : Statement (.vknot f) := fun _ => isSome_of (encVK_cls _ _ _) (encVK_op _ _ _) (rfl)

theorem vkpopc (f : FVK) : Statement (.vkpopc f) := fun _ => isSome_of (encVK_cls _ _ _) (encVK_op _ _ _) (rfl)

theorem vkfirst (f : FVK) : Statement (.vkfirst f) := fun _ => isSome_of (encVK_cls _ _ _) (encVK_op _ _ _) (rfl)

theorem vacc (f : FVA) : Statement (.vacc f) := fun _ => isSome_of (encVA_cls _ _ _) (encVA_op _ _ _) (rfl)

theorem vpois (f : FV3) : Statement (.vpois f) := fun _ => isSome_of (encV3_cls _ _ _) (encV3_op _ _ _) (rfl)

theorem vhash (f : FV3) : Statement (.vhash f) := fun _ => isSome_of (encV3_cls _ _ _) (encV3_op _ _ _) (rfl)

theorem sline (f : FLN) : Statement (.sline f) := fun _ => isSome_of (encLN_cls _ _ _) (encLN_op _ _ _) (rfl)

theorem stile (f : FLN) : Statement (.stile f) := fun _ => isSome_of (encLN_cls _ _ _) (encLN_op _ _ _) (rfl)

theorem strans (f : FLN) : Statement (.strans f) := fun _ => isSome_of (encLN_cls _ _ _) (encLN_op _ _ _) (rfl)

theorem sacc (f : FSA) : Statement (.sacc f) := fun _ => isSome_of (encSA_cls _ _ _) (encSA_op _ _ _) (rfl)

theorem ckick (f : FChA) : Statement (.ckick f) := fun _ => isSome_of (encChA_cls _ _ _) (encChA_op _ _ _) (rfl)

theorem cstop (f : FCh) : Statement (.cstop f) := fun _ => isSome_of (encCh_cls _ _ _) (encCh_op _ _ _) (rfl)

theorem cstat (f : FChD) : Statement (.cstat f) := fun _ => isSome_of (encChD_cls _ _ _) (encChD_op _ _ _) (rfl)

theorem cpfl2 (f : FCpf) : Statement (.cpfl2 f) := fun _ => isSome_of (encCpf_cls _ _ _) (encCpf_op _ _ _) (rfl)

theorem czero (f : FChAB) : Statement (.czero f) := fun _ => isSome_of (encChAB_cls _ _ _) (encChAB_op _ _ _) (rfl)

theorem cwaitch (f : FCh) : Statement (.cwaitch f) := fun _ => isSome_of (encCh_cls _ _ _) (encCh_op _ _ _) (rfl)

theorem nsend (f : FDABC) : Statement (.nsend f) := fun _ => isSome_of (encDABC_cls _ _ _) (encDABC_op _ _ _) (rfl)

theorem nstat (f : FDA) : Statement (.nstat f) := fun _ => isSome_of (encDA_cls _ _ _) (encDA_op _ _ _) (rfl)

theorem gcfgWrite (f : FCsrG) : Statement (.gcfgWrite f) := fun _ => isSome_of (encCsrG_cls _ _ _) (encCsrG_op _ _ _) (rfl)

theorem lbdWrite (f : FCsrL) : Statement (.lbdWrite f) := fun _ => isSome_of (encCsrL_cls _ _ _) (encCsrL_op _ _ _) (rfl)

theorem cpfstatRead (f : FD1x) : Statement (.cpfstatRead f) := fun _ => isSome_of (encD1x_cls _ _ _ _) (encD1x_op _ _ _ _) (rfl)

theorem sevbaseWrite (f : FA1x) : Statement (.sevbaseWrite f) := fun _ => isSome_of (encA1x_cls _ _ _ _) (encA1x_op _ _ _ _) (rfl)

theorem sevlostRead (f : FD1x) : Statement (.sevlostRead f) := fun _ => isSome_of (encD1x_cls _ _ _ _) (encD1x_op _ _ _ _) (rfl)

theorem hqlaunch (vd q : Nat) (pkt : BitVec 512) (whole : Bool) : Statement (.hqlaunch vd q pkt whole) := by simp [Statement, Instr.ownWord]

theorem hqdoor (vd q : Nat) (widx : BitVec 32) : Statement (.hqdoor vd q widx) := by simp [Statement, Instr.ownWord]

theorem hqStart (vd q : Nat) : Statement (.hqStart vd q) := by simp [Statement, Instr.ownWord]

theorem hqStop (vd q : Nat) : Statement (.hqStop vd q) := by simp [Statement, Instr.ownWord]

theorem hqClrq (vd q : Nat) : Statement (.hqClrq vd q) := by simp [Statement, Instr.ownWord]

theorem accept (vd : Nat) : Statement (.accept vd) := by simp [Statement, Instr.ownWord]

theorem featureReset (vd : Nat) : Statement (.featureReset vd) := by simp [Statement, Instr.ownWord]

theorem recoveryLoad (vd : Nat) : Statement (.recoveryLoad vd) := by simp [Statement, Instr.ownWord]

theorem recoveryReset (bist : Bist) : Statement (.recoveryReset bist) := by simp [Statement, Instr.ownWord]

theorem hostRegisterWrite (r : HostReg) (value : BitVec 128) : Statement (.hostRegisterWrite r value) := by simp [Statement, Instr.ownWord]

theorem nopPacket (vd q : Nat) : Statement (.nopPacket vd q) := by simp [Statement, Instr.ownWord]

theorem launch (vd q : Nat) : Statement (.launch vd q) := by simp [Statement, Instr.ownWord]

theorem copyPacket (vd q : Nat) : Statement (.copyPacket vd q) := by simp [Statement, Instr.ownWord]

theorem signal (vd q : Nat) : Statement (.signal vd q) := by simp [Statement, Instr.ownWord]

theorem wait (vd q : Nat) : Statement (.wait vd q) := by simp [Statement, Instr.ownWord]

theorem bindPacket (vd q : Nat) : Statement (.bindPacket vd q) := by simp [Statement, Instr.ownWord]

theorem cancelPacket (vd q : Nat) : Statement (.cancelPacket vd q) := by simp [Statement, Instr.ownWord]

theorem fencePacket (vd q : Nat) : Statement (.fencePacket vd q) := by simp [Statement, Instr.ownWord]

theorem waitSatisfied (vd q : Nat) : Statement (.waitSatisfied vd q) := by simp [Statement, Instr.ownWord]

theorem waitTimeout (vd q : Nat) : Statement (.waitTimeout vd q) := by simp [Statement, Instr.ownWord]

theorem copyChainEnd (die ch : Nat) : Statement (.copyChainEnd die ch) := by simp [Statement, Instr.ownWord]

theorem firmwareRestart (vd q : Nat) : Statement (.firmwareRestart vd q) := by simp [Statement, Instr.ownWord]

theorem queueMap (vd q thread : Nat) : Statement (.queueMap vd q thread) := by simp [Statement, Instr.ownWord]

theorem queueUnmap (vd q : Nat) : Statement (.queueUnmap vd q) := by simp [Statement, Instr.ownWord]

theorem taskRelease (t : Nat) : Statement (.taskRelease t) := by simp [Statement, Instr.ownWord]

theorem heldTaskRelease (t : Nat) : Statement (.heldTaskRelease t) := by simp [Statement, Instr.ownWord]

theorem schedulerSelection (p die : Nat) : Statement (.schedulerSelection p die) := by simp [Statement, Instr.ownWord]

theorem deadlineMiss (t : Nat) : Statement (.deadlineMiss t) := by simp [Statement, Instr.ownWord]

theorem progress (t : Nat) : Statement (.progress t) := by simp [Statement, Instr.ownWord]

theorem budgetOverrun (t : Nat) : Statement (.budgetOverrun t) := by simp [Statement, Instr.ownWord]

theorem admissionEvaluation (p die : Nat) : Statement (.admissionEvaluation p die) := by simp [Statement, Instr.ownWord]

theorem quarantineRotation (die : Nat) : Statement (.quarantineRotation die) := by simp [Statement, Instr.ownWord]

theorem sliceEnd (p : Nat) : Statement (.sliceEnd p) := by simp [Statement, Instr.ownWord]

theorem sliceStart (p : Nat) : Statement (.sliceStart p) := by simp [Statement, Instr.ownWord]

theorem forcedSave (c : Nat) : Statement (.forcedSave c) := by simp [Statement, Instr.ownWord]

theorem takePendingCause (c : Nat) : Statement (.takePendingCause c) := by simp [Statement, Instr.ownWord]

theorem bankWakeComplete (c : Nat) (pad : Bool) (idx : Nat) : Statement (.bankWakeComplete c pad idx) := by simp [Statement, Instr.ownWord]

theorem cwaitSatisfied (c : Nat) : Statement (.cwaitSatisfied c) := by simp [Statement, Instr.ownWord]

theorem queueEntryDelivered (c : Nat) : Statement (.queueEntryDelivered c) := by simp [Statement, Instr.ownWord]

theorem waittExpiry (c : Nat) : Statement (.waittExpiry c) := by simp [Statement, Instr.ownWord]

theorem gwaitSatisfied (c : Nat) : Statement (.gwaitSatisfied c) := by simp [Statement, Instr.ownWord]

theorem versionWaitWake (c : Nat) : Statement (.versionWaitWake c) := by simp [Statement, Instr.ownWord]

theorem versionWaitRetry (c : Nat) : Statement (.versionWaitRetry c) := by simp [Statement, Instr.ownWord]

theorem creationRetry (who : Creator) : Statement (.creationRetry who) := by simp [Statement, Instr.ownWord]

theorem versionTimeout (who : Creator) : Statement (.versionTimeout who) := by simp [Statement, Instr.ownWord]

theorem transferRecord (c ch : Nat) (bad : List Nat) : Statement (.transferRecord c ch bad) := by simp [Statement, Instr.ownWord]

theorem gutterClaim (c g : Nat) : Statement (.gutterClaim c g) := by simp [Statement, Instr.ownWord]

theorem gutterFill (c g : Nat) (bad : List Nat) : Statement (.gutterFill c g bad) := by simp [Statement, Instr.ownWord]

theorem multicastLanding (c ch : Nat) (bad : List Nat) : Statement (.multicastLanding c ch bad) := by simp [Statement, Instr.ownWord]

theorem prefetchResident (c : Nat) (failed : Nat) : Statement (.prefetchResident c failed) := by simp [Statement, Instr.ownWord]

theorem endpointTake (c slot : Nat) : Statement (.endpointTake c slot) := by simp [Statement, Instr.ownWord]

theorem transmissionStart (c slot : Nat) : Statement (.transmissionStart c slot) := by simp [Statement, Instr.ownWord]

theorem sendAcknowledged (c slot : Nat) : Statement (.sendAcknowledged c slot) := by simp [Statement, Instr.ownWord]

theorem inboundMessage (handle : BitVec 32) (word : BitVec 64) (bytes : List (BitVec 8)) : Statement (.inboundMessage handle word bytes) := by simp [Statement, Instr.ownWord]

theorem ptpMessage (msg : PtpMsg) : Statement (.ptpMessage msg) := by simp [Statement, Instr.ownWord]

theorem reductionGroup (win : Nat) : Statement (.reductionGroup win) := by simp [Statement, Instr.ownWord]

theorem linkRetired (link : Nat) : Statement (.linkRetired link) := by simp [Statement, Instr.ownWord]

theorem heartbeat (die : Nat) : Statement (.heartbeat die) := by simp [Statement, Instr.ownWord]

theorem dieFailed (die : Nat) : Statement (.dieFailed die) := by simp [Statement, Instr.ownWord]

theorem partitionCommit : Statement .partitionCommit := by simp [Statement, Instr.ownWord]

theorem deviceQuiet (v : Nat) : Statement (.deviceQuiet v) := by simp [Statement, Instr.ownWord]

theorem thermalReport (h : Nat) (tenths : Int) : Statement (.thermalReport h tenths) := by simp [Statement, Instr.ownWord]

theorem powerCap (watts : Nat) : Statement (.powerCap watts) := by simp [Statement, Instr.ownWord]

theorem reservationRequest (c : Nat) (u : PowerUnit) : Statement (.reservationRequest c u) := by simp [Statement, Instr.ownWord]

theorem reservationGrant (cluster : Nat) : Statement (.reservationGrant cluster) := by simp [Statement, Instr.ownWord]

theorem droop (cluster : Nat) : Statement (.droop cluster) := by simp [Statement, Instr.ownWord]

theorem droopFreezeEnd (cluster : Nat) : Statement (.droopFreezeEnd cluster) := by simp [Statement, Instr.ownWord]

theorem uncorrectableError (where_ : ErrorSite) : Statement (.uncorrectableError where_) := by simp [Statement, Instr.ownWord]

theorem watchdog (die : Nat) : Statement (.watchdog die) := by simp [Statement, Instr.ownWord]

theorem powerOn (bist : Bist) : Statement (.powerOn bist) := by simp [Statement, Instr.ownWord]

theorem sendFailed (c slot : Nat) (code : Nat) : Statement (.sendFailed c slot code) := by simp [Statement, Instr.ownWord]

end Sys2Proof.Laws.Encodable
end

