-- ==== Sys2Proof/Laws/Seq.lean ====
section
/-! SUPPORT. What a sequencer instruction does where no register it names is bound or pending: one lemma
for each way its body ends. -/

namespace Sys2Proof.Machine

/-! ### The end of an instruction -/

/-- The context after an instruction has gone on. -/
theorem State.goOn_ctx (s : State) (pc : Word) :
    (s.goOn pc).ctx = { s.ctx.setBank { s.bank with wait := none } with pc := pc } := rfl

/-- The program counter after an instruction has gone on. -/
@[simp] theorem State.goOn_pc (s : State) (pc : Word) : (s.goOn pc).ctx.pc = pc := rfl

/-- A new program counter leaves the running bank. -/
@[simp] theorem Ctx.bank_withPc (c : Ctx) (pc : Word) : ({ c with pc := pc } : Ctx).bank = c.bank := rfl

/-- The running bank after an instruction has gone on: its wait is over. -/
@[simp] theorem State.goOn_bank (s : State) (pc : Word) : (s.goOn pc).bank = { s.bank with wait := none } :=
  Ctx.bank_setBank s.ctx { s.bank with wait := none }

/-- Two contexts of equal bindings and equal scalar slots read alike. -/
theorem Ctx.readS_congr {c d : Ctx} (hq : d.qbinds = c.qbinds) (hs : d.bank.s = c.bank.s) (r : Reg) :
    d.readS r = c.readS r := by
  have e : d.qbind = c.qbind := by funext n; simp [Ctx.qbind, hq]
  unfold Ctx.readS Ctx.boundSlot
  rw [e]
  simp only [RegBank.getS, hs]

/-- Going on leaves every scalar register. -/
@[simp] theorem State.goOn_rd (s : State) (pc : Word) (r : Reg) : (s.goOn pc).rd r = s.rd r := by
  refine Ctx.readS_congr ?_ ?_ r
  · simp [State.goOn_ctx]
  · have := congrArg RegBank.s (State.goOn_bank s pc)
    exact this

/-- No source is bound: nothing is popped. -/
theorem popSources_unbound (rs : List Reg) (s : State) (h : ∀ r ∈ rs, s.ctx.boundSlot r = none) :
    popSources rs s = .done s := by
  induction rs with
  | nil => rfl
  | cons r rs ih =>
    simp only [popSources, h r (by simp)]
    exact ih (fun q hq => h q (by simp [hq]))

/-- No destination is bound: nothing is pushed. -/
theorem pushDests_unbound (rs : List Reg) (s : State) (h : ∀ r ∈ rs, s.ctx.boundSlot r = none) :
    pushDests rs s = .done s := by
  induction rs with
  | nil => rfl
  | cons r rs ih =>
    simp only [pushDests, h r (by simp)]
    exact ih (fun q hq => h q (by simp [hq]))

/-- No source is bound: no held entry is used. -/
theorem clearHeld_unbound (rs : List Reg) (c : Ctx) (h : ∀ r ∈ rs, c.boundSlot r = none) : clearHeld rs c = c := by
  induction rs with
  | nil => rfl
  | cons r rs ih =>
    simp only [clearHeld, List.foldl_cons, h r (by simp)]
    exact ih (fun q hq => h q (by simp [hq]))

/-- Replacing the context by itself changes nothing. -/
@[simp] theorem State.setCtx_ctx_self (s : State) : s.setCtx s.ctx = s := rfl

/-- A register is bound alike in contexts of the same bindings. -/
theorem Ctx.boundSlot_of_qbinds {c d : Ctx} (h : d.qbinds = c.qbinds) (r : Reg) : d.boundSlot r = c.boundSlot r := by
  have e : d.qbind = c.qbind := by funext n; simp [Ctx.qbind, h]
  unfold Ctx.boundSlot; rw [e]

/-- Retirement where no source is bound. -/
theorem State.retire_unbound (s : State) (srcs : List Reg) (pc : Word) (h : ∀ r ∈ srcs, s.ctx.boundSlot r = none) :
    s.retire srcs pc = s.goOn pc := by
  simp [State.retire, clearHeld_unbound srcs s.ctx h, State.goOn]

/-- The end of an instruction without bound registers. -/
theorem finish_unbound (srcs dsts : List Reg) (s1 s2 : State) (pc : Word) (after : Option Cause)
    (hs : ∀ r ∈ srcs, s2.ctx.boundSlot r = none) (hd : ∀ r ∈ dsts, s2.ctx.boundSlot r = none) :
    finish srcs dsts s1 s2 pc after = match after with
      | none => s2.goOn pc
      | some c => (s2.goOn pc).takeTrap c pc := by
  unfold finish
  rw [pushDests_unbound dsts s2 hd]
  cases after <;> simp [State.retire_unbound s2 srcs pc hs]

section
variable {srcs dsts : List Reg} {body : State → SeqOut} {s : State}

/-- Plain registers: the body runs at once. -/
theorem seqRun_plain (hp : s.Plain (srcs ++ dsts)) :
    seqRun srcs dsts body s = match body s with
      | .trap s2 c => s2.fault c
      | .wait s2 k ch => s2.waitAt k ch
      | .done s2 => finish srcs dsts s s2 (s.ctx.pc + 8#64) none
      | .jump s2 pc => finish srcs dsts s s2 pc none
      | .after s2 c => finish srcs dsts s s2 (s.ctx.pc + 8#64) (some c) := by
  have h1 : (srcs ++ dsts).any s.bank.pends = false := by
    rw [List.any_eq_false]; intro r hr; simp [hp.2 r hr]
  have h2 := popSources_unbound srcs s (fun r hr => hp.1 r (by simp [hr]))
  simp only [seqRun, h1, h2, Bool.false_eq_true, if_false]
  all_goals (cases body s <;> rfl)

/-- The body retires: its state, moved on to the next instruction. -/
theorem seqRun_done {s2 : State} (hp : s.Plain (srcs ++ dsts)) (hb : body s = .done s2)
    (hq : s2.ctx.qbinds = s.ctx.qbinds) : seqRun srcs dsts body s = s2.goOn s.pc8 := by
  rw [seqRun_plain hp, hb]
  exact finish_unbound _ _ _ _ _ _ (fun r hr => by rw [Ctx.boundSlot_of_qbinds hq]; exact hp.1 r (by simp [hr]))
    (fun r hr => by rw [Ctx.boundSlot_of_qbinds hq]; exact hp.1 r (by simp [hr]))

/-- The body jumps: its state at the target. -/
theorem seqRun_jump {s2 : State} {pc : Word} (hp : s.Plain (srcs ++ dsts)) (hb : body s = .jump s2 pc)
    (hq : s2.ctx.qbinds = s.ctx.qbinds) : seqRun srcs dsts body s = s2.goOn pc := by
  rw [seqRun_plain hp, hb]
  exact finish_unbound _ _ _ _ _ _ (fun r hr => by rw [Ctx.boundSlot_of_qbinds hq]; exact hp.1 r (by simp [hr]))
    (fun r hr => by rw [Ctx.boundSlot_of_qbinds hq]; exact hp.1 r (by simp [hr]))

/-- The body retires and a trap follows. -/
theorem seqRun_after {s2 : State} {c : Cause} (hp : s.Plain (srcs ++ dsts)) (hb : body s = .after s2 c)
    (hq : s2.ctx.qbinds = s.ctx.qbinds) : seqRun srcs dsts body s = (s2.goOn s.pc8).takeTrap c s.pc8 := by
  rw [seqRun_plain hp, hb]
  exact finish_unbound _ _ _ _ _ _ (fun r hr => by rw [Ctx.boundSlot_of_qbinds hq]; exact hp.1 r (by simp [hr]))
    (fun r hr => by rw [Ctx.boundSlot_of_qbinds hq]; exact hp.1 r (by simp [hr]))

/-- The body faults. -/
theorem seqRun_trap {s2 : State} {c : Cause} (hp : s.Plain (srcs ++ dsts)) (hb : body s = .trap s2 c) :
    seqRun srcs dsts body s = s2.fault c := by
  rw [seqRun_plain hp, hb]

/-- The body waits. -/
theorem seqRun_wait {s2 : State} {k : Wait} {ch : Bool} (hp : s.Plain (srcs ++ dsts)) (hb : body s = .wait s2 k ch) :
    seqRun srcs dsts body s = s2.waitAt k ch := by
  rw [seqRun_plain hp, hb]

end

/-- A clean source is consumed. -/
theorem consume_clean {s : State} {r : Reg} {n : Nat} {k : Word → SeqOut} (h : (s.rd r).pois = false) :
    consume s r n k = k (s.rd r).bits := by
  simp [consume, h]

/-- A poisoned source traps with its operand number (R347). -/
theorem consume_poisoned {s : State} {r : Reg} {n : Nat} {k : Word → SeqOut} (h : (s.rd r).pois = true) :
    consume s r n k = .trap s (Cause.poison n) := by
  simp [consume, h]

end Sys2Proof.Machine
end

