-- ==== Sys2Proof/Laws/Trap.lean ====
section
/-! SUPPORT. Taking a trap and leaving a handler: everything each can do, and what it leaves alone. -/

namespace Sys2Proof.Machine

/-- Every way a trap is taken, with when (R346). -/
theorem State.takeTrap_cases (s : State) (c : Cause) (r : Word) :
    (s.ctx.atSteward = true ∧ (s.ctx.shnd && c.code != cECALL && c.code != cBRK) = true ∧ s.takeTrap c r = s.stewardFails r) ∨
    (s.ctx.atSteward = true ∧ (s.ctx.shnd && c.code != cECALL && c.code != cBRK) = false ∧ s.takeTrap c r = s.enterSteward c r) ∨
    (s.ctx.atSteward = false ∧ (c.toSteward || s.ctx.thnd) = true ∧ s.takeTrap c r = s.enterSteward c r) ∨
    (s.ctx.atSteward = false ∧ (c.toSteward || s.ctx.thnd) = false ∧ s.ctx.tvec ≠ 0#64 ∧
      s.takeTrap c r = s.enterTenant c r) ∨
    (s.ctx.atSteward = false ∧ (c.toSteward || s.ctx.thnd) = false ∧ s.ctx.tvec = 0#64 ∧
      s.takeTrap c r = (if c.code = cPREEMPT then s.sliceSave r else if c.code = cABSENT then s.absentSave r
        else if c.code = cDEADLINE then s else s.enterSteward c r)) := by
  unfold State.takeTrap
  by_cases h1 : s.ctx.atSteward = true
  · by_cases h2 : (s.ctx.shnd && c.code != cECALL && c.code != cBRK) = true
    · exact .inl ⟨h1, h2, by rw [if_pos h1, if_pos h2]⟩
    · exact .inr (.inl ⟨h1, by simpa using h2, by rw [if_pos h1, if_neg h2]⟩)
  · by_cases h3 : (c.toSteward || s.ctx.thnd) = true
    · exact .inr (.inr (.inl ⟨by simpa using h1, h3, by rw [if_neg h1, if_pos h3]⟩))
    · by_cases h4 : s.ctx.tvec = 0#64
      · exact .inr (.inr (.inr (.inr ⟨by simpa using h1, by simpa using h3, h4, by rw [if_neg h1, if_neg h3, if_pos h4]⟩)))
      · exact .inr (.inr (.inr (.inl ⟨by simpa using h1, by simpa using h3, h4, by rw [if_neg h1, if_neg h3, if_neg h4]⟩)))

/-- Entering the tenant handler changes the context only: TEPC, TVAL, TCAUSE, TBUDGET, the handler's bank,
THND, the program counter (R348). -/
theorem State.enterTenant_frame (s : State) (c : Cause) (r : Word) :
    { s.enterTenant c r with ctx := s.ctx } = s ∧
    { (s.enterTenant c r).ctx with
      tepc := s.ctx.tepc, tval := s.ctx.tval, tcause := s.ctx.tcause, tbudget := s.ctx.tbudget, tbank := s.ctx.tbank
      thnd := s.ctx.thnd, pc := s.ctx.pc, sliceOld := s.ctx.sliceOld } = s.ctx := ⟨rfl, rfl⟩

/-- Entering the steward handler changes the context only: SEPC, SVAL, SCAUSE, the handler's bank, SHND, the
program counter (R348). -/
theorem State.enterSteward_frame (s : State) (c : Cause) (r : Word) :
    { s.enterSteward c r with ctx := s.ctx } = s ∧
    { (s.enterSteward c r).ctx with
      sepc := s.ctx.sepc, sval := s.ctx.sval, scause := s.ctx.scause, sbank := s.ctx.sbank, shnd := s.ctx.shnd
      pc := s.ctx.pc } = s.ctx := ⟨rfl, rfl⟩

/-- A steward handler is at STEWARD level from its first instruction. -/
theorem State.enterSteward_atSteward (s : State) (c : Cause) (r : Word) : (s.enterSteward c r).ctx.atSteward = true := by
  simp [State.enterSteward, Ctx.atSteward]

/-- Leaving the steward handler changes the context only (R316). -/
theorem State.leaveSteward_frame (s : State) : { s.leaveSteward with ctx := s.ctx } = s := rfl

end Sys2Proof.Machine
end

