-- ==== Sys2Proof/Tests/Slice0.lean ====
section
/-! SUPPORT. Tests: words of the manual decode, ill-formed terms are refused, and for every statement with
hypotheses a state and operands that meet them, clause by clause. Expected values are the manual's. -/

open Sys2Proof Sys2Proof.Machine

namespace Sys2Proof.Tests

set_option exponentiation.threshold 1000
set_option Elab.async false

/-! ### Small states -/

/-- A running TENANT context of device 1, partition 1, on core 0, at 0x10000. -/
def ctxT : Ctx := { Ctx.blank with id := 4096, place := .core 0, pc := 0x10000#64, vdn := 1#6, part := 1#4 }

/-- The translation of the low 2 MiB of a device to themselves. -/
def page (vd : Nat) : TlbEntry :=
  { core := true, unit := 0, vdn := vd, vbase := 0, size := 2097152, pa := 0, r := true, w := true, x := true, nl1 := false, m := false }

/-- The module running that context, its pages translated, at 5,000 ns. -/
def stT : State := { State.reset with
  boot := .running, now := 5000, ctx := ctxT, cores := [(0, { CoreSlot.zero with run := some 4096 })], tlb := [page 1] }

/-- The same with a STEWARD context. -/
def stS : State := { stT with ctx := { ctxT with level := .steward, vdn := 0#6, part := 0#4 }, tlb := [page 0] }

/-- Changes the running context. -/
def withCtx (s : State) (f : Ctx → Ctx) : State := { s with ctx := f s.ctx }

/-- Gives scalar registers of base code clean values. -/
def withS (s : State) (l : List (Nat × Word)) : State :=
  withCtx s (fun c => { c with base := { c.base with s := l.map (fun e => (e.1, ({ bits := e.2, pois := false } : SReg))) } })

/-- Poisons a scalar register of base code. -/
def poisonS (s : State) (r : Nat) : State :=
  withCtx s (fun c => { c with base := c.base.setS r { bits := 9#64, pois := true } })

/-- Places bytes in memory. -/
def withMem (s : State) (pa n v : Nat) : State := { s with mem := Sparse.setList memDefault s.mem pa (bytesOfNat n v) }

/-- Without bindings and V entries no register is bound or pending. -/
theorem plain_of {s : State} (h : s.ctx.qbinds = []) (hv : s.bank.qV = []) (rs : List Reg) : s.Plain rs := by
  refine ⟨fun r _ => ?_, fun r _ => by simp [RegBank.pends, hv]⟩
  simp only [Ctx.boundSlot, Ctx.qbind, h, Sparse.get_nil, QBinding.zero, Option.isSome_none]
  cases queueSlot r <;> rfl

/-- A queue descriptor at 0x20000 with its ring of 16 entries at 0x30000. -/
def withQueue (s : State) (closed : Bool) (pushed popped : Nat) : State :=
  withMem s 0x20000 64 (0x30000 + 2 ^ 64 * (4 + if closed then 256 else 0) + 2 ^ 128 * pushed + 2 ^ 192 * popped)

/-- Partition 1 enabled on core 0, with 16 heap entries, one scheduler queue of device 1, four save areas. -/
def withPart (s : State) : State :=
  let m : Sparse Word := [(0x401, BitVec.ofNat 64 (2 ^ 63 + 16 * 2 ^ 40 + 1000 * 2 ^ 30 + 10 * 2 ^ 20 + 1600)),
    (0x421, 0x50001#64), (0x431, 0x100004#64), (0x460, 1#64), (0x5C1, BitVec.ofNat 64 (2 ^ 63 + 2 ^ 56 + 1000 * 2 ^ 36))]
  { s with
    committed := m, staged := m, boot := .running
    qcfgs := [(64, { QCfg.zero with en := true, cls := 1, vd := 1, sp := 16, ssh := 12, tp := 0x60000#64, stack := 0x70000#64 })] }

/-- The bits of a task record of queue 0: entry 0x10000, argument 7, budget 1,000, INTERACTIVE, crew 1. -/
def recordNat : Nat := 0x1010000000003e8000000000089544000000000000000000000000000000007000000000000000000000000000000000000000000010000

/-- A task of partition 1, queue 0, that has not run. -/
def taskT : Task :=
  { id := 0, record := 0x40000#64, part := 1, queue := 0, vdn := 1, die := 0, entry0 := 0x10000#64, entry1 := none, entry2 := none
    entry3 := none, arg := 7#64, release := 0, deadline := 9000000, sched := 9000000, budget := 1000, prog := 0, cls := 1, miss := 0
    fullt := false, regabs := false, ptag := false, pairs := [], crew := 1, lnote := 0#32, claunch := 0#64, cgraph := 0#64
    cphase := 0#64, cjob := 0#64, state := .pending, disp := 0, dispatched := false, members := [], slots := [], missed := false, used := 0
    overflow := false, hostq := none, deadTold := false, overTold := false, pfw := 0, yielded := false, paused := false }

/-- The running context is the one member of a running task. -/
def withTask (s : State) (f : Task → Task) : State :=
  { withCtx s (fun c => { c with task := some 0 }) with
    tasks := [f { taskT with state := .running, dispatched := true, members := [4096] }], postSeq := 1 }

/-- A region of partition 1 at 0x80000, 256 sectors, floor 2, its first sector's versions given; the context is attached. -/
def regionT (vers : List Ver) : Region :=
  { part := 1, base := 0x80000#64, sectors := 256, floor := 2, retain := 0, mirror := false, atts := [4096]
    secs := [(0, { vers := vers, waiters := [] })] }

/-- Version 3, existing, its first 64 bytes marked. -/
def ver3 : Ver := { num := 3, exist := true, data := 5#2048, marks := 1#4, scope := 3, who := .core 0, only := none }

/-- The module with that region and a heap of 64 KiB; tile register 4 is FULL. -/
def withRegion (s : State) (vers : List Ver) : State :=
  let s1 := withPart s
  withCtx { s1 with regions := [regionT vers], committed := s1.committed ++ [(0x681, 0x200001#64)] }
    (fun c => { c with rslots := [(0, some 0x80000#64)], tiles := [(4, { Tile.entry with state := .full })] })

/-- Tables at both stages, for partitions 0 and 1 and devices 0 and 1, that map the low 1 GiB to itself. -/
def withTables (s : State) : State :=
  withMem (withMem { s with committed := s.committed ++ [(0x440, 0x1000000#64), (0x441, 0x1000000#64), (0x600, 0x1000000#64),
    (0x601, 0x1000000#64)] } 0x1000000 8 0x1001003) 0x1001000 8 0x1D

/-- A second context, of STEWARD level and no task, resident on core 1. -/
def other : Ctx := { Ctx.blank with id := 8192, place := .core 1, level := .steward, pc := 0x10000#64 }

/-- The module with another context, changed, resident or not. -/
def withOther (s : State) (f : Ctx → Ctx) : State :=
  let c := f other
  { s with ctxs := [c], cores := s.cores ++ (match c.place with
    | .core p => [(p, { CoreSlot.zero with run := some 8192 })]
    | _ => []) }

/-- A queue entry with nothing read. -/
def entryT (i : Instr) : Entry :=
  { instr := i, val := 0#64, i1 := 0#6, i2 := 0#6, idst := 0#6, bad := false, sPend := false, popsTaken := false, pushOwed := false
    rows := 0, stamp := { vc := 64#7, ashape := 15#4, emode := 0#4, sqp := 0#12 }, addr := 0x10000#64
    offs := [], late := [], stall := .none }

/-- No line. -/
def lineZ : Line := { tile := 0#4, dir := 0#2, fromReg := false, idx := 0#6, last := false }

/-- No tokens. -/
def tokZ : Tok := { wl := false, wr := false, gl := false, gr := false }

/-- Operands of a line instruction, all zero. -/
def flnZ : FLN :=
  { tok := tokZ, acq := false, rel := false, scope := 0#3, line := lineZ, a := 0#6, off := 0#16, slu := false, param := 0#6 }

/-- Operands of a macro operation, all zero. -/
def fxmZ : FXM := { tok := tokZ, p := false, line := lineZ, at_ := 0#5, bt := 0#5, nstep := 0#8, param := 0#12 }

/-- A wait begun at 5,000 ns. -/
def waitZ : WaitSt := { pc := 0x10000#64, kind := .other, since := 5000, checked := false, cover := [], given := .nothing }

/-! ### Witnesses: scalar instructions and control -/

theorem wit_ScalarResultWritten : let s := withS stT [(1, 5#64), (2, 7#64)]
    let i : Instr := .add { sp := false, d := 3#6, a := 1#6, b := 2#6 }
    Say.saluForm (Say.vals s) i = some (3#6, false, [(1, 1#6), (2, 2#6)]) ∧ Say.saluValue (Say.vals s) i = some 12#64 ∧
    s.Plain (Say.saluRegs i) ∧ s.Clean [1#6, 2#6] :=
  ⟨by decide, by decide, plain_of rfl rfl _, by unfold State.Clean; decide⟩

theorem wit_PoisonedScalarSource : let s := poisonS stT 2
    let i : Instr := .add { sp := true, d := 3#6, a := 1#6, b := 2#6 }
    Say.saluForm (Say.vals s) i = some (3#6, true, [(1, 1#6), (2, 2#6)]) ∧ (Say.saluValue (Say.vals s) i).isSome = true ∧
    s.Plain (Say.saluRegs i) ∧ [((1 : Nat), (1#6 : Reg)), (2, 2#6)].find? (fun e => (s.rd e.2).pois) = some (2, 2#6) :=
  ⟨by decide, by decide, plain_of rfl rfl _, by decide⟩

/-- Registers that are not bound, a poisoned one among them (R164). -/
theorem wit_PoisonTestAndClear : (poisonS stT 1).Plain [1#6, 3#6] ∧ ((poisonS stT 1).rd 1#6).pois = true ∧ (stT.rd 1#6).pois = false :=
  ⟨plain_of rfl rfl _, by decide, by decide⟩

/-- A register that is not bound, s0 too (R38). -/
theorem wit_RetirementFrame : stT.ctx.boundSlot 3#6 = none ∧ stT.ctx.boundSlot 0#6 = none := by decide

/-- An aligned target, one that is not, a poisoned register (R167). -/
theorem wit_JumpsReachTheirTarget : let s := withS stT [(1, 0x10004#64)]
    s.Plain [1#6, 3#6] ∧ (BitVec.ofInt 64 ((s.rd 1#6).bits.toInt + (4#36).toInt)).toNat % 8 = 0 ∧
    (BitVec.ofInt 64 ((s.rd 1#6).bits.toInt + (1#36).toInt)).toNat % 8 ≠ 0 ∧ ((poisonS stT 1).rd 1#6).pois = true :=
  ⟨plain_of rfl rfl _, by decide, by decide, by decide⟩

/-- A time reached and one not; FIFOs with room and without, with tokens and without (R175 to R177, R149, R150). -/
theorem wit_TimeBeatAndTokens : let s := withS stT [(1, 5000#64), (2, 5001#64)]
    s.Plain [1#6, 2#6] ∧ (s.rd 1#6).bits.toNat ≤ (Say.guest s s.ctx.vdn.toNat).toNat ∧ ¬ (s.rd 2#6).bits.toNat ≤ (Say.guest s s.ctx.vdn.toNat).toNat ∧
    s.bank.fifo.sl + 8 ≤ 8 ∧ ¬ s.bank.fifo.sl + 9 ≤ 8 ∧ ¬ 1 ≤ s.bank.fifo.ls :=
  ⟨plain_of rfl rfl _, by decide, by decide, by decide, by decide, by decide⟩

/-- TENANT base code with a handler and without one; a STEWARD context (R174, R342, R346). -/
theorem wit_CallsTrapAfterRetiring : let s := withCtx stT (fun c => { c with tvec := 0x20000#64 })
    (s.ctx.level = .tenant ∧ s.ctx.risen = false ∧ s.ctx.thnd = false ∧ s.ctx.shnd = false ∧ s.ctx.tvec ≠ 0#64) ∧
    stT.ctx.tvec = 0#64 ∧ stS.ctx.level = .steward := by decide

/-- Both outcomes of a comparison, a poisoned A, a poisoned B (R168, R166). -/
theorem wit_BranchesGoWhereTaken : let f : FABOff := { a := 1#6, b := 2#6, off := 3#30 }
    (Say.branch (Say.vals (withS stT [(1, 5#64), (2, 5#64)])) (.beq f)).isSome = true ∧ (withS stT [(1, 5#64), (2, 5#64)]).Plain [1#6, 2#6] ∧
    Say.vals (withS stT [(1, 5#64), (2, 5#64)]) 1#6 = Say.vals (withS stT [(1, 5#64), (2, 5#64)]) 2#6 ∧
    Say.vals (withS stT [(1, 5#64)]) 1#6 ≠ Say.vals (withS stT [(1, 5#64)]) 2#6 ∧
    ((poisonS stT 1).rd 1#6).pois = true ∧ ((poisonS stT 2).rd 1#6).pois = false ∧ ((poisonS stT 2).rd 2#6).pois = true :=
  ⟨by decide, plain_of rfl rfl _, by decide, by decide, by decide, by decide, by decide⟩

theorem wit_HandlersAreEntered_tenant : let s := withCtx stT (fun c => { c with tvec := 0x20000#64 })
    let c := Cause.seq 0x07#8 1 0#64
    s.ctx.level = .tenant ∧ s.ctx.risen = false ∧ s.ctx.thnd = false ∧ s.ctx.shnd = false ∧ s.ctx.tvec ≠ 0#64 ∧
    c.code ∉ [0x0F#8, 0x13#8, 0x14#8, 0x19#8] ∧ ¬ (c.code ∈ [0x04#8, 0x05#8] ∧ c.sub = 1#8) ∧ c.unit < 8 ∧ c.ch < 8 := by decide

/-- Each way to the steward handler: STEWARD code, an open tenant handler, a cause of route S, a stage-two fault,
no tenant vector; and the second fault. -/
theorem wit_HandlersAreEntered_steward : stS.ctx.shnd = false ∧ stS.ctx.level = .steward ∧
    (withCtx stT (fun c => { c with thnd := true })).ctx.thnd = true ∧ stT.ctx.shnd = false ∧
    (Cause.seq 0x14#8 0 0#64).code ∈ [0x0F#8, 0x13#8, 0x14#8, 0x19#8] ∧
    ((Cause.seq 0x05#8 1 0#64).code ∈ [0x04#8, 0x05#8] ∧ (Cause.seq 0x05#8 1 0#64).sub = 1#8) ∧
    (withCtx stT (fun c => { c with risen := true })).ctx.risen = true ∧
    (stT.ctx.tvec = 0#64 ∧ (Cause.seq 0x02#8 0 0#64).code ∉ [0x12#8, 0x09#8, 0x11#8]) ∧
    (withCtx stS (fun c => { c with shnd := true })).ctx.shnd = true := by decide

/-- A tenant handler that ends, one with an entry on a shelf, none; a steward handler, none. -/
theorem wit_HandlersReturnSpillAndFill_return : let h := withCtx stT (fun c => { c with thnd := true, tcause := 0x07#64, tepc := 0x10008#64 })
    (h.ctx.thnd = true ∧ h.ctx.shnd = false ∧ h.ctx.tbank.qL = [] ∧ h.ctx.tbank.qX = [] ∧ h.ctx.tbank.qV = [] ∧
      h.ctx.tbank.qS = [] ∧ h.ctx.tcause.toNat % 256 ≠ 0x12 ∧ ∀ p ∈ h.ctx.posted, p.code ≠ 0x12#8) ∧
    (∃ e : Entry, (withCtx h (fun c => { c with tbank := { c.tbank with qL := [e] } })).ctx.tbank.qL ≠ []) ∧
    (withCtx h (fun c => { c with sliceOld := true })).ctx.sliceOld = true ∧
    ¬ (stT.ctx.thnd = true ∧ stT.ctx.shnd = false) ∧ stT.ctx.shnd = false ∧
    (withCtx stT (fun c => { c with shnd := true })).ctx.shnd = true :=
  ⟨by decide, ⟨entryT .nop, by decide⟩, by decide, by decide, by decide,
    by decide⟩

/-! ### Words: each constructor with a word of its own, its word laid out from the encoding tables (R137 to R146) -/

/-- SALU words, with SP and without. -/
theorem test_decode_salu_0 :
    decode 0x0000000000000000#64 = some (.nop) ∧
    decode 0x001014A4C0000000#64 = some (.add { sp := false, d := 5#6, a := 10#6, b := 19#6 }) ∧
    decode 0x002814A4C0000000#64 = some (.sub { sp := true, d := 5#6, a := 10#6, b := 19#6 }) ∧
    decode 0x003014A4C0000000#64 = some (.mul { sp := false, d := 5#6, a := 10#6, b := 19#6 }) ∧
    decode 0x004814A4C0000000#64 = some (.mulh { sp := true, d := 5#6, a := 10#6, b := 19#6 }) ∧
    decode 0x005014A4C0000000#64 = some (.mulhn { sp := false, d := 5#6, a := 10#6, b := 19#6 }) ∧
    decode 0x006814A4C0000000#64 = some (.div { sp := true, d := 5#6, a := 10#6, b := 19#6 }) ∧
    decode 0x007014A4C0000000#64 = some (.divn { sp := false, d := 5#6, a := 10#6, b := 19#6 }) := by decide

/-- SALU words, with SP and without. -/
theorem test_decode_salu_1 :
    decode 0x008814A4C0000000#64 = some (.rem { sp := true, d := 5#6, a := 10#6, b := 19#6 }) ∧
    decode 0x009014A4C0000000#64 = some (.remn { sp := false, d := 5#6, a := 10#6, b := 19#6 }) ∧
    decode 0x010014A4C0000000#64 = some (.and { sp := false, d := 5#6, a := 10#6, b := 19#6 }) ∧
    decode 0x011814A4C0000000#64 = some (.or { sp := true, d := 5#6, a := 10#6, b := 19#6 }) ∧
    decode 0x012014A4C0000000#64 = some (.xor { sp := false, d := 5#6, a := 10#6, b := 19#6 }) ∧
    decode 0x013814A4C0000000#64 = some (.andn { sp := true, d := 5#6, a := 10#6, b := 19#6 }) ∧
    decode 0x014014A4C0000000#64 = some (.shl { sp := false, d := 5#6, a := 10#6, b := 19#6 }) ∧
    decode 0x015814A4C0000000#64 = some (.shr { sp := true, d := 5#6, a := 10#6, b := 19#6 }) := by decide

/-- SALU words, with SP and without. -/
theorem test_decode_salu_2 :
    decode 0x016014A4C0000000#64 = some (.shra { sp := false, d := 5#6, a := 10#6, b := 19#6 }) ∧
    decode 0x017814A4C0000000#64 = some (.rotl { sp := true, d := 5#6, a := 10#6, b := 19#6 }) ∧
    decode 0x018014A000000000#64 = some (.clz { sp := false, d := 5#6, a := 10#6 }) ∧
    decode 0x019014A000000000#64 = some (.ctz { sp := false, d := 5#6, a := 10#6 }) ∧
    decode 0x01A014A000000000#64 = some (.popc { sp := false, d := 5#6, a := 10#6 }) ∧
    decode 0x01B014A000000021#64 = some (.sext { sp := false, d := 5#6, a := 10#6, len := 33#6 }) ∧
    decode 0x01C014A000000021#64 = some (.zext { sp := false, d := 5#6, a := 10#6, len := 33#6 }) ∧
    decode 0x020014A4C0000000#64 = some (.min { sp := false, d := 5#6, a := 10#6, b := 19#6 }) := by decide

/-- SALU words, with SP and without. -/
theorem test_decode_salu_3 :
    decode 0x021014A4C0000000#64 = some (.max { sp := false, d := 5#6, a := 10#6, b := 19#6 }) ∧
    decode 0x022014A4C0000000#64 = some (.minn { sp := false, d := 5#6, a := 10#6, b := 19#6 }) ∧
    decode 0x023014A4C0000000#64 = some (.maxn { sp := false, d := 5#6, a := 10#6, b := 19#6 }) ∧
    decode 0x024014A4C0000000#64 = some (.seteq { sp := false, d := 5#6, a := 10#6, b := 19#6 }) ∧
    decode 0x025014A4C0000000#64 = some (.setlt { sp := false, d := 5#6, a := 10#6, b := 19#6 }) ∧
    decode 0x026014A4C0000000#64 = some (.setltn { sp := false, d := 5#6, a := 10#6, b := 19#6 }) := by decide

/-- SALU words with further fields and immediates. -/
theorem test_decode_salu2_0 :
    decode 0x027814A4EC000000#64 = some (.csel { sp := true, d := 5#6, a := 10#6, b := 19#6, c := 44#6 }) ∧
    decode 0x028014A4C0000003#64 = some (.addsh { sp := false, d := 5#6, a := 10#6, b := 19#6, len := 3#6 }) ∧
    decode 0x029014A0000001F9#64 = some (.bfx { sp := false, d := 5#6, a := 10#6, pos := 7#6, len := 57#6 }) ∧
    decode 0x02A014A000000FC1#64 = some (.bfi { sp := false, d := 5#6, a := 10#6, pos := 63#6, len := 1#6 }) ∧
    decode 0x030814A000000000#64 = some (.pois { sp := true, d := 5#6, a := 10#6 }) ∧
    decode 0x031014A000000000#64 = some (.unpois { sp := false, d := 5#6, a := 10#6 }) ∧
    decode 0x032014A4EC000000#64 = some (.chash { sp := false, d := 5#6, a := 10#6, b := 19#6, c := 44#6 }) ∧
    decode 0x040014AFFFFFFFFD#64 = some (.addi { sp := false, d := 5#6, a := 10#6, imm := 68719476733#36 }) := by decide

/-- SALU words with further fields and immediates. -/
theorem test_decode_salu2_1 :
    decode 0x041014AFFFFFFFFC#64 = some (.andi { sp := false, d := 5#6, a := 10#6, imm := 68719476732#36 }) ∧
    decode 0x042014AFFFFFFFFB#64 = some (.ori { sp := false, d := 5#6, a := 10#6, imm := 68719476731#36 }) ∧
    decode 0x043014AFFFFFFFFA#64 = some (.xori { sp := false, d := 5#6, a := 10#6, imm := 68719476730#36 }) ∧
    decode 0x044014A00000003F#64 = some (.shli { sp := false, d := 5#6, a := 10#6, imm := 63#36 }) ∧
    decode 0x045014A00000003E#64 = some (.shri { sp := false, d := 5#6, a := 10#6, imm := 62#36 }) ∧
    decode 0x046014A00000003D#64 = some (.shrai { sp := false, d := 5#6, a := 10#6, imm := 61#36 }) ∧
    decode 0x0470140800000000#64 = some (.li { sp := false, d := 5#6, imm := 34359738368#36 }) ∧
    decode 0x048014A00FFFFFFF#64 = some (.lih { sp := false, d := 5#6, a := 10#6, imm := 268435455#36 }) := by decide

/-- CTRL words. -/
theorem test_decode_ctrl_0 :
    decode 0x100000003FFFFFFE#64 = some (.j { off := 1073741822#30 }) ∧
    decode 0x101014001FFFFFFF#64 = some (.jl { d := 5#6, off := 536870911#30 }) ∧
    decode 0x102000AFFFFFFFF8#64 = some (.jr { a := 10#6, imm := 68719476728#36 }) ∧
    decode 0x103014A000000010#64 = some (.jlr { d := 5#6, a := 10#6, imm := 16#36 }) ∧
    decode 0x104000A4FFFFFFFF#64 = some (.beq { a := 10#6, b := 19#6, off := 1073741823#30 }) ∧
    decode 0x105000A4FFFFFFFE#64 = some (.bne { a := 10#6, b := 19#6, off := 1073741822#30 }) ∧
    decode 0x106000A4FFFFFFFD#64 = some (.blt { a := 10#6, b := 19#6, off := 1073741821#30 }) ∧
    decode 0x107000A4FFFFFFFC#64 = some (.bge { a := 10#6, b := 19#6, off := 1073741820#30 }) := by decide

/-- CTRL words. -/
theorem test_decode_ctrl_1 :
    decode 0x108000A4FFFFFFFB#64 = some (.bltn { a := 10#6, b := 19#6, off := 1073741819#30 }) ∧
    decode 0x109000A4FFFFFFFA#64 = some (.bgen { a := 10#6, b := 19#6, off := 1073741818#30 }) ∧
    decode 0x10A000403FFFFFFD#64 = some (.loop { a := 4#6, off := 1073741821#30 }) ∧
    decode 0x1100000000000000#64 = some (.halt) ∧
    decode 0x1110000000000000#64 = some (.yield) ∧
    decode 0x1120000000000000#64 = some (.beat) ∧
    decode 0x1130000000000009#64 = some (.brk { imm := 9#36 }) ∧
    decode 0x1180140000000000#64 = some (.time { d := 5#6 }) := by decide

/-- CTRL words. -/
theorem test_decode_ctrl_2 :
    decode 0x1190140000000000#64 = some (.vcyc { d := 5#6 }) ∧
    decode 0x11A000A000000000#64 = some (.waitt { a := 10#6 }) ∧
    decode 0x120350A000000001#64 = some (.qpop { scope := 3#3, d := 20#6, a := 10#6, tryF := true }) ∧
    decode 0x121414A4C0000000#64 = some (.qpush { scope := 4#3, d := 5#6, a := 10#6, b := 19#6, tryF := false }) ∧
    decode 0x1220000000000006#64 = some (.qbind { scope := 0#3, a := 0#6, unb := true, q := 2#2 }) ∧
    decode 0x128014A4C0000000#64 = some (.spawn { d := 5#6, a := 10#6, b := 19#6 }) ∧
    decode 0x1290140000000002#64 = some (.phase { d := 5#6, tag := true, wait := false }) ∧
    decode 0x1300000000000008#64 = some (.tkgive { n := 8#4 }) := by decide

/-- CTRL words. -/
theorem test_decode_ctrl_3 :
    decode 0x1310000000000001#64 = some (.tktake { n := 1#4 }) := by decide

/-- MEM words: accesses, atomics, counters, bindings. -/
theorem test_decode_mem_0 :
    decode 0x200814A000FFFFF8#64 = some (.ld { sp := true, d := 5#6, a := 10#6, w := 0#2, off := 16777208#24 }) ∧
    decode 0x201814A010FFFFF8#64 = some (.lds { sp := true, d := 5#6, a := 10#6, w := 1#2, off := 16777208#24 }) ∧
    decode 0x203814A030FFFFF8#64 = some (.ldl { sp := true, d := 5#6, a := 10#6, w := 3#2, off := 16777208#24 }) ∧
    decode 0x202000A4E000000C#64 = some (.st { a := 10#6, b := 19#6, w := 2#2, off := 12#24 }) ∧
    decode 0x204000A4E000000C#64 = some (.stl { a := 10#6, b := 19#6, w := 2#2, off := 12#24 }) ∧
    decode 0x208214A4E0000010#64 = some (.atomAdd { scope := 2#3, d := 5#6, a := 10#6, b := 19#6, w := 2#2, off := 16#24 }) ∧
    decode 0x208214A4F1000010#64 = some (.atomAnd { scope := 2#3, d := 5#6, a := 10#6, b := 19#6, w := 3#2, off := 16#24 }) ∧
    decode 0x208214A4E2000010#64 = some (.atomOr { scope := 2#3, d := 5#6, a := 10#6, b := 19#6, w := 2#2, off := 16#24 }) := by decide

/-- MEM words: accesses, atomics, counters, bindings. -/
theorem test_decode_mem_1 :
    decode 0x208214A4F3000010#64 = some (.atomXor { scope := 2#3, d := 5#6, a := 10#6, b := 19#6, w := 3#2, off := 16#24 }) ∧
    decode 0x208214A4E4000010#64 = some (.atomMin { scope := 2#3, d := 5#6, a := 10#6, b := 19#6, w := 2#2, off := 16#24 }) ∧
    decode 0x208214A4F5000010#64 = some (.atomMax { scope := 2#3, d := 5#6, a := 10#6, b := 19#6, w := 3#2, off := 16#24 }) ∧
    decode 0x208214A4E6000010#64 = some (.atomMinn { scope := 2#3, d := 5#6, a := 10#6, b := 19#6, w := 2#2, off := 16#24 }) ∧
    decode 0x208214A4F7000010#64 = some (.atomMaxn { scope := 2#3, d := 5#6, a := 10#6, b := 19#6, w := 3#2, off := 16#24 }) ∧
    decode 0x208214A4E8000010#64 = some (.atomSwap { scope := 2#3, d := 5#6, a := 10#6, b := 19#6, w := 2#2, off := 16#24 }) ∧
    decode 0x209114A4F0000010#64 = some (.cas { scope := 1#3, d := 5#6, a := 10#6, b := 19#6, w := 3#2, off := 16#24 }) ∧
    decode 0x210400A4C0000008#64 = some (.csig { scope := 4#3, a := 10#6, b := 19#6, off := 8#24 }) := by decide

/-- MEM words: accesses, atomics, counters, bindings. -/
theorem test_decode_mem_2 :
    decode 0x211300A4C0000008#64 = some (.cwait { scope := 3#3, a := 10#6, b := 19#6, off := 8#24 }) ∧
    decode 0x212014A000FFFFF8#64 = some (.cread { scope := 0#3, d := 5#6, a := 10#6, off := 16777208#24 }) ∧
    decode 0x2134000000000000#64 = some (.fence { scope := 4#3 }) ∧
    decode 0x214014A4EC000000#64 = some (.bind { d := 5#6, a := 10#6, b := 19#6, c := 44#6 }) ∧
    decode 0x215014A02C000000#64 = some (.unbind { d := 5#6, a := 10#6, c := 44#6 }) := by decide

/-- MEM words: versions, banks, gutters, landing buffers. -/
theorem test_decode_mem2_0 :
    decode 0x220014A00000003F#64 = some (.vregion { d := 5#6, a := 10#6, imm := 63#36 }) ∧
    decode 0x221B14A4D9508000#64 = some (.vld { sp := true, scope := 3#3, d := 5#6, a := 10#6, b := 19#6, mode := 1#2, line := { tile := 9#4, dir := 1#2, fromReg := false, idx := 33#6, last := false } }) ∧
    decode 0x222214A4EC000000#64 = some (.vlds { sp := false, scope := 2#3, d := 5#6, a := 10#6, b := 19#6, c := 44#6, mode := 0#2 }) ∧
    decode 0x223100A4CEEAC000#64 = some (.vst { scope := 1#3, a := 10#6, b := 19#6, line := { tile := 14#4, dir := 3#2, fromReg := true, idx := 21#6, last := true } }) ∧
    decode 0x224400A4EC200000#64 = some (.vsts { scope := 4#3, a := 10#6, b := 19#6, c := 44#6, fin := true }) ∧
    decode 0x225000A4C0000000#64 = some (.vfloor { a := 10#6, b := 19#6 }) ∧
    decode 0x226014A000000000#64 = some (.vnewest { d := 5#6, a := 10#6 }) ∧
    decode 0x2300000837800000#64 = some (.bpol { pol := 2#2, kind := true, idx := 47#6 }) := by decide

/-- MEM words: versions, banks, gutters, landing buffers. -/
theorem test_decode_mem2_1 :
    decode 0x2310000007800000#64 = some (.bwake { kind := false, idx := 15#6 }) ∧
    decode 0x2320000026000000#64 = some (.bdrop { kind := true, idx := 12#6 }) ∧
    decode 0x2330140004800000#64 = some (.bstate { d := 5#6, kind := false, idx := 9#6 }) ∧
    decode 0x238000A00FFFF000#64 = some (.gwait { a := 10#6, idx := 15#6, n := 4095#12 }) ∧
    decode 0x239000A003002000#64 = some (.grel { a := 10#6, idx := 3#6, n := 2#12 }) ∧
    decode 0x23A0200003000000#64 = some (.gstat { d := 8#6, idx := 3#6 }) ∧
    decode 0x23B000001F000000#64 = some (.lbfree { idx := 31#6 }) ∧
    decode 0x23C0140005000000#64 = some (.lbusy { d := 5#6, idx := 5#6 }) := by decide

/-- SYS words. -/
theorem test_decode_sys_0 :
    decode 0x3000580000000008#64 = some (.csrr { d := 22#6, csr := 8#12 }) ∧
    decode 0x301000D000000004#64 = some (.csrw { a := 13#6, csr := 4#12 }) ∧
    decode 0x302014A000000002#64 = some (.csrs { d := 5#6, a := 10#6, csr := 2#12 }) ∧
    decode 0x303014A000000003#64 = some (.csrc { d := 5#6, a := 10#6, csr := 3#12 }) ∧
    decode 0x300014000000000D#64 = some (.cpfstatRead { d := 5#6 }) ∧
    decode 0x3000140000000303#64 = some (.sevlostRead { d := 5#6 }) ∧
    decode 0x301000A000000300#64 = some (.sevbaseWrite { a := 10#6 }) ∧
    decode 0x301000A00000001F#64 = some (.gcfgWrite { a := 10#6, n := 15#4 }) := by decide

/-- SYS words. -/
theorem test_decode_sys_1 :
    decode 0x301000A00000003F#64 = some (.lbdWrite { a := 10#6, n := 31#5 }) ∧
    decode 0x3080000000000007#64 = some (.ecall { imm := 7#36 }) ∧
    decode 0x3090000000000000#64 = some (.tret) ∧
    decode 0x30A0000000000000#64 = some (.sret) ∧
    decode 0x30B014A000000000#64 = some (.fwcallIdentity { d := 5#6, a := 10#6, imm := 0#36 }) ∧
    decode 0x30B014A000000001#64 = some (.fwcallMeasurementLog { d := 5#6, a := 10#6 }) ∧
    decode 0x30B014A000000002#64 = some (.fwcallQuote { d := 5#6, a := 10#6 }) ∧
    decode 0x30B014A000000003#64 = some (.fwcallRepairMap { d := 5#6, a := 10#6 }) := by decide

/-- SYS words. -/
theorem test_decode_sys_2 :
    decode 0x30B014A000000004#64 = some (.stage2Map { d := 5#6, a := 10#6 }) ∧
    decode 0x30B014A000000005#64 = some (.pageRetirement { d := 5#6, a := 10#6 }) ∧
    decode 0x30B014A000000006#64 = some (.windowDeclare { d := 5#6, a := 10#6 }) ∧
    decode 0x3100000020800000#64 = some (.tspill { kind := true, idx := 1#6 }) ∧
    decode 0x3110000007800000#64 = some (.tfill { kind := false, idx := 15#6 }) ∧
    decode 0x312014A000000000#64 = some (.ctxsave { d := 5#6, a := 10#6 }) ∧
    decode 0x313014A000000000#64 = some (.ctxload { d := 5#6, a := 10#6 }) ∧
    decode 0x318300A4C0000000#64 = some (.tlbinv { scope := 3#3, a := 10#6, b := 19#6 }) := by decide

/-- SYS words. -/
theorem test_decode_sys_3 :
    decode 0x319000A4C0000000#64 = some (.zerorange { a := 10#6, b := 19#6 }) ∧
    decode 0x31A0000000000000#64 = some (.psync) ∧
    decode 0x31B000A000000000#64 = some (.wdog { a := 10#6 }) ∧
    decode 0x31C000A4C0000000#64 = some (.dlvl { a := 10#6, b := 19#6 }) ∧
    decode 0x31D014A4C0000000#64 = some (.cancel { d := 5#6, a := 10#6, b := 19#6 }) := by decide

/-- L words. -/
theorem test_decode_load_0 :
    decode 0x4009A4A8457F8040#64 = some (.lline { tok := { wl := true, wr := false, gl := false, gr := true }, acq := true, rel := false, scope := 4#3, line := { tile := 9#4, dir := 1#2, fromReg := false, idx := 33#6, last := false }, a := 10#6, off := 65280#16, slu := true, param := 0#6 }) ∧
    decode 0x401502000500203F#64 = some (.ltile { tok := { wl := false, wr := true, gl := false, gr := true }, acq := false, rel := false, scope := 0#3, line := { tile := 4#4, dir := 0#2, fromReg := false, idx := 0#6, last := false }, a := 10#6, off := 64#16, slu := false, param := 63#6 }) ∧
    decode 0x40204A0005000021#64 = some (.ltrans { tok := tokZ, acq := false, rel := true, scope := 1#3, line := { tile := 4#4, dir := 0#2, fromReg := false, idx := 0#6, last := false }, a := 10#6, off := 0#16, slu := false, param := 33#6 }) ∧
    decode 0x403200000500087F#64 = some (.lfeed { tok := { wl := false, wr := false, gl := true, gr := false }, acq := false, rel := false, scope := 0#3, line := { tile := 0#4, dir := 0#2, fromReg := false, idx := 0#6, last := false }, a := 10#6, off := 16#16, slu := true, param := 63#6 }) ∧
    decode 0x4040000005000403#64 = some (.lsetf { tok := tokZ, acq := false, rel := false, scope := 0#3, line := { tile := 0#4, dir := 0#2, fromReg := false, idx := 0#6, last := false }, a := 10#6, off := 8#16, slu := false, param := 3#6 }) ∧
    decode 0x4051000005800004#64 = some (.lwgt { tok := { wl := false, wr := false, gl := false, gr := true }, acq := false, rel := false, scope := 0#3, line := { tile := 0#4, dir := 0#2, fromReg := false, idx := 0#6, last := false }, a := 11#6, off := 0#16, slu := false, param := 4#6 }) ∧
    decode 0x4060000005000001#64 = some (.lgath { tok := tokZ, acq := false, rel := false, scope := 0#3, line := { tile := 0#4, dir := 0#2, fromReg := false, idx := 0#6, last := false }, a := 10#6, off := 0#16, slu := false, param := 1#6 }) ∧
    decode 0x4070000005000040#64 = some (.lmask { tok := tokZ, acq := false, rel := false, scope := 0#3, line := { tile := 0#4, dir := 0#2, fromReg := false, idx := 0#6, last := false }, a := 10#6, off := 0#16, slu := true, param := 0#6 }) := by decide

/-- L words. -/
theorem test_decode_load_1 :
    decode 0x4088000005002000#64 = some (.lvc { tok := { wl := true, wr := false, gl := false, gr := false }, acq := false, rel := false, scope := 0#3, line := { tile := 0#4, dir := 0#2, fromReg := false, idx := 0#6, last := false }, a := 10#6, off := 64#16, slu := false, param := 0#6 }) ∧
    decode 0x4090078000000000#64 = some (.lzero { tok := tokZ, acq := false, rel := false, scope := 0#3, line := { tile := 15#4, dir := 0#2, fromReg := false, idx := 0#6, last := false }, a := 0#6, off := 0#16, slu := false, param := 0#6 }) := by decide

/-- X words. -/
theorem test_decode_matrix_0 :
    decode 0x500A040052904000#64 = some (.xmma { tok := { wl := true, wr := false, gl := true, gr := false }, p := false, line := { tile := 4#4, dir := 0#2, fromReg := false, idx := 0#6, last := true }, at_ := 9#5, bt := 9#5, nstep := 4#8, param := 0#12 }) ∧
    decode 0x501580000000302C#64 = some (.xmmam { tok := { wl := false, wr := true, gl := false, gr := true }, p := true, line := { tile := 0#4, dir := 0#2, fromReg := false, idx := 0#6, last := false }, at_ := 0#5, bt := 0#5, nstep := 3#8, param := 44#12 }) ∧
    decode 0x50200400208013D9#64 = some (.xspmm { tok := tokZ, p := false, line := { tile := 4#4, dir := 0#2, fromReg := false, idx := 0#6, last := false }, at_ := 16#5, bt := 8#5, nstep := 1#8, param := 985#12 }) ∧
    decode 0x503A000000000000#64 = some (.xswap { tok := { wl := true, wr := false, gl := true, gr := false }, p := false, line := { tile := 0#4, dir := 0#2, fromReg := false, idx := 0#6, last := false }, at_ := 0#5, bt := 0#5, nstep := 0#8, param := 0#12 }) ∧
    decode 0x5040000000000001#64 = some (.xshape { tok := tokZ, p := false, line := { tile := 0#4, dir := 0#2, fromReg := false, idx := 0#6, last := false }, at_ := 0#5, bt := 0#5, nstep := 0#8, param := 1#12 }) ∧
    decode 0x5051800000000000#64 = some (.xclr { tok := { wl := false, wr := false, gl := false, gr := true }, p := true, line := { tile := 0#4, dir := 0#2, fromReg := false, idx := 0#6, last := false }, at_ := 0#5, bt := 0#5, nstep := 0#8, param := 0#12 }) ∧
    decode 0x506006B09A000000#64 = some (.xbias { tok := tokZ, p := false, line := { tile := 6#4, dir := 2#2, fromReg := true, idx := 33#6, last := false }, at_ := 13#5, bt := 0#5, nstep := 0#8, param := 0#12 }) := by decide

/-- V words of three lines. -/
theorem test_decode_vec_0 :
    decode 0x600867FCA87DD507#64 = some (.vadd { tok := { wl := true, wr := false, gl := false, gr := false }, dst := { tile := 6#4, dir := 1#2, fromReg := true, idx := 63#6 }, src1 := { tile := 9#4, dir := 1#2, fromReg := false, idx := 33#6, last := true }, src2 := { tile := 14#4, dir := 3#2, fromReg := true, idx := 21#6, last := false }, et := 0#3, sat := false, k := 7#3 }) ∧
    decode 0x601467FCA87DD51E#64 = some (.vsub { tok := { wl := false, wr := true, gl := false, gr := false }, dst := { tile := 6#4, dir := 1#2, fromReg := true, idx := 63#6 }, src1 := { tile := 9#4, dir := 1#2, fromReg := false, idx := 33#6, last := true }, src2 := { tile := 14#4, dir := 3#2, fromReg := true, idx := 21#6, last := false }, et := 1#3, sat := true, k := 6#3 }) ∧
    decode 0x602267FCA87DD525#64 = some (.vmul { tok := { wl := false, wr := false, gl := true, gr := false }, dst := { tile := 6#4, dir := 1#2, fromReg := true, idx := 63#6 }, src1 := { tile := 9#4, dir := 1#2, fromReg := false, idx := 33#6, last := true }, src2 := { tile := 14#4, dir := 3#2, fromReg := true, idx := 21#6, last := false }, et := 2#3, sat := false, k := 5#3 }) ∧
    decode 0x603167FCA87DD53C#64 = some (.vfma { tok := { wl := false, wr := false, gl := false, gr := true }, dst := { tile := 6#4, dir := 1#2, fromReg := true, idx := 63#6 }, src1 := { tile := 9#4, dir := 1#2, fromReg := false, idx := 33#6, last := true }, src2 := { tile := 14#4, dir := 3#2, fromReg := true, idx := 21#6, last := false }, et := 3#3, sat := true, k := 4#3 }) ∧
    decode 0x604867FCA87DD543#64 = some (.vfms { tok := { wl := true, wr := false, gl := false, gr := false }, dst := { tile := 6#4, dir := 1#2, fromReg := true, idx := 63#6 }, src1 := { tile := 9#4, dir := 1#2, fromReg := false, idx := 33#6, last := true }, src2 := { tile := 14#4, dir := 3#2, fromReg := true, idx := 21#6, last := false }, et := 4#3, sat := false, k := 3#3 }) ∧
    decode 0x605467FCA87DD55A#64 = some (.vfnma { tok := { wl := false, wr := true, gl := false, gr := false }, dst := { tile := 6#4, dir := 1#2, fromReg := true, idx := 63#6 }, src1 := { tile := 9#4, dir := 1#2, fromReg := false, idx := 33#6, last := true }, src2 := { tile := 14#4, dir := 3#2, fromReg := true, idx := 21#6, last := false }, et := 5#3, sat := true, k := 2#3 }) ∧
    decode 0x606267FCA87DD561#64 = some (.vmin { tok := { wl := false, wr := false, gl := true, gr := false }, dst := { tile := 6#4, dir := 1#2, fromReg := true, idx := 63#6 }, src1 := { tile := 9#4, dir := 1#2, fromReg := false, idx := 33#6, last := true }, src2 := { tile := 14#4, dir := 3#2, fromReg := true, idx := 21#6, last := false }, et := 6#3, sat := false, k := 1#3 }) ∧
    decode 0x607167FCA87DD578#64 = some (.vmax { tok := { wl := false, wr := false, gl := false, gr := true }, dst := { tile := 6#4, dir := 1#2, fromReg := true, idx := 63#6 }, src1 := { tile := 9#4, dir := 1#2, fromReg := false, idx := 33#6, last := true }, src2 := { tile := 14#4, dir := 3#2, fromReg := true, idx := 21#6, last := false }, et := 7#3, sat := true, k := 0#3 }) := by decide

/-- V words of three lines. -/
theorem test_decode_vec_1 :
    decode 0x608067FF75400059#64 = some (.vabs { tok := tokZ, dst := { tile := 6#4, dir := 1#2, fromReg := true, idx := 63#6 }, src1 := { tile := 14#4, dir := 3#2, fromReg := true, idx := 21#6, last := false }, src2 := { tile := 0#4, dir := 0#2, fromReg := false, idx := 0#6, last := false }, et := 5#3, sat := true, k := 1#3 }) ∧
    decode 0x609067FF75400059#64 = some (.vneg { tok := tokZ, dst := { tile := 6#4, dir := 1#2, fromReg := true, idx := 63#6 }, src1 := { tile := 14#4, dir := 3#2, fromReg := true, idx := 21#6, last := false }, src2 := { tile := 0#4, dir := 0#2, fromReg := false, idx := 0#6, last := false }, et := 5#3, sat := true, k := 1#3 }) ∧
    decode 0x610067FF7552A141#64 = some (.vand { tok := tokZ, dst := { tile := 6#4, dir := 1#2, fromReg := true, idx := 63#6 }, src1 := { tile := 14#4, dir := 3#2, fromReg := true, idx := 21#6, last := false }, src2 := { tile := 9#4, dir := 1#2, fromReg := false, idx := 33#6, last := false }, et := 4#3, sat := false, k := 1#3 }) ∧
    decode 0x611067FF7552A141#64 = some (.vor { tok := tokZ, dst := { tile := 6#4, dir := 1#2, fromReg := true, idx := 63#6 }, src1 := { tile := 14#4, dir := 3#2, fromReg := true, idx := 21#6, last := false }, src2 := { tile := 9#4, dir := 1#2, fromReg := false, idx := 33#6, last := false }, et := 4#3, sat := false, k := 1#3 }) ∧
    decode 0x612067FF7552A141#64 = some (.vxor { tok := tokZ, dst := { tile := 6#4, dir := 1#2, fromReg := true, idx := 63#6 }, src1 := { tile := 14#4, dir := 3#2, fromReg := true, idx := 21#6, last := false }, src2 := { tile := 9#4, dir := 1#2, fromReg := false, idx := 33#6, last := false }, et := 4#3, sat := false, k := 1#3 }) ∧
    decode 0x613067FF75400041#64 = some (.vnot { tok := tokZ, dst := { tile := 6#4, dir := 1#2, fromReg := true, idx := 63#6 }, src1 := { tile := 14#4, dir := 3#2, fromReg := true, idx := 21#6, last := false }, src2 := { tile := 0#4, dir := 0#2, fromReg := false, idx := 0#6, last := false }, et := 4#3, sat := false, k := 1#3 }) ∧
    decode 0x614067FF7552A129#64 = some (.vshl { tok := tokZ, dst := { tile := 6#4, dir := 1#2, fromReg := true, idx := 63#6 }, src1 := { tile := 14#4, dir := 3#2, fromReg := true, idx := 21#6, last := false }, src2 := { tile := 9#4, dir := 1#2, fromReg := false, idx := 33#6, last := false }, et := 2#3, sat := true, k := 1#3 }) ∧
    decode 0x615067FF7552A139#64 = some (.vshr { tok := tokZ, dst := { tile := 6#4, dir := 1#2, fromReg := true, idx := 63#6 }, src1 := { tile := 14#4, dir := 3#2, fromReg := true, idx := 21#6, last := false }, src2 := { tile := 9#4, dir := 1#2, fromReg := false, idx := 33#6, last := false }, et := 3#3, sat := true, k := 1#3 }) := by decide

/-- V words of three lines. -/
theorem test_decode_vec_2 :
    decode 0x616067FF7552A149#64 = some (.vshra { tok := tokZ, dst := { tile := 6#4, dir := 1#2, fromReg := true, idx := 63#6 }, src1 := { tile := 14#4, dir := 3#2, fromReg := true, idx := 21#6, last := false }, src2 := { tile := 9#4, dir := 1#2, fromReg := false, idx := 33#6, last := false }, et := 4#3, sat := true, k := 1#3 }) ∧
    decode 0x617067FF7552A141#64 = some (.vrsh { tok := tokZ, dst := { tile := 6#4, dir := 1#2, fromReg := true, idx := 63#6 }, src1 := { tile := 14#4, dir := 3#2, fromReg := true, idx := 21#6, last := false }, src2 := { tile := 9#4, dir := 1#2, fromReg := false, idx := 33#6, last := false }, et := 4#3, sat := false, k := 1#3 }) := by decide

/-- V words of the other forms. -/
theorem test_decode_vec2_0 :
    decode 0x6200E004A85DD500#64 = some (.vcmpeq { tok := tokZ, kd := 7#3, src1 := { tile := 9#4, dir := 1#2, fromReg := false, idx := 33#6, last := false }, src2 := { tile := 14#4, dir := 3#2, fromReg := true, idx := 21#6, last := false }, et := 0#3, sat := false, k := 0#3 }) ∧
    decode 0x6210C004A85DD511#64 = some (.vcmpne { tok := tokZ, kd := 6#3, src1 := { tile := 9#4, dir := 1#2, fromReg := false, idx := 33#6, last := false }, src2 := { tile := 14#4, dir := 3#2, fromReg := true, idx := 21#6, last := false }, et := 1#3, sat := false, k := 1#3 }) ∧
    decode 0x6220A004A85DD522#64 = some (.vcmplt { tok := tokZ, kd := 5#3, src1 := { tile := 9#4, dir := 1#2, fromReg := false, idx := 33#6, last := false }, src2 := { tile := 14#4, dir := 3#2, fromReg := true, idx := 21#6, last := false }, et := 2#3, sat := false, k := 2#3 }) ∧
    decode 0x62308004A85DD533#64 = some (.vcmple { tok := tokZ, kd := 4#3, src1 := { tile := 9#4, dir := 1#2, fromReg := false, idx := 33#6, last := false }, src2 := { tile := 14#4, dir := 3#2, fromReg := true, idx := 21#6, last := false }, et := 3#3, sat := false, k := 3#3 }) ∧
    decode 0x624067FCA85DD553#64 = some (.vsel { tok := tokZ, dst := { tile := 6#4, dir := 1#2, fromReg := true, idx := 63#6 }, src1 := { tile := 9#4, dir := 1#2, fromReg := false, idx := 33#6, last := false }, src2 := { tile := 14#4, dir := 3#2, fromReg := true, idx := 21#6, last := false }, et := 5#3, sat := false, k := 3#3 }) ∧
    decode 0x628067FCA8526800#64 = some (.vcvt { tok := tokZ, dst := { tile := 6#4, dir := 1#2, fromReg := true, idx := 63#6 }, src := { tile := 9#4, dir := 1#2, fromReg := false, idx := 33#6, last := false }, dt := 18#5, st := 13#5, sat := false, k := 0#3 }) ∧
    decode 0x630067FCA8400052#64 = some (.vexp2 { tok := tokZ, dst := { tile := 6#4, dir := 1#2, fromReg := true, idx := 63#6 }, src1 := { tile := 9#4, dir := 1#2, fromReg := false, idx := 33#6, last := false }, src2 := { tile := 0#4, dir := 0#2, fromReg := false, idx := 0#6, last := false }, et := 5#3, sat := false, k := 2#3 }) ∧
    decode 0x631067FCA8400062#64 = some (.vlog2 { tok := tokZ, dst := { tile := 6#4, dir := 1#2, fromReg := true, idx := 63#6 }, src1 := { tile := 9#4, dir := 1#2, fromReg := false, idx := 33#6, last := false }, src2 := { tile := 0#4, dir := 0#2, fromReg := false, idx := 0#6, last := false }, et := 6#3, sat := false, k := 2#3 }) := by decide

/-- V words of the other forms. -/
theorem test_decode_vec2_1 :
    decode 0x632067FCA8400072#64 = some (.vrcp { tok := tokZ, dst := { tile := 6#4, dir := 1#2, fromReg := true, idx := 63#6 }, src1 := { tile := 9#4, dir := 1#2, fromReg := false, idx := 33#6, last := false }, src2 := { tile := 0#4, dir := 0#2, fromReg := false, idx := 0#6, last := false }, et := 7#3, sat := false, k := 2#3 }) ∧
    decode 0x633067FCA8400052#64 = some (.vrsq { tok := tokZ, dst := { tile := 6#4, dir := 1#2, fromReg := true, idx := 63#6 }, src1 := { tile := 9#4, dir := 1#2, fromReg := false, idx := 33#6, last := false }, src2 := { tile := 0#4, dir := 0#2, fromReg := false, idx := 0#6, last := false }, et := 5#3, sat := false, k := 2#3 }) ∧
    decode 0x634067FCA8400062#64 = some (.vtanh { tok := tokZ, dst := { tile := 6#4, dir := 1#2, fromReg := true, idx := 63#6 }, src1 := { tile := 9#4, dir := 1#2, fromReg := false, idx := 33#6, last := false }, src2 := { tile := 0#4, dir := 0#2, fromReg := false, idx := 0#6, last := false }, et := 6#3, sat := false, k := 2#3 }) ∧
    decode 0x638067FCA8400002#64 = some (.vredsum { tok := tokZ, dst := { tile := 6#4, dir := 1#2, fromReg := true, idx := 63#6 }, src1 := { tile := 9#4, dir := 1#2, fromReg := false, idx := 33#6, last := false }, src2 := { tile := 0#4, dir := 0#2, fromReg := false, idx := 0#6, last := false }, et := 0#3, sat := false, k := 2#3 }) ∧
    decode 0x639067FCA8400012#64 = some (.vredmax { tok := tokZ, dst := { tile := 6#4, dir := 1#2, fromReg := true, idx := 63#6 }, src1 := { tile := 9#4, dir := 1#2, fromReg := false, idx := 33#6, last := false }, src2 := { tile := 0#4, dir := 0#2, fromReg := false, idx := 0#6, last := false }, et := 1#3, sat := false, k := 2#3 }) ∧
    decode 0x63A067FCA8400022#64 = some (.vredmin { tok := tokZ, dst := { tile := 6#4, dir := 1#2, fromReg := true, idx := 63#6 }, src1 := { tile := 9#4, dir := 1#2, fromReg := false, idx := 33#6, last := false }, src2 := { tile := 0#4, dir := 0#2, fromReg := false, idx := 0#6, last := false }, et := 2#3, sat := false, k := 2#3 }) ∧
    decode 0x63B067FCA8400032#64 = some (.vscanadd { tok := tokZ, dst := { tile := 6#4, dir := 1#2, fromReg := true, idx := 63#6 }, src1 := { tile := 9#4, dir := 1#2, fromReg := false, idx := 33#6, last := false }, src2 := { tile := 0#4, dir := 0#2, fromReg := false, idx := 0#6, last := false }, et := 3#3, sat := false, k := 2#3 }) ∧
    decode 0x640067FA10000061#64 = some (.vbcast { tok := tokZ, line := { tile := 6#4, dir := 1#2, fromReg := true, idx := 63#6, last := false }, s := 33#6, lane := 0#6, et := 6#3, k := 1#3 }) := by decide

/-- V words of the other forms. -/
theorem test_decode_vec2_2 :
    decode 0x641067FCA8400002#64 = some (.vmov { tok := tokZ, dst := { tile := 6#4, dir := 1#2, fromReg := true, idx := 63#6 }, src1 := { tile := 9#4, dir := 1#2, fromReg := false, idx := 33#6, last := false }, src2 := { tile := 0#4, dir := 0#2, fromReg := false, idx := 0#6, last := false }, et := 0#3, sat := false, k := 2#3 }) ∧
    decode 0x642067FCA85DD512#64 = some (.vperm { tok := tokZ, dst := { tile := 6#4, dir := 1#2, fromReg := true, idx := 63#6 }, src1 := { tile := 9#4, dir := 1#2, fromReg := false, idx := 33#6, last := false }, src2 := { tile := 14#4, dir := 3#2, fromReg := true, idx := 21#6, last := false }, et := 1#3, sat := false, k := 2#3 }) ∧
    decode 0x643067F800000032#64 = some (.viota { tok := tokZ, dst := { tile := 6#4, dir := 1#2, fromReg := true, idx := 63#6 }, src1 := { tile := 0#4, dir := 0#2, fromReg := false, idx := 0#6, last := false }, src2 := { tile := 0#4, dir := 0#2, fromReg := false, idx := 0#6, last := false }, et := 3#3, sat := false, k := 2#3 }) ∧
    decode 0x6440950E1FC00070#64 = some (.vgets { tok := tokZ, line := { tile := 9#4, dir := 1#2, fromReg := false, idx := 33#6, last := true }, s := 33#6, lane := 63#6, et := 7#3, k := 0#3 }) ∧
    decode 0x6450950A1F800020#64 = some (.vsets { tok := tokZ, line := { tile := 9#4, dir := 1#2, fromReg := false, idx := 33#6, last := false }, s := 33#6, lane := 62#6, et := 2#3, k := 0#3 }) ∧
    decode 0x6480370000000000#64 = some (.vkand { tok := tokZ, kd := 1#3, ka := 5#3, kb := 6#3, s := 0#6 }) ∧
    decode 0x6490570000000000#64 = some (.vkor { tok := tokZ, kd := 2#3, ka := 5#3, kb := 6#3, s := 0#6 }) ∧
    decode 0x64A0770000000000#64 = some (.vkxor { tok := tokZ, kd := 3#3, ka := 5#3, kb := 6#3, s := 0#6 }) := by decide

/-- V words of the other forms. -/
theorem test_decode_vec2_3 :
    decode 0x64B0940000000000#64 = some (.vknot { tok := tokZ, kd := 4#3, ka := 5#3, kb := 0#3, s := 0#6 }) ∧
    decode 0x64C2140210000000#64 = some (.vkpopc { tok := { wl := false, wr := false, gl := true, gr := false }, kd := 0#3, ka := 5#3, kb := 0#3, s := 33#6 }) ∧
    decode 0x64D2140210000000#64 = some (.vkfirst { tok := { wl := false, wr := false, gl := true, gr := false }, kd := 0#3, ka := 5#3, kb := 0#3, s := 33#6 }) ∧
    decode 0x650067FFFC00068A#64 = some (.vacc { tok := tokZ, dst := { tile := 6#4, dir := 1#2, fromReg := true, idx := 63#6 }, p := true, dir := true, idx := 127#7, h := false, dt := 13#5, sat := true, k := 2#3 }) ∧
    decode 0x651067FCA8400002#64 = some (.vpois { tok := tokZ, dst := { tile := 6#4, dir := 1#2, fromReg := true, idx := 63#6 }, src1 := { tile := 9#4, dir := 1#2, fromReg := false, idx := 33#6, last := false }, src2 := { tile := 0#4, dir := 0#2, fromReg := false, idx := 0#6, last := false }, et := 0#3, sat := false, k := 2#3 }) ∧
    decode 0x652067FCA85DD502#64 = some (.vhash { tok := tokZ, dst := { tile := 6#4, dir := 1#2, fromReg := true, idx := 63#6 }, src1 := { tile := 9#4, dir := 1#2, fromReg := false, idx := 33#6, last := false }, src2 := { tile := 14#4, dir := 3#2, fromReg := true, idx := 21#6, last := false }, et := 0#3, sat := false, k := 2#3 }) := by decide

/-- S words. -/
theorem test_decode_store_0 :
    decode 0x700864A8657FE000#64 = some (.sline { tok := { wl := true, wr := false, gl := false, gr := false }, acq := false, rel := true, scope := 4#3, line := { tile := 9#4, dir := 1#2, fromReg := false, idx := 33#6, last := true }, a := 10#6, off := 65472#16, slu := false, param := 0#6 }) ∧
    decode 0x7012020005000005#64 = some (.stile { tok := { wl := false, wr := false, gl := true, gr := false }, acq := false, rel := false, scope := 0#3, line := { tile := 4#4, dir := 0#2, fromReg := false, idx := 0#6, last := false }, a := 10#6, off := 0#16, slu := false, param := 5#6 }) ∧
    decode 0x7020020005000013#64 = some (.strans { tok := tokZ, acq := false, rel := false, scope := 0#3, line := { tile := 4#4, dir := 0#2, fromReg := false, idx := 0#6, last := false }, a := 10#6, off := 0#16, slu := false, param := 19#6 }) ∧
    decode 0x703A94FE05001000#64 = some (.sacc { tok := { wl := true, wr := false, gl := true, gr := false }, acq := true, rel := false, scope := 2#3, p := true, dir := false, idx := 63#7, h := true, a := 10#6, off := 32#16, dt := 0#5 }) := by decide

/-- C and N words. -/
theorem test_decode_copy_0 :
    decode 0x800000A000000007#64 = some (.ckick { a := 10#6, ch := 7#3 }) ∧
    decode 0x8010000000000003#64 = some (.cstop { ch := 3#3 }) ∧
    decode 0x8020200000000002#64 = some (.cstat { d := 8#6, ch := 2#3 }) ∧
    decode 0x803200A4ECABCDEF#64 = some (.cpfl2 { scope := 2#3, a := 10#6, b := 19#6, c := 44#6, val := 11259375#24 }) ∧
    decode 0x804000A4C0000001#64 = some (.czero { a := 10#6, b := 19#6, ch := 1#3 }) ∧
    decode 0x8050000000000002#64 = some (.cwaitch { ch := 2#3 }) ∧
    decode 0x900014A4EC000000#64 = some (.nsend { d := 5#6, a := 10#6, b := 19#6, c := 44#6 }) ∧
    decode 0x9010254000000000#64 = some (.nstat { d := 9#6, a := 20#6 }) := by decide

/-! ### Words as the manual prints them (sections 09 to 13 and 18) -/

/-- Printed words. -/
theorem test_printed_words_0 :
    decode 0x120350A000000001#64 = some (.qpop { scope := 3#3, d := 20#6, a := 10#6, tryF := true }) ∧
    decode 0x122300A000000000#64 = some (.qbind { scope := 3#3, a := 10#6, unb := false, q := 0#2 }) ∧
    decode 0x10A000403FFFFFFD#64 = some (.loop { a := 4#6, off := 1073741821#30 }) ∧
    decode 0x128018B300000000#64 = some (.spawn { d := 6#6, a := 11#6, b := 12#6 }) ∧
    decode 0x2082143120000010#64 = some (.atomAdd { scope := 2#3, d := 5#6, a := 3#6, b := 4#6, w := 2#2, off := 16#24 }) ∧
    decode 0x211300A2C0000000#64 = some (.cwait { scope := 3#3, a := 10#6, b := 11#6, off := 0#24 }) ∧
    decode 0x221350A2D2000000#64 = some (.vld { sp := false, scope := 3#3, d := 20#6, a := 10#6, b := 11#6, mode := 1#2, line := { tile := 2#4, dir := 0#2, fromReg := false, idx := 0#6, last := false } }) ∧
    decode 0x2300000402000000#64 = some (.bpol { pol := 1#2, kind := false, idx := 4#6 }) ∧
    decode 0x2310000026000000#64 = some (.bwake { kind := true, idx := 12#6 }) ∧
    decode 0x2380000003002000#64 = some (.gwait { a := 0#6, idx := 3#6, n := 2#12 }) := by decide

/-- Printed words. -/
theorem test_printed_words_1 :
    decode 0x23A0200003000000#64 = some (.gstat { d := 8#6, idx := 3#6 }) ∧
    decode 0x23B0000005000000#64 = some (.lbfree { idx := 5#6 }) ∧
    decode 0x3000580000000008#64 = some (.csrr { d := 22#6, csr := 8#12 }) ∧
    decode 0x303014600000000C#64 = some (.csrc { d := 5#6, a := 6#6, csr := 12#12 }) ∧
    decode 0x30B014A000000002#64 = some (.fwcallQuote { d := 5#6, a := 10#6 }) ∧
    decode 0x3100000020800000#64 = some (.tspill { kind := true, idx := 1#6 }) ∧
    decode 0x318200A2C0000000#64 = some (.tlbinv { scope := 2#3, a := 10#6, b := 11#6 }) ∧
    decode 0x31D014A2C0000000#64 = some (.cancel { d := 5#6, a := 10#6, b := 11#6 }) ∧
    decode 0x4015020005000000#64 = some (.ltile { tok := { wl := false, wr := true, gl := false, gr := true }, acq := false, rel := false, scope := 0#3, line := { tile := 4#4, dir := 0#2, fromReg := false, idx := 0#6, last := false }, a := 10#6, off := 0#16, slu := false, param := 0#6 }) ∧
    decode 0x4051000005800004#64 = some (.lwgt { tok := { wl := false, wr := false, gl := false, gr := true }, acq := false, rel := false, scope := 0#3, line := { tile := 0#4, dir := 0#2, fromReg := false, idx := 0#6, last := false }, a := 11#6, off := 0#16, slu := false, param := 4#6 }) := by decide

/-- Printed words. -/
theorem test_printed_words_2 :
    decode 0x5000800000004024#64 = some (.xmma { tok := tokZ, p := true, line := { tile := 0#4, dir := 0#2, fromReg := false, idx := 0#6, last := false }, at_ := 0#5, bt := 0#5, nstep := 4#8, param := 36#12 }) ∧
    decode 0x503A000000000000#64 = some (.xswap { tok := { wl := true, wr := false, gl := true, gr := false }, p := false, line := { tile := 0#4, dir := 0#2, fromReg := false, idx := 0#6, last := false }, at_ := 0#5, bt := 0#5, nstep := 0#8, param := 0#12 }) ∧
    decode 0x506006001A000000#64 = some (.xbias { tok := tokZ, p := false, line := { tile := 6#4, dir := 0#2, fromReg := false, idx := 0#6, last := false }, at_ := 13#5, bt := 0#5, nstep := 0#8, param := 0#12 }) ∧
    decode 0x600020000022C950#64 = some (.vadd { tok := tokZ, dst := { tile := 2#4, dir := 0#2, fromReg := false, idx := 0#6 }, src1 := { tile := 0#4, dir := 0#2, fromReg := false, idx := 0#6, last := true }, src2 := { tile := 1#4, dir := 1#2, fromReg := true, idx := 9#6, last := false }, et := 5#3, sat := false, k := 0#3 }) ∧
    decode 0x6400200070000050#64 = some (.vbcast { tok := tokZ, line := { tile := 2#4, dir := 0#2, fromReg := false, idx := 0#6, last := false }, s := 7#6, lane := 0#6, et := 5#3, k := 0#3 }) ∧
    decode 0x6500600016000680#64 = some (.vacc { tok := tokZ, dst := { tile := 6#4, dir := 0#2, fromReg := false, idx := 0#6 }, p := false, dir := false, idx := 5#7, h := true, dt := 13#5, sat := false, k := 0#3 }) ∧
    decode 0x7030041606000000#64 = some (.sacc { tok := tokZ, acq := false, rel := false, scope := 0#3, p := true, dir := false, idx := 5#7, h := true, a := 12#6, off := 0#16, dt := 0#5 }) ∧
    decode 0x8032003105000001#64 = some (.cpfl2 { scope := 2#3, a := 3#6, b := 4#6, c := 5#6, val := 1#24 }) ∧
    decode 0x804000A2C0000001#64 = some (.czero { a := 10#6, b := 11#6, ch := 1#3 }) ∧
    decode 0x9000504556000000#64 = some (.nsend { d := 20#6, a := 4#6, b := 21#6, c := 22#6 }) := by decide

/-! ### Ill-formed terms: for each check on fields one term that it refuses (R139 to R143) -/

/-- Each is refused. -/
theorem test_ill_formed_0 :
    Instr.wf (.shli { sp := false, d := 0#6, a := 0#6, imm := 64#36 }) = false ∧
    Instr.wf (.shrai { sp := false, d := 0#6, a := 0#6, imm := 68719476735#36 }) = false ∧
    Instr.wf (.bfx { sp := false, d := 0#6, a := 0#6, pos := 1#6, len := 0#6 }) = false ∧
    Instr.wf (.lih { sp := false, d := 0#6, a := 0#6, imm := 268435456#36 }) = false ∧
    Instr.wf (.loop { a := 0#6, off := 0#30 }) = false ∧
    Instr.wf (.qpop { scope := 5#3, d := 0#6, a := 0#6, tryF := false }) = false ∧
    Instr.wf (.qpush { scope := 7#3, d := 0#6, a := 0#6, b := 0#6, tryF := false }) = false ∧
    Instr.wf (.qbind { scope := 6#3, a := 0#6, unb := false, q := 0#2 }) = false ∧
    Instr.wf (.qbind { scope := 0#3, a := 1#6, unb := true, q := 0#2 }) = false ∧
    Instr.wf (.tkgive { n := 0#4 }) = false ∧
    Instr.wf (.tktake { n := 9#4 }) = false ∧
    Instr.wf (.atomMax { scope := 0#3, d := 0#6, a := 0#6, b := 0#6, w := 1#2, off := 0#24 }) = false := by decide

/-- Each is refused. -/
theorem test_ill_formed_1 :
    Instr.wf (.cas { scope := 5#3, d := 0#6, a := 0#6, b := 0#6, w := 3#2, off := 0#24 }) = false ∧
    Instr.wf (.csig { scope := 5#3, a := 0#6, b := 0#6, off := 0#24 }) = false ∧
    Instr.wf (.cread { scope := 6#3, d := 0#6, a := 0#6, off := 0#24 }) = false ∧
    Instr.wf (.fence { scope := 5#3 }) = false ∧
    Instr.wf (.vregion { d := 0#6, a := 0#6, imm := 64#36 }) = false ∧
    Instr.wf (.vld { sp := false, scope := 0#3, d := 0#6, a := 0#6, b := 0#6, mode := 3#2, line := { tile := 0#4, dir := 0#2, fromReg := false, idx := 0#6, last := false } }) = false ∧
    Instr.wf (.vld { sp := false, scope := 0#3, d := 0#6, a := 0#6, b := 1#6, mode := 2#2, line := { tile := 0#4, dir := 0#2, fromReg := false, idx := 0#6, last := false } }) = false ∧
    Instr.wf (.vld { sp := false, scope := 0#3, d := 0#6, a := 0#6, b := 0#6, mode := 0#2, line := { tile := 0#4, dir := 0#2, fromReg := false, idx := 0#6, last := true } }) = false ∧
    Instr.wf (.vlds { sp := false, scope := 0#3, d := 0#6, a := 0#6, b := 0#6, c := 0#6, mode := 3#2 }) = false ∧
    Instr.wf (.vst { scope := 5#3, a := 0#6, b := 0#6, line := { tile := 0#4, dir := 0#2, fromReg := false, idx := 0#6, last := false } }) = false ∧
    Instr.wf (.vsts { scope := 5#3, a := 0#6, b := 0#6, c := 0#6, fin := false }) = false ∧
    Instr.wf (.bpol { pol := 3#2, kind := false, idx := 0#6 }) = false := by decide

/-- Each is refused. -/
theorem test_ill_formed_2 :
    Instr.wf (.bpol { pol := 0#2, kind := true, idx := 48#6 }) = false ∧
    Instr.wf (.bwake { kind := false, idx := 16#6 }) = false ∧
    Instr.wf (.bstate { d := 0#6, kind := false, idx := 16#6 }) = false ∧
    Instr.wf (.gwait { a := 0#6, idx := 16#6, n := 0#12 }) = false ∧
    Instr.wf (.gstat { d := 0#6, idx := 16#6 }) = false ∧
    Instr.wf (.lbfree { idx := 32#6 }) = false ∧
    Instr.wf (.lbusy { d := 0#6, idx := 32#6 }) = false ∧
    Instr.wf (.csrr { d := 0#6, csr := 2047#12 }) = false ∧
    Instr.wf (.csrr { d := 0#6, csr := 13#12 }) = false ∧
    Instr.wf (.csrw { a := 0#6, csr := 16#12 }) = false ∧
    Instr.wf (.csrs { d := 0#6, a := 0#6, csr := 2047#12 }) = false ∧
    Instr.wf (.fwcallIdentity { d := 0#6, a := 0#6, imm := 6#36 }) = false := by decide

/-- Each is refused. -/
theorem test_ill_formed_3 :
    Instr.wf (.tspill { kind := true, idx := 2#6 }) = false ∧
    Instr.wf (.tlbinv { scope := 4#3, a := 0#6, b := 0#6 }) = false ∧
    Instr.wf (.cpfl2 { scope := 5#3, a := 0#6, b := 0#6, c := 0#6, val := 0#24 }) = false ∧
    Instr.wf (.stage2Unmap { d := 0#6, a := 0#6 }) = false ∧
    Instr.wf (.cancelClear { d := 0#6, a := 0#6, b := 0#6 }) = false ∧
    Instr.wf (.lline { tok := tokZ, acq := false, rel := false, scope := 1#3, line := { tile := 0#4, dir := 0#2, fromReg := false, idx := 0#6, last := false }, a := 0#6, off := 0#16, slu := false, param := 0#6 }) = false ∧
    Instr.wf (.lline { tok := tokZ, acq := false, rel := false, scope := 0#3, line := { tile := 0#4, dir := 0#2, fromReg := false, idx := 0#6, last := false }, a := 0#6, off := 0#16, slu := false, param := 1#6 }) = false ∧
    Instr.wf (.ltile { tok := tokZ, acq := false, rel := false, scope := 0#3, line := { tile := 4#4, dir := 0#2, fromReg := false, idx := 1#6, last := false }, a := 0#6, off := 0#16, slu := false, param := 0#6 }) = false ∧
    Instr.wf (.ltrans { tok := tokZ, acq := false, rel := false, scope := 0#3, line := { tile := 0#4, dir := 0#2, fromReg := false, idx := 0#6, last := false }, a := 0#6, off := 0#16, slu := false, param := 48#6 }) = false ∧
    Instr.wf (.ltrans { tok := tokZ, acq := false, rel := false, scope := 0#3, line := { tile := 0#4, dir := 0#2, fromReg := false, idx := 0#6, last := false }, a := 0#6, off := 0#16, slu := false, param := 2#6 }) = false ∧
    Instr.wf (.lfeed { tok := tokZ, acq := false, rel := false, scope := 0#3, line := { tile := 1#4, dir := 0#2, fromReg := false, idx := 0#6, last := false }, a := 0#6, off := 0#16, slu := false, param := 0#6 }) = false ∧
    Instr.wf (.lsetf { tok := tokZ, acq := false, rel := false, scope := 0#3, line := { tile := 0#4, dir := 0#2, fromReg := false, idx := 0#6, last := false }, a := 0#6, off := 0#16, slu := false, param := 32#6 }) = false := by decide

/-- Each is refused. -/
theorem test_ill_formed_4 :
    Instr.wf (.lsetf { tok := tokZ, acq := false, rel := false, scope := 0#3, line := { tile := 0#4, dir := 0#2, fromReg := false, idx := 0#6, last := false }, a := 0#6, off := 0#16, slu := false, param := 9#6 }) = false ∧
    Instr.wf (.lwgt { tok := tokZ, acq := false, rel := false, scope := 0#3, line := { tile := 0#4, dir := 0#2, fromReg := false, idx := 0#6, last := false }, a := 0#6, off := 0#16, slu := false, param := 32#6 }) = false ∧
    Instr.wf (.lwgt { tok := tokZ, acq := false, rel := false, scope := 0#3, line := { tile := 0#4, dir := 0#2, fromReg := false, idx := 0#6, last := false }, a := 0#6, off := 0#16, slu := false, param := 5#6 }) = false ∧
    Instr.wf (.lgath { tok := tokZ, acq := false, rel := false, scope := 0#3, line := { tile := 0#4, dir := 0#2, fromReg := false, idx := 0#6, last := false }, a := 0#6, off := 0#16, slu := false, param := 2#6 }) = false ∧
    Instr.wf (.lmask { tok := tokZ, acq := false, rel := false, scope := 0#3, line := { tile := 0#4, dir := 0#2, fromReg := false, idx := 0#6, last := false }, a := 0#6, off := 0#16, slu := false, param := 1#6 }) = false ∧
    Instr.wf (.lvc { tok := tokZ, acq := false, rel := false, scope := 0#3, line := { tile := 0#4, dir := 0#2, fromReg := false, idx := 0#6, last := false }, a := 0#6, off := 0#16, slu := true, param := 0#6 }) = false ∧
    Instr.wf (.lzero { tok := tokZ, acq := false, rel := false, scope := 0#3, line := { tile := 0#4, dir := 0#2, fromReg := false, idx := 0#6, last := false }, a := 1#6, off := 0#16, slu := false, param := 0#6 }) = false ∧
    Instr.wf (.xmma { tok := tokZ, p := false, line := { tile := 0#4, dir := 0#2, fromReg := false, idx := 0#6, last := false }, at_ := 0#5, bt := 0#5, nstep := 0#8, param := 0#12 }) = false ∧
    Instr.wf (.xmma { tok := tokZ, p := false, line := { tile := 0#4, dir := 0#2, fromReg := false, idx := 0#6, last := false }, at_ := 0#5, bt := 0#5, nstep := 5#8, param := 0#12 }) = false ∧
    Instr.wf (.xmma { tok := tokZ, p := false, line := { tile := 0#4, dir := 0#2, fromReg := false, idx := 0#6, last := false }, at_ := 0#5, bt := 9#5, nstep := 1#8, param := 0#12 }) = false ∧
    Instr.wf (.xmma { tok := tokZ, p := false, line := { tile := 0#4, dir := 0#2, fromReg := false, idx := 0#6, last := false }, at_ := 7#5, bt := 7#5, nstep := 1#8, param := 0#12 }) = false ∧
    Instr.wf (.xmmam { tok := tokZ, p := false, line := { tile := 0#4, dir := 0#2, fromReg := false, idx := 0#6, last := false }, at_ := 11#5, bt := 11#5, nstep := 1#8, param := 2#12 }) = false := by decide

/-- Each is refused. -/
theorem test_ill_formed_5 :
    Instr.wf (.xspmm { tok := tokZ, p := false, line := { tile := 1#4, dir := 0#2, fromReg := false, idx := 0#6, last := false }, at_ := 0#5, bt := 0#5, nstep := 1#8, param := 4#12 }) = false ∧
    Instr.wf (.xmma { tok := tokZ, p := false, line := { tile := 0#4, dir := 0#2, fromReg := false, idx := 0#6, last := false }, at_ := 0#5, bt := 0#5, nstep := 1#8, param := 1024#12 }) = false ∧
    Instr.wf (.xswap { tok := tokZ, p := true, line := { tile := 0#4, dir := 0#2, fromReg := false, idx := 0#6, last := false }, at_ := 0#5, bt := 0#5, nstep := 0#8, param := 0#12 }) = false ∧
    Instr.wf (.xshape { tok := tokZ, p := false, line := { tile := 0#4, dir := 0#2, fromReg := false, idx := 0#6, last := false }, at_ := 0#5, bt := 0#5, nstep := 0#8, param := 16#12 }) = false ∧
    Instr.wf (.xclr { tok := tokZ, p := false, line := { tile := 0#4, dir := 0#2, fromReg := false, idx := 0#6, last := false }, at_ := 0#5, bt := 0#5, nstep := 1#8, param := 0#12 }) = false ∧
    Instr.wf (.xbias { tok := tokZ, p := false, line := { tile := 0#4, dir := 0#2, fromReg := false, idx := 0#6, last := false }, at_ := 0#5, bt := 0#5, nstep := 0#8, param := 0#12 }) = false ∧
    Instr.wf (.vabs { tok := tokZ, dst := { tile := 0#4, dir := 0#2, fromReg := false, idx := 0#6 }, src1 := { tile := 0#4, dir := 0#2, fromReg := false, idx := 0#6, last := false }, src2 := { tile := 1#4, dir := 0#2, fromReg := false, idx := 0#6, last := false }, et := 0#3, sat := false, k := 0#3 }) = false ∧
    Instr.wf (.vand { tok := tokZ, dst := { tile := 0#4, dir := 0#2, fromReg := false, idx := 0#6 }, src1 := { tile := 0#4, dir := 0#2, fromReg := false, idx := 0#6, last := false }, src2 := { tile := 0#4, dir := 0#2, fromReg := false, idx := 0#6, last := false }, et := 0#3, sat := true, k := 0#3 }) = false ∧
    Instr.wf (.vshl { tok := tokZ, dst := { tile := 0#4, dir := 0#2, fromReg := false, idx := 0#6 }, src1 := { tile := 0#4, dir := 0#2, fromReg := false, idx := 0#6, last := false }, src2 := { tile := 0#4, dir := 0#2, fromReg := false, idx := 0#6, last := false }, et := 5#3, sat := false, k := 0#3 }) = false ∧
    Instr.wf (.vrsh { tok := tokZ, dst := { tile := 0#4, dir := 0#2, fromReg := false, idx := 0#6 }, src1 := { tile := 0#4, dir := 0#2, fromReg := false, idx := 0#6, last := false }, src2 := { tile := 0#4, dir := 0#2, fromReg := false, idx := 0#6, last := false }, et := 0#3, sat := false, k := 0#3 }) = false ∧
    Instr.wf (.vcmplt { tok := tokZ, kd := 0#3, src1 := { tile := 0#4, dir := 0#2, fromReg := false, idx := 0#6, last := false }, src2 := { tile := 0#4, dir := 0#2, fromReg := false, idx := 0#6, last := false }, et := 0#3, sat := true, k := 0#3 }) = false ∧
    Instr.wf (.vsel { tok := tokZ, dst := { tile := 0#4, dir := 0#2, fromReg := false, idx := 0#6 }, src1 := { tile := 0#4, dir := 0#2, fromReg := false, idx := 0#6, last := false }, src2 := { tile := 0#4, dir := 0#2, fromReg := false, idx := 0#6, last := false }, et := 0#3, sat := true, k := 0#3 }) = false := by decide

/-- Each is refused. -/
theorem test_ill_formed_6 :
    Instr.wf (.vcvt { tok := tokZ, dst := { tile := 0#4, dir := 0#2, fromReg := false, idx := 0#6 }, src := { tile := 0#4, dir := 0#2, fromReg := false, idx := 0#6, last := false }, dt := 7#5, st := 0#5, sat := false, k := 0#3 }) = false ∧
    Instr.wf (.vcvt { tok := tokZ, dst := { tile := 0#4, dir := 0#2, fromReg := false, idx := 0#6 }, src := { tile := 0#4, dir := 0#2, fromReg := false, idx := 0#6, last := false }, dt := 16#5, st := 13#5, sat := false, k := 1#3 }) = false ∧
    Instr.wf (.vexp2 { tok := tokZ, dst := { tile := 0#4, dir := 0#2, fromReg := false, idx := 0#6 }, src1 := { tile := 0#4, dir := 0#2, fromReg := false, idx := 0#6, last := false }, src2 := { tile := 0#4, dir := 0#2, fromReg := false, idx := 0#6, last := false }, et := 4#3, sat := false, k := 0#3 }) = false ∧
    Instr.wf (.vredsum { tok := tokZ, dst := { tile := 0#4, dir := 0#2, fromReg := false, idx := 0#6 }, src1 := { tile := 0#4, dir := 0#2, fromReg := false, idx := 0#6, last := false }, src2 := { tile := 0#4, dir := 0#2, fromReg := false, idx := 0#6, last := false }, et := 0#3, sat := true, k := 0#3 }) = false ∧
    Instr.wf (.vbcast { tok := tokZ, line := { tile := 0#4, dir := 0#2, fromReg := false, idx := 0#6, last := false }, s := 0#6, lane := 1#6, et := 0#3, k := 0#3 }) = false ∧
    Instr.wf (.vmov { tok := tokZ, dst := { tile := 0#4, dir := 0#2, fromReg := false, idx := 0#6 }, src1 := { tile := 0#4, dir := 0#2, fromReg := false, idx := 0#6, last := false }, src2 := { tile := 0#4, dir := 0#2, fromReg := false, idx := 0#6, last := false }, et := 1#3, sat := false, k := 0#3 }) = false ∧
    Instr.wf (.vperm { tok := tokZ, dst := { tile := 0#4, dir := 0#2, fromReg := false, idx := 0#6 }, src1 := { tile := 0#4, dir := 0#2, fromReg := false, idx := 0#6, last := false }, src2 := { tile := 0#4, dir := 0#2, fromReg := false, idx := 0#6, last := false }, et := 0#3, sat := true, k := 0#3 }) = false ∧
    Instr.wf (.viota { tok := tokZ, dst := { tile := 0#4, dir := 0#2, fromReg := false, idx := 0#6 }, src1 := { tile := 1#4, dir := 0#2, fromReg := false, idx := 0#6, last := false }, src2 := { tile := 0#4, dir := 0#2, fromReg := false, idx := 0#6, last := false }, et := 0#3, sat := false, k := 0#3 }) = false ∧
    Instr.wf (.vgets { tok := tokZ, line := { tile := 0#4, dir := 0#2, fromReg := false, idx := 0#6, last := false }, s := 0#6, lane := 0#6, et := 0#3, k := 1#3 }) = false ∧
    Instr.wf (.vsets { tok := tokZ, line := { tile := 0#4, dir := 0#2, fromReg := false, idx := 0#6, last := true }, s := 0#6, lane := 0#6, et := 0#3, k := 0#3 }) = false ∧
    Instr.wf (.vkand { tok := tokZ, kd := 0#3, ka := 0#3, kb := 0#3, s := 1#6 }) = false ∧
    Instr.wf (.vknot { tok := tokZ, kd := 0#3, ka := 0#3, kb := 1#3, s := 0#6 }) = false := by decide

/-- Each is refused. -/
theorem test_ill_formed_7 :
    Instr.wf (.vkpopc { tok := tokZ, kd := 1#3, ka := 0#3, kb := 0#3, s := 0#6 }) = false ∧
    Instr.wf (.vacc { tok := tokZ, dst := { tile := 0#4, dir := 0#2, fromReg := false, idx := 0#6 }, p := false, dir := false, idx := 0#7, h := false, dt := 0#5, sat := false, k := 0#3 }) = false ∧
    Instr.wf (.vacc { tok := tokZ, dst := { tile := 0#4, dir := 0#2, fromReg := false, idx := 0#6 }, p := false, dir := false, idx := 64#7, h := false, dt := 13#5, sat := false, k := 0#3 }) = false ∧
    Instr.wf (.vpois { tok := tokZ, dst := { tile := 0#4, dir := 0#2, fromReg := false, idx := 0#6 }, src1 := { tile := 0#4, dir := 0#2, fromReg := false, idx := 0#6, last := false }, src2 := { tile := 0#4, dir := 0#2, fromReg := false, idx := 0#6, last := false }, et := 1#3, sat := false, k := 0#3 }) = false ∧
    Instr.wf (.vhash { tok := tokZ, dst := { tile := 0#4, dir := 0#2, fromReg := false, idx := 0#6 }, src1 := { tile := 0#4, dir := 0#2, fromReg := false, idx := 0#6, last := false }, src2 := { tile := 0#4, dir := 0#2, fromReg := false, idx := 0#6, last := false }, et := 0#3, sat := true, k := 0#3 }) = false ∧
    Instr.wf (.sline { tok := { wl := false, wr := false, gl := false, gr := true }, acq := false, rel := false, scope := 0#3, line := { tile := 0#4, dir := 0#2, fromReg := false, idx := 0#6, last := false }, a := 0#6, off := 0#16, slu := false, param := 0#6 }) = false ∧
    Instr.wf (.sline { tok := tokZ, acq := false, rel := false, scope := 0#3, line := { tile := 0#4, dir := 0#2, fromReg := false, idx := 0#6, last := false }, a := 0#6, off := 0#16, slu := true, param := 0#6 }) = false ∧
    Instr.wf (.stile { tok := tokZ, acq := false, rel := false, scope := 0#3, line := { tile := 4#4, dir := 1#2, fromReg := false, idx := 0#6, last := false }, a := 0#6, off := 0#16, slu := false, param := 0#6 }) = false ∧
    Instr.wf (.strans { tok := tokZ, acq := false, rel := false, scope := 0#3, line := { tile := 4#4, dir := 0#2, fromReg := false, idx := 0#6, last := false }, a := 0#6, off := 0#16, slu := false, param := 0#6 }) = false ∧
    Instr.wf (.sacc { tok := { wl := false, wr := true, gl := false, gr := false }, acq := false, rel := false, scope := 0#3, p := false, dir := false, idx := 0#7, h := false, a := 0#6, off := 0#16, dt := 0#5 }) = false ∧
    Instr.wf (.sacc { tok := tokZ, acq := false, rel := false, scope := 0#3, p := false, dir := false, idx := 0#7, h := false, a := 0#6, off := 0#16, dt := 14#5 }) = false := by decide

/-- A term without a word of its own is no instruction; an event is none (R146). -/
theorem test_events_have_no_word : Instr.wf (.heartbeat 0) = false ∧ Instr.wf (.cancelClear { d := 5#6, a := 10#6, b := 11#6 }) = false ∧
    decode 0xFFFFFFFFFFFFFFFF#64 = none := by decide

/-! ### The table's words reach a step (log 2) -/

/-- The printed word of `loop s4, -3` reads the same from the opcode table's bits, and no shorter or longer way. -/
theorem test_table_word :
    decodeTableWord 64 0x10A000403FFFFFFD = decode 0x10A000403FFFFFFD#64 ∧ decodeTableWord 64 0xFFFFFFFFFFFFFFFF = none := by
  decide

/-- Whether an outcome is a next state with a property. -/
def nextSat (o : Host.Outcome State Fault Refusal) (f : State → Bool) : Bool := match o with
  | .next t => f t
  | _ => false

/-- Placed after reset, `addi s5, s0, 9` (F-RI) runs as the next step: S5 holds 9 and the pc has moved on by 8 (R158). -/
theorem test_fetch_word :
    nextSat (step (State.reset.withFetchWord 64 ((encode (.addi { sp := false, d := 5#6, a := 0#6, imm := 9#36 })).toNat)))
      (fun t => decide ((t.ctx.base.getS 5).bits = 9#64) && decide (t.ctx.pc = State.reset.ready.ctx.pc + 8#64)) = true := by
  decide +kernel
/-! ### Results the spec prints or that follow from its formulas by hand (R159 to R162) -/

/-- What S3 holds after an instruction on S1 = a, S2 = b (S3 holding c before), or none where it does not retire. -/
def s3After (i : Instr) (a b c : Word) : Option Word :=
  match exec i (withS stT [(1, a), (2, b), (3, c)]) with
  | .next t => if t.ctx.pc = stT.ctx.pc + 8#64 then some (t.ctx.base.getS 3).bits else none
  | _ => none

/-- The RR form `op s3, s1, s2`. -/
def r3 : FR3 := { sp := false, d := 3#6, a := 1#6, b := 2#6 }

/-- The R159 example: −7 by 2 gives −3. -/
theorem test_div_example : s3After (.div r3) (-7) 2 0 = some (-3) := by decide +kernel
/-- The R159 example: its remainder is −1. -/
theorem test_rem_example : s3After (.rem r3) (-7) 2 0 = some (-1) := by decide +kernel
/-- R159: −2⁶³ by −1 keeps −2⁶³; by 0 gives −1. -/
theorem test_div_corners : s3After (.div r3) 0x8000000000000000 (-1) 0 = some 0x8000000000000000 ∧ s3After (.div r3) 5 0 0 = some (-1) := by
  decide +kernel
/-- R159: by 0 the unsigned quotient is 2⁶⁴ − 1, the remainder a. -/
theorem test_divn_zero : s3After (.divn r3) 5 0 0 = some 0xFFFFFFFFFFFFFFFF := by decide +kernel
theorem test_remn_zero : s3After (.remn r3) 5 0 0 = some 5 := by decide +kernel
/-- R160: the amount is b[5:0], so 65 shifts by 1, with the sign filled in. -/
theorem test_shra_amount : s3After (.shra r3) 0x8000000000000004 65 0 = some 0xC000000000000002 := by decide +kernel
/-- R160: 64 zero bits lead in 0. -/
theorem test_clz_zero : s3After (.clz { sp := false, d := 3#6, a := 1#6 }) 0 0 0 = some 64 := by decide +kernel
/-- R161: the low n bits of a replace D[p+n−1:p]. -/
theorem test_bfi_field : s3After (.bfi { sp := false, d := 3#6, a := 1#6, pos := 8#6, len := 4#6 }) 0xFFA 0 0xFFFFF = some 0xFFAFF := by
  decide +kernel
/-- R162: LIH keeps [35:0] and sets [63:36]. -/
theorem test_lih_keeps_low : s3After (.lih { sp := false, d := 3#6, a := 1#6, imm := 0x1234567#36 }) 0xABCDEF9876543210 0 0 =
    some 0x1234567876543210 := by decide +kernel
/-- R163: the arm that is not selected is not consumed. -/
theorem test_csel_arm : (match exec (.csel { sp := false, d := 3#6, a := 1#6, b := 2#6, c := 4#6 })
      (poisonS (withS stT [(1, 9#64), (4, 1#64)]) 2) with
    | .next t => some (t.ctx.base.getS 3).bits
    | _ => none) = some 9#64 := by decide +kernel
/-! ### Witnesses: queues, posting -/

/-- A queue that is reached, at address 0x20000 in s1. -/
theorem reaches_queue (closed : Bool) (pushed popped : Nat) (q : QDesc)
    (h : (withQueue (withS stT [(1, 0x20000#64)]) closed pushed popped).qdesc 0x20000 = some q) (hq : q.pa = 0x20000) (sc : Nat) :
    Say.Reaches (withQueue (withS stT [(1, 0x20000#64)]) closed pushed popped) 0x20000#64 sc q :=
  ⟨by decide, ⟨_, rfl, hq⟩, by rw [hq]; rfl, by rw [hq]; exact h, by rw [hq]; rfl⟩

/-- An entry held, none and closed, none and open: QPOP's cases (R180). -/
theorem wit_QueuesPopAndPush_pop : let s (closed : Bool) (pushed popped : Nat) := withQueue (withS stT [(1, 0x20000#64)]) closed pushed popped
    (∃ q, Say.Reaches (s false 3 2) 0x20000#64 3 q ∧ 0 < q.count ∧ (∀ c ∈ (s false 3 2).ctxs, (s false 3 2).aheadOf q.pa c = false) ∧
      (s false 3 2).ringSlot q q.popped = .ok 0x30010) ∧
    (∃ q, Say.Reaches (s true 2 2) 0x20000#64 3 q ∧ q.count = 0 ∧ q.closed = true) ∧
    (∃ q, Say.Reaches (s false 2 2) 0x20000#64 3 q ∧ q.count = 0 ∧ q.closed = false) ∧
    (s false 3 2).Clean [1#6] ∧ ((s false 3 2).rd 1#6).bits = 0x20000#64 :=
  ⟨⟨{ pa := 0x20000, base := 0x30000, cap := 16, closed := false, pushed := 3, popped := 2 },
      reaches_queue _ _ _ _ (by decide +kernel) rfl _, by decide, by decide, rfl⟩,
    ⟨{ pa := 0x20000, base := 0x30000, cap := 16, closed := true, pushed := 2, popped := 2 },
      reaches_queue _ _ _ _ (by decide +kernel) rfl _, by decide, rfl⟩,
    ⟨{ pa := 0x20000, base := 0x30000, cap := 16, closed := false, pushed := 2, popped := 2 },
      reaches_queue _ _ _ _ (by decide +kernel) rfl _, by decide, rfl⟩, by unfold State.Clean; decide, by decide⟩

/-- Room, a closed queue, a full one, a poisoned value: QPUSH's cases (R181). -/
theorem wit_QueuesPopAndPush_push : let s (closed : Bool) (pushed popped : Nat) := withQueue (withS stT [(1, 0x20000#64)]) closed pushed popped
    (∃ q, Say.Reaches (s false 17 2) 0x20000#64 3 q ∧ q.closed = false ∧ q.count < q.cap ∧
      (s false 17 2).ringSlot q q.pushed = .ok 0x30008 ∧ q.pa + 64 ≤ 0x30008) ∧
    (∃ q, Say.Reaches (s true 2 2) 0x20000#64 3 q ∧ q.closed = true) ∧
    (∃ q, Say.Reaches (s false 18 2) 0x20000#64 3 q ∧ q.closed = false ∧ q.cap ≤ q.count) ∧
    ((poisonS stT 2).rd 2#6).pois = true :=
  ⟨⟨{ pa := 0x20000, base := 0x30000, cap := 16, closed := false, pushed := 17, popped := 2 },
      reaches_queue _ _ _ _ (by decide +kernel) rfl _, rfl, by decide, rfl, by decide⟩,
    ⟨{ pa := 0x20000, base := 0x30000, cap := 16, closed := true, pushed := 2, popped := 2 },
      reaches_queue _ _ _ _ (by decide +kernel) rfl _, rfl⟩,
    ⟨{ pa := 0x20000, base := 0x30000, cap := 16, closed := false, pushed := 18, popped := 2 },
      reaches_queue _ _ _ _ (by decide +kernel) rfl _, rfl, by decide⟩, by decide⟩

/-- A bind aligned and not, an unbind of a bound register, a bound source with its held entry (R156, R182). -/
theorem wit_BoundRegistersPopAndBind : let b := withCtx (withS stT [(2, 4#64)]) (fun c => { c with
      qbinds := [(0, { desc := some 0x20000#64, scope := 3#3, held := some { bits := 5#64, pois := false } })] })
    (stT.rd 1#6).bits.toNat % 64 = 0 ∧ ((withS stT [(1, 8#64)]).rd 1#6).bits.toNat % 64 ≠ 0 ∧
    (b.ctx.qbind 0).desc.isSome = true ∧ b.ctx.boundSlot 56#6 = some 0 ∧ (b.ctx.qbind 0).held = some { bits := 5#64, pois := false } ∧
    b.bank.pends 56#6 = false ∧ b.Plain [2#6, 3#6] ∧ b.Clean [2#6] :=
  ⟨by decide, by decide, by decide, by decide, by decide, by decide, by unfold State.Plain; decide, by unfold State.Clean; decide⟩

/-- A bound register without held entry, its queue with an entry, empty, full and closed (R34, R156, R182). -/
theorem wit_BoundRegistersPopAndBind_queue :
    let s (closed : Bool) (pushed popped : Nat) := withCtx (withQueue (withS stT [(2, 4#64)]) closed pushed popped) (fun c =>
      { c with qbinds := [(0, { desc := some 0x20000#64, scope := 3#3, held := none })] })
    (s false 3 2).ctx.boundSlot 56#6 = some 0 ∧ ((s false 3 2).ctx.qbind 0).held = none ∧ (s false 3 2).bank.pends 56#6 = false ∧
    (s false 3 2).givenEntry = none ∧ (s false 3 2).Plain [2#6, 3#6] ∧ (s false 3 2).Clean [2#6] ∧
    (∃ q, Say.Reaches (s false 3 2) 0x20000#64 3 q ∧ 0 < q.count ∧ (∀ c ∈ (s false 3 2).ctxs, (s false 3 2).aheadOf q.pa c = false) ∧
      ((s false 3 2).flushBytes q.pa 64).ringSlot q q.popped = .ok 0x30010 ∧
      (((s false 3 2).flushBytes q.pa 64).flushBytes 0x30010 8).marked 0x30010 = false ∧
      q.closed = false ∧ q.count < q.cap ∧ ((s false 3 2).flushBytes q.pa 64).ringSlot q q.pushed = .ok 0x30018 ∧ q.pa + 64 ≤ 0x30018) ∧
    (∃ q, Say.Reaches (s false 2 2) 0x20000#64 3 q ∧ q.count = 0 ∧ q.closed = false) ∧
    (∃ q, Say.Reaches (s false 18 2) 0x20000#64 3 q ∧ q.closed = false ∧ q.cap ≤ q.count) ∧
    (∃ q, Say.Reaches (s true 2 2) 0x20000#64 3 q ∧ q.closed = true) := by
  refine ⟨by decide, by decide, by decide, by decide, by unfold State.Plain; decide, by unfold State.Clean; decide,
    ⟨{ pa := 0x20000, base := 0x30000, cap := 16, closed := false, pushed := 3, popped := 2 }, ?_, by decide, by decide, rfl, by decide,
      rfl, by decide, rfl, by decide⟩,
    ⟨{ pa := 0x20000, base := 0x30000, cap := 16, closed := false, pushed := 2, popped := 2 }, ?_, by decide, rfl⟩,
    ⟨{ pa := 0x20000, base := 0x30000, cap := 16, closed := false, pushed := 18, popped := 2 }, ?_, rfl, by decide⟩,
    ⟨{ pa := 0x20000, base := 0x30000, cap := 16, closed := true, pushed := 2, popped := 2 }, ?_, rfl⟩⟩
  all_goals exact ⟨by decide, ⟨_, rfl, rfl⟩, rfl, by decide +kernel, rfl⟩

/-- In a handler and not, with a task of crew 1, SPAWN's counts and a record as it should be (R184, R327). -/
theorem wit_TaskEndsAndWorkIsPosted : let s := withMem (withPart (withS stT [(1, 0x40000#64), (2, 1#64)])) 0x40000 128 recordNat
    (withCtx stT (fun c => { c with thnd := true })).ctx.inHandler = true ∧ stT.ctx.inHandler = false ∧ stT.ctx.task = none ∧
    (withTask stT id).ctx.task = some 0 ∧ (withCtx (withTask stT id) (fun c => { c with thnd := true })).ctx.inHandler = true ∧
    (∀ u ∈ (withTask stT id).tasks, u.id ≠ (withTask stT id).postSeq) ∧ ((withTask stT id).findTask 0).map (fun k => (k.crew, k.state)) = some (1, .running) ∧
    (stT.rd 2#6).bits.toNat = 0 ∧ (s.rd 2#6).bits.toNat = 1 ∧
    ((s.releaseAll 3).readRecords 0x40000 1).toOption = some [(0x40000, recordNat)] ∧ (s.releaseAll 3).recordBad 1 0x40000 recordNat = false ∧
    (s.releaseAll 3).recordBad 1 0x40000 (recordNat + 2 ^ 160) = true ∧
    (s.releaseAll 3).overflowRoom [(s.releaseAll 3).taskOf 1 1 0x40000#64 recordNat none] 1 = true ∧
    ({ s with committed := [] } : State).overflowRoom [taskT] 1 = false :=
  ⟨by decide, by decide, by decide, by decide, by decide, by decide, (by decide), by decide, by decide +kernel, by decide +kernel, by decide +kernel, by decide +kernel,
    (by decide +kernel), by decide +kernel⟩

/-! ### Witnesses: memory and synchronisation -/

/-- An access that translates, clean and marked; one that does not, with its DATA_FAULT; scratchpad bytes in a bank that
is FULL, clean and marked; a range that ends one byte past SPSIZE (R189, R194). -/
theorem wit_LoadsReadWhatTheCoreSees : let s := withS stT [(1, 0x20000#64)]
    let m : State := { s with marks := [(0x20000 / 64, true)] }
    let p := withCtx s (fun c => { c with banks := [(0, { PadBank.entry with state := .full })] })
    s.Clean [1#6] ∧ (Say.addr s 1#6 16#24).toNat = 0x20010 ∧ Say.bytes 3#2 = 8 ∧ Say.Whole s 0x20010 8 ∧ Say.Whole s 0x20011 8 ∧
    s.inWindow 0x20010 8 = none ∧ (∃ ps, s.checkData 0x20010 8 .r = .ok ps ∧ Say.Roomy s ps 0x20010 8 ∧ Say.seenBad s ps 0x20010 8 = false ∧ Say.seenBad m ps 0x20010 8 = true) ∧
    (∃ s1 c, ({ s with tlb := [] } : State).checkData 0x20010 8 .r = .error (s1, c) ∧ c.code = 0x05#8) ∧
    (0 + 8 ≤ p.ctx.spSize ∧ (∀ b ∈ banksOf 0 8, p.ctx.padReady b = true) ∧ p.ctx.padPoison 0 8 = false ∧
      (withCtx p (fun c => { c with gpois := [(0, true)] })).ctx.padPoison 0 8 = true) ∧
    s.ctx.spSize < (48 * 16384 - 7) + 8 :=
  ⟨by unfold State.Clean; decide, by decide, by decide, by unfold Say.Whole; decide, by unfold Say.Whole; decide, by decide,
    ⟨_, rfl, .inl (by decide), by decide, by decide⟩, ⟨_, _, rfl, by decide⟩, by decide, by decide⟩

/-- A store past L1, one in L1, one in a reduction window, scratchpad bytes, a range past SPSIZE (R192, R136). -/
theorem wit_StoresWriteTheirBytesAndNoOther : let s := withS stT [(1, 0x20000#64), (2, 0x1122#64)]
    let w : State := { s with windows := [{ ident := 3, part := 1, vdn := 1, base := 0x20000, size := 65536, w64 := true, home := 0 }] }
    let c1 := withCtx s (fun c => { c with l1size := 1#2 })
    (∃ ps, s.checkData 0x20000 2 .w = .ok ps ∧ (s.inWindow 0x20000 2).isNone = true ∧ physOf ps 0x20000 ≠ physOf ps 0x20001 ∧
      pageL1 s ps 0x20000 = false ∧ pageL1 c1 ps 0x20000 = true ∧ Say.Roomy c1 ps 0x20000 2 ∧ Say.Whole s 0x20000 2) ∧
    (w.inWindow 0x20000 2).isSome = true ∧ (w.inWindow 0x2FFFF 1).isSome = true ∧ (w.inWindow 0x30000 1).isNone = true ∧
    s.ctx.spSize < 786431 + 2 ∧ 786430 + 2 ≤ s.ctx.spSize :=
  ⟨⟨_, rfl, by decide, by decide, by decide, by decide, by unfold Say.Roomy; decide, by unfold Say.Whole; decide⟩, by decide, by decide, by decide,
    by decide, by decide⟩

/-- An operation and CAS with clean sources; a misaligned address; a line whose record refuses the scope; a marked line;
a line that is neither (R132, R197). -/
theorem wit_AtomicsActAtTheHome : let s := withS stT [(1, 0x20000#64), (2, 5#64), (3, 9#64)]
    (s.Clean [1#6, 2#6, 3#6] ∧ Say.atom 8 { scope := 3#3, d := 3#6, a := 1#6, b := 2#6, w := 2#2, off := 0#24 } =
      .atomSwap { scope := 3#3, d := 3#6, a := 1#6, b := 2#6, w := 2#2, off := 0#24 }) ∧
    (Say.addr s 1#6 2#24).toNat % Say.bytes 2#2 ≠ 0 ∧ (Say.addr s 1#6 4#24).toNat % Say.bytes 2#2 = 0 ∧
    (∃ ps, s.checkData 0x20004 4 .rw = .ok ps ∧ s.inWindow 0x20004 4 = none ∧ physOf ps 0x20004 = 0x20004) ∧
    (({ s with scopes := [(0x800, some { scope := 0, inst := .core 5, words := 1#8 })] } : State).flushGranule 0x20004).scopeOk s.me 3 0x20004 = false ∧
    (({ s with marks := [(0x800, true)] } : State).flushGranule 0x20004).marked 0x20004 = true ∧
    (s.flushGranule 0x20004).scopeOk s.me 3 0x20004 = true ∧ (s.flushGranule 0x20004).marked 0x20004 = false :=
  ⟨⟨by unfold State.Clean; decide, by decide⟩, by decide, by decide, ⟨_, rfl, by decide, by decide⟩, by decide, by decide, by decide, by decide⟩

/-- No wait at the instruction; aligned and not; a counter that has reached B and one below it by one (R127, R200). -/
theorem wit_CountersFencesAndBindings_counters : let s := withMem (withS stT [(1, 0x20000#64), (2, 5#64)]) 0x20008 8 5
    s.waitHere? = none ∧ s.Clean [1#6, 2#6] ∧ (Say.addr s 1#6 4#24).toNat % 8 ≠ 0 ∧ (Say.addr s 1#6 8#24).toNat % 8 = 0 ∧
    s.inWindow 0x20008 8 = none ∧
    (∃ ps, s.checkData 0x20008 8 .rw = .ok ps ∧ s.scopeOk s.me 3 (physOf ps 0x20008) = true ∧ 5 ≤ s.natAt (physOf ps 0x20008) 8) ∧
    (∃ ps, s.checkData 0x20008 8 .r = .ok ps ∧ s.natAt (physOf ps 0x20008) 8 < 6) ∧
    (let m := withCtx s (fun c => { c with base := { c.base with wait := some { waitZ with kind := .counter 0x20008 9#64, checked := true, given := .met } } });
      m.waitHere? = some { waitZ with kind := .counter 0x20008 9#64, checked := true, given := .met }) :=
  ⟨by decide, by unfold State.Clean; decide, by decide, by decide, by decide, ⟨_, rfl, by decide, by decide⟩, ⟨_, rfl, by decide⟩, by decide⟩

/-- BIND's cases at their boundaries: 2^30 bytes and one line more, a counter misaligned, an entry there or not, 31 and 32
entries; UNBIND with the entry and without (R203, R204). -/
theorem wit_CountersFencesAndBindings_fences : let s := withS stT [(1, 0x20000#64), (2, 0x40000000#64), (3, 0x30008#64), (4, 0x40000100#64), (5, 0x3000C#64)]
    let b : Binding := { base := 0x20000#64, len := 0x100#64, cnt := 0x30008#64 }
    s.Clean [1#6, 2#6, 3#6, 4#6, 5#6] ∧ 2 ^ 30 < (s.rd 4#6).bits.toNat ∧
    ¬ ((s.rd 1#6).bits.toNat % 256 ≠ 0 ∨ (s.rd 2#6).bits.toNat = 0 ∨ (s.rd 2#6).bits.toNat % 256 ≠ 0 ∨ 2 ^ 30 < (s.rd 2#6).bits.toNat) ∧
    (s.rd 5#6).bits.toNat % 8 ≠ 0 ∧
    ¬ ((s.rd 3#6).bits.toNat % 8 ≠ 0 ∨ s.touchesRegion s.ctx (s.rd 3#6).bits.toNat 8 = true ∨ (s.inWindow (s.rd 3#6).bits.toNat 8).isSome = true) ∧
    ((withCtx s (fun c => { c with bindings := [b] })).ctx.bindings.any (fun x => x.base == 0x20000#64 && x.cnt == 0x30008#64)) = true ∧
    s.ctx.bindings = [] ∧ (List.replicate 32 { b with base := 0#64 }).length = 32 ∧
    (List.replicate 32 { b with base := 0#64 }).all (fun x => x.base != 0x20000#64) = true :=
  ⟨by unfold State.Clean; decide, by decide, by decide, by decide, by decide, (by decide), by decide, by decide, by decide⟩

/-! ### Witnesses: versioned memory -/

/-- A version of that number, one below the floor, one not yet made; FULL and idle tile register (R107, R207). -/
theorem wit_VersionLoadsReadTheChosenVersion : let s := withRegion (withS stT [(1, 0x80000#64), (2, 3#64)]) [ver3]
    let r := regionT [ver3]
    s.Clean [1#6, 2#6] ∧ s.versioned 0x80000 256 .r = .ok r ∧ s.versioned 0x800F8 8 .r = .ok r ∧ Say.Awake s 4 ∧
    s.ctx.inHandler = false ∧ s.tileBusy 4 = false ∧ r.find 0 0 0 3 = .ver ver3 ∧ versionScopeOk s.me 3 ver3 = true ∧
    r.find 0 0 0 1 = .missing ∧ r.find 0 0 0 2 = .wait ∧ r.find 0 0 1 3 = .ver ver3 ∧ r.find 0 1 2 0 = .wait ∧ s.waitHere? = none ∧
    (withCtx s (fun c => { c with base := { c.base with wait := some { waitZ with kind := .version 0x80000#64 0 3, given := .line ver3 } } })).given
      (.version 0x80000#64 0 3) = .line ver3 :=
  ⟨by unfold State.Clean; decide, rfl, rfl, by unfold Say.Awake; decide, by decide +kernel, by decide +kernel, by decide +kernel, by decide +kernel, (by decide +kernel), by decide +kernel,
    by decide +kernel, by decide +kernel, by decide +kernel, by decide +kernel⟩

/-- A number at the floor with room, the exhausted number, one below the floor, one already there; a build begun and one
ended (R103, R104). -/
theorem wit_CreationsMakeVersionsExist : let s := withRegion (withS stT [(1, 0x80000#64), (2, 2#64)]) [ver3]
    let r := regionT [ver3]
    let b : Build := { sector := 0x80000#64, version := 2#32, scope := 3#3, words := 1#32, pois := 0#4, data := 7#2048 }
    Say.NoneWaits s ∧ Say.Region.now r s = some r ∧ r.base.toNat % 256 = 0 ∧ s.Clean [1#6, 2#6] ∧ s.waitHere? = none ∧ r.mirror = false ∧
    s.versioned 0x80000 256 .w = .ok r ∧ Say.Awake s 4 ∧ s.tileBusy 4 = false ∧
    (r.floor ≤ 2 ∧ (∀ u ∈ (r.sec 0).vers, u.num ≠ 2) ∧ s.versionRoom r 0 = true) ∧
    (0xFFFFFFFF : Nat) % 2 ^ 32 = 0xFFFFFFFF ∧ 1 < r.floor ∧ (∃ u ∈ (r.sec 0).vers, u.num = 3) ∧
    s.versioned 0x80008 8 .w = .ok r ∧ s.ctx.builds = [] ∧
    ((withCtx s (fun c => { c with builds := [b] })).ctx.builds = [b] ∧
      (withCtx s (fun c => { c with builds := [b] })).attached (withCtx s (fun c => { c with builds := [b] })).ctx 0x80000 = some r) :=
  ⟨by unfold Say.NoneWaits; decide, by decide +kernel, by decide +kernel, by unfold State.Clean; decide, by decide +kernel, rfl, rfl, by unfold Say.Awake; decide, by decide +kernel,
    by decide +kernel, by decide +kernel, by decide +kernel, ⟨ver3, by decide +kernel, rfl⟩, rfl, by decide +kernel, by decide +kernel⟩

/-- A region whose sectors are listed once, versions rising; a misaligned address; a sector without versions (R211, R212). -/
theorem wit_FloorsAndAttachments_floors : let s := withRegion (withS stT [(1, 0x80000#64), (2, 4#64), (3, 0x80010#64)]) [ver3]
    let r := regionT [ver3]
    Say.NoneWaits s ∧ s.Clean [1#6, 2#6, 3#6] ∧ s.versioned 0x80000 1 .w = .ok r ∧ (r.secs.map Prod.fst).Nodup ∧
    (s.rd 3#6).bits.toNat % 256 ≠ 0 ∧ s.versioned 0x80000 256 .r = .ok r ∧
    ((r.sec 0).vers.map Ver.num).Pairwise (fun a b => a < b) ∧ (∃ u ∈ (r.sec 0).vers, u.exist = true) ∧
    (∀ u ∈ (r.sec 1).vers, u.exist = false) :=
  ⟨by unfold Say.NoneWaits; decide, by unfold State.Clean; decide, rfl, by decide +kernel, by decide +kernel, rfl, by decide +kernel, ⟨ver3, by decide +kernel, rfl⟩, by decide +kernel⟩

/-- A misaligned descriptor; SECTORS 0 and an empty slot; an occupied slot; a reserved bit; a new region; one attached to
(R98, R99). -/
theorem wit_FloorsAndAttachments_regions : let s := withMem (withRegion (withS stT [(1, 0x40000#64)]) []) 0x40000 32 (0x80000 + 2 ^ 64 * 256)
    let n := withCtx { s with regions := [] } (fun c => { c with rslots := [] })
    s.Clean [1#6] ∧ (0x40010 : Nat) % 32 ≠ 0 ∧
    ((s.loadAt 0x40000 32 .r).toOption.map (fun x => (natOfBytes x.2.1, x.2.2)) = some (0x80000 + 2 ^ 64 * 256, false)) ∧
    (regionDesc 0).sectors = 0 ∧ Sparse.get (fun _ => none) s.ctx.rslots 1 = none ∧
    (Sparse.get (fun _ => none) s.ctx.rslots 0).isSome = true ∧ (regionDesc (0x80000 + 2 ^ 64 * 256 + 2 ^ 132)).bad = true ∧
    (n.regionStatus 0 (regionDesc (0x80000 + 2 ^ 64 * 256))).toOption.map Prod.snd = some 0 ∧ n.regionAt 1 0x80000 = none ∧
    (s.regionStatus 1 (regionDesc (0x80000 + 2 ^ 64 * 256))).toOption.map Prod.snd = some 0 ∧ s.regionAt 1 0x80000 = some (regionT []) ∧
    (n.regionStatus 0 (regionDesc (0x80000 + 2 ^ 64 * 255))).toOption.map Prod.snd = some 2 ∧
    (∃ e, ({ n with tlb := [], mem := [], committed := n.committed ++ [(0x441, 0x1000000#64), (0x601, 0x1000000#64)], marks := [(0x1000000 / 64, true)] } : State).regionStatus 0
      (regionDesc (0x80000 + 2 ^ 64 * 256)) = .error e) :=
  ⟨by unfold State.Clean; decide, by decide +kernel, by decide +kernel, by decide +kernel, by decide +kernel, (by decide +kernel), by decide +kernel, by decide +kernel, by decide +kernel,
    by decide +kernel, (by decide +kernel), by decide +kernel, ⟨_, rfl⟩⟩

/-! ### Witnesses: bank supply, gutters, landing buffers -/

/-- An ABSENT tile register, an OFF and a FULL one; a bank that is OFF, one FULL; the last bank and the one past it. -/
theorem wit_BankSupplyInstructions : let s := withCtx stT (fun c => { c with
      tiles := [(4, { Tile.entry with state := .full }), (15, { Tile.entry with state := .absent })]
      banks := [(0, { PadBank.entry with state := .full })] })
    (s.ctx.tile 15).state = .absent ∧ s.ctx.inHandler = false ∧
    ((s.ctx.tile 4).state ≠ .absent ∧ (s.ctx.tile 4).waking = false ∧ s.tileBusy 4 = false) ∧ (s.ctx.tile 3).state = .off ∧
    (47 < s.ctx.spbanks ∧ ¬ 48 < s.ctx.spbanks ∧ s.bank.entries = [] ∧ s.ctx.pinned 47 = false ∧ (s.ctx.padBank 47).waking = false ∧
      (s.ctx.padBank 47).state = .off ∧ (s.ctx.padBank 0).state = .full) := by decide

/-- A disabled gutter, one asked for as many slots as it has and for one more, filled enough and not; reads left; an odd
D and an even one (R218 to R220). -/
theorem wit_GuttersAndLandingBuffers : let g : Gutter := { Gutter.zero with en := true, slotg := 1#8, nslot := 4#12, free := 3, filled := 1 }
    let s := withCtx (withS stT [(1, 1#64)]) (fun c => { c with gutters := [(3, g)] })
    let r := withCtx s (fun c => { c with base := { c.base with qL := [entryT (.lwgt flnZ)] } })
    s.Clean [1#6] ∧ (s.ctx.gutter 2).en = false ∧ (s.ctx.gutter 3).en = true ∧ 1 + 3 ≤ (s.ctx.gutter 3).nslot.toNat ∧
    (s.ctx.gutter 3).nslot.toNat < 1 + 4 ∧ 1 ≤ (s.ctx.gutter 3).filled ∧ (s.ctx.gutter 3).filled < 2 ∧
    s.padReadsLeft = false ∧ r.padReadsLeft = true ∧ (3#6 : BitVec 6).toNat % 2 = 1 ∧ (62#6 : BitVec 6).toNat % 2 = 0 ∧
    ((s.ctx.gutter 3).free < 4096 ∧ (s.ctx.gutter 3).head < 4096 ∧ (s.ctx.gutter 3).lens = []) :=
  ⟨by unfold State.Clean; decide, by decide⟩

/-! ### Witnesses: system registers and SYS instructions -/

/-- CSR numbers of each kind: plain, ESTAT, QSTAT, staged; the two that clear when read (R302). -/
theorem wit_SystemRegistersReadAndWrite : let s := withS stS [(1, 0xFF#64)]
    s.Plain [1#6, 2#6] ∧ s.Clean [1#6] ∧ 0x000 ∈ Say.plainCsrs ∧ 0x304 ∈ Say.plainCsrs ∧
    (∃ f : FCsrA, f.csr.toNat = 0x003) ∧ (∃ f : FCsrDA, f.csr.toNat = 0x00C) ∧ (∃ f : FCsrDA, 0x400 ≤ f.csr.toNat) ∧
    (∃ f : FCsrD, f.csr.toNat = 0x00D) ∧ (∃ f : FCsrD, f.csr.toNat = 0x303) :=
  ⟨plain_of rfl rfl _, by unfold State.Clean; decide, by decide, by decide, ⟨{ a := 0#6, csr := 0x003#12 }, by decide⟩,
    ⟨{ d := 0#6, a := 0#6, csr := 0x00C#12 }, by decide⟩, ⟨{ d := 0#6, a := 0#6, csr := 0x400#12 }, by decide⟩,
    ⟨{ d := 0#6, csr := 0x00D#12 }, by decide⟩, ⟨{ d := 0#6, csr := 0x303#12 }, by decide⟩⟩

/-- A gutter written with a span that ends at SPSIZE and one past it, while disabled, enabled, in flight; a landing
buffer likewise (R90, R94). -/
theorem wit_DescriptorAndEventRegisters : let s := stT
    let g : Gutter := { Gutter.zero with en := true, slotg := 1#8, nslot := 4#12 }
    (s.ctx.gutter 3).en = false ∧ s.ctx.spanFree (3072 - 64, 64 * 1) = true ∧ s.ctx.spanFree (3072 - 63, 64 * 1) = false ∧
    (withCtx s (fun c => { c with gutters := [(3, g)] })).ctx.gutter 3 = g ∧ ((withCtx s (fun c => { c with gutters := [(3, g)] })).ctx.gutter 3).en = true ∧
    ((withCtx s (fun c => { c with gutters := [(3, { g with flight := [{ slot := 0, slots := 1, prod := .chan 4096 0, ended := none }] })] })).ctx.gutter 3).flight ≠ [] ∧
    (s.ctx.lbuf 31).en = false ∧ ((withCtx s (fun c => { c with lbufs := [(31, { LBuf.zero with en := true })] })).ctx.lbuf 31).en = true := by
  decide

/-- In a handler and not; an ABSENT register, one not spilled, idle and named by an entry, one spilled; planes likewise
(R317). -/
theorem wit_HandlersReturnSpillAndFill_spill : let s := withCtx stT (fun c => { c with
      thnd := true, tiles := [(4, { Tile.entry with state := .full }), (5, { Tile.entry with spill := some (Tile.entry).copy }),
        (15, { Tile.entry with state := .absent })]
      acc := [(1, { Plane.entry with spill := some (Plane.entry).copy })] })
    let b := withCtx s (fun c => { c with tbank := { c.tbank with qX := [entryT (.xbias { fxmZ with line := { lineZ with tile := 4#4 } })] } })
    stT.ctx.inHandler = false ∧ s.ctx.inHandler = true ∧ (s.ctx.tile 15).state = .absent ∧
    ((s.ctx.tile 4).state ≠ .absent ∧ (s.ctx.tile 4).spill = none ∧ s.tileBusy 4 = false) ∧ b.tileBusy 4 = true ∧
    ((s.ctx.tile 5).spill ≠ none ∧ s.tileBusy 5 = false) ∧ ((s.ctx.plane 0).spill = none ∧ s.planeBusy 0 = false) ∧
    ((s.ctx.plane 1).spill ≠ none ∧ s.planeBusy 1 = false) := by decide

/-- No context there; one in memory, one resident with and without an open handler; a status of R319 that is 0 and one
that is 1 (R318, R319). -/
theorem wit_ContextsMoveAndTranslationsDrop_contexts : let s := withS stS [(1, 8192#64)]
    let m := withOther (withPart s) (fun c => { c with place := .memory, level := .tenant, part := 1#4, vdn := 1#6, spbanks := 16 })
    let g := withMem m 8192 4 (1200 + 65536)
    s.Clean [1#6] ∧ (s.rd 1#6).bits.toNat % 4096 = 0 ∧ s.findCtx 8192 = none ∧
    ((m.findCtx 8192).map Ctx.place = some .memory ∧ m.ctx.id ≠ 8192) ∧
    ((withOther s (fun c => { c with shnd := true })).findCtx 8192).map (fun c => (c.place, c.inHandler)) = some (.core 1, true) ∧
    ((withOther s id).findCtx 8192).map (fun c => (c.place, c.inHandler, c.task)) = some (.core 1, false, none) ∧
    m.loadStatus 8192 ((m.findCtx 8192).getD other) = 1 ∧ g.loadStatus 8192 ((g.findCtx 8192).getD other) = 0 ∧ s.ctx.place ≠ .nowhere ∧
    ((withOther s (fun c => { c with place := .nowhere })).findCtx 8192).map Ctx.place = some .nowhere :=
  ⟨by unfold State.Clean; decide, by decide, by decide +kernel, by decide, by decide, by decide, by decide +kernel, by decide +kernel, by decide, by decide⟩

/-- A saved CTXSAVE request; a context that is the one member of its running task; an area of a partition that is not
enabled, one with a core that fits and one with none, one made by a partition of another form (R318, R319, R386). -/
theorem wit_ContextsMoveAndTranslationsDrop_loads : let s := withS stS [(1, 8192#64)]
    let g := withMem (withPart s) 8192 4 (1200 + 65536)
    let x : Ctx := { other with level := .tenant, part := 1#4, vdn := 1#6, spbanks := 16 }
    let r : State := { withOther s (fun c => { c with task := some 0 }) with tasks := [{ taskT with state := .running, members := [8192] }] }
    ((withOther s (fun c => { c with place := .memory, saveReq := true })).findCtx 8192).map (fun c => (c.place, c.saveReq)) = some (.memory, true) ∧
    ((r.findCtx 8192).map (fun c => (c.place, c.inHandler, c.task)) = some (.core 1, false, some 0) ∧
      (r.findTask 0).map (fun k => (k.id, k.members, k.state)) = some (0, [8192], .running) ∧
      (r.coreSlot 1).run = some 8192 ∧ (r.coreSlot 1).second = none) ∧
    (g.areaOk 8192 = true ∧ s.areaOk 8192 = false ∧ g.partEnabled 2 = false ∧ g.partEnabled 1 = true) ∧
    (x.level = .tenant ∧ Sparse.get (fun _ => none) g.shapes x.vdn.toNat = none ∧ x.lcore.toNat < (g.coresOf x.part.toNat).length ∧
      (∃ p ∈ g.coresOf 1, (g.coreSlot p).fits 16 0 false 0 = true)) ∧
    (∀ p ∈ g.coresOf 1, (g.coreSlot p).fits 49 0 false 0 = false) ∧
    (∃ y, Sparse.get (fun _ => none) ({ g with shapes := [(1, some { cores := 999, hbm := 0, t2 := 0, t2slot := 0, batt := [], frames := [] })] } : State).shapes x.vdn.toNat = some y ∧ y ≠ g.shapeOf 1) ∧
    (s.vdPaused 1 = false) :=
  by decide +kernel

/-- TLBINV of pages, of a device, with reserved bits; ZERORANGE of mapped pages, of a range whose tables do not reach, past
2^48, misaligned (R320, R321). -/
theorem wit_ContextsMoveAndTranslationsDrop_translations : let s := withTables (withS stS [(1, 0x20000#64), (2, 0x20000#64), (3, 0x20008#64)])
    let rsv (x y : Nat) := y / 2 ^ 54 ≠ 0 ∨ y / 2 ^ 40 % 2 ^ 8 ≠ 0 ∨ (y % 2 ^ 40 = 0 ∧ x ≠ 0)
    s.Clean [1#6, 2#6, 3#6] ∧ ¬ rsv 0x20000 (2 ^ 48 + 2) ∧ ¬ rsv 0 (2 ^ 48) ∧ rsv 0x20000 (2 ^ 48) ∧ rsv 0 (2 ^ 40) ∧
    (s.rd 3#6).bits.toNat % 65536 ≠ 0 ∧ (s.ipaPages 0x20000 2).toOption = some [0x20000, 0x30000] ∧
    (stS.ipaPages 0x20000 2).toOption = none ∧ s.parts = false ∧ ({ s with parts := true } : State).parts = true ∧ 2 ^ 48 < (2 ^ 48 - 65536) + 131072 :=
  ⟨by unfold State.Clean; decide, by decide, by decide, by decide, by decide, by decide, by decide +kernel, by decide +kernel, by decide, by decide, by decide⟩

/-- PSYNC without and with its wait, its point handled and not; WDOG at its limit and past it; DLVL of an enabled queue,
of one that is not (R322 to R324). -/
theorem wit_CommitsWatchdogsLevelsAndCancels_commits : let s := withPart (withS stS [(1, 0x100#64), (2, 7#64), (3, 1000000#64), (4, 1000001#64)])
    let w := withCtx s (fun c => { c with base := { c.base with wait := some waitZ } })
    s.waitHere? = none ∧ (w.waitHere?).map WaitSt.since = some 5000 ∧ psyncPoint 5000 = 7168 ∧ (∀ e ∈ w.psyncs, e.1 ≠ 7168) ∧
    (∃ e ∈ ({ w with psyncs := [(7168, [])] } : State).psyncs, e.1 = 7168) ∧
    s.Clean [1#6, 2#6, 3#6, 4#6] ∧ (s.rd 3#6).bits.toNat ≤ 1000000 ∧ 1000000 < (s.rd 4#6).bits.toNat ∧
    (s.partEnabled 1 = true ∧ s.queueOn 1 0 = true) ∧ s.queueOn 1 1 = false ∧ s.partEnabled 2 = false :=
  ⟨by decide, by decide, by decide, by decide, ⟨(7168, []), by decide, rfl⟩, by unfold State.Clean; decide, by decide, by decide, by decide,
    by decide, by decide⟩

/-- CANCEL: misaligned, reserved bits, zero, a partition not enabled; clearing a record that stands and none; issuing with 63
records and with 64 (R28, R29, R325). -/
theorem wit_CommitsWatchdogsLevelsAndCancels_cancels : let s := withPart (withS stS [(1, 0x40#64), (2, 0x100#64), (3, 0x48#64), (4, 0x104#64), (5, 0x1108#64), (6, 0x200#64)])
    let r : CancelRec := { part := 1, addr := 0x40#64, level := 0 }
    let full : State := { s with cancels := (List.range 64).map (fun i => { part := 1, addr := BitVec.ofNat 64 (4096 + 16 * i), level := 0 }) }
    s.Clean [1#6, 2#6, 3#6, 4#6, 5#6, 6#6] ∧ (s.rd 3#6).bits.toNat % 16 ≠ 0 ∧ (s.rd 5#6).bits.toNat / 2 ^ 12 ≠ 0 ∧
    s.partEnabled 1 = true ∧ s.partEnabled 2 = false ∧ (s.rd 4#6).bits.toNat / 4 % 2 = 1 ∧ s.cancels = [] ∧
    (∃ c ∈ ({ s with cancels := [r] } : State).cancels, c.part = 1 ∧ c.addr = 0x40#64 ∧ c.level = 0) ∧
    full.cancelLevel 1 0x40#64 0 = none ∧ (s.cancelLevel 1 0x40#64 0).map (fun u => (u.ctx.qbinds, u.cancels)) = some ([], [{ part := 1, addr := 0x40#64, level := 0 }]) ∧
    (∀ k ∈ s.tasks, k.state = .complete ∨ k.part ≠ 1 ∨ k.counter 0 ≠ 0x40#64) :=
  ⟨by unfold State.Clean; decide, by decide, by decide, by decide, by decide, by decide, by decide, ⟨{ part := 1, addr := 0x40#64, level := 0 }, by decide, by decide⟩, by decide +kernel,
    by decide +kernel, by decide⟩

/-! ### Witnesses: firmware -/

/-- The state a load leaves, or the state itself. -/
def afterLoad (s : State) (va n : Nat) : State :=
  match s.loadAt va n .r with
  | .ok x => x.1
  | .error _ => s

/-- A block that loads clean. -/
theorem block_of {s : State} {a : Reg} {n : Nat} (hc : s.Clean [a]) (ha : (s.rd a).bits.toNat % 64 = 0)
    (h : (s.loadAt (s.rd a).bits.toNat 64 .r).toOption.map (fun x => (natOfBytes x.2.1, x.2.2)) = some (n, false)) :
    Say.Block s (afterLoad s (s.rd a).bits.toNat 64) a n := by
  refine ⟨hc, ha, ?_⟩
  unfold afterLoad
  cases hl : s.loadAt (s.rd a).bits.toNat 64 .r with
  | error e => simp [hl, Except.toOption] at h
  | ok x =>
    obtain ⟨s1, bs, p⟩ := x
    simp only [hl, Except.toOption, Option.map_some, Option.some.injEq, Prod.mk.injEq] at h
    exact ⟨bs, by rw [← h.2], h.1⟩

/-- Within one page a translation moves every byte alike. -/
theorem phys_one {va x : Nat} (o : XOk) (h : va / 65536 = x / 65536) : physOf [(va, o)] x = o.pa + x - va := by
  simp [physOf, List.find?, h]

/-- Bytes within one page lie apart. -/
theorem apart_page (va pa n : Nat) (b c : Bool) (h : va % 65536 + n ≤ 65536) :
    Say.Apart [(va, { pa := pa, nl1 := b, m := c })] va n := by
  intro i j hi hj he
  rw [phys_one _ (by omega), phys_one _ (by omega)] at he
  simp only at he
  omega

/-- A tenant with a service's block at 0x40000, its address in s1. -/
def stF (n : Nat) : State := withMem (withS stT [(1, 0x40000#64)]) 0x40000 64 n

/-- Valid blocks of services 0, 1 and 2 with OUT at 0x50000 and one not mapped; blocks that are not valid; a misaligned
address (R326, R416). -/
theorem wit_FirmwareReports : let n0 := 0x50000 * 2 ^ 64
    let n2 := 0x50000 * 2 ^ 320
    (stF n0).Plain [1#6, 2#6] ∧ (stF n0).Clean [1#6] ∧ ((withS stT [(1, 8#64)]).rd 1#6).bits.toNat % 64 ≠ 0 ∧
    Say.Block (stF n0) (afterLoad (stF n0) 0x40000 64) 1#6 n0 ∧ (Say.fwReport (stF n0) 2#6 1#6 n0 0).map (fun x => (x.2.1, x.2.2.1, x.2.2.2.1)) = some (0x50000, 64, true) ∧
    (Say.fwReport (stF n0) 2#6 1#6 n0 1).map (fun x => (x.2.1, x.2.2.1, x.2.2.2.1)) = some (0x50000, 0, true) ∧
    Say.Block (stF n2) (afterLoad (stF n2) 0x40000 64) 1#6 n2 ∧ (Say.fwReport (stF n2) 2#6 1#6 n2 2).map (fun x => (x.2.1, x.2.2.1, x.2.2.2.1)) = some (0x50000, 2048, true) ∧
    Say.Block (stF 1) (afterLoad (stF 1) 0x40000 64) 1#6 1 ∧ (Say.fwReport (stF 1) 2#6 1#6 1 0).map (fun x => x.2.2.2.1) = some false ∧
    (∀ z ∈ [64, 2048, 640], ((afterLoad (stF n0) 0x40000 64).checkData 0x50000 z .w).toOption = some [(0x50000, { pa := 0x50000, nl1 := false, m := false })] ∧
      Say.Apart [(0x50000, { pa := 0x50000, nl1 := false, m := false })] 0x50000 z) ∧
    ((afterLoad (stF n2) 0x40000 64).checkData 0x50000 2048 .w).toOption = some [(0x50000, { pa := 0x50000, nl1 := false, m := false })] ∧
    ((afterLoad (stF n0) 0x40000 64).checkData (2 ^ 40) 64 .w).toOption = none ∧ (1#36 : BitVec 36) ≠ 0#36 ∧
    (Say.fld n0 0 8 = 0 ∧ Say.fld n0 16 48 = 0 ∧ Say.fld n0 8 8 = 0x50000) ∧ Say.fld 1 0 8 ≠ 0 :=
  ⟨plain_of rfl rfl _, by unfold State.Clean; decide, by decide,
    block_of (by unfold State.Clean; decide) (by decide) (by decide +kernel), by decide +kernel, by decide +kernel,
    block_of (by unfold State.Clean; decide) (by decide) (by decide +kernel), by decide +kernel,
    block_of (by unfold State.Clean; decide) (by decide) (by decide +kernel), by decide +kernel,
    (by intro z hz; simp only [List.mem_cons, List.not_mem_nil, or_false] at hz
        obtain rfl | rfl | rfl := hz <;> exact ⟨by decide +kernel, apart_page _ _ _ _ _ (by decide)⟩),
    by decide +kernel, by decide +kernel, by decide, by decide +kernel, by decide⟩

/-- Partition 1's stage-2 table, whose first entry is its own, and the block of a page operation on page 1, whose entry is
`e`; both in tier 2 or both in HBM. -/
def stPg (hi : Bool) (op fl e : Nat) : State :=
  let t := if hi then 0x10000001000 else 0x1000000
  let b := if hi then 0x10000000000 else 0x40000
  let s := withPart (withS stT [(1, if hi then 0x200000#64 else 0x40000#64)])
  let s := { s with
    committed := s.committed ++ [(0x411, 0x401000000000#64), (0x441, BitVec.ofNat 64 t)]
    tlb := [page 1, { page 1 with vbase := 0x200000, pa := 0x10000000000 }] }
  withMem (withMem (withMem s t 8 (t + 3)) (t + 8) 8 e) b 64 (65536 + 2 ^ 64 + op * 2 ^ 96 + fl * 2 ^ 104)

/-- A successful check. -/
theorem ok_of {ε α : Type} {x : Except ε α} {a : α} (h : x.toOption = some a) : x = .ok a := by
  cases x with
  | error e => simp [Except.toOption] at h
  | ok b => simpa [Except.toOption] using h

/-- A block of services 4 and 5 that is valid, its DONE writable, and one that is not (R367, R368). -/
theorem wit_FirmwareChangesPages : let s := stPg true 0 0 0
    let n := 65536 + 2 ^ 64
    let ps : List (Nat × XOk) := [(0x200010, { pa := 0x10000000010, nl1 := false, m := false })]
    s.Plain [1#6, 2#6] ∧ Say.Block s (afterLoad s 0x200000 64) 1#6 n ∧ (afterLoad s 0x200000 64).checkData 0x200010 4 .w = .ok ps ∧
    (Say.fld n 0 8 % 65536 = 0 ∧ 1 ≤ Say.fld n 8 4 ∧ Say.fld n 8 4 ≤ 16384 ∧ Say.fld n 0 8 + 65536 * Say.fld n 8 4 ≤ 2 ^ 48 ∧
      Say.fld n 13 1 < 32 ∧ Say.fld n 14 2 = 0 ∧ Say.fld n 20 44 = 0 ∧ Say.fld n 12 1 = 0) ∧
    Say.Block (stF 1) (afterLoad (stF 1) 0x40000 64) 1#6 1 ∧ Say.fld 1 0 8 % 65536 ≠ 0 :=
  ⟨plain_of rfl rfl _, block_of (by unfold State.Clean; decide) (by decide) (by decide +kernel), ok_of (by decide +kernel), by decide +kernel,
    block_of (by unfold State.Clean; decide) (by decide) (by decide +kernel), by decide⟩

/-- A frame that firmware takes lies in its tier (R358). -/
theorem freshFrom_bounds (busy : Nat → Bool) (lo n : Nat) (hn : 0 < n) :
    ∀ fuel k f, freshFrom busy lo n fuel k = some f → lo ≤ f ∧ f < lo + n := by
  intro fuel
  induction fuel with
  | zero => intro k f h; simp [freshFrom] at h
  | succ m ih =>
    intro k f h
    have := Nat.mod_lt k hn
    simp only [freshFrom] at h
    split at h
    · exact ih _ _ h
    · cases h; omega

/-- Where the search meets a frame that is not busy, it ends with a frame. -/
theorem freshFrom_some (busy : Nat → Bool) (lo n j : Nat) :
    ∀ fuel k, j < fuel → busy (lo + (k + j) % n) = false → ∃ f, freshFrom busy lo n fuel k = some f := by
  intro fuel
  induction fuel generalizing j with
  | zero => intro k h; omega
  | succ m ih =>
    intro k hj hb
    simp only [freshFrom]
    split
    · cases j with
      | zero => simp_all
      | succ i => exact ih i (k + 1) (by omega) (by rw [show k + 1 + i = k + (i + 1) by omega]; exact hb)
    · exact ⟨_, rfl⟩

/-- Where every frame is busy there is none. -/
theorem freshFrom_none (busy : Nat → Bool) (lo n : Nat) (hn : 0 < n) (h : ∀ f, lo ≤ f → f < lo + n → busy f = true) :
    ∀ fuel k, freshFrom busy lo n fuel k = none := by
  intro fuel
  induction fuel with
  | zero => intro k; rfl
  | succ m ih =>
    intro k
    have := Nat.mod_lt k hn
    simp only [freshFrom]
    rw [h (lo + k % n) (by omega) (by omega)]
    exact ih _

/-- A frame of HBM that is not busy makes firmware take one, in HBM. -/
theorem fresh_low (s : State) (pair : Bool) (y : Nat) (hy : y < 2 ^ 23)
    (hb : (s.frameBusy y || (pair && s.frameBusy (mirrorFrame y))) = false) :
    ∃ f, s.freshFrame false pair = some f ∧ f < 2 ^ 39 := by
  obtain ⟨f, hf⟩ := freshFrom_some (fun f => s.frameBusy f || (pair && s.frameBusy (mirrorFrame f))) 0 (2 ^ 23)
    ((y + 2 ^ 23 - Config.freePage s.free % 2 ^ 23) % 2 ^ 23) (2 ^ 23) (Config.freePage s.free) (by omega)
    (by rw [show 0 + (Config.freePage s.free + (y + 2 ^ 23 - Config.freePage s.free % 2 ^ 23) % 2 ^ 23) % 2 ^ 23 = y by omega]; exact hb)
  have := freshFrom_bounds _ 0 (2 ^ 23) (by decide) _ _ _ hf
  refine ⟨65536 * f, ?_, by omega⟩
  simp only [State.freshFrame, tierFrames, Bool.false_eq_true, if_false]
  rw [hf]; rfl

/-- The same of tier 2. -/
theorem fresh_high (s : State) (pair : Bool) (y : Nat) (hy : y < 2 ^ 24)
    (hb : (s.frameBusy (2 ^ 24 + y) || (pair && s.frameBusy (mirrorFrame (2 ^ 24 + y)))) = false) :
    ∃ f, s.freshFrame true pair = some f ∧ 2 ^ 40 ≤ f ∧ f < 2 ^ 41 := by
  obtain ⟨f, hf⟩ := freshFrom_some (fun f => s.frameBusy f || (pair && s.frameBusy (mirrorFrame f))) (2 ^ 24) (2 ^ 24)
    ((y + 2 ^ 24 - Config.freePage s.free % 2 ^ 24) % 2 ^ 24) (2 ^ 24) (Config.freePage s.free) (by omega)
    (by rw [show (Config.freePage s.free + (y + 2 ^ 24 - Config.freePage s.free % 2 ^ 24) % 2 ^ 24) % 2 ^ 24 = y by omega]; exact hb)
  have := freshFrom_bounds _ (2 ^ 24) (2 ^ 24) (by decide) _ _ _ hf
  refine ⟨65536 * f, ?_, by omega, by omega⟩
  simp only [State.freshFrame, tierFrames, if_true]
  rw [hf]; rfl

/-- Which frame it is depends on what is in use, not on memory. -/
theorem fresh_congr (s t : State) (tier2 pair : Bool) (h1 : s.frames = t.frames) (h2 : s.retired = t.retired)
    (h3 : s.committed = t.committed) (h4 : s.free = t.free) : s.freshFrame tier2 pair = t.freshFrame tier2 pair := by
  simp only [State.freshFrame, State.frameBusy, State.namedRanges, State.cfgField, State.cfg, h1, h2, h3, h4]

/-- What a page operation needs of its page: the entry found, and what it holds. -/
def PageAt (u : State) (slot e : Nat) : Prop :=
  Inv u ∧ State.entryOf false 65536 walkLevels (u.cfg (0x440 + 1)).toNat u = some (u, slot) ∧ u.natAt slot 8 = e

/-- An answer that evaluates to a state's own entry. -/
theorem pageAt_of (u : State) (slot e : Nat) (h : Inv u)
    (h1 : (State.entryOf false 65536 walkLevels (u.cfg (0x440 + 1)).toNat u == some (u, slot)) = true) (h2 : u.natAt slot 8 = e) :
    PageAt u slot e := ⟨h, by simpa using h1, h2⟩

/-- MAP of an empty entry, UNMAP and new permissions of a mapped one; a frame of each tier that is not in use; no frame
at all (R367). -/
theorem wit_FirmwareChangesPagesAndWindows_map : let u := stPg true 0 0 0
    (PageAt u 0x10000001008 0 ∧ u.cfg (0x440 + 1) ≠ 0#64 ∧ u.pagesUsed 1 false < u.pageQuota 1 false ∧
      ∃ new, u.freshFrame false false = some new ∧ (framesOf new false).Nodup ∧
        ∀ x ∈ framesOf new false, Say.Disjoint (65536 * x) 65536 0x10000001008 8) ∧
    PageAt (stPg true 1 0 0x50001) 0x10000001008 0x50001 ∧ isTier2 0x50000 = false ∧
    (u.frameBusy 100 = false ∧ u.frameBusy (mirrorFrame 100) = false ∧ u.frameBusy (2 ^ 24 + 100) = false) := by
  refine ⟨⟨pageAt_of _ _ _ (by unfold Inv; decide +kernel) (by decide +kernel) (by decide +kernel), by decide +kernel, by decide +kernel, ?_⟩,
    pageAt_of _ _ _ (by unfold Inv; decide +kernel) (by decide +kernel) (by decide +kernel), by decide, by decide +kernel⟩
  obtain ⟨new, h, hb⟩ := fresh_low (stPg true 0 0 0) false 100 (by decide) (by decide +kernel)
  refine ⟨new, h, by simp [framesOf], ?_⟩
  intro x hx
  simp only [framesOf, Bool.false_eq_true, if_false, List.mem_singleton] at hx
  simp only [Say.Disjoint]
  omega

/-- Where no table is made the walk depends on memory alone, and changes nothing. -/
theorem entryOf_congr (ipa : Nat) (s u : State) (h : ∀ a n, u.natAt a n = s.natAt a n) :
    ∀ l tbl, State.entryOf false ipa l tbl u = (State.entryOf false ipa l tbl s).map (fun x => (u, x.2)) := by
  intro l
  induction l with
  | nil => intro tbl; rfl
  | cons e l ih =>
    intro tbl
    obtain ⟨lo, nb, lvl⟩ := e
    simp only [State.entryOf, h, ih]
    repeat' split
    all_goals simp_all

/-- Every frame of HBM retired: firmware has none for a mapped page's move (R368). -/
theorem wit_FirmwareChangesPagesAndWindows_full (r : List Nat) (hr : ∀ f < 2 ^ 23, f ∈ r) :
    let u : State := { stPg true 5 0 0x50001 with retired := r }
    State.entryOf false 65536 walkLevels (u.cfg (0x440 + 1)).toNat u = some (u, 0x10000001008) ∧ Inv u ∧
      u.natAt 0x10000001008 8 = 0x50001 ∧ u.freshFrame false false = none := by
  intro u
  have hp := pageAt_of (stPg true 5 0 0x50001) 0x10000001008 0x50001 (by unfold Inv; decide +kernel) (by decide +kernel) (by decide +kernel)
  refine ⟨?_, hp.1, hp.2.2, ?_⟩
  · have e := entryOf_congr 65536 (stPg true 5 0 0x50001) u (fun _ _ => rfl) walkLevels (u.cfg (0x440 + 1)).toNat
    rw [e, show State.entryOf false 65536 walkLevels (u.cfg (0x440 + 1)).toNat (stPg true 5 0 0x50001) =
      some (stPg true 5 0 0x50001, 0x10000001008) from hp.2.1]
    rfl
  · simp only [State.freshFrame, tierFrames, Bool.false_eq_true, if_false]
    rw [freshFrom_none _ 0 (2 ^ 23) (by decide) (fun f _ h => by
      have := hr f (by omega)
      simp [State.frameBusy, u, this])]
    rfl

/-- Such a list of retired frames. -/
theorem wit_FirmwareChangesPagesAndWindows_retired : ∃ r : List Nat, ∀ f < 2 ^ 23, f ∈ r :=
  ⟨List.range (2 ^ 23), fun _ h => List.mem_range.mpr h⟩

/-- Moves between the tiers, and retirement: the frame firmware takes is one of two that do not meet (R367, R368). -/
theorem wit_FirmwareChangesPagesAndWindows_move :
    (let u := stPg false 3 0 0x50001;
      PageAt u 0x1000008 0x50001 ∧ u.pagesUsed 1 true < u.pageQuota 1 true ∧
        ∃ new, u.freshFrame true false = some new ∧
          let fs := framesOf 0x50000 false ++ framesOf new false;
          fs.Nodup ∧ ∀ x ∈ fs, Say.Disjoint (65536 * x) 65536 0x1000008 8) ∧
    (∃ x, let u := stPg true 5 0 (65536 * x + 1);
      PageAt u 0x10000001008 (65536 * x + 1) ∧
        ∃ new, u.freshFrame false false = some new ∧
          let fs := framesOf (65536 * x) false ++ framesOf new false;
          fs.Nodup ∧ ∀ y ∈ fs, Say.Disjoint (65536 * y) 65536 0x10000001008 8) := by
  constructor
  · refine ⟨pageAt_of _ _ _ (by unfold Inv; decide +kernel) (by decide +kernel) (by decide +kernel), by decide +kernel, ?_⟩
    obtain ⟨new, h, hb⟩ := fresh_high (stPg false 3 0 0x50001) false 100 (by decide) (by decide +kernel)
    refine ⟨new, h, ?_⟩
    simp only [framesOf, Bool.false_eq_true, if_false, List.cons_append, List.nil_append, List.nodup_cons, List.mem_cons,
      List.not_mem_nil, or_false, not_false_eq_true, List.nodup_nil, and_true]
    refine ⟨by omega, ?_⟩
    intro y hy
    simp only [Say.Disjoint]
    omega
  · obtain ⟨new, hn, hb⟩ := fresh_low (stPg true 5 0 0) false 100 (by decide) (by decide +kernel)
    have key : ∀ x, x < 2 ^ 23 → x ≠ new / 65536 →
        (stPg true 5 0 (65536 * x + 1)).freshFrame false false = (stPg true 5 0 0).freshFrame false false →
        ∃ new, (stPg true 5 0 (65536 * x + 1)).freshFrame false false = some new ∧
          let fs := framesOf (65536 * x) false ++ framesOf new false;
          fs.Nodup ∧ ∀ y ∈ fs, Say.Disjoint (65536 * y) 65536 0x10000001008 8 := by
      intro x hx hne he
      refine ⟨new, he.trans hn, ?_⟩
      simp only [framesOf, Bool.false_eq_true, if_false, List.cons_append, List.nil_append, List.nodup_cons, List.mem_cons,
        List.not_mem_nil, or_false, not_false_eq_true, List.nodup_nil, and_true]
      refine ⟨by omega, ?_⟩
      intro y hy
      simp only [Say.Disjoint]
      omega
    by_cases h : 5 = new / 65536
    · exact ⟨9, pageAt_of _ _ _ (by unfold Inv; decide +kernel) (by decide +kernel) (by decide +kernel),
        key 9 (by decide) (by omega) (fresh_congr _ _ _ _ rfl rfl rfl rfl)⟩
    · exact ⟨5, pageAt_of _ _ _ (by unfold Inv; decide +kernel) (by decide +kernel) (by decide +kernel),
        key 5 (by decide) h (fresh_congr _ _ _ _ rfl rfl rfl rfl)⟩

/-- Windows: a valid declaration that clashes and one that does not, one that is not valid, a removal of one's own and
of none (R408). -/
theorem wit_FirmwareChangesPagesAndWindows_windows : let w : Window := { ident := 1, part := 1, vdn := 1, base := 65536, size := 65536, w64 := false, home := 0 }
    let n := 65536 + 65536 * 2 ^ 64 + 2 ^ 128
    let r := n + 2 ^ 161
    let s := { stF n with windows := [w] }
    (stF n).Plain [1#6, 2#6] ∧ Say.Block (stF n) (afterLoad (stF n) 0x40000 64) 1#6 n ∧
    Say.Block (stF r) (afterLoad (stF r) 0x40000 64) 1#6 r ∧
    (Say.fld n 0 8 = 65536 ∧ Say.fld n 8 8 = 65536 ∧ Say.fld n 16 2 = 1 ∧ Say.fld n 18 2 = 0 ∧ n / 2 ^ 162 % 2 ^ 350 = 0 ∧
      n / 2 ^ 161 % 2 = 0 ∧ r / 2 ^ 161 % 2 = 1 ∧ r / 2 ^ 162 % 2 ^ 350 = 0) ∧
    Say.fld 1 0 8 % 65536 ≠ 0 ∧ (∃ x ∈ s.windows, x.ident = 1) ∧ (stF n).windows = [] ∧ s.ctx.part.toNat = w.part :=
  ⟨plain_of rfl rfl _, block_of (by unfold State.Clean; decide) (by decide) (by decide +kernel),
    block_of (by unfold State.Clean; decide) (by decide) (by decide +kernel), by decide +kernel, by decide,
    ⟨{ ident := 1, part := 1, vdn := 1, base := 65536, size := 65536, w64 := false, home := 0 }, by decide, rfl⟩, by decide, by decide⟩

/-! ### Witnesses: engine words -/

/-- Scratchpad banks 0 to 15 FULL, tile registers 4 to 6 FULL. -/
def stE : State := withCtx (withS stT [(1, 64#64)]) (fun c => { c with
  banks := (List.range 16).map (fun b => (b, { PadBank.entry with state := .full }))
  tiles := [(4, { Tile.entry with state := .full }), (5, { Tile.entry with state := .full }), (6, { Tile.entry with state := .full })] })

/-- A line of a tile register. -/
def lineT (t : BitVec 4) : Line := { tile := t, dir := 0#2, fromReg := false, idx := 2#6, last := false }

/-- A destination line. -/
def dlineT (t : BitVec 4) : DLine := { tile := t, dir := 0#2, fromReg := false, idx := 3#6 }

/-- Operands of a three-line word of 32-bit elements on registers 4, 5 and 6. -/
def fv3Z : FV3 := { tok := tokZ, dst := dlineT 6#4, src1 := lineT 4#4, src2 := lineT 5#4, et := 0#3, sat := false, k := 0#3 }

/-- Operands of an SACC. -/
def fsaZ : FSA :=
  { tok := tokZ, acq := false, rel := false, scope := 0#3, p := false, dir := false, idx := 0#7, h := false, a := 1#6, off := 0#16, dt := 13#5 }

/-- Operands of an L word with A = s1 on register 4. -/
def flnT : FLN := { flnZ with line := { lineT 4#4 with idx := 0#6 }, a := 1#6 }

/-- A token popped and one pushed. -/
def tokB : Tok := { wl := true, wr := true, gl := true, gr := true }

/-- What a word's statement asks at its issue. -/
def Issues (i : Instr) (s : State) : Prop := ∃ e tok rs k ok, Say.issue s i = some (e, tok, rs, k, ok) ∧ s.acting = none ∧
  s.Plain rs ∧ s.Clean rs ∧ ok

/-- Words of each engine and form meet the conditions of issue; a queue is full, another empty; a handler's holds 8. -/
theorem wit_EngineWordsAreQueued : let full := withCtx stE (fun c => { c with base := { c.base with
      qL := List.replicate 32 (entryT (.ltile flnT)), qX := List.replicate 16 (entryT (.xmma fxmZ)) } })
    let h := withCtx stE (fun c => { c with thnd := true, tbank := { c.tbank with qV := List.replicate 8 (entryT (.vadd fv3Z)) } })
    Issues (.ltile flnT) stE ∧ Issues (.lfeed flnT) stE ∧ Issues (.lsetf flnT) stE ∧ Issues (.lwgt flnT) stE ∧
    Issues (.lmask flnT) stE ∧ Issues (.lvc flnT) stE ∧ Issues (.lzero flnT) stE ∧ Issues (.xmma fxmZ) stE ∧ Issues (.xswap fxmZ) stE ∧
    Issues (.xshape fxmZ) stE ∧ Issues (.xbias fxmZ) stE ∧ Issues (.vadd fv3Z) stE ∧ Issues (.sacc fsaZ) stE ∧ Issues (.strans flnT) stE ∧
    Issues (.vkand { tok := tokZ, kd := 1#3, ka := 2#3, kb := 3#3, s := 0#6 }) stE ∧
    Issues (.vkpopc { tok := tokZ, kd := 1#3, ka := 2#3, kb := 3#3, s := 9#6 }) stE ∧
    Issues (.vbcast { tok := tokZ, line := lineT 4#4, s := 9#6, lane := 0#6, et := 0#3, k := 0#3 }) stE ∧
    Issues (.ltile flnT) full ∧ (full.bank.queue .l).length = 32 ∧ (full.bank.queue .x).length = 16 ∧ full.ctx.inHandler = false ∧
    (h.bank.queue .v).length = 8 ∧ h.ctx.inHandler = true := by
  refine ⟨?_, ?_, ?_, ?_, (?_), ?_, ?_, ?_, ?_, (?_), ?_, ?_, ?_, ?_, (?_), ?_, ?_, ?_, by decide, by decide, by decide, by decide, by decide⟩ <;>
    exact ⟨_, _, _, _, _, rfl, rfl, plain_of rfl rfl _, by unfold State.Clean; decide, by first | decide | (simp only [Say.span, Say.InPad]; decide)⟩

/-- A poisoned base, a misaligned address, a range that ends at SPSIZE and one past it (R224, R265). -/
theorem wit_EngineAddressesAreChecked : let i := Instr.sline flnT
    let at_ (v : Word) := withS stE [(1, v)]
    Issues i (at_ 786176#64) ∧ Say.span (at_ 64#64) i = some (1#6, 0#16, 64, 256) ∧ ((poisonS stE 1).rd 1#6).pois = true ∧
    (at_ 32#64).Clean [1#6] ∧ (Say.engAddr (at_ 32#64) 1#6 0#16).toNat % 64 ≠ 0 ∧
    Say.InPad (at_ 786176#64) (Say.engAddr (at_ 786176#64) 1#6 0#16) 64 256 ∧
    ¬ Say.InPad (at_ 786240#64) (Say.engAddr (at_ 786240#64) 1#6 0#16) 64 256 ∧
    (Say.engAddr (at_ 786240#64) 1#6 0#16).toNat % 64 = 0 ∧ (at_ 786240#64).bank.emode.getLsbD 3 = false := by
  refine ⟨⟨_, _, _, _, _, rfl, rfl, plain_of rfl rfl _, by unfold State.Clean; decide, by simp only [Say.span, Say.InPad]; decide⟩, rfl, by decide, by unfold State.Clean; decide,
    by decide, by unfold Say.InPad; decide, by unfold Say.InPad; decide, by decide, by decide⟩

/-- The state in which an engine runs an entry alone in its queue. -/
def running (s : State) (e : Eng) (en : Entry) : State :=
  { withCtx s (fun c => { c with base := c.base.setQueue e [en] }) with acting := some (e, en) }

/-- An entry that waits for a token, one that owes its pushes with room and without, LVC and XSHAPE with theirs (R147). -/
theorem wit_EntriesTakeAndGiveTokens : let en := entryT (.lvc { flnT with tok := tokB })
    let x := entryT (.xshape { fxmZ with tok := tokB })
    let owed : Entry := { en with pushOwed := true }
    let fifos (n m : Nat) (s : State) := withCtx s (fun c => { c with base := { c.base with
      fifo := { c.base.fifo with sl := n, xl := n, ls := m, lx := m, vx := n, xv := m } } })
    (running stE .l en).acting = some (.l, en) ∧ (running stE .l en).bank.queue .l = [en] ∧
    (popsOf .l tokB ≠ [] ∧ ∃ n ∈ popsOf .l tokB, (running stE .l en).bank.fifo.at n = 0) ∧
    ((fifos 1 7 (running stE .l owed)).acting = some (.l, owed) ∧ ∀ n ∈ pushesOf .l tokB, (fifos 1 7 (running stE .l owed)).bank.fifo.at n < 8) ∧
    (∃ n ∈ pushesOf .l tokB, 8 ≤ (fifos 1 8 (running stE .l owed)).bank.fifo.at n) ∧
    (∀ n ∈ popsOf .l tokB, 0 < (fifos 1 7 (running stE .l en)).bank.fifo.at n) ∧
    ((∀ n ∈ popsOf .x tokB, 0 < (fifos 1 7 (running stE .x x)).bank.fifo.at n) ∧
      ∀ n ∈ pushesOf .x tokB, (fifos 1 7 (running stE .x x)).bank.fifo.at n < 8) ∧
    (en.pushOwed = false ∧ en.popsTaken = false) ∧ Issues (.lvc { flnT with tok := tokB }) stE := by
  refine ⟨rfl, rfl, by decide, by decide, by decide, by decide, by decide, by decide, ?_⟩
  exact ⟨_, _, _, _, _, rfl, rfl, plain_of rfl rfl _, by unfold State.Clean; decide, by decide⟩

/-! ### Witnesses: L entries -/

/-- An L word's entry at scratchpad address 64, alone in its queue. -/
def enL (f : FLN) : Entry := { entryT (.ltile f) with val := 64#64 }

/-- L runs it. -/
def stL (en : Entry) : State := running stE .l en

/-- An entry without tokens has them. -/
theorem runs_of {s : State} {e : Eng} {en : Entry} (ha : s.acting = some (e, en)) (h : en.pushOwed = false)
    (hp : s.parts = false := by rfl) (hl : en.late = [] := by rfl) : Say.Runs s e tokZ en :=
  ⟨ha, hp, hl, h, .inr (by cases e <;> (intro n hn; cases hn))⟩

/-- A range that was checked and one that failed under SPEC; a destination awake and unlocked; every row's bank serving
(R226, R227). -/
theorem wit_LoadEntriesFillTiles : let s := stL (enL flnT)
    Say.Runs s .l flnT.tok (enL flnT) ∧ Say.Writable s flnT.line.tile.toNat ∧ (enL flnT).bad = false ∧
    Say.Runs (stL { enL flnT with bad := true }) .l flnT.tok { enL flnT with bad := true } ∧ Say.PadAwake s 64 256 ∧
    (∀ r < 64, Say.PadAwake s (64 + r * Say.rowPitch flnT.param) 256) ∧
    (∀ k < 256 / Say.transElem flnT.param, Say.PadAwake s (64 + k * Say.transPitch flnT.param) (64 * Say.transElem flnT.param)) ∧
    flnT.param.toNat / 16 ≤ 2 :=
  ⟨runs_of rfl rfl, by unfold Say.Writable Say.Awake; decide, rfl, runs_of rfl rfl, by unfold Say.PadAwake; decide +kernel,
    by unfold Say.PadAwake; decide +kernel, by unfold Say.PadAwake; decide +kernel, by decide⟩

/-- Room in the feed; both forms of LFEED's reads; LWGT of a course, of all, of scales; a mask block not in use (R229 to
R231, R233). -/
theorem wit_LoadEntriesFeedTheArrayAndItsPlanes_feed : let s := stL (enL flnT)
    Say.Runs s .l flnT.tok (enL flnT) ∧ (enL flnT).bad = false ∧ s.ctx.feed.length < 16 ∧
    ((s.ctx.foffAt 0).toNat % 8 = 0 ∧ (s.ctx.foffAt 0).toNat + 64 ≤ s.ctx.spSize ∧ Say.PadAwake s (s.ctx.foffAt 0).toNat 64) ∧
    (∀ n < 8, (s.ctx.foffAt n).toNat % 16 = 0 ∧ (s.ctx.foffAt n).toNat + 16 ≤ s.ctx.spSize ∧ Say.PadAwake s (s.ctx.foffAt n).toNat 16) ∧
    Say.PadAwake s 64 (16 * 128) ∧ Say.PadAwake s 64 (64 * 256) ∧ Say.PadAwake s 64 512 ∧ Say.PadAwake s 64 576 ∧ s.maskInUse = false ∧
    flnT.param.getLsbD 3 = false ∧ (enL flnT).rows ≠ (1#6 : BitVec 6).toNat % 16 :=
  ⟨runs_of rfl rfl, rfl, by decide, by unfold Say.PadAwake; decide +kernel, by unfold Say.PadAwake; decide +kernel, by unfold Say.PadAwake; decide +kernel,
    by unfold Say.PadAwake; decide +kernel, (by unfold Say.PadAwake; decide +kernel), by unfold Say.PadAwake; decide +kernel, by decide, by decide, by decide⟩

/-- A header whose row 0 holds one entry of column 3, one whose pointers start at 1, a poisoned one (R232). -/
theorem wit_LoadEntriesFeedTheArrayAndItsPlanes_sparse : let s (n : Nat) := withCtx (stL (enL flnT)) (fun c => { c with
      pad := Sparse.setList memDefault [] 64 (bytesOfNat 17 n) })
    let one := 0x300000000000000010001000100010000
    let rp (n c : Nat) := Say.padNat (s n) (64 + 2 * c) 2
    let g := withCtx (s 0) (fun c => { c with gpois := [(0, true)] })
    (∀ n, Say.Runs (s n) .l flnT.tok (enL flnT)) ∧ Say.PadAwake (s one) 64 64 ∧
    (s one).ctx.padPoison 64 64 = false ∧ rp one 0 = 0 ∧
    (∀ c < 4, rp one (c + 1) = 1) ∧
    ((s one).ctx.padByte (64 + 16 + 0)).toNat = 3 ∧
    64 + 64 + 1 * 256 ≤ (s one).ctx.spSize ∧ Say.PadAwake (s one) 64 (64 + 1 * 256) ∧ rp 1 0 ≠ 0 ∧ g.ctx.padPoison 64 64 = true ∧
    ((enL flnT).stamp.emode.getLsbD 3 = false ∧ (s 1).ctx.inHandler = false ∧ (s 1).ctx.latch 0 = none) :=
  ⟨fun _ => runs_of rfl rfl, by unfold Say.PadAwake; decide +kernel, by decide +kernel, by decide +kernel, by decide +kernel, by decide +kernel,
    by decide +kernel, by unfold Say.PadAwake; decide +kernel, by decide +kernel, by decide +kernel, by decide +kernel⟩

/-! ### Witnesses: X entries -/

/-- A macro-operation of i8 on register 4 of n steps. -/
def fxmT (n : BitVec 8) (p : BitVec 12) : FXM := { fxmZ with line := { lineT 4#4 with idx := 0#6 }, nstep := n, param := p }

/-- X runs it with the courses chosen, the feed holding 16 rows. -/
def stX (f : FXM) (shape : BitVec 4) : State :=
  withCtx (running stE .x { entryT (.xmma f) with stamp := { vc := 64#7, ashape := shape, emode := 0#4, sqp := 0#12 } })
    (fun c => { c with feed := List.replicate 16 { bytes := [], pois := [] } })

/-- Its entry. -/
def enX (f : FXM) (shape : BitVec 4) : Entry :=
  { entryT (.xmma f) with stamp := { vc := 64#7, ashape := shape, emode := 0#4, sqp := 0#12 } }

/-- One step and several; from a tile and from the feed; with courses and without; a masked cell (R236, R239). -/
theorem wit_MacroOperationsStep : let f := fxmT 1#8 0#12
    let s := stX f 15#4
    let d := stX (fxmT 2#8 4#12) 0#4
    Say.Runs s .x f.tok (enX f 15#4) ∧ Say.Runs d .x tokZ (enX (fxmT 2#8 4#12) 0#4) ∧ s.ctx.inHandler = false ∧ (enX f 15#4).bad = false ∧
    Say.xClean s f ∧ Say.xClean d (fxmT 2#8 4#12) ∧ (f.at_ = 0#5 → f.bt = 0#5) ∧ (∀ k ∈ xmSources f, Say.Awake s k) ∧
    Say.xm (fxmT 2#8 4#12) 2 1 = 1 ∧ 16 ≤ d.ctx.feed.length ∧ Say.xm f 2 1 ≠ 1 ∧ Say.coursesOf s false (enX f 15#4) ≠ [] ∧
    Say.coursesOf d false (enX (fxmT 2#8 4#12) 0#4) = [] ∧ Say.coursesOf s true (enX f 15#4) = [] ∧ Say.maskedCell s 0 0 = true ∧
    Say.maskedCell (withCtx s (fun c => { c with mask := { c.mask with out := true } })) 0 127 = false ∧
    (s.ctx.prog.getD 0 + 1 = f.nstep.toNat ∧ d.ctx.prog.getD 0 + 1 ≠ (2#8 : BitVec 8).toNat) ∧
    (f.line.last = false ∧ ∀ k ∈ xmSources f, (s.ctx.tile k).moveDue = false) := by
  refine ⟨runs_of rfl rfl, runs_of rfl rfl, by decide, rfl, ?_, ?_, by decide, by unfold Say.Awake; decide, by decide, by decide, by decide, by decide,
    (by decide), by decide, by decide, by decide, by decide, by decide⟩
  · exact ⟨by decide +kernel, by intro r hr g; rw [List.eq_of_mem_replicate hr]; rfl, fun g => ⟨rfl, rfl⟩, rfl⟩
  · exact ⟨by decide +kernel, by intro r hr g; rw [List.eq_of_mem_replicate hr]; rfl, fun g => ⟨rfl, rfl⟩, rfl⟩

/-- A clean awake line for XBIAS; rows below VC and at it (R241, R243, R244). -/
theorem wit_ArrayControlsAct : let f := fxmT 1#8 0#12
    let s := stX f 15#4
    Say.Runs s .x f.tok (enX f 15#4) ∧ Say.Awake s f.line.tile.toNat ∧
    (∀ r < 64, ∀ c < 64, (s.ctx.cell f.line.tile.toNat r c).pois = false) ∧ (63 < (enX f 15#4).stamp.vc.toNat) ∧
    ({ enX f 15#4 with stamp := { vc := 3#7, ashape := 15#4, emode := 0#4, sqp := 0#12 } } : Entry).stamp.vc.toNat ≤ 3 :=
  ⟨runs_of rfl rfl, by unfold Say.Awake; decide, by decide +kernel, by decide, by decide⟩

/-! ### Witnesses: V and S entries -/

/-- V runs an entry. -/
def stV (i : Instr) : State := running stE .v (entryT i)

/-- A word whose lines are ready. -/
def Ready (form : State → Entry → Instr → Option Say.Form) (i : Instr) : Prop :=
  ∃ f, form (stV i) (entryT i) i = some f ∧ Say.LinesReady (stV i) (entryT i) f

/-- Words with one, two and three sources; lanes that they cover, and one a mask does not (R245 to R261). -/
theorem wit_VectorElementsComputed : Ready Say.elemForm (.vadd fv3Z) ∧ Ready Say.elemForm (.vfma fv3Z) ∧ Ready Say.elemForm (.vmin fv3Z) ∧
    Ready Say.elemForm (.vabs fv3Z) ∧ Ready Say.elemForm (.vnot fv3Z) ∧ Ready Say.elemForm (.vshl fv3Z) ∧ Ready Say.elemForm (.vtanh { fv3Z with et := 6#3 }) ∧
    Ready Say.elemForm (.vmov fv3Z) ∧ Say.covers (stV (.vadd fv3Z)) (entryT (.vadd fv3Z)) 0#3 false 63 = true ∧
    Say.covers (stV (.vadd fv3Z)) (entryT (.vadd fv3Z)) 1#3 false 63 = false := by
  refine ⟨?_, ?_, ?_, ?_, (?_), ?_, ?_, ?_, by decide, by decide⟩ <;>
    exact ⟨_, rfl, runs_of rfl rfl, rfl, rfl, by decide, by unfold Say.Writable Say.Awake; decide, by decide, by unfold Say.Awake; decide +kernel⟩

/-- Each of the words that combine lanes; a clean plane for VACC (R252 to R264). -/
theorem wit_VectorLinesCombined : let acc : Instr := .vacc { tok := tokZ, dst := dlineT 6#4, p := false, dir := false, idx := 0#7, h := false, dt := 13#5, sat := false, k := 0#3 }
    Ready Say.mixForm (.vrsh fv3Z) ∧ Ready Say.mixForm (.vsel fv3Z) ∧
    Ready Say.mixForm (.vcvt { tok := tokZ, dst := dlineT 6#4, src := lineT 4#4, dt := 13#5, st := 0#5, sat := false, k := 0#3 }) ∧
    Ready Say.mixForm (.vredsum fv3Z) ∧ Ready Say.mixForm (.vredmax fv3Z) ∧ Ready Say.mixForm (.vscanadd fv3Z) ∧
    Ready Say.mixForm (.vbcast { tok := tokZ, line := lineT 6#4, s := 1#6, lane := 0#6, et := 0#3, k := 0#3 }) ∧ Ready Say.mixForm (.vperm fv3Z) ∧
    Ready Say.mixForm (.viota fv3Z) ∧ Ready Say.mixForm (.vhash fv3Z) ∧ Ready Say.mixForm acc ∧ (∀ m n, ((stV acc).ctx.pcell 0 m n).pois = false) := by
  refine ⟨?_, ?_, ?_, ?_, (?_), ?_, ?_, ?_, ?_, (?_), ?_, fun m n => rfl⟩ <;>
    exact ⟨_, rfl, runs_of rfl rfl, rfl, rfl, by decide, by unfold Say.Writable Say.Awake; decide, by decide, by unfold Say.Awake; decide +kernel⟩

/-- Compares, mask operations, VGETS, VSETS below VC and at it, VPOIS of a poisoned source (R253, R255, R261, R262). -/
theorem wit_MasksAndScalarsComputed : let f : FVCm := { tok := tokZ, kd := 1#3, src1 := lineT 4#4, src2 := lineT 5#4, et := 0#3, sat := false, k := 0#3 }
    let k : FVK := { tok := tokZ, kd := 1#3, ka := 2#3, kb := 3#3, s := 9#6 }
    let x : FVX := { tok := tokZ, line := lineT 4#4, s := 9#6, lane := 5#6, et := 0#3, k := 0#3 }
    let p := withCtx (stV (.vpois fv3Z)) (fun c => { c with tiles := Sparse.set (fun _ => Tile.entry) c.tiles 4 { c.tile 4 with cells := [(128, { bits := 0#32, pois := true })] } })
    let low : Entry := { entryT (.vsets x) with stamp := { vc := 5#7, ashape := 15#4, emode := 0#4, sqp := 0#12 } }
    (entryT (.vcmpeq f)).stamp.vc.toNat ≤ 64 ∧ (entryT (.vcmpeq f)).bad = false ∧
    (Say.Runs (stV (.vcmpeq f)) .v f.tok (entryT (.vcmpeq f)) ∧ ((stV (.vcmpeq f)).bank.getK 0).pois = 0#64 ∧ f.kd ≠ 0#3 ∧
      ∀ l ∈ [f.src1, f.src2], Say.Awake (stV (.vcmpeq f)) l.tile.toNat ∧ ∀ r < 64, ∀ c < 64, ((stV (.vcmpeq f)).ctx.cell l.tile.toNat r c).pois = false) ∧
    (Say.Runs (stV (.vkand k)) .v k.tok (entryT (.vkand k)) ∧ ((stV (.vkand k)).bank.getK 2).pois = 0#64 ∧ ((stV (.vkand k)).bank.getK 3).pois = 0#64 ∧
      k.kd ≠ 0#3 ∧ k.s ≠ 0#6) ∧
    (Say.Runs (stV (.vgets x)) .v x.tok (entryT (.vgets x)) ∧ Say.Awake (stV (.vgets x)) 4 ∧ ((stV (.vgets x)).ctx.cell 4 0 5).pois = false) ∧
    (((stV (.vsets x)).ctx.tile 4).lock = false ∧ x.lane.toNat < (entryT (.vsets x)).stamp.vc.toNat ∧ ¬ x.lane.toNat < low.stamp.vc.toNat) ∧
    (Say.Runs p .v fv3Z.tok (entryT (.vpois fv3Z)) ∧ Say.Awake p 4 ∧ Say.Writable p 6 ∧ (p.bank.getK 0).pois = 0#64 ∧
      Say.covers p (entryT (.vpois fv3Z)) 0#3 false 0 = true ∧ (p.ctx.cell 4 2 0).pois = true) :=
  ⟨by decide, rfl, ⟨runs_of rfl rfl, by decide, by decide, by unfold Say.Awake; decide +kernel⟩, ⟨runs_of rfl rfl, by decide, by decide, by decide, by decide⟩,
    ⟨runs_of rfl rfl, by unfold Say.Awake; decide, by decide⟩, by decide,
    ⟨runs_of rfl rfl, by unfold Say.Awake; decide, by unfold Say.Writable Say.Awake; decide, by decide, by decide, by decide⟩⟩

/-- An ABSENT register, a locked destination, an OFF source, a poisoned lane of the second source, with SPEC and without
(R51, R54, R246, R344). -/
theorem wit_EngineFaultsAreLatched : let i := Instr.vadd fv3Z
    let set (t : Nat) (v : Tile) := withCtx (stV i) (fun c => { c with tiles := Sparse.set (fun _ => Tile.entry) c.tiles t v })
    let gone := set 5 { Tile.entry with state := .absent }
    let locked := set 6 { Tile.entry with state := .full, lock := true }
    let off := set 4 Tile.entry
    let pois := set 5 { Tile.entry with state := .full, cells := [(128 + 7, { bits := 0#32, pois := true })] }
    let spec : Entry := { entryT i with stamp := { vc := 64#7, ashape := 15#4, emode := 8#4, sqp := 0#12 } }
    ((Say.elemForm (stV i) (entryT i) i).isSome = true ∧ Say.Runs gone .v fv3Z.tok (entryT i) ∧ gone.ctx.inHandler = false ∧ gone.ctx.latch 2 = none ∧
      (entryT i).stamp.vc.toNat ≤ 64) ∧
    [4, 5, 6].find? (fun x => (gone.ctx.tile x).state == .absent) = some 5 ∧
    ((∀ x ∈ [4, 5, 6], (locked.ctx.tile x).state ≠ .absent) ∧ (locked.ctx.tile 6).lock = true) ∧
    ((∀ x ∈ [4, 5, 6], (off.ctx.tile x).state ≠ .absent) ∧ (off.ctx.tile 6).lock = false ∧ (entryT i).stamp.emode.getLsbD 3 = false ∧
      [4, 5].find? (fun x => (off.ctx.tile x).state == .off) = some 4) ∧
    ((∀ x ∈ [4, 5], Say.Awake pois x) ∧ Say.Writable pois 6 ∧ (pois.bank.getK 0).pois = 0#64 ∧ (pois.ctx.cell 5 2 7).pois = true ∧
      (∀ j < 64, (pois.ctx.cell 4 2 j).pois = false) ∧ Say.covers pois (entryT i) 0#3 false 7 = true ∧ spec.stamp.emode.getLsbD 3 = true ∧
      Say.Runs (running stE .v spec) .v tokZ spec ∧ (entryT i).offs = []) :=
  ⟨⟨by decide, runs_of rfl rfl, by decide, by decide, by decide⟩, by decide, by decide, by decide,
    ⟨by unfold Say.Awake; decide, by unfold Say.Writable Say.Awake; decide, by decide, by decide, by decide, by decide, by decide, runs_of rfl rfl, rfl⟩⟩

/-- S runs an entry at scratchpad address 64. -/
def stSt (i : Instr) : State := running stE .s { entryT i with val := 64#64 }

/-- Banks 0 to 15 serve. -/
theorem awake_of {i : Instr} {out : Nat → Option (Nat × Bool)} (h : ∀ a, (out a).isSome = true → a < 262144) :
    Say.OutAwake (stSt i) out := by
  intro a ha
  have hb : ∀ b < 16, (stE.ctx.padBank b).state = .full ∧ (stE.ctx.padBank b).waking = false := by decide
  exact hb (a / 16384) (by have := h a ha; omega)

/-- SLINE, STILE, STRANS and SACC with their banks serving; an entry whose range failed (R265 to R268). -/
theorem wit_StoreEntriesWriteTheScratchpad : let f := flnT
    let tr : FLN := { flnT with param := 3#6 }
    let en (i : Instr) : Entry := { entryT i with val := 64#64 }
    let sa := stSt (.sacc fsaZ)
    (en (.sline f)).stamp.vc.toNat ≤ 64 ∧ Say.Runs (stSt (.sline f)) .s f.tok (en (.sline f)) ∧
    (f.line.dir = 0#2 ∧ tr.param.toNat / 16 ≤ 2 ∧ 64 * Say.transElem tr.param ≤ Say.transPitch tr.param) ∧ Say.Awake (stSt (.sline f)) f.line.tile.toNat ∧
    Say.OutAwake (stSt (.sline f)) (Say.lineOut (stSt (.sline f)) f (en (.sline f))) ∧
    Say.OutAwake (stSt (.stile f)) (Say.tileOut (stSt (.stile f)) f (en (.stile f))) ∧
    Say.OutAwake (stSt (.strans tr)) (Say.transOut (stSt (.strans tr)) tr (en (.strans tr))) ∧
    (Say.Runs sa .s fsaZ.tok (en (.sacc fsaZ)) ∧ (∀ k < 64, (sa.ctx.pcell 0 0 k).pois = false ∧
      ∀ sp ∈ [(4 * k, 4), (512 + 4 * k, 4), (1024 + k, 1)], sp.1 + sp.2 ≤ sa.ctx.spSize ∧ Say.PadAwake sa sp.1 sp.2 ∧ sa.ctx.padPoison sp.1 sp.2 = false) ∧
      Say.OutAwake sa (Say.saccOut sa fsaZ (en (.sacc fsaZ)))) ∧
    Say.Runs (running stE .s { en (.sline f) with bad := true }) .s f.tok { en (.sline f) with bad := true } ∧
    Say.Awake (running stE .s { en (.sline f) with bad := true }) f.line.tile.toNat ∧
    (let set (v : Tile) := withCtx (stSt (.sline f)) (fun c => { c with tiles := Sparse.set (fun _ => Tile.entry) c.tiles 4 v });
      ((set { Tile.entry with state := .absent }).ctx.tile f.line.tile.toNat).state = .absent ∧
      ((set Tile.entry).ctx.tile f.line.tile.toNat).state = .off ∧ (set Tile.entry).ctx.inHandler = false ∧
      (set Tile.entry).ctx.latch 3 = none ∧ Say.Runs (set Tile.entry) .s f.tok (en (.sline f))) := by
  refine ⟨by decide, runs_of rfl rfl, by decide, by unfold Say.Awake; decide, awake_of ?_, awake_of ?_, awake_of ?_,
    ⟨runs_of rfl rfl, by unfold Say.PadAwake; decide +kernel, awake_of ?_⟩, runs_of rfl rfl, by unfold Say.Awake; decide, by decide, by decide, by decide, by decide, runs_of rfl rfl⟩
  · intro a h
    unfold Say.lineOut at h
    simp only at h
    split at h
    · rename_i hc
      have e1 : (64#64 : Word).toNat = 64 := rfl
      have e2 : (64#7 : BitVec 7).toNat = 64 := rfl
      simp only [entryT, e1, e2] at hc
      omega
    · simp at h
  · intro a h
    unfold Say.tileOut at h
    simp only at h
    split at h
    · rename_i hc
      have e1 : (64#64 : Word).toNat = 64 := rfl
      have e2 : (64#7 : BitVec 7).toNat = 64 := rfl
      have e3 : Say.rowPitch flnT.param = 256 := rfl
      simp only [entryT, e1, e2, e3] at hc
      omega
    · simp at h
  · intro a h
    unfold Say.transOut at h
    simp only at h
    split at h
    · rename_i hc
      have e1 : (64#64 : Word).toNat = 64 := rfl
      have e2 : (64#7 : BitVec 7).toNat = 64 := rfl
      have e3 : Say.transPitch 3#6 = 256 := rfl
      have e4 : Say.transElem 3#6 = 4 := rfl
      simp only [entryT, e1, e2, e3, e4] at hc
      omega
    · simp at h
  · intro a h
    unfold Say.saccOut at h
    have e1 : (64#64 : Word).toNat = 64 := rfl
    have e2 : (64#7 : BitVec 7).toNat = 64 := rfl
    have e3 : (dtOf fsaZ.dt.toNat).width = 32 := rfl
    simp only [entryT, e1, e2, e3] at h
    split at h
    · simp at h
    · split at h
      · rename_i h4
        exact absurd h4 (by decide)
      · split at h
        · omega
        · simp at h

/-! ### Witnesses: copy channels, sends, prefetches -/

/-- Channel 2 of the running context as given. -/
def stCh (k : Chan) : State := withCtx (withS stT [(1, 0x40000#64), (2, 128#64)]) (fun c => { c with chans := [(2, k)] })

/-- A running channel on a record at 0x40000. -/
def chanR (p : RecPhase) : Chan := { Chan.idle with run := true, phase := p, cur := some (.record 0x40000#64) }

/-- Idle, ERROR and running channels, with a pending head and without; each phase at CSTOP; addresses and lengths that are
aligned, zero, not aligned, too long; an even D and others (R276, R282). -/
theorem wit_ChainsStartStopAndReport : let s := stCh Chan.idle
    let long := withS stT [(1, 0x40000#64), (2, 0x100000040#64), (3, 0x100000000#64), (4, 32#64)]
    s.Plain [1#6, 2#6, 62#6, 63#6] ∧ s.Clean [1#6, 2#6] ∧ (s.rd 1#6).bits.toNat % 128 = 0 ∧ (s.rd 1#6).bits ≠ 0#64 ∧ (s.rd 0#6).bits = 0#64 ∧
    ((long.rd 4#6).bits.toNat % 64 ≠ 0 ∧ (long.rd 2#6).bits.toNat % 64 = 0 ∧ 2 ^ 32 < (long.rd 2#6).bits.toNat ∧ (long.rd 3#6).bits.toNat ≤ 2 ^ 32 ∧
      long.Clean [1#6, 2#6, 3#6, 4#6]) ∧
    (s.ctx.chan 2).run = false ∧ (s.ctx.chan 2).pend = none ∧ ((stCh { Chan.idle with err := true, pend := some (.zero 0#64 64#64) }).ctx.chan 2).err = true ∧
    (((stCh (chanR .start)).ctx.chan 2).run = true ∧ ((stCh (chanR .start)).ctx.chan 2).phase = .start) ∧
    ((stCh (chanR .claimed)).ctx.chan 2).phase = .claimed ∧ ((stCh (chanR .walk)).ctx.chan 2).phase = .walk ∧
    (((stCh (chanR .held)).ctx.chan 2).run = true ∧ ((stCh (chanR .held)).ctx.chan 2).phase = .held) ∧
    ((62#6 : BitVec 6).toNat % 2 = 0 ∧ (62#6 : BitVec 6) ≠ 0#6 ∧ (63#6 : BitVec 6).toNat % 2 = 1) ∧
    ((stCh (chanR .start)).ctx.chan 2).cur = some (.record 0x40000#64) :=
  ⟨plain_of rfl rfl _, by unfold State.Clean; decide, by decide, by decide, by decide, ⟨by decide, by decide, by decide, by decide, by unfold State.Clean; decide⟩,
    by decide, by decide, by decide, by decide, (by decide), by decide, by decide, by decide, by decide⟩

/-- A send from a list of one buffer at scratchpad 64 over connection 5; slots vacant and not; an entry that may yet
write; a bad list; a bad handle; tickets; prefetch counters in scope (R283 to R285). -/
theorem wit_SendsAndPrefetchesAreAccepted : let list (n : Nat) (s : State) := withCtx s (fun c => { c with pad := Sparse.setList memDefault [] 64 (bytesOfNat 16 n) })
    let s := { list (1024 + 64 * 2 ^ 32 + 2 ^ 64) (withCtx stE (fun c => { c with base := { c.base with s := [(1, ({ bits := 64#64, pois := false } : SReg)), (2, { bits := 5#64, pois := false })] } })) with
      conns := [(5, { Conn.closed with isOpen := true, vdn := 1 })] }
    let busy := withCtx s (fun c => { c with base := { c.base with qV := [], qL := [entryT (.ltile flnZ)] } })
    let two := withCtx s (fun c => { c with sends := [(0, { SendSlot.zero with used := true, gen := 255#8 })] })
    s.Plain [1#6, 2#6, 3#6, 4#6] ∧ s.Clean [1#6, 2#6, 3#6] ∧ (s.rd 1#6).bits.toNat % 16 = 0 ∧ ((withS s [(1, 8#64)]).rd 1#6).bits.toNat % 16 ≠ 0 ∧
    (∃ e ∈ busy.bank.entries, e.pushOwed = false) ∧ (∀ e ∈ s.bank.entries, e.pushOwed = true) ∧
    ((s.rd 2#6).bits.toNat < 2 ^ 15 ∧ (s.conn 5).isOpen = true ∧ (s.conn 5).vdn = s.ctx.ownDevice) ∧ (s.conn 6).isOpen = false ∧
    s.ctx.sendList 64 16 = some [1024 + 64 * 2 ^ 32 + 2 ^ 64] ∧ s.ctx.sendOk 64 [1024 + 64 * 2 ^ 32 + 2 ^ 64] = true ∧
    (list (2 ^ 64) s).ctx.sendOk 64 [2 ^ 64] = false ∧ (list 0 s).ctx.sendList 64 16 = none ∧
    ((s.ctx.send 0).vacant = true ∧ (two.ctx.send 0).vacant = false ∧ (two.ctx.send 1).vacant = true) ∧
    (∀ bk ∈ banksOf 64 16 ++ [bufOf (1024 + 64 * 2 ^ 32 + 2 ^ 64)].flatMap (fun x => banksOf x.addr x.len), s.ctx.padReady bk = true) ∧
    (255#8 = (two.ctx.send 0).gen ∧ (two.ctx.send 0).gen ≠ 0#8) ∧
    (let p := withS stT [(1, 0#64), (2, 0x100#64), (3, 0x40000000#64), (4, 0x40000001#64)];
      p.Clean [1#6, 2#6, 3#6, 4#6] ∧ (p.rd 3#6).bits.toNat ≤ 2 ^ 30 ∧ 2 ^ 30 < (p.rd 4#6).bits.toNat ∧
      (p.checkData 0x100 8 .rw).toOption = some [(0x100, { pa := 0x100, nl1 := false, m := false })] ∧ p.inWindow 0x100 8 = none ∧
      p.scopeOk p.me 3 0x100 = true ∧ ({ p with scopes := [(4, some { scope := 3, inst := instOf (.core 0) 3, words := 1#8 })] } : State).scopeOk p.me 1 0x100 = false) :=
  ⟨plain_of rfl rfl _, by unfold State.Clean; decide, by decide, by decide, ⟨entryT (.ltile flnZ), by decide, rfl⟩, by decide, by decide, by decide,
    by decide +kernel, by decide +kernel, by decide +kernel, by decide +kernel, by decide, by decide +kernel, by decide,
    by unfold State.Clean; decide, by decide, by decide, by decide +kernel, by decide, by decide +kernel, by decide +kernel⟩

/-! ### Witnesses: host queues -/

/-- A running module with tables, a partition of one device, host queue 0 of device 1 as given. -/
def stH (h : HQueue) : State := { withTables (withPart stT) with hqs := [(hqKey 1 0, h)], functions := 1 }

/-- A mapped running queue whose next packet, inline, is p. -/
def hqP (p : BitVec 512) : HQueue :=
  { HQueue.zero with
    thread := some 3, work := { QBlock.zero with state := 1#2, widx := 1#32 }
    blkA := { QBlock.zero with state := 1#2, widx := 1#32 }, inline := some (0#32, p) }

/-- Stopped, running, blocked and errored queues; an accepting function; a capacity passed; reset (R389 to R399). -/
theorem wit_HostWindowsActAsWritten : let s := stH HQueue.zero
    let r := stH (hqP 0#512)
    let w := stH { hqP 0#512 with waiting := some { cnt := 0x100#64, value := 1#64, since := 0, tmo := 0 } }
    let e := stH { HQueue.zero with blkA := { QBlock.zero with state := 2#2 } }
    (Say.Up s 1 ∧ ¬ Say.Up s 2) ∧ (s.hq 1 0).current.state = 0#2 ∧ ({ s with feats := [(1, { Feat.zero with accept := true })] } : State).feat 1 = { Feat.zero with accept := true } ∧
    (s.feat 1).accept = false ∧ ({ s with pcstat := 1#64 } : State).pcstat.toNat % 2 ^ 32 ≠ 0 ∧ s.pcstat.toNat % 2 ^ 32 = 0 ∧ (r.hq 1 0).current.state ≠ 0#2 ∧ (r.hq 1 0).waiting = none ∧
    ((r.hq 1 0).eph = false ∧ (r.hq 1 0).begun = false) ∧ (w.hq 1 0).waiting.isSome = true ∧ 2 ≤ (e.hq 1 0).current.state.toNat ∧
    ((17#32 - (s.hq 1 0).work.widx).toNat < 2 ^ 31 ∧ 2 ^ (s.hq 1 0).log2cap.toNat < (17#32 - (s.hq 1 0).current.ridx).toNat) ∧
    (16#32 - (s.hq 1 0).current.ridx).toNat ≤ 2 ^ (s.hq 1 0).log2cap.toNat ∧ (∀ i < 128, (s.feat 1).drv.getLsbD i = true → i < 6) ∧
    (({ s with feats := [(1, { Feat.zero with drv := 64#128 })] } : State).feat 1).drv.getLsbD 6 = true ∧ (0x100000#128 : BitVec 128).toNat % 8 = 0 ∧
    (∀ e ∈ s.hostChans, e.2.busy = true → e.2.vd ≠ 1) := by
  unfold Say.Up
  decide

/-- The packet's state. -/
abbrev stK (p : BitVec 512) : State := stH (hqP p)

/-- A packet of each kind, served; counters that translate and one misaligned; a COPY with a free channel; LAUNCH with room
and without; the malformed ones (R392 to R397). -/
theorem wit_PacketsTakeEffectOnce : let pk (k a b : Nat) : BitVec 512 := BitVec.ofNat 512 (k + 2 ^ 64 * a + 2 ^ 128 * b)
    let sv (k a b : Nat) := Say.Served (stK (pk k a b)) 1 0 (k + 2 ^ 64 * a + 2 ^ 128 * b)
    let s := stK (pk 3 0x100 5)
    let l := withMem (stK (pk 1 0x40000 1)) 0x40000 128 recordNat
    let far := withMem (withMem s 0x40000 128 (0x41000 * 2 ^ 64 + 2 ^ 192 + 2 ^ 201)) 0x41000 256 65536
    let poor (s : State) : State := { s with committed := (0x401, BitVec.ofNat 64 (2 ^ 63 + 1000 * 2 ^ 30 + 10 * 2 ^ 20 + 1600)) :: s.committed.filter (fun e => e.1 ≠ 0x401) }
    (sv 0 0 0 ∧ sv 7 0 0 ∧ sv 3 0x100 5 ∧ sv 5 0x100 0 ∧ sv 4 0x100 1 ∧ sv 6 0x100 0 ∧ sv 2 0x40000 0 ∧ sv 1 0x40000 1 ∧ sv 8 0 0 ∧ sv (3 + 512) 0x100 0 ∧ sv 3 0x104 0) ∧
    (Say.Kind 0 0 8 ∧ Say.Kind 7 7 8 ∧ Say.Kind (3 + 2 ^ 64 * 0x100 + 2 ^ 128 * 5) 3 24 ∧ Say.Kind (5 + 2 ^ 64 * 0x100) 5 16 ∧
      Say.Kind (4 + 2 ^ 64 * 0x100 + 2 ^ 128) 4 28 ∧ Say.Kind (6 + 2 ^ 64 * 0x100) 6 17 ∧ Say.Kind (2 + 2 ^ 64 * 0x40000) 2 16 ∧
      Say.Kind (1 + 2 ^ 64 * 0x40000 + 2 ^ 128) 1 20) ∧
    ((s.hq 1 0).work.outc = 0 ∧ s.vdPart 1 = 1 ∧ s.regions = [] ∧ s.window 1 0x100 8 = none ∧
      (s.walk 1 1 0x100 .rw).toOption = some { pa := 0x100, nl1 := false, m := false } ∧ (s.walk 1 1 0x100 .r).toOption = some { pa := 0x100, nl1 := false, m := false }) ∧
    (s.natAt 0x100 8 < 1 ∧ 1 ≤ (withMem s 0x100 8 1).natAt 0x100 8) ∧ ((s.cancelLevel 1 0x100#64 0).isSome = true) ∧
    (({ s with cancels := (List.range 64).map (fun i => { part := 1, addr := BitVec.ofNat 64 (4096 + 16 * i), level := 0 }) } : State).cancelLevel 1 0x100#64 0).isSome = false ∧
    ((stK (pk 7 0 0)).hq 1 0).work.outc = 0 ∧ ((stH { hqP (pk 7 0 0) with work := { (hqP (pk 7 0 0)).work with outc := 1 } }).hq 1 0).work.outc ≠ 0 ∧
    ((State.chainSpaces 1 0 65536 0x40000 s).2 = true ∧ (State.chainSpaces 1 0 65536 0x40000 far).2 = false ∧ ∀ j < 4, (s.hostChan (4 * (0 % 2) + j)).busy = decide (j < 0)) ∧
    ((l.launchRecords 1 0 0x40000 1).toOption = some [(0x40000, recordNat)] ∧ l.recordBad 1 0x40000 recordNat = false ∧
      l.overflowRoom [l.taskOf 1 1 0x40000#64 recordNat (some (1, 0))] 1 = true ∧
      (poor l).overflowRoom [l.taskOf 1 1 0x40000#64 recordNat (some (1, 0))] 1 = false ∧ (poor l).recordBad 1 0x40000 recordNat = false) ∧
    (8 ≤ bitsOf 8 0 8 ∧ bitsOf (3 + 512 + 2 ^ 64 * 0x100) 9 23 ≠ 0 ∧ bitsOf (3 + 2 ^ 64 * 0x104) 64 64 % 8 ≠ 0) := by
  refine ⟨?_, by unfold Say.Kind; decide +kernel, by decide +kernel, by decide +kernel, by decide +kernel, by decide +kernel, by decide +kernel, by decide +kernel,
    (by decide +kernel), by decide +kernel, by decide +kernel⟩
  refine ⟨?_, ?_, ?_, ?_, (?_), ?_, ?_, ?_, ?_, (?_), ?_⟩ <;>
    exact ⟨by unfold Say.Up; decide, by decide, rfl, by decide, by unfold Say.Consumes; decide, by decide, by decide, (by decide), by decide, by decide +kernel⟩

/-- A blocked WAIT whose counter has come and one whose time has passed; an ended chain with NOTIFY; a queue to map, to
unmap, to restart; one below EIDX and one at EPH = 1 (R388, R393 to R396). -/
theorem wit_ThreadsGoOnWithTheirQueues : let w : PktWait := { cnt := 0x100#64, value := 1#64, since := 1000, tmo := 4 }
    let b := withMem (stH { hqP 0#512 with waiting := some w }) 0x100 8 1
    let u := stH { hqP 0#512 with waiting := some { w with since := 0 } }
    let late : State := { u with now := 20001 }
    let m := { stH { HQueue.zero with work := { QBlock.zero with state := 1#2, widx := 1#32 } } with stores := [(hqKey 1 0, 1#32)] }
    let v : State := { stH { hqP 0#512 with work := { (hqP 0#512).work with ridx := 1#32 } } with
      hqs := [(hqKey 1 0, { hqP 0#512 with work := { (hqP 0#512).work with ridx := 1#32 }, thread := some 0 }),
        (hqKey 1 2, { hqP 0#512 with thread := none })] ++ (List.range 31).map (fun i => (hqKey 2 (2 * i), { hqP 0#512 with thread := some (i + 1) }))
      stores := [(hqKey 1 2, 1#32)] }
    let c : State := { stH (hqP 0#512) with hostChans := [(2, { HostChan.idle with busy := true, vd := 1, q := 0, notify := true })] }
    let below := stH { hqP 0#512 with eidx := 1#32 }
    let ph := stH { hqP 0#512 with eph := true, work := { (hqP 0#512).work with ncnt := 0x100#64 } }
    ((b.hq 1 0).waiting = some w ∧ (b.hq 1 0).thread.isSome = true ∧ (b.walk 1 (b.vdPart 1) 0x100 .r).toOption.map XOk.pa = some 0x100 ∧
      w.value.toNat ≤ b.natAt 0x100 8 ∧ (b.hq 1 0).stopReq = false) ∧
    (w.tmo ≠ 0 ∧ w.since + 1000 * w.tmo ≤ b.now) ∧
    ((c.hostChan (4 * 0 + 2)).busy = true ∧ (c.hostChan 2).chan.run = false ∧ (c.hostChan 2).vd = 1 ∧ (c.hostChan 2).q = 0) ∧
    (((stH (hqP 0#512)).hq 1 0).waiting = none ∧ Say.Consumes (b.hq 1 0) ∧ 100000 ≤ ((stH { hqP 0#512 with idle := 100000 }).hq 1 0).idle) ∧
    (Say.Up m 1 ∧ (∀ e ∈ m.hqs, e.1 % 2 = 0 % 2 → e.2.thread ≠ some 31) ∧ Say.Waits m 1 0 ∧ m.stores = [] ++ (hqKey 1 0, 1#32) :: [] ∧
      Say.Ahead (m.hq 1 0) 1#32) ∧
    ((v.hq 1 0).thread.isSome = true ∧ (v.hq 1 0).work.ridx = (v.hq 1 0).work.widx ∧
      (∀ th < 32, ∃ e ∈ v.hqs, e.1 % 2 = 0 % 2 ∧ e.2.thread = some th) ∧
      (v.stores = [(hqKey 1 2, 1#32)] ∧ Say.Waits v 1 2 ∧ Say.Ahead (v.hq 1 2) 1#32)) ∧
    ((late.hq 1 0).waiting = some { w with since := 0 } ∧ 0 + 20000 < late.now) ∧
    (1 ≤ ((below.hq 1 0).eidx - (below.hq 1 0).work.ridx).toNat ∧ ((below.hq 1 0).eidx - (below.hq 1 0).work.ridx).toNat < 2 ^ 31 ∧
      (Say.Up below 1 ∧ Say.Consumes (below.hq 1 0)) ∧ (below.hq 1 0).work.ridx ≠ (below.hq 1 0).work.widx ∧ (below.hq 1 0).stopReq = false) ∧
    ((ph.hq 1 0).eidx = (ph.hq 1 0).work.ridx ∧ (ph.hq 1 0).eph = true ∧ (ph.hq 1 0).work.ncnt ≠ 0#64 ∧
      (ph.walk 1 (ph.vdPart 1) 0x100 .rw).toOption.map XOk.pa = some 0x100) := by
  refine ⟨?_, ?_, ?_, ?_, (?_), ?_, ?_, ?_, ?_⟩
  · decide +kernel
  · decide
  · decide
  · unfold Say.Consumes; decide
  · unfold Say.Up Say.Waits Say.Consumes Say.Ahead; decide
  · unfold Say.Waits Say.Consumes Say.Ahead; decide +kernel
  · decide
  · unfold Say.Up Say.Consumes; decide
  · decide +kernel

/-! ### Witnesses: tasks, dispatch, slices -/

/-- A module with partition 1 and one task as given. -/
def stJ (f : Task → Task) : State := { withPart stT with tasks := [f taskT], postSeq := 1 }

/-- Releases, held tasks, misses, expiries first and second, overruns, an idle partition with a raised queue (R31 to R33,
R333, R338 to R340). -/
theorem wit_TasksAreReleasedAndJudged : let run := withTask (withPart stT) (fun k => { k with prog := 10, sched := 5000, missed := false })
    let held := stJ (fun k => { k with state := .held })
    let behind : State := { held with tasks := [{ taskT with state := .held }, { taskT with id := 1, state := .running, cphase := 64#64 }] }
    let x := withCtx run (fun c => { c with progX := 1 })
    (((stJ id).findTask 0).map Task.state = some .pending ∧ taskT.release ≤ (stJ id).now) ∧
    ((held.findTask 0).map Task.state = some .held ∧ held.quiet 1 false none = true ∧
      ∀ u ∈ held.tasks, u.part = 1 → u.ptag = false → u.state = .held → u.id < 0 → u.cphase = 0#64) ∧
    (∃ u ∈ behind.tasks, u.part = 1 ∧ u.ptag = false ∧ u.state = .running ∧ u.cphase ≠ 0#64) ∧
    ((run.findTask 0).map (fun k => (k.missed, k.miss, decide (k.sched ≤ run.now), k.members)) = some (false, 0, true, [4096]) ∧ (run.findCtx 4096).isSome = true) ∧
    (((stJ id).findTask 0).map (fun k => decide ((stJ id).now < k.sched)) = some true) ∧
    ((run.findTask 0).map (fun k => (decide (k.prog ≠ 0), k.state)) = some (true, .running) ∧ (run.findCtx 4096).map (fun c => (c.progT, c.posted, c.progX)) = some (0, [], 0) ∧
      (x.findCtx 4096).map Ctx.progX = some 1) ∧
    (((stJ (fun k => { k with used := 1001 })).findTask 0).map (fun k => (k.overTold, decide (k.budget < k.used))) = some (false, true)) ∧
    (∀ m' ∈ [4096], (run.findCtx m').map (fun c => (c.progT, c.progX)) = some (0, 0)) ∧
    (Sparse.get (fun _ => 0) run.admAt (2 * 1 + 0) + 64000 ≤ ({ run with now := 64000 } : State).now ∧ run.now < Sparse.get (fun _ => 0) run.admAt (2 * 1 + 0) + 64000) ∧
    (((stJ id).die 0).alive = true ∧ (stJ id).partEnabled 1 = true ∧ ((stJ id).devicesOf 1).length ≤ 1 ∧ (withPart stT).tasks = [] ∧
      (withPart stT).queueOn 1 0 = true ∧ (({ withPart stT with qlevels := [(64, { level := 2, floor := 1 })] } : State).qlevel 1 0) = { level := 2, floor := 1 }) :=
  ⟨by decide +kernel, by decide +kernel, ⟨_, .tail _ (.head _), by decide +kernel⟩, by decide +kernel, by decide +kernel, by decide +kernel, by decide +kernel,
    by decide +kernel, by decide +kernel, by decide +kernel⟩

/-- A partition without contexts whose one core is free, and a READY task for it. -/
def stD : State := { withPart stT with
  ctx := Ctx.blank, cores := [], tasks := [{ taskT with state := .ready }], postSeq := 1 }

/-- A dispatch; a slice that has run its length, one that has ended with no context of its device left, none; a rotation
due (R334, R335, R383, R397). -/
theorem wit_CoresAreGivenAndSliced : let k : Task := { taskT with state := .ready }
    let two : State := { withPart stT with committed := (withPart stT).committed ++ [(0x5C2, BitVec.ofNat 64 (2 ^ 63 + 2 ^ 56 + 2 ^ 36))] }
    let sl (e : Bool) (st v : Nat) : State := { two with now := 1000000, slices := [(1, some { vdn := v, start := st, ended := e })] }
    let d : State := { withPart stT with
      now := 1000000, demoted := [(1, 0), (1, 2)], tasks := [{ taskT with cls := 3, state := .ready, hostq := some (1, 2) }] }
    (stD.tasks = [k] ∧ (stD.die 0).alive = true ∧ stD.partEnabled 1 = true ∧ stD.mayConsider 1 0 k = true ∧ k.cls ≠ 3 ∧ k.crew = 1 ∧ k.dispatched = false ∧
      k.members = [] ∧ 0 < stD.cfgField (0x400 + 1) 40 13 ∧ k.entry (stD.qlevel 1 0).level = some 0x10000#64 ∧ stD.freeSlots 1 = [0, 1, 2, 3] ∧
      (∀ c ∈ stD.allCtxs, c.resident = false ∧ (c.task = none → c.place ≠ .memory)) ∧ stD.eligible k 0 = true ∧ (∀ j < 640, stD.eligible k j = true → j = 0)) ∧
    (∀ j, (stD.coreSlot j).run = none) ∧ (∀ j, stD.eligible k j = true → j = 0) ∧
    ((sl false 0 1).slice 1 = some { vdn := 1, start := 0, ended := false } ∧ 2 ≤ ((sl false 0 1).devicesOf 1).length ∧
      0 + 1000 * (sl false 0 1).cfgField (0x5C0 + 1) 36 20 ≤ (sl false 0 1).now ∧
      ((sl false 0 1).residents 1).map Ctx.id = [4096] ∧ (sl false 0 1).running (sl false 0 1).ctx = true) ∧
    ((sl true 0 2).slice 1 = some { vdn := 2, start := 0, ended := true } ∧ (sl true 0 2).residents 2 = []) ∧ two.slice 1 = none ∧
    (two.devicesOf 1 = [1, 2] ∧ two.residents 2 = [] ∧ (withCtx two (fun c => { c with vdn := 2#6 })).devicesOf 1 = [1, 2] ∧
      (withCtx two (fun c => { c with vdn := 2#6 })).residents 2 = [(withCtx two (fun c => { c with vdn := 2#6 })).ctx] ∧
      (withCtx two (fun c => { c with vdn := 2#6 })).running (withCtx two (fun c => { c with vdn := 2#6 })).ctx = true ∧
      ((withCtx two (fun c => { c with vdn := 2#6 })).findCtx 4096 = some (withCtx two (fun c => { c with vdn := 2#6 })).ctx)) ∧
    (2 ∈ (sl false 0 2).devicesOf 1 ∧ ((sl false 0 1).findCtx 4096).isSome = true) ∧
    (d.nextDemoted = some 1 ∧ (d.die 0).alive = true ∧ d.demAt + 1000000 ≤ d.now ∧ ∀ u ∈ d.tasks, u.state ≠ .running) := by
  have h : ∀ j < 640, stD.eligible { taskT with state := .ready } j = true → j = 0 := by decide +kernel
  refine ⟨⟨rfl, by decide, by decide +kernel, by decide +kernel, by decide, rfl, rfl, rfl, by decide +kernel, by decide, by decide +kernel, by decide, by decide +kernel, h⟩,
    fun j => rfl, fun j hj => ?_, by decide +kernel, by decide +kernel, (by decide +kernel), by decide +kernel, by decide +kernel, by decide +kernel⟩
  by_cases hl : j < 640
  · exact h j hl hj
  · have : dieOf j ≠ 0 := by simp only [dieOf, Config.coresPerDie]; omega
    simp [State.eligible, taskT, this] at hj

/-! ### Witnesses: causes, waits -/

/-- The running context waits at its instruction. -/
def stWt (i : Instr) (k : Wait) (s : State) : State :=
  withMem (withCtx s (fun c => { c with base := { c.base with wait := some { waitZ with kind := k } } })) 0x10000 8 (encode i).toNat

/-- A running channel's version wait. -/
def chanV : Chan := { chanR (.version 1000 4000) with resv := [] }

/-- Full latches, posted causes, an open handler out of budget and one not, wakes with and without a drop (R345, R351, R55). -/
theorem wit_CausesAreTakenInOrder : let s := withCtx stT (fun c => { c with
      tvec := 0x20000#64, latches := [(1, some { code := 0x09#8, sub := 5#8, addr := 0x10008#64 })]
      posted := [{ code := 0x16#8, sub := 3#8, val := 0#64, unit := 0, ch := 2 }, { code := 0x10#8, sub := 0#8, val := 7#64, unit := 0, ch := 0 }] })
    let p := withCtx s (fun c => { c with latches := [] })
    let h := withTask (withCtx (withPart stT) (fun c => { c with thnd := true, tbudget := 0, tepc := 0x10010#64 })) id
    let w (d : Bool) := withCtx stT (fun c => { c with
      tiles := [(4, { Tile.entry with state := .full, waking := true, dropAtWake := d })]
      banks := [(4, { PadBank.entry with state := .full, waking := true, dropAtWake := d })] })
    (s.ctx.level = .tenant ∧ s.ctx.thnd = false ∧ s.ctx.shnd = false ∧ s.ctx.risen = false ∧ s.ctx.tvec ≠ 0#64 ∧ s.running s.ctx = true) ∧
    (s.ctx.latch 1 = some { code := 0x09#8, sub := 5#8, addr := 0x10008#64 } ∧ (∀ j < 1, s.ctx.latch j = none) ∧ Say.TenantCause 0x09#8 5#8 ∧ Say.TenantCause 0x05#8 0#8) ∧
    ((∀ j < 4, p.ctx.latch j = none) ∧ Say.rank { code := 0x10#8, sub := 0#8, val := 7#64, unit := 0, ch := 0 } < Say.rank { code := 0x16#8, sub := 3#8, val := 0#64, unit := 0, ch := 2 } ∧
      Say.TenantCause 0x10#8 0#8) ∧
    (h.ctx.thnd = true ∧ h.ctx.shnd = false ∧ h.ctx.tbudget = 0 ∧ h.running h.ctx = true ∧ (h.findTask 0).map Task.state = some .running) ∧
    (Say.Idle h.ctx.tbank ∧ h.ctx.base.lateCells = [] ∧ h.ctx.sbank.lateCells = []) ∧
    ((withCtx h (fun c => { c with tbank := { c.tbank with qL := [{ entryT (.ltile flnZ) with popsTaken := true }] } })).ctx.tbank.queue .l =
      [{ entryT (.ltile flnZ) with popsTaken := true }]) ∧
    (0 < (withCtx h (fun c => { c with tbudget := 1 })).ctx.tbudget) ∧
    ((w true).findCtx 4096).isSome = true ∧ (((w true).ctx.tile 4).waking = true ∧ ((w true).ctx.tile 4).dropAtWake = true ∧ (w true).ctx.pinned 4 = false) ∧
    (((w false).ctx.tile 4).dropAtWake = false ∧ ((w false).ctx.padBank 4).waking = true ∧ ((w false).ctx.tile 3).waking = false) ∧
    (((w true).ctx.padBank 4).dropAtWake = true ∧ (∀ e ∈ (w true).ctx.chans, e.2.run = true → e.2.stalled = false) ∧
      ∃ e ∈ (withCtx (w true) (fun c => { c with chans := [(2, { chanR .walk with stalled := true })] })).ctx.chans, e.2.run = true ∧ e.2.stalled = true) :=
  ⟨by decide, ⟨by decide, by decide, by unfold Say.TenantCause; decide⟩, ⟨by decide, by decide, by unfold Say.TenantCause; decide⟩, by decide,
    ⟨⟨by decide, by intro e; cases e <;> decide⟩, by decide, by decide⟩, rfl, by decide, (by decide), by decide, by decide, by decide⟩

/-- Each wait at its instruction: met and not met, in its turn and out of it, within its limit and past it; a parked task;
a channel's creation (R22, R33, R103, R109, R127, R177, R218). -/
theorem wit_WaitsEndWhenTheyAreMet : let cw := Instr.cwait { scope := 3#3, a := 1#6, b := 2#6, off := 0#24 }
    let c := stWt cw (.counter 0x100 1#64) (withS stT [(1, 0x100#64), (2, 1#64)])
    let t := stWt (.waitt { a := 2#6 }) (.time 9000#64) (withS stT [(2, 9000#64)])
    let g := stWt (.gwait { a := 0#6, idx := 3#6, n := 2#12 }) (.gutter 3 2) stT
    let q (cl : Bool) (n : Nat) := stWt (.qpop { scope := 3#3, d := 9#6, a := 1#6, tryF := false }) (.pop 0x20000#64 none 3#3)
      (withQueue (withS stT [(1, 0x20000#64)]) cl (2 + n) 2)
    let b := withCtx (stWt (.add { sp := false, d := 9#6, a := 56#6, b := 2#6 }) (.pop 0x20000#64 (some 0) 3#3) (withQueue stT false 3 2))
      (fun c => { c with qbinds := [(0, { desc := some 0x20000#64, scope := 3#3, held := none })] })
    let g_ (g : Given) (s : State) := withCtx s (fun c => { c with base := { c.base with wait := c.base.wait.map (fun w => { w with given := g }) } })
    let vl := Instr.vld { sp := false, scope := 3#3, d := 9#6, a := 1#6, b := 2#6, mode := 0#2, line := lineT 4#4 }
    let v := stWt vl (.version 0x80000#64 0 4) (withRegion (withS stT [(1, 0x80000#64), (2, 4#64)]) [ver3])
    let cr := stWt (.vst { scope := 3#3, a := 1#6, b := 2#6, line := lineT 4#4 }) (.creation 0x80000#64 4) (withRegion (withS stT [(1, 0x80000#64), (2, 4#64)]) [ver3])
    let cl := withCtx { cr with now := 6000 } (fun c => { c with vwlim := 1#20 })
    let parked : State := { withOther (withTask (withMem stT 0x100 8 1) id) (fun c => { c with
      place := .memory, level := .tenant, vdn := 1#6, task := some 0, base := { c.base with wait := some { waitZ with kind := .counter 0x100 1#64 } } }) with
        tasks := [{ taskT with state := .parked }] }
    let ch := withCtx (withTables (withPart (withMem stT 0x40000 128 (0x41000 * 2 ^ 64 + 2 ^ 192)))) (fun c => { c with chans := [(2, chanV)] })
    (c.running c.ctx = true ∧ c.ctx.hasCause = false ∧ c.ctx.thnd = false ∧ c.waitHere? = some { waitZ with kind := .counter 0x100 1#64 } ∧ c.waiting = some cw) ∧
    ((1#64).toNat ≤ (withMem c 0x100 8 1).natAt 0x100 8 ∧ c.natAt 0x100 8 < (1#64).toNat) ∧
    ((g_ .met c).waitHere?.map WaitSt.given = some .met ∧ (g_ .met c).waiting = some cw) ∧
    (t.waiting = some (.waitt { a := 2#6 }) ∧ g.waiting = some (.gwait { a := 0#6, idx := 3#6, n := 2#12 })) ∧
    ((q false 1).waiting = some (.qpop { scope := 3#3, d := 9#6, a := 1#6, tryF := false }) ∧ ((q false 1).qdesc 0x20000).map QDesc.count = some 1 ∧
      ((q true 0).qdesc 0x20000).map (fun d => (d.count, d.closed)) = some (0, true) ∧ ((q false 0).qdesc 0x20000).map (fun d => (d.count, d.closed)) = some (0, false) ∧
      (q false 1).ctxs = [] ∧ (g_ (.entry { bits := 9#64, pois := false }) (q false 0)).waitHere?.map WaitSt.given = some (.entry { bits := 9#64, pois := false })) ∧
    ((b.waiting).isSome = true ∧ (b.qdesc 0x20000).map QDesc.count = some 1 ∧
      (match b.popQueue ((b.ctx.qbind 0).desc.getD 0#64) (b.ctx.qbind 0).scope.toNat with
        | .entry _ _ => true
        | _ => false) = true ∧ (b.ctx.qbind 0).held = none ∧
      ((withCtx b (fun c => { c with qbinds := [(0, { desc := some 0x20000#64, scope := 3#3, held := some { bits := 5#64, pois := false } })] })).ctx.qbind 0).held =
        some { bits := 5#64, pois := false }) ∧
    (v.waiting = some vl ∧ v.waitHere?.map WaitSt.given = some .nothing ∧ (g_ .missing v).waitHere?.map WaitSt.given = some .missing ∧
      (g_ (.line ver3) v).waitHere?.map WaitSt.given = some (.line ver3) ∧ (g_ (.retry 5000) v).waitHere?.map WaitSt.given = some (.retry 5000) ∧ v.now = 5000) ∧
    ((cr.waiting).isSome = true ∧ (withCtx cr (fun c => { c with vwlim := 0#20 })).ctx.vwlim = 0#20 ∧ cl.ctx.vwlim ≠ 0#20 ∧ 5000 + 1000 * cl.ctx.vwlim.toNat ≤ cl.now) ∧
    ((parked.findCtx 8192).map (fun x => (parked.running x, x.bank.wait.isSome, x.task)) = some (false, true, some 0) ∧ (parked.findCtx 8192).map (fun x => x.bank.wait.map WaitSt.pc) = some (some 0x10000#64) ∧
      (parked.findTask 0).map Task.state = some .parked ∧ (1#64).toNat ≤ parked.natAt 0x100 8) ∧
    (ch.ctx.id < 2 ^ 64 ∧ ch.ctx.resident = true ∧ (ch.ctx.chan 2).phase = .version 1000 4000 ∧ 1000 + 4000 ≤ ch.now ∧ ({ ch with now := 4999 } : State).now < 1000 + 4000 ∧ (ch.curRecord 2).isSome = true) :=
  ⟨by decide +kernel, by decide +kernel, by decide +kernel, by decide +kernel, by decide +kernel, (by decide +kernel), by decide +kernel, by decide +kernel, by decide +kernel,
    by decide +kernel⟩

/-! ### Witnesses: records that run, messages -/

/-- A map of four 8-byte elements, `bound` of them in bounds. -/
def mapNat (space base bound : Nat) : Nat :=
  1 + 3 * 2 ^ 8 + space * 2 ^ 16 + base * 2 ^ 64 + (bound + 8 * 2 ^ 32 + 4 * 2 ^ 96 + 2 ^ 112 + 2 ^ 120 + 2 ^ 124) * 2 ^ 256

/-- A record with both maps, owned by the device, with other bits. -/
def recNat (x : Nat) : Nat := 0x41000 * 2 ^ 64 + 0x41100 * 2 ^ 128 + 2 ^ 192 + 2 ^ 204 + 0x55 * 2 ^ 320 + x

/-- Channel 2 runs the record at 0x40000, its source in memory at 0x42000, its destination in the scratchpad at 64. -/
def stR (h : Nat) (p : RecPhase) : State :=
  let s := withTables (withPart (withMem (withMem (withMem (withMem stE 0x40000 128 h) 0x41000 256 (mapNat 0 0x42000 2)) 0x41100 256 (mapNat 1 64 4))
    0x42000 16 0x1111111122222222333333334444444))
  withCtx s (fun c => { c with chans := [(2, chanR p)] })

/-- The maps of the record, as checked. -/
def srcMap : TMap := { esize := 8, space := 0, base := 0x42000, dims := [tdimOf (2 + 8 * 2 ^ 32 + 4 * 2 ^ 96 + 2 ^ 112 + 2 ^ 120 + 2 ^ 124)] }
def dstMap : TMap := { esize := 8, space := 1, base := 64, dims := [tdimOf (4 + 8 * 2 ^ 32 + 4 * 2 ^ 96 + 2 ^ 112 + 2 ^ 120 + 2 ^ 124)] }

/-- The result of a fetch. -/
def fetched : CopyFetch → Option Nat
  | .ok n => some n
  | _ => none

/-- The maps of a check. -/
def checked : RecCheck → Option (TMap × Option TMap)
  | .ok m => some (m.src, m.dst)
  | _ => none

/-- Every source byte of the record is there: two elements in memory, two out of bounds. -/
theorem copyBytes_stR : ∀ i < 4, ∀ b < 8, ∃ v, Say.CopyByte (stR (recNat 0) .start) (recNat 0) srcMap i b v := by
  intro i hi b _
  have h0 : srcMap.addr 0 = some 0x42000 := by decide
  have h1 : srcMap.addr 1 = some 0x42008 := by decide
  have h2 : srcMap.addr 2 = none := by decide
  have h3 : srcMap.addr 3 = none := by decide
  have x0 : (stR (recNat 0) .start).copyX 0x42000 8 .r = .ok [(0x42000, { pa := 0x42000, nl1 := false, m := false })] :=
    ok_of (by decide +kernel)
  have x1 : (stR (recNat 0) .start).copyX 0x42008 8 .r = .ok [(0x42008, { pa := 0x42008, nl1 := false, m := false })] :=
    ok_of (by decide +kernel)
  match i, hi with
  | 0, _ => exact ⟨_, by unfold Say.CopyByte; rw [h0]; exact ⟨by decide, by decide, by decide, _, x0, rfl⟩⟩
  | 1, _ => exact ⟨_, by unfold Say.CopyByte; rw [h1]; exact ⟨by decide, by decide, by decide, _, x1, rfl⟩⟩
  | 2, _ => exact ⟨_, by unfold Say.CopyByte; rw [h2]⟩
  | 3, _ => exact ⟨_, by unfold Say.CopyByte; rw [h3]⟩

/-- A record that is owned and one that is not, a malformed one, the plain one with its elements; a landing due; a message
that finds room and one that fills; a prefetch (R92, R93, R273 to R283). -/
theorem wit_RecordsRunAndLand : let s := stR (recNat 0) .start
    let f (h : Nat) := fetched ((stR h .start).copyFetch 2 0x40000 128)
    let net : Producer := .net 0 5#32 0#64 [1#8, 2#8]
    let g : Gutter := { Gutter.zero with en := true, slotg := 1#8, nslot := 4#12, free := 4 }
    let gw := withCtx stE (fun c => { c with gutters := [(3, { g with waiters := [net] })] })
    let gf := withCtx stE (fun c => { c with gutters := [(3, { g with free := 3, flight := [{ slot := 3, slots := 1, prod := net, ended := none }] })] })
    let fe (t : Nat) : Fetched :=
      { head := BitVec.ofNat 1024 (recNat (2 ^ 202 + 2 ^ 203 + t * 2 ^ 256)), maps := { src := srcMap, dst := some dstMap } }
    let ld (t : Nat) := withCtx stE (fun c => { c with chans := [(2, { chanR .landing with fetched := some (fe t) })] })
    let p := withCtx stE (fun c => { c with prefetches := [{ cnt := 0x100#64, val := 7#64, lines := 2 }] })
    (s.ctx.id < 2 ^ 64 ∧ s.ctx.resident = true ∧ (s.ctx.chan 2).run = true ∧ (s.ctx.chan 2).cur = some (.record 0x40000#64) ∧
      f (recNat 0) = some (recNat 0) ∧ (s.ctx.chan 2).phase = .start) ∧
    (f (recNat 0 - 2 ^ 192) = some (recNat 0 - 2 ^ 192) ∧ bitOf (recNat 0 - 2 ^ 192) 192 = false ∧ bitOf (recNat 0) 192 = true) ∧
    (f (recNat (2 ^ 203)) = some (recNat (2 ^ 203)) ∧ bitOf (recNat (2 ^ 203)) 203 = true ∧ bitOf (recNat (2 ^ 203)) 202 = false) ∧
    (checked (s.recMaps 2 (recNat 0)) = some (srcMap, some dstMap) ∧ bitOf (recNat 0) 193 = false ∧ bitOf (recNat 0) 200 = false ∧ bitOf (recNat 0) 201 = false ∧
      bitOf (recNat 0) 202 = false ∧ bitsOf (recNat 0) 448 64 = 0 ∧ s.recordHeld 2 (recNat 0) = false ∧ Say.Free s 2) ∧ srcMap.count = 4 ∧
    (∀ i < 4, dstMap.addr i = some (64 + 8 * i) ∧ (64 + 8 * i) % 8 = 0 ∧ 64 + 8 * i + 8 ≤ s.ctx.spSize ∧ ∀ b ∈ banksOf (64 + 8 * i) 8, s.ctx.padReady b = true) ∧
    (∀ i < 4, ∀ b < 8, ∃ v, Say.CopyByte s (recNat 0) srcMap i b v) ∧
    (((stR (recNat 0) .walk).ctx.chan 2).phase = .walk ∧ (s.ctx.chan 2).phase ≠ .landing ∧ (s.ctx.chan 2).phase ≠ .walk) ∧
    ((∀ t ∈ [4000, 9000], (ld t).landTime (fe t).head.toNat = some (t : Int) ∧ ((ld t).ctx.chan 2).phase = .landing ∧ ((ld t).ctx.chan 2).run = true ∧
        ((ld t).ctx.chan 2).cur = some (.record 0x40000#64) ∧ ((ld t).ctx.chan 2).fetched = some (fe t)) ∧
      (ld 4000).now = 5000 ∧ (ld 4000).ctx.id < 2 ^ 64 ∧ (ld 4000).ctx.resident = true) ∧
    ((gw.findCtx 4096).map (fun x => (x.resident, (x.gutter 3).waiters, (x.gutter 3).en, (x.gutter 3).free)) = some (true, [net], true, 4) ∧
      max 1 ((2 + 256 * 1 - 1) / (256 * 1)) ≤ 4) ∧
    ((gf.findCtx 4096).map (fun x => (x.resident, (x.gutter 3).flight)) = some (true, [{ slot := 3, slots := 1, prod := net, ended := none }]) ∧ 2 ≤ 256 * 1 * 1 ∧ gf.ctx.slotsReady 3 = true) ∧
    ((p.findCtx 4096).map Ctx.prefetches = some [{ cnt := 0x100#64, val := 7#64, lines := 2 }]) :=
  ⟨by decide +kernel, by decide +kernel, by decide +kernel, by unfold Say.Free; decide +kernel, by decide, by decide +kernel, copyBytes_stR, by decide +kernel, by decide +kernel, by decide +kernel,
    by decide +kernel, by decide +kernel⟩

/-- A send slot as given, on an open connection 5 of device 1. -/
def stN (m : SendSlot) (k : Conn) : State := { withCtx stE (fun c => { c with sends := [(3, m)] }) with conns := [(5, k)] }

/-- An accepted send. -/
def sendZ : SendSlot := { SendSlot.zero with gen := 1#8, used := true, handle := 5#32, bufs := [{ addr := 0, len := 64, lu := false }] }

/-- An open connection. -/
def connZ : Conn := { Conn.closed with isOpen := true, vdn := 1 }

/-- Sends at each stage; messages for a closed connection, for neither, for a region with room, without, for a number it
has, for a gutter; held ones in time and past it (R285, R403). -/
theorem wit_SendsLeaveAndMessagesLand : let s := stN sendZ connZ
    let tk := stN { sendZ with taken := true, msg := [1#8] } connZ
    let st := stN { sendZ with taken := true, sent := true } connZ
    let soon := stN { sendZ with time := 9000#64, due := 9000, taken := true } connZ
    let dark := stN { sendZ with taken := true, shadow := true } { connZ with repl := true, shadow := true }
    let past : State := { stN { sendZ with taken := true, shadow := true } { connZ with repl := true } with promoEnd := 1000 }
    let fly (m : SendSlot) : Flying := { ctx := 4096, slot := 3, send := m, part := 1, tag := false, phase := 0#64 }
    let off (s : State) (m : SendSlot) : State := { s with flying := [fly m] }
    let rg (c : Conn) : State := { withTables (withRegion stE [ver3]) with conns := [(5, { c with ingress := 2, base := 0x80000#64, sector := 1 })] }
    let small (s : State) : State := { s with committed := s.committed.filter (fun e => e.1 ≠ 0x681) }
    let w (n : Nat) : Word := BitVec.ofNat 64 (2 ^ 32 + n)
    let gt : State := { withCtx (withPart stE) (fun c => { c with gutters := [(3, { Gutter.zero with en := true, slotg := 1#8, nslot := 4#12, free := 4 })] }) with
      conns := [(5, { connZ with ingress := 1, gutter := 3 })] }
    let hold : NetHold := { handle := 5#32, word := w 4, bytes := List.replicate 256 0#8, begun := true, since := 0, got := 0, lost := false }
    let held (n : Nat) : State := { rg connZ with netHolds := [hold], now := n }
    ((s.findCtx 4096).map (fun x => ((x.send 3).used, (x.send 3).taken, (x.send 3).err)) = some (true, false, false)) ∧
    ((stN sendZ { connZ with shadow := true }).conn 5).shadow = true ∧
    ((tk.ctx.send 3) = { sendZ with taken := true, msg := [1#8] } ∧ Say.Ready tk (tk.ctx.send 3) ∧ ¬ Say.Suppressed tk (tk.ctx.send 3)) ∧
    (Say.Ready dark (dark.ctx.send 3) ∧ Say.Suppressed dark (dark.ctx.send 3) ∧ Say.Ready past (past.ctx.send 3) ∧ Say.Suppressed past (past.ctx.send 3)) ∧
    ((st.findCtx 4096).map (fun x => ((x.send 3).used, (x.send 3).taken, (x.send 3).sent, (x.send 3).err, (x.send 3).delivered)) = some (true, true, true, false, false)) ∧
    ((soon.findCtx 4096).map (fun x => (x.send 3).due) = some 9000 ∧ (soon.now : Int) < 9000) ∧
    (((stN sendZ connZ).flies 4096 3 = none ∧ dark.flies 4096 3 = none) ∧ (off s { sendZ with sent := true }).flies 4096 3 = some (fly { sendZ with sent := true }) ∧
      Say.Ready (off s (tk.ctx.send 3)) (tk.ctx.send 3) ∧ ¬ Say.Suppressed (off s (tk.ctx.send 3)) (tk.ctx.send 3) ∧
      Say.Ready (off dark (dark.ctx.send 3)) (dark.ctx.send 3) ∧ Say.Suppressed (off dark (dark.ctx.send 3)) (dark.ctx.send 3)) ∧
    (∀ b ∈ sendZ.bufs, ∀ k ∈ banksOf b.addr b.len, (stE.ctx.padBank k).state ≠ .retain ∧ (stE.ctx.padBank k).waking = false) ∧
    (s.conn 6).isOpen = false ∧ ((s.conn 5).isOpen = true ∧ (s.conn 5).ingress ≠ 1 ∧ (s.conn 5).ingress ≠ 2 ∧ (s.conn 5).repl = false) ∧
    (((rg connZ).conn 5).ingress = 2 ∧ (w 4).getLsbD 32 = true ∧ (rg connZ).regionAt ((rg connZ).vdPart 1) 0x80000 = some (regionT [ver3]) ∧
      1 < (regionT [ver3]).sectors ∧ (rg connZ).vdPaused 1 = false ∧ (rg connZ).netHolds = [] ∧ (rg connZ).parts = false ∧
      ((rg connZ).agentX 1 1 (0x80000 + 256) 256 .w).toOption.isSome = true) ∧
    ((rg connZ).createCheck (regionT [ver3]) 1 4 = .ok ∧ (small (rg connZ)).createCheck (regionT [ver3]) 1 4 = .full ∧
      (rg connZ).createCheck (regionT [ver3]) 0 3 = .duplicate ∧ (rg connZ).createCheck (regionT [ver3]) 1 1 = .missing) ∧
    (Say.NoneWaits (rg connZ) ∧ (regionT [ver3]).retain = 0) ∧
    ((gt.gutterOwner (gt.vdPart 1) 0 3).map (fun x => (x.id, x.resident, (x.gutter 3).waiters, (x.gutter 3).free)) = some (4096, true, [], 4) ∧
      gt.vdPaused 1 = false ∧ (gt.findCtx 4096).isSome = true) ∧
    ((held 1000000).netHolds = [hold] ∧ hold.got = 0 ∧ 0 + 1000000 ≤ (held 1000000).now ∧ (held 999999).now < 0 + 1000000 ∧ hold.bytes.length = 256 ∧
      (held 0).vdPaused 1 = false ∧ (held 0).createCheck (regionT [ver3]) 1 4 = .ok ∧ ¬ (∀ y ∈ (held 0).netHolds, y.handle ≠ 5#32) ∧
      ({ hold with lost := true } : NetHold).lost = true ∧ ({ hold with begun := false } : NetHold).begun = false) :=
  ⟨by decide, by decide, by unfold Say.Ready Say.Suppressed; decide, by unfold Say.Ready Say.Suppressed; decide, (by decide), by decide,
    by unfold Say.Ready Say.Suppressed; decide, by decide, by decide, (by decide), by decide +kernel, by decide +kernel, by unfold Say.NoneWaits; decide, by decide +kernel,
    by decide +kernel⟩

/-- A group of one contribution to a 4-byte window; links both ways; dies alive, silent for 200 µs and not, one failed;
a commit before its time, at it with a refused copy, with one that passes; a paused device at rest and one not (R375 to
R407). -/
theorem wit_FabricAndConfigurationTurn : let c : Contrib := { ident := 1, op := 0, pa := 0x100, off := 0x100, val := 5#64, ctx := 4096, part := 1, tag := false, phase := 0#64 }
    let w : State := { stT with windows := [{ ident := 1, part := 1, vdn := 1, base := 0, size := 65536, w64 := false, home := 0 }], contribs := [c] }
    let late : State := { stT with now := 200000 }
    let m := (withPart stT).committed
    let badm : Sparse Word := [(0x460, 2#64)]
    let long_ : Sparse Word := [(0x400, BitVec.ofNat 64 (1000 * 2 ^ 30 + 10 * 2 ^ 20 + 1600 + 2 ^ 40)), (0x410, BitVec.ofNat 64 (513 * 2 ^ 36)), (0x420, 65#64)]
    let good : Sparse Word := [(0x460, 0xFF#64), (0x474, 0xFF#64)]
    let ps (m : Sparse Word) (n : Nat) : State := { withPart stT with psyncs := [(7168, m)], now := n }
    let paused : State := { withPart { stT with ctx := Ctx.blank } with
      committed := [(0x401, 0x8000000000000000#64), (0x5C1, BitVec.ofNat 64 (2 ^ 63 + 2 ^ 62 + 2 ^ 56))] }
    (stT.timePort = none ∧ ({ stT with timePort := some 2 } : State).timePort = some 2 ∧ ({ stT with promoting := some 0 } : State).promoting = some 0) ∧
    (w.windows.map w.homeHere = [true] ∧ ({ w with node := 3 } : State).homeHere { ident := 1, part := 1, vdn := 1, base := 0, size := 65536, w64 := false, home := 0 } = false) ∧
    (w.contribs.filter (fun x => x.ident == 1) = [c] ∧ ∀ x ∈ w.contribs, x.ident ≠ 2) ∧
    (stT.links.getLsbD 3 = false ∧ ({ stT with links := 8#16 } : State).links.getLsbD 3 = true) ∧
    ((stT.die 0).alive = true ∧ (stT.die 1).alive = true ∧ (stT.die 0).beatAt + 200000 ≤ late.now ∧ stT.now < (stT.die 0).beatAt + 200000) ∧
    ((ps m 7168).psyncs = [(7168, m)] ∧ (ps m 7167).now < 7168 ∧ 7168 ≤ (ps m 7168).now) ∧
    (({ ps badm 7168 with psyncs := [] } : State).configCheck (configOf badm) = some (1, 0x460)) ∧
    (({ ps long_ 7168 with psyncs := [] } : State).configCheck (configOf long_)).isSome = true ∧
    (Say.FailsAt (ps long_ 7168) (configOf long_) 7 0x420 ∧ Say.FailsAt (ps long_ 7168) (configOf long_) 4 0x41F ∧
      Say.FailsAt (ps long_ 7168) (configOf long_) 9 0x690) ∧
    (configOf badm 0x460 / 16 ^ 0 % 16 = 2 ∧ bitOf (configOf badm (0x400 + 2)) 63 = false) ∧
    (({ ps good 7168 with psyncs := [] } : State).configCheck (configOf good) = none) ∧
    (stT.vdPaused 1 = false ∧ paused.vdPaused 1 = true ∧ 1 ∉ paused.atRest ∧ ∀ c ∈ paused.allCtxs, c.resident = false) := by
  refine ⟨by decide, by decide, by decide, by decide, by decide, by decide, (by decide +kernel), by decide +kernel,
    ⟨.inr (.inr (.inr (.inr (.inr (.inl ⟨0, by decide, rfl, rfl, by decide +kernel⟩))))), .inl ⟨rfl, rfl, .inl (by decide +kernel)⟩,
      .inr (.inr (.inr (.inr (.inr (.inr (.inr (.inl ⟨0, by decide, rfl, rfl, .inl rfl, by decide +kernel, by decide +kernel⟩)))))))⟩,
    by decide +kernel, (by decide +kernel), by decide +kernel⟩

/-! ### Witnesses: power, heat, errors, start -/

/-- A partition that loses slots and queues to raise; cores' requests; errors that strike; a watchdog armed (R323, R341,
R357, R379 to R381, R410, R411). -/
theorem wit_PowerHeatAndErrorsAct : let own : State := { withPart stT with committed := (withPart stT).committed ++ [(0x580, 0x1111111111111111#64), (0x581, 0x1111111111111111#64), (0x582, 0x1111111111111111#64), (0x583, 0x1111111111111111#64)] }
    let x := stX (fxmT 1#8 0#12) 15#4
    let r (u : PowerUnit) : Reserve := { core := 0, ctx := 4096, bank := 0, unit := u, amount := 1200 }
    let cl (l : Nat) (h p : List Reserve) : State := { x with clusters := [(0, { limit := l, held := h, pending := p, freezeEnd := 6000, dfrz := 32 })] }
    let wd (n : Nat) : State := withOther { stT with dies := [(0, { Die.zero with wdog := some 100, wdogAt := 4000, wdogX := n })] } (fun c => c)
    let run := withTask stT id
    let l1 := withCtx stT (fun c => { c with l1 := [(0x100, some { val := 7#8, dirty := true, pois := false, va := 0x100 })] })
    let mac (cs : BitVec 4) : State := { x with cores := [(0, { CoreSlot.zero with run := some 4096, courses := cs })] }
    (own.lossOf 0 0 1 < own.lossOf 0 24 1 ∧ own.removedSlots 0 4 ≠ [] ∧ own.queueOn 1 0 = true ∧ (own.qcfg 1 0).cls ≠ 0 ∧ own.queueOn 1 1 = false) ∧
    (1200 ≤ (stT.cluster 0).limit ∧ ((cl 37200 [] []).cluster 0).limit < 38400) ∧
    ((x.findCtx 4096).map (fun c => (c.resident, (c.asks .x).isSome)) = some (true, true) ∧ (x.cluster 0).held ++ (x.cluster 0).pending = []) ∧
    (((cl 38400 [] [r .x]).cluster 0).pending = [r .x] ∧ (∃ e ∈ ((cl 38400 [] [r .x]).cluster 0).pending, e.ctx = 4096 ∧ e.unit = .x) ∧
      (∀ e ∈ ((cl 38400 [] [r .x]).cluster 0).held ++ [r .x], ((cl 38400 [] [r .x]).findCtx e.ctx).map (fun c => ((cl 38400 [] [r .x]).running c, clusterOf c.core, e.bank)) = some (true, 0, 0)) ∧
      (let h := withCtx (cl 2000 [r .x] [{ r .x with bank := 1 }]) (fun c => { c with thnd := true });
        (h.cluster 0).pending = [{ r .x with bank := 1 }] ∧ (h.cluster 0).limit < 1200 + 1200 ∧
          (h.cluster 0).held.map (fun e => (e.ctx, e.bank, decide (e.unit = .copy))) = [(4096, 0, false)] ∧
          (h.findCtx 4096).map (fun c => (h.running c, c.thnd, c.shnd, clusterOf c.core)) = some (true, true, false, 0))) ∧
    ([r .v].map Reserve.amount).sum + 1200 ≤ ((cl 38400 [r .v] [r .x]).cluster 0).limit ∧ ((cl 2000 [r .v] [r .x]).cluster 0).limit < ([r .v].map Reserve.amount).sum + 1200 ∧
    (stT.now < ((cl 0 [] []).cluster 0).freezeEnd ∧ (stT.cluster 0).freezeEnd ≤ stT.now) ∧ (stT.die (homeDie (64 * 100))).ringCap = 0 ∧
    ((run.findCtx 4096).map (fun c => (c.resident, c.task)) = some (true, some 0) ∧ (run.findTask 0).map Task.state = some .running) ∧
    ((stS.findCtx 4096).map (fun c => (c.resident, c.task)) = some (true, none)) ∧
    (((wd 0).die 0).wdog = some 100 ∧ ((wd 0).die 0).wdogAt ≤ (wd 0).now ∧ ((wd 0).die 0).wdogX = 0 ∧ ((wd 1).die 0).wdogX ≠ 0 ∧
      ((wd 0).stewardOf 0).map Ctx.id = some 8192) ∧
    (l1.findCtx 4096).map (fun c => (Sparse.get (fun _ => none) c.l1 0x100).isSome) = some true ∧
    (∀ cs ∈ [15#4, 3#4], (mac cs).bank.selects = some 15#4 ∧ ((mac cs).coreSlot (mac cs).ctx.core).courses = cs) := by
  refine ⟨by decide +kernel, by decide, by decide, by decide, by decide, (by decide), by decide, by decide, by decide, by decide, by decide, by decide, by decide⟩

/-- Power-on of a module that is off, of each finding; recovery idle; a running module. Whether an image verifies is not the
model's to say: one of the two clauses of LOAD always applies (R413, R414, R418, R419). -/
theorem wit_TheModuleStartsAndRecovers : let b (x y f : Bool) : Bist := { read0 := x, read1 := y, fabricOk := f, defects := [] }
    let r : State := { State.reset with boot := .recovery 4 }
    let full : State := { State.reset with flash := [1#8] }
    State.reset.boot = .off ∧ State.reset.flash = [] ∧ full.boot = .off ∧ full.flash ≠ [] ∧ (b false false true).read0 = false ∧
    (b true false true).read0 ≠ (b true false true).read1 ∧ (b true true false).fabricOk = false ∧ (b true true true).defects = [] ∧
    full.devRec.defects = [] ∧ (∀ n ∈ [2#8, 3#8, 4#8], ({ r with rstate := n } : State).boot = .recovery 4 ∧ ({ r with rstate := n } : State).rstate = n) ∧
    (r.boot = .recovery 4 ∧ r.rstate = 1#8 ∧ r.imglen.toNat ≤ 2 ^ 26 ∧ r.imgaddr.toNat % 4096 = 0) ∧
    (Config.imageVerifies full.flash = true ∨ Config.imageVerifies full.flash = false) ∧
    (Config.imageVerifies (Sparse.getList memDefault r.hostMem r.imgaddr.toNat r.imglen.toNat) = true ∨
      Config.imageVerifies (Sparse.getList memDefault r.hostMem r.imgaddr.toNat r.imglen.toNat) = false) ∧ stT.boot = .running :=
  ⟨rfl, rfl, rfl, by decide, rfl, by decide, (rfl), rfl, by decide, by decide, by decide, by cases Config.imageVerifies _ <;> simp,
    by cases Config.imageVerifies _ <;> simp, rfl⟩

/-- With nothing else to move the sequencer's turn comes. -/
theorem seqTurn_of {s : State} (ha : s.agenda = []) (hq : s.bank.entries = []) (hc : s.chores = []) (ho : s.otherRunning = none)
    (hr : s.running s.ctx = true) (hs : s.ctx.settleLate = s.ctx) : Say.SeqTurn s s s := by
  simp only [RegBank.entries, List.append_eq_nil_iff] at hq
  refine ⟨hr, by rw [hs], .inr ⟨ha, fun e => ?_, hc, ho, rfl⟩⟩
  cases e
  exacts [hq.1.1.1, hq.1.1.2, hq.1.2, hq.2]

/-- The sequencer's turn, its word, each engine's turn, a thread's and an event's; a pc that does not translate and one in a
marked sector (R22, R137, R144). -/
theorem wit_StepRunsTheDecodedInstruction : let eng (e : Eng) (en : Entry) : State := { running stE e en with acting := none, agenda := [.engine 0 e] }
    let lost := withCtx stT (fun c => { c with pc := 0x10000000000#64 })
    let cause := withCtx stT (fun c => { c with posted := [{ code := 0x10#8, sub := 0#8, val := 0#64, unit := 0, ch := 0 }] })
    let spent := withCtx stT (fun c => { c with thnd := true, tbudget := 0 })
    let left_ := withTask stT (fun k => { k with state := .ready })
    let cold : State := { eng .x (enX (fxmT 1#8 0#12) 15#4) with clusters := [(0, { limit := 38400, held := [], pending := [], freezeEnd := 6000, dfrz := 32 })] }
    Say.SeqTurn stT stT stT ∧ Say.SeqTurn { stT with agenda := [.seq 0] } stT stT ∧ (Say.AtWord stT 0#64 ∧ decodeAt stT.ctx.atSteward 0#64 = .ok .nop) ∧
    (spent.ctx.thnd = true ∧ spent.ctx.shnd = false ∧ spent.ctx.tbudget = 0 ∧ Say.SeqTurn spent spent spent ∧ spent.underWay = false) ∧
    (left_.ctx.thnd = false ∧ left_.straggles left_.ctx = true ∧ Say.SeqTurn left_ left_ left_) ∧
    (cause.ctx.hasCause = true ∧ Say.RunsOn cause ∧ Say.RunsOn lost) ∧ (lost.ctx.hasCause = false ∧ (lost.xlate 0x10000000000 .x).toOption = none) ∧
    ((stT.xlate 0x10000 .x).toOption.map XOk.pa = some 0x10000 ∧ ({ stT with marks := [(0x400, true)] } : State).marked 0x10000 = true) ∧
    ((stF 0).blockAt 1#6 = some 0) ∧
    ((eng .l (enL flnT)).bank.queue .l = [enL flnT] ∧ ((eng .l (enL flnT)).coreSlot 0).run = some (eng .l (enL flnT)).ctx.id ∧ (eng .l (enL flnT)).running (eng .l (enL flnT)).ctx = true ∧
      (eng .l (enL flnT)).bank.queue .s = [] ∧ (enL flnT).late = [] ∧ (enL flnT).pushOwed = false ∧ (eng .l (enL flnT)).nextEntry .l = some (enL flnT) ∧
      (eng .x (enX (fxmT 1#8 0#12) 15#4)).nextEntry .x = some (enX (fxmT 1#8 0#12) 15#4)) ∧
    (((eng .x (enX (fxmT 1#8 0#12) 15#4)).leave .x).2 = true ∧ (cold.leave .x).2 = false) ∧
    encode (.ptpMessage { port := 1, correction := 3 }) = BitVec.allOnes 64 :=
  ⟨seqTurn_of rfl (by decide) rfl (by decide) (by decide) rfl, ⟨by decide, by rfl, .inl ⟨0, [], rfl, by decide, rfl⟩⟩, ⟨⟨⟨by decide, by decide⟩, by decide, _, ok_of (a := { pa := 0x10000, nl1 := false, m := false }) (by decide),
      by decide, by decide⟩, by decide⟩, ⟨rfl, rfl, rfl, seqTurn_of rfl (by decide) rfl (by decide) (by decide) rfl, by decide⟩,
    ⟨rfl, by decide, seqTurn_of rfl (by decide) (by decide) (by decide) (by decide) rfl⟩, ⟨by decide, ⟨by decide, by decide⟩, ⟨by decide, by decide⟩⟩, by decide, by decide, by decide +kernel,
    by decide, by decide, rfl⟩

/-- Moves that are made whatever is under way: one that stops nothing, one that leaves no entry; one that opens a handler over
an S entry with its pops taken (R22, R348, R355). -/
theorem wit_StepRunsTheDecodedInstruction_wholly : let a := running stE .s { entryT (.sline flnT) with popsTaken := true }
    Say.StopsNone stT stT ∧ Say.NoEntries stT ∧ Say.CutsAnEntry a (withCtx a (fun c => { c with thnd := true })) := by
  refine ⟨?_, ?_, ?_⟩
  · intro c hc _
    have e : c = stT.ctx := by simpa [State.allCtxs, stT, State.reset] using hc
    subst e
    exact .inr ⟨stT.ctx, by decide, by decide, by decide⟩
  · intro d hd e
    have h : d = stT.ctx := by simpa [State.allCtxs, stT, State.reset] using hd
    subst h
    cases e <;> decide
  · exact ⟨_, .head _, _, .s, _, [], by decide, by decide, rfl, by decide, by decide, .inr (by decide), .inr rfl, rfl, rfl, rfl, by decide, by simp [entryT], by simp [entryT]⟩

/-- A word for each fate: no such opcode, a privilege the level lacks, no encoding of a well-formed instruction, and a good
one (R144). -/
theorem wit_WordsAreCheckedInOrder : let at_ (w : Nat) := withMem stT 0x10000 8 w
    Say.SeqTurn (at_ 0xB000000000000000) (at_ 0xB000000000000000) (at_ 0xB000000000000000) ∧ Say.AtWord (at_ 0xB000000000000000) 0xB000000000000000#64 ∧
    ¬ Say.Assigned 0xB000000000000000#64 ∧ (Say.Assigned 0x3190000000000001#64 ∧ Say.LacksPrivilege false 0x3190000000000001#64) ∧
    (Say.Assigned 0x2135000000000000#64 ∧ ¬ Say.LacksPrivilege false 0x2135000000000000#64 ∧ ∀ i : Instr, i.wf = true → encode i ≠ 0x2135000000000000#64) ∧
    (Instr.wf (.ecall { imm := 7#36 }) = true ∧ encode (.ecall { imm := 7#36 }) = 0x3080000000000007#64 ∧ ¬ Say.LacksPrivilege false 0x3080000000000007#64) := by
  refine ⟨seqTurn_of rfl (by decide) rfl (by decide) (by decide) rfl, ⟨⟨by decide, by decide⟩, by decide, _, ok_of (a := { pa := 0x10000, nl1 := false, m := false }) (by decide), by decide, by decide +kernel⟩,
    by unfold Say.Assigned; decide, ⟨by unfold Say.Assigned; decide, by unfold Say.LacksPrivilege; decide⟩,
    ⟨by unfold Say.Assigned; decide, by unfold Say.LacksPrivilege; decide, ?_⟩, by decide, by decide, by unfold Say.LacksPrivilege; decide⟩
  intro i hi he
  have hc : fld (encode i) 60 4 = 0x2#4 := by rw [he]; decide
  have ho : fld (encode i) 52 8 = 0x13#8 := by rw [he]; decide
  have hs : fld (encode i) 48 3 = 5#3 := by rw [he]; decide
  cases i <;> first
    | (simp [encode] at hc; done)
    | (simp [encode] at ho; done)
    | (clear hi he hs; revert hc ho; decide)
    | (simp [Instr.wf, Instr.ownWord] at hi; done)
    | skip
  case fence f =>
    have e : fld (encode (.fence f)) 48 3 = f.scope := by
      unfold fld
      refine (extractLsb'_append_high _ _ _ _ (by decide)).trans ?_
      exact extractLsb'_append_low _ _
    have h5 : f.scope = 5#3 := e.symm.trans hs
    have hk : scopeOk f.scope = true := by simpa [Instr.wf, Instr.ownWord, fieldsOk] using hi
    rw [h5] at hk
    exact absurd hk (by decide)

/-- Well-formed instructions of each class; a step from a state with canonical memories. -/
theorem wit_EncodingIsUndone : Instr.wf (.add { sp := true, d := 63#6, a := 1#6, b := 2#6 }) = true ∧ Instr.wf (.vadd fv3Z) = true ∧
    Instr.wf (.xmma (fxmT 1#8 0#12)) = true ∧ Instr.wf (.ltile flnT) = true ∧ Instr.wf (.sline flnT) = true ∧
    decode 0x1100000000000000#64 = some .halt := by decide

/-- A state with canonical memories that steps. -/
theorem wit_StepKeepsCanonicalMemory : Inv (withMem stT 0x10000 8 0x1100000000000000) ∧ ∃ t, step (withMem stT 0x10000 8 0x1100000000000000) = .next t := by
  refine ⟨by unfold Inv; decide, ?_⟩
  have h : (match step (withMem stT 0x10000 8 0x1100000000000000) with
    | .next _ => true
    | _ => false) = true := by decide +kernel
  revert h
  cases step (withMem stT 0x10000 8 0x1100000000000000) with
  | next t => exact fun _ => ⟨t, rfl⟩
  | _ => simp

end Sys2Proof.Tests
end

section
/-! # Every step keeps the canonical form of the memories (O58)

There is one lemma for each function of the model that answers a state: from a state of the form it answers a state
of the form. `Inv.f` is the lemma of a function `State.f` that answers a state; `f_kept` or `f_inv` that of a function
whose answer carries a state inside a larger outcome (the predicates `…Kept` below say it of each such type). The
lemmas stand in the order of the model's definitions.

The module's memory is written in five places only: `rawWrite`, `zeroRange`, `movePage`, `cleared` and
`recoveryGoes`; the host's in one, the move `hostStore` of `turnStep`. There the laws of `Sparse` speak. Every other
function leaves both memories alone or passes the state through functions that stand before it. Of such a function
the proof follows the branches of the definition: `grind` splits them and closes each with the named lemmas of the
functions called (and with `inv_iff` where the state is updated in place). Where a branch runs a loop or fixes a
state by `let`, the induction or the intermediate states are written out. -/

namespace Sys2Proof
open Machine

-- Elaborated in order: under the check's memory limit there is no room for more threads.
set_option Elab.async false

variable {s : State}

/-- The canonical form of a pair of memories, the module's and the host's: the two halves of `Inv`. -/
def Canonical (mem host : List Host.Cell) : Prop :=
  Memory.wf mem = true ∧ Sparse.wf memDefault host = true

/-- The invariant speaks of the two memories only. -/
theorem inv_iff : Inv s ↔ Canonical s.mem s.hostMem := Iff.rfl

/-! ### Outcomes that carry a state

Each of these says of an outcome that every state it carries has the form. -/

/-- Of what a sequencer instruction's body answers. -/
def Machine.SeqOut.Kept : SeqOut → Prop
  | .done s | .jump s _ | .after s _ | .trap s _ | .wait s _ _ => Inv s

/-- Of what a pop or a push of a queue answers. -/
def Machine.QRes.Kept : QRes → Prop
  | .trap s _ | .entry s _ | .empty s _ | .ended s | .pushed s | .full s _ => Inv s

/-- Of what the search for a version answers. -/
def Machine.VFind.Kept : VFind → Prop
  | .got s _ | .poison s | .trap s _ | .wait s _ => Inv s

/-- Of what the instruction boundary answers: an instruction to run carries no state. -/
def Machine.Boundary.Kept : Boundary → Prop
  | .trap s => Inv s
  | .instr _ => True

/-- Of what reading a copy's source element answers. -/
def Machine.SrcElem.Kept : SrcElem → Prop
  | .ok s _ _ _ | .stop s _ _ => Inv s

/-- Of what finding a copy's destination element answers. -/
def Machine.DstElem.Kept : DstElem → Prop
  | .stop s _ _ => Inv s
  | .skip | .at_ _ => True

/-- Of what looking at an engine word's operands answers. -/
def Machine.Prep.Kept : Prep → Prop
  | .ok s _ | .wait s _ => Inv s
  | .fault _ _ => True

/-- Of what the copier's fetch answers. -/
def Machine.CopyFetch.Kept : CopyFetch → Prop
  | .fail s _ => Inv s
  | .ok _ => True

/-- Of what the check of a record answers. -/
def Machine.RecCheck.Kept : RecCheck → Prop
  | .fail s _ => Inv s
  | .ok _ | .bad _ => True

/-- Of what reserving sectors answers. -/
def Machine.Reserved.Kept : Reserved → Prop
  | .all s _ => Inv s
  | .fail _ | .full => True

/-- Of what a packet's body answers. -/
def Machine.PktRes.Kept : PktRes → Prop
  | .done s | .plain s | .copy s | .refused s | .bad s _ | .error s _ | .stay s => Inv s

/-- Of what an engine word's work answers. -/
def Machine.EngOut.Kept : EngOut → Prop
  | .done s | .fault s _ _ | .wait s _ | .part s => Inv s

/-- Of what a walk over a record's elements answers. -/
def Machine.Walked.Kept : Walked → Prop
  | .ended s _ | .room s | .more s => Inv s

/-- Of a call whose failure carries a state. -/
def FailKept {α β : Type} : Except (State × α) β → Prop
  | .error p => Inv p.1
  | .ok _ => True

/-- Of a call whose failure and result each carry a state. -/
def TryKept {α β : Type} : Except (State × α) (State × β) → Prop
  | .error p => Inv p.1
  | .ok p => Inv p.1

/-- Of a state that there may be. -/
def SomeKept : Option State → Prop
  | some s => Inv s
  | none => True

/-- Of what a scratchpad write answers: the state where it lands, if it does, and the state where not. -/
def WriteKept : Option State × State → Prop
  | (some t, s) => Inv t ∧ Inv s
  | (none, s) => Inv s

/-- Of a step's outcome. -/
def Kept : Host.Outcome State Machine.Fault Refusal → Prop
  | .next s => Inv s
  | .fault _ | .refused _ => True

/-! ### Folds, options and outcomes -/

/-- A fold of moves that each keep the canonical form keeps it. -/
theorem Inv.foldl {α : Type} (h : Inv s) {f : State → α → State} (hf : ∀ {s a}, Inv s → Inv (f s a))
    {xs : List α} : Inv (xs.foldl f s) :=
  List.foldlRecOn xs f h fun _ hs _ _ => hf hs

/-- Writing a list of cells, each at a place of its own, keeps a table canonical. -/
theorem wf_foldl_set {m : List Host.Cell} (hm : Memory.wf m = true) {f : Nat → Nat} {l : List Host.Cell} :
    Memory.wf (l.foldl (fun m e => Sparse.set memDefault m (f e.1) e.2) m) = true :=
  List.foldlRecOn (motive := fun m => Memory.wf m = true) l _ hm fun _ hb _ _ => Sparse.wf_set _ _ _ _ hb

/-- A state with the same memories has the form too. -/
theorem Inv.update {t : State} (h : Inv s) (hm : t.mem = s.mem := by rfl) (hh : t.hostMem = s.hostMem := by rfl) :
    Inv t := by
  rw [inv_iff, hm, hh]
  exact h

/-- A move of the state that there may be, made where there is one. -/
theorem SomeKept.map {o : Option State} (ho : SomeKept o) {f : State → State} (hf : ∀ {s}, Inv s → Inv (f s)) :
    SomeKept (o.map f) := by
  cases o with
  | none => trivial
  | some t => exact hf ho

/-- One step along a chain of records (R393). -/
theorem chainSpaces_succ {vd q n head : Nat} : State.chainSpaces vd q (n + 1) head s =
    (let space (s : State) (a : Nat) : State × Bool := match s.agentX vd (s.vdPart vd) a 256 .r with
      | .ok ps => (s, bitsOf (natOfBytes (s.homeBytes ps a 256)) 16 2 == 0)
      | .error e => (s.threadFails vd q e, true)
    match s.agentX vd (s.vdPart vd) head 128 .r with
    | .error e => (s.threadFails vd q e, true)
    | .ok ps =>
      let h := natOfBytes (s.homeBytes ps head 128)
      if !bitOf h 192 then (s, true)
      else
        let (s1, a) := space s (bitsOf h 64 64)
        let (s2, b) := if bitOf h 201 then (s1, true) else space s1 (bitsOf h 128 64)
        if !(a && b) then (s2, false)
        else if bitsOf h 0 64 = 0 then (s2, true)
        else State.chainSpaces vd q n (bitsOf h 0 64) s2) := rfl

/-- So does a fold that carries something beside the state. -/
theorem Inv.foldl_fst {α β : Type} (h : Inv s) {b : β} {f : State × β → α → State × β}
    (hf : ∀ {x a}, Inv x.1 → Inv (f x a).1) {xs : List α} : Inv (xs.foldl f (s, b)).1 :=
  List.foldlRecOn (motive := fun x => Inv x.1) xs f h fun _ hs _ _ => hf hs

theorem TryKept.error {α β : Type} {r : Except (State × α) (State × β)} (hr : TryKept r) {c : α}
    (e : r = .error (s, c)) : Inv s := by
  rw [e] at hr
  exact hr

theorem TryKept.ok {α β : Type} {r : Except (State × α) (State × β)} (hr : TryKept r) {v : β}
    (e : r = .ok (s, v)) : Inv s := by
  rw [e] at hr
  exact hr

theorem FailKept.error {α β : Type} {r : Except (State × α) β} (hr : FailKept r) {c : α}
    (e : r = .error (s, c)) : Inv s := by
  rw [e] at hr
  exact hr

theorem Machine.Prep.Kept.wait {p : Prep} (hp : p.Kept) {w : Stall} (e : p = .wait s w) : Inv s := by
  rw [e] at hp
  exact hp

theorem Machine.Prep.Kept.ok {p : Prep} (hp : p.Kept) {off : List Nat} (e : p = .ok s off) : Inv s := by
  rw [e] at hp
  exact hp

/-! ### Contexts, cores, clusters and counters -/

theorem Inv.setCtx (h : Inv s) {c} : Inv (s.setCtx c) := h
theorem Inv.setBank (h : Inv s) {b} : Inv (s.setBank b) := h
theorem Inv.setPc (h : Inv s) {pc} : Inv (s.setPc pc) := h
theorem Inv.wr (h : Inv s) {r v} : Inv (s.wr r v) := h
theorem Inv.wrc (h : Inv s) {r v} : Inv (s.wrc r v) := h.wr

theorem Inv.putCtx (h : Inv s) {c} : Inv (s.putCtx c) := by
  unfold State.putCtx
  grind only [_=_ inv_iff]

theorem Inv.mapCtx (h : Inv s) {id f} : Inv (s.mapCtx id f) := by
  unfold State.mapCtx
  grind only [← Inv.putCtx]

theorem Inv.focus (h : Inv s) {id} : Inv (s.focus id) := by
  unfold State.focus
  grind only [_=_ inv_iff]

theorem Inv.onCtx (h : Inv s) {f : State → State} (hf : ∀ {s}, Inv s → Inv (f s)) {id} : Inv (s.onCtx id f) := by
  unfold State.onCtx
  grind only [← Inv.focus]

theorem Inv.setCore (h : Inv s) {p c} : Inv (s.setCore p c) := h
theorem Inv.setDie (h : Inv s) {d v} : Inv (s.setDie d v) := h
theorem Inv.setCluster (h : Inv s) {n v} : Inv (s.setCluster n v) := h
theorem Inv.pmcAdd (h : Inv s) {v i n} : Inv (s.pmcAdd v i n) := h
theorem Inv.setQlevel (h : Inv s) {p q v} : Inv (s.setQlevel p q v) := h
theorem Inv.useFree (h : Inv s) : Inv s.useFree := h

theorem Inv.freeReserve (h : Inv s) {u} : Inv (s.freeReserve u) := by
  unfold State.freeReserve
  grind only [← Inv.setCluster]

theorem Inv.putTask (h : Inv s) {k} : Inv (s.putTask k) := h
theorem Inv.restartInterval (h : Inv s) : Inv s.restartInterval := h
theorem Inv.progressEvent (h : Inv s) : Inv s.progressEvent := h
theorem Inv.emit (h : Inv s) {o} : Inv (s.emit o) := h

/-! ### Translation -/

theorem Inv.fillWalks (h : Inv s) {die vdn part va} : Inv (s.fillWalks die vdn part va) := h
theorem Inv.tlbPut (h : Inv s) {e} : Inv (s.tlbPut e) := h

/-! ### Memory, the first-level cache and events -/

theorem Inv.setMark (h : Inv s) {sec v} : Inv (s.setMark sec v) := h

theorem Inv.markWrite (h : Inv s) {pa n pois} : Inv (s.markWrite pa n pois) := by
  unfold State.markWrite
  grind only [← Inv.foldl, ← Inv.setMark]

/-- The first of the five places that write the memory: bytes stored at an address. -/
theorem Inv.rawWrite (h : Inv s) {pa bs} : Inv (s.rawWrite pa bs) := ⟨State.rawWrite_wf _ _ _ h.1, h.2⟩

theorem Inv.clearScopes (h : Inv s) {pa n} : Inv (s.clearScopes pa n) := h
theorem Inv.homeWrite (h : Inv s) {pa bs pois} : Inv (s.homeWrite pa bs pois) := h.rawWrite.markWrite.clearScopes

/-- The second: the bytes of a range dropped. -/
theorem Inv.zeroRange (h : Inv s) {pa n} : Inv (s.zeroRange pa n) := ⟨State.zeroRange_wf _ _ _ h.1, h.2⟩

theorem Inv.scopeTakeN (h : Inv s) {w sc pa n} : Inv (s.scopeTakeN w sc pa n) := h
theorem Inv.scopeTake (h : Inv s) {w sc pa} : Inv (s.scopeTake w sc pa) := h.scopeTakeN
theorem Inv.signalAt (h : Inv s) {w sc pa n} : Inv (s.signalAt w sc pa n) := h.rawWrite.scopeTake

theorem Inv.ringEvent (h : Inv s) {die code part vd a0 a1} : Inv (s.ringEvent die code part vd a0 a1) := by
  unfold State.ringEvent
  grind only [← Inv.homeWrite, ← Inv.setDie]

theorem Inv.sevFails (h : Inv s) {die va f} : Inv (s.sevFails die va f) := by
  unfold State.sevFails
  grind only [← Inv.ringEvent]

theorem Inv.event (h : Inv s) {die code part vd a0 a1} : Inv (s.event die code part vd a0 a1) := by
  unfold State.event
  grind only [← Inv.ringEvent, ← Inv.sevFails, ← Inv.signalAt]

theorem Inv.ctxEvent (h : Inv s) {code a0 a1} : Inv (s.ctxEvent code a0 a1) := h.event

theorem Inv.xEvent (h : Inv s) {die part vd f} : Inv (s.xEvent die part vd f) := by
  unfold State.xEvent
  grind only [← Inv.event]

theorem Inv.setL1 (h : Inv s) {m} : Inv (s.setL1 m) := h

theorem Inv.writeBack (h : Inv s) {p} : Inv (s.writeBack p) := by
  unfold State.writeBack
  grind only [← Inv.foldl, ← Inv.clearScopes, ← Inv.rawWrite, ← Inv.setL1, ← Inv.setMark]

theorem Inv.dropClean (h : Inv s) {p} : Inv (s.dropClean p) := h.setL1
theorem Inv.evictLine (h : Inv s) {line} : Inv (s.evictLine line) := h.writeBack.setL1

theorem Inv.l1Room (h : Inv s) {line} : Inv (s.l1Room line) := by
  unfold State.l1Room
  grind only [← Inv.evictLine, ← Inv.useFree]

theorem Inv.l1Fill (h : Inv s) {va pa} : Inv (s.l1Fill va pa) := h.l1Room.setL1
theorem Inv.l1Write (h : Inv s) {va pa bs pois} : Inv (s.l1Write va pa bs pois) := h.l1Room.setL1

theorem Inv.contribute (h : Inv s) {c} : Inv (s.contribute c) := by
  unfold State.contribute
  grind only [← Inv.emit, ← Inv.rawWrite]

theorem Inv.performContribs (h : Inv s) {p} : Inv (s.performContribs p) := by
  unfold State.performContribs
  grind only [_=_ inv_iff, ← Inv.foldl, ← Inv.contribute]

theorem Inv.releaseAll (h : Inv s) {sc} : Inv (s.releaseAll sc) := by
  unfold State.releaseAll
  grind only [← Inv.performContribs, ← Inv.writeBack]

theorem Inv.acquireAll (h : Inv s) : Inv s.acquireAll := h.dropClean

theorem Inv.releaseBound (h : Inv s) {sc ctr} : Inv (s.releaseBound sc ctr) := by
  unfold State.releaseBound
  grind only [← Inv.performContribs, ← Inv.writeBack]

theorem Inv.acquireBound (h : Inv s) {cover} : Inv (s.acquireBound cover) := h.dropClean

theorem xlateRange_kept (h : Inv s) {va n need} : FailKept (s.xlateRange va n need) := by
  unfold State.xlateRange
  grind only [FailKept, ← Inv.xEvent]

theorem checkData_kept (h : Inv s) {va n need} : FailKept (s.checkData va n need) := by
  unfold State.checkData
  grind only [FailKept, !← xlateRange_kept]

theorem readAs_kept (h : Inv s) {counted ps va n} : Inv (s.readAs counted ps va n).1 := by
  unfold State.readAs
  grind only [← Inv.foldl, ← Inv.l1Fill, ← Inv.pmcAdd, ← Inv.useFree]

theorem readData_kept (h : Inv s) {ps va n} : Inv (s.readData ps va n).1 := readAs_kept h

theorem Inv.writeData (h : Inv s) {ps va bs pois} : Inv (s.writeData ps va bs pois) := by
  unfold State.writeData
  grind only [← Inv.foldl, ← Inv.homeWrite, ← Inv.l1Write, ← Inv.pmcAdd]

theorem Inv.flushBytes (h : Inv s) {pa n} : Inv (s.flushBytes pa n) := h.writeBack.dropClean
theorem Inv.flushGranule (h : Inv s) {pa} : Inv (s.flushGranule pa) := h.flushBytes

theorem loadAt_kept (h : Inv s) {va n need} : TryKept (s.loadAt va n need) := by
  unfold State.loadAt
  grind only [FailKept, TryKept, !← checkData_kept, !← readAs_kept]

/-! ### Saving a context -/

theorem Inv.writeArea (h : Inv s) {c} : Inv (s.writeArea c) := h.zeroRange.foldl fun h => h.homeWrite

theorem Inv.saveFocus (h : Inv s) : Inv s.saveFocus := by
  unfold State.saveFocus
  extract_lets s1 c1 c2 s2 s3
  have h1 : Inv s1 := h.writeBack.setL1
  have h2 : Inv s2 := h1.update
  have h3 : Inv s3 := h2.writeArea
  grind only [_=_ inv_iff]

theorem Inv.vacate (h : Inv s) {id} : Inv (s.vacate id) := h
theorem Inv.leaveCore (h : Inv s) {id} : Inv (s.leaveCore id) := Inv.vacate (h.onCtx (fun h => h.saveFocus))

theorem Inv.cleanL1 (h : Inv s) {id} : Inv (s.cleanL1 id) := by
  unfold State.cleanL1
  grind only [_=_ inv_iff, ← Inv.onCtx, ← Inv.setL1, ← Inv.writeBack]

theorem Inv.displace (h : Inv s) {incoming id} : Inv (State.displace incoming s id) := by
  unfold State.displace
  grind only [← Inv.cleanL1, ← Inv.leaveCore, ← Inv.setCore]

/-! ### Queues -/

theorem queueCheck_kept (h : Inv s) {desc sc} : TryKept (s.queueCheck desc sc) := by
  unfold State.queueCheck
  grind only [FailKept, TryKept, !← checkData_kept, ← Inv.flushBytes]

theorem ringSlot_kept (h : Inv s) {q k} : FailKept (s.ringSlot q k) := by
  unfold State.ringSlot
  grind only [FailKept, !← xlateRange_kept]

theorem Inv.queueTake (h : Inv s) {sc pa} : Inv (s.queueTake sc pa) := h.scopeTakeN

theorem takeEntry_kept (h : Inv s) {w q sc} : TryKept (s.takeEntry w q sc) := by
  unfold State.takeEntry
  grind only [FailKept, TryKept, ← Inv.flushBytes, ← Inv.rawWrite, !← ringSlot_kept, ← Inv.scopeTakeN]

theorem popQueue_kept (h : Inv s) {desc sc} : (s.popQueue desc sc).Kept := by
  have hq : TryKept (s.queueCheck desc sc) := queueCheck_kept h
  unfold State.popQueue
  split
  · exact Inv.acquireAll h.setBank
  · split
    · next e => exact hq.error e
    · next s1 q e =>
      have h1 : Inv s1 := hq.ok e
      have ht : TryKept (s1.takeEntry s1.me q sc) := takeEntry_kept h1
      split
      · split
        · next e => exact ht.error e
        · next e => exact (ht.ok e).acquireAll
      · split
        · exact h1.queueTake
        · exact h1

theorem pushQueue_kept (h : Inv s) {desc sc v} : (s.pushQueue desc sc v).Kept := by
  have hq : TryKept (s.queueCheck desc sc) := queueCheck_kept h
  unfold State.pushQueue
  split
  · next e => exact hq.error e
  · next s1 q e =>
    have h1 : Inv s1 := hq.ok e
    have hr : FailKept (s1.ringSlot q q.pushed) := ringSlot_kept h1
    split
    · exact h1.queueTake
    · split
      · exact h1
      · split
        · next e => exact hr.error e
        · exact .queueTake h1.releaseAll.flushBytes.rawWrite.rawWrite

/-! ### Traps, waits and the frame of a sequencer instruction -/

theorem Inv.pmcAgent (h : Inv s) {v i n} : Inv (s.pmcAgent v i n) := by
  unfold State.pmcAgent
  grind only [← Inv.pmcAdd]

theorem Inv.settleHeap (h : Inv s) {p} : Inv (s.settleHeap p) := h
theorem Inv.readyTask (h : Inv s) {t} : Inv (s.readyTask t) := h.putTask.settleHeap
theorem Inv.enterTenant (h : Inv s) {c resume} : Inv (s.enterTenant c resume) := h
theorem Inv.enterSteward (h : Inv s) {c resume} : Inv (s.enterSteward c resume) := h

theorem Inv.stewardFails (h : Inv s) {resume} : Inv (s.stewardFails resume) := by
  unfold State.stewardFails
  extract_lets d c s1
  have h1 : Inv s1 := h
  exact h1.saveFocus.vacate.emit

theorem Inv.taskReady (h : Inv s) {t} : Inv (s.taskReady t) := by
  unfold State.taskReady
  grind only [← Inv.readyTask]

theorem Inv.stopCrew (h : Inv s) {t} : Inv (s.stopCrew t) := by
  unfold State.stopCrew
  grind only [← Inv.foldl, ← Inv.displace]

theorem Inv.countStop (h : Inv s) {c} : Inv (s.countStop c) := by
  unfold State.countStop
  grind only [← Inv.pmcAdd]

theorem Inv.sliceSave (h : Inv s) {resume} : Inv (s.sliceSave resume) := by
  unfold State.sliceSave
  extract_lets s0 c s1
  have h0 : Inv s0 := h.countStop
  have h1 : Inv s1 := h0.update
  exact h1.saveFocus.vacate.taskReady

theorem Inv.absentSave (h : Inv s) {resume} : Inv (s.absentSave resume) := by
  unfold State.absentSave
  extract_lets id c s1 s2
  have h1 : Inv s1 := h
  have h2 : Inv s2 := h1.saveFocus.vacate.stopCrew.taskReady
  split
  · exact h2.putTask
  · exact h2

theorem Inv.takeTrap (h : Inv s) {c resume} : Inv (s.takeTrap c resume) := by
  unfold State.takeTrap
  grind only [← Inv.absentSave, ← Inv.enterSteward, ← Inv.enterTenant, ← Inv.sliceSave, ← Inv.stewardFails]

theorem Inv.endWait (h : Inv s) : Inv s.endWait := h.setBank
theorem Inv.fault (h : Inv s) {c} : Inv (s.fault c) := h.endWait.takeTrap

theorem Inv.leaveTenant (h : Inv s) : Inv s.leaveTenant := by
  unfold State.leaveTenant
  grind only [_=_ inv_iff, ← Inv.sliceSave]

theorem Inv.leaveSteward (h : Inv s) : Inv s.leaveSteward := h
theorem Inv.post (h : Inv s) {id p} : Inv (s.post id p) := h.mapCtx

theorem Inv.postSteward (h : Inv s) {d p} : Inv (s.postSteward d p) := by
  unfold State.postSteward
  grind only [← Inv.post]

theorem Inv.takePending (h : Inv s) : Inv s.takePending := by
  unfold State.takePending
  grind only [_=_ inv_iff, ← Inv.restartInterval, ← Inv.takeTrap]

theorem Inv.latchFault (h : Inv s) {e code sub addr} : Inv (s.latchFault e code sub addr) := by
  unfold State.latchFault
  grind only [_=_ inv_iff, ← Inv.ctxEvent]

theorem Inv.waitAt (h : Inv s) {k checked} : Inv (s.waitAt k checked) := h.setBank
theorem Inv.hold (h : Inv s) {k g} : Inv (s.hold k g) := h.waitAt.setBank
theorem Inv.holdCover (h : Inv s) {k cover} : Inv (s.holdCover k cover) := h.waitAt.setBank

theorem popSources_kept (h : Inv s) {srcs} : (popSources srcs s).Kept := by
  induction srcs generalizing s with
  | nil => exact h
  | cons _ _ ih => grind only [popSources, _=_ inv_iff, QRes.Kept, SeqOut.Kept, !← popQueue_kept, ← Inv.progressEvent,
    ← Inv.setCtx]

theorem pushDests_kept (h : Inv s) {dsts} : (pushDests dsts s).Kept := by
  induction dsts generalizing s with
  | nil => exact h
  | cons _ _ ih => grind only [pushDests, _=_ inv_iff, QRes.Kept, SeqOut.Kept, !← pushQueue_kept, ← Inv.setBank]

theorem Inv.retire (h : Inv s) {srcs pc} : Inv (s.retire srcs pc) := h.setCtx.endWait.setPc.pmcAdd

theorem Inv.faultKept (h : Inv s) {c} : Inv (s.faultKept c) := by
  unfold State.faultKept
  grind only [← Inv.fault, ← Inv.takeTrap]

theorem finish_inv {s1 s2 : State} (h1 : Inv s1) (h2 : Inv s2) {srcs dsts pc after} :
    Inv (finish srcs dsts s1 s2 pc after) := by
  unfold finish
  grind only [SeqOut.Kept, ← Inv.faultKept, ← Inv.retire, ← Inv.takeTrap, ← Inv.waitAt, !← pushDests_kept]

theorem seqRun_inv (h : Inv s) {body : State → SeqOut} (hbody : ∀ {s}, Inv s → (body s).Kept) {srcs dsts} :
    Inv (seqRun srcs dsts body s) := by
  unfold seqRun
  grind only [SeqOut.Kept, ← Inv.fault, ← Inv.waitAt, ← finish_inv, !← popSources_kept]

/-- A sequencer instruction keeps the form when its body does: the rule that most instructions below use. -/
theorem seqInstr_kept (h : Inv s) {body : State → SeqOut} (hbody : ∀ {s}, Inv s → (body s).Kept) {srcs dsts} :
    Kept (seqInstr srcs dsts body s) :=
  seqRun_inv h fun h => hbody h

/-- An operand read is a poison check before what follows. -/
theorem consume_kept (h : Inv s) {k : Word → SeqOut} (hk : ∀ w, (k w).Kept) {r operand} :
    (consume s r operand k).Kept := by
  unfold consume
  grind only [SeqOut.Kept]

theorem Inv.setLevel (h : Inv s) {die p q lvl} : Inv (s.setLevel die p q lvl) := by
  unfold State.setLevel
  grind only [← Inv.event, ← Inv.setQlevel]

/-! ### Versions and builds -/

theorem Inv.putRegion (h : Inv s) {r} : Inv (s.putRegion r) := h
theorem Inv.dropWaits (h : Inv s) {id} : Inv (s.dropWaits id) := h

theorem Inv.examine (h : Inv s) {t} : Inv (s.examine t) := by
  unfold State.examine
  grind only [← Inv.event, ← Inv.putTask]

theorem Inv.examineAll (h : Inv s) {p} : Inv (s.examineAll p) := h.foldl fun h => h.examine

theorem Inv.giveLoads (h : Inv s) {part base i n} : Inv (State.giveLoads part base i n s) := by
  induction n generalizing s with
  | zero => exact h
  | succ _ ih => grind only [State.giveLoads, ← Inv.putCtx, ← Inv.putRegion]

theorem Inv.created (h : Inv s) {r i} : Inv (s.created r i) := by
  unfold State.created
  grind only [← Inv.examineAll, ← Inv.giveLoads]

theorem Inv.finishBuild (h : Inv s) {b sc} : Inv (s.finishBuild b sc) := by
  unfold State.finishBuild
  extract_lets s1 c s2
  have h1 : Inv s1 := h.releaseAll
  have h2 : Inv s2 := h1.update
  split
  · exact h2
  · exact h2.putRegion.created.progressEvent

theorem Inv.finishBuilds (h : Inv s) {p sc} : Inv (s.finishBuilds p sc) := h.foldl fun h => h.finishBuild
theorem Inv.spillVer (h : Inv s) {pa v} : Inv (s.spillVer pa v) := h.foldl fun h => h.homeWrite
theorem Inv.loseRegion (h : Inv s) {r} : Inv (s.loseRegion r) := h

theorem Inv.discardRegion (h : Inv s) {vdn r} : Inv (s.discardRegion vdn r) := by
  unfold State.discardRegion
  extract_lets s1
  have h1 : Inv s1 := h.foldl fun h => by grind only [← Inv.foldl, ← Inv.spillVer, ← Inv.zeroRange]
  exact .loseRegion h1.update

theorem Inv.detach (h : Inv s) {id vdn r} : Inv (s.detach id vdn r) := by
  unfold State.detach
  grind only [← Inv.discardRegion, ← Inv.putRegion]

theorem Inv.detachAll (h : Inv s) : Inv s.detachAll := by
  unfold State.detachAll
  grind only [_=_ inv_iff, ← Inv.foldl, ← Inv.detach, ← Inv.finishBuilds]

/-! ### Records and how they end -/

theorem Inv.agentFails (h : Inv s) {die part vd agent va f} : Inv (s.agentFails die part vd agent va f) := by
  unfold State.agentFails
  grind only [← Inv.event, ← Inv.postSteward, ← Inv.xEvent]

theorem Inv.copyFails (h : Inv s) {n va f} : Inv (s.copyFails n va f) := by
  unfold State.copyFails
  grind only [← Inv.agentFails, ← Inv.postSteward, ← Inv.setCtx]

theorem Inv.giveWay (h : Inv s) {ws} : Inv (s.giveWay ws) := by
  unfold State.giveWay
  grind only [← Inv.foldl, ← Inv.evictLine, ← Inv.setL1]

theorem Inv.putMem (h : Inv s) {ws} : Inv (s.putMem ws) := by
  unfold State.putMem
  grind only [← Inv.foldl, ← Inv.clearScopes, ← Inv.giveWay, ← Inv.rawWrite, ← Inv.setMark]

theorem Inv.copyStore (h : Inv s) {n va bs} : Inv (s.copyStore n va bs) := by
  unfold State.copyStore
  grind only [← Inv.copyFails, ← Inv.putMem]

theorem Inv.recSignal (h : Inv s) {n hdr code} : Inv (s.recSignal n hdr code) := by
  unfold State.recSignal
  grind only [← Inv.copyFails, ← Inv.evictLine, ← Inv.rawWrite, ← Inv.signalAt]

theorem Inv.recStatus (h : Inv s) {n a hdr e} : Inv (s.recStatus n a hdr e) := h.copyStore.copyStore.copyStore
theorem Inv.copyError (h : Inv s) {n code a} : Inv (s.copyError n code a) := h.setCtx

theorem Inv.unreserveAll (h : Inv s) {resv} : Inv (s.unreserveAll resv) := by
  unfold State.unreserveAll
  grind only [← Inv.foldl, ← Inv.created, ← Inv.putRegion]

theorem Inv.endRecord (h : Inv s) {n a hdr e0} : Inv (s.endRecord n a hdr e0) := by
  unfold State.endRecord
  grind only [← Inv.copyError, ← Inv.freeReserve, ← Inv.pmcAgent, ← Inv.recSignal, ← Inv.recStatus, ← Inv.setCtx,
    ← Inv.unreserveAll]

theorem Inv.dropProducer (h : Inv s) {p} : Inv (s.dropProducer p) := h
theorem Inv.endFlights (h : Inv s) {p out} : Inv (s.endFlights p out) := h

theorem Inv.recordFails (h : Inv s) {n} : Inv (s.recordFails n) := by
  unfold State.recordFails
  grind only [← Inv.copyFails]

theorem Inv.stopChan (h : Inv s) {n} : Inv (s.stopChan n) := by
  unfold State.stopChan
  extract_lets k s0 me s1
  have h0 : Inv s0 := h
  have h1 : Inv s1 := h0.dropProducer.endFlights
  split
  · exact h0
  · split
    · exact h0
    · split
      · exact h1.recordFails.unreserveAll.setCtx
      · exact h1.endRecord

/-! ### Tasks: status, completion, admission, dispatch -/

theorem Inv.writeStatus (h : Inv s) {t v} : Inv (s.writeStatus t v) := by
  unfold State.writeStatus
  grind only [← Inv.agentFails, ← Inv.homeWrite]

theorem Inv.countAt (h : Inv s) {t abn lvl} : Inv (s.countAt t abn lvl) := by
  unfold State.countAt
  grind only [← Inv.agentFails, ← Inv.event, ← Inv.signalAt]

theorem Inv.addPrefetch (h : Inv s) {p} : Inv (s.addPrefetch p) := h.rawWrite

theorem Inv.endFocus (h : Inv s) {keepBuilds} : Inv (s.endFocus keepBuilds) := by
  unfold State.endFocus
  extract_lets sb t regs c s0 s1 s2 s3
  have hb : Inv sb := h.foldl fun h => h.stopChan
  have ht : Inv t := hb.foldl fun h => h.unreserveAll
  have h0 : Inv s0 := by grind only [_=_ inv_iff, ← Inv.foldl, ← Inv.putRegion]
  have h1 : Inv s1 := h0.writeBack.setL1
  have h2 : Inv s2 := (h1.foldl fun h => h.addPrefetch).detachAll
  have h3 : Inv s3 := h2.foldl fun h => by grind only [_=_ inv_iff]
  grind only [_=_ inv_iff]

theorem Inv.putResidue (h : Inv s) {c} : Inv (s.putResidue c) := h

theorem Inv.endCtx (h : Inv s) {id keepBuilds} : Inv (s.endCtx id keepBuilds) := by
  unfold State.endCtx
  grind only [_=_ inv_iff, ← Inv.dropWaits, ← Inv.endFocus, ← Inv.onCtx, ← Inv.putResidue, ← Inv.vacate]

theorem Inv.stepLevels (h : Inv s) {p qs up} : Inv (s.stepLevels p qs up) := by
  unfold State.stepLevels
  grind only [← Inv.foldl, ← Inv.setLevel]

theorem Inv.admitGroup (h : Inv s) {p v num den} : Inv (s.admitGroup p v num den) := by
  unfold State.admitGroup
  grind only [← Inv.stepLevels]

theorem Inv.admission (h : Inv s) {p} : Inv (s.admission p) := by
  unfold State.admission
  grind only [← Inv.foldl, ← Inv.admitGroup]

theorem Inv.raiseLevel (h : Inv s) {t} : Inv (s.raiseLevel t) := h.setLevel

theorem Inv.completeTask (h : Inv s) {id cause} : Inv (s.completeTask id cause) := by
  unfold State.completeTask
  split
  · exact h
  · split
    · exact h
    · extract_lets late why t s0 s1 s2 s3
      have h0 : Inv s0 := by grind only [← Inv.raiseLevel]
      have h1 : Inv s1 := h0.foldl fun h => h.endCtx
      have h3 : Inv s3 := h1.writeStatus.foldl fun h => h.countAt
      exact h3.putTask.settleHeap.admission

theorem Inv.postOne (h : Inv s) {t} : Inv (s.postOne t) := by
  unfold State.postOne
  grind only [_=_ inv_iff, ← Inv.completeTask, ← Inv.settleHeap, ← Inv.writeStatus]

theorem Inv.postAll (h : Inv s) {ts p} : Inv (s.postAll ts p) := Inv.admission (h.foldl (fun h => h.postOne))

theorem cancelLevel_kept (h : Inv s) {p addr lvl} : SomeKept (s.cancelLevel p addr lvl) := by
  unfold State.cancelLevel
  grind only [_=_ inv_iff, SomeKept, ← Inv.foldl, ← Inv.completeTask]

theorem Inv.preemptTask (h : Inv s) {incoming t} : Inv (s.preemptTask incoming t) :=
  Inv.pmcAdd (.readyTask (h.foldl (fun h => h.displace)))

theorem Inv.addCtx (h : Inv s) {c} : Inv (s.addCtx c) := by
  unfold State.addCtx
  grind only [_=_ inv_iff]

theorem Inv.placeCtx (h : Inv s) {id k lcore} : Inv (s.placeCtx id k lcore) := by
  unfold State.placeCtx
  grind only [← Inv.displace, ← Inv.putCtx, ← Inv.setCore, ← Inv.vacate]

theorem Inv.loseCtx (h : Inv s) {c} : Inv (s.loseCtx c) := by
  unfold State.loseCtx
  grind only [← Inv.completeTask, ← Inv.mapCtx, ← Inv.postSteward, ← Inv.useFree]

theorem Inv.dispatch (h : Inv s) {t ks lvl pc} : Inv (s.dispatch t ks lvl pc) := by
  unfold State.dispatch
  grind only [_=_ inv_iff, ← Inv.foldl, ← Inv.addCtx, ← Inv.admission, ← Inv.displace, ← Inv.placeCtx, ← Inv.putTask,
    ← Inv.setCore, ← Inv.settleHeap]

theorem consider_kept (h : Inv s) {taken t} : Inv (s.consider taken t).1 := by
  unfold State.consider
  grind only [← Inv.foldl, ← Inv.completeTask, ← Inv.dispatch, ← Inv.loseCtx, ← Inv.preemptTask, ← Inv.putTask]

theorem Inv.selectLoop (h : Inv s) {p die n seen taken} : Inv (State.selectLoop p die n seen taken s) := by
  induction n generalizing s seen taken with
  | zero => exact h
  | succ _ ih => grind only [State.selectLoop, !← consider_kept]

theorem Inv.select (h : Inv s) {p die} : Inv (s.select p die) := h.settleHeap.selectLoop

theorem Inv.unpark (h : Inv s) {id} : Inv (s.unpark id) := by
  unfold State.unpark
  grind only [← Inv.readyTask]

/-! ### Fetch -/

theorem fetch_kept (h : Inv s) : FailKept s.fetch := by
  unfold State.fetch
  grind only [FailKept, ← Inv.xEvent]

/-! ### Scalar instructions -/

theorem alu_kept (h : Inv s) {sp d srcs v} : (alu s sp d srcs v).Kept := by
  unfold alu
  grind only [SeqOut.Kept, ← Inv.wr, ← Inv.wrc]

theorem alu3_kept (h : Inv s) {f op} : Kept (alu3 f op s) := seqInstr_kept h fun h => alu_kept h
theorem alu2_kept (h : Inv s) {sp d a op} : Kept (alu2 sp d a op s) := seqInstr_kept h fun h => alu_kept h

theorem execNop_kept (h : Inv s) : Kept (execNop s) :=
  seqInstr_kept h fun h => by
    grind only [SeqOut.Kept]

theorem execPois_kept (h : Inv s) {f} : Kept (execPois f s) :=
  seqInstr_kept h fun h => by
    grind only [SeqOut.Kept, ← Inv.wrc]

theorem execUnpois_kept (h : Inv s) {f} : Kept (execUnpois f s) :=
  seqInstr_kept h fun h => by
    grind only [SeqOut.Kept, ← Inv.wrc]

theorem execLi_kept (h : Inv s) {f} : Kept (execLi f s) :=
  seqInstr_kept h fun h => by
    grind only [SeqOut.Kept, ← Inv.wrc]

/-! ### Control, queue and task instructions -/

theorem jumpTo_kept {s2 : State} (h : Inv s) (h2 : Inv s2) {t} : (jumpTo s s2 t).Kept := by
  unfold jumpTo
  grind only [SeqOut.Kept]

theorem execJ_kept (h : Inv s) {f} : Kept (execJ f s) :=
  seqInstr_kept h fun h => by
    grind only [SeqOut.Kept]

theorem execJl_kept (h : Inv s) {f} : Kept (execJl f s) :=
  seqInstr_kept h fun h => by
    grind only [SeqOut.Kept, ← Inv.wrc]

theorem execJr_kept (h : Inv s) {f} : Kept (execJr f s) :=
  seqInstr_kept h fun h => consume_kept h fun _ => by
    grind only [!← jumpTo_kept]

theorem execJlr_kept (h : Inv s) {f} : Kept (execJlr f s) :=
  seqInstr_kept h fun h => consume_kept h fun _ => by
    grind only [← Inv.wrc, !← jumpTo_kept]

theorem branchIf_kept (h : Inv s) {f p} : Kept (branchIf f p s) :=
  seqInstr_kept h fun h => consume_kept h fun _ => consume_kept h fun _ => by
    grind only [SeqOut.Kept]

theorem execLoop_kept (h : Inv s) {f} : Kept (execLoop f s) :=
  seqInstr_kept h fun h => consume_kept h fun _ => by
    grind only [SeqOut.Kept, ← Inv.wrc]

theorem Inv.haltMember (h : Inv s) : Inv s.haltMember := by
  unfold State.haltMember
  grind only [← Inv.completeTask, ← Inv.endCtx, ← Inv.putTask]

theorem execHalt_kept (h : Inv s) : Kept (execHalt s) :=
  seqInstr_kept h fun h => by
    grind only [SeqOut.Kept, ← Inv.examineAll, ← Inv.finishBuilds, ← Inv.haltMember]

theorem repost_kept (h : Inv s) {t} : Inv (s.repost t).1 := by
  unfold State.repost
  grind only [_=_ inv_iff]

theorem Inv.yieldSwitch (h : Inv s) {k} : Inv (s.yieldSwitch k) := by
  unfold State.yieldSwitch
  grind only [!← consider_kept, ← Inv.preemptTask]

theorem Inv.yieldTo (h : Inv s) {t} : Inv (s.yieldTo t) := by
  unfold State.yieldTo
  grind only [← Inv.putTask, !← repost_kept, ← Inv.yieldSwitch]

theorem execYield_kept (h : Inv s) : Kept (execYield s) := by
  unfold execYield
  grind only [Kept, SeqOut.Kept, ← Inv.yieldTo, ← seqRun_inv]

theorem execBeat_kept (h : Inv s) : Kept (execBeat s) :=
  seqInstr_kept h fun h => by
    grind only [SeqOut.Kept, ← Inv.progressEvent]

theorem execBrk_kept (h : Inv s) {f} : Kept (execBrk f s) :=
  seqInstr_kept h fun h => by
    grind only [SeqOut.Kept]

theorem execTime_kept (h : Inv s) {f} : Kept (execTime f s) :=
  seqInstr_kept h fun h => by
    grind only [SeqOut.Kept, ← Inv.wrc]

theorem execVcyc_kept (h : Inv s) {f} : Kept (execVcyc f s) :=
  seqInstr_kept h fun h => by
    grind only [SeqOut.Kept, ← Inv.wrc]

theorem waittRun_inv (h : Inv s) {f} : Inv (waittRun f s) :=
  seqRun_inv h fun h => consume_kept h fun _ => by
    grind only [SeqOut.Kept]

theorem Inv.setLast (h : Inv s) {n} : Inv (s.setLast n) := h

theorem qpopRun_inv (h : Inv s) {f} : Inv (qpopRun f s) :=
  seqRun_inv h fun h => consume_kept h fun _ => by
    grind only [QRes.Kept, SeqOut.Kept, !← popQueue_kept, ← Inv.progressEvent, ← Inv.queueTake, ← Inv.setLast,
      ← Inv.wr, ← Inv.wrc]

theorem execQpush_kept (h : Inv s) {f} : Kept (execQpush f s) :=
  seqInstr_kept h fun h => consume_kept h fun _ => consume_kept h fun _ => by
    grind only [QRes.Kept, SeqOut.Kept, !← pushQueue_kept, ← Inv.queueTake, ← Inv.wrc]

theorem Inv.unbindQ (h : Inv s) {n} : Inv (s.unbindQ n) := by
  unfold State.unbindQ
  grind only [← Inv.setBank, ← Inv.setCtx]

theorem execQbind_kept (h : Inv s) {f} : Kept (execQbind f s) :=
  seqInstr_kept h fun h => by
    grind only [SeqOut.Kept, ← Inv.setCtx, ← Inv.unbindQ, !← consume_kept]

theorem readRecord_kept (h : Inv s) {va} : FailKept (s.readRecord va) := by
  unfold State.readRecord
  grind only [FailKept, !← xlateRange_kept]

theorem readRecords_kept (h : Inv s) {va n} : FailKept (s.readRecords va n) := by
  induction n generalizing va with
  | zero => trivial
  | succ _ ih => grind only [State.readRecords, FailKept, !← readRecord_kept]

theorem execSpawn_kept (h : Inv s) {f} : Kept (execSpawn f s) :=
  seqInstr_kept h fun h => consume_kept h fun _ => consume_kept h fun _ => by
    grind only [FailKept, SeqOut.Kept, ← Inv.postAll, !← readRecords_kept, ← Inv.releaseAll, ← Inv.wrc]

theorem execPhase_kept (h : Inv s) {f} : Kept (execPhase f s) :=
  seqInstr_kept h fun h => by
    grind only [SeqOut.Kept, ← Inv.wrc]

theorem execTkgive_kept (h : Inv s) {f} : Kept (execTkgive f s) :=
  seqInstr_kept h fun h => by
    grind only [SeqOut.Kept, ← Inv.setBank]

theorem execTktake_kept (h : Inv s) {f} : Kept (execTktake f s) :=
  seqInstr_kept h fun h => by
    grind only [SeqOut.Kept, ← Inv.setBank]

/-! ### Flags -/

theorem Inv.setFlags (h : Inv s) {fl} : Inv (s.setFlags fl) := h.setBank

/-! ### Engine words: the queues and the operands -/

theorem enqueue_kept (h : Inv s) {e i t} : (enqueue e i t s).Kept := by
  unfold enqueue
  grind only [SeqOut.Kept, ← Inv.setBank]

theorem forward_kept (h : Inv s) {e i read} : (forward e i read s).Kept := by
  unfold forward
  grind only [SeqOut.Kept, ← Inv.useFree, !← enqueue_kept]

theorem Inv.setHead (h : Inv s) {e en} : Inv (s.setHead e en) := h.setBank

theorem Inv.onHead (h : Inv s) {e f} : Inv (s.onHead e f) := by
  unfold State.onHead
  grind only [← Inv.setHead]

theorem Inv.freeCurrent (h : Inv s) {e} : Inv (s.freeCurrent e) := by
  unfold State.freeCurrent
  grind only [← Inv.freeReserve]

theorem pushOut_inv (h : Inv s) {e en tok} : Inv (pushOut e en tok s) := by
  unfold pushOut
  grind only [← Inv.freeCurrent, ← Inv.setBank]

theorem Inv.holdCells (h : Inv s) {e old} : Inv (s.holdCells e old) := by
  unfold State.holdCells
  grind only [← Inv.onHead, ← Inv.setCtx, ← Inv.useFree]

theorem Inv.complete (h : Inv s) {e en tok old} : Inv (s.complete e en tok old) := by
  unfold State.complete
  grind only [← Inv.freeCurrent, ← Inv.setCtx, ← Inv.setHead, ← Inv.useFree, ← pushOut_inv]

theorem Inv.engineFault (h : Inv s) {e code sub addr} : Inv (s.engineFault e code sub addr) := by
  unfold State.engineFault
  grind only [_=_ inv_iff, ← Inv.latchFault, ← Inv.takeTrap]

theorem engineRun_inv (h : Inv s) {work : Entry → State → EngOut} (hwork : ∀ {e s}, Inv s → (work e s).Kept)
    {e en tok rel} : Inv (engineRun e en tok rel work s) := by
  unfold engineRun
  grind only [_=_ inv_iff, EngOut.Kept, ← Inv.complete, ← Inv.engineFault, ← Inv.holdCells, ← Inv.onHead,
    ← Inv.releaseAll, ← Inv.setBank, ← Inv.setHead, ← pushOut_inv]

/-- An engine word keeps the form when its work does. -/
theorem engineInstr_kept (h : Inv s) {work : Entry → State → EngOut} (hwork : ∀ {e s}, Inv s → (work e s).Kept)
    {e i tok rel srcs read} : Kept (engineInstr e i tok rel srcs read work s) := by
  unfold engineInstr
  grind only [_=_ inv_iff, Kept, ← engineRun_inv, !← forward_kept, !← seqInstr_kept]

theorem prepTiles_kept (h : Inv s) {spec srcs dst} : (prepTiles spec srcs dst s).Kept := by
  unfold prepTiles
  grind only [Prep.Kept, ← Inv.setCtx]

theorem readyDst_kept (h : Inv s) {t} : Inv (readyDst t s).1 := by
  unfold readyDst
  grind only [← Inv.setCtx]

theorem putLine_inv (h : Inv s) {t dir i vals} : Inv (putLine s t dir i vals) := h.setCtx
theorem putTile_inv (h : Inv s) {t f} : Inv (putTile s t f) := h.setCtx
theorem lastUses_inv (h : Inv s) {off ls dst} : Inv (lastUses s off ls dst) := h.setCtx

theorem prepPad_kept (h : Inv s) {spec spans} : (prepPad spec spans s).Kept := by
  unfold prepPad
  grind only [Prep.Kept, ← Inv.setCtx]

theorem prepPadWrite_kept (h : Inv s) {spans} : Inv (prepPadWrite spans s).1 := by
  unfold prepPadWrite
  grind only [← Inv.setCtx]

theorem Inv.countPort (h : Inv s) {spans} : Inv (s.countPort spans) := by
  unfold State.countPort
  grind only [← Inv.pmcAdd]

theorem Inv.countAgentPort (h : Inv s) {v spans} : Inv (s.countAgentPort v spans) := h.pmcAgent

theorem sluSpans_inv (h : Inv s) {slu spans} : Inv (sluSpans slu spans s) := by
  unfold sluSpans
  grind only [← Inv.setCtx]

/-! ### The load engine -/

theorem lWork_kept (h : Inv s) {put : (Nat → Nat → Nat × Bool) → State → State}
    (hput : ∀ {g s}, Inv s → Inv (put g s)) {slu spans dst en} : (lWork slu spans dst put en s).Kept := by
  unfold lWork
  grind only [EngOut.Kept, Prep.Kept, ← Inv.countPort, ← Inv.useFree, !← prepPad_kept, !← prepTiles_kept,
    !← readyDst_kept, ← sluSpans_inv]

theorem Inv.setShadow (h : Inv s) {p} : Inv (s.setShadow p) := h

theorem execLline_kept (h : Inv s) {f} : Kept (execLline f s) :=
  engineInstr_kept h fun h => by
    grind only [!← lWork_kept, ← putLine_inv]

theorem execLtile_kept (h : Inv s) {f} : Kept (execLtile f s) :=
  engineInstr_kept h fun h => by
    grind only [!← lWork_kept, ← putTile_inv]

theorem execLtrans_kept (h : Inv s) {f} : Kept (execLtrans f s) :=
  engineInstr_kept h fun h => by
    grind only [!← lWork_kept, ← putTile_inv]

theorem execLvc_kept (h : Inv s) {f} : Kept (execLvc f s) := by
  unfold execLvc
  grind only [_=_ inv_iff, EngOut.Kept, Kept, SeqOut.Kept, ← Inv.setBank, ← engineRun_inv, !← forward_kept,
    !← seqInstr_kept]

theorem execLsetf_kept (h : Inv s) {f} : Kept (execLsetf f s) :=
  engineInstr_kept h fun h => by
    grind only [EngOut.Kept, ← Inv.setCtx]

theorem feedPush_kept (h : Inv s) {f en row slu} : (feedPush f en row slu s).Kept := by
  unfold feedPush
  grind only [EngOut.Kept, ← Inv.setCtx, ← Inv.setHead, ← Inv.useFree, ← sluSpans_inv]

theorem execLfeed_kept (h : Inv s) {f} : Kept (execLfeed f s) :=
  engineInstr_kept h fun h => by
    grind only [EngOut.Kept, Prep.Kept, ← Inv.countPort, !← feedPush_kept, !← prepPad_kept]

theorem execLwgt_kept (h : Inv s) {f} : Kept (execLwgt f s) :=
  engineInstr_kept h fun h => by
    grind only [← Inv.setShadow, !← lWork_kept]

theorem execLgath_kept (h : Inv s) {f} : Kept (execLgath f s) :=
  engineInstr_kept h fun {en s} h => by
    extract_lets ad
    split
    · exact h.setShadow
    · have hp : (prepPad en.spec [(ad, 64)] s).Kept := prepPad_kept h
      split
      · exact h
      · next e => exact hp.wait e
      · next s1 off e =>
        rw [e] at hp
        extract_lets bad
        split
        · split
          · exact sluSpans_inv (.setShadow hp)
          · exact h
        · next blocks _ =>
          extract_lets spans
          have hq : (prepPad en.spec spans s1).Kept := prepPad_kept hp
          split
          · exact h
          · next e => exact hq.wait e
          · next e =>
            rw [e] at hq
            exact sluSpans_inv (.useFree (.countPort (.setShadow hq)))

theorem execLmask_kept (h : Inv s) {f} : Kept (execLmask f s) :=
  engineInstr_kept h fun h => by
    grind only [_=_ inv_iff, EngOut.Kept, !← lWork_kept]

/-! ### The matrix engine -/

theorem putPlane_inv (h : Inv s) {p cells} : Inv (putPlane s p cells) := by
  unfold putPlane
  grind only [← Inv.setCtx, ← Inv.useFree]

theorem Inv.setStep (h : Inv s) {n} : Inv (s.setStep n) := by
  unfold State.setStep
  grind only [_=_ inv_iff]

theorem Inv.closeMacro (h : Inv s) {f} : Inv (s.closeMacro f) := h.setCtx.setStep

theorem xPrep_kept (h : Inv s) {f en i} : (xPrep f en i s).Kept := by
  unfold xPrep
  grind only [Prep.Kept, ← Inv.setCtx, !← prepTiles_kept]

theorem xStep_kept (h : Inv s) {kind f en i bad} : (xStep kind f en i bad s).Kept := by
  unfold xStep
  grind only [_=_ inv_iff, EngOut.Kept, ← Inv.closeMacro, ← Inv.pmcAdd, ← Inv.setFlags, ← Inv.setHead, ← Inv.setStep,
    ← lastUses_inv, ← putPlane_inv]

theorem xMacro_kept (h : Inv s) {kind f en} : (xMacro kind f en s).Kept := by
  unfold xMacro
  grind only [EngOut.Kept, Prep.Kept, !← xPrep_kept, !← xStep_kept]

theorem execXswap_kept (h : Inv s) {f} : Kept (execXswap f s) :=
  engineInstr_kept h fun h => by
    grind only [_=_ inv_iff, EngOut.Kept]

theorem execXshape_kept (h : Inv s) {f} : Kept (execXshape f s) := by
  unfold execXshape
  grind only [_=_ inv_iff, EngOut.Kept, Kept, SeqOut.Kept, ← Inv.setBank, ← engineRun_inv, !← forward_kept,
    !← seqInstr_kept]

theorem execXclr_kept (h : Inv s) {f} : Kept (execXclr f s) :=
  engineInstr_kept h fun h => by
    grind only [EngOut.Kept, ← Inv.setCtx]

theorem execXbias_kept (h : Inv s) {f} : Kept (execXbias f s) :=
  engineInstr_kept h fun h => by
    grind only [EngOut.Kept, Prep.Kept, ← Inv.setFlags, ← lastUses_inv, !← prepTiles_kept, ← putPlane_inv]

/-! ### The vector engine -/

theorem vWork_kept (h : Inv s) {dst k use tiles subs look deps val en} :
    (vWork dst k use tiles subs look deps val en s).Kept := by
  unfold vWork
  extract_lets t
  have hp : (prepTiles en.spec (tiles.map fun l => l.tile.toNat) (some t) s).Kept := prepTiles_kept h
  split
  · exact h
  · next e => exact hp.wait e
  · next s1 off0 e =>
    rw [e] at hp
    grind only [EngOut.Kept, Prep.Kept, ← Inv.foldl, ← Inv.onHead, ← Inv.setFlags, ← Inv.useFree, ← lastUses_inv,
      ← putLine_inv, !← readyDst_kept]

theorem vTile_kept (h : Inv s) {i tok dst k use regs read tiles subs look deps val} :
    Kept (vTile i tok dst k use regs read tiles subs look deps val s) :=
  engineInstr_kept h fun h => vWork_kept h

theorem vElem_kept (h : Inv s) {i f n useD w op} : Kept (vElem i f n useD w op s) := vTile_kept h
theorem putMask_inv (h : Inv s) {k sel bits pois} : Inv (putMask s k sel bits pois) := h.setBank.useFree

theorem vCompare_kept (h : Inv s) {i f rel neg} : Kept (vCompare i f rel neg s) :=
  engineInstr_kept h fun h => by
    grind only [EngOut.Kept, Prep.Kept, ← Inv.setFlags, ← lastUses_inv, !← prepTiles_kept, ← putMask_inv]

theorem vMaskOp_kept (h : Inv s) {i f two op} : Kept (vMaskOp i f two op s) :=
  engineInstr_kept h fun h => by
    grind only [EngOut.Kept, ← putMask_inv]

theorem putScalar_inv (h : Inv s) {r v p} : Inv (putScalar s r v p) := by
  unfold putScalar
  grind only [← Inv.setBank, ← Inv.useFree]

theorem vMaskScalar_kept (h : Inv s) {i f op} : Kept (vMaskScalar i f op s) :=
  engineInstr_kept h fun h => by
    grind only [EngOut.Kept, ← putScalar_inv]

theorem execVcvt_kept (h : Inv s) {f} : Kept (execVcvt f s) := by
  unfold execVcvt
  grind only [!← vTile_kept]

theorem vReduce_kept (h : Inv s) {i f op} : Kept (vReduce i f op s) := vTile_kept h

theorem execVgets_kept (h : Inv s) {f} : Kept (execVgets f s) :=
  engineInstr_kept h fun h => by
    grind only [EngOut.Kept, Prep.Kept, ← lastUses_inv, !← prepTiles_kept, ← putScalar_inv]

theorem execVsets_kept (h : Inv s) {f} : Kept (execVsets f s) :=
  engineInstr_kept h fun h => by
    grind only [EngOut.Kept, Prep.Kept, ← Inv.useFree, !← prepTiles_kept, ← putLine_inv, !← readyDst_kept]

/-! ### The store engine -/

theorem sWrite_kept (h : Inv s) {bs} : WriteKept (sWrite bs s) := by
  have hp : Inv (prepPadWrite (bs.map fun b => (b.addr, 1)) s).1 := prepPadWrite_kept h
  unfold sWrite
  grind only [WriteKept, ← Inv.setCtx, ← Inv.countPort]

theorem sTile_kept (h : Inv s) {f out en} : (sTile f out en s).Kept := by
  unfold sTile
  grind only [EngOut.Kept, Prep.Kept, WriteKept, ← lastUses_inv, !← prepTiles_kept, !← sWrite_kept]

theorem execSacc_kept (h : Inv s) {f} : Kept (execSacc f s) :=
  engineInstr_kept h fun {en s} h => by
    extract_lets vc cols base spans past
    have hp : (if past then Prep.ok s [] else prepPad en.spec spans s).Kept := by
      grind only [Prep.Kept, !← prepPad_kept]
    split
    · exact h
    · split
      · exact h
      · next e => exact hp.wait e
      · next s1 off e =>
        rw [e] at hp
        grind only [EngOut.Kept, Prep.Kept, WriteKept, ← Inv.countPort, ← Inv.onHead, ← Inv.setFlags, ← Inv.useFree,
          !← sWrite_kept]

/-! ### Memory instructions -/

theorem Inv.wrPois (h : Inv s) {d k} : Inv (s.wrPois d k) := h.wr

theorem Inv.wrLoaded (h : Inv s) {d v p} : Inv (s.wrLoaded d v p) := by
  unfold State.wrLoaded
  grind only [← Inv.useFree, ← Inv.wrPois, ← Inv.wrc]

theorem loadGlobal_kept (h : Inv s) {f signed} : (loadGlobal f signed s).Kept := by
  unfold loadGlobal
  grind only [FailKept, SeqOut.Kept, !← checkData_kept, ← Inv.hold, !← readData_kept, ← Inv.useFree, ← Inv.wrLoaded,
    ← Inv.wrPois, !← consume_kept]

theorem storeGlobal_kept (h : Inv s) {f} : (storeGlobal f s).Kept := by
  unfold storeGlobal
  grind only [FailKept, SeqOut.Kept, !← checkData_kept, ← Inv.hold, ← Inv.writeData, !← consume_kept]

theorem loadPad_kept (h : Inv s) {f} : (loadPad f s).Kept := by
  unfold loadPad
  grind only [SeqOut.Kept, ← Inv.setCtx, ← Inv.useFree, ← Inv.wrLoaded, ← Inv.wrPois, !← consume_kept,
    !← prepPadWrite_kept]

theorem storePad_kept (h : Inv s) {f} : (storePad f s).Kept := by
  unfold storePad
  grind only [SeqOut.Kept, ← Inv.setCtx, !← consume_kept, !← prepPadWrite_kept]

theorem contribution_kept (h : Inv s) {f op w va pa b} : (contribution f op w va pa b s).Kept := by
  unfold contribution
  grind only [_=_ inv_iff, SeqOut.Kept]

theorem atomBody_kept (h : Inv s) {f op b va new} : (atomBody f op b va new s).Kept := by
  unfold atomBody
  grind only [FailKept, SeqOut.Kept, !← checkData_kept, ← Inv.flushGranule, ← Inv.rawWrite, ← Inv.scopeTake,
    ← Inv.wrc, !← contribution_kept]

theorem atomRun_kept (h : Inv s) {f op} : (atomRun f op s).Kept := by
  unfold atomRun
  grind only [!← atomBody_kept, !← consume_kept]

theorem counterCheckAs_kept (h : Inv s) {again va need sc} : TryKept (counterCheckAs again va need sc s) := by
  unfold counterCheckAs
  grind only [FailKept, TryKept, !← checkData_kept, ← Inv.flushGranule]

theorem counterCheck_kept (h : Inv s) {va need sc} : TryKept (counterCheck va need sc s) := counterCheckAs_kept h

theorem execCsig_kept (h : Inv s) {f} : Kept (execCsig f s) :=
  seqInstr_kept h fun h => consume_kept h fun _ => consume_kept h fun _ => by
    grind only [SeqOut.Kept, TryKept, ← Inv.progressEvent, ← Inv.releaseBound, ← Inv.signalAt, !← counterCheck_kept]

theorem cwaitRun_inv (h : Inv s) {f} : Inv (cwaitRun f s) :=
  seqRun_inv h fun h => consume_kept h fun _ => consume_kept h fun _ => by
    grind only [SeqOut.Kept, TryKept, ← Inv.acquireBound, ← Inv.holdCover, ← Inv.scopeTake, !← counterCheckAs_kept]

theorem execCread_kept (h : Inv s) {f} : Kept (execCread f s) :=
  seqInstr_kept h fun h => consume_kept h fun _ => by
    grind only [SeqOut.Kept, TryKept, ← Inv.scopeTake, ← Inv.wrc, !← counterCheck_kept]

theorem execFence_kept (h : Inv s) {f} : Kept (execFence f s) :=
  seqInstr_kept h fun h => by
    grind only [SeqOut.Kept, ← Inv.acquireAll, ← Inv.performContribs, ← Inv.releaseAll]

theorem execBind_kept (h : Inv s) {f} : Kept (execBind f s) :=
  seqInstr_kept h fun h => by
    grind only [_=_ inv_iff, SeqOut.Kept, ← Inv.wrc, !← consume_kept]

theorem execUnbind_kept (h : Inv s) {f} : Kept (execUnbind f s) :=
  seqInstr_kept h fun h => by
    grind only [_=_ inv_iff, SeqOut.Kept, ← Inv.wrc, !← consume_kept]

/-! ### Bank, group and line-buffer instructions -/

theorem dataTrap_kept (h : Inv s) : s.dataTrap.Kept := by
  unfold State.dataTrap
  grind only [SeqOut.Kept, ← Inv.useFree]

theorem execBpol_kept (h : Inv s) {f} : Kept (execBpol f s) :=
  seqInstr_kept h fun h => by
    grind only [SeqOut.Kept, ← Inv.setCtx, ← Inv.useFree]

theorem execBwake_kept (h : Inv s) {f} : Kept (execBwake f s) :=
  seqInstr_kept h fun h => by
    grind only [SeqOut.Kept, ← Inv.setCtx, ← Inv.useFree]

theorem execBdrop_kept (h : Inv s) {f} : Kept (execBdrop f s) :=
  seqInstr_kept h fun h => by
    grind only [SeqOut.Kept, ← Inv.setCtx, ← Inv.useFree]

theorem execBstate_kept (h : Inv s) {f} : Kept (execBstate f s) :=
  seqInstr_kept h fun h => by
    grind only [SeqOut.Kept, ← Inv.wrc]

theorem gwaitRun_inv (h : Inv s) {f} : Inv (gwaitRun f s) :=
  seqRun_inv h fun h => consume_kept h fun _ => by
    grind only [SeqOut.Kept, !← dataTrap_kept]

theorem execGrel_kept (h : Inv s) {f} : Kept (execGrel f s) :=
  seqInstr_kept h fun h => consume_kept h fun _ => by
    grind only [SeqOut.Kept, !← dataTrap_kept, ← Inv.setCtx]

theorem execGstat_kept (h : Inv s) {f} : Kept (execGstat f s) :=
  seqInstr_kept h fun h => by
    grind only [SeqOut.Kept, !← dataTrap_kept, ← Inv.wrc]

theorem execLbfree_kept (h : Inv s) {f} : Kept (execLbfree f s) :=
  seqInstr_kept h fun h => by
    grind only [SeqOut.Kept, ← Inv.setCtx]

theorem execLbusy_kept (h : Inv s) {f} : Kept (execLbusy f s) :=
  seqInstr_kept h fun h => by
    grind only [SeqOut.Kept, ← Inv.wrc]

/-! ### Version instructions -/

theorem Inv.afterCreation (h : Inv s) : Inv s.afterCreation := h.examineAll

theorem versioned_kept (h : Inv s) {va n need} : FailKept (s.versioned va n need) := by
  unfold State.versioned
  grind only [FailKept, !← xlateRange_kept]

theorem pagesMapped_kept (h : Inv s) {mirror va n} : TryKept (State.pagesMapped mirror va n s) := by
  induction n generalizing s va with
  | zero => exact h
  | succ _ ih => grind only [State.pagesMapped, FailKept, TryKept, !← xlateRange_kept]

theorem regionMapped_kept (h : Inv s) {d} : TryKept (s.regionMapped d) := pagesMapped_kept h

theorem regionStatus_kept (h : Inv s) {slot d} : TryKept (s.regionStatus slot d) := by
  unfold State.regionStatus
  grind only [TryKept, !← regionMapped_kept]

theorem Inv.attach (h : Inv s) {slot d} : Inv (s.attach slot d) := by
  unfold State.attach
  grind only [_=_ inv_iff, ← Inv.putRegion]

theorem Inv.detachSlot (h : Inv s) {slot} : Inv (s.detachSlot slot) := by
  unfold State.detachSlot
  split
  · exact h
  · split
    · exact h
    · extract_lets s1 c s2
      have h1 : Inv s1 := h.finishBuilds
      have h2 : Inv s2 := h1.update
      split
      · exact h2.detach.afterCreation
      · exact h2.afterCreation

theorem execVregion_kept (h : Inv s) {f} : Kept (execVregion f s) :=
  seqInstr_kept h fun h => consume_kept h fun _ => by
    grind only [SeqOut.Kept, TryKept, ← Inv.attach, ← Inv.detachSlot, !← loadAt_kept, !← regionStatus_kept, ← Inv.wrc]

theorem loadsVer_kept (h : Inv s) {va sc u} : (s.loadsVer va sc u).Kept := by
  unfold State.loadsVer
  grind only [VFind.Kept]

theorem missesVer_kept (h : Inv s) {sp va} : (s.missesVer sp va).Kept := by
  unfold State.missesVer
  grind only [VFind.Kept]

theorem findVersion_kept (h : Inv s) {sp va mode v sc r} : (s.findVersion sp va mode v sc r).Kept := by
  unfold State.findVersion
  grind only [VFind.Kept, !← loadsVer_kept, !← missesVer_kept, ← Inv.putRegion]

theorem examineLoad_kept (h : Inv s) {k sp va mode v sc r} : (s.examineLoad k sp va mode v sc r).Kept := by
  unfold State.examineLoad
  grind only [VFind.Kept, !← findVersion_kept, !← loadsVer_kept, !← missesVer_kept]

theorem versionWait_kept (h : Inv s) {k recorded} : (s.versionWait k recorded).Kept := by
  unfold State.versionWait
  grind only [SeqOut.Kept, ← Inv.hold]

theorem reachVersion_kept (h : Inv s) {sp va n} : FailKept (s.reachVersion sp va n) := by
  unfold State.reachVersion
  grind only [FailKept, !← versioned_kept]

theorem putVersion_inv (h : Inv s) {t dir ix v} : Inv (putVersion t dir ix v s) := Inv.useFree (putLine_inv h)

theorem loadLine_kept (h : Inv s) {f k ix v} : (loadLine f k ix v s).Kept := by
  unfold loadLine
  grind only [SeqOut.Kept, ← Inv.acquireAll, ← Inv.hold, ← Inv.wr, ← Inv.wrc, ← putVersion_inv, !← readyDst_kept]

theorem VFind_line_kept {o : VFind} (ho : o.Kept) {f k ix} : (VFind.line f k ix o).Kept := by
  unfold VFind.line
  grind only [SeqOut.Kept, VFind.Kept, !← versionWait_kept, !← loadLine_kept]

theorem vldRun_inv (h : Inv s) {f} : Inv (vldRun f s) :=
  seqRun_inv h fun h => consume_kept h fun _ => consume_kept h fun _ => by
    split
    · exact h
    · extract_lets va t v k
      split
      · exact VFind_line_kept (loadsVer_kept h)
      · exact VFind_line_kept (missesVer_kept h)
      · grind only [FailKept, SeqOut.Kept, !← examineLoad_kept, !← reachVersion_kept, !← VFind_line_kept,
          !← loadLine_kept]

theorem vldsPut_inv (h : Inv s) {f off v} : Inv (vldsPut f off v s) := by
  unfold vldsPut
  grind only [← Inv.acquireAll, ← Inv.useFree, ← Inv.wr, ← Inv.wrLoaded, ← Inv.wrPois, ← Inv.wrc]

theorem VFind_word_kept {o : VFind} (ho : o.Kept) {f k off} : (VFind.word f k off o).Kept := by
  unfold VFind.word
  grind only [SeqOut.Kept, VFind.Kept, !← versionWait_kept, ← vldsPut_inv]

theorem vldsRun_inv (h : Inv s) {f} : Inv (vldsRun f s) :=
  seqRun_inv h fun h => consume_kept h fun _ => consume_kept h fun _ => by
    grind only [FailKept, SeqOut.Kept, !← examineLoad_kept, !← loadsVer_kept, !← missesVer_kept, !← reachVersion_kept,
      !← VFind_word_kept, ← vldsPut_inv]

theorem createSector_kept (h : Inv s) {va sc r new} : Inv (s.createSector va sc r new).1 := by
  unfold State.createSector
  grind only [← Inv.created, ← Inv.putRegion, ← Inv.releaseAll]

theorem vstCreate_kept (h : Inv s) {f a v ix r} : (vstCreate f a v ix r s).Kept := by
  have hc {a sc r v} : Inv (s.createSector a sc r v).1 := createSector_kept h
  unfold vstCreate
  extract_lets va t i finish make
  have hf {s : State} (h : Inv s) : (finish s).Kept := (lastUses_inv h).afterCreation.progressEvent
  have hm : make.Kept := by grind only [SeqOut.Kept]
  split
  · exact hf (.created (.putRegion h))
  · split
    · exact hm
    · exact hm
    · exact h
    · exact h
    · exact h

theorem creationRegion_kept (h : Inv s) {a v n} : FailKept (s.creationRegion a v n) := by
  unfold State.creationRegion
  grind only [FailKept, !← versioned_kept]

theorem vstRun_inv (h : Inv s) {f} : Inv (vstRun f s) :=
  seqRun_inv h fun h => consume_kept h fun _ => consume_kept h fun _ => by
    grind only [FailKept, Prep.Kept, SeqOut.Kept, !← creationRegion_kept, ← Inv.unreserveAll, !← prepTiles_kept,
      !← vstCreate_kept]

theorem vstsRun_inv (h : Inv s) {f} : Inv (vstsRun f s) :=
  seqRun_inv h fun {s} h => consume_kept h fun a => consume_kept h fun b => by
    extract_lets va sec v c put s1
    have hp {bd} {s : State} (h : Inv s) : (put bd s).Kept := by
      grind only [SeqOut.Kept, ← Inv.afterCreation, ← Inv.finishBuild, ← Inv.setCtx, ← Inv.setBank]
    have hr : FailKept (s.creationRegion a v.toNat 8) := creationRegion_kept h
    have h1 : Inv s1 := by grind only [← Inv.foldl, ← Inv.afterCreation, ← Inv.finishBuild]
    clear_value put s1
    split
    · exact h
    · split
      · next e => exact hr.error e
      · split
        · exact hp h
        · grind only [SeqOut.Kept, ← Inv.putRegion]

theorem execVfloor_kept (h : Inv s) {f} : Kept (execVfloor f s) :=
  seqInstr_kept h fun h => consume_kept h fun _ => consume_kept h fun _ => by
    grind only [FailKept, SeqOut.Kept, ← Inv.afterCreation, ← Inv.putRegion, !← versioned_kept]

theorem execVnewest_kept (h : Inv s) {f} : Kept (execVnewest f s) :=
  seqInstr_kept h fun h => consume_kept h fun _ => by
    grind only [FailKept, SeqOut.Kept, !← versioned_kept, ← Inv.wrc]

/-! ### Control registers -/

theorem Inv.csrClear (h : Inv s) {n} : Inv (s.csrClear n) := by
  unfold State.csrClear
  grind only [_=_ inv_iff, ← Inv.setDie]

theorem gcfgWrite_kept (h : Inv s) {n v} : (gcfgWrite s n v).Kept := by
  unfold gcfgWrite
  grind only [SeqOut.Kept, ← Inv.setCtx]

theorem lbdWrite_kept (h : Inv s) {n v} : (lbdWrite s n v).Kept := by
  unfold lbdWrite
  grind only [SeqOut.Kept, ← Inv.setCtx]

theorem Inv.csrPut (h : Inv s) {n v w} : Inv (s.csrPut n v w) := by
  unfold State.csrPut
  grind only [_=_ inv_iff, ← Inv.setBank, ← Inv.setDie]

theorem csrApply_kept (h : Inv s) {n o a} : (csrApply s n o a).Kept := by
  unfold csrApply
  grind only [_=_ inv_iff, SeqOut.Kept, ← Inv.csrPut, !← gcfgWrite_kept, !← lbdWrite_kept]

theorem csrWriting_kept (h : Inv s) {d a n o} : Kept (csrWriting d a n o s) :=
  seqInstr_kept h fun h => consume_kept h fun _ => by
    grind only [SeqOut.Kept, ← Inv.wrc, !← csrApply_kept]

theorem csrReading_kept (h : Inv s) {d n} : Kept (csrReading d n s) :=
  seqInstr_kept h fun h => by
    grind only [SeqOut.Kept, ← Inv.csrClear, ← Inv.wrc]

/-! ### System instructions -/

theorem execEcall_kept (h : Inv s) {f} : Kept (execEcall f s) :=
  seqInstr_kept h fun h => by
    grind only [SeqOut.Kept]

theorem execTret_kept (h : Inv s) : Kept (execTret s) := by
  unfold execTret
  grind only [Kept, ← Inv.fault, ← Inv.leaveTenant, ← Inv.retire, ← Inv.waitAt]

theorem execSret_kept (h : Inv s) : Kept (execSret s) := by
  unfold execSret
  grind only [Kept, ← Inv.fault, ← Inv.leaveSteward, ← Inv.retire]

theorem spilling_kept (h : Inv s) {f word skip act} : Kept (spilling f word skip act s) :=
  seqInstr_kept h fun h => by
    grind only [SeqOut.Kept, ← Inv.setCtx]

theorem execTspill_kept (h : Inv s) {f} : Kept (execTspill f s) := by
  unfold execTspill
  grind only [!← spilling_kept]

theorem execTfill_kept (h : Inv s) {f} : Kept (execTfill f s) := by
  unfold execTfill
  grind only [!← spilling_kept]

theorem Inv.markHeld (h : Inv s) {id} : Inv (s.markHeld id) := h.homeWrite
theorem Inv.holdCtx (h : Inv s) {c} : Inv (s.holdCtx c) := h.stopCrew.taskReady.mapCtx.leaveCore

theorem execCtxsave_kept (h : Inv s) {f} : Kept (execCtxsave f s) :=
  seqInstr_kept h fun h => consume_kept h fun _ => by
    grind only [SeqOut.Kept, ← Inv.holdCtx, ← Inv.mapCtx, ← Inv.markHeld, ← Inv.setPc, ← Inv.wrc]

theorem recordOf_kept (h : Inv s) {c} : Inv (s.recordOf c).1 := by
  unfold State.recordOf
  grind only [← Inv.agentFails, ← Inv.postSteward]

theorem Inv.adopt (h : Inv s) {c} : Inv (s.adopt c) := by
  unfold State.adopt
  grind only [_=_ inv_iff, ← Inv.foldl, ← Inv.addCtx, ← Inv.mapCtx, ← Inv.putTask, !← recordOf_kept]

theorem execCtxload_kept (h : Inv s) {f} : Kept (execCtxload f s) :=
  seqInstr_kept h fun h => consume_kept h fun _ => by
    grind only [SeqOut.Kept, ← Inv.addCtx, ← Inv.adopt, ← Inv.putCtx, ← Inv.wrc]

theorem execTlbinv_kept (h : Inv s) {f} : Kept (execTlbinv f s) :=
  seqInstr_kept h fun h => consume_kept h fun _ => consume_kept h fun _ => by
    grind only [_=_ inv_iff, SeqOut.Kept, !← dataTrap_kept, ← Inv.releaseAll]

theorem Inv.copyClear (h : Inv s) {pa k} : Inv (s.copyClear pa k) :=
  Inv.zeroRange (h.setL1.foldl (fun h => h.evictLine))

theorem execZerorange_kept (h : Inv s) {f} : Kept (execZerorange f s) :=
  seqInstr_kept h fun h => consume_kept h fun _ => consume_kept h fun _ => by
    grind only [SeqOut.Kept, ← Inv.foldl, ← Inv.copyClear, ← Inv.wrc, ← Inv.xEvent]

theorem execPsync_kept (h : Inv s) : Kept (execPsync s) :=
  seqInstr_kept h fun h => by
    grind only [_=_ inv_iff, SeqOut.Kept]

theorem execWdog_kept (h : Inv s) {f} : Kept (execWdog f s) :=
  seqInstr_kept h fun h => consume_kept h fun _ => by
    grind only [SeqOut.Kept, !← dataTrap_kept, ← Inv.setDie]

theorem Inv.dlvlQueue (h : Inv s) {p q lvl floor} : Inv (s.dlvlQueue p q lvl floor) := h.setLevel.setQlevel

theorem execDlvl_kept (h : Inv s) {f} : Kept (execDlvl f s) :=
  seqInstr_kept h fun h => consume_kept h fun _ => consume_kept h fun _ => by
    grind only [SeqOut.Kept, ← Inv.foldl, !← dataTrap_kept, ← Inv.dlvlQueue]

theorem clearCancel_kept (h : Inv s) {p addr lvl} : SomeKept (s.clearCancel p addr lvl) := by
  unfold State.clearCancel
  grind only [_=_ inv_iff, SomeKept]

theorem cancelBody_kept (h : Inv s) {f} : (cancelBody f s).Kept := by
  unfold cancelBody
  grind only [SeqOut.Kept, SomeKept, !← cancelLevel_kept, !← clearCancel_kept, !← dataTrap_kept, ← Inv.wrc,
    !← consume_kept]

/-! ### Firmware calls and page services -/

theorem Inv.homeStore (h : Inv s) {ps va bs pois} : Inv (s.homeStore ps va bs pois) := h.foldl fun h => h.homeWrite

theorem fwCallOf_kept (h : Inv s) {service : State → Word → Nat → State × Nat}
    (hservice : ∀ {s a n}, Inv s → Inv (service s a n).1) {unknown d a} : Kept (fwCallOf unknown d a service s) :=
  seqInstr_kept h fun h => consume_kept h fun _ => by
    grind only [SeqOut.Kept, TryKept, !← loadAt_kept, ← Inv.wrc]

theorem fwCall_kept (h : Inv s) {service : State → Word → Nat → State × Nat}
    (hservice : ∀ {s a n}, Inv s → Inv (service s a n).1) {d a} : Kept (fwCall d a service s) := by
  unfold fwCall
  grind only [!← fwCallOf_kept]

theorem fwOut_kept (h : Inv s) {out n bs} : Inv (s.fwOut out n bs).1 := by
  unfold State.fwOut
  grind only [FailKept, !← checkData_kept, ← Inv.homeStore]

theorem fwIdentity_kept (h : Inv s) {a n} : Inv (fwIdentity s a n).1 := by
  unfold fwIdentity
  grind only [!← fwOut_kept]

theorem fwLog_kept (h : Inv s) {a n} : Inv (fwLog s a n).1 := by
  unfold fwLog
  grind only [!← fwOut_kept]

theorem fwQuote_kept (h : Inv s) {a n} : Inv (fwQuote s a n).1 := by
  unfold fwQuote
  grind only [!← fwOut_kept]

theorem fwRepairMap_kept (h : Inv s) {a n} : Inv (fwRepairMap s a n).1 := by
  unfold fwRepairMap
  grind only [!← fwOut_kept]

theorem Inv.giveFrames (h : Inv s) {fs} : Inv (s.giveFrames fs) := h
theorem Inv.takeFrames (h : Inv s) {fs} : Inv (s.takeFrames fs) := h
theorem Inv.setPagesUsed (h : Inv s) {part tier2 n} : Inv (s.setPagesUsed part tier2 n) := h

theorem Inv.rootTable (h : Inv s) {part} : Inv (s.rootTable part) := by
  have h1 {fs} : Inv (s.useFree.giveFrames fs) := h.useFree.giveFrames
  unfold State.rootTable
  grind only [_=_ inv_iff, ← Inv.zeroRange]

theorem entryOf_kept (h : Inv s) {make ipa levels table} :
    SomeKept ((State.entryOf make ipa levels table s).map Prod.fst) := by
  induction levels generalizing s table with
  | nil => trivial
  | cons l rest ih =>
    obtain ⟨lo, nb, lvl⟩ := l
    unfold State.entryOf
    extract_lets addr e
    split
    · exact h
    · split
      · split
        · exact ih h
        · trivial
      · split
        · exact ih h.useFree.giveFrames.zeroRange.homeWrite
        · trivial

/-- The third: the cells of the page written again at the page's new place (R368). -/
theorem Inv.movePage (h : Inv s) {old new} : Inv (s.movePage old new) := by
  have h1 : Inv (s.zeroRange new 65536) := h.zeroRange
  unfold State.movePage
  extract_lets at_ mem marks scopes sec s1 wait bank follow
  exact ⟨wf_foldl_set h1.1, h1.2⟩

theorem Inv.dropFrame (h : Inv s) {pa} : Inv (s.dropFrame pa) := h

theorem relocate_kept (h : Inv s) {part slot tier2 quota} : SomeKept (s.relocate part slot tier2 quota) := by
  unfold State.relocate
  extract_lets e old m from2 full
  split
  · trivial
  · extract_lets s0 s1 s2
    have h0 : Inv s0 := h.useFree.takeFrames.giveFrames
    have h1 : Inv s1 := by grind only [← Inv.movePage]
    have h2 : Inv s2 := h1.movePage.homeWrite
    grind only [SomeKept, ← Inv.setPagesUsed]

theorem pageOp_kept (h : Inv s) {part op flags ipa} : SomeKept (s.pageOp part op flags ipa) := by
  unfold State.pageOp
  extract_lets s0 tier2 m
  have h0 : Inv s0 := by grind only [← Inv.rootTable]
  have he {levels table} : SomeKept ((State.entryOf (op == 0) ipa levels table s0).map Prod.fst) := entryOf_kept h0
  split
  · trivial
  · next s1 slot e1 =>
    have h1 : Inv s1 := by
      have h1 := e1 ▸ he
      exact h1
    extract_lets e old fs pair s2
    split
    · split
      · trivial
      · exact (h1.useFree.giveFrames.foldl fun h => h.dropFrame.zeroRange).homeWrite.setPagesUsed
    · split
      · trivial
      · split
        · exact (h1.foldl fun h => h.dropFrame).takeFrames.homeWrite.setPagesUsed
        · exact relocate_kept h1
        · exact relocate_kept h1
        · split
          · trivial
          · have h2 : Inv s2 := by grind only [← Inv.zeroRange, ← Inv.dropFrame, ← Inv.giveFrames, ← Inv.takeFrames]
            exact h2.homeWrite
        · exact (relocate_kept h1).map fun h => h.update

theorem pageOps_kept (h : Inv s) {part op flags ipa n} : Inv (s.pageOps part op flags ipa n).1 := by
  induction n with
  | zero => exact h
  | succ _ ih => grind only [State.pageOps, SomeKept, !← pageOp_kept]

theorem fwPages_kept (h : Inv s) {retire a n} : Inv (fwPages retire s a n).1 := by
  unfold fwPages
  grind only [_=_ inv_iff, FailKept, !← checkData_kept, ← Inv.homeStore, !← pageOps_kept]

theorem fwWindow_kept (h : Inv s) {a n} : Inv (fwWindow s a n).1 := by
  unfold fwWindow
  grind only [_=_ inv_iff, ← Inv.performContribs]

/-! ### Current reservations -/

theorem Inv.request (h : Inv s) {c u} : Inv (s.request c u) := by
  unfold State.request
  grind only [← Inv.setCluster]

theorem Inv.grant (h : Inv s) {n} : Inv (s.grant n) := by
  unfold State.grant
  grind only [← Inv.setCluster]

theorem reserve_kept (h : Inv s) {u} : Inv (s.reserve u).1 := by
  unfold State.reserve
  grind only [← Inv.grant, ← Inv.request]

theorem powerCourses_kept (h : Inv s) : Inv s.powerCourses.1 := by
  unfold State.powerCourses
  grind only [← Inv.setCore, ← Inv.useFree]

/-! ### The copier -/

theorem Inv.findBad (h : Inv s) {pad unit} : Inv (s.findBad pad unit) := by
  unfold State.findBad
  grind only [← Inv.event, ← Inv.setCtx, ← Inv.setMark]

theorem srcElem_kept (h : Inv s) {n m fill bad k} : (s.srcElem n m fill bad k).Kept := by
  unfold State.srcElem
  grind only [SrcElem.Kept, ← Inv.foldl, ← Inv.copyFails, ← Inv.findBad, ← Inv.useFree]

theorem dstElem_kept (h : Inv s) {n dst e pos k} : (s.dstElem n dst e pos k).Kept := by
  unfold State.dstElem
  grind only [DstElem.Kept, ← Inv.copyFails]

theorem CopySt_flush_kept {c : CopySt} (h : Inv c.s) {dst} : Inv (CopySt.flush dst c).s := by
  unfold CopySt.flush
  grind only [← Inv.putMem, ← Inv.setCtx]

theorem reserveSectors_kept (h : Inv s) {v sc got as} : (reserveSectors v sc s got as).Kept := by
  induction as generalizing s got with
  | nil => exact h
  | cons _ _ ih => grind only [reserveSectors, Reserved.Kept, ← Inv.putRegion]

theorem copyElems_kept {c : CopySt} (h : Inv c.s) {n src dst fill bad start rem} :
    Inv (copyElems n src dst fill bad start rem c).1.s := by
  induction rem generalizing c with
  | zero => exact h
  | succ rem ih =>
    have hs : (c.s.srcElem n src fill bad c.k).Kept := srcElem_kept h
    unfold copyElems
    split
    · exact h
    · split
      · next e => rw [e] at hs; exact hs
      · next s1 bs pois unc e =>
        rw [e] at hs
        have hd : (s1.dstElem n dst src.esize c.bytes c.k).Kept := dstElem_kept hs
        split
        · exact ih hs
        · next e => rw [e] at hd; exact hd
        · grind only [Reserved.Kept, SrcElem.Kept, !← reserveSectors_kept]

theorem walkState_kept (h : Inv s) {n} : Inv (s.walkState n).s := h

theorem CopySt_save_inv {c : CopySt} (h : Inv c.s) {n code} : Inv (CopySt.save c n code) := by
  unfold CopySt.save
  grind only [← Inv.setCtx]

theorem copyWalk_kept (h : Inv s) {n src dst fill bad fuel} : (State.copyWalk n src dst fill bad fuel s).Kept := by
  induction fuel generalizing s with
  | zero => exact h
  | succ fuel ih =>
    unfold State.copyWalk
    split
    · exact h
    · split
      · grind only [Walked.Kept, !← reserve_kept]
      · next s1 e =>
        have h1 : Inv s1 := by grind only [!← reserve_kept]
        extract_lets c0
        split
        next c1 e he =>
        have h1 : Inv c1.s := by grind only [!← copyElems_kept, !← walkState_kept]
        grind only [Walked.Kept, !← CopySt_flush_kept, ← CopySt_save_inv, ← Inv.countAgentPort, ← Inv.freeReserve,
          ← Inv.pmcAgent]

theorem walkOn_kept (h : Inv s) {n src dst fill bad} : (s.walkOn n src dst fill bad).Kept := copyWalk_kept h

theorem Inv.postCopier (h : Inv s) {p} : Inv (s.postCopier p) := by
  unfold State.postCopier
  grind only [← Inv.postSteward, ← Inv.setCtx]

theorem copyFetch_kept (h : Inv s) {n va len} : (s.copyFetch n va len).Kept := by
  unfold State.copyFetch
  grind only [CopyFetch.Kept, ← Inv.copyError, ← Inv.copyFails, ← Inv.postCopier]

theorem Inv.fetchStop (h : Inv s) {n addr} : Inv (s.fetchStop n addr) := h.unreserveAll.setCtx
theorem Inv.lostRecord (h : Inv s) {n} : Inv (s.lostRecord n) := h.copyError.fetchStop

theorem recMaps_kept (h : Inv s) {n hdr} : (s.recMaps n hdr).Kept := by
  unfold State.recMaps
  grind only [CopyFetch.Kept, RecCheck.Kept, !← copyFetch_kept]

theorem Inv.putOwner (h : Inv s) {c} : Inv (s.putOwner c) := by
  unfold State.putOwner
  grind only [_=_ inv_iff, ← Inv.putCtx]

theorem Inv.existSectors (h : Inv s) {v sc out secs half} : Inv (s.existSectors v sc out secs half) := by
  unfold State.existSectors
  grind only [← Inv.foldl, ← Inv.putRegion]

theorem Inv.setPhase (h : Inv s) {n hdr p} : Inv (s.setPhase n hdr p) := h.setCtx

theorem Inv.recRelease (h : Inv s) {hdr} : Inv (s.recRelease hdr) := by
  unfold State.recRelease
  grind only [← Inv.releaseAll]

theorem Inv.pubRelease (h : Inv s) {hdr secs} : Inv (s.pubRelease hdr secs) := by
  unfold State.pubRelease
  grind only [← Inv.releaseAll]

theorem Inv.runPublish (h : Inv s) {n a hdr sm dm bad} : Inv (s.runPublish n a hdr sm dm bad) := by
  unfold State.runPublish
  grind only [Walked.Kept, ← Inv.endRecord, ← Inv.examineAll, ← Inv.existSectors, ← Inv.progressEvent,
    ← Inv.pubRelease, ← Inv.setCtx, ← Inv.setPhase, !← walkOn_kept]

theorem landOn_kept (h : Inv s) {p t lb time out whole} : Inv (s.landOn p t lb time out whole).1 := by
  unfold State.landOn
  grind only [← Inv.countAgentPort, ← Inv.pmcAgent, ← Inv.putCtx, ← Inv.putOwner]

theorem Inv.landNow (h : Inv s) {n a hdr esize} : Inv (s.landNow n a hdr esize) := by
  unfold State.landNow
  extract_lets p lb ts time k
  split
  next out cut _ =>
    extract_lets code good s0
    have h0 : Inv s0 := by grind only [← Inv.recRelease]
    split
    next s1 busy e =>
      have h1 : Inv (s1, busy).1 := by
        rw [← e]
        refine .foldl_fst h0 fun h => ?_
        exact landOn_kept h
      exact .endRecord (.focus h1)

theorem Inv.runLanding (h : Inv s) {n a hdr sm dm bad} : Inv (s.runLanding n a hdr sm dm bad) := by
  unfold State.runLanding
  grind only [Walked.Kept, ← Inv.endRecord, ← Inv.landNow, ← Inv.setPhase, !← walkOn_kept]

theorem Inv.runGutter (h : Inv s) {n a hdr sm} : Inv (s.runGutter n a hdr sm) := by
  unfold State.runGutter
  grind only [← Inv.endRecord, ← Inv.putOwner, ← Inv.setPhase]

theorem Inv.runPlain (h : Inv s) {n a hdr sm dm bad} : Inv (s.runPlain n a hdr sm dm bad) := by
  unfold State.runPlain
  grind only [Walked.Kept, ← Inv.endRecord, ← Inv.recRelease, ← Inv.setPhase, !← walkOn_kept]

theorem copyBanks_kept (h : Inv s) {n m} : Inv (s.copyBanks n m).1 := by
  unfold State.copyBanks
  grind only [← Inv.setCtx]

theorem Inv.runWalk (h : Inv s) {n a hdr m bad} : Inv (s.runWalk n a hdr m bad) := by
  unfold State.runWalk
  grind only [← Inv.runGutter, ← Inv.runLanding, ← Inv.runPlain, ← Inv.runPublish]

theorem Inv.runMaps (h : Inv s) {n a hdr m bad} : Inv (s.runMaps n a hdr m bad) := by
  unfold State.runMaps
  grind only [← Inv.acquireAll, !← copyBanks_kept, ← Inv.endRecord, ← Inv.runWalk, ← Inv.setPhase]

theorem Inv.endZero (h : Inv s) {n a code} : Inv (s.endZero n a code) := by
  unfold State.endZero
  grind only [← Inv.copyError, ← Inv.freeReserve, ← Inv.setCtx]

theorem zeroBursts_inv (h : Inv s) {n a last vs} : Inv (zeroBursts n a last vs s) := by
  induction vs generalizing s with
  | nil => exact h.endZero
  | cons v vs ih =>
    have hr : Inv (s.reserve .copy).1 := reserve_kept h
    unfold zeroBursts
    grind only [← Inv.copyClear, ← Inv.copyFails, ← Inv.endZero, ← Inv.freeReserve, ← Inv.pmcAgent, ← Inv.setCtx]

theorem Inv.runZero (h : Inv s) {n a b} : Inv (s.runZero n a b) := zeroBursts_inv h
theorem Inv.endChain (h : Inv s) {n} : Inv (s.endChain n) := h.setCtx
theorem Inv.takeIn (h : Inv s) {n hdr m} : Inv (s.takeIn n hdr m) := h.setCtx

theorem Inv.runRecord (h : Inv s) {n bad} : Inv (s.runRecord n bad) := by
  unfold State.runRecord
  extract_lets k
  split
  · exact h
  · split
    · exact h.endChain
    · exact h.runZero
    · split
      · exact h.runMaps
      · grind only [CopyFetch.Kept, RecCheck.Kept, !← copyFetch_kept, ← Inv.endChain, ← Inv.endRecord,
          ← Inv.fetchStop, !← recMaps_kept, ← Inv.runMaps, ← Inv.takeIn]

theorem Inv.asCopier (h : Inv s) {f : State → State} (hf : ∀ {s}, Inv s → Inv (f s)) {c} : Inv (s.asCopier c f) := by
  unfold State.asCopier
  grind only [_=_ inv_iff, ← Inv.focus, ← Inv.onCtx]

theorem execTransferRecord_kept (h : Inv s) {c ch bad} : Kept (execTransferRecord c ch bad s) := by
  unfold execTransferRecord
  grind only [Kept, ← Inv.asCopier, ← Inv.runRecord]

theorem Inv.landDue (h : Inv s) {n} : Inv (s.landDue n) := by
  unfold State.landDue
  grind only [← Inv.landNow, ← Inv.lostRecord]

theorem execMulticastLanding_kept (h : Inv s) {c ch bad} : Kept (execMulticastLanding c ch bad s) := by
  unfold execMulticastLanding
  grind only [Kept, ← Inv.asCopier, ← Inv.landDue, ← Inv.runRecord]

theorem Inv.settleLandings (h : Inv s) : Inv s.settleLandings := h.foldl (fun h => h.asCopier (fun h => h.landDue))

theorem Inv.failProducer (h : Inv s) {p code} : Inv (s.failProducer p code) := by
  unfold State.failProducer
  grind only [← Inv.asCopier, ← Inv.endRecord, ← Inv.lostRecord]

theorem Inv.rxDiscard (h : Inv s) {handle reason} : Inv (s.rxDiscard handle reason) := by
  unfold State.rxDiscard
  grind only [_=_ inv_iff, ← Inv.event]

theorem execGutterClaim_kept (h : Inv s) {c g} : Kept (execGutterClaim c g s) := by
  unfold execGutterClaim
  split
  · exact h
  · split
    · exact h
    · next t _ p rest _ =>
      extract_lets g1 drop
      have hd : Inv drop := h.putCtx
      split
      · exact hd.failProducer
      · grind only [Kept, ← Inv.asCopier, ← Inv.failProducer, ← Inv.putCtx, ← Inv.rxDiscard, ← Inv.setCtx]

theorem Inv.fillFrom (h : Inv s) {c g n bad} : Inv (s.fillFrom c g n bad) := by
  unfold State.fillFrom
  grind only [Walked.Kept, !← copyBanks_kept, ← Inv.endRecord, ← Inv.lostRecord, ← Inv.mapCtx, ← Inv.recRelease,
    !← walkOn_kept]

theorem execGutterFill_kept (h : Inv s) {c g bad} : Kept (execGutterFill c g bad s) := by
  unfold execGutterFill
  grind only [Kept, ← Inv.asCopier, ← Inv.fillFrom, ← Inv.mapCtx]

theorem execCkick_kept (h : Inv s) {f} : Kept (execCkick f s) :=
  seqInstr_kept h fun h => consume_kept h fun _ => by
    grind only [SeqOut.Kept, ← Inv.setCtx]

theorem execCstop_kept (h : Inv s) {f} : Kept (execCstop f s) :=
  seqInstr_kept h fun h => by
    grind only [SeqOut.Kept, ← Inv.stopChan]

theorem execCstat_kept (h : Inv s) {f} : Kept (execCstat f s) :=
  seqInstr_kept h fun h => by
    grind only [SeqOut.Kept, !← dataTrap_kept, ← Inv.wrc]

theorem execCzero_kept (h : Inv s) {f} : Kept (execCzero f s) :=
  seqInstr_kept h fun h => consume_kept h fun _ => consume_kept h fun _ => by
    grind only [SeqOut.Kept, !← dataTrap_kept, ← Inv.setCtx]

theorem execCwaitch_kept (h : Inv s) {f} : Kept (execCwaitch f s) :=
  seqInstr_kept h fun h => by
    grind only [SeqOut.Kept]

theorem execCpfl2_kept (h : Inv s) {f} : Kept (execCpfl2 f s) :=
  seqInstr_kept h fun h => consume_kept h fun _ => consume_kept h fun _ => consume_kept h fun _ => by
    grind only [_=_ inv_iff, FailKept, SeqOut.Kept, ← Inv.foldl, ← Inv.agentFails, !← checkData_kept,
      !← dataTrap_kept, ← Inv.flushGranule, ← Inv.scopeTake, ← Inv.signalAt]

theorem execPrefetchResident_kept (h : Inv s) {c failed} : Kept (execPrefetchResident c failed s) := by
  unfold execPrefetchResident
  grind only [_=_ inv_iff, Kept, ← Inv.onCtx, ← Inv.rawWrite]

/-! ### The network endpoint -/

theorem Inv.setConn (h : Inv s) {k c} : Inv (s.setConn k c) := h

theorem execNsend_kept (h : Inv s) {f} : Kept (execNsend f s) :=
  seqInstr_kept h fun h => consume_kept h fun _ => consume_kept h fun _ => consume_kept h fun _ => by
    grind only [SeqOut.Kept, ← Inv.progressEvent, ← Inv.setCtx, ← Inv.wrc, !← prepPadWrite_kept]

theorem execNstat_kept (h : Inv s) {f} : Kept (execNstat f s) :=
  seqInstr_kept h fun h => consume_kept h fun _ => by
    grind only [SeqOut.Kept, !← dataTrap_kept, ← Inv.wrc]

theorem Inv.mapSend (h : Inv s) {n f} : Inv (s.mapSend n f) := h.setCtx

theorem execEndpointTake_kept (h : Inv s) {c slot} : Kept (execEndpointTake c slot s) := by
  unfold execEndpointTake
  grind only [Kept, ← Inv.mapSend, ← Inv.onCtx, ← Inv.setCtx]

theorem execTransmissionStart_kept (h : Inv s) {c slot} : Kept (execTransmissionStart c slot s) := by
  unfold execTransmissionStart
  grind only [_=_ inv_iff, Kept, ← Inv.emit, ← Inv.mapSend, ← Inv.onCtx]

theorem execSendAcknowledged_kept (h : Inv s) {c slot} : Kept (execSendAcknowledged c slot s) := by
  unfold execSendAcknowledged
  grind only [_=_ inv_iff, Kept, ← Inv.mapCtx]

theorem execSendFailed_kept (h : Inv s) {c slot code} : Kept (execSendFailed c slot code s) := by
  unfold execSendFailed
  grind only [_=_ inv_iff, Kept, ← Inv.mapCtx]

theorem Inv.openConn (h : Inv s) {k c} : Inv (s.openConn k c) := by
  unfold State.openConn
  grind only [_=_ inv_iff, ← Inv.setConn]

theorem reserveRun_kept (h : Inv s) {w part base v i k m} : Inv (reserveRun s w part base v i k m).1 := by
  induction m generalizing s k with
  | zero => exact h
  | succ _ ih => grind only [reserveRun, ← Inv.putRegion]

theorem Inv.unreserveHold (h : Inv s) {x} : Inv (s.unreserveHold x) := by
  unfold State.unreserveHold
  grind only [← Inv.foldl, ← Inv.putRegion]

theorem Inv.landSectors (h : Inv s) {x n} : Inv (s.landSectors x n) := by
  unfold State.landSectors
  grind only [_=_ inv_iff, ← Inv.examineAll, ← Inv.putRegion, ← Inv.rxDiscard]

theorem Inv.landRegion (h : Inv s) {x} : Inv (s.landRegion x) := by
  unfold State.landRegion
  grind only [_=_ inv_iff, ← Inv.agentFails, ← Inv.landSectors, ← Inv.rxDiscard, ← Inv.unreserveHold, ← Inv.useFree,
    !← reserveRun_kept]

theorem Inv.landMessage (h : Inv s) {handle word bytes} : Inv (s.landMessage handle word bytes) := by
  unfold State.landMessage
  grind only [_=_ inv_iff, ← Inv.landRegion, ← Inv.putOwner, ← Inv.rxDiscard]

theorem execInboundMessage_kept (h : Inv s) {handle word bytes} : Kept (execInboundMessage handle word bytes s) := by
  unfold execInboundMessage
  grind only [Kept, ← Inv.landMessage]

theorem execPtpMessage_kept (h : Inv s) {msg} : Kept (execPtpMessage msg s) := by
  unfold execPtpMessage
  grind only [_=_ inv_iff, Kept]

theorem Inv.setTimePort (h : Inv s) {port} : Inv (s.setTimePort port) := by
  unfold State.setTimePort
  grind only [_=_ inv_iff]

theorem Inv.installKey (h : Inv s) {k key} : Inv (s.installKey k key) := by
  unfold State.installKey
  grind only [_=_ inv_iff]

theorem Inv.farContribution (h : Inv s) {ident off op val} : Inv (s.farContribution ident off op val) := by
  unfold State.farContribution
  grind only [_=_ inv_iff, ← Inv.agentFails]

theorem execLinkRetired_kept (h : Inv s) {link} : Kept (execLinkRetired link s) := by
  unfold execLinkRetired
  grind only [_=_ inv_iff, Kept, ← Inv.event]

theorem execHeartbeat_kept (h : Inv s) {die} : Kept (execHeartbeat die s) := by
  unfold execHeartbeat
  grind only [Kept, ← Inv.setDie]

theorem Inv.loseDie (h : Inv s) {die} : Inv (s.loseDie die) := h

theorem execDieFailed_kept (h : Inv s) {die} : Kept (execDieFailed die s) := by
  unfold execDieFailed
  grind only [_=_ inv_iff, Kept, ← Inv.emit, ← Inv.loseDie, ← Inv.setDie]

theorem Inv.endPromotion (h : Inv s) : Inv s.endPromotion := by
  unfold State.endPromotion
  grind only [_=_ inv_iff, ← Inv.event]

/-! ### Host queues and packets -/

theorem Inv.setHq (h : Inv s) {vd q hq} : Inv (s.setHq vd q hq) := h

theorem Inv.setFunctions (h : Inv s) {n} : Inv (s.setFunctions n) := by
  unfold State.setFunctions
  grind only [_=_ inv_iff]

theorem Inv.setFeat (h : Inv s) {vd x} : Inv (s.setFeat vd x) := h

theorem Inv.hostOffer (h : Inv s) {vd q w inline} : Inv (s.hostOffer vd q w inline) := by
  unfold State.hostOffer
  grind only [_=_ inv_iff, ← Inv.setHq]

theorem execHqlaunch_kept (h : Inv s) {vd q pkt whole} : Kept (execHqlaunch vd q pkt whole s) := by
  unfold execHqlaunch
  grind only [Kept, ← Inv.event, ← Inv.hostOffer]

theorem execHqdoor_kept (h : Inv s) {vd q widx} : Kept (execHqdoor vd q widx s) := by
  unfold execHqdoor
  grind only [Kept, ← Inv.hostOffer]

theorem Inv.hqStartOp (h : Inv s) {vd q} : Inv (s.hqStartOp vd q) := by
  unfold State.hqStartOp
  grind only [_=_ inv_iff, ← Inv.setHq]

theorem Inv.hqStopOp (h : Inv s) {vd q} : Inv (s.hqStopOp vd q) := by
  unfold State.hqStopOp
  grind only [← Inv.setHq]

theorem Inv.hqClrqOp (h : Inv s) {vd q} : Inv (s.hqClrqOp vd q) := by
  unfold State.hqClrqOp
  grind only [← Inv.setHq]

theorem execHqStart_kept (h : Inv s) {vd q} : Kept (execHqStart vd q s) := by
  unfold execHqStart
  grind only [Kept, ← Inv.hqStartOp]

theorem execHqStop_kept (h : Inv s) {vd q} : Kept (execHqStop vd q s) := by
  unfold execHqStop
  grind only [Kept, ← Inv.hqStopOp]

theorem execHqClrq_kept (h : Inv s) {vd q} : Kept (execHqClrq vd q s) := by
  unfold execHqClrq
  grind only [Kept, ← Inv.hqClrqOp]

theorem Inv.hqctlWrite (h : Inv s) {vd q v} : Inv (s.hqctlWrite vd q v) := by
  unfold State.hqctlWrite
  grind only [← Inv.hqClrqOp, ← Inv.hqStartOp, ← Inv.hqStopOp, ← Inv.setHq]

theorem execAccept_kept (h : Inv s) {vd} : Kept (execAccept vd s) := by
  unfold execAccept
  grind only [Kept, ← Inv.setFeat]

theorem Inv.stopHostChans (h : Inv s) {vd} : Inv (s.stopHostChans vd) := by
  unfold State.stopHostChans
  refine h.foldl fun h => ?_
  extract_lets s1
  have h1 : Inv s1 := h.asCopier fun h => h.stopChan
  exact h1.update

theorem execFeatureReset_kept (h : Inv s) {vd} : Kept (execFeatureReset vd s) := by
  unfold execFeatureReset
  grind only [_=_ inv_iff, Kept, ← Inv.setFeat, ← Inv.stopHostChans]

theorem execHostRegisterWrite_kept (h : Inv s) {r value} : Kept (execHostRegisterWrite r value s) := by
  unfold execHostRegisterWrite
  grind only [_=_ inv_iff, Kept, ← Inv.hqctlWrite, ← Inv.setFeat, ← Inv.setHq]

theorem Inv.threadFails (h : Inv s) {vd q e} : Inv (s.threadFails vd q e) := h.agentFails

theorem threadSignal_kept (h : Inv s) {vd q a n} : Inv (s.threadSignal vd q a n).1 := by
  unfold State.threadSignal
  grind only [← Inv.signalAt, ← Inv.threadFails]

theorem Inv.notify (h : Inv s) {vd q} : Inv (s.notify vd q) := by
  unfold State.notify
  grind only [← Inv.emit, !← threadSignal_kept]

theorem Inv.joinDemoted (h : Inv s) {x} : Inv (s.joinDemoted x) := by
  unfold State.joinDemoted
  grind only [_=_ inv_iff]

theorem Inv.demote (h : Inv s) {vd q again} : Inv (s.demote vd q again) := by
  unfold State.demote
  grind only [_=_ inv_iff, ← Inv.joinDemoted, ← Inv.settleHeap]

theorem Inv.effect (h : Inv s) {vd q notify} : Inv (s.effect vd q notify) := by
  unfold State.effect
  grind only [← Inv.setHq]

theorem Inv.pass (h : Inv s) {vd q notify} : Inv (s.pass vd q notify) := by
  unfold State.pass
  grind only [← Inv.notify, ← Inv.setHq]

theorem Inv.badPacket (h : Inv s) {vd q code} : Inv (s.badPacket vd q code) := h.setHq.demote

/-- A packet keeps the form when its body does. -/
theorem packetStep_inv (h : Inv s) {body : State → Nat → PktRes} (hbody : ∀ {s n}, Inv s → (body s n).Kept)
    {kind vd q} : Inv (packetStep kind vd q body s) := by
  unfold packetStep
  grind only [PktRes.Kept, ← Inv.badPacket, ← Inv.effect, ← Inv.notify, ← Inv.pass, ← Inv.setHq, ← Inv.threadFails]

theorem execNopPacket_kept (h : Inv s) {vd q} : Kept (execNopPacket vd q s) :=
  packetStep_inv h fun h => by
    grind only [PktRes.Kept]

theorem launchRecords_kept (h : Inv s) {vd q va n t} (e : s.launchRecords vd q va n = .error t) : Inv t := by
  induction n generalizing va with
  | zero => grind only [State.launchRecords]
  | succ _ ih => grind only [State.launchRecords, ← Inv.postSteward, ← Inv.threadFails]

theorem execLaunch_kept (h : Inv s) {vd q} : Kept (execLaunch vd q s) :=
  packetStep_inv h fun h => by
    grind only [PktRes.Kept, → launchRecords_kept, ← Inv.postAll]

theorem chainSpaces_kept (h : Inv s) {vd q left head} : Inv (State.chainSpaces vd q left head s).1 := by
  induction left generalizing s head with
  | zero => exact h
  | succ left ih =>
    rw [chainSpaces_succ]
    extract_lets space
    have hs {s : State} (h : Inv s) {a} : Inv (space s a).1 := by grind only [← Inv.threadFails]
    clear_value space
    grind only [← Inv.threadFails]

theorem execCopyPacket_kept (h : Inv s) {vd q} : Kept (execCopyPacket vd q s) :=
  packetStep_inv h fun h => by
    grind only [_=_ inv_iff, PktRes.Kept, !← chainSpaces_kept, ← Inv.setHq]

theorem execSignal_kept (h : Inv s) {vd q} : Kept (execSignal vd q s) :=
  packetStep_inv h fun h => by
    grind only [PktRes.Kept, !← threadSignal_kept]

theorem execWait_kept (h : Inv s) {vd q} : Kept (execWait vd q s) :=
  packetStep_inv h fun h => by
    grind only [PktRes.Kept, ← Inv.scopeTake, ← Inv.setHq, ← Inv.threadFails]

theorem execBindPacket_kept (h : Inv s) {vd q} : Kept (execBindPacket vd q s) :=
  packetStep_inv h fun h => by
    grind only [PktRes.Kept, ← Inv.setHq]

theorem execCancelPacket_kept (h : Inv s) {vd q} : Kept (execCancelPacket vd q s) :=
  packetStep_inv h fun h => by
    grind only [PktRes.Kept, SomeKept, !← cancelLevel_kept]

theorem execFencePacket_kept (h : Inv s) {vd q} : Kept (execFencePacket vd q s) :=
  packetStep_inv h fun h => by
    grind only [PktRes.Kept]

theorem execWaitSatisfied_kept (h : Inv s) {vd q} : Kept (execWaitSatisfied vd q s) := by
  unfold execWaitSatisfied
  grind only [Kept, ← Inv.pass, ← Inv.setHq, ← Inv.threadFails]

theorem execWaitTimeout_kept (h : Inv s) {vd q} : Kept (execWaitTimeout vd q s) := by
  unfold execWaitTimeout
  grind only [Kept, ← Inv.setHq]

theorem execCopyChainEnd_kept (h : Inv s) {die ch} : Kept (execCopyChainEnd die ch s) := by
  unfold execCopyChainEnd
  grind only [_=_ inv_iff, Kept, ← Inv.notify, ← Inv.setHq]

theorem execFirmwareRestart_kept (h : Inv s) {vd q} : Kept (execFirmwareRestart vd q s) := by
  unfold execFirmwareRestart
  grind only [Kept, ← Inv.event, ← Inv.setHq]

theorem execQueueMap_kept (h : Inv s) {vd q thread} : Kept (execQueueMap vd q thread s) := by
  unfold execQueueMap
  grind only [Kept, ← Inv.setHq]

theorem execQueueUnmap_kept (h : Inv s) {vd q} : Kept (execQueueUnmap vd q s) := by
  unfold execQueueUnmap
  grind only [Kept, ← Inv.setHq]

/-! ### Scheduling and what a settled step gives -/

theorem execTaskRelease_kept (h : Inv s) {t} : Kept (execTaskRelease t s) := by
  unfold execTaskRelease
  grind only [Kept, ← Inv.examine]

theorem execHeldTaskRelease_kept (h : Inv s) {t} : Kept (execHeldTaskRelease t s) := by
  unfold execHeldTaskRelease
  grind only [Kept, ← Inv.putTask]

theorem Inv.park (h : Inv s) {t} : Inv (s.park t) := Inv.pmcAdd (.putTask (h.foldl (fun h => h.displace)))

theorem Inv.parkAll (h : Inv s) {p die} : Inv (s.parkAll p die) := by
  unfold State.parkAll
  grind only [← Inv.foldl, ← Inv.park]

theorem Inv.wakeParked (h : Inv s) {p die} : Inv (s.wakeParked p die) := h.foldl fun h => h.readyTask

theorem Inv.placeLoose (h : Inv s) {p die} : Inv (s.placeLoose p die) := by
  unfold State.placeLoose
  grind only [← Inv.foldl, ← Inv.loseCtx, ← Inv.placeCtx]

theorem Inv.evict (h : Inv s) {id} : Inv (s.evict id) := by
  unfold State.evict
  grind only [← Inv.leaveCore, ← Inv.preemptTask]

theorem Inv.evictStrangers (h : Inv s) : Inv s.evictStrangers := h.foldl fun h => h.evict
theorem Inv.stopStragglers (h : Inv s) : Inv s.stopStragglers := h.foldl fun h => h.displace

theorem Inv.offer (h : Inv s) {p die} : Inv (s.offer p die) := by
  unfold State.offer
  extract_lets s1
  have h1 : Inv s1 := h.stopStragglers.wakeParked.evictStrangers.placeLoose.select
  split
  · exact h1.parkAll.select
  · exact h1

theorem execSchedulerSelection_kept (h : Inv s) {p die} : Kept (execSchedulerSelection p die s) := by
  unfold execSchedulerSelection
  grind only [Kept, ← Inv.offer]

theorem Inv.missAction (h : Inv s) {t} : Inv (s.missAction t) := by
  unfold State.missAction
  grind only [← Inv.foldl, ← Inv.completeTask, ← Inv.post, ← Inv.raiseLevel]

theorem execDeadlineMiss_kept (h : Inv s) {t} : Kept (execDeadlineMiss t s) := by
  unfold execDeadlineMiss
  grind only [Kept, ← Inv.missAction, ← Inv.putTask]

theorem execProgress_kept (h : Inv s) {t} : Kept (execProgress t s) := by
  unfold execProgress
  grind only [Kept, ← Inv.foldl, ← Inv.completeTask, ← Inv.mapCtx, ← Inv.raiseLevel]

theorem execBudgetOverrun_kept (h : Inv s) {t} : Kept (execBudgetOverrun t s) := by
  unfold execBudgetOverrun
  grind only [Kept, ← Inv.event, ← Inv.putTask]

theorem execAdmissionEvaluation_kept (h : Inv s) {p die} : Kept (execAdmissionEvaluation p die s) := by
  unfold execAdmissionEvaluation
  grind only [_=_ inv_iff, Kept, ← Inv.admission]

theorem execQuarantineRotation_kept (h : Inv s) {die} : Kept (execQuarantineRotation die s) := by
  unfold execQuarantineRotation
  extract_lets due runs open_ s1
  have h1 : Inv s1 := h.foldl fun h => h.preemptTask
  clear_value s1
  split
  · exact h
  · split
    · exact h
    · exact .select (.select h1.update)

theorem Inv.setSlice (h : Inv s) {p x} : Inv (s.setSlice p x) := h

theorem Inv.sliceOut (h : Inv s) {till c} : Inv (State.sliceOut till s c) := by
  unfold State.sliceOut
  grind only [← Inv.leaveCore, ← Inv.mapCtx, ← Inv.post]

theorem execSliceEnd_kept (h : Inv s) {p} : Kept (execSliceEnd p s) := by
  unfold execSliceEnd
  grind only [Kept, ← Inv.foldl, ← Inv.setSlice, ← Inv.sliceOut]

theorem execSliceStart_kept (h : Inv s) {p} : Kept (execSliceStart p s) := by
  unfold execSliceStart
  grind only [Kept, ← Inv.foldl, ← Inv.setSlice, ← Inv.sliceOut]

theorem Inv.receive (h : Inv s) {w bound v} : Inv (s.receive w bound v) := by
  unfold State.receive
  grind only [← Inv.acquireAll, ← Inv.progressEvent, ← Inv.setCtx]

theorem Inv.giveEntries (h : Inv s) {pa n} : Inv (State.giveEntries pa n s) := by
  induction n generalizing s with
  | zero => exact h
  | succ n ih =>
    unfold State.giveEntries
    split
    · split
      · exact h
      · split
        · exact h
        · grind only [TryKept, ← Inv.focus, ← Inv.putCtx, ← Inv.receive, !← takeEntry_kept]
    · exact h

theorem Inv.dropStale (h : Inv s) {id} : Inv (s.dropStale id) := by
  unfold State.dropStale
  grind only [_=_ inv_iff, ← Inv.onCtx, ← Inv.unreserveAll]

theorem Inv.giveRoom (h : Inv s) {id} : Inv (s.giveRoom id) := by
  unfold State.giveRoom
  split
  · exact h
  · split
    · grind only [← Inv.putCtx, ← Inv.putRegion]
    · exact h

theorem Inv.giveChanRoom (h : Inv s) {c n} : Inv (s.giveChanRoom c n) := by
  unfold State.giveChanRoom
  grind only [← Inv.asCopier, ← Inv.runRecord]

theorem Inv.retryHold (h : Inv s) {hold} : Inv (s.retryHold hold) := by
  unfold State.retryHold
  grind only [_=_ inv_iff, ← Inv.landRegion]

theorem Inv.dropHold (h : Inv s) {hold} : Inv (s.dropHold hold) := by
  unfold State.dropHold
  grind only [_=_ inv_iff, ← Inv.rxDiscard, ← Inv.unreserveHold]

theorem Inv.giveHoldRoom (h : Inv s) {hold} : Inv (s.giveHoldRoom hold) := by
  unfold State.giveHoldRoom
  grind only [← Inv.retryHold]

theorem Inv.giveCreations (h : Inv s) : Inv s.giveCreations :=
  Inv.foldl (.foldl (.foldl (h.foldl (fun h => h.dropStale)) (fun h => h.giveRoom)) (fun h => h.giveChanRoom)) fun h
    => h.giveHoldRoom

theorem Inv.endYield (h : Inv s) {t} : Inv (s.endYield t) := by
  unfold State.endYield
  grind only [← Inv.onCtx, ← Inv.putTask, ← Inv.yieldSwitch]

theorem Inv.endYields (h : Inv s) : Inv s.endYields := h.foldl fun h => h.endYield

theorem Inv.settle (h : Inv s) : Inv s.settle := by
  unfold State.settle
  grind only [_=_ inv_iff, ← Inv.foldl, ← Inv.endYields, ← Inv.giveCreations, ← Inv.giveEntries, ← Inv.giveLoads]

/-! ### Events of a context -/

theorem Inv.forceSave (h : Inv s) : Inv s.forceSave := by
  unfold State.forceSave
  extract_lets s0 code slice c s1 s2 s3
  have h0 : Inv s0 := h.unreserveAll
  have h1 : Inv s1 := h0.update
  have h3 : Inv s3 := by grind only [← Inv.countStop, ← Inv.ctxEvent]
  exact h3.saveFocus.vacate.stopCrew.taskReady

theorem Inv.forceEnd (h : Inv s) : Inv s.forceEnd := by
  unfold State.forceEnd
  grind only [← Inv.forceSave]

theorem execForcedSave_kept (h : Inv s) {c} : Kept (execForcedSave c s) := by
  unfold execForcedSave
  grind only [Kept, ← Inv.forceEnd, ← Inv.onCtx]

theorem execTakePendingCause_kept (h : Inv s) {c} : Kept (execTakePendingCause c s) := by
  unfold execTakePendingCause
  grind only [Kept, ← Inv.onCtx, ← Inv.takePending]

theorem execBankWakeComplete_kept (h : Inv s) {c pad idx} : Kept (execBankWakeComplete c pad idx s) := h.mapCtx

theorem Inv.carryOn (h : Inv s) {go : State → State} (hgo : ∀ {s}, Inv s → Inv (go s)) {c kind met} :
    Inv (s.carryOn c kind met go) := by
  unfold State.carryOn
  grind only [← Inv.onCtx, ← Inv.unpark]

theorem execCwaitSatisfied_kept (h : Inv s) {c} : Kept (execCwaitSatisfied c s) := by
  unfold execCwaitSatisfied
  grind only [Kept, ← Inv.carryOn, ← cwaitRun_inv]

theorem Inv.deliver (h : Inv s) : Inv s.deliver := by
  unfold State.deliver
  grind only [_=_ inv_iff, QRes.Kept, ← Inv.endWait, ← Inv.fault, !← popQueue_kept, ← Inv.progressEvent, ← Inv.setCtx,
    ← qpopRun_inv]

theorem execQueueEntryDelivered_kept (h : Inv s) {c} : Kept (execQueueEntryDelivered c s) := by
  unfold execQueueEntryDelivered
  grind only [Kept, ← Inv.carryOn, ← Inv.deliver]

theorem execWaittExpiry_kept (h : Inv s) {c} : Kept (execWaittExpiry c s) := by
  unfold execWaittExpiry
  grind only [Kept, ← Inv.carryOn, ← waittRun_inv]

theorem execGwaitSatisfied_kept (h : Inv s) {c} : Kept (execGwaitSatisfied c s) := by
  unfold execGwaitSatisfied
  grind only [Kept, ← Inv.carryOn, ← gwaitRun_inv]

theorem Inv.versionAgain (h : Inv s) {c} : Inv (s.versionAgain c) := by
  unfold State.versionAgain
  grind only [← Inv.carryOn, ← vldRun_inv, ← vldsRun_inv]

theorem execVersionWaitWake_kept (h : Inv s) {c} : Kept (execVersionWaitWake c s) := by
  unfold execVersionWaitWake
  grind only [Kept, ← Inv.versionAgain]

theorem execVersionWaitRetry_kept (h : Inv s) {c} : Kept (execVersionWaitRetry c s) := by
  unfold execVersionWaitRetry
  grind only [Kept, ← Inv.versionAgain]

theorem Inv.lateRecord (h : Inv s) {ch} : Inv (s.lateRecord ch) := by
  unfold State.lateRecord
  grind only [← Inv.endRecord, ← Inv.lostRecord]

theorem execCreationRetry_kept (h : Inv s) {who} : Kept (execCreationRetry who s) := by
  unfold execCreationRetry
  grind only [Kept, ← Inv.asCopier, ← Inv.carryOn, ← Inv.dropHold, ← Inv.lateRecord, ← Inv.retryHold, ← Inv.runRecord,
    ← vstRun_inv, ← vstsRun_inv]

theorem execVersionTimeout_kept (h : Inv s) {who} : Kept (execVersionTimeout who s) := by
  unfold execVersionTimeout
  grind only [Kept, ← Inv.asCopier, ← Inv.carryOn, ← Inv.dropHold, ← Inv.fault, ← Inv.lateRecord]

/-! ### Partition commit -/

theorem Inv.enableQueues {old : State} (h : Inv s) : Inv (old.enableQueues s) := by
  unfold State.enableQueues
  grind only [← Inv.foldl, ← Inv.setQlevel]

theorem Inv.setVoff (h : Inv s) {v x} : Inv (s.setVoff v x) := h

theorem Inv.applyOffsets {old : State} (h : Inv s) : Inv (old.applyOffsets s) := by
  unfold State.applyOffsets
  grind only [← Inv.foldl, ← Inv.setVoff]

theorem Inv.pauseCtx (h : Inv s) {id} : Inv (s.pauseCtx id) := by
  unfold State.pauseCtx
  grind only [← Inv.holdCtx, ← Inv.mapCtx, ← Inv.markHeld]

theorem Inv.pauseDevice (h : Inv s) {v} : Inv (s.pauseDevice v) := by
  unfold State.pauseDevice
  grind only [_=_ inv_iff, ← Inv.foldl, ← Inv.pauseCtx]

theorem Inv.unpauseDevice (h : Inv s) {v} : Inv (s.unpauseDevice v) := by
  unfold State.unpauseDevice
  grind only [_=_ inv_iff, ← Inv.setVoff]

theorem Inv.applyPauses {old : State} (h : Inv s) : Inv (old.applyPauses s) := by
  unfold State.applyPauses
  grind only [← Inv.foldl, ← Inv.pauseDevice, ← Inv.unpauseDevice]

theorem Inv.carried (h : Inv s) {v c} : Inv (s.carried v c) := by
  unfold State.carried
  grind only [_=_ inv_iff]

theorem Inv.commitConfig (h : Inv s) {m} : Inv (s.commitConfig m) := by
  unfold State.commitConfig
  grind only [_=_ inv_iff, ← Inv.foldl, ← Inv.applyOffsets, ← Inv.applyPauses, ← Inv.enableQueues,
    ← Inv.evictStrangers, ← Inv.settleHeap]

theorem execPartitionCommit_kept (h : Inv s) : Kept (execPartitionCommit s) := by
  unfold execPartitionCommit
  grind only [_=_ inv_iff, Kept, ← Inv.commitConfig]

theorem execDeviceQuiet_kept (h : Inv s) {v} : Kept (execDeviceQuiet v s) := by
  unfold execDeviceQuiet
  grind only [_=_ inv_iff, Kept, ← Inv.pauseDevice]

/-! ### Power, errors and boot -/

theorem Inv.derate (h : Inv s) {k p old new} : Inv (s.derate k p old new) := by
  unfold State.derate
  grind only [← Inv.foldl, ← Inv.event, ← Inv.setLevel]

theorem execThermalReport_kept (h : Inv s) {k tenths} : Kept (execThermalReport k tenths s) := by
  unfold execThermalReport
  grind only [_=_ inv_iff, Kept, ← Inv.foldl, ← Inv.derate]

theorem execPowerCap_kept (h : Inv s) {watts} : Kept (execPowerCap watts s) := by
  unfold execPowerCap
  grind only [Kept, ← Inv.foldl, ← Inv.event, ← Inv.setCluster]

theorem execReservationRequest_kept (h : Inv s) {c u} : Kept (execReservationRequest c u s) := by
  unfold execReservationRequest
  grind only [Kept, ← Inv.request]

theorem Inv.setFreeze (h : Inv s) {cluster cycles} : Inv (s.setFreeze cluster cycles) := by
  unfold State.setFreeze
  grind only [← Inv.setCluster]

theorem execDroopFreezeEnd_kept (h : Inv s) {cluster} : Kept (execDroopFreezeEnd cluster s) := by
  unfold execDroopFreezeEnd
  grind only [Kept, ← Inv.setCluster]

theorem Inv.markedEvent (h : Inv s) {c code} : Inv (s.markedEvent c code) := h.event

theorem Inv.bareError (h : Inv s) {c} : Inv (s.bareError c) := by
  unfold State.bareError
  grind only [← Inv.completeTask, ← Inv.holdCtx, ← Inv.postSteward, ← Inv.useFree]

theorem execUncorrectableError_kept (h : Inv s) {where_} : Kept (execUncorrectableError where_ s) := by
  unfold execUncorrectableError
  grind only [Kept, ← Inv.bareError, ← Inv.event, ← Inv.markedEvent, ← Inv.putCtx, ← Inv.setMark, ← Inv.useFree]

theorem execWatchdog_kept (h : Inv s) {die} : Kept (execWatchdog die s) := by
  unfold execWatchdog
  grind only [Kept, ← Inv.emit, ← Inv.postSteward, ← Inv.setDie]

/-- The fourth: the memory emptied. -/
theorem Inv.cleared (h : Inv s) : Inv s.cleared := ⟨rfl, h.2⟩

theorem Inv.placeSteward (h : Inv s) : Inv s.placeSteward := by
  unfold State.placeSteward
  grind only [_=_ inv_iff, ← Inv.useFree]

theorem Inv.tested (h : Inv s) {b} : Inv (s.tested b) := by
  unfold State.tested
  grind only [_=_ inv_iff, ← Inv.cleared]

theorem Inv.bootUp (h : Inv s) {b} : Inv (s.bootUp b) := by
  unfold State.bootUp
  grind only [_=_ inv_iff, ← Inv.foldl, ← Inv.event, ← Inv.placeSteward, ← Inv.tested]

theorem Inv.factory (h : Inv s) {image r} : Inv (s.factory image r) := by
  unfold State.factory
  grind only [_=_ inv_iff]

theorem execPowerOn_kept (h : Inv s) {bist} : Kept (execPowerOn bist s) := by
  unfold execPowerOn
  grind only [Kept, ← Inv.bootUp]

theorem execRecoveryLoad_kept (h : Inv s) {vd} : Kept (execRecoveryLoad vd s) := by
  unfold execRecoveryLoad
  grind only [_=_ inv_iff, Kept]

/-- The fifth: a part of the cells kept. -/
theorem Inv.recoveryGoes (h : Inv s) {b} : Inv (s.recoveryGoes b) := by
  have hf {p} : Inv { s with mem := s.mem.filter p } := ⟨Sparse.wf_filter _ _ _ h.1, h.2⟩
  unfold State.recoveryGoes
  split
  · split
    · grind only [_=_ inv_iff]
    · split
      · exact hf
      · split
        · exact h.bootUp
        · exact h
  · exact h

theorem execRecoveryReset_kept (h : Inv s) {bist} : Kept (execRecoveryReset bist s) := by
  unfold execRecoveryReset
  grind only [Kept, ← Inv.bootUp]

/-! ### The boundary, time and chores -/

theorem boundary_kept (h : Inv s) : s.boundary.Kept := by
  unfold State.boundary
  grind only [Boundary.Kept, FailKept, ← Inv.displace, ← Inv.fault, !← fetch_kept, ← Inv.forceEnd, ← Inv.takePending]

theorem leave_kept (h : Inv s) {e} : Inv (s.leave e).1 := by
  unfold State.leave
  grind only [!← powerCourses_kept, !← reserve_kept]

theorem Inv.pmcCount (h : Inv s) {v i n} : Inv (s.pmcCount v i n) := by
  unfold State.pmcCount
  grind only [← Inv.pmcAdd]

theorem Inv.ageCounters (h : Inv s) {n} : Inv (s.ageCounters n) := by
  unfold State.ageCounters
  grind only [← Inv.foldl, ← Inv.pmcAdd, ← Inv.pmcAgent, ← Inv.pmcCount]

theorem Inv.ageTasks (h : Inv s) {n} : Inv (s.ageTasks n) := h

theorem Inv.ageOffsets (h : Inv s) {n} : Inv (s.ageOffsets n) := by
  unfold State.ageOffsets
  grind only [← Inv.foldl, ← Inv.setVoff]

theorem Inv.tick (h : Inv s) {n} : Inv (s.tick n) := by
  unfold State.tick
  grind only [_=_ inv_iff, ← Inv.ageCounters, ← Inv.ageOffsets, ← Inv.ageTasks, ← Inv.settleLandings]

theorem Inv.fillTlb (h : Inv s) {core va own} : Inv (s.fillTlb core va own) := by
  unfold State.fillTlb
  grind only [← Inv.tlbPut]

theorem Inv.hostReads (h : Inv s) {vd off} : Inv (s.hostReads vd off) := h.emit

theorem Inv.evictL1 (h : Inv s) {core line} : Inv (s.evictL1 core line) := by
  unfold State.evictL1
  grind only [← Inv.evictLine, ← Inv.onCtx]

theorem onCore_kept (h : Inv s) {core} : SomeKept (s.onCore core) := by
  unfold State.onCore
  grind only [SomeKept, ← Inv.focus]

theorem Inv.countStall (h : Inv s) {core ctr n} : Inv (s.countStall core ctr n) := by
  unfold State.countStall
  grind only [← Inv.pmcAdd]

theorem chores_kept : ∀ g ∈ s.chores, ∀ {t}, Inv t → Kept (g t) := by
  unfold State.chores
  intro g hg t h
  simp only [List.mem_append, List.mem_map] at hg
  rcases hg with (((⟨_, _, e⟩ | ⟨_, _, e⟩) | ⟨_, _, e⟩) | ⟨_, _, e⟩) | ⟨_, _, e⟩
  all_goals rw [← e]
  · exact execBankWakeComplete_kept h
  · exact execBankWakeComplete_kept h
  · exact execTransferRecord_kept h
  · exact execGutterClaim_kept h
  · exact execGutterFill_kept h

theorem wholly_kept {o : Host.Outcome State Machine.Fault Refusal} (h : Inv s) (ho : Kept o) : Kept (s.wholly o) := by
  unfold State.wholly
  grind only [Kept]

/-! ### One instruction, packet or event -/

/-- Whatever instruction, engine entry, packet or event `exec` runs, it keeps the form. -/
theorem exec_kept (h : Inv s) {i} : Kept (exec i s) := by
  cases i with
  | nop => exact execNop_kept h
  | add | sub | mul | mulh | mulhn | div | divn | rem | remn | and | or | xor | andn | shl | shr | shra | rotl
  | min | max | minn | maxn | seteq | setlt | setltn =>
    simp only [exec]
    exact alu3_kept h
  | clz | ctz | popc | sext | zext | bfx | addi | andi | ori | xori | shli | shri | shrai | lih =>
    simp only [exec]
    exact alu2_kept h
  | csel | addsh | bfi | chash =>
    simp only [exec]
    exact seqInstr_kept h (fun h => alu_kept h)
  | pois => exact execPois_kept h
  | unpois => exact execUnpois_kept h
  | li => exact execLi_kept h
  | j => exact execJ_kept h
  | jl => exact execJl_kept h
  | jr => exact execJr_kept h
  | jlr => exact execJlr_kept h
  | beq | bne | blt | bge | bltn | bgen =>
    simp only [exec]
    exact branchIf_kept h
  | loop => exact execLoop_kept h
  | halt => exact execHalt_kept h
  | yield => exact execYield_kept h
  | beat => exact execBeat_kept h
  | brk => exact execBrk_kept h
  | time => exact execTime_kept h
  | vcyc => exact execVcyc_kept h
  | waitt => exact waittRun_inv h
  | qpop => exact qpopRun_inv h
  | qpush => exact execQpush_kept h
  | qbind => exact execQbind_kept h
  | spawn => exact execSpawn_kept h
  | phase => exact execPhase_kept h
  | tkgive => exact execTkgive_kept h
  | tktake => exact execTktake_kept h
  | ld | lds =>
    simp only [exec]
    exact seqInstr_kept h (fun h => loadGlobal_kept h)
  | st =>
    simp only [exec]
    exact seqInstr_kept h (fun h => storeGlobal_kept h)
  | ldl =>
    simp only [exec]
    exact seqInstr_kept h (fun h => loadPad_kept h)
  | stl =>
    simp only [exec]
    exact seqInstr_kept h (fun h => storePad_kept h)
  | atomAdd | atomAnd | atomOr | atomXor | atomMin | atomMax | atomMinn | atomMaxn | atomSwap =>
    simp only [exec]
    exact seqInstr_kept h (fun h => atomRun_kept h)
  | cas =>
    simp only [exec]
    exact seqInstr_kept h fun h => consume_kept h fun _ => consume_kept h fun _ => consume_kept h fun _ =>
      atomBody_kept h
  | csig => exact execCsig_kept h
  | cwait => exact cwaitRun_inv h
  | cread => exact execCread_kept h
  | fence => exact execFence_kept h
  | bind => exact execBind_kept h
  | unbind => exact execUnbind_kept h
  | vregion => exact execVregion_kept h
  | vld => exact vldRun_inv h
  | vlds => exact vldsRun_inv h
  | vst => exact vstRun_inv h
  | vsts => exact vstsRun_inv h
  | vfloor => exact execVfloor_kept h
  | vnewest => exact execVnewest_kept h
  | bpol => exact execBpol_kept h
  | bwake => exact execBwake_kept h
  | bdrop => exact execBdrop_kept h
  | bstate => exact execBstate_kept h
  | gwait => exact gwaitRun_inv h
  | grel => exact execGrel_kept h
  | gstat => exact execGstat_kept h
  | lbfree => exact execLbfree_kept h
  | lbusy => exact execLbusy_kept h
  | csrr | cpfstatRead | sevlostRead =>
    simp only [exec]
    exact csrReading_kept h
  | csrw | csrs | csrc | gcfgWrite | lbdWrite | sevbaseWrite =>
    simp only [exec]
    exact csrWriting_kept h
  | ecall => exact execEcall_kept h
  | tret => exact execTret_kept h
  | sret => exact execSret_kept h
  | fwcallIdentity =>
    simp only [exec]
    exact fwCallOf_kept h (fun h => fwIdentity_kept h)
  | fwcallMeasurementLog =>
    simp only [exec]
    exact fwCall_kept h (fun h => fwLog_kept h)
  | fwcallQuote =>
    simp only [exec]
    exact fwCall_kept h (fun h => fwQuote_kept h)
  | fwcallRepairMap =>
    simp only [exec]
    exact fwCall_kept h (fun h => fwRepairMap_kept h)
  | stage2Map | stage2Unmap | moveToTier1 | moveToTier2 | setPermissions | pageRetirement =>
    simp only [exec]
    exact fwCall_kept h (fun h => fwPages_kept h)
  | windowDeclare | windowRemove =>
    simp only [exec]
    exact fwCall_kept h (fun h => fwWindow_kept h)
  | tspill => exact execTspill_kept h
  | tfill => exact execTfill_kept h
  | ctxsave => exact execCtxsave_kept h
  | ctxload => exact execCtxload_kept h
  | tlbinv => exact execTlbinv_kept h
  | zerorange => exact execZerorange_kept h
  | psync => exact execPsync_kept h
  | wdog => exact execWdog_kept h
  | dlvl => exact execDlvl_kept h
  | cancel | cancelClear =>
    simp only [exec]
    exact seqInstr_kept h (fun h => cancelBody_kept h)
  | lline => exact execLline_kept h
  | ltile => exact execLtile_kept h
  | ltrans => exact execLtrans_kept h
  | lfeed => exact execLfeed_kept h
  | lsetf => exact execLsetf_kept h
  | lwgt => exact execLwgt_kept h
  | lgath => exact execLgath_kept h
  | lmask => exact execLmask_kept h
  | lvc => exact execLvc_kept h
  | lzero =>
    simp only [exec]
    exact engineInstr_kept h (fun h => lWork_kept h (fun h => putTile_inv h))
  | xmma | xmmam | xspmm =>
    simp only [exec]
    exact engineInstr_kept h (fun h => xMacro_kept h)
  | xswap => exact execXswap_kept h
  | xshape => exact execXshape_kept h
  | xclr => exact execXclr_kept h
  | xbias => exact execXbias_kept h
  | vadd | vsub | vmul | vfma | vfms | vfnma | vmin | vmax | vabs | vneg | vand | vor | vxor | vnot | vshl
  | vshr | vshra | vexp2 | vlog2 | vrcp | vrsq | vtanh | vmov =>
    simp only [exec]
    exact vElem_kept h
  | vrsh | vsel | vscanadd | vbcast | vperm | viota | vacc | vpois | vhash =>
    simp only [exec]
    exact vTile_kept h
  | vcmpeq | vcmpne | vcmplt | vcmple =>
    simp only [exec]
    exact vCompare_kept h
  | vcvt => exact execVcvt_kept h
  | vredsum | vredmax | vredmin =>
    simp only [exec]
    exact vReduce_kept h
  | vgets => exact execVgets_kept h
  | vsets => exact execVsets_kept h
  | vkand | vkor | vkxor | vknot =>
    simp only [exec]
    exact vMaskOp_kept h
  | vkpopc | vkfirst =>
    simp only [exec]
    exact vMaskScalar_kept h
  | sline | stile | strans =>
    simp only [exec]
    exact engineInstr_kept h (fun h => sTile_kept h)
  | sacc => exact execSacc_kept h
  | ckick => exact execCkick_kept h
  | cstop => exact execCstop_kept h
  | cstat => exact execCstat_kept h
  | cpfl2 => exact execCpfl2_kept h
  | czero => exact execCzero_kept h
  | cwaitch => exact execCwaitch_kept h
  | nsend => exact execNsend_kept h
  | nstat => exact execNstat_kept h
  | hqlaunch => exact execHqlaunch_kept h
  | hqdoor => exact execHqdoor_kept h
  | hqStart => exact execHqStart_kept h
  | hqStop => exact execHqStop_kept h
  | hqClrq => exact execHqClrq_kept h
  | accept => exact execAccept_kept h
  | featureReset => exact execFeatureReset_kept h
  | recoveryLoad => exact execRecoveryLoad_kept h
  | recoveryReset => exact execRecoveryReset_kept h
  | hostRegisterWrite => exact execHostRegisterWrite_kept h
  | nopPacket => exact execNopPacket_kept h
  | launch => exact execLaunch_kept h
  | copyPacket => exact execCopyPacket_kept h
  | signal => exact execSignal_kept h
  | wait => exact execWait_kept h
  | bindPacket => exact execBindPacket_kept h
  | cancelPacket => exact execCancelPacket_kept h
  | fencePacket => exact execFencePacket_kept h
  | waitSatisfied => exact execWaitSatisfied_kept h
  | waitTimeout => exact execWaitTimeout_kept h
  | copyChainEnd => exact execCopyChainEnd_kept h
  | firmwareRestart => exact execFirmwareRestart_kept h
  | queueMap => exact execQueueMap_kept h
  | queueUnmap => exact execQueueUnmap_kept h
  | taskRelease => exact execTaskRelease_kept h
  | heldTaskRelease => exact execHeldTaskRelease_kept h
  | schedulerSelection => exact execSchedulerSelection_kept h
  | deadlineMiss => exact execDeadlineMiss_kept h
  | progress => exact execProgress_kept h
  | budgetOverrun => exact execBudgetOverrun_kept h
  | admissionEvaluation => exact execAdmissionEvaluation_kept h
  | quarantineRotation => exact execQuarantineRotation_kept h
  | sliceEnd => exact execSliceEnd_kept h
  | sliceStart => exact execSliceStart_kept h
  | forcedSave => exact execForcedSave_kept h
  | takePendingCause => exact execTakePendingCause_kept h
  | bankWakeComplete => exact execBankWakeComplete_kept h
  | cwaitSatisfied => exact execCwaitSatisfied_kept h
  | queueEntryDelivered => exact execQueueEntryDelivered_kept h
  | waittExpiry => exact execWaittExpiry_kept h
  | gwaitSatisfied => exact execGwaitSatisfied_kept h
  | versionWaitWake => exact execVersionWaitWake_kept h
  | versionWaitRetry => exact execVersionWaitRetry_kept h
  | creationRetry => exact execCreationRetry_kept h
  | versionTimeout => exact execVersionTimeout_kept h
  | transferRecord => exact execTransferRecord_kept h
  | gutterClaim => exact execGutterClaim_kept h
  | gutterFill => exact execGutterFill_kept h
  | multicastLanding => exact execMulticastLanding_kept h
  | prefetchResident => exact execPrefetchResident_kept h
  | endpointTake => exact execEndpointTake_kept h
  | transmissionStart => exact execTransmissionStart_kept h
  | sendAcknowledged => exact execSendAcknowledged_kept h
  | inboundMessage => exact execInboundMessage_kept h
  | ptpMessage => exact execPtpMessage_kept h
  | reductionGroup =>
    simp only [exec]
    exact h.performContribs
  | linkRetired => exact execLinkRetired_kept h
  | heartbeat => exact execHeartbeat_kept h
  | dieFailed => exact execDieFailed_kept h
  | partitionCommit => exact execPartitionCommit_kept h
  | deviceQuiet => exact execDeviceQuiet_kept h
  | thermalReport => exact execThermalReport_kept h
  | powerCap => exact execPowerCap_kept h
  | reservationRequest => exact execReservationRequest_kept h
  | reservationGrant =>
    simp only [exec]
    exact h.grant
  | droop =>
    simp only [exec]
    exact h.setCluster
  | droopFreezeEnd => exact execDroopFreezeEnd_kept h
  | uncorrectableError => exact execUncorrectableError_kept h
  | watchdog => exact execWatchdog_kept h
  | powerOn => exact execPowerOn_kept h
  | sendFailed => exact execSendFailed_kept h

/-! ### The step -/

theorem sequencerStep_kept (h : Inv s) : Kept (sequencerStep s) := by
  unfold sequencerStep
  grind only [_=_ inv_iff, Boundary.Kept, Kept, !← boundary_kept, !← exec_kept]

theorem engineStep_kept (h : Inv s) {e} : Kept (engineStep e s) := by
  unfold engineStep
  grind only [_=_ inv_iff, Kept, !← leave_kept, !← exec_kept]

/-- A move that the step is told to make keeps the form; `hostStore` is where the host's memory is written. -/
theorem turnStep_kept (h : Inv s) {t} : Kept (turnStep t s) := by
  induction t generalizing s with
  | part u ih =>
    have hp : Inv { s with parts := true } := h
    exact ih hp
  | hostStore a bs => exact ⟨h.1, Sparse.wf_setList _ _ _ _ h.2⟩
  | _ => grind only [turnStep, _=_ inv_iff, Kept, SomeKept, ← Inv.carried, ← Inv.countStall, ← Inv.endPromotion,
    ← Inv.evictL1, ← Inv.factory, ← Inv.farContribution, ← Inv.fillTlb, ← Inv.fillWalks, ← Inv.hostReads,
    ← Inv.installKey, !← onCore_kept, ← Inv.openConn, ← Inv.recoveryGoes, ← Inv.setFreeze, ← Inv.setFunctions,
    ← Inv.setHq, ← Inv.setTimePort, ← Inv.tick, !← engineStep_kept, !← exec_kept, !← sequencerStep_kept]

theorem progressOf_kept {o : Host.Outcome State Machine.Fault Refusal} (ho : Kept o) : SomeKept (progressOf s o) := by
  unfold progressOf
  grind only [SomeKept, Kept]

/-- So does the step that the state takes by itself: an engine entry, a chore, or the next instruction. -/
theorem defaultStep_kept (h : Inv s) : Kept (defaultStep s) := by
  have hs : Kept (s.wholly (sequencerStep s)) := wholly_kept h (sequencerStep_kept h)
  unfold defaultStep
  split
  · next s1 e =>
    obtain ⟨e, -, he⟩ := List.exists_of_findSome?_eq_some e
    split at he
    · cases he
    · have hp : SomeKept (progressOf s (s.wholly (engineStep e s))) :=
        progressOf_kept (wholly_kept h (engineStep_kept h))
      rw [he] at hp
      exact hp
  · split
    · next s1 e =>
      obtain ⟨g, hg, he⟩ := List.exists_of_findSome?_eq_some e
      have hp : SomeKept (progressOf s (s.wholly (g s))) := progressOf_kept (wholly_kept h (chores_kept g hg h))
      rw [he] at hp
      exact hp
    · grind only [Kept, ← Inv.focus]

theorem settled_kept {o : Host.Outcome State Machine.Fault Refusal} (ho : Kept o) : Kept (settled o) := by
  unfold settled
  grind only [_=_ inv_iff, Kept, ← Inv.settle]

/-- So does every step. -/
theorem step_kept (h : Inv s) : Kept (step s) := by
  unfold step
  grind only [_=_ inv_iff, Kept, ← Inv.focus, !← wholly_kept, !← defaultStep_kept, !← settled_kept, !← turnStep_kept]

/-- Settles O58: every step keeps the canonical form of both memories (`step_kept`), so a step that answers a next
state answers one in that form. -/
theorem stepKeepsCanonicalMemory : Obligations.StepKeepsCanonicalMemory := by
  intro s t h e
  have hs : Kept (step s) := step_kept h
  rw [e] at hs
  exact hs

end Sys2Proof
end

section
/-! # Engine words are queued and move tokens (O21, O23)

Every engine word has one shape (`IsWord`): the sequencer forwards it, an engine gives its entry a turn. `exec_isWord`
says so once for all of them; the two statements follow from what forwarding and a turn do. -/

namespace Sys2Proof.Machine

/-! ### Tokens -/

/-- The counts of a list of eight. -/
theorem Fifos.at_fifosOf (l : List Nat) {n : Nat} (h : n < 8) : (fifosOf l).at n = l.getD n 0 := by
  interval_cases n <;> rfl

/-- A replaced count, and the others. -/
theorem Fifos.at_put (f : Fifos) (m v : Nat) {n : Nat} (h : n < 8) :
    (f.put m v).at n = if n = m then v else f.at n := by
  have hl : n < f.list.length := h
  rw [Fifos.put, Fifos.at_fifosOf _ h, Fifos.at]
  by_cases e : n = m
  · subst e; simp [List.getD_eq_getElem?_getD, hl]
  · simp [List.getD_eq_getElem?_getD, List.getElem?_set_ne (Ne.symm e), e]

/-- Each of several counts replaced once. -/
theorem Fifos.at_foldl_put (g : Nat → Nat) {ns : List Nat} (hn : ns.Nodup) (f : Fifos) {n : Nat} (h : n < 8) :
    (ns.foldl (fun f m => f.put m (g (f.at m))) f).at n = if n ∈ ns then g (f.at n) else f.at n := by
  induction ns generalizing f with
  | nil => rfl
  | cons m ms ih =>
    obtain ⟨hm, hms⟩ := List.nodup_cons.mp hn
    rw [List.foldl_cons, ih hms, Fifos.at_put _ _ _ h]
    by_cases e : n = m
    · subst e; simp [hm]
    · simp [e]

theorem pick_sublist (b : Bool) (n : Nat) : (if b then [n] else []).Sublist [n] := by
  cases b with
  | false => exact List.nil_sublist _
  | true => exact List.Sublist.refl _

/-- The FIFOs that an entry pops are of the eight, each named once. -/
theorem popsOf_sublist (e : Eng) (t : Tok) : (popsOf e t).Sublist (List.range 8) := by
  cases e with
  | l | x | v => exact ((pick_sublist _ _).append (pick_sublist _ _)).trans (by decide)
  | s => exact (pick_sublist _ _).trans (by decide)

/-- So are those that it pushes. -/
theorem pushesOf_sublist (e : Eng) (t : Tok) : (pushesOf e t).Sublist (List.range 8) := by
  cases e with
  | l | x | v => exact ((pick_sublist _ _).append (pick_sublist _ _)).trans (by decide)
  | s => exact (pick_sublist _ _).trans (by decide)

/-- No pop where a FIFO named is empty. -/
theorem Fifos.pop_empty {f : Fifos} {ns : List Nat} (h : ∃ n ∈ ns, f.at n = 0) : f.pop ns = none := by
  obtain ⟨n, hn, h0⟩ := h
  exact if_neg fun ha => by simpa [h0] using List.all_eq_true.mp ha n hn

/-- A pop takes one token of each FIFO named. -/
theorem Fifos.pop_there {f : Fifos} {ns : List Nat} (hn : ns.Nodup) (h : ∀ n ∈ ns, 0 < f.at n) :
    ∃ g, f.pop ns = some g ∧ ∀ n < 8, g.at n = if n ∈ ns then f.at n - 1 else f.at n :=
  ⟨_, if_pos (List.all_eq_true.mpr fun n hm => by simpa using (h n hm).ne'),
    fun _ h8 => Fifos.at_foldl_put (fun c => c - 1) hn f h8⟩

/-- No push where a FIFO named is full. -/
theorem Fifos.push_full {f : Fifos} {ns : List Nat} (h : ∃ n ∈ ns, 8 ≤ f.at n) : f.push ns = none := by
  obtain ⟨n, hn, h8⟩ := h
  refine if_neg fun ha => ?_
  have hlt : f.at n < 8 := of_decide_eq_true (List.all_eq_true.mp ha n hn)
  omega

/-- A push gives one token to each FIFO named. -/
theorem Fifos.push_room {f : Fifos} {ns : List Nat} (hn : ns.Nodup) (h : ∀ n ∈ ns, f.at n < 8) :
    ∃ g, f.push ns = some g ∧ ∀ n < 8, g.at n = f.at n + if n ∈ ns then 1 else 0 := by
  refine ⟨_, if_pos (List.all_eq_true.mpr fun n hm => decide_eq_true (h n hm)), fun n h8 => ?_⟩
  rw [Fifos.at_foldl_put (fun c => c + 1) hn f h8]
  split <;> rfl

/-! ### Queues -/

@[simp] theorem RegBank.queue_setQueue (b : RegBank) (e : Eng) (q : List Entry) : (b.setQueue e q).queue e = q := by
  cases e <;> rfl

@[simp] theorem RegBank.fifo_setQueue (b : RegBank) (e : Eng) (q : List Entry) : (b.setQueue e q).fifo = b.fifo := by
  cases e <;> rfl

@[simp] theorem RegBank.s_setQueue (b : RegBank) (e : Eng) (q : List Entry) : (b.setQueue e q).s = b.s := by
  cases e <;> rfl

@[simp] theorem RegBank.vc_setQueue (b : RegBank) (e : Eng) (q : List Entry) : (b.setQueue e q).vc = b.vc := by
  cases e <;> rfl

@[simp] theorem RegBank.ashape_setQueue (b : RegBank) (e : Eng) (q : List Entry) :
    (b.setQueue e q).ashape = b.ashape := by
  cases e <;> rfl

/-- Replaces the counts of the FIFOs. -/
def RegBank.setFifo (b : RegBank) (f : Fifos) : RegBank := { b with fifo := f }

@[simp] theorem RegBank.fifo_setFifo (b : RegBank) (f : Fifos) : (b.setFifo f).fifo = f := rfl
@[simp] theorem RegBank.s_setFifo (b : RegBank) (f : Fifos) : (b.setFifo f).s = b.s := rfl
@[simp] theorem RegBank.vc_setFifo (b : RegBank) (f : Fifos) : (b.setFifo f).vc = b.vc := rfl
@[simp] theorem RegBank.ashape_setFifo (b : RegBank) (f : Fifos) : (b.setFifo f).ashape = b.ashape := rfl

@[simp] theorem RegBank.queue_setFifo (b : RegBank) (f : Fifos) (e : Eng) : (b.setFifo f).queue e = b.queue e := by
  cases e <;> rfl

/-- No entry with pushes owed stands before a head that owes none. -/
theorem RegBank.lead_head {b : RegBank} {e : Eng} {en : Entry} {q : List Entry} (hq : b.queue e = en :: q)
    (h : en.pushOwed = false) : b.lead e = 0 := by
  cases e with
  | x =>
    have hx : b.qX = en :: q := hq
    simp [RegBank.lead, hx, h]
  | _ => rfl

/-- The entry under way is the head where none stands before it. -/
theorem State.setHead_head {s : State} {e : Eng} (h : s.bank.lead e = 0) (en : Entry) :
    s.setHead e en = s.setBank (s.bank.setQueue e (en :: (s.bank.queue e).tail)) := by
  simp [State.setHead, h]

/-! ### The current an entry held -/

theorem State.freeReserve_eq (s : State) (u : PowerUnit) : ∃ c, s.freeReserve u = { s with clusters := c } := by
  unfold State.freeReserve
  dsimp only
  split
  · exact ⟨_, rfl⟩
  · exact ⟨s.clusters, rfl⟩

/-- Only the clusters' reservations change as an entry frees its current (R341). -/
theorem State.freeCurrent_eq (s : State) (e : Eng) : ∃ c, s.freeCurrent e = { s with clusters := c } := by
  cases e with
  | x => exact s.freeReserve_eq .x
  | v => exact s.freeReserve_eq .v
  | _ => exact ⟨s.clusters, rfl⟩

/-! ### Pushes -/

/-- The running bank after an entry's pushes, or with them owed (R147). -/
def RegBank.pushed (b : RegBank) (e : Eng) (en : Entry) (tok : Tok) : RegBank :=
  match b.fifo.push (pushesOf e tok) with
  | some f => (b.setQueue e (b.queue e).tail).setFifo f
  | none => b.setQueue e ({ en with popsTaken := true, pushOwed := true, sPend := false } :: (b.queue e).tail)

/-- An entry's pushes change the running bank and the reservations only. -/
theorem pushOut_eq (e : Eng) (en : Entry) (tok : Tok) (s : State) :
    ∃ c, pushOut e en tok s = { s.setBank (s.bank.pushed e en tok) with clusters := c } := by
  obtain ⟨c, hc⟩ := s.freeCurrent_eq e
  refine ⟨c, ?_⟩
  simp only [pushOut, RegBank.pushed, hc]
  have hb : ({ s with clusters := c } : State).bank = s.bank := rfl
  rw [hb]
  cases s.bank.fifo.push (pushesOf e tok) <;> rfl

/-- With room an entry pushes one token into each FIFO it names and leaves its queue. -/
theorem RegBank.pushed_room {b : RegBank} {e : Eng} {tok : Tok} (h : ∀ n ∈ pushesOf e tok, b.fifo.at n < 8) (en : Entry) :
    ∃ f, b.pushed e en tok = (b.setQueue e (b.queue e).tail).setFifo f ∧
      ∀ n < 8, f.at n = b.fifo.at n + if n ∈ pushesOf e tok then 1 else 0 := by
  obtain ⟨f, hf, hat⟩ := Fifos.push_room (List.nodup_range.sublist (pushesOf_sublist e tok)) h
  exact ⟨f, by simp [RegBank.pushed, hf], hat⟩

/-- Without room an entry stays at the head with its pushes owed. -/
theorem RegBank.pushed_full {b : RegBank} {e : Eng} {tok : Tok} (h : ∃ n ∈ pushesOf e tok, 8 ≤ b.fifo.at n) (en : Entry) :
    b.pushed e en tok =
      b.setQueue e ({ en with popsTaken := true, pushOwed := true, sPend := false } :: (b.queue e).tail) := by
  simp [RegBank.pushed, Fifos.push_full h]

/-- Either way the scalars, VC and ASHAPE stay. -/
theorem RegBank.pushed_keeps (b : RegBank) (e : Eng) (en : Entry) (tok : Tok) :
    (b.pushed e en tok).s = b.s ∧ (b.pushed e en tok).vc = b.vc ∧ (b.pushed e en tok).ashape = b.ashape := by
  unfold RegBank.pushed
  split
  · simp
  · simp

section
variable {s : State} {e : Eng} {en : Entry} {q : List Entry} {tok : Tok}

theorem pushOut_bank : (pushOut e en tok s).bank = s.bank.pushed e en tok := by
  obtain ⟨c, hc⟩ := pushOut_eq e en tok s
  rw [hc]
  exact State.bank_setBank _ _

/-- What a turn that ends in an entry's pushes leaves alone. -/
theorem pushOut_frame (e : Eng) (en : Entry) (tok : Tok) (s : State) :
    (pushOut e en tok s).acting = s.acting ∧ (pushOut e en tok s).mem = s.mem ∧
    (pushOut e en tok s).ctx.tiles = s.ctx.tiles ∧ (pushOut e en tok s).ctx.acc = s.ctx.acc ∧
    (pushOut e en tok s).ctx.pad = s.ctx.pad ∧ (pushOut e en tok s).ctx.pc = s.ctx.pc := by
  obtain ⟨c, hc⟩ := pushOut_eq e en tok s
  simp [hc]

theorem pushOut_room (hq : s.bank.queue e = en :: q) (h : ∀ n ∈ pushesOf e tok, s.bank.fifo.at n < 8) :
    (pushOut e en tok s).bank.queue e = q ∧
    ∀ n < 8, (pushOut e en tok s).bank.fifo.at n = s.bank.fifo.at n + if n ∈ pushesOf e tok then 1 else 0 := by
  obtain ⟨f, hb, hat⟩ := RegBank.pushed_room h en
  rw [pushOut_bank, hb]
  exact ⟨by simp [hq], hat⟩

theorem pushOut_full (hq : s.bank.queue e = en :: q) (h : ∃ n ∈ pushesOf e tok, 8 ≤ s.bank.fifo.at n) :
    (pushOut e en tok s).bank.fifo = s.bank.fifo ∧
    ∃ en1, (pushOut e en tok s).bank.queue e = en1 :: q ∧ en1.pushOwed = true ∧ en1.instr = en.instr := by
  rw [pushOut_bank, RegBank.pushed_full h]
  refine ⟨by simp, { en with popsTaken := true, pushOwed := true, sPend := false }, ?_, rfl, rfl⟩
  simp [hq]

/-! ### An entry that only moves tokens -/

/-- An entry once its pops are taken. -/
def Entry.begun (en : Entry) : Entry := { en with popsTaken := true, stall := .none }

/-- The state in which an entry's work starts: its pops are taken. -/
def State.popped (s : State) (e : Eng) (en : Entry) (f : Fifos) : State :=
  (s.setBank (s.bank.setFifo f)).setHead e en.begun

/-- An entry at the head that has no pushes owed is the one under way: it stays there as its pops are taken. -/
theorem State.popped_head (hq : s.bank.queue e = en :: q)
    (h : en.pushOwed = false) (f : Fifos) :
    s.popped e en f = s.setBank ((s.bank.setFifo f).setQueue e (en.begun :: q)) := by
  have hb : (s.setBank (s.bank.setFifo f)).bank.queue e = en :: q := by simp [hq]
  rw [State.popped, State.setHead_head (RegBank.lead_head hb h)]
  simp [hq]

/-- The turn of an entry without work, performed whole: its pops are taken, then it pushes. -/
theorem engineRun_tokens (hq : s.bank.queue e = en :: q) (hw : s.parts = false) (h0 : en.late = [])
    (h : en.pushOwed = false) (hp : en.popsTaken = false) {f : Fifos} (hf : s.bank.fifo.pop (popsOf e tok) = some f) :
    engineRun e en tok none (fun _ s => .done s) s =
      pushOut e en.begun tok (s.setBank ((s.bank.setFifo f).setQueue e (en.begun :: q))) := by
  rw [← State.popped_head hq h f, engineRun_work h0 h (by simpa [hp] using hf)]
  refine State.complete_whole (s := s.popped e en f) hw ?_ _ _ _
  rw [State.popped_head hq h, State.bank_setBank]
  exact RegBank.lead_head (RegBank.queue_setQueue _ _ _) h

/-- Where it has its tokens and room for its pushes it moves them and leaves its queue (R147). -/
theorem engineRun_moved (hq : s.bank.queue e = en :: q) (hw : s.parts = false) (h0 : en.late = [])
    (h : en.pushOwed = false) (hp : en.popsTaken = false) (hpop : ∀ n ∈ popsOf e tok, 0 < s.bank.fifo.at n)
    (hpush : ∀ n ∈ pushesOf e tok, s.bank.fifo.at n < 8) :
    let t := engineRun e en tok none (fun _ s => .done s) s
    t.acting = s.acting ∧ t.mem = s.mem ∧ t.ctx.tiles = s.ctx.tiles ∧ t.ctx.acc = s.ctx.acc ∧ t.ctx.pad = s.ctx.pad ∧
    t.bank.s = s.bank.s ∧ t.bank.vc = s.bank.vc ∧ t.bank.ashape = s.bank.ashape ∧ t.bank.queue e = q ∧
    ∀ n < 8, t.bank.fifo.at n + (if n ∈ popsOf e tok then 1 else 0) =
      s.bank.fifo.at n + (if n ∈ pushesOf e tok then 1 else 0) := by
  obtain ⟨f, hf, hat⟩ := Fifos.pop_there (List.nodup_range.sublist (popsOf_sublist e tok)) hpop
  rw [engineRun_tokens hq hw h0 h hp hf]
  generalize hb : (s.bank.setFifo f).setQueue e (en.begun :: q) = b
  have hbf : b.fifo = f := by simp [← hb]
  have hbq : (s.setBank b).bank.queue e = en.begun :: q := by simp [← hb]
  have hroom : ∀ n ∈ pushesOf e tok, (s.setBank b).bank.fifo.at n < 8 := fun n hn => by
    have hs := hpush n hn
    rw [State.bank_setBank, hbf, hat n (List.mem_range.mp ((pushesOf_sublist e tok).subset hn))]
    split <;> omega
  obtain ⟨hact, hmem, htiles, hacc, hpad, -⟩ := pushOut_frame e en.begun tok (s.setBank b)
  obtain ⟨hscal, hvc, hshape⟩ := RegBank.pushed_keeps b e en.begun tok
  obtain ⟨hqueue, hfifo⟩ := pushOut_room hbq hroom
  refine ⟨hact, hmem, htiles.trans (by simp), hacc.trans (by simp), hpad.trans (by simp), ?_, ?_, ?_, hqueue, fun n hn => ?_⟩
  · rw [pushOut_bank, State.bank_setBank, hscal, ← hb]; simp
  · rw [pushOut_bank, State.bank_setBank, hvc, ← hb]; simp
  · rw [pushOut_bank, State.bank_setBank, hshape, ← hb]; simp
  · rw [hfifo n hn, State.bank_setBank, hbf, hat n hn]
    by_cases hm : n ∈ popsOf e tok
    · have hpos := hpop n hm
      simp only [hm, if_true]
      omega
    · simp [hm]

end

section
variable {s : State}

theorem State.clean_cons {r : Reg} {rs : List Reg} : s.Clean (r :: rs) ↔ (s.rd r).pois = false ∧ s.Clean rs :=
  List.forall_mem_cons

theorem State.clean_append {as bs : List Reg} : s.Clean (as ++ bs) ↔ s.Clean as ∧ s.Clean bs :=
  List.forall_mem_append

theorem State.Plain.mono {rs srcs : List Reg} (h : s.Plain rs) (hs : srcs ⊆ rs) : s.Plain srcs :=
  ⟨fun r hr => h.1 r (hs hr), fun r hr => h.2 r (hs hr)⟩

/-! ### What the sequencer reads of a word that may be queued -/

/-- A read that succeeds goes on. -/
theorem ok_bind {ε α β : Type} (a : α) (f : α → Except ε β) : (.ok a >>= f) = f a := rfl

theorem engAddr_eq (s : State) (a : Reg) (off : BitVec 16) :
    Say.engAddr s a off = (s.rd a).bits + off.signExtend 64 := by
  apply BitVec.eq_of_toInt_eq
  rw [Say.engAddr, BitVec.toInt_add, BitVec.toInt_signExtend_of_le (by decide), BitVec.toInt_ofInt]

theorem engineAddr_clean {a : Reg} (h : (s.rd a).pois = false) (off : BitVec 16) :
    s.engineAddr a off = .ok (Say.engAddr s a off) := by
  simp [State.engineAddr, h, engAddr_eq]

theorem index_clean {b : Bool} {x : BitVec 6} (h : s.Clean (if b then [x] else [])) :
    s.index b x = .ok (Say.carriedIx s b x) := by
  cases b with
  | false => rfl
  | true =>
    have hx : (s.rd x).pois = false := h x (List.mem_singleton_self x)
    simp [State.index, Say.carriedIx, hx]

theorem padRange_inPad {ad : Word} {al n : Nat} (h : Say.InPad s ad al n) : s.padRange ad al n = .ok false := by
  obtain ⟨ha, hn⟩ := h
  have hr : ¬ (n ≠ 0 ∧ s.ctx.spSize < ad.toNat + n) := by
    have hs : s.ctx.spSize = 16384 * s.ctx.spbanks := rfl
    omega
  simp [State.padRange, ha, hr]

theorem tileWritable_open {t : Nat} (h : s.ctx.tileProtected t = false) : s.tileWritable t = .ok () := by
  simp [State.tileWritable, h]

theorem planeWritable_open {p : Nat} (h : s.ctx.planeProtected p = false) : s.planeWritable p = .ok () := by
  simp [State.planeWritable, h]

theorem arrayWritable_base (h : s.ctx.inHandler = false) : s.arrayWritable = .ok () := by
  simp [State.arrayWritable, h]

theorem scalarDst_unbound {r : Reg} (h : s.ctx.boundSlot r = none) : scalarDst s r = .ok (r != 0#6) := by
  simp [scalarDst, h]

theorem lRead_ok {f : FLN} {n : Nat} {dst : Option Nat} {arr : Bool} (hc : s.Clean (f.a :: lineRegs f.line))
    (hr : Say.InPad s (Say.engAddr s f.a f.off) 64 n) (hd : ∀ t ∈ dst, s.ctx.tileProtected t = false)
    (ha : arr = true → s.ctx.inHandler = false) :
    lRead f n dst arr s = .ok { Taken.none_ with
      val := Say.engAddr s f.a f.off, i1 := Say.carriedIx s f.line.fromReg f.line.idx } := by
  obtain ⟨hp, hl⟩ := State.clean_cons.mp hc
  rw [lRead, engineAddr_clean hp, ok_bind, index_clean hl, ok_bind, padRange_inPad hr, ok_bind]
  cases dst with
  | none => cases arr with
    | false => rfl
    | true => rw [arrayWritable_base (ha rfl)]; rfl
  | some t =>
    dsimp only
    rw [tileWritable_open (hd t rfl)]
    cases arr with
    | false => rfl
    | true => rw [arrayWritable_base (ha rfl)]; rfl

theorem lValue_ok {f : FLN} {arr : Bool} (hp : (s.rd f.a).pois = false) (ha : arr = true → s.ctx.inHandler = false) :
    lValue f arr s = .ok { Taken.none_ with val := Say.engAddr s f.a f.off } := by
  rw [lValue, engineAddr_clean hp]
  cases arr with
  | false => rfl
  | true => rw [arrayWritable_base (ha rfl)]; rfl

theorem sRead_ok {b : Bool} {x : BitVec 6} {a : Reg} {off : BitVec 16} {al : Nat} {n : State → Nat}
    (hp : (s.rd a).pois = false) (hx : s.Clean (if b then [x] else []))
    (hr : Say.InPad s (Say.engAddr s a off) al (n s)) :
    sRead b x a off al n s = .ok { Taken.none_ with val := Say.engAddr s a off, i1 := Say.carriedIx s b x } := by
  rw [sRead, engineAddr_clean hp, ok_bind, index_clean hx, ok_bind, padRange_inPad hr]; rfl

theorem xRead_ok {f : FXM} (hw : s.ctx.planeProtected (b2n f.p) = false)
    (ha : xmFeed f = true → s.ctx.inHandler = false) : xRead f s = .ok Taken.none_ := by
  rw [xRead, planeWritable_open hw]
  cases h : xmFeed f with
  | false => rfl
  | true => rw [arrayWritable_base (ha h)]; rfl

theorem v3Read_ok {f : FV3} (hc : s.Clean (Say.v3Names f)) (hw : s.ctx.tileProtected f.dst.tile.toNat = false) :
    v3Read f s = .ok (Say.v3Carried s f) := by
  obtain ⟨h12, hd⟩ := State.clean_append.mp hc
  obtain ⟨h1, h2⟩ := State.clean_append.mp h12
  rw [v3Read, index_clean h1, index_clean h2, index_clean hd, tileWritable_open hw]; rfl

theorem vcRead_ok {f : FVC} (hc : s.Clean (lineRegs f.src ++ dlineRegs f.dst))
    (hw : s.ctx.tileProtected f.dst.tile.toNat = false) :
    vcRead f s = .ok { Taken.none_ with
      i1 := Say.carriedIx s f.src.fromReg f.src.idx, idst := Say.carriedIx s f.dst.fromReg f.dst.idx } := by
  obtain ⟨h1, hd⟩ := State.clean_append.mp hc
  rw [vcRead, index_clean h1, index_clean hd, tileWritable_open hw]; rfl

theorem vxRead_ok {f : FVX} (hc : s.Clean (f.s :: lineRegs f.line))
    (hw : s.ctx.tileProtected f.line.tile.toNat = false) :
    vxRead f s = .ok { Taken.none_ with
      val := (s.rd f.s).bits, idst := Say.carriedIx s f.line.fromReg f.line.idx } := by
  obtain ⟨hp, hl⟩ := State.clean_cons.mp hc
  rw [vxRead, index_clean hl, tileWritable_open hw]
  simp only [hp]; rfl

/-! ### The queue of a word -/

/-- What stands in its queue of a word that the sequencer has issued (R10, R41, R44). -/
def Taken.entry (k : Taken) (i : Instr) (s : State) : Entry :=
  { instr := i, val := k.val, i1 := k.i1, i2 := k.i2, idst := k.idst, bad := false, sPend := k.sPend,
    popsTaken := false, pushOwed := false, rows := 0, offs := [], late := [], stall := .none, stamp := s.stamp,
    addr := s.ctx.pc }

/-- The running bank as the sequencer leaves it with the word in its queue. -/
def Taken.queuedBank (k : Taken) (e : Eng) (i : Instr) (s : State) : RegBank :=
  Say.atIssue s (s.bank.setQueue e (s.bank.queue e ++ [k.entry i s])) i

/-- The state after the sequencer has executed a word that may be issued: it waits for a place, or the word is queued. -/
def State.issued (s : State) (e : Eng) (i : Instr) (k : Taken) : State :=
  if s.depth e ≤ (s.bank.queue e).length then s.waitAt .full false else (s.setBank (k.queuedBank e i s)).goOn s.pc8

/-- A sequencer instruction whose body waits on a full queue or leaves the bank of an issued word. -/
theorem seqInstr_issued {e : Eng} {i : Instr} {k : Taken} {srcs : List Reg} {body : State → SeqOut} (hp : s.Plain srcs)
    (hb : body s = if s.depth e ≤ (s.bank.queue e).length then .wait s .full false
      else .done (s.setBank (k.queuedBank e i s))) :
    seqInstr srcs [] body s = .next (s.issued e i k) := by
  have hp1 : s.Plain (srcs ++ []) := by rwa [List.append_nil]
  unfold seqInstr State.issued
  split at hb
  · rw [seqRun_wait hp1 hb, if_pos ‹_›]
  · rw [seqRun_done hp1 hb (by simp), if_neg ‹_›]

/-- A word that is only queued, and what it carries is read without a fault. -/
theorem forward_ok {e : Eng} {i : Instr} {k : Taken} {read : State → Except Cause Taken} (hr : read s = .ok k)
    (hb : k.bad = false) : forward e i read s = if s.depth e ≤ (s.bank.queue e).length then .wait s .full false
      else .done (s.setBank (s.bank.setQueue e (s.bank.queue e ++ [k.entry i s]))) := by
  simp only [forward, hr, enqueue, hb, Taken.entry]

/-! ### Every engine word -/

/-- What an engine word does: reached by the sequencer where it may be issued, it is queued; run by an engine, its
entry has its turn (R21). -/
structure IsWord (s : State) (i : Instr) (e : Eng) (tok : Tok) (rs : List Reg) (k : Taken) (ok : Prop)
    (o : Host.Outcome State Fault Refusal) : Prop where
  queued : s.acting = none → s.Plain rs → s.Clean rs → ok → o = .next (s.issued e i k)
  runs : ∀ d en, s.acting = some (d, en) → ∃ rel work, o = .next (engineRun e en tok rel work { s with acting := none })

/-- A word that is forwarded with what its `read` gives, and changes nothing else at its issue. -/
theorem isWord_engineInstr {e : Eng} {i : Instr} {tok : Tok} {rel : Option Nat} {srcs rs : List Reg} {k : Taken} {ok : Prop}
    {read : State → Except Cause Taken} {work : Entry → State → EngOut}
    (hr : s.Clean rs → ok → read s = .ok k) (hs : srcs ⊆ rs := by exact List.Subset.refl _)
    (hk : k.bad = false := by rfl) (hi : ∀ b, Say.atIssue s b i = b := by exact fun _ => rfl) :
    IsWord s i e tok rs k ok (engineInstr e i tok rel srcs read work s) where
  queued ha hp hc ho := by
    rw [engineInstr_forward ha]
    refine seqInstr_issued (hp.mono hs) ?_
    rw [forward_ok (hr hc ho) hk, Taken.queuedBank, hi]
  runs d en ha := ⟨rel, work, engineInstr_run ha e i tok rel srcs read work⟩

/-- VC as LVC writes it (R45, R228). -/
theorem vcOf_eq (w : Word) : vcOf w = BitVec.ofNat 7 (min w.toNat 64) := by
  unfold vcOf
  split
  · next h => rw [Nat.min_eq_right h.le]
  · next h => rw [Nat.min_eq_left (not_lt.mp h)]

/-- ASHAPE as XSHAPE writes it (R46, R242). -/
theorem ashapeOf_param (old : BitVec 4) (p : BitVec 12) :
    ashapeOf old (p.setWidth 64) = if p.toNat % 16 = 0 then old else BitVec.ofNat 4 p.toNat := by
  have hn : (p.setWidth 64).setWidth 4 = BitVec.ofNat 4 p.toNat := by
    apply BitVec.eq_of_toNat_eq
    simp only [BitVec.toNat_setWidth, BitVec.toNat_ofNat]
    omega
  have hz : BitVec.ofNat 4 p.toNat = 0#4 ↔ p.toNat % 16 = 0 := by
    rw [← BitVec.toNat_inj, BitVec.toNat_ofNat]; rfl
  simp only [ashapeOf, hn, hz]

theorem execLvc_run {d : Eng} {en : Entry} (ha : s.acting = some (d, en)) (f : FLN) :
    execLvc f s = .next (engineRun .l en f.tok none (fun _ s => .done s) { s with acting := none }) := by
  unfold execLvc; rw [ha]

theorem execXshape_run {d : Eng} {en : Entry} (ha : s.acting = some (d, en)) (f : FXM) :
    execXshape f s = .next (engineRun .x en f.tok none (fun _ s => .done s) { s with acting := none }) := by
  unfold execXshape; rw [ha]

/-- LVC is queued, and VC changes at once (R228). -/
theorem isWord_lvc (f : FLN) : IsWord s (.lvc f) .l f.tok (f.a :: lineRegs f.line)
    { Taken.none_ with val := Say.engAddr s f.a f.off } True (execLvc f s) where
  queued ha hp hc _ := by
    obtain ⟨hpois, -⟩ := State.clean_cons.mp hc
    unfold execLvc
    rw [ha]
    refine seqInstr_issued (hp.mono (by simp)) ?_
    dsimp only
    rw [forward_ok (lValue_ok hpois (by simp)) rfl]
    by_cases hfull : s.depth .l ≤ (s.bank.queue .l).length
    · simp only [if_pos hfull]
    · simp only [if_neg hfull]
      simp [Taken.queuedBank, Say.atIssue, vcOf_eq, engAddr_eq]
  runs d en ha := ⟨none, _, execLvc_run ha f⟩

/-- XSHAPE is queued, and ASHAPE changes at once (R242). -/
theorem isWord_xshape (f : FXM) : IsWord s (.xshape f) .x f.tok [] Taken.none_ True (execXshape f s) where
  queued ha hp _ _ := by
    unfold execXshape
    rw [ha]
    refine seqInstr_issued hp ?_
    dsimp only
    rw [forward_ok rfl rfl]
    by_cases hfull : s.depth .x ≤ (s.bank.queue .x).length
    · simp only [if_pos hfull]
    · simp only [if_neg hfull]
      simp [Taken.queuedBank, Say.atIssue, ashapeOf_param]
  runs d en ha := ⟨none, _, execXshape_run ha f⟩

/-- Every word that `Say.issue` names is an engine word: its `read` gives what its entry carries where the conditions of
its issue hold. -/
theorem exec_isWord {i : Instr} {e : Eng} {tok : Tok} {rs : List Reg} {k : Taken} {ok : Prop}
    (h : Say.issue s i = some (e, tok, rs, k, ok)) : IsWord s i e tok rs k ok (exec i s) := by
  cases i with
  | lline f =>
    cases h
    exact isWord_engineInstr fun hc ho => lRead_ok hc ho.1 (by simpa using ho.2) (by simp)
  | ltile f | ltrans f =>
    cases h
    exact isWord_engineInstr (fun hc ho => lRead_ok hc ho.1 (by simpa using ho.2) (by simp)) (by simp)
  | lwgt f =>
    cases h
    exact isWord_engineInstr (fun hc ho =>
      lRead_ok hc (by simpa only [Say.span, ite_mul] using ho.1) (by simp) (fun _ => ho.2)) (by simp)
  | lgath f | lmask f =>
    cases h
    exact isWord_engineInstr (fun hc ho => lRead_ok hc ho.1 (by simp) (fun _ => ho.2)) (by simp)
  | lfeed f | lsetf f =>
    cases h
    exact isWord_engineInstr (fun hc ho => lValue_ok (State.clean_cons.mp hc).1 (fun _ => ho)) (by simp)
  | lvc f => cases h; exact isWord_lvc f
  | lzero f =>
    cases h
    exact isWord_engineInstr fun _ ho => by rw [tileWritable_open ho]; rfl
  | xmma f | xmmam f | xspmm f =>
    cases h
    exact isWord_engineInstr fun _ ho => xRead_ok ho.1 ho.2
  | xswap f =>
    cases h
    exact isWord_engineInstr fun _ ho => by rw [arrayWritable_base ho]; rfl
  | xshape f => cases h; exact isWord_xshape f
  | xclr f =>
    cases h
    exact isWord_engineInstr fun _ ho => by rw [b2n, planeWritable_open ho]; rfl
  | xbias f =>
    cases h
    exact isWord_engineInstr fun hc ho => by rw [index_clean hc, ok_bind, b2n, planeWritable_open ho]; rfl
  | vadd f | vsub f | vmul f | vfma f | vfms f | vfnma f | vmin f | vmax f | vabs f | vneg f | vand f | vor f | vxor f
  | vnot f | vshl f | vshr f | vshra f | vrsh f | vsel f | vexp2 f | vlog2 f | vrcp f | vrsq f | vtanh f | vredsum f
  | vredmax f | vredmin f | vscanadd f | vmov f | vperm f | vpois f | vhash f =>
    cases h
    exact isWord_engineInstr v3Read_ok
  | viota f =>
    cases h
    exact isWord_engineInstr v3Read_ok (List.subset_append_right _ _)
  | vcmpeq f | vcmpne f | vcmplt f | vcmple f =>
    cases h
    exact isWord_engineInstr fun hc _ => by
      obtain ⟨h1, h2⟩ := State.clean_append.mp hc
      rw [index_clean h1, ok_bind, index_clean h2]; rfl
  | vkand f | vkor f | vkxor f | vknot f =>
    cases h
    exact isWord_engineInstr fun _ _ => rfl
  | vkpopc f | vkfirst f =>
    cases h
    exact isWord_engineInstr fun _ ho => by rw [scalarDst_unbound ho]; rfl
  | vgets f =>
    cases h
    exact isWord_engineInstr fun hc ho => by rw [index_clean hc, ok_bind, scalarDst_unbound ho]; rfl
  | vbcast f | vsets f =>
    cases h
    exact isWord_engineInstr vxRead_ok
  | vcvt f =>
    cases h
    have hw : ∀ work, IsWord s (.vcvt f) .v f.tok _ _ _
        (engineInstr .v (.vcvt f) f.tok none (lineRegs f.src ++ dlineRegs f.dst) (vcRead f) work s) :=
      fun work => isWord_engineInstr (work := work) vcRead_ok
    change IsWord s _ _ _ _ _ _ (execVcvt f s)
    unfold execVcvt
    split
    · exact hw _
    · exact hw _
  | vacc f =>
    cases h
    exact isWord_engineInstr fun hc ho => by rw [index_clean hc, ok_bind, tileWritable_open ho]; rfl
  | sline f =>
    cases h
    exact isWord_engineInstr fun hc ho =>
      sRead_ok (State.clean_cons.mp hc).1 (State.clean_cons.mp hc).2 ho
  | stile f | strans f =>
    cases h
    exact isWord_engineInstr (fun hc ho => sRead_ok (State.clean_cons.mp hc).1 (by simp [State.Clean]) ho) (by simp)
  | sacc f =>
    cases h
    exact isWord_engineInstr fun hc ho => sRead_ok (State.clean_cons.mp hc).1 (by simp [State.Clean]) ho
  | _ => cases h

end

/-- The depth of a queue (R10, R349). -/
theorem State.depth_eq (s : State) (e : Eng) : s.depth e = if s.ctx.inHandler then 8 else match e with
    | .x => 16
    | _ => 32 := by
  cases e <;> rfl

/-- The entries of LVC and XSHAPE have no work: they only move tokens (R228, R242). -/
theorem exec_moves {i : Instr} {rs : List Reg} {k : Taken} {ok : Prop} {d : Eng}
    {s : State} {e : Eng} {en : Entry} {tok : Tok}
    (h : Say.issue s i = some (e, tok, rs, k, ok)) (hi : (∃ f, i = .lvc f) ∨ ∃ f, i = .xshape f)
    (ha : s.acting = some (d, en)) :
    exec i s = .next (engineRun e en tok none (fun _ s => .done s) { s with acting := none }) := by
  rcases hi with ⟨f, rfl⟩ | ⟨f, rfl⟩
  · cases h; exact execLvc_run ha f
  · cases h; exact execXshape_run ha f

end Sys2Proof.Machine

namespace Sys2Proof
open Machine

/-- Settles O21: an engine word is forwarded with what its `read` gives (`exec_isWord`). -/
theorem engineWordsAreQueued : Obligations.EngineWordsAreQueued := by
  intro i s e tok rs k ok h ha hp hc hok
  rw [(exec_isWord h).queued ha hp hc hok, State.issued, State.depth_eq]
  cases e <;> rfl

/-- Settles O23: in each of the statement's cases the entry's turn is its cells (`engineRun_late`), nothing
(`engineRun_starved`), its pushes (`pushOut_room`, `pushOut_full`), or, without work, its pops and its pushes
(`engineRun_moved`). -/
theorem entriesTakeAndGiveTokens : Obligations.EntriesTakeAndGiveTokens := by
  intro i s e tok rs k ok en q h ha hq
  obtain ⟨rel, work, hx⟩ := (exec_isWord h).runs e en ha
  refine ⟨fun hl => ?_, fun hl ho hp he => ?_, fun hl ho => ?_, fun hi hw hl ho hp hpop hpush => ?_⟩
  · rw [hx, engineRun_late hl]
  · rw [hx, engineRun_starved (s := { s with acting := none }) hl ho hp (Fifos.pop_empty he)]
  · obtain ⟨hact, hmem, htiles, hacc, hpad, hpc⟩ := pushOut_frame e en tok { s with acting := none }
    exact ⟨_, by rw [hx, engineRun_owed hl ho], hact, hmem, htiles, hacc, hpad, hpc,
      pushOut_room (s := { s with acting := none }) hq, pushOut_full (s := { s with acting := none }) hq⟩
  · exact ⟨_, exec_moves h hi ha, engineRun_moved (s := { s with acting := none }) hq hw hl ho hp hpop hpush⟩

end Sys2Proof
end
section
/-! # Control instructions and reset (O7, O8, O59)

A sequencer instruction as an outcome of `exec`: one lemma for each way its body ends, over the lemmas of
Laws/Seq. Then what TIME to TKTAKE, ECALL and BRK do, and what the reset state holds. -/

namespace Sys2Proof.Machine

section
variable {srcs dsts : List Reg} {body : State → SeqOut} {s : State}

/-- An instruction whose body retires. -/
theorem seqInstr_done {s2 : State} (hp : s.Plain (srcs ++ dsts)) (hb : body s = .done s2)
    (hq : s2.ctx.qbinds = s.ctx.qbinds) : seqInstr srcs dsts body s = .next (s2.goOn s.pc8) :=
  congrArg _ (seqRun_done hp hb hq)

/-- An instruction whose body faults. -/
theorem seqInstr_trap {s2 : State} {c : Cause} (hp : s.Plain (srcs ++ dsts)) (hb : body s = .trap s2 c) :
    seqInstr srcs dsts body s = .next (s2.fault c) :=
  congrArg _ (seqRun_trap hp hb)

/-- An instruction whose body waits. -/
theorem seqInstr_wait {s2 : State} {k : Wait} {ch : Bool} (hp : s.Plain (srcs ++ dsts)) (hb : body s = .wait s2 k ch) :
    seqInstr srcs dsts body s = .next (s2.waitAt k ch) :=
  congrArg _ (seqRun_wait hp hb)

/-- An instruction whose body retires and then traps. -/
theorem seqInstr_after {s2 : State} {c : Cause} (hp : s.Plain (srcs ++ dsts)) (hb : body s = .after s2 c)
    (hq : s2.ctx.qbinds = s.ctx.qbinds) : seqInstr srcs dsts body s = .next ((s2.goOn s.pc8).takeTrap c s.pc8) :=
  congrArg _ (seqRun_after hp hb hq)

/-- No register is named: each is plain. -/
theorem State.plain_nil (s : State) : s.Plain [] := ⟨by simp, by simp⟩

end

variable {s : State}

/-- A progress event sets the running context's interval and count of expiries only (R32). -/
theorem State.progressEvent_eq (s : State) : s.progressEvent = { s with ctx := { s.ctx with
    progX := 0, progT := (((s.ctx.task.bind s.findTask).map Task.prog).getD 0) * 1000 } } := by
  unfold State.progressEvent State.restartInterval
  cases ht : s.ctx.task with
  | none => simp
  | some t => cases hf : s.findTask t <;> simp [hf]

/-- The code of a trap stands in the low byte of its cause word (R307). -/
theorem Cause.word_mod (c : Cause) (n : Nat) : (c.word n).toNat % 256 = c.code.toNat := by
  unfold Cause.word packWord
  simp only [packFields, BitVec.toNat_ofNat]
  omega

/-- ECALL and BRK of code that enters the steward handler, an open one entered again (R314, R346). -/
theorem State.takeTrap_call {c : Cause} (r : Word) (hc : c.code = cECALL ∨ c.code = cBRK)
    (h : s.ctx.atSteward = true ∨ (c.toSteward || s.ctx.thnd) = true ∨ s.ctx.tvec = 0#64) :
    s.takeTrap c r = s.enterSteward c r := by
  have hno : (s.ctx.shnd && c.code != cECALL && c.code != cBRK) = false := by
    rcases hc with hc | hc <;> simp [hc]
  have hcode : c.code ≠ cPREEMPT ∧ c.code ≠ cABSENT ∧ c.code ≠ cDEADLINE := by
    rcases hc with hc | hc <;> rw [hc] <;> decide
  rcases State.takeTrap_cases s c r with ⟨_, hs, _⟩ | ⟨_, _, ht⟩ | ⟨_, _, ht⟩ | ⟨ha, hn, hv, _⟩ | ⟨_, _, _, ht⟩
  · rw [hno] at hs; cases hs
  · exact ht
  · exact ht
  · simp [ha, hn, hv] at h
  · rw [ht, if_neg hcode.1, if_neg hcode.2.1, if_neg hcode.2.2]

/-- A trap of TENANT base code with a handler of its own, of a cause that goes there (R346). -/
theorem State.takeTrap_tenant {c : Cause} (r : Word) (ha : s.ctx.atSteward = false) (hc : (c.toSteward || s.ctx.thnd) = false)
    (hv : s.ctx.tvec ≠ 0#64) : s.takeTrap c r = s.enterTenant c r := by
  unfold State.takeTrap
  rw [if_neg (by simp [ha]), if_neg (by simp [hc]), if_neg hv]

/-- The steward handler entered after an instruction has gone on (R348). -/
theorem State.enterSteward_goOn (s : State) (c : Cause) (pc r : Word) :
    let t := (s.goOn pc).enterSteward c r
    t.ctx.shnd = true ∧ t.ctx.pc = s.ctx.svec ∧ t.ctx.sepc = r ∧ t.ctx.sval = c.val ∧
      t.ctx.scause.toNat % 256 = c.code.toNat ∧ t.mem = s.mem := by
  refine ⟨rfl, ?_, rfl, rfl, Cause.word_mod _ _, rfl⟩
  simp [State.enterSteward, State.goOn_ctx]

/-- The tenant handler entered after an instruction has gone on (R348). -/
theorem State.enterTenant_goOn (s : State) (c : Cause) (pc r : Word) :
    let t := (s.goOn pc).enterTenant c r
    t.ctx.thnd = true ∧ t.ctx.pc = s.ctx.tvec ∧ t.ctx.tepc = r ∧ t.ctx.tval = c.val ∧
      t.ctx.tcause.toNat % 256 = c.code.toNat ∧ t.mem = s.mem := by
  refine ⟨rfl, ?_, rfl, rfl, Cause.word_mod _ _, rfl⟩
  simp [State.enterTenant, State.goOn_ctx]

/-- An immediate as a trap's value. -/
theorem toNat_immVal (i : BitVec 36) : (i.setWidth 64).toNat = i.toNat := by
  rw [BitVec.toNat_setWidth]
  exact Nat.mod_eq_of_lt (by omega)

end Sys2Proof.Machine

namespace Sys2Proof
open Machine

/-- Settles O7. -/
theorem timeBeatAndTokens : Obligations.TimeBeatAndTokens := by
  intro s
  refine ⟨fun f hp => ⟨seqInstr_done hp rfl (by simp), seqInstr_done hp rfl (by simp)⟩, fun f hp => ?_, ?_, fun f => ⟨?_, ?_⟩⟩
  · by_cases hc : (s.rd f.a).pois = true
    · rw [if_pos hc]
      exact seqInstr_trap hp (consume_poisoned hc)
    · rw [if_neg hc]
      have hb := consume_clean (n := 1) (k := fun a =>
        if a.toNat ≤ (s.guest s.ctx.vdn.toNat).toNat then .done s else .wait s (.time a) false) (by simpa using hc)
      by_cases ht : (s.rd f.a).bits.toNat ≤ (Say.guest s s.ctx.vdn.toNat).toNat
      · rw [if_pos ht]
        exact seqInstr_done hp (hb.trans (if_pos ht)) rfl
      · rw [if_neg ht]
        exact seqInstr_wait hp (hb.trans (if_neg ht))
  · have he : exec .beat s = .next (s.progressEvent.goOn s.pc8) := seqInstr_done s.plain_nil rfl rfl
    rw [s.progressEvent_eq] at he
    exact ⟨_, he, rfl, rfl, rfl⟩
  · show execTkgive f s = _
    by_cases h : s.bank.fifo.sl + f.n.toNat ≤ 8
    · rw [if_pos h]
      exact seqInstr_done s.plain_nil (if_neg (Nat.not_lt.mpr h)) (by simp)
    · rw [if_neg h]
      exact seqInstr_wait s.plain_nil (if_pos (Nat.not_le.mp h))
  · show execTktake f s = _
    by_cases h : f.n.toNat ≤ s.bank.fifo.ls
    · rw [if_pos h]
      exact seqInstr_done s.plain_nil (if_neg (Nat.not_lt.mpr h)) (by simp)
    · rw [if_neg h]
      exact seqInstr_wait s.plain_nil (if_pos (Nat.not_le.mp h))

/-- Settles O8: the body ends with the trap, which of ECALL goes to the steward handler in every state, of BRK where
no tenant handler takes it. -/
theorem callsTrapAfterRetiring : Obligations.CallsTrapAfterRetiring := by
  intro s f
  have he : exec (.ecall f) s = .next ((s.goOn s.pc8).takeTrap (Cause.seq cECALL 0 (f.imm.setWidth 64)) s.pc8) :=
    seqInstr_after s.plain_nil rfl rfl
  have hb : exec (.brk f) s = .next ((s.goOn s.pc8).takeTrap (Cause.seq cBRK 0 (f.imm.setWidth 64)) s.pc8) :=
    seqInstr_after s.plain_nil rfl rfl
  have hctx : (s.goOn s.pc8).ctx.atSteward = s.ctx.atSteward ∧ (s.goOn s.pc8).ctx.thnd = s.ctx.thnd ∧
      (s.goOn s.pc8).ctx.tvec = s.ctx.tvec := by
    simp [State.goOn_ctx, Ctx.atSteward]
  obtain ⟨hat, hth, htv⟩ := hctx
  have steward (c : Cause) (hc : c.code = cECALL ∨ c.code = cBRK)
      (h : s.ctx.atSteward = true ∨ (c.toSteward || s.ctx.thnd) = true ∨ s.ctx.tvec = 0#64) :
      (s.goOn s.pc8).takeTrap c s.pc8 = (s.goOn s.pc8).enterSteward c s.pc8 :=
    State.takeTrap_call s.pc8 hc (by rwa [hat, hth, htv])
  refine ⟨he, hb, ?_, fun hl hr ht hs hv => ?_, fun h => ?_⟩
  · rw [steward _ (.inl rfl) (.inr (.inl rfl))] at he
    obtain ⟨h1, h2, h3, h4, h5, h6⟩ := s.enterSteward_goOn (Cause.seq cECALL 0 (f.imm.setWidth 64)) s.pc8 s.pc8
    exact ⟨_, he, h1, h2, h3, by rw [h4]; exact toNat_immVal _, h5, h6⟩
  · rw [State.takeTrap_tenant s.pc8 (hat.trans (by simp [Ctx.atSteward, hl, hs, hr])) (by rw [hth, ht]; rfl) (by rwa [htv])] at hb
    obtain ⟨h1, h2, h3, h4, h5, h6⟩ := s.enterTenant_goOn (Cause.seq cBRK 0 (f.imm.setWidth 64)) s.pc8 s.pc8
    exact ⟨_, hb, h1, h2, h3, by rw [h4]; exact toNat_immVal _, h5, h6⟩
  · have hh : s.ctx.atSteward = true ∨ ((Cause.seq cBRK 0 (f.imm.setWidth 64)).toSteward || s.ctx.thnd) = true ∨
        s.ctx.tvec = 0#64 := by
      rcases h with h | h | h | h | h <;> simp [Ctx.atSteward, h]
    rw [steward _ (.inr rfl) hh] at hb
    obtain ⟨h1, h2, h3, h4, h5, h6⟩ := s.enterSteward_goOn (Cause.seq cBRK 0 (f.imm.setWidth 64)) s.pc8 s.pc8
    exact ⟨_, hb, h1, h2, h3, by rw [h4]; exact toNat_immVal _, h5, h6⟩

/-- The reset value of a partition's control register: UCAP 1,000, WIN 10, HORIZ 100, EN of 0 and 15 (R371). -/
theorem cfgReset_pctl (p : Nat) (h : p < 16) : (cfgReset (0x400 + p)).toNat =
    1000 * 2 ^ 30 + 10 * 2 ^ 20 + 100 * 2 ^ 4 + if p = 0 ∨ p = 15 then 2 ^ 63 else 0 := by
  interval_cases p <;> rfl

/-- With nothing placed no turn is taken, and no wait is there to be ended. -/
theorem step_reset : step State.reset = .next State.reset := rfl

/-- Settles O59: the reset state is a literal, and s0 is read and written past the banks. -/
theorem resetHoldsWhatTheManualGives : Obligations.ResetHoldsWhatTheManualGives := by
  refine ⟨⟨rfl, rfl⟩, rfl, ?_, step_reset, fun n _ hn => ?_, fun p hp => ?_, ⟨by decide, by decide, rfl⟩, fun p q => rfl,
    fun n => ⟨rfl, rfl⟩, ⟨rfl, rfl, rfl, rfl, rfl, rfl, rfl, fun r => rfl⟩, fun t v => ⟨rfl, rfl⟩⟩
  · intro c hc
    rw [List.mem_singleton.mp (show c ∈ [Ctx.blank] from hc)]
    rfl
  · exact if_neg (by omega)
  · have hv := cfgReset_pctl p hp
    have he : State.reset.cfg (0x400 + p) = cfgReset (0x400 + p) := rfl
    simp only [State.cfgField, he, hv, bitsOf]
    split <;> decide

end Sys2Proof
end
section
/-! # Hardware work queues (O51)

First what the operations over L1 and memory leave of a state, and what a number reads as after it has been written;
then a queue operation that reaches its queue; then QPOP and QPUSH. -/

namespace Sys2Proof.Machine

/-! ### Numbers in memory -/

/-- The bytes of a number read as the number, modulo their width (R1). -/
theorem natOfBytes_bytesOfNat (n v : Nat) : natOfBytes (bytesOfNat n v) = v % 256 ^ n := by
  induction n generalizing v with
  | zero => simp [bytesOfNat, natOfBytes, Nat.mod_one]
  | succ n ih =>
    have ht : bytesOfNat (n + 1) v = BitVec.ofNat 8 v :: bytesOfNat n (v / 256) := by
      unfold bytesOfNat
      rw [List.range_succ_eq_map, List.map_cons, List.map_map]
      simp [Function.comp_def, Nat.pow_succ', Nat.div_div_eq_div_mul]
    rw [ht, natOfBytes, ih, BitVec.toNat_ofNat, pow_succ' 256 n, Nat.mod_mul]

@[simp] theorem length_bytesOfNat (n v : Nat) : (bytesOfNat n v).length = n := by simp [bytesOfNat]

/-- A byte outside a raw write is as before. -/
theorem State.byteAt_rawWrite_outside (s : State) {pa x : Nat} {bs : List Byte} (h : ¬ (pa ≤ x ∧ x < pa + bs.length)) :
    (s.rawWrite pa bs).byteAt x = s.byteAt x :=
  Sparse.get_setList_outside _ _ _ _ _ (by omega)

/-- The bytes of a raw write are there. -/
theorem State.bytesAt_rawWrite (s : State) (pa : Nat) (bs : List Byte) :
    (s.rawWrite pa bs).bytesAt pa bs.length = bs := by
  refine List.ext_getElem (by simp [State.bytesAt, Sparse.getList]) fun i h1 h2 => ?_
  simp only [State.bytesAt, Sparse.getList, List.getElem_map, List.getElem_range]
  exact Sparse.get_setList_inside _ _ _ _ _ h2

/-- Two states whose memories hold equal bytes in a range read the same number there. -/
theorem State.natAt_congr {s t : State} {pa n : Nat} (h : ∀ x, pa ≤ x → x < pa + n → t.byteAt x = s.byteAt x) :
    t.natAt pa n = s.natAt pa n := by
  unfold State.natAt State.bytesAt Sparse.getList
  exact congrArg _ (List.map_congr_left fun i hi => h _ (by omega) (by have := List.mem_range.mp hi; omega))

/-- What memory reads as is memory's alone. -/
theorem State.byteAt_of_mem {s t : State} (h : t.mem = s.mem) (x : Nat) : t.byteAt x = s.byteAt x := by
  rw [State.byteAt, h, State.byteAt]

theorem State.natAt_of_mem {s t : State} (h : t.mem = s.mem) (pa n : Nat) : t.natAt pa n = s.natAt pa n :=
  State.natAt_congr fun x _ _ => State.byteAt_of_mem h x

/-- A number written reads back. -/
theorem State.natAt_rawWrite (s : State) (pa n v : Nat) :
    (s.rawWrite pa (bytesOfNat n v)).natAt pa n = v % 256 ^ n := by
  have h := s.bytesAt_rawWrite pa (bytesOfNat n v)
  rw [length_bytesOfNat] at h
  rw [State.natAt, h, natOfBytes_bytesOfNat]

/-! ### What the operations over L1 leave -/

/-- A fold of steps, each of which leaves what `R` compares. -/
theorem foldl_rel {α β : Type} {R : α → α → Prop} (refl : ∀ s, R s s) (trans : ∀ {a b c}, R a b → R b c → R a c)
    {f : α → β → α} (hf : ∀ s a, R s (f s a)) (l : List β) (s : α) : R s (l.foldl f s) := by
  induction l generalizing s with
  | nil => exact refl s
  | cons a l ih => exact trans (hf s a) (ih (f s a))

/-- A fold goes alike over an image, where each step does. -/
theorem foldl_image {α β : Type} {g : α → α} {f : α → β → α} (hf : ∀ s a, f (g s) a = g (f s a)) (l : List β) (s : α) :
    l.foldl f (g s) = g (l.foldl f s) := by
  induction l generalizing s with
  | nil => rfl
  | cons a l ih => rw [List.foldl_cons, List.foldl_cons, hf, ih]

/-- The state t is s but for memory, marks, scope records, the L1 of the running context, and what stands out of
contributions to windows: what a release may change (R126, R136). -/
def State.Flushed (s t : State) : Prop :=
  t = { s with mem := t.mem, marks := t.marks, scopes := t.scopes, contribs := t.contribs, outbox := t.outbox
               ctx := { s.ctx with l1 := t.ctx.l1 } }

namespace State.Flushed
variable {s t u : State}

theorem refl (s : State) : s.Flushed s := rfl

theorem trans (h : s.Flushed t) (h' : t.Flushed u) : s.Flushed u := by
  unfold State.Flushed at *
  rw [h', h]

theorem bank (h : s.Flushed t) : t.bank = s.bank := by rw [h]; rfl
theorem pc (h : s.Flushed t) : t.ctx.pc = s.ctx.pc := by rw [h]
theorem id (h : s.Flushed t) : t.ctx.id = s.ctx.id := by rw [h]
theorem qbinds (h : s.Flushed t) : t.ctx.qbinds = s.ctx.qbinds := by rw [h]
theorem rd (h : s.Flushed t) (r : Reg) : t.rd r = s.rd r := by rw [h]; rfl
theorem qbind (h : s.Flushed t) (n : Nat) : t.ctx.qbind n = s.ctx.qbind n := by rw [h]; rfl

end State.Flushed

/-- What the bytes that L1 gives up do at their homes: each is written, then the marks of their sectors (R53, R84). -/
def performBytes (picks : List (Nat × L1Byte)) (s : State) : State :=
  ((picks.map (fun e => e.1 / 64)).dedup).foldl (fun s sec =>
    let mine := picks.filter (fun e => e.1 / 64 == sec)
    if mine.any (fun e => e.2.pois) then s.setMark sec true
    else if mine.length = 64 then s.setMark sec false else s)
    (picks.foldl (fun s e => (s.rawWrite e.1 [e.2.val]).clearScopes e.1 1) s)

/-- The dirty bytes of L1 that a predicate picks. -/
def dirtyBytes (p : Nat → L1Byte → Bool) (m : Sparse (Option L1Byte)) : List (Nat × L1Byte) :=
  m.filterMap (fun e => match e.2 with
    | some b => if b.dirty && p e.1 b then some (e.1, b) else none
    | none => none)

/-- L1 once those bytes are clean. -/
def cleanedL1 (p : Nat → L1Byte → Bool) (m : Sparse (Option L1Byte)) : Sparse (Option L1Byte) :=
  m.map (fun e => (e.1, match e.2 with
    | some b => if b.dirty && p e.1 b then some { b with dirty := false } else some b
    | none => none))

theorem State.writeBack_eq (s : State) (p : Nat → L1Byte → Bool) : s.writeBack p =
    (performBytes (dirtyBytes p s.ctx.l1) s).setL1 (cleanedL1 p (performBytes (dirtyBytes p s.ctx.l1) s).ctx.l1) := rfl

/-- Performing bytes takes no part in a context. -/
theorem performBytes_setCtx (l : List (Nat × L1Byte)) (s : State) (c : Ctx) :
    performBytes l (s.setCtx c) = (performBytes l s).setCtx c := by
  have h := foldl_image (g := fun u : State => u.setCtx c) (f := fun s e => (s.rawWrite e.1 [e.2.val]).clearScopes e.1 1)
    (fun u (a : Nat × L1Byte) => rfl) l s
  unfold performBytes
  dsimp only
  rw [h]
  refine foldl_image (g := fun u : State => u.setCtx c) (fun u a => ?_) _ _
  split
  · rfl
  · split <;> rfl

/-- It changes memory, marks and scope records. -/
theorem performBytes_flushed (l : List (Nat × L1Byte)) (s : State) : s.Flushed (performBytes l s) := by
  have h := foldl_rel (R := State.Flushed) .refl .trans (f := fun s e => (s.rawWrite e.1 [e.2.val]).clearScopes e.1 1)
    (fun s (a : Nat × L1Byte) => rfl) l s
  refine h.trans (foldl_rel (R := State.Flushed) .refl .trans (fun s a => ?_) _ _)
  dsimp only
  split
  · rfl
  · split <;> rfl

@[simp] theorem performBytes_ctx (l : List (Nat × L1Byte)) (s : State) : (performBytes l s).ctx = s.ctx := by
  have h := performBytes_setCtx l s s.ctx
  rw [State.setCtx_ctx_self] at h
  rw [h, State.setCtx_ctx]

/-- Bytes performed at their homes leave all else. -/
theorem State.writeBack_flushed (s : State) (p : Nat → L1Byte → Bool) : s.Flushed (s.writeBack p) :=
  (performBytes_flushed _ s).trans rfl

theorem State.dropClean_flushed (s : State) (p : Nat → L1Byte → Bool) : s.Flushed (s.dropClean p) := rfl

theorem State.acquireAll_flushed (s : State) : s.Flushed s.acquireAll := rfl

theorem State.flushBytes_flushed (s : State) (pa n : Nat) : s.Flushed (s.flushBytes pa n) :=
  (s.writeBack_flushed _).trans rfl

/-- Clean bytes discarded leave memory. -/
@[simp] theorem State.acquireAll_mem (s : State) : s.acquireAll.mem = s.mem := rfl

/-! ### The same beside another bank -/

/-- L1 and the running bank, in either order. -/
theorem Ctx.setBank_withL1 (c : Ctx) (m : Sparse (Option L1Byte)) (b : RegBank) :
    ({ c with l1 := m } : Ctx).setBank b = { c.setBank b with l1 := m } := by
  unfold Ctx.setBank; split <;> (try split) <;> rfl

theorem State.setBank_setL1 (s : State) (b : RegBank) (m : Sparse (Option L1Byte)) :
    (s.setBank b).setL1 m = (s.setL1 m).setBank b :=
  congrArg s.setCtx (Ctx.setBank_withL1 s.ctx m b).symm

/-- Bytes are performed at their homes whatever the running bank holds. -/
theorem State.writeBack_setBank (s : State) (b : RegBank) (p : Nat → L1Byte → Bool) :
    (s.setBank b).writeBack p = (s.writeBack p).setBank b := by
  have h : performBytes (dirtyBytes p s.ctx.l1) (s.setBank b) = (performBytes (dirtyBytes p s.ctx.l1) s).setBank b := by
    refine (performBytes_setCtx _ s (s.ctx.setBank b)).trans ?_
    unfold State.setBank State.setCtx
    rw [performBytes_ctx]
  rw [State.writeBack_eq, State.writeBack_eq, State.setBank_ctx, Ctx.setBank_l1, h, State.setBank_ctx, Ctx.setBank_l1,
    State.setBank_setL1]

theorem State.dropClean_setBank (s : State) (b : RegBank) (p : Nat → L1Byte → Bool) :
    (s.setBank b).dropClean p = (s.dropClean p).setBank b := by
  unfold State.dropClean
  rw [State.setBank_ctx, Ctx.setBank_l1, State.setBank_setL1]

theorem State.flushBytes_setBank (s : State) (b : RegBank) (pa n : Nat) :
    (s.setBank b).flushBytes pa n = (s.flushBytes pa n).setBank b := by
  unfold State.flushBytes
  dsimp only
  rw [State.writeBack_setBank, State.dropClean_setBank]

/-- A contribution performed leaves the running context. -/
theorem State.contribute_setBank (s : State) (b : RegBank) (c : Contrib) :
    (s.setBank b).contribute c = (s.contribute c).setBank b := by
  unfold State.contribute
  rw [State.setBank_windows]
  cases s.windows.find? (fun w => w.ident == c.ident) with
  | none => rfl
  | some w =>
    dsimp only
    by_cases h : s.homeHere w = true
    · rw [if_pos h, if_pos (show (s.setBank b).homeHere w = true from h)]; rfl
    · rw [if_neg h, if_neg (show ¬ (s.setBank b).homeHere w = true from h)]; rfl

theorem State.contribute_flushed (s : State) (c : Contrib) : s.Flushed (s.contribute c) := by
  unfold State.contribute
  split
  · rfl
  · dsimp only
    split <;> rfl

theorem State.performContribs_setBank (s : State) (b : RegBank) (p : Contrib → Bool) :
    (s.setBank b).performContribs p = (s.performContribs p).setBank b :=
  foldl_image (g := fun u : State => u.setBank b) (fun u c => u.contribute_setBank b c) (s.contribs.filter p)
    { s with contribs := s.contribs.filter (fun c => !p c) }

theorem State.performContribs_flushed (s : State) (p : Contrib → Bool) : s.Flushed (s.performContribs p) :=
  .trans (t := { s with contribs := s.contribs.filter (fun c => !p c) }) rfl
    (foldl_rel (R := State.Flushed) .refl .trans State.contribute_flushed _ _)

theorem State.releaseAll_flushed (s : State) (sc : Nat) : s.Flushed (s.releaseAll sc) := by
  unfold State.releaseAll
  split
  · rfl
  · dsimp only
    split
    · exact (s.writeBack_flushed _).trans (State.performContribs_flushed _ _)
    · exact s.writeBack_flushed _

theorem State.releaseAll_setBank (s : State) (b : RegBank) (sc : Nat) :
    (s.setBank b).releaseAll sc = (s.releaseAll sc).setBank b := by
  unfold State.releaseAll
  dsimp only
  rw [State.setBank_ctx, Ctx.setBank_id, State.writeBack_setBank, State.performContribs_setBank]
  split
  · rfl
  · split <;> rfl

/-! ### A queue operation that reaches its queue -/

/-- The checks of a queue operation pass (R178). -/
theorem State.queueCheck_reaches {s : State} {desc : Word} {sc : Nat} {q : QDesc} (h : Say.Reaches s desc sc q) :
    s.queueCheck desc sc = .ok (s.flushBytes q.pa 64, q) := by
  obtain ⟨hal, ⟨ps, hps, hpa⟩, hm, hq, hsc⟩ := h
  unfold State.queueCheck
  rw [if_neg (by omega), hps]
  dsimp only
  rw [← hpa, hm, hq]
  simp [hsc]

/-- The state once the oldest entry, at ra, has left a queue: the issuer's stores performed, POPPED one higher (R180). -/
def State.entryTaken (s : State) (q : QDesc) (sc ra : Nat) : State :=
  let s1 := s.flushBytes q.pa 64
  ((s1.flushBytes ra 8).rawWrite (q.pa + 24) (bytesOfNat 8 ((q.popped + 1) % 2 ^ 64))).scopeTakeN s1.me sc q.pa 64

/-- The state once v has been appended to a queue at ra: after the release, PUSHED one higher (R181). -/
def State.pushedAt (s : State) (q : QDesc) (sc ra : Nat) (v : Word) : State :=
  (((((s.flushBytes q.pa 64).releaseAll sc).flushBytes ra 8).rawWrite ra (bytesOfNat 8 v.toNat)).rawWrite (q.pa + 16)
    (bytesOfNat 8 ((q.pushed + 1) % 2 ^ 64))).queueTake sc q.pa

section
variable {s : State} {desc : Word} {sc ra : Nat} {q : QDesc}

theorem State.rawWrite_flushed (s : State) (pa : Nat) (bs : List Byte) : s.Flushed (s.rawWrite pa bs) := rfl

theorem State.scopeTakeN_flushed (s : State) (w : Who) (sc pa n : Nat) : s.Flushed (s.scopeTakeN w sc pa n) := rfl

theorem State.queueTake_flushed (s : State) (sc pa : Nat) : s.Flushed (s.queueTake sc pa) := rfl

theorem State.entryTaken_flushed : s.Flushed (s.entryTaken q sc ra) := by
  unfold State.entryTaken
  exact (s.flushBytes_flushed _ _).trans ((State.flushBytes_flushed _ _ _).trans
    ((State.rawWrite_flushed _ _ _).trans (State.scopeTakeN_flushed _ _ _ _ _)))

theorem State.pushedAt_flushed (v : Word) : s.Flushed (s.pushedAt q sc ra v) := by
  unfold State.pushedAt
  exact (s.flushBytes_flushed _ _).trans ((State.releaseAll_flushed _ _).trans ((State.flushBytes_flushed _ _ _).trans
    ((State.rawWrite_flushed _ _ _).trans ((State.rawWrite_flushed _ _ _).trans (State.queueTake_flushed _ _ _)))))

/-- A pop of a queue that holds an entry no waiter comes first for (R180). -/
theorem State.popQueue_entry (hg : s.givenEntry = none) (h : Say.Reaches s desc sc q) (hc : 0 < q.count)
    (ha : ∀ c ∈ s.ctxs, s.aheadOf q.pa c = false) (hr : (s.flushBytes q.pa 64).ringSlot q q.popped = .ok ra) :
    s.popQueue desc sc = .entry (s.entryTaken q sc ra).acquireAll
      { bits := BitVec.ofNat 64 (((s.flushBytes q.pa 64).flushBytes ra 8).natAt ra 8)
        pois := ((s.flushBytes q.pa 64).flushBytes ra 8).marked ra } := by
  have hany : s.ctxs.any (s.aheadOf q.pa) = false := by
    rw [List.any_eq_false]; exact fun c hc => by simp [ha c hc]
  have ht : (s.flushBytes q.pa 64).takeEntry (s.flushBytes q.pa 64).me q sc = .ok (s.entryTaken q sc ra,
      { bits := BitVec.ofNat 64 (((s.flushBytes q.pa 64).flushBytes ra 8).natAt ra 8)
        pois := ((s.flushBytes q.pa 64).flushBytes ra 8).marked ra }) := by
    unfold State.takeEntry
    rw [hr]
    rfl
  unfold State.popQueue
  rw [hg, State.queueCheck_reaches h]
  dsimp only
  rw [if_pos ⟨by omega, hany⟩, ht]

/-- A pop of a closed queue that is empty (R180). -/
theorem State.popQueue_ended (hg : s.givenEntry = none) (h : Say.Reaches s desc sc q) (hc : q.count = 0)
    (hcl : q.closed = true) : s.popQueue desc sc = .ended ((s.flushBytes q.pa 64).queueTake sc q.pa) := by
  unfold State.popQueue
  rw [hg, State.queueCheck_reaches h]
  dsimp only
  rw [if_neg (fun hn => hn.1 hc), if_pos ⟨hc, hcl⟩]

/-- A pop of an open queue that is empty (R180). -/
theorem State.popQueue_empty (hg : s.givenEntry = none) (h : Say.Reaches s desc sc q) (hc : q.count = 0)
    (hcl : q.closed = false) : s.popQueue desc sc = .empty (s.flushBytes q.pa 64) q.pa := by
  unfold State.popQueue
  rw [hg, State.queueCheck_reaches h]
  dsimp only
  rw [if_neg (fun hn => hn.1 hc), if_neg (fun hn => by simp [hcl] at hn)]

/-- A pop to whose wait an entry has been delivered (R33). -/
theorem State.popQueue_given {v : SReg} (hg : s.givenEntry = some v) :
    s.popQueue desc sc = .entry (s.setBank { s.bank with wait := none }).acquireAll v := by
  unfold State.popQueue
  rw [hg]

/-- A push to an open queue with room (R181). -/
theorem State.pushQueue_pushed (h : Say.Reaches s desc sc q) (hcl : q.closed = false) (hc : q.count < q.cap)
    (hr : (s.flushBytes q.pa 64).ringSlot q q.pushed = .ok ra) (v : Word) :
    s.pushQueue desc sc v = .pushed (s.pushedAt q sc ra v) := by
  unfold State.pushQueue
  rw [State.queueCheck_reaches h]
  dsimp only
  rw [if_neg (by simp [hcl]), if_neg (by omega), hr]
  rfl

/-- A push to a closed queue (R181). -/
theorem State.pushQueue_ended (h : Say.Reaches s desc sc q) (hcl : q.closed = true) (v : Word) :
    s.pushQueue desc sc v = .ended ((s.flushBytes q.pa 64).queueTake sc q.pa) := by
  unfold State.pushQueue
  rw [State.queueCheck_reaches h]
  exact if_pos hcl

/-- A push to a full queue (R181). -/
theorem State.pushQueue_full (h : Say.Reaches s desc sc q) (hcl : q.closed = false) (hc : q.cap ≤ q.count) (v : Word) :
    s.pushQueue desc sc v = .full (s.flushBytes q.pa 64) q.pa := by
  unfold State.pushQueue
  rw [State.queueCheck_reaches h]
  dsimp only
  rw [if_neg (by simp [hcl]), if_pos hc]

theorem State.entryTaken_mem : (s.entryTaken q sc ra).mem = (((s.flushBytes q.pa 64).flushBytes ra 8).rawWrite (q.pa + 24)
    (bytesOfNat 8 ((q.popped + 1) % 2 ^ 64))).mem := rfl

theorem State.pushedAt_mem (v : Word) : (s.pushedAt q sc ra v).mem =
    (((((s.flushBytes q.pa 64).releaseAll sc).flushBytes ra 8).rawWrite ra (bytesOfNat 8 v.toNat)).rawWrite (q.pa + 16)
      (bytesOfNat 8 ((q.pushed + 1) % 2 ^ 64))).mem := rfl

/-- POPPED after a pop. -/
theorem State.entryTaken_natAt : (s.entryTaken q sc ra).natAt (q.pa + 24) 8 = (q.popped + 1) % 2 ^ 64 := by
  rw [State.natAt_of_mem State.entryTaken_mem, State.natAt_rawWrite]
  norm_num

/-- A pop writes no other byte. -/
theorem State.entryTaken_sameBut :
    Say.SameBut ((s.flushBytes q.pa 64).flushBytes ra 8) (s.entryTaken q sc ra) (q.pa + 24) 8 := fun x hx => by
  rw [State.byteAt_of_mem State.entryTaken_mem, State.byteAt_rawWrite_outside _ (by simpa using hx)]

/-- What a push leaves in memory (R181). -/
theorem State.pushedAt_reads (v : Word) (hd : ra + 8 ≤ q.pa ∨ q.pa + 64 ≤ ra) :
    (s.pushedAt q sc ra v).natAt ra 8 = v.toNat ∧ (s.pushedAt q sc ra v).natAt (q.pa + 16) 8 = (q.pushed + 1) % 2 ^ 64 ∧
    ∀ x, ¬ (ra ≤ x ∧ x < ra + 8) → ¬ (q.pa + 16 ≤ x ∧ x < q.pa + 24) → (s.pushedAt q sc ra v).byteAt x =
      (((s.flushBytes q.pa 64).releaseAll sc).flushBytes ra 8).byteAt x := by
  have outside (x : Nat) (hx : ¬ (q.pa + 16 ≤ x ∧ x < q.pa + 24)) : (s.pushedAt q sc ra v).byteAt x =
      ((((s.flushBytes q.pa 64).releaseAll sc).flushBytes ra 8).rawWrite ra (bytesOfNat 8 v.toNat)).byteAt x := by
    rw [State.byteAt_of_mem (State.pushedAt_mem v), State.byteAt_rawWrite_outside _ (by simpa using hx)]
  refine ⟨?_, ?_, fun x hx hx2 => ?_⟩
  · rw [State.natAt_congr (fun x h1 h2 => outside x (by omega)), State.natAt_rawWrite]
    exact Nat.mod_eq_of_lt (by have := v.isLt; norm_num; omega)
  · rw [State.natAt_of_mem (State.pushedAt_mem v), State.natAt_rawWrite]
    norm_num
  · rw [outside x hx2, State.byteAt_rawWrite_outside _ (by simpa using hx)]

end

/-! ### QPOP and QPUSH -/

/-- The register d holds v, s0 apart, and every other register is as before. -/
def Wrote (s t : State) (d : Reg) (v : SReg) : Prop :=
  t.rd d = (if d = 0#6 then SReg.zero else v) ∧ ∀ r, r ≠ d → t.rd r = s.rd r

section
variable {s s1 : State} {d : Reg} {v : SReg}

/-- A write of an unbound register. -/
theorem State.wr_wrote (hd : s.ctx.boundSlot d = none) : Wrote s (s.wr d v) d v := by
  have h (r : Reg) : (s.wr d v).rd r = if r = d ∧ d ≠ 0#6 then v else s.rd r := Ctx.readS_writeS s.ctx d r v hd
  refine ⟨?_, fun r hr => by rw [h, if_neg (fun hn => hr hn.1)]⟩
  rw [h]
  by_cases h0 : d = 0#6
  · rw [if_neg (fun hn => hn.2 h0), if_pos h0, h0]; rfl
  · rw [if_pos ⟨rfl, h0⟩, if_neg h0]

/-- Bindings and scalar registers of t are those of s. -/
def State.SameRegs (s t : State) : Prop := t.ctx.qbinds = s.ctx.qbinds ∧ ∀ r, t.rd r = s.rd r

theorem State.Flushed.sameRegs (h : s.Flushed s1) : s.SameRegs s1 := ⟨h.qbinds, h.rd⟩

/-- A write of an unbound register after what leaves the registers alone. -/
theorem State.SameRegs.wr_wrote (h : s.SameRegs s1) (hd : s.ctx.boundSlot d = none) : Wrote s (s1.wr d v) d v := by
  obtain ⟨hq, hr⟩ := h
  have hd1 : s1.ctx.boundSlot d = none := by rw [Ctx.boundSlot_of_qbinds hq]; exact hd
  obtain ⟨h1, h2⟩ := State.wr_wrote (v := v) hd1
  exact ⟨h1, fun r hne => (h2 r hne).trans (hr r)⟩

/-- A register written by an instruction that goes on. -/
theorem Wrote.goOn {u : State} (h : Wrote s u d v) (pc : Word) : Wrote s (u.goOn pc) d v := by
  unfold Wrote at *
  simpa using h

theorem Wrote.nonzero {u : State} (h : Wrote s u d v) (h0 : d ≠ 0#6) : u.rd d = v := h.1.trans (if_neg h0)

theorem Wrote.zero {u : State} (h : Wrote s u d SReg.zero) : u.rd d = SReg.zero := by
  rw [h.1]; split <;> rfl

end

/-- Recording a wait leaves everything but the wait. -/
theorem State.waitAt_eq (s : State) (k : Wait) (ch : Bool) : ∃ w : WaitSt, w.pc = s.ctx.pc ∧ w.kind = k ∧
    s.waitAt k ch = s.setBank { s.bank with wait := some w } := by
  unfold State.waitAt
  dsimp only
  unfold State.waitHere?
  cases s.bank.wait with
  | none => exact ⟨_, rfl, rfl, rfl⟩
  | some w =>
    by_cases h : w.pc = s.ctx.pc
    · simp only [if_pos h]
      split
      · refine ⟨_, ?_, ?_, rfl⟩
        · exact h
        · rfl
      · exact ⟨_, rfl, rfl, rfl⟩
    · simp only [if_neg h]
      exact ⟨_, rfl, rfl, rfl⟩

/-- Another wait of the running bank leaves every scalar register. -/
@[simp] theorem State.setWait_rd (s : State) (w : Option WaitSt) (r : Reg) :
    (s.setBank { s.bank with wait := w }).rd r = s.rd r :=
  Ctx.readS_congr (by simp) (by simp [State.bank]) r

/-- A wait at the instruction, as a statement sees it. -/
theorem State.waitAt_sees (s : State) (k : Wait) (ch : Bool) : (∀ r, (s.waitAt k ch).rd r = s.rd r) ∧
    (s.waitAt k ch).ctx.pc = s.ctx.pc ∧ (s.waitAt k ch).mem = s.mem ∧
    (s.waitAt k ch).bank.wait.map (fun w => (w.pc, w.kind)) = some (s.ctx.pc, k) := by
  obtain ⟨w, hpc, hk, hw⟩ := s.waitAt_eq k ch
  rw [hw]
  exact ⟨by simp, by simp, rfl, by simp [hpc, hk]⟩

@[simp] theorem State.goOn_mem (s : State) (pc : Word) : (s.goOn pc).mem = s.mem := rfl
@[simp] theorem State.goOn_qlast (s : State) (pc : Word) : (s.goOn pc).ctx.qlast = s.ctx.qlast := by simp [State.goOn_ctx]
@[simp] theorem State.goOn_qbind (s : State) (pc : Word) (n : Nat) : (s.goOn pc).ctx.qbind n = s.ctx.qbind n := by
  simp [State.goOn_ctx, Ctx.qbind]
@[simp] theorem State.progressEvent_mem (s : State) : s.progressEvent.mem = s.mem := rfl
@[simp] theorem State.progressEvent_qlast (s : State) : s.progressEvent.ctx.qlast = s.ctx.qlast := rfl
@[simp] theorem State.progressEvent_qbinds (s : State) : s.progressEvent.ctx.qbinds = s.ctx.qbinds := rfl
@[simp] theorem State.progressEvent_rd (s : State) (r : Reg) : s.progressEvent.rd r = s.rd r := rfl
@[simp] theorem State.setLast_mem (s : State) (n : BitVec 2) : (s.setLast n).mem = s.mem := rfl
@[simp] theorem State.setLast_qlast (s : State) (n : BitVec 2) : (s.setLast n).ctx.qlast = n := rfl
@[simp] theorem State.setLast_qbinds (s : State) (n : BitVec 2) : (s.setLast n).ctx.qbinds = s.ctx.qbinds := rfl
@[simp] theorem State.setLast_rd (s : State) (n : BitVec 2) (r : Reg) : (s.setLast n).rd r = s.rd r := rfl

/-- What QPOP does once its sources hold their values. -/
def qpopBody (f : FQPop) (s : State) : SeqOut := consume s f.a 1 (fun a =>
  match s.popQueue a f.scope.toNat with
  | .entry s1 v => .done (((s1.wr f.d v).setLast 0#2).progressEvent)
  | .ended s1 => .done (((s1.wrc f.d 0#64).setLast 2#2).progressEvent)
  | .empty s1 pa =>
    if f.tryF then .done (((s1.queueTake f.scope.toNat pa).wrc f.d 0#64).setLast 1#2) else .wait s1 (.pop (BitVec.ofNat 64 pa) none f.scope) false
  | .trap s1 c => .trap s1 c
  | .pushed s1 => .done s1
  | .full s1 _ => .done s1)

theorem exec_qpop (f : FQPop) (s : State) : exec (.qpop f) s = seqInstr [f.a] [f.d] (qpopBody f) s := rfl

section
variable {s s1 : State} {f : FQPop} {v : SReg}

/-- QPOP that writes v to D and n to LAST. -/
theorem qpop_writes (hp : s.Plain [f.a, f.d]) {u : State} (hb : qpopBody f s = .done u) (h : s.SameRegs s1) {n : BitVec 2}
    (hu : u = (s1.wr f.d v).setLast n ∨ u = ((s1.wr f.d v).setLast n).progressEvent) :
    ∃ t, exec (.qpop f) s = .next t ∧ Wrote s t f.d v ∧ t.ctx.qlast = n ∧ t.ctx.pc = s.pc8 ∧ t.mem = s1.mem := by
  have hw := h.wr_wrote (v := v) (hp.1 f.d (by simp))
  have hq : u.ctx.qbinds = s.ctx.qbinds := by rcases hu with rfl | rfl <;> simp [h.1]
  have hwu : Wrote s u f.d v := by rcases hu with rfl | rfl <;> simpa [Wrote] using hw
  have hlast : u.ctx.qlast = n := by rcases hu with rfl | rfl <;> simp
  have hmem : u.mem = s1.mem := by rcases hu with rfl | rfl <;> simp
  refine ⟨u.goOn s.pc8, ?_, hwu.goOn _, by rw [State.goOn_qlast, hlast], State.goOn_pc _ _, by rw [State.goOn_mem, hmem]⟩
  rw [exec_qpop]
  exact seqInstr_done hp hb hq

variable (hc : s.Clean [f.a])
include hc

theorem qpopBody_entry (h : s.popQueue (s.rd f.a).bits f.scope.toNat = .entry s1 v) :
    qpopBody f s = .done ((s1.wr f.d v).setLast 0#2).progressEvent := by
  rw [qpopBody, consume_clean (hc f.a (by simp)), h]

theorem qpopBody_ended (h : s.popQueue (s.rd f.a).bits f.scope.toNat = .ended s1) :
    qpopBody f s = .done ((s1.wr f.d SReg.zero).setLast 2#2).progressEvent := by
  rw [qpopBody, consume_clean (hc f.a (by simp)), h]; rfl

theorem qpopBody_empty {pa : Nat} (h : s.popQueue (s.rd f.a).bits f.scope.toNat = .empty s1 pa) : qpopBody f s =
    if f.tryF then .done (((s1.queueTake f.scope.toNat pa).wr f.d SReg.zero).setLast 1#2)
    else .wait s1 (.pop (BitVec.ofNat 64 pa) none f.scope) false := by
  rw [qpopBody, consume_clean (hc f.a (by simp)), h]; rfl

end

/-- What QPUSH does once its sources hold their values. -/
def qpushBody (f : FQPush) (s : State) : SeqOut := consume s f.a 1 (fun a => consume s f.b 2 (fun b =>
  match s.pushQueue a f.scope.toNat b with
  | .pushed s1 => .done (s1.wrc f.d 0#64)
  | .ended s1 => .done (s1.wrc f.d 2#64)
  | .full s1 pa => if f.tryF then .done ((s1.queueTake f.scope.toNat pa).wrc f.d 1#64)
    else .wait s1 (.push (BitVec.ofNat 64 pa)) false
  | .trap s1 c => .trap s1 c
  | .entry s1 _ => .done s1
  | .empty s1 _ => .done s1))

theorem exec_qpush (f : FQPush) (s : State) : exec (.qpush f) s = seqInstr [f.a, f.b] [f.d] (qpushBody f) s := rfl

section
variable {s s1 : State} {f : FQPush} {v : SReg}

/-- QPUSH that writes v to D. -/
theorem qpush_writes (hp : s.Plain [f.a, f.b, f.d]) (hb : qpushBody f s = .done (s1.wr f.d v)) (h : s.SameRegs s1) :
    ∃ t, exec (.qpush f) s = .next t ∧ Wrote s t f.d v ∧ t.ctx.pc = s.pc8 ∧ t.mem = s1.mem := by
  refine ⟨(s1.wr f.d v).goOn s.pc8, ?_, (h.wr_wrote (hp.1 f.d (by simp))).goOn _, State.goOn_pc _ _, State.goOn_mem _ _⟩
  rw [exec_qpush]
  exact seqInstr_done hp hb (by simp [h.1])

variable (hc : s.Clean [f.a, f.b])
include hc

theorem qpushBody_pushed (h : s.pushQueue (s.rd f.a).bits f.scope.toNat (s.rd f.b).bits = .pushed s1) :
    qpushBody f s = .done (s1.wr f.d SReg.zero) := by
  rw [qpushBody, consume_clean (hc f.a (by simp)), consume_clean (hc f.b (by simp)), h]; rfl

theorem qpushBody_ended (h : s.pushQueue (s.rd f.a).bits f.scope.toNat (s.rd f.b).bits = .ended s1) :
    qpushBody f s = .done (s1.wr f.d { bits := 2#64, pois := false }) := by
  rw [qpushBody, consume_clean (hc f.a (by simp)), consume_clean (hc f.b (by simp)), h]; rfl

theorem qpushBody_full {pa : Nat} (h : s.pushQueue (s.rd f.a).bits f.scope.toNat (s.rd f.b).bits = .full s1 pa) :
    qpushBody f s = if f.tryF then .done ((s1.queueTake f.scope.toNat pa).wr f.d { bits := 1#64, pois := false })
      else .wait s1 (.push (BitVec.ofNat 64 pa)) false := by
  rw [qpushBody, consume_clean (hc f.a (by simp)), consume_clean (hc f.b (by simp)), h]; rfl

end

end Sys2Proof.Machine

namespace Sys2Proof
open Machine

/-- QPOP (R180). -/
theorem queuePopTakesTheOldest : Say.QueuePopTakesTheOldest := by
  intro s f q hp hc hg h
  have hflush := s.flushBytes_flushed q.pa 64
  have htake := (hflush.trans (State.queueTake_flushed _ f.scope.toNat q.pa)).sameRegs
  dsimp only
  refine ⟨fun ra hn hah hr => ?_, fun hn hcl => ?_, fun hn hcl ht => ?_, fun hn hcl ht => ?_⟩
  · have hb := qpopBody_entry hc (State.popQueue_entry hg h hn hah hr)
    obtain ⟨t, hx, hw, hl, hpc, hm⟩ := qpop_writes hp hb
      (State.entryTaken_flushed.trans (State.acquireAll_flushed _)).sameRegs (.inr rfl)
    rw [State.acquireAll_mem] at hm
    refine ⟨t, hx, hw.1, hw.2, hl, hpc, ?_, fun x hn => ?_⟩
    · rw [State.natAt_of_mem hm]; exact State.entryTaken_natAt
    · rw [State.byteAt_of_mem hm]; exact State.entryTaken_sameBut x hn
  · have hb := qpopBody_ended hc (State.popQueue_ended hg h hn hcl)
    obtain ⟨t, hx, hw, hl, hpc, hm⟩ := qpop_writes hp hb htake (.inr rfl)
    exact ⟨t, hx, hw.zero, hw.2, hl, hpc, hm⟩
  · have hb := (qpopBody_empty hc (State.popQueue_empty hg h hn hcl)).trans (if_pos ht)
    obtain ⟨t, hx, hw, hl, hpc, hm⟩ := qpop_writes hp hb htake (.inl rfl)
    exact ⟨t, hx, hw.zero, hw.2, hl, hpc, hm⟩
  · have hb := (qpopBody_empty hc (State.popQueue_empty hg h hn hcl)).trans (if_neg (by simp [ht]))
    obtain ⟨hr, hpc, hm, hw⟩ := (s.flushBytes q.pa 64).waitAt_sees (.pop (BitVec.ofNat 64 q.pa) none f.scope) false
    refine ⟨_, ?_, fun r => (hr r).trans (hflush.rd r), hpc.trans hflush.pc, hm, by rw [hw, hflush.pc]⟩
    rw [exec_qpop]
    exact seqInstr_wait hp hb

/-- A QPOP to which an entry has been delivered (R33): the wait that held it is over. -/
theorem deliveredEntryIsPopped : Say.DeliveredEntryIsPopped := by
  intro s f v hp hc hg
  have hr : s.SameRegs (s.setBank { s.bank with wait := none }).acquireAll :=
    ⟨by simp [State.acquireAll, State.dropClean], fun r => (State.acquireAll_flushed _).rd r |>.trans (by simp)⟩
  obtain ⟨t, hx, hw, hl, hpc, hm⟩ := qpop_writes hp (qpopBody_entry hc (State.popQueue_given hg)) hr (.inr rfl)
  exact ⟨t, hx, hw.1, hw.2, hl, hpc, hm⟩

/-- QPUSH (R181). -/
theorem queuePushAppends : Say.QueuePushAppends := by
  intro s f q hp hc
  refine ⟨fun hb => ?_, fun hcb h => ?_⟩
  · rw [exec_qpush]
    refine seqInstr_trap hp ?_
    rw [qpushBody, consume_clean (hc f.a (by simp)), consume_poisoned hb]; rfl
  · have hcs : s.Clean [f.a, f.b] := State.clean_cons.mpr ⟨hc f.a (by simp), hcb⟩
    have hflush := s.flushBytes_flushed q.pa 64
    have htake := (hflush.trans (State.queueTake_flushed _ f.scope.toNat q.pa)).sameRegs
    dsimp only
    refine ⟨fun ra hcl hn hr hra => ?_, fun hcl => ?_, fun hcl hn ht => ?_, fun hcl hn ht => ?_⟩
    · have hb := qpushBody_pushed hcs (State.pushQueue_pushed h hcl hn hr _)
      obtain ⟨t, hx, hw, hpc, hm⟩ := qpush_writes hp hb (State.pushedAt_flushed _).sameRegs
      obtain ⟨h1, h2, h3⟩ := State.pushedAt_reads (s := s) (sc := f.scope.toNat) (s.rd f.b).bits hra
      exact ⟨t, hx, hw.zero, hw.2, hpc, (State.natAt_of_mem hm _ _).trans h1, (State.natAt_of_mem hm _ _).trans h2,
        fun x hx1 hx2 => (State.byteAt_of_mem hm x).trans (h3 x hx1 hx2)⟩
    · have hb := qpushBody_ended hcs (State.pushQueue_ended h hcl _)
      obtain ⟨t, hx, hw, hpc, hm⟩ := qpush_writes hp hb htake
      exact ⟨t, hx, hw.nonzero, hw.2, hpc, hm⟩
    · have hb := (qpushBody_full hcs (State.pushQueue_full h hcl hn _)).trans (if_pos ht)
      obtain ⟨t, hx, hw, hpc, hm⟩ := qpush_writes hp hb htake
      exact ⟨t, hx, hw.nonzero, hw.2, hpc, hm⟩
    · have hb := (qpushBody_full hcs (State.pushQueue_full h hcl hn _)).trans (if_neg (by simp [ht]))
      obtain ⟨hr, hpc, hm, hw⟩ := (s.flushBytes q.pa 64).waitAt_sees (.push (BitVec.ofNat 64 q.pa)) false
      refine ⟨_, ?_, fun r => (hr r).trans (hflush.rd r), hpc.trans hflush.pc, hm, by rw [hw, hflush.pc]⟩
      rw [exec_qpush]
      exact seqInstr_wait hp hb

/-- Settles O51. -/
theorem queuesPopAndPush : Obligations.QueuesPopAndPush :=
  ⟨queuePopTakesTheOldest, deliveredEntryIsPopped, queuePushAppends⟩

end Sys2Proof
end
section
/-! # Bound queue registers (O9) -/

namespace Sys2Proof.Machine

/-! ### A queue operation beside another bank -/

section
variable (s : State) (b : RegBank)

@[simp] theorem Ctx.core_setBank (c : Ctx) : (c.setBank b).core = c.core := by simp [Ctx.core]

@[simp] theorem Ctx.device_setBank (c : Ctx) : (c.setBank b).device = c.device := by simp [Ctx.device, Ctx.atSteward]

@[simp] theorem Ctx.partition_setBank (c : Ctx) : (c.setBank b).partition = c.partition := by simp [Ctx.partition, Ctx.atSteward]

/-- No translation looks at a bank (R359, R363). -/
theorem State.xlateAt_setBank (p vdn part va : Nat) (n : Need) :
    (s.setBank b).xlateAt p vdn part va n = s.xlateAt p vdn part va n := rfl

theorem State.xlate_setBank (va : Nat) (n : Need) : (s.setBank b).xlate va n = s.xlate va n := by
  unfold State.xlate
  rw [State.setBank_ctx, Ctx.core_setBank, Ctx.device_setBank, Ctx.partition_setBank, State.xlateAt_setBank]

variable {s}

theorem State.xlateRange_setBank {va n : Nat} {need : Need} {ps : List (Nat × XOk)} (h : s.xlateRange va n need = .ok ps) :
    (s.setBank b).xlateRange va n need = .ok ps := by
  unfold State.xlateRange at h ⊢
  simp only [State.xlate_setBank]
  split at h
  · exact h
  · cases h

theorem State.checkData_setBank {va n : Nat} {need : Need} {ps : List (Nat × XOk)} (h : s.checkData va n need = .ok ps) :
    (s.setBank b).checkData va n need = .ok ps := by
  unfold State.checkData at h ⊢
  cases hx : s.xlateRange va n need with
  | error e => rw [hx] at h; cases h
  | ok qs =>
    rw [hx] at h
    rw [State.xlateRange_setBank b hx]
    have ht : (s.setBank b).touchesRegion (s.setBank b).ctx va n = s.touchesRegion s.ctx va n := by
      simp [State.touchesRegion]
    dsimp only at h ⊢
    rw [ht]
    split at h
    · cases h
    · rw [if_neg ‹_›]; exact h

theorem State.ringSlot_setBank {q : QDesc} {k ra : Nat} (h : s.ringSlot q k = .ok ra) :
    (s.setBank b).ringSlot q k = .ok ra := by
  unfold State.ringSlot at h ⊢
  dsimp only at h ⊢
  cases hx : s.xlateRange (q.base + 8 * (k % q.cap)) 8 .rw with
  | error e => rw [hx] at h; cases h
  | ok ps =>
    rw [hx] at h
    rw [State.xlateRange_setBank b hx]
    exact h

/-- The queue that an operation reaches. -/
theorem State.reaches_setBank {desc : Word} {sc : Nat} {q : QDesc} (h : Say.Reaches s desc sc q) :
    Say.Reaches (s.setBank b) desc sc q := by
  obtain ⟨hal, ⟨ps, hps, hpa⟩, hm, hq, hsc⟩ := h
  have hme : (s.setBank b).me = s.me := by simp [State.me]
  refine ⟨hal, ⟨ps, State.checkData_setBank b hps, hpa⟩, ?_⟩
  rw [State.flushBytes_setBank, hme]
  exact ⟨hm, hq, hsc⟩

end

/-! ### Bindings -/

section
variable {c : Ctx} {r d : Reg} {n m : Nat} {b : QBinding}

theorem Ctx.boundSlot_iff : c.boundSlot r = some n ↔ queueSlot r = some n ∧ (c.qbind n).desc.isSome := by
  unfold Ctx.boundSlot
  cases queueSlot r with
  | none => simp
  | some m =>
    dsimp only
    split
    · simp only [Option.some.injEq]
      exact ⟨fun h => ⟨h, h ▸ ‹_›⟩, fun h => h.1⟩
    · simp only [Option.some.injEq, false_iff, not_and, reduceCtorEq]
      rintro rfl
      assumption

/-- s0 is never bound to a queue (R38). -/
theorem Ctx.ne_zero_of_boundSlot (h : c.boundSlot r = some n) : r ≠ 0#6 := by
  rintro rfl
  cases h

/-- The register of another binding. -/
theorem queueSlot_ne (h : c.boundSlot r = none) (hb : c.boundSlot d = some n) : queueSlot r ≠ some n := fun hs => by
  have hr : c.boundSlot r = some n := Ctx.boundSlot_iff.mpr ⟨hs, (Ctx.boundSlot_iff.mp hb).2⟩
  rw [h] at hr
  cases hr

theorem Ctx.qbind_setQbind_self : (c.setQbind n b).qbind n = b := by simp [Ctx.qbind, Ctx.setQbind]

theorem Ctx.qbind_setQbind_ne (h : m ≠ n) : (c.setQbind n b).qbind m = c.qbind m := by
  simp [Ctx.qbind, Ctx.setQbind, Sparse.get_set_ne _ _ _ h]

/-- A changed binding binds no other register. -/
theorem Ctx.boundSlot_setQbind_ne (h : queueSlot r ≠ some n) : (c.setQbind n b).boundSlot r = c.boundSlot r := by
  unfold Ctx.boundSlot
  cases hq : queueSlot r with
  | none => rfl
  | some m =>
    dsimp only
    rw [Ctx.qbind_setQbind_ne (fun e => h (hq.trans (congrArg some e)))]

/-- A changed binding leaves what other registers read. -/
theorem Ctx.readS_setQbind_ne (h : queueSlot r ≠ some n) : (c.setQbind n b).readS r = c.readS r := by
  unfold Ctx.readS
  rw [Ctx.boundSlot_setQbind_ne h]
  split
  · rfl
  · cases hb : c.boundSlot r with
    | none => rfl
    | some m =>
      dsimp only
      rw [Ctx.qbind_setQbind_ne (fun e => h ((Ctx.boundSlot_iff.mp hb).1.trans (congrArg some e)))]

/-- A bound register reads the entry held for it (R156). -/
theorem Ctx.readS_bound (h : c.boundSlot r = some n) : c.readS r = ((c.qbind n).held).getD SReg.zero := by
  unfold Ctx.readS
  rw [if_neg (Ctx.ne_zero_of_boundSlot h), h]

/-- The entry of the first source, the only bound one, is used up. -/
theorem clearHeld_first (h : c.boundSlot r = some n) {rs : List Reg} (hrs : ∀ q ∈ rs, c.boundSlot q = none) :
    clearHeld (r :: rs) c = c.setQbind n { c.qbind n with held := none } := by
  have hc : clearHeld (r :: rs) c = clearHeld rs (c.setQbind n { c.qbind n with held := none }) := by
    simp only [clearHeld, List.foldl_cons, h]
  rw [hc]
  refine clearHeld_unbound _ _ (fun q hq => ?_)
  rw [Ctx.boundSlot_setQbind_ne (queueSlot_ne (hrs q hq) h)]
  exact hrs q hq

end

/-! ### An instruction with a bound register -/

theorem clearHeld_vdn (srcs : List Reg) (c : Ctx) : (clearHeld srcs c).vdn = c.vdn := by
  induction srcs generalizing c with
  | nil => rfl
  | cons r rs ih =>
    refine (ih _).trans ?_
    dsimp only
    split <;> rfl

/-- Retirement: the held entries of the sources are used up, then the machine goes on. -/
theorem State.retire_eq (s : State) (srcs : List Reg) (pc : Word) :
    s.retire srcs pc = (s.setCtx (clearHeld srcs s.ctx)).goOn pc := by
  unfold State.retire State.goOn
  rw [State.setCtx_ctx, clearHeld_vdn]

section
variable {srcs dsts : List Reg} {body : State → SeqOut} {s s1 s2 s3 : State}

/-- An instruction that pops, ends and pushes. -/
theorem seqRun_pushed (hp : (srcs ++ dsts).any s.bank.pends = false) (hpop : popSources srcs s = .done s1)
    (hb : body s1 = .done s2) (hd : pushDests dsts s2 = .done s3) :
    seqRun srcs dsts body s = s3.retire srcs s1.pc8 := by
  unfold seqRun
  rw [hp, hpop]
  simp only [Bool.false_eq_true, if_false, hb, finish, hd]
  rfl

theorem seqInstr_pushed (hp : (srcs ++ dsts).any s.bank.pends = false) (hpop : popSources srcs s = .done s1)
    (hb : body s1 = .done s2) (hd : pushDests dsts s2 = .done s3) :
    seqInstr srcs dsts body s = .next (s3.retire srcs s1.pc8) :=
  congrArg _ (seqRun_pushed hp hpop hb hd)

end

section
variable {s s1 : State} {f : FR3} {n : Nat} {v : SReg}

/-- The sum of two clean sources. -/
def addedOf (s : State) (f : FR3) : SReg := { bits := (s.rd f.a).bits + (s.rd f.b).bits, pois := false }

theorem exec_add (f : FR3) (s : State) : exec (.add f) s =
    seqInstr [f.a, f.b] [f.d] (fun s => alu s f.sp f.d [(1, s.rd f.a), (2, s.rd f.b)] ((s.rd f.a).bits + (s.rd f.b).bits)) s :=
  rfl

theorem addBody_clean (ha : (s.rd f.a).pois = false) (hb : (s.rd f.b).pois = false) :
    alu s f.sp f.d [(1, s.rd f.a), (2, s.rd f.b)] ((s.rd f.a).bits + (s.rd f.b).bits) = .done (s.wr f.d (addedOf s f)) := by
  unfold alu
  rw [List.find?_cons_of_neg (by simp [ha]), List.find?_cons_of_neg (by simp [hb])]
  rfl

/-- ADD whose first source is bound, once that source holds its entry (R156). -/
theorem add_held (hp : ([f.a, f.b] ++ [f.d]).any s.bank.pends = false) (hpop : popSources [f.a, f.b] s = .done s1)
    (ha : s1.ctx.boundSlot f.a = some n) (hh : (s1.ctx.qbind n).held = some v) (hv : v.pois = false)
    (hb : s1.ctx.boundSlot f.b = none) (hd : s1.ctx.boundSlot f.d = none) (hcb : (s1.rd f.b).pois = false) :
    ∃ t, exec (.add f) s = .next t ∧ (f.d ≠ 0#6 → t.rd f.d = { bits := v.bits + (s1.rd f.b).bits, pois := false }) ∧
      (t.ctx.qbind n).held = none ∧ (t.ctx.qbind n).desc = (s1.ctx.qbind n).desc ∧ t.ctx.pc = s1.pc8 ∧
      t.mem = s1.mem := by
  have hra : s1.rd f.a = v := (Ctx.readS_bound ha).trans (by rw [hh]; rfl)
  have hsum : addedOf s1 f = { bits := v.bits + (s1.rd f.b).bits, pois := false } := by rw [addedOf, hra]
  have hw := State.wr_wrote (s := s1) (v := addedOf s1 f) hd
  have hbs (r : Reg) : (s1.wr f.d (addedOf s1 f)).ctx.boundSlot r = s1.ctx.boundSlot r := Ctx.boundSlot_writeS ..
  have hclear := clearHeld_first ((hbs f.a).trans ha) (rs := [f.b]) (by simpa [hbs] using hb)
  refine ⟨_, (exec_add f s).trans (seqInstr_pushed hp hpop (addBody_clean (by rw [hra]; exact hv) hcb)
    (pushDests_unbound _ _ (by simpa [hbs] using hd))), ?_⟩
  rw [State.retire_eq, hclear]
  refine ⟨fun h0 => ?_, ?_, ?_, rfl, rfl⟩
  · rw [State.goOn_rd]
    exact (Ctx.readS_setQbind_ne (queueSlot_ne hd ha)).trans ((hw.nonzero h0).trans hsum)
  · rw [State.goOn_qbind]
    exact congrArg QBinding.held Ctx.qbind_setQbind_self
  · rw [State.goOn_qbind]
    refine (congrArg QBinding.desc Ctx.qbind_setQbind_self).trans ?_
    simp [Ctx.qbind]

end

/-! ### QBIND -/

section
variable {s : State} {c : Ctx} {f : FQBind} {n m : Nat} {r : Reg}

/-- A source whose binding holds nothing leaves the bindings at retirement. -/
theorem clearHeld_empty (h : ∀ n, c.boundSlot r = some n → (c.qbind n).held = none) (m : Nat) :
    (clearHeld [r] c).qbind m = c.qbind m := by
  simp only [clearHeld, List.foldl_cons, List.foldl_nil]
  cases hb : c.boundSlot r with
  | none => rfl
  | some n =>
    dsimp only
    by_cases hm : m = n
    · rw [hm, Ctx.qbind_setQbind_self, ← h n hb]
    · exact Ctx.qbind_setQbind_ne hm

theorem State.unbindQ_bound (h : (s.ctx.qbind n).desc.isSome) : s.unbindQ n =
    (s.setCtx (s.ctx.setQbind n QBinding.zero)).setBank
      (s.bank.setS (56 + n) ((s.ctx.qbind n).held.getD SReg.zero)) := by
  unfold State.unbindQ
  rw [if_neg (by rw [Option.isNone_iff_eq_none]; exact Option.isSome_iff_ne_none.mp h)]
  rfl

theorem State.unbindQ_unbound (h : (s.ctx.qbind n).desc.isSome = false) : s.unbindQ n = s := by
  unfold State.unbindQ
  rw [if_pos (by simpa using h)]

/-- Unbinding leaves memory, the program counter and the other bindings. -/
theorem State.unbindQ_frame (s : State) (n : Nat) : (s.unbindQ n).mem = s.mem ∧ (s.unbindQ n).ctx.pc = s.ctx.pc ∧
    ∀ m, m ≠ n → (s.unbindQ n).ctx.qbind m = s.ctx.qbind m := by
  cases h : (s.ctx.qbind n).desc.isSome with
  | false => rw [State.unbindQ_unbound h]; exact ⟨rfl, rfl, fun _ _ => rfl⟩
  | true =>
    rw [State.unbindQ_bound h]
    refine ⟨rfl, by simp [Ctx.setQbind], fun m hm => ?_⟩
    simpa using Ctx.qbind_setQbind_ne hm

/-- What QBIND's binding form leaves before it retires. -/
def State.boundQ (s : State) (f : FQBind) (a : Word) : State :=
  (s.unbindQ f.q.toNat).setCtx ((s.unbindQ f.q.toNat).ctx.setQbind f.q.toNat
    { desc := some a, scope := f.scope, held := none })

theorem State.boundQ_qbind (a : Word) (m : Nat) : (s.boundQ f a).ctx.qbind m =
    if m = f.q.toNat then { desc := some a, scope := f.scope, held := none } else s.ctx.qbind m := by
  by_cases hm : m = f.q.toNat
  · rw [if_pos hm, hm]
    exact Ctx.qbind_setQbind_self
  · rw [if_neg hm]
    exact (Ctx.qbind_setQbind_ne hm).trans ((s.unbindQ_frame _).2.2 m hm)

theorem exec_qbind (f : FQBind) (s : State) : exec (.qbind f) s = seqInstr (if f.unb then [] else [f.a]) [] (fun s =>
    if f.unb then .done (s.unbindQ f.q.toNat)
    else consume s f.a 1 (fun a =>
      if a.toNat % 64 ≠ 0 then .trap s (Cause.seq cALIGN 0 a) else .done (s.boundQ f a))) s := rfl

theorem qbind_binds (hu : f.unb = false) (hp : s.Plain [f.a]) (hc : s.Clean [f.a]) (hal : (s.rd f.a).bits.toNat % 64 = 0) :
    ∃ t, exec (.qbind f) s = .next t ∧
      t.ctx.qbind f.q.toNat = { desc := some (s.rd f.a).bits, scope := f.scope, held := none } ∧
      (∀ n, n ≠ f.q.toNat → t.ctx.qbind n = s.ctx.qbind n) ∧ t.ctx.pc = s.pc8 ∧ t.mem = s.mem := by
  have hua : s.ctx.boundSlot f.a = none := hp.1 f.a (by simp)
  have hx : exec (.qbind f) s = .next ((s.boundQ f (s.rd f.a).bits).retire [f.a] s.pc8) := by
    rw [exec_qbind, hu]
    refine seqInstr_pushed (dsts := []) ?_ (popSources_unbound [f.a] s (by simpa using hua)) ?_ rfl
    · simp [hp.2 f.a (by simp)]
    · rw [if_neg (by simp), consume_clean (hc f.a (by simp)), if_neg (by simpa using hal)]
  have hheld : ∀ n, (s.boundQ f (s.rd f.a).bits).ctx.boundSlot f.a = some n →
      ((s.boundQ f (s.rd f.a).bits).ctx.qbind n).held = none := fun n hn => by
    obtain ⟨hs, hd⟩ := Ctx.boundSlot_iff.mp hn
    rw [State.boundQ_qbind] at hd ⊢
    split
    · rfl
    · rw [if_neg ‹_›] at hd
      rw [Ctx.boundSlot_iff.mpr ⟨hs, hd⟩] at hua
      cases hua
  have hq (m : Nat) : ((s.boundQ f (s.rd f.a).bits).retire [f.a] s.pc8).ctx.qbind m =
      (s.boundQ f (s.rd f.a).bits).ctx.qbind m := by
    rw [State.retire_eq, State.goOn_qbind]
    exact clearHeld_empty hheld m
  refine ⟨_, hx, ?_, fun n hn => ?_, rfl, (s.unbindQ_frame _).1⟩
  · rw [hq, State.boundQ_qbind, if_pos rfl]
  · rw [hq, State.boundQ_qbind, if_neg hn]

theorem qbind_unbinds (hu : f.unb = true) (hb : (s.ctx.qbind f.q.toNat).desc.isSome) :
    ∃ t, exec (.qbind f) s = .next t ∧ (t.ctx.qbind f.q.toNat).desc = none ∧
      t.bank.getS (56 + f.q.toNat) = ((s.ctx.qbind f.q.toNat).held).getD SReg.zero ∧
      (∀ n, n ≠ f.q.toNat → t.ctx.qbind n = s.ctx.qbind n) ∧ t.ctx.pc = s.pc8 ∧ t.mem = s.mem := by
  obtain ⟨hm, -, hq⟩ := s.unbindQ_frame f.q.toNat
  have hx : exec (.qbind f) s = .next ((s.unbindQ f.q.toNat).goOn s.pc8) := by
    rw [exec_qbind, hu]
    refine (seqInstr_pushed (srcs := []) (dsts := []) (s1 := s) (s2 := s.unbindQ f.q.toNat) rfl rfl rfl rfl).trans ?_
    rw [State.retire_unbound _ _ _ (by simp)]
  refine ⟨_, hx, ?_, ?_, fun n hn => ?_, rfl, hm⟩
  · rw [State.goOn_qbind, State.unbindQ_bound hb]
    simp [Ctx.qbind_setQbind_self, QBinding.zero]
  · rw [State.goOn_bank, State.unbindQ_bound hb, State.bank_setBank]
    exact RegBank.getS_setS_self ..
  · rw [State.goOn_qbind, hq n hn]

end

/-! ### ADD with a bound register -/

section
variable {s s1 : State} {f : FR3} {n sc : Nat} {q : QDesc} {v : SReg} {rs : List Reg} {r : Reg} {pa : Nat}

/-- The first source holds its entry: nothing is popped. -/
theorem popSources_held (h : s.ctx.boundSlot r = some n) (hh : (s.ctx.qbind n).held = some v)
    (hrs : ∀ q ∈ rs, s.ctx.boundSlot q = none) : popSources (r :: rs) s = .done s := by
  simp only [popSources, h, hh, Option.isSome_some, if_true]
  exact popSources_unbound rs s hrs

/-- The state once the popped entry v is held by binding n (R156). -/
def State.holdEntry (s : State) (n : Nat) (b : QBinding) (v : SReg) : State :=
  (s.setCtx (s.ctx.setQbind n { b with held := some v })).progressEvent

/-- The first source takes the oldest entry of its queue. -/
theorem popSources_entry (h : s.ctx.boundSlot r = some n) (hh : (s.ctx.qbind n).held = none)
    (hpop : s.popQueue ((s.ctx.qbind n).desc.getD 0#64) (s.ctx.qbind n).scope.toNat = .entry s1 v)
    (hq : s1.ctx.qbinds = s.ctx.qbinds) (hrs : ∀ q ∈ rs, s.ctx.boundSlot q = none) :
    popSources (r :: rs) s = .done (s1.holdEntry n (s.ctx.qbind n) v) := by
  simp only [popSources, h, hh, Option.isSome_none, Bool.false_eq_true, if_false, hpop]
  refine popSources_unbound rs _ (fun q hq' => ?_)
  refine (Ctx.boundSlot_setQbind_ne (c := s1.ctx) (queueSlot_ne (hrs q hq') h)).trans ?_
  rw [Ctx.boundSlot_of_qbinds hq, hrs q hq']

/-- The first source waits for an entry. -/
theorem popSources_empty (h : s.ctx.boundSlot r = some n) (hh : (s.ctx.qbind n).held = none)
    (hpop : s.popQueue ((s.ctx.qbind n).desc.getD 0#64) (s.ctx.qbind n).scope.toNat = .empty s1 pa) :
    popSources (r :: rs) s = .wait s1 (.pop (BitVec.ofNat 64 pa) (some n) (s.ctx.qbind n).scope) false := by
  simp only [popSources, h, hh, Option.isSome_none, Bool.false_eq_true, if_false, hpop]

theorem State.holdEntry_rd {b : QBinding} (h : queueSlot r ≠ some n) : (s.holdEntry n b v).rd r = s.rd r :=
  Ctx.readS_setQbind_ne h

theorem State.holdEntry_qbind {b : QBinding} : (s.holdEntry n b v).ctx.qbind n = { b with held := some v } :=
  Ctx.qbind_setQbind_self

/-- The machine waits for an entry: every register but the bound one's is as before. -/
theorem add_waits (hp : ([f.a, f.b] ++ [f.d]).any s.bank.pends = false) {k : Wait}
    (hpop : popSources [f.a, f.b] s = .wait s1 k false) : exec (.add f) s = .next (s1.waitAt k false) := by
  rw [exec_add]
  unfold seqInstr seqRun
  rw [hp, hpop]
  rfl

theorem add_pends (hp : s.Plain [f.b, f.d]) (ha : s.bank.pends f.a = false) :
    ([f.a, f.b] ++ [f.d]).any s.bank.pends = false := by
  simp [ha, hp.2 f.b (by simp), hp.2 f.d (by simp)]

theorem add_pops (ha : s.ctx.boundSlot f.a = some n) (hh : (s.ctx.qbind n).held = none) (hp : s.Plain [f.b, f.d])
    (hc : s.Clean [f.b]) (hpa : s.bank.pends f.a = false)
    (hpop : s.popQueue ((s.ctx.qbind n).desc.getD 0#64) (s.ctx.qbind n).scope.toNat = .entry s1 v)
    (hf : s.Flushed s1) (hv : v.pois = false) :
    ∃ t, exec (.add f) s = .next t ∧
      (f.d ≠ 0#6 → t.rd f.d = { bits := v.bits + (s.rd f.b).bits, pois := false }) ∧
      (t.ctx.qbind n).held = none ∧ (t.ctx.qbind n).desc = (s.ctx.qbind n).desc ∧ t.ctx.pc = s.pc8 ∧
      t.mem = s1.mem := by
  have hub : s.ctx.boundSlot f.b = none := hp.1 f.b (by simp)
  have hud : s.ctx.boundSlot f.d = none := hp.1 f.d (by simp)
  have hslot (r : Reg) (hr : s.ctx.boundSlot r = none) : (s1.holdEntry n (s.ctx.qbind n) v).ctx.boundSlot r = none := by
    refine (Ctx.boundSlot_setQbind_ne (c := s1.ctx) (queueSlot_ne hr ha)).trans ?_
    rw [Ctx.boundSlot_of_qbinds hf.qbinds, hr]
  have hrb : (s1.holdEntry n (s.ctx.qbind n) v).rd f.b = s.rd f.b :=
    (State.holdEntry_rd (queueSlot_ne hub ha)).trans (hf.rd _)
  have ha1 : (s1.holdEntry n (s.ctx.qbind n) v).ctx.boundSlot f.a = some n := by
    obtain ⟨hs, hd⟩ := Ctx.boundSlot_iff.mp ha
    exact Ctx.boundSlot_iff.mpr ⟨hs, by rw [State.holdEntry_qbind]; exact hd⟩
  obtain ⟨t, hx, hd, hheld, hdesc, hpc, hm⟩ := add_held (add_pends hp hpa)
    (popSources_entry ha hh hpop hf.qbinds (by simpa using hub)) ha1 (by rw [State.holdEntry_qbind]) hv
    (hslot _ hub) (hslot _ hud) (by rw [hrb]; exact hc f.b (by simp))
  rw [hrb] at hd
  refine ⟨t, hx, hd, hheld, hdesc.trans (by rw [State.holdEntry_qbind]), hpc.trans ?_, hm⟩
  exact congrArg (· + 8#64) hf.pc

/-! The destination. -/

/-- The running bank once the bound destination has given its sum up. -/
def State.drained (s : State) (f : FR3) : RegBank := (s.bank.setS f.d.toNat (addedOf s f)).setS f.d.toNat SReg.zero

theorem State.drained_rd (hr : r ≠ f.d) : (s.setBank (s.drained f)).rd r = s.rd r := by
  have hne : r.toNat ≠ f.d.toNat := fun e => hr (BitVec.eq_of_toNat_eq e)
  unfold State.rd Ctx.readS
  simp only [State.setBank_ctx, Ctx.boundSlot_setBank, Ctx.qbind_setBank, Ctx.bank_setBank]
  rw [State.drained, RegBank.getS_setS_ne _ _ hne, RegBank.getS_setS_ne _ _ hne]
  rfl

/-- The push of the sum (R182). -/
def State.pushSum (s : State) (f : FR3) (n : Nat) : QRes :=
  (s.setBank (s.drained f)).pushQueue ((s.ctx.qbind n).desc.getD 0#64) (s.ctx.qbind n).scope.toNat
    ((s.rd f.a).bits + (s.rd f.b).bits)

/-- The bit of a binding that has met a closed queue is set (R182). -/
def State.terminated (s : State) (n : Nat) : State :=
  s.setCtx { s.ctx with qterm := s.ctx.qterm ||| BitVec.ofNat 4 (2 ^ n) }

theorem pushDests_sum (hd : s.ctx.boundSlot f.d = some n) : pushDests [f.d] (s.wr f.d (addedOf s f)) =
    match s.pushSum f n with
      | .pushed s1 => .done s1
      | .ended s1 => .done (s1.terminated n)
      | .full s1 pa => .wait s1 (.push (BitVec.ofNat 64 pa)) false
      | .trap s1 c => .trap s1 c
      | .entry s1 _ => .done s1
      | .empty s1 _ => .done s1 := by
  have hw : s.wr f.d (addedOf s f) = s.setBank (s.bank.setS f.d.toNat (addedOf s f)) := by
    unfold State.wr Ctx.writeS
    rw [if_neg (Ctx.ne_zero_of_boundSlot hd)]
    rfl
  rw [hw]
  simp only [pushDests, State.setBank_ctx, Ctx.boundSlot_setBank, hd, Ctx.qbind_setBank, State.bank_setBank, RegBank.getS_setS_self,
    State.setBank_setBank]
  rfl

@[simp] theorem State.goOn_qterm (s : State) (pc : Word) : (s.goOn pc).ctx.qterm = s.ctx.qterm := by simp [State.goOn_ctx]

/-- The bits of ended queues stand outside what a flush changes. -/
theorem State.Flushed.qterm (h : s.Flushed s1) : s1.ctx.qterm = s.ctx.qterm := by rw [h]

section
variable (hp : s.Plain [f.a, f.b]) (hc : s.Clean [f.a, f.b]) (hpd : s.bank.pends f.d = false)
include hp hc hpd

/-- ADD up to its push. -/
theorem add_pushes : exec (.add f) s = .next (finish [f.a, f.b] [f.d] s (s.wr f.d (addedOf s f)) s.pc8 none) := by
  have hpend : ([f.a, f.b] ++ [f.d]).any s.bank.pends = false := by
    simp [hpd, hp.2 f.a (by simp), hp.2 f.b (by simp)]
  rw [exec_add]
  unfold seqInstr seqRun
  rw [hpend, popSources_unbound _ _ hp.1]
  simp only [Bool.false_eq_true, if_false, addBody_clean (hc f.a (by simp)) (hc f.b (by simp))]
  rfl

/-- The push leaves a state with the bindings and the other registers of s: ADD goes on. -/
theorem add_goesOn (h : pushDests [f.d] (s.wr f.d (addedOf s f)) = .done s1) (hq : s1.ctx.qbinds = s.ctx.qbinds)
    (hr : ∀ r, r ≠ f.d → s1.rd r = s.rd r) : ∃ t, exec (.add f) s = .next t ∧ t.ctx.pc = s.pc8 ∧
      (∀ r, r ≠ f.d → t.rd r = s.rd r) ∧ t.mem = s1.mem ∧ t.ctx.qterm = s1.ctx.qterm := by
  refine ⟨s1.goOn s.pc8, ?_, State.goOn_pc _ _, fun r hne => (State.goOn_rd _ _ r).trans (hr r hne), State.goOn_mem _ _,
    State.goOn_qterm _ _⟩
  rw [add_pushes hp hc hpd]
  unfold finish
  rw [h]
  exact congrArg _ (State.retire_unbound _ _ _ (fun r hr => by rw [Ctx.boundSlot_of_qbinds hq]; exact hp.1 r hr))

variable (hd : s.ctx.boundSlot f.d = some n)
  (h : Say.Reaches s ((s.ctx.qbind n).desc.getD 0#64) (s.ctx.qbind n).scope.toNat q)
include hd h

theorem add_sumPushed {ra : Nat} (hcl : q.closed = false) (hn : q.count < q.cap)
    (hr : (s.flushBytes q.pa 64).ringSlot q q.pushed = .ok ra) (hra : ra + 8 ≤ q.pa ∨ q.pa + 64 ≤ ra) :
    ∃ t, exec (.add f) s = .next t ∧ t.ctx.pc = s.pc8 ∧ (∀ r, r ≠ f.d → t.rd r = s.rd r) ∧
      t.natAt ra 8 = ((s.rd f.a).bits + (s.rd f.b).bits).toNat ∧ t.natAt (q.pa + 16) 8 = (q.pushed + 1) % 2 ^ 64 ∧
      ∀ x, ¬ (ra ≤ x ∧ x < ra + 8) → ¬ (q.pa + 16 ≤ x ∧ x < q.pa + 24) → t.byteAt x =
        (((s.flushBytes q.pa 64).releaseAll (s.ctx.qbind n).scope.toNat).flushBytes ra 8).byteAt x := by
  have hr0 : ((s.setBank (s.drained f)).flushBytes q.pa 64).ringSlot q q.pushed = .ok ra := by
    rw [State.flushBytes_setBank]
    exact State.ringSlot_setBank _ hr
  have hpush := pushDests_sum hd
  rw [State.pushSum, State.pushQueue_pushed (State.reaches_setBank (s.drained f) h) hcl hn hr0] at hpush
  have hfl := State.pushedAt_flushed (s := s.setBank (s.drained f)) (q := q) (sc := (s.ctx.qbind n).scope.toNat)
    (ra := ra) ((s.rd f.a).bits + (s.rd f.b).bits)
  obtain ⟨h1, h2, h3⟩ := State.pushedAt_reads (s := s.setBank (s.drained f)) (sc := (s.ctx.qbind n).scope.toNat)
    ((s.rd f.a).bits + (s.rd f.b).bits) hra
  obtain ⟨t, hx, hpc, hrd, hm, -⟩ := add_goesOn hp hc hpd hpush (hfl.qbinds.trans (by simp))
    (fun r hr => (hfl.rd r).trans (State.drained_rd hr))
  refine ⟨t, hx, hpc, hrd, (State.natAt_of_mem hm _ _).trans h1, (State.natAt_of_mem hm _ _).trans h2,
    fun x hx1 hx2 => (State.byteAt_of_mem hm x).trans ((h3 x hx1 hx2).trans ?_)⟩
  rw [State.flushBytes_setBank, State.releaseAll_setBank, State.flushBytes_setBank]
  exact State.byteAt_of_mem rfl x

theorem add_pushWaits (hcl : q.closed = false) (hn : q.cap ≤ q.count) :
    exec (.add f) s = .next (s.waitAt (.push (BitVec.ofNat 64 q.pa)) false) := by
  have hpush := pushDests_sum hd
  rw [State.pushSum, State.pushQueue_full (State.reaches_setBank (s.drained f) h) hcl hn] at hpush
  rw [add_pushes hp hc hpd, finish, hpush]

theorem add_sumDiscarded (hcl : q.closed = true) : ∃ t, exec (.add f) s = .next t ∧ t.ctx.pc = s.pc8 ∧
    (∀ r, r ≠ f.d → t.rd r = s.rd r) ∧ t.mem = (s.flushBytes q.pa 64).mem ∧
    t.ctx.qterm = s.ctx.qterm ||| BitVec.ofNat 4 (2 ^ n) := by
  have hpush := pushDests_sum hd
  rw [State.pushSum, State.pushQueue_ended (State.reaches_setBank (s.drained f) h) hcl] at hpush
  have hfl := ((s.setBank (s.drained f)).flushBytes_flushed q.pa 64).trans
    (State.queueTake_flushed _ (s.ctx.qbind n).scope.toNat q.pa)
  obtain ⟨t, hx, hpc, hrd, hm, hqt⟩ := add_goesOn hp hc hpd hpush (hfl.qbinds.trans (by simp))
    (fun r hr => (hfl.rd r).trans (State.drained_rd hr))
  refine ⟨t, hx, hpc, hrd, hm.trans ?_, hqt.trans (congrArg (· ||| BitVec.ofNat 4 (2 ^ n)) (hfl.qterm.trans (by simp)))⟩
  rw [State.flushBytes_setBank]
  rfl

end

end

end Sys2Proof.Machine

namespace Sys2Proof
open Machine

/-- Settles O9. -/
theorem boundRegistersPopAndBind : Obligations.BoundRegistersPopAndBind := by
  intro s
  refine ⟨fun f hu hp hc => ⟨qbind_binds hu hp hc, fun hal => ?_⟩, fun f => qbind_unbinds,
    fun f n v ha hh hv hp hc hpa => ?_, fun f n q ha hh hp hc hpa hg hreach => ⟨fun ra hn hah hr hm => ?_, fun hn hcl => ?_⟩,
    fun f n q hd hp hc hpd hreach => ?_⟩
  · rw [exec_qbind, hu]
    refine seqInstr_trap (srcs := [f.a]) (dsts := []) hp ?_
    rw [if_neg (by simp), consume_clean (hc f.a (by simp)), if_pos hal]
    rfl
  · have hub : s.ctx.boundSlot f.b = none := hp.1 f.b (by simp)
    exact add_held (add_pends hp hpa) (popSources_held ha hh (by simpa using hub)) ha hh hv hub (hp.1 f.d (by simp))
      (hc f.b (by simp))
  · have hpop := State.popQueue_entry hg hreach hn hah hr
    obtain ⟨t, hx, hd, hheld, hdesc, hpc, hmem⟩ := add_pops ha hh hp hc hpa hpop
      (State.entryTaken_flushed.trans (State.acquireAll_flushed _)) hm
    rw [State.acquireAll_mem] at hmem
    refine ⟨t, hx, hd, hheld, hdesc, hpc, ?_, fun x hx' => ?_⟩
    · rw [State.natAt_of_mem hmem]; exact State.entryTaken_natAt
    · rw [State.byteAt_of_mem hmem]; exact State.entryTaken_sameBut x hx'
  · have hflush := s.flushBytes_flushed q.pa 64
    obtain ⟨hr, hpc, hm, hw⟩ := (s.flushBytes q.pa 64).waitAt_sees
      (.pop (BitVec.ofNat 64 q.pa) (some n) (s.ctx.qbind n).scope) false
    refine ⟨_, add_waits (add_pends hp hpa) (popSources_empty ha hh (State.popQueue_empty hg hreach hn hcl)),
      fun r _ => (hr r).trans (hflush.rd r), hpc.trans hflush.pc, hm, by rw [hw, hflush.pc]⟩
  · refine ⟨fun ra hcl hn hr hra => add_sumPushed hp hc hpd hd hreach hcl hn hr hra, fun hcl hn => ?_,
      add_sumDiscarded hp hc hpd hd hreach⟩
    obtain ⟨hr, hpc, hm, hw⟩ := s.waitAt_sees (.push (BitVec.ofNat 64 q.pa)) false
    exact ⟨_, add_pushWaits hp hc hpd hd hreach hcl hn, hr, hpc, hm, hw⟩

end Sys2Proof
end
section
/-! # One step (O55)

Whose move is next, and what the boundary at the program counter gives; then when a move is put off. -/

namespace Sys2Proof.Machine

section
variable {s s0 s2 t : State}

/-! ### The sequencer's move -/

/-- The core that runs the focused context finds it. -/
theorem State.onCore_focus {core : Nat} (hc : (s.coreSlot core).run = some s.ctx.id) (hr : s.running s.ctx = true) :
    s.onCore core = some s := by
  have hf : s.findCtx s.ctx.id = some s.ctx := if_pos rfl
  have hfoc : s.focus s.ctx.id = s := if_pos rfl
  unfold State.onCore
  rw [hc]
  dsimp only
  rw [hf, Option.any_some, hr, if_pos rfl, hfoc]

/-- What the boundary gives, as an outcome. -/
def Boundary.outcome (s : State) : Boundary → Host.Outcome State Fault Refusal
  | .instr i => exec i s
  | .trap s1 => .next s1

theorem sequencerStep_eq (s : State) : sequencerStep s =
    ({ s with ctx := s.ctx.settleLate } : State).boundary.outcome { s with ctx := s.ctx.settleLate } := rfl

/-- The sequencer's step is the boundary's (R22). -/
theorem step_seqTurn (h : Say.SeqTurn s s0 s2) : step s = settled (s0.wholly (s2.boundary.outcome s2)) := by
  obtain ⟨hrun, hs2, h⟩ := h
  have hseq : s2.boundary.outcome s2 = sequencerStep s0 := by
    have hctx : s0.ctx = s.ctx := by
      rcases h with ⟨core, rest, -, -, rfl⟩ | ⟨-, -, -, -, rfl⟩ <;> rfl
    rw [hs2, sequencerStep_eq, hctx]
  rw [hseq]
  rcases h with ⟨core, rest, hag, hcore, rfl⟩ | ⟨hag, hq, hch, hother, rfl⟩
  · unfold step
    rw [hag]
    dsimp only
    rw [turnStep, State.onCore_focus (s := { s with agenda := rest }) hcore hrun]
  · have hd : defaultStep s0 = s0.wholly (sequencerStep s0) := by
      unfold defaultStep
      simp [hq, hch, hother]
    unfold step
    rw [hag]
    dsimp only
    rw [if_pos hrun, hd]

/-! ### The boundary -/

/-- Nothing ends the running code's time (R351). -/
theorem spent_of_runsOn (h : Say.RunsOn s) : s.ctx.spent = false := by
  unfold Ctx.spent
  cases ht : s.ctx.thnd with
  | false => rfl
  | true =>
    cases hs : s.ctx.shnd with
    | true => rfl
    | false => simpa using h.1 ht hs

theorem boundary_spent (h : s.ctx.spent = true) : s.boundary = .trap s.forceEnd := if_pos h

theorem boundary_straggles (h : s.ctx.spent = false) (hs : s.straggles s.ctx = true) :
    s.boundary = .trap (s.displace [] s.ctx.id) := by
  unfold State.boundary
  rw [h, hs, if_neg (by simp), if_pos rfl]

/-- The boundary of code that runs on. -/
theorem boundary_runsOn (h : Say.RunsOn s) : s.boundary =
    if s.ctx.hasCause then .trap s.takePending
    else match s.fetch with
    | .error (s1, c) => .trap (s1.fault c)
    | .ok w => match decodeAt s.ctx.atSteward w with
      | .ok i => .instr (s.resolve i)
      | .illegal => .trap (s.fault (Cause.seq cILLEGAL 0 w))
      | .privilege => .trap (s.fault (Cause.seq cPRIVILEGE 0 w))
      | .reserved => .trap (s.fault (Cause.seq cRESERVED 0 w)) :=
  (if_neg (by simp [spent_of_runsOn h])).trans (if_neg (by simp [h.2]))

/-- Bytes as a word are the bytes as a number (R1). -/
theorem wordOfBytes_eq (bs : List Byte) : Sys2Proof.wordOfBytes bs = BitVec.ofNat 64 (natOfBytes bs) := by
  induction bs with
  | nil => rfl
  | cons b bs ih =>
    have hb : b.toNat < 2 ^ 8 := b.isLt
    have hc : Sys2Proof.wordOfBytes (b :: bs) = (Sys2Proof.wordOfBytes bs <<< 8) ||| b.setWidth 64 := rfl
    have hn : natOfBytes (b :: bs) = natOfBytes bs <<< 8 ||| b.toNat := by
      rw [← Nat.shiftLeft_add_eq_or_of_lt hb, Nat.shiftLeft_eq]
      exact (Nat.add_comm _ _).trans (congrArg (· + b.toNat) (Nat.mul_comm _ _))
    apply BitVec.eq_of_toNat_eq
    rw [hc, hn, ih]
    simp [Nat.shiftLeft_eq, Nat.mod_mul_mod]

theorem fetch_word {o : XOk} (hx : s.xlate s.ctx.pc.toNat .x = .ok o) (hm : s.marked o.pa = false) :
    s.fetch = .ok (BitVec.ofNat 64 (s.natAt o.pa 8)) := by
  unfold State.fetch
  dsimp only
  rw [hx]
  dsimp only
  rw [if_neg (by simp [hm]), wordOfBytes_eq, State.natAt]

theorem fetch_marked {o : XOk} (hx : s.xlate s.ctx.pc.toNat .x = .ok o) (hm : s.marked o.pa = true) :
    s.fetch = .error (s, Cause.seq 0x13#8 0 s.ctx.pc) := by
  unfold State.fetch
  dsimp only
  rw [hx]
  dsimp only
  rw [if_pos hm]
  rfl

theorem fetch_failed {f : XFail} (hx : s.xlate s.ctx.pc.toNat .x = .error f) : s.fetch =
    .error (s.xEvent (dieOf s.ctx.core) s.ctx.part.toNat s.ctx.vdn.toNat f, f.cause 0x04#8 s.ctx.pc.toNat) := by
  unfold State.fetch
  dsimp only
  rw [hx]
  rfl

theorem boundary_trapped {s1 : State} {c : Cause} (h : Say.RunsOn s) (hc : s.ctx.hasCause = false)
    (hf : s.fetch = .error (s1, c)) : s.boundary = .trap (s1.fault c) := by
  rw [boundary_runsOn h, hc, if_neg (by simp), hf]

/-- A word that decodes at the code's level (R144). -/
theorem boundary_decoded {w : Word} {i : Instr} (h : Say.AtWord s w) (hd : decodeAt s.ctx.atSteward w = .ok i) :
    s.boundary = .instr (s.resolve i) := by
  obtain ⟨hr, hc, o, hx, hm, rfl⟩ := h
  rw [boundary_runsOn hr, hc, if_neg (by simp), fetch_word hx hm]
  dsimp only
  rw [hd]

/-- FWCALL service 4 is the form its block names (R368). -/
theorem resolve_stage2Map {f : FDAfw} {n : Nat} (hb : s.blockAt f.a = some n) : s.resolve (.stage2Map f) =
    if n / 2 ^ 96 % 256 = 1 then .stage2Unmap f else if n / 2 ^ 96 % 256 = 2 then .moveToTier1 f
    else if n / 2 ^ 96 % 256 = 3 then .moveToTier2 f else if n / 2 ^ 96 % 256 = 4 then .setPermissions f
    else .stage2Map f := by
  have hk : n / 2 ^ 96 % 256 = bitsOf n 96 8 := rfl
  rw [hk]
  unfold State.resolve
  dsimp only
  rw [hb, Option.map_some]
  generalize bitsOf n 96 8 = k
  split
  all_goals simp_all

theorem bitOf_eq_testBit (n i : Nat) : bitOf n i = n.testBit i := by
  rw [bitOf, Nat.testBit_eq_decide_div_mod_eq]
  rfl

/-- CANCEL with bit 2 of B set is its clearing form (R325). -/
theorem resolve_cancel (s : State) (f : FDAB) : s.resolve (.cancel f) =
    if (s.rd f.b).bits.getLsbD 2 then .cancelClear f else .cancel f := by
  unfold State.resolve
  dsimp only
  rw [bitOf_eq_testBit]
  rfl

/-- FWCALL service 6 is the form its block names (R408). -/
theorem resolve_windowDeclare {f : FDAfw} {n : Nat} (hb : s.blockAt f.a = some n) :
    s.resolve (.windowDeclare f) = if n.testBit 161 then .windowRemove f else .windowDeclare f := by
  unfold State.resolve
  dsimp only
  rw [hb, Option.map_some, bitOf_eq_testBit]
  cases n.testBit 161 <;> rfl

theorem forceEnd_eq (s : State) : s.forceEnd = if s.underWay then s else s.forceSave := rfl

/-! ### An engine's move -/

theorem step_engine {core : Nat} {e : Eng} {rest : List Turn} (ha : s.agenda = .engine core e :: rest)
    (hc : (s.coreSlot core).run = some s.ctx.id) (hr : s.running s.ctx = true) :
    step s = settled (({ s with agenda := rest } : State).wholly (engineStep e { s with agenda := rest })) := by
  unfold step
  rw [ha]
  dsimp only
  rw [turnStep, State.onCore_focus (s := { s with agenda := rest }) hc hr]

/-- The entry an engine's turn works on: the first of its queue where none has cells to write and X owes no push. -/
theorem nextEntry_first {e : Eng} {en : Entry} {q : List Entry} (hq : s.bank.queue e = en :: q)
    (hl : ∀ x ∈ s.bank.queue e, x.late = []) (ho : e ≠ .x ∨ en.pushOwed = false) : s.nextEntry e = some en := by
  have hn : (s.bank.queue e).find? (fun en => !en.late.isEmpty) = none := by
    rw [List.find?_eq_none]
    intro x hx
    simp [hl x hx]
  have hf : (en.pushOwed && e == .x) = false := by
    rcases ho with ho | ho
    · simp [ho]
    · simp [ho]
  unfold State.nextEntry
  dsimp only
  rw [hn]
  dsimp only
  rw [hq, List.head?_cons]
  split
  · rename_i hh _
    rw [← Option.some.inj hh, hf, Bool.false_and, if_neg (by simp)]
  · rfl

/-- Engines but X and V need no leave (R341). -/
theorem leave_units {e : Eng} (h : e = .l ∨ e = .s) : s.leave e = (s, true) := by
  rcases h with rfl | rfl <;> rfl

theorem engineStep_none {e : Eng} (h : s.bank.queue e = []) : engineStep e s = .next s := by
  have hn : s.nextEntry e = none := by
    unfold State.nextEntry
    rw [h]
    rfl
  unfold engineStep
  rw [hn]

theorem engineStep_free {e : Eng} {en : Entry} (h : s.nextEntry e = some en)
    (hf : e = .l ∨ e = .s ∨ en.pushOwed = true ∨ en.late ≠ []) :
    engineStep e s = exec en.instr { s with acting := some (e, en) } := by
  unfold engineStep
  rw [h]
  dsimp only
  split
  · rfl
  · rename_i hb
    have hb' : en.pushOwed = false ∧ en.late = [] := by simpa using hb
    have hu : e = .l ∨ e = .s := by
      rcases hf with h | h | h | h
      · exact .inl h
      · exact .inr h
      · simp [hb'.1] at h
      · exact absurd hb'.2 h
    rw [leave_units hu]

theorem engineStep_asks {e : Eng} {en : Entry} (h : s.nextEntry e = some en) (ho : en.pushOwed = false) (hl : en.late = []) :
    engineStep e s = match s.leave e with
      | (s1, false) => .next s1
      | (s1, true) => exec en.instr { s1 with acting := some (e, en) } := by
  unfold engineStep
  rw [h]
  exact if_neg (by simp [ho, hl])

/-! ### A part of a move -/

/-- Whether a move cuts an entry short does not turn on its being a part. -/
theorem settled_wholly_parts (s : State) (o : Host.Outcome State Fault Refusal) :
    settled (({ s with parts := true } : State).wholly o) = settled (s.wholly o) := by
  cases o with
  | next t =>
    change settled (if s.cutsShort t then .next { s with parts := true } else .next t) = settled (if s.cutsShort t then .next s else .next t)
    split <;> rfl
  | fault f => rfl
  | refused r => rfl

/-! ### Moves that are put off -/

theorem wholly_self (s : State) : s.wholly (.next s) = .next s := ite_self _

theorem wholly_eq_or (s : State) (o : Host.Outcome State Fault Refusal) :
    s.wholly o = o ∨ ∃ t, o = .next t ∧ s.wholly o = .next s := by
  cases o with
  | next t =>
    unfold State.wholly
    dsimp only
    split
    · exact .inr ⟨t, rfl, rfl⟩
    · exact .inl rfl
  | fault f => exact .inl rfl
  | refused r => exact .inl rfl

/-- The bank of a context with an index (log 10). -/
def Ctx.bankOf (d : Ctx) (n : Nat) : RegBank := if n = 0 then d.base else if n = 1 then d.tbank else d.sbank

theorem cutsShort_iff : s.cutsShort t = true ↔ ∃ c ∈ s.allCtxs, s.running c = true ∧ ∃ d, t.findCtx c.id = some d ∧
    d.halted = false ∧ d.place ≠ .nowhere ∧ (t.running d = false ∨ c.bankIx < d.bankIx) ∧
    t.goesOn d (d.bankOf c.bankIx) = true := by
  unfold State.cutsShort
  rw [List.any_eq_true]
  constructor
  · rintro ⟨c, hc, h⟩
    rw [List.mem_filter] at hc
    refine ⟨c, hc.1, hc.2, ?_⟩
    cases hf : t.findCtx c.id with
    | none => rw [hf] at h; cases h
    | some d =>
      rw [hf] at h
      refine ⟨d, rfl, ?_⟩
      simpa [and_assoc, Ctx.bankOf] using h
  · rintro ⟨c, hc, hr, d, hd, h⟩
    refine ⟨c, List.mem_filter.mpr ⟨hc, hr⟩, ?_⟩
    rw [hd]
    simpa [and_assoc, Ctx.bankOf] using h

theorem State.mem_allCtxs_of_findCtx {n : Nat} {d : Ctx} (h : s.findCtx n = some d) : d ∈ s.allCtxs := by
  unfold State.findCtx at h
  split at h
  · rw [← Option.some.inj h]; exact List.mem_cons_self
  · exact List.mem_cons_of_mem _ (List.mem_of_find?_eq_some h)

/-- A bank without entries has none under way. -/
theorem goesOn_empty {c : Ctx} {b : RegBank} (h : ∀ e, b.queue e = []) : s.goesOn c b = false := by
  have hl : b.lateCells = [] := by
    have hL : b.qL = [] := h .l
    have hX : b.qX = [] := h .x
    have hV : b.qV = [] := h .v
    have hS : b.qS = [] := h .s
    rw [RegBank.lateCells, hL, hX, hV, hS]
    rfl
  unfold State.goesOn
  simp [hl, h]

/-- A V or S entry that has begun and waits for no lock is under way. -/
theorem goesOn_started {c : Ctx} {b : RegBank} {e : Eng} {en : Entry} {rest : List Entry} (he : e = .v ∨ e = .s)
    (hq : b.queue e = en :: rest) (ho : en.pushOwed = false) (hp : en.popsTaken = true) (hl : en.stall ≠ .lock)
    (hf : ∀ f, en.instr ≠ .lfeed f) (hm : ∀ f, en.instr ≠ .lmask f) : s.goesOn c b = true := by
  have hfind : (b.queue e).find? (fun en => !en.pushOwed) = some en := by
    rw [hq, List.find?_cons_of_pos (by simp [ho])]
  have hx : (e != .x) = true := by rcases he with rfl | rfl <;> rfl
  unfold State.goesOn
  rw [Bool.or_eq_true, List.any_eq_true]
  refine .inr ⟨e, by rcases he with rfl | rfl <;> simp, ?_⟩
  rw [Bool.or_eq_true]
  right
  dsimp only
  rw [hx, hfind, Bool.true_and, Option.any_some, hp, Bool.true_and, Bool.not_eq_true', Bool.or_eq_false_iff]
  refine ⟨by simp [hl], ?_⟩
  split
  · exact absurd ‹_› (hf _)
  · exact absurd ‹_› (hm _)
  · rfl

theorem wholly_made (h : Say.StopsNone s t ∨ Say.NoEntries t) : s.wholly (.next t) = .next t := by
  refine if_neg (fun hcut => ?_)
  obtain ⟨c, hc, hr, d, hd, -, -, hstop, hgo⟩ := cutsShort_iff.mp hcut
  rcases h with h | h
  · rcases h c hc hr with hn | ⟨d', hd', hrun, hix⟩
    · rw [hn] at hd; cases hd
    · obtain rfl : d' = d := Option.some.inj (hd'.symm.trans hd)
      rcases hstop with hs | hs
      · rw [hrun] at hs; cases hs
      · omega
  · have he := h d (State.mem_allCtxs_of_findCtx hd)
    have hb : ∀ e, (d.bankOf c.bankIx).queue e = [] := fun e => by
      obtain ⟨h0, h1, h2⟩ := he e
      unfold Ctx.bankOf
      split
      · exact h0
      · split
        · exact h1
        · exact h2
    rw [goesOn_empty hb] at hgo
    cases hgo

theorem wholly_cut (h : Say.CutsAnEntry s t) : s.wholly (.next t) = .next s := by
  obtain ⟨c, hc, d, e, en, rest, hr, hix, hd, hh, hpl, hstop, he, hq, ho, hp, hl, hf, hm⟩ := h
  refine if_pos (cutsShort_iff.mpr ⟨c, hc, hr, d, hd, hh, hpl, by rw [hix]; exact hstop, ?_⟩)
  rw [hix]
  exact goesOn_started he hq ho hp hl hf hm

end

end Sys2Proof.Machine

namespace Sys2Proof
open Machine

/-- Settles O55. -/
theorem stepRunsTheDecodedInstruction : Obligations.StepRunsTheDecodedInstruction := by
  intro s
  refine ⟨fun s0 s2 h => ?_, resolve_cancel s, fun f n hb => ⟨?_, ?_⟩, fun core e rest ha hc hr => ?_, fun vd q rest ha => ?_,
    fun i rest ha hi => ?_, fun u rest ha => ?_, fun t => rfl, wholly_eq_or s, fun t => wholly_made, fun t => wholly_cut⟩
  · rw [step_seqTurn h]
    refine ⟨fun w i hw hd => ?_, fun ht hs hb => ?_, fun ht hs => ?_, fun hr hc => ?_, fun f hr hc hx => ?_,
      fun o hr hc hx hm => ?_⟩
    · rw [boundary_decoded hw hd]; rfl
    · rw [boundary_spent (by simp [Ctx.spent, ht, hs, hb]), forceEnd_eq]; rfl
    · rw [boundary_straggles (by simp [Ctx.spent, ht]) hs]; rfl
    · rw [boundary_runsOn hr, if_pos hc]; rfl
    · rw [boundary_trapped hr hc (fetch_failed hx)]; rfl
    · rw [boundary_trapped hr hc (fetch_marked hx hm)]; rfl
  · exact resolve_stage2Map hb
  · exact resolve_windowDeclare hb
  · have hstep := step_engine ha hc hr
    refine ⟨fun hq => ?_, fun en q hq hl ho => nextEntry_first (s := { s with agenda := rest }) hq hl ho, fun en hn => ⟨fun hf => ?_, fun s3 ho hl hlv => ?_,
      fun s3 ho hl hlv => ?_⟩⟩
    · rw [hstep, engineStep_none (s := { s with agenda := rest }) hq]
      exact congrArg settled (wholly_self _)
    · rw [hstep, engineStep_free hn hf]
    · rw [hstep, engineStep_asks hn ho hl, hlv]
    · rw [hstep, engineStep_asks hn ho hl, hlv]
  · unfold step
    rw [ha]
    rfl
  · unfold step
    rw [ha]
    dsimp only
    rw [turnStep, if_pos hi]
  · unfold step
    rw [ha]
    dsimp only
    rw [turnStep]
    exact (settled_wholly_parts _ _).symm

end Sys2Proof
end
section
/-! # Host packets (O35)

What a queue's window holds after a write of it, what a NOTIFY does, and how a packet that is served ends. -/

namespace Sys2Proof.Machine

section
variable {s t u : State} {vd q p n : Nat}

/-! ### A queue's window -/

@[simp] theorem State.hq_setHq (s : State) (vd q : Nat) (h : HQueue) : (s.setHq vd q h).hq vd q = h := by
  simp [State.hq, State.setHq]

theorem State.hq_setHq_ne (s : State) {v i : Nat} (h : HQueue) (hne : hqKey v i ≠ hqKey vd q) :
    (s.setHq vd q h).hq v i = s.hq v i := by
  simp [State.hq, State.setHq, Sparse.get_set_ne _ _ _ hne]

theorem State.hq_of_hqs (h : t.hqs = s.hqs) (vd q : Nat) : t.hq vd q = s.hq vd q := by simp [State.hq, h]

/-- A queue after a packet, where no STOP waits (R394). -/
theorem HQueue.advance_running {h : HQueue} (hs : h.stopReq = false) : h.advance = { h with
    work := { h.work with ridx := h.work.ridx + 1#32 }, waiting := none, begun := false, idle := 0
    inline := h.inline.filter (fun x => x.1 != h.work.ridx) } := by
  unfold HQueue.advance
  rw [hs]
  rfl

@[simp] theorem HQueue.commit_eidx (h : HQueue) : h.commit.eidx = h.eidx := by
  unfold HQueue.commit
  dsimp only
  split <;> rfl

@[simp] theorem HQueue.advance_eidx (h : HQueue) : h.advance.eidx = h.eidx := by
  unfold HQueue.advance
  dsimp only
  split
  · rw [HQueue.commit_eidx]
  · rfl

/-- A queue that has failed: its state, its code, the rest of its working copy but what the window holds (R397). -/
theorem HQueue.fail_work (h : HQueue) (st : BitVec 2) (code : Nat) : (h.fail st code).work.state = st ∧
    (h.fail st code).work.ecode = BitVec.ofNat 8 code ∧ (h.fail st code).work.ridx = h.work.ridx := by
  unfold HQueue.fail HQueue.commit
  dsimp only
  split <;> exact ⟨rfl, rfl, rfl⟩

/-! ### What an agent's failure leaves -/

/-- The host's queues and channels, and the counts of what is posted, are as before. -/
def State.HostSame (s t : State) : Prop := t.hqs = s.hqs ∧ t.hostChans = s.hostChans

theorem State.putCtx_host (s : State) (c : Ctx) : s.HostSame (s.putCtx c) := by
  unfold State.putCtx
  split <;> exact ⟨rfl, rfl⟩

theorem State.postSteward_host (s : State) (d : Nat) (x : Posted) : s.HostSame (s.postSteward d x) := by
  unfold State.postSteward State.post State.mapCtx
  split
  · split
    · exact s.putCtx_host _
    · exact ⟨rfl, rfl⟩
  · exact ⟨rfl, rfl⟩

theorem State.event_host (s : State) (die code part v a0 a1 : Nat) : s.HostSame (s.event die code part v a0 a1) := by
  obtain ⟨m, k, c, d, h⟩ := s.event_eq die code part v a0 a1
  rw [h]
  exact ⟨rfl, rfl⟩

theorem State.HostSame.trans (h : s.HostSame t) (h' : t.HostSame u) : s.HostSame u :=
  ⟨h'.1.trans h.1, h'.2.trans h.2⟩

theorem State.agentFails_host (s : State) (die part v agent va : Nat) (f : XFail) :
    s.HostSame (s.agentFails die part v agent va f) := by
  have h1 : s.HostSame (s.xEvent die part v f) := by
    unfold State.xEvent
    split
    · exact s.event_host _ _ _ _ _ _
    · exact ⟨rfl, rfl⟩
  have h2 : s.HostSame (if f.isStage2 then (s.xEvent die part v f).event die 0x0B part v va agent
      else s.xEvent die part v f) := by
    split
    · exact h1.trans (State.event_host _ _ _ _ _ _ _)
    · exact h1
  unfold State.agentFails
  dsimp only
  split
  · split
    · exact h2
    · exact h2.trans (State.postSteward_host _ _ _)
  · exact h2

theorem State.threadFails_host (s : State) (vd q : Nat) (e : Nat × XFail) : s.HostSame (s.threadFails vd q e) :=
  s.agentFails_host _ _ _ _ _ _

/-- Reading a chain reports what does not translate, and leaves the queues (R393). -/
theorem chainSpaces_host {s0 : State} (h0 : s0.HostSame s) (vd q n head : Nat) :
    s0.HostSame (State.chainSpaces vd q n head s).1 := by
  induction n generalizing head s with
  | zero => exact h0
  | succ n ih =>
    have hf {s : State} (h : s0.HostSame s) {e} : s0.HostSame (s.threadFails vd q e) := h.trans (s.threadFails_host vd q e)
    rw [chainSpaces_succ]
    extract_lets space
    have hs {s : State} (h : s0.HostSame s) {a} : s0.HostSame (space s a).1 := by grind only
    clear_value space
    grind only

/-! ### NOTIFY -/

theorem State.threadSignal_hqs (s : State) (vd q a n : Nat) : (s.threadSignal vd q a n).1.hqs = s.hqs := by
  unfold State.threadSignal
  split
  · rfl
  · exact (s.threadFails_host vd q _).1

/-- A NOTIFY is its counter's addition, then a message to the host (R392). -/
theorem State.notify_frame (s : State) (vd q : Nat) :
    (s.notify vd q).mem = (if (s.hq vd q).work.ncnt.toNat = 0 then s
      else (s.threadSignal vd q (s.hq vd q).work.ncnt.toNat 1).1).mem ∧ (s.notify vd q).hqs = s.hqs := by
  have hh : (if (s.hq vd q).work.ncnt.toNat = 0 then s
      else (s.threadSignal vd q (s.hq vd q).work.ncnt.toNat 1).1).hqs = s.hqs := by
    split
    · rfl
    · exact s.threadSignal_hqs _ _ _ _
  unfold State.notify
  dsimp only
  split
  · exact ⟨rfl, hh⟩
  · exact ⟨rfl, hh⟩

/-- A signal-add, read back, and what it leaves (R124). -/
theorem State.signalAt_reads (s : State) (w : Who) (sc pa n : Nat) :
    (s.signalAt w sc pa n).natAt pa 8 = min (s.natAt pa 8 + n) (2 ^ 64 - 1) ∧ Say.SameBut s (s.signalAt w sc pa n) pa 8 := by
  have hm : (s.signalAt w sc pa n).mem = (s.rawWrite pa (bytesOfNat 8 (min (s.natAt pa 8 + n) (2 ^ 64 - 1)))).mem := rfl
  refine ⟨?_, fun x hx => ?_⟩
  · rw [State.natAt_of_mem hm, State.natAt_rawWrite]
    exact Nat.mod_eq_of_lt (by omega)
  · rw [State.byteAt_of_mem hm, State.byteAt_rawWrite_outside _ (by simpa using hx)]

theorem State.threadSignal_ok {o : XOk} {a n : Nat} (h : s.walk vd (s.vdPart vd) a .rw = .ok o) :
    s.threadSignal vd q a n = (s.signalAt (.die (q % 2)) 4 o.pa n, true) := by
  unfold State.threadSignal
  rw [h]

/-- The counter of a NOTIFY (R392). -/
theorem State.notify_noted (s : State) (vd q : Nat) : Say.Noted s (s.notify vd q) vd q := by
  obtain ⟨hm, -⟩ := s.notify_frame vd q
  refine ⟨fun h0 => ?_, fun o h0 ho => ?_⟩
  · rw [h0] at hm
    exact hm
  · have hne : (s.hq vd q).work.ncnt.toNat ≠ 0 := fun h => h0 (BitVec.eq_of_toNat_eq h)
    rw [if_neg hne, State.threadSignal_ok ho] at hm
    obtain ⟨h1, h2⟩ := s.signalAt_reads (.die (q % 2)) 4 o.pa 1
    exact ⟨(State.natAt_of_mem hm _ _).trans h1, fun x hx => (State.byteAt_of_mem hm x).trans (h2 x hx)⟩

/-! ### How a packet that is served ends -/

/-- A queue whose CANCEL is refused (R29). -/
def State.refusedCancel (s : State) (vd q : Nat) : State :=
  s.setHq vd q { s.hq vd q with work := { (s.hq vd q).work with ecode := 9#8 } }

/-- The state that a packet's result leads to. -/
def PktRes.ended (vd q p : Nat) : PktRes → State
  | .done s1 => s1.effect vd q (bitOf p 8)
  | .plain s1 => s1.pass vd q (bitOf p 8)
  | .copy s1 => s1.effect vd q false
  | .refused s1 => (s1.refusedCancel vd q).effect vd q (bitOf p 8)
  | .bad s1 code => s1.badPacket vd q code
  | .error s1 code => s1.setHq vd q ((s1.hq vd q).fail 2#2 code)
  | .stay s1 => s1.setHq vd q { s1.hq vd q with begun := true }

/-- The packet of a queue that is served: its kind is looked at first, then its reserved bits (R393, R397). -/
theorem packetStep_served (h : Say.Served s vd q p) (kind : Nat) (body : State → Nat → PktRes) :
    packetStep kind vd q body s =
      if 7 < bitsOf p 0 8 then s.badPacket vd q 1
      else if bitsOf p 0 8 ≠ kind then s
      else if !bodyOk (bitsOf p 0 8) p then s.badPacket vd q 2
      else (body s p).ended vd q p := by
  obtain ⟨⟨hvd, hfn, hboot, hdie⟩, hq, hth, hwait, hcons, hne, hbelow, heph, -, hpkt⟩ := h
  have hup : s.windowUp vd q = true := by simp [State.windowUp, State.functionUp, hq, hvd, hfn, hboot, hdie]
  have hc : (s.hq vd q).consumes = true := by simpa [HQueue.consumes, Say.Consumes] using hcons
  have hb : idxBelow (s.hq vd q).work.ridx (s.hq vd q).eidx = false := by
    unfold idxBelow
    rcases hbelow with h0 | h1
    · rw [h0]; rfl
    · rw [decide_eq_false (by omega), Bool.and_false]
  unfold packetStep
  dsimp only
  rw [if_neg (by simp [hup, hc, hne, hwait, Option.isNone_iff_eq_none, Option.isSome_iff_ne_none.mp hth]),
    if_neg (by simp [hb]), if_neg (by simp [heph]), hpkt]
  dsimp only
  split
  · rfl
  · split
    · rfl
    · split
      · rfl
      · cases body s p <;> rfl

/-- A packet of its kind, in order. -/
theorem packetStep_kind {k used : Nat} (h : Say.Served s vd q p) (hk : Say.Kind p k used) (h7 : k ≤ 7)
    (hu : bodyOk k p = (bitsOf p 9 23 == 0 && p / 2 ^ (8 * used) == 0)) (body : State → Nat → PktRes) :
    packetStep k vd q body s = (body s p).ended vd q p := by
  obtain ⟨hk0, hr, hb⟩ := hk
  rw [packetStep_served h, if_neg (by omega), if_neg (by simp [hk0]), hk0, hu, hr, hb]
  rfl

/-- The main effect has taken place (R396). -/
theorem effect_took (hr : (u.hq vd q).work.ridx = (s.hq vd q).work.ridx) (hs : (u.hq vd q).stopReq = false) :
    Say.Took s (u.effect vd q (bitOf p 8)) vd q p := by
  unfold State.effect Say.Took
  dsimp only
  cases bitOf p 8 with
  | true => simp [hr]
  | false =>
    simp only [Bool.false_eq_true, if_false, State.hq_setHq]
    rw [HQueue.advance_running (h := { u.hq vd q with eidx := (u.hq vd q).work.ridx + 1#32, eph := false }) hs, hr]
    exact ⟨rfl, fun _ => ⟨rfl, rfl, rfl⟩, fun h => by cases h⟩

theorem effect_frame (u : State) (vd q : Nat) (b : Bool) : (u.effect vd q b).tasks = u.tasks ∧
    (u.effect vd q b).cancels = u.cancels ∧ (u.effect vd q b).mem = u.mem ∧
    (u.effect vd q b).hostChans = u.hostChans ∧
    ((u.effect vd q b).hq vd q).eidx = if b then (u.hq vd q).work.ridx else (u.hq vd q).work.ridx + 1#32 := by
  unfold State.effect
  dsimp only
  cases b with
  | true => exact ⟨rfl, rfl, rfl, rfl, by simp⟩
  | false => exact ⟨rfl, rfl, rfl, rfl, by simp⟩

/-- Its effect leaves the bound counter and the queue's code. -/
theorem effect_ncnt (u : State) (b : Bool) (hs : (u.hq vd q).stopReq = false) :
    ((u.effect vd q b).hq vd q).work.ncnt = (u.hq vd q).work.ncnt ∧
    ((u.effect vd q b).hq vd q).work.ecode = (u.hq vd q).work.ecode := by
  unfold State.effect
  dsimp only
  cases b with
  | true => simp
  | false =>
    simp only [Bool.false_eq_true, if_false, State.hq_setHq]
    rw [HQueue.advance_running (h := { u.hq vd q with eidx := (u.hq vd q).work.ridx + 1#32, eph := false }) hs]
    exact ⟨rfl, rfl⟩

/-- A packet without a main effect is complete (R396); u is the state that the packet's check leaves. -/
theorem pass_passed (hh : u.hqs = s.hqs) (hm : u.mem = s.mem) (hw : ∀ n, u.walk vd (u.vdPart vd) n .rw = s.walk vd (s.vdPart vd) n .rw)
    (hs : (s.hq vd q).stopReq = false) : Say.Passed s (u.pass vd q (bitOf p 8)) vd q p := by
  have huh := State.hq_of_hqs hh vd q
  unfold State.pass Say.Passed
  dsimp only
  cases bitOf p 8 with
  | false =>
    simp only [Bool.false_eq_true, if_false, State.hq_setHq, huh]
    rw [HQueue.advance_running hs]
    exact ⟨rfl, rfl, fun _ => ⟨rfl, rfl, hm⟩, fun h => by cases h⟩
  | true =>
    have hnh : (u.notify vd q).hq vd q = s.hq vd q := (State.hq_of_hqs (u.notify_frame vd q).2 vd q).trans huh
    simp only [if_true, State.hq_setHq, hnh]
    rw [HQueue.advance_running (h := { s.hq vd q with eidx := (s.hq vd q).work.ridx + 1#32, eph := false }) hs]
    refine ⟨rfl, rfl, fun h => (by cases h), fun _ => ⟨rfl, rfl, ?_⟩⟩
    obtain ⟨h1, h2⟩ := u.notify_noted vd q
    rw [huh] at h1 h2
    refine ⟨fun h0 => (h1 h0).trans hm, fun o h0 ho => ?_⟩
    obtain ⟨h3, h4⟩ := h2 o h0 ((hw _).trans ho)
    refine ⟨h3.trans (by rw [State.natAt_of_mem hm]), fun x hx => (h4 x hx).trans (State.byteAt_of_mem hm x)⟩

/-- A demotion leaves memory and the queues' windows (R397). -/
theorem demote_frame (u : State) (vd q : Nat) (b : Bool) : (u.demote vd q b).mem = u.mem ∧ (u.demote vd q b).hqs = u.hqs := by
  have hj : (u.joinDemoted (vd, q)).mem = u.mem ∧ (u.joinDemoted (vd, q)).hqs = u.hqs := by
    unfold State.joinDemoted
    dsimp only
    split
    · split <;> exact ⟨rfl, rfl⟩
    · exact ⟨rfl, rfl⟩
  unfold State.demote
  split
  · exact ⟨rfl, rfl⟩
  · exact hj

/-- A packet that is malformed: consumed without effect, its queue quarantined (R397). -/
theorem badPacket_frame (u : State) (vd q c : Nat) (hs : (u.hq vd q).stopReq = false) : (u.badPacket vd q c).mem = u.mem ∧
    ((u.badPacket vd q c).hq vd q).work.state = 3#2 ∧ ((u.badPacket vd q c).hq vd q).work.ecode = BitVec.ofNat 8 c ∧
    ((u.badPacket vd q c).hq vd q).work.ridx = (u.hq vd q).work.ridx + 1#32 := by
  unfold State.badPacket
  dsimp only
  obtain ⟨hm, hh⟩ := demote_frame (u.setHq vd q ((({ u.hq vd q with eidx := (u.hq vd q).work.ridx + 1#32, eph := false } :
    HQueue).advance).fail 3#2 c)) vd q ((u.hq vd q).work.state == 3#2)
  rw [hm, State.hq_of_hqs hh, State.hq_setHq]
  obtain ⟨h1, h2, h3⟩ := HQueue.fail_work (({ u.hq vd q with eidx := (u.hq vd q).work.ridx + 1#32, eph := false } :
    HQueue).advance) 3#2 c
  refine ⟨rfl, h1, h2, h3.trans ?_⟩
  rw [HQueue.advance_running (h := { u.hq vd q with eidx := (u.hq vd q).work.ridx + 1#32, eph := false }) hs]

end

/-! ### Each kind of packet -/

/-- The address of a counter: aligned, in no versioned region and no window of the device's partition (R393). -/
def GoodCounter (s : State) (vd a : Nat) : Prop := a % 8 = 0 ∧
  (∀ r ∈ s.regions, r.part = s.vdPart vd → a + 8 ≤ r.base.toNat ∨ r.base.toNat + 256 * r.sectors ≤ a) ∧
  s.window (s.vdPart vd) a 8 = none

/-- The counter of a packet is valid (R393). -/
theorem pktCounterOk_of_good {s : State} {vd a : Nat} (hg : GoodCounter s vd a) : s.pktCounterOk vd a = true := by
  obtain ⟨h8, hr, hw⟩ := hg
  unfold State.pktCounterOk
  have hany : s.regions.any (fun r => r.part == s.vdPart vd && decide (r.base.toNat < a + 8) &&
      decide (a < r.base.toNat + 256 * r.sectors)) = false := by
    rw [List.any_eq_false]
    intro r hm hn
    simp only [Bool.and_eq_true, beq_iff_eq, decide_eq_true_eq] at hn
    obtain ⟨⟨hp, h1⟩, h2⟩ := hn
    rcases hr r hm hp with h3 | h3 <;> omega
  simp [h8, hany, hw]

section
variable {s : State} {vd q p : Nat} (h : Say.Served s vd q p)
include h

theorem served_running : (s.hq vd q).stopReq = false := by
  obtain ⟨-, -, -, -, -, -, -, -, hs, -⟩ := h
  exact hs


/-- An instruction that is a packet's step, of its kind and in order, whose body comes to r. -/
theorem exec_packet {i : Instr} {k used : Nat} {body : State → Nat → PktRes} {r : PktRes}
    (hi : exec i s = .next (packetStep k vd q body s)) (hk : Say.Kind p k used) (h7 : k ≤ 7)
    (hu : bodyOk k p = (bitsOf p 9 23 == 0 && p / 2 ^ (8 * used) == 0)) (hr : body s p = r) :
    exec i s = .next (r.ended vd q p) :=
  hi.trans (congrArg _ ((packetStep_kind h hk h7 hu body).trans (congrArg (PktRes.ended vd q p) hr)))

theorem nopPacket_passes (hk : Say.Kind p 0 8) : ∃ t, exec (.nopPacket vd q) s = .next t ∧ Say.Passed s t vd q p :=
  ⟨_, exec_packet h rfl hk (by omega) rfl rfl, pass_passed rfl rfl (fun _ => rfl) (served_running h)⟩

theorem fencePacket_passes (hk : Say.Kind p 7 8) (ho : (s.hq vd q).work.outc = 0) :
    ∃ t, exec (.fencePacket vd q) s = .next t ∧ Say.Passed s t vd q p :=
  ⟨_, exec_packet h rfl hk (by omega) rfl (if_pos ho), pass_passed rfl rfl (fun _ => rfl) (served_running h)⟩

theorem fencePacket_stays (hk : Say.Kind p 7 8) (ho : (s.hq vd q).work.outc ≠ 0) :
    ∃ t, exec (.fencePacket vd q) s = .next t ∧ Say.QueueOnly s t vd q ∧ t.hq vd q = { s.hq vd q with begun := true } :=
  ⟨_, exec_packet h rfl hk (by omega) rfl (if_neg ho),
    ⟨rfl, rfl, rfl, rfl, fun _ _ hne => State.hq_setHq_ne _ _ hne⟩, State.hq_setHq _ _ _ _⟩

theorem signal_takes {o : XOk} (hk : Say.Kind p 3 24) (hg : GoodCounter s vd (bitsOf p 64 64))
    (ho : s.walk vd (s.vdPart vd) (bitsOf p 64 64) .rw = .ok o) :
    ∃ t, exec (.signal vd q) s = .next t ∧ Say.Took s t vd q p ∧ Say.SameBut s t o.pa 8 ∧
      t.natAt o.pa 8 = min (s.natAt o.pa 8 + bitsOf p 128 64) (2 ^ 64 - 1) := by
  have hx : exec (.signal vd q) s =
      .next ((PktRes.done (s.signalAt (.die (q % 2)) 4 o.pa (bitsOf p 128 64))).ended vd q p) :=
    exec_packet h rfl hk (by omega) rfl (by
      simp only [pktCounterOk_of_good hg, State.threadSignal_ok ho, Bool.not_true, Bool.false_eq_true, if_false, if_true])
  obtain ⟨h1, h2⟩ := s.signalAt_reads (.die (q % 2)) 4 o.pa (bitsOf p 128 64)
  have hh : (s.signalAt (.die (q % 2)) 4 o.pa (bitsOf p 128 64)).hq vd q = s.hq vd q := State.hq_of_hqs rfl vd q
  obtain ⟨-, -, hm, -⟩ := effect_frame (s.signalAt (.die (q % 2)) 4 o.pa (bitsOf p 128 64)) vd q (bitOf p 8)
  exact ⟨_, hx, effect_took (by rw [hh]) (by rw [hh]; exact served_running h), fun x hx => (State.byteAt_of_mem hm x).trans (h2 x hx),
    (State.natAt_of_mem hm _ _).trans h1⟩

/-- The queue's work with another notify counter (R393). -/
def State.bindCounter (s : State) (vd q a : Nat) : State :=
  s.setHq vd q { s.hq vd q with work := { (s.hq vd q).work with ncnt := BitVec.ofNat 64 a } }

theorem bindPacket_binds (hk : Say.Kind p 5 16) (hg : GoodCounter s vd (bitsOf p 64 64) ∨ bitsOf p 64 64 = 0) :
    ∃ t, exec (.bindPacket vd q) s = .next t ∧ Say.Took s t vd q p ∧ t.mem = s.mem ∧
      (t.hq vd q).work.ncnt.toNat = bitsOf p 64 64 := by
  have hc : ¬ (bitsOf p 64 64 ≠ 0 ∧ s.pktCounterOk vd (bitsOf p 64 64) = false) := by
    rintro ⟨h0, hf⟩
    rcases hg with hg | hg
    · rw [pktCounterOk_of_good hg] at hf; cases hf
    · exact h0 hg
  have hx : exec (.bindPacket vd q) s = .next ((PktRes.done (s.bindCounter vd q (bitsOf p 64 64))).ended vd q p) :=
    exec_packet h rfl hk (by omega) rfl (if_neg hc)
  have hu : (s.bindCounter vd q (bitsOf p 64 64)).hq vd q = { s.hq vd q with
      work := { (s.hq vd q).work with ncnt := BitVec.ofNat 64 (bitsOf p 64 64) } } := State.hq_setHq _ _ _ _
  obtain ⟨-, -, hm, -⟩ := effect_frame (s.bindCounter vd q (bitsOf p 64 64)) vd q (bitOf p 8)
  refine ⟨_, hx, effect_took (by rw [hu]) (by rw [hu]; exact served_running h), hm, ?_⟩
  have hn : (((s.bindCounter vd q (bitsOf p 64 64)).effect vd q (bitOf p 8)).hq vd q).work.ncnt =
      BitVec.ofNat 64 (bitsOf p 64 64) := by
    rw [(effect_ncnt _ _ (by rw [hu]; exact served_running h)).1, hu]
  rw [PktRes.ended, hn, BitVec.toNat_ofNat, Nat.mod_eq_of_lt]
  exact Nat.mod_lt _ (by norm_num)

/-- What a WAIT that blocks leaves: the queue waits for its counter (R393). -/
def State.blocked (s : State) (vd q pa a v tmo : Nat) : State :=
  (s.scopeTake (.die (q % 2)) 4 pa).setHq vd q { s.hq vd q with
    waiting := some { cnt := BitVec.ofNat 64 a, value := BitVec.ofNat 64 v, since := s.now, tmo := tmo } }

section
variable {o : XOk} (hk : Say.Kind p 4 28) (hg : GoodCounter s vd (bitsOf p 64 64))
  (ho : s.walk vd (s.vdPart vd) (bitsOf p 64 64) .r = .ok o)
include hk hg ho

theorem wait_passes (hv : bitsOf p 128 64 ≤ s.natAt o.pa 8) :
    ∃ t, exec (.wait vd q) s = .next t ∧ Say.Passed s t vd q p := by
  have hx : exec (.wait vd q) s = .next ((PktRes.plain (s.scopeTake (.die (q % 2)) 4 o.pa)).ended vd q p) :=
    exec_packet h rfl hk (by omega) rfl (by
      dsimp only
      rw [pktCounterOk_of_good hg, ho]
      exact if_pos hv)
  exact ⟨_, hx, pass_passed rfl rfl (fun _ => rfl) (served_running h)⟩

theorem wait_blocks (hv : s.natAt o.pa 8 < bitsOf p 128 64) : ∃ t, exec (.wait vd q) s = .next t ∧ t.mem = s.mem ∧
    (t.hq vd q).work = (s.hq vd q).work ∧ (t.hq vd q).eidx = (s.hq vd q).eidx ∧ (t.hq vd q).eph = (s.hq vd q).eph ∧
    ∃ w : PktWait, (t.hq vd q).waiting = some w ∧ w.cnt.toNat = bitsOf p 64 64 ∧ w.value.toNat = bitsOf p 128 64 ∧
      w.since = s.now ∧ w.tmo = bitsOf p 192 32 := by
  have hx : exec (.wait vd q) s = .next ((PktRes.stay
      (s.blocked vd q o.pa (bitsOf p 64 64) (bitsOf p 128 64) (bitsOf p 192 32))).ended vd q p) :=
    exec_packet h rfl hk (by omega) rfl (by
      dsimp only
      rw [pktCounterOk_of_good hg, ho]
      exact if_neg (Nat.not_le.mpr hv))
  have hb (n lo : Nat) : (BitVec.ofNat 64 (bitsOf n lo 64)).toNat = bitsOf n lo 64 := by
    rw [BitVec.toNat_ofNat, Nat.mod_eq_of_lt]
    exact Nat.mod_lt _ (by norm_num)
  refine ⟨_, hx, rfl, ?_⟩
  simp only [PktRes.ended, State.blocked, State.hq_setHq]
  exact ⟨trivial, trivial, trivial, _, rfl, hb p 64, hb p 128, rfl, rfl⟩

end

/-! CANCEL and LAUNCH: what the task operations leave, then the effect. -/

section
variable (hk : Say.Kind p 6 17) (hg : GoodCounter s vd (bitsOf p 64 64)) (h0 : bitsOf p 64 64 ≠ 0)
  (hl : bitsOf p 128 8 ≤ 3)
include hk hg h0 hl

theorem cancelPacket_cancels {s1 : State}
    (hc : s.cancelLevel (s.vdPart vd) (BitVec.ofNat 64 (bitsOf p 64 64)) (bitsOf p 128 8) = some s1) :
    ∃ t, exec (.cancelPacket vd q) s = .next t ∧ t.tasks = s1.tasks ∧ t.cancels = s1.cancels ∧ t.mem = s1.mem ∧
      (t.hq vd q).eidx = (if bitOf p 8 then (s1.hq vd q).work.ridx else (s1.hq vd q).work.ridx + 1#32) := by
  have hx : exec (.cancelPacket vd q) s = .next ((PktRes.done s1).ended vd q p) :=
    exec_packet h rfl hk (by omega) rfl (by
      dsimp only
      rw [if_neg (by simp [h0, pktCounterOk_of_good hg]), if_neg (by omega), hc])
  obtain ⟨ht, hcs, hm, -, he⟩ := effect_frame s1 vd q (bitOf p 8)
  exact ⟨_, hx, ht, hcs, hm, he⟩

theorem cancelPacket_refused
    (hc : s.cancelLevel (s.vdPart vd) (BitVec.ofNat 64 (bitsOf p 64 64)) (bitsOf p 128 8) = none) :
    ∃ t, exec (.cancelPacket vd q) s = .next t ∧ Say.Took s t vd q p ∧ t.mem = s.mem ∧ (t.hq vd q).work.ecode = 9#8 := by
  have hx : exec (.cancelPacket vd q) s = .next ((PktRes.refused s).ended vd q p) :=
    exec_packet h rfl hk (by omega) rfl (by
      dsimp only
      rw [if_neg (by simp [h0, pktCounterOk_of_good hg]), if_neg (by omega), hc])
  obtain ⟨-, -, hm, -⟩ := effect_frame (s.refusedCancel vd q) vd q (bitOf p 8)
  have hu : (s.refusedCancel vd q).hq vd q = { s.hq vd q with work := { (s.hq vd q).work with ecode := 9#8 } } :=
    State.hq_setHq _ _ _ _
  have hs : ((s.refusedCancel vd q).hq vd q).stopReq = false := by rw [hu]; exact served_running h
  obtain ⟨-, hec⟩ := effect_ncnt (s.refusedCancel vd q) (bitOf p 8) hs
  exact ⟨_, hx, effect_took (u := s.refusedCancel vd q) (by rw [hu]) hs, hm, hec.trans (by rw [hu])⟩

end

/-- The tasks of a LAUNCH's records (R393, R397). -/
def launchTasks (s : State) (vd q p : Nat) (rs : List (Nat × Nat)) : List Task := rs.map (fun r =>
  let k := { s.taskOf (s.vdPart vd) vd (BitVec.ofNat 64 r.1) r.2 (some (vd, q)) with pfw := bitsOf p 144 16 }
  if (s.hq vd q).work.state = 3#2 then { k with cls := 3 } else k)

/-- The partition whose overflow list takes them. -/
def launchDest (s : State) (vd q : Nat) : Nat := if (s.hq vd q).work.state = 3#2 then 15 else s.vdPart vd

section
variable {rs : List (Nat × Nat)} (hk : Say.Kind p 1 20) (h1 : 1 ≤ bitsOf p 128 16) (h2 : bitsOf p 128 16 ≤ 256)
  (h3 : bitsOf p 144 16 ≤ 512) (hr : s.launchRecords vd q (bitsOf p 64 64) (bitsOf p 128 16) = .ok rs)
  (hok : ∀ r ∈ rs, s.recordBad (s.vdPart vd) r.1 r.2 = false)
include hk h1 h2 h3 hr hok

/-- A LAUNCH of well-formed records. -/
theorem exec_launch : exec (.launch vd q) s =
    .next ((if !s.overflowRoom (launchTasks s vd q p rs) (launchDest s vd q) then PktRes.error s 10
      else .done (s.postAll (launchTasks s vd q p rs) (launchDest s vd q))).ended vd q p) :=
  exec_packet h rfl hk (by omega) rfl (by
    have hany : rs.any (fun r => s.recordBad (s.vdPart vd) r.1 r.2) = false := by
      rw [List.any_eq_false]
      intro r hm
      simp [hok r hm]
    dsimp only
    rw [if_neg (by omega), hr]
    dsimp only
    rw [hany, if_neg (by simp)]
    simp only [launchTasks, launchDest, beq_iff_eq])

theorem launch_posts (ho : s.overflowRoom (launchTasks s vd q p rs) (launchDest s vd q) = true) :
    let s1 := s.postAll (launchTasks s vd q p rs) (launchDest s vd q)
    ∃ t, exec (.launch vd q) s = .next t ∧ t.tasks = s1.tasks ∧ t.mem = s1.mem ∧
      (t.hq vd q).eidx = (if bitOf p 8 then (s1.hq vd q).work.ridx else (s1.hq vd q).work.ridx + 1#32) := by
  have hx := exec_launch h hk h1 h2 h3 hr hok
  rw [if_neg (by simp [ho])] at hx
  obtain ⟨ht, -, hm, -, he⟩ := effect_frame (s.postAll (launchTasks s vd q p rs) (launchDest s vd q)) vd q (bitOf p 8)
  exact ⟨_, hx, ht, hm, he⟩

theorem launch_fails (ho : s.overflowRoom (launchTasks s vd q p rs) (launchDest s vd q) = false) :
    ∃ t, exec (.launch vd q) s = .next t ∧ t.tasks = s.tasks ∧ (t.hq vd q).work.state = 2#2 ∧
      (t.hq vd q).work.ecode = 10#8 := by
  have hx := exec_launch h hk h1 h2 h3 hr hok
  rw [if_pos (by simp [ho])] at hx
  obtain ⟨hst, hec, -⟩ := HQueue.fail_work (s.hq vd q) 2#2 10
  exact ⟨_, hx, rfl, (congrArg (fun k : HQueue => k.work.state) (State.hq_setHq _ _ _ _)).trans hst,
    (congrArg (fun k : HQueue => k.work.ecode) (State.hq_setHq _ _ _ _)).trans hec⟩

end

/-! COPY. -/

/-- A free host channel starts the chain at a head (R393). -/
def startedChan (vd q head : Nat) (notify : Bool) : HostChan :=
  { chan := { Chan.idle with run := true, cur := some (.record (BitVec.ofNat 64 head)) }
    vd := vd, q := q, notify := notify, busy := true }

/-- The state s1 once the chain at a head runs on channel n of the queue's die; h is the queue before. -/
def State.copyStarted (s1 : State) (h : HQueue) (vd q n head : Nat) (notify : Bool) : State :=
  let s2 := s1.setHq vd q { h with work := { h.work with outc := h.work.outc + 1 } }
  { s2 with hostChans := Sparse.set (fun _ => HostChan.idle) s2.hostChans (4 * (q % 2) + n) (startedChan vd q head notify) }

section
variable {s1 : State} {b : Bool} (hk : Say.Kind p 2 16) (hal : bitsOf p 64 64 % 128 = 0)
  (hcs : State.chainSpaces vd q 65536 (bitsOf p 64 64) s = (s1, b)) (hout : (s.hq vd q).work.outc < 4)
include hk hal hcs hout

theorem copyPacket_starts {n : Nat} (hb : b = true) (hn : n < 4)
    (hbusy : ∀ j < 4, (s.hostChan (4 * (q % 2) + j)).busy = decide (j < n)) :
    exec (.copyPacket vd q) s = .next ((PktRes.copy (s1.copyStarted (s.hq vd q) vd q n (bitsOf p 64 64) (bitOf p 8))).ended
      vd q p) := by
  have hhost : s.HostSame s1 := by
    have := chainSpaces_host (s := s) ⟨rfl, rfl⟩ vd q 65536 (bitsOf p 64 64)
    rwa [hcs] at this
  have hfind : (List.range 4).find? (fun n => !(s1.hostChan (4 * (q % 2) + n)).busy) = some n := by
    have hch (k : Nat) : s1.hostChan k = s.hostChan k := by simp [State.hostChan, hhost.2]
    rw [List.find?_range_eq_some]
    refine ⟨by simp [hch, hbusy n hn], by simpa using hn, fun j hj => ?_⟩
    simp [hch, hbusy j (by omega), hj]
  refine exec_packet h rfl hk (by omega) rfl ?_
  dsimp only
  rw [if_neg (by omega), if_neg (by omega)]
  simp only [hcs, hb, hfind, Bool.not_true, Bool.false_eq_true, if_false]
  rfl

theorem copyPacket_started {n : Nat} (hb : b = true) (hn : n < 4)
    (hbusy : ∀ j < 4, (s.hostChan (4 * (q % 2) + j)).busy = decide (j < n)) :
    ∃ t, exec (.copyPacket vd q) s = .next t ∧ t.mem = s1.mem ∧ (t.hq vd q).work.outc = (s.hq vd q).work.outc + 1 ∧
      (t.hq vd q).work.ridx = (s.hq vd q).work.ridx + 1#32 ∧ (t.hq vd q).eidx = (s.hq vd q).work.ridx + 1#32 ∧
      (t.hq vd q).eph = false ∧ t.hostChan (4 * (q % 2) + n) = startedChan vd q (bitsOf p 64 64) (bitOf p 8) := by
  have hx := copyPacket_starts h hk hal hcs hout hb hn hbusy
  have hu : (s1.copyStarted (s.hq vd q) vd q n (bitsOf p 64 64) (bitOf p 8)).hq vd q =
      { s.hq vd q with work := { (s.hq vd q).work with outc := (s.hq vd q).work.outc + 1 } } := State.hq_setHq _ _ _ _
  have ht : ((s1.copyStarted (s.hq vd q) vd q n (bitsOf p 64 64) (bitOf p 8)).effect vd q false).hq vd q =
      HQueue.advance { s.hq vd q with
        work := { (s.hq vd q).work with outc := (s.hq vd q).work.outc + 1 }
        eidx := (s.hq vd q).work.ridx + 1#32, eph := false } := by
    unfold State.effect
    simp only [Bool.false_eq_true, if_false, State.hq_setHq, hu]
  rw [HQueue.advance_running (by exact served_running h)] at ht
  obtain ⟨-, -, hm, hch, -⟩ := effect_frame (s1.copyStarted (s.hq vd q) vd q n (bitsOf p 64 64) (bitOf p 8)) vd q false
  refine ⟨_, hx, hm, ?_, ?_, ?_, ?_, ?_⟩
  · exact congrArg (fun k : HQueue => k.work.outc) ht
  · exact congrArg (fun k : HQueue => k.work.ridx) ht
  · exact congrArg (fun k : HQueue => k.eidx) ht
  · exact congrArg (fun k : HQueue => k.eph) ht
  · rw [PktRes.ended, State.hostChan, hch]
    simp [State.copyStarted]

theorem copyPacket_quarantines (hb : b = false) : ∃ t, exec (.copyPacket vd q) s = .next t ∧ t.mem = s1.mem ∧
    (t.hq vd q).work.state = 3#2 ∧ (t.hq vd q).work.ecode = 6#8 ∧
    (t.hq vd q).work.ridx = (s.hq vd q).work.ridx + 1#32 := by
  have hhost : s.HostSame s1 := by
    have := chainSpaces_host (s := s) ⟨rfl, rfl⟩ vd q 65536 (bitsOf p 64 64)
    rwa [hcs] at this
  have hh := State.hq_of_hqs hhost.1 vd q
  have hx : exec (.copyPacket vd q) s = .next ((PktRes.bad s1 6).ended vd q p) := by
    refine exec_packet h rfl hk (by omega) rfl ?_
    dsimp only
    rw [if_neg (by omega), if_neg (by omega)]
    simp only [hcs, hb, Bool.not_false, if_true]
  obtain ⟨hm, hst, hec, hri⟩ := badPacket_frame s1 vd q 6 (by rw [hh]; exact served_running h)
  rw [hh] at hri
  exact ⟨_, hx, hm, hst, hec, hri⟩

end

omit h in
/-- Each kind's instruction is its packet step. -/
theorem exec_packetOf (s : State) (vd q : Nat) {k : Nat} (hk : k < 8) :
    ∃ body, exec (Say.packetOf vd q k) s = .next (packetStep k vd q body s) := by
  interval_cases k <;> exact ⟨_, rfl⟩

/-- A packet that breaks the header's or its kind's rules (R397). -/
theorem packet_malformed {k c : Nat} (hk : k < 8) (hc : c = 1 ∧ 8 ≤ bitsOf p 0 8 ∨ c = 2 ∧ bitsOf p 0 8 = k ∧ bitsOf p 9 23 ≠ 0 ∨
    c = 8 ∧ Say.Kind p 3 24 ∧ k = 3 ∧ bitsOf p 64 64 % 8 ≠ 0) :
    exec (Say.packetOf vd q k) s = .next (s.badPacket vd q c) := by
  obtain ⟨body, hx⟩ := exec_packetOf s vd q hk
  rcases hc with ⟨rfl, h8⟩ | ⟨rfl, hkind, hres⟩ | ⟨rfl, hkind, rfl, hal⟩
  · rw [hx, packetStep_served h, if_pos (by omega)]
  · have hbad : bodyOk k p = false := by
      unfold bodyOk
      simp [hres]
    rw [hx, packetStep_served h, if_neg (by omega), if_neg (by simp [hkind]), hkind, hbad]
    rfl
  · have hno : s.pktCounterOk vd (bitsOf p 64 64) = false := by simp [State.pktCounterOk, hal]
    exact exec_packet (i := .signal vd q) h rfl hkind (by omega) rfl (if_pos (by simp [hno]))

end

end Sys2Proof.Machine

namespace Sys2Proof
open Machine

/-- Settles O35. -/
theorem packetsTakeEffectOnce : Obligations.PacketsTakeEffectOnce := by
  intro s vd q p h
  refine ⟨nopPacket_passes h, fencePacket_passes h, fencePacket_stays h, fun o => signal_takes h, bindPacket_binds h,
    fun o hk hg ho => ⟨wait_passes h hk hg ho, wait_blocks h hk hg ho⟩,
    fun hk hg h0 hl => ⟨fun s1 => cancelPacket_cancels h hk hg h0 hl, cancelPacket_refused h hk hg h0 hl⟩,
    fun n s1 hk hal hcs hout hn hbusy => ?_, fun s1 hk hal hcs hout => copyPacket_quarantines h hk hal hcs hout rfl,
    fun rs hk h1 h2 h3 hr hok => ⟨launch_posts h hk h1 h2 h3 hr hok, launch_fails h hk h1 h2 h3 hr hok⟩,
    fun k c hk hc => ?_⟩
  · obtain ⟨t, hx, hm, ho, hr, he, hp, hch⟩ := copyPacket_started h hk hal hcs hout rfl hn hbusy
    refine ⟨t, hx, hm, ho, hr, he, hp, ?_⟩
    rw [hch]
    exact ⟨rfl, rfl, rfl, rfl, rfl, rfl⟩
  · obtain ⟨hm, hst, hec, hri⟩ := badPacket_frame s vd q c (served_running h)
    refine ⟨_, packet_malformed h hk hc, hm, hst, ?_, hri⟩
    rw [hec, BitVec.toNat_ofNat, Nat.mod_eq_of_lt (by omega)]

end Sys2Proof
end
section
/-! # Commits, watchdogs, levels and cancels (O48) -/

namespace Sys2Proof.Machine

section
variable {s : State}

/-! ### PSYNC -/

/-- What PSYNC stages (R322). -/
def State.stagedCommit (s : State) : State :=
  { s with psyncs := s.psyncs.filter (fun e => e.1 != psyncPoint s.now) ++ [(psyncPoint s.now, s.staged)] }

theorem psync_stages (h : s.waitHere? = none) : exec .psync s = .next (s.stagedCommit.waitAt .other false) := by
  refine seqInstr_wait (srcs := []) (dsts := []) s.plain_nil ?_
  rw [h]
  rfl

theorem psync_waits {w : WaitSt} (h : s.waitHere? = some w) (hp : ∃ e ∈ s.psyncs, e.1 = psyncPoint w.since) :
    exec .psync s = .next (s.waitAt .other false) := by
  refine seqInstr_wait (srcs := []) (dsts := []) s.plain_nil ?_
  rw [h]
  obtain ⟨e, he, hpt⟩ := hp
  exact if_pos (List.any_eq_true.mpr ⟨e, he, by simp [hpt]⟩)

theorem psync_done {w : WaitSt} (h : s.waitHere? = some w) (hp : ∀ e ∈ s.psyncs, e.1 ≠ psyncPoint w.since) :
    exec .psync s = .next (s.goOn s.pc8) := by
  refine seqInstr_done (srcs := []) (dsts := []) s.plain_nil ?_ rfl
  rw [h]
  refine if_neg (fun hn => ?_)
  obtain ⟨e, he, hpt⟩ := List.any_eq_true.mp hn
  exact hp e he (by simpa using hpt)

/-- A wait that begins at this instruction is dated now (R22). -/
theorem State.waitAt_since (h : s.waitHere? = none) (k : Wait) (ch : Bool) :
    (s.waitAt k ch).bank.wait.map (fun w => (w.pc, w.since)) = some (s.ctx.pc, s.now) := by
  unfold State.waitAt
  rw [h]
  simp

/-! ### WDOG -/

/-- The watchdog of the running context's die, armed or not (R323). -/
def State.armed (s : State) (v : Word) : State :=
  s.setDie (dieOf s.ctx.core) { s.die (dieOf s.ctx.core) with
    wdog := if v = 0#64 then none else some v.toNat, wdogAt := s.now + 1000 * v.toNat, wdogX := 0 }

@[simp] theorem State.die_setDie (s : State) (d : Nat) (v : Die) : (s.setDie d v).die d = v := by
  simp [State.die, State.setDie]

theorem State.die_setDie_ne (s : State) {d e : Nat} (v : Die) (h : e ≠ d) : (s.setDie d v).die e = s.die e := by
  simp [State.die, State.setDie, Sparse.get_set_ne _ _ _ h]

theorem wdog_arms {f : FA1} (hp : s.Plain [f.a]) (hc : s.Clean [f.a]) (hv : (s.rd f.a).bits.toNat ≤ 1000000) :
    exec (.wdog f) s = .next ((s.armed (s.rd f.a).bits).goOn s.pc8) := by
  refine seqInstr_done (srcs := [f.a]) (dsts := []) hp ?_ rfl
  rw [consume_clean (hc f.a (by simp)), if_neg (by omega)]
  rfl

/-! ### DLVL -/

section
variable {p q lvl : Nat} {b : Bool}

@[simp] theorem State.qlevel_setQlevel (s : State) (p q : Nat) (v : QLevel) : (s.setQlevel p q v).qlevel p q = v := by
  simp [State.qlevel, State.setQlevel]

theorem State.qlevel_setQlevel_ne (s : State) {i j : Nat} (v : QLevel) (h : i * 64 + j ≠ p * 64 + q) :
    (s.setQlevel p q v).qlevel i j = s.qlevel i j := by
  simp [State.qlevel, State.setQlevel, Sparse.get_set_ne _ _ _ h]

theorem State.qlevel_of_qlevels {t : State} (h : t.qlevels = s.qlevels) (p q : Nat) : t.qlevel p q = s.qlevel p q := by
  simp [State.qlevel, h]

/-- A level's change is in its queue's entry alone; its event is in memory (R36). -/
theorem State.setLevel_frame (s : State) (die p q lvl : Nat) :
    (s.setLevel die p q lvl).ctx = s.ctx ∧ (s.setLevel die p q lvl).tasks = s.tasks ∧
    (s.setLevel die p q lvl).qlevel p q = { s.qlevel p q with level := lvl } ∧
    ∀ i j, i * 64 + j ≠ p * 64 + q → (s.setLevel die p q lvl).qlevel i j = s.qlevel i j := by
  unfold State.setLevel
  dsimp only
  split
  · rename_i h
    exact ⟨rfl, rfl, by rw [← h], fun _ _ _ => rfl⟩
  · obtain ⟨m, k, c, d, h⟩ := (s.setQlevel p q { s.qlevel p q with level := lvl }).event_eq die 0x01 p
      (Sparse.get (fun _ => QCfg.zero) s.qcfgs (p * 64 + q)).vd (p * 256 + q) ((s.qlevel p q).level + 256 * lvl)
    rw [h]
    exact ⟨rfl, rfl, State.qlevel_setQlevel _ _ _ _, fun i j hne => State.qlevel_setQlevel_ne _ _ hne⟩

/-- DLVL on a queue sets its level and floor (R324). -/
theorem State.dlvlQueue_frame (s : State) (p q lvl : Nat) (b : Bool) : (s.dlvlQueue p q lvl b).ctx = s.ctx ∧
    (s.dlvlQueue p q lvl b).qlevel p q = { level := lvl, floor := if b then lvl else 0 } ∧
    ∀ i j, i * 64 + j ≠ p * 64 + q → (s.dlvlQueue p q lvl b).qlevel i j = s.qlevel i j := by
  obtain ⟨hc, -, hq, hne⟩ := s.setLevel_frame (s.qcfg p q).die p q lvl
  unfold State.dlvlQueue
  dsimp only
  refine ⟨hc, ?_, fun i j h => ?_⟩
  · rw [State.qlevel_setQlevel, hq]
  · rw [State.qlevel_setQlevel_ne _ _ h, hne i j h]

end

/-- What makes DLVL with operands a and b fault (R324). -/
def DlvlBad (s : State) (a b : Nat) : Prop :=
  bitsOf a 6 2 ≠ 0 ∨ bitsOf a 12 51 ≠ 0 ∨ bitsOf b 3 61 ≠ 0 ∨ (bitOf a 63 = true ∧ bitsOf a 0 6 ≠ 0) ∨
    s.partEnabled (bitsOf a 8 4) = false ∨ (bitOf a 63 = false ∧ s.queueOn (bitsOf a 8 4) (bitsOf a 0 6) = false)

theorem bitOf_top {a : Nat} (ha : a < 2 ^ 64) : bitOf a 63 = false ↔ a / 2 ^ 63 = 0 := by
  have : a / 2 ^ 63 < 2 := by omega
  unfold bitOf
  simp only [beq_eq_false_iff_ne]
  omega

theorem bitsOf_low (a n : Nat) : bitsOf a 0 n = a % 2 ^ n := by simp [bitsOf]

section
variable {a b : Nat} (ha : a < 2 ^ 64)
include ha

theorem not_dlvlBad (h : a / 2 ^ 6 % 4 = 0 ∧ a / 2 ^ 12 % 2 ^ 51 = 0 ∧ b / 8 = 0) (h63 : a / 2 ^ 63 = 0)
    (he : s.partEnabled (a / 2 ^ 8 % 16) = true) (hq : s.queueOn (a / 2 ^ 8 % 16) (a % 64) = true) : ¬ DlvlBad s a b := by
  have h3 : bitsOf b 3 61 = 0 := by
    unfold bitsOf
    omega
  rintro (hn | hn | hn | ⟨hn, -⟩ | hn | ⟨-, hn⟩)
  · exact hn h.1
  · exact hn h.2.1
  · exact hn h3
  · rw [(bitOf_top ha).mpr h63] at hn; cases hn
  · rw [show bitsOf a 8 4 = a / 2 ^ 8 % 16 from rfl, he] at hn; cases hn
  · rw [bitsOf_low] at hn
    exact Bool.noConfusion (hq.symm.trans hn)

theorem dlvlBad_of (hb : b < 2 ^ 64) (h : ¬ (a / 2 ^ 6 % 4 = 0 ∧ a / 2 ^ 12 % 2 ^ 51 = 0 ∧ b / 8 = 0) ∨
    s.partEnabled (a / 2 ^ 8 % 16) = false ∨ (a / 2 ^ 63 = 0 ∧ s.queueOn (a / 2 ^ 8 % 16) (a % 64) = false)) :
    DlvlBad s a b := by
  rcases h with h | h | ⟨h1, h2⟩
  · have : bitsOf a 6 2 ≠ 0 ∨ bitsOf a 12 51 ≠ 0 ∨ bitsOf b 3 61 ≠ 0 := by unfold bitsOf; omega
    rcases this with h | h | h
    · exact .inl h
    · exact .inr (.inl h)
    · exact .inr (.inr (.inl h))
  · exact .inr (.inr (.inr (.inr (.inl h))))
  · refine .inr (.inr (.inr (.inr (.inr ⟨(bitOf_top ha).mpr h1, ?_⟩))))
    rw [bitsOf_low]
    exact h2

end

section
variable {f : FAB} (hp : s.Plain [f.a, f.b]) (hc : s.Clean [f.a, f.b])
include hp hc

theorem dlvl_sets (hn : ¬ DlvlBad s (s.rd f.a).bits.toNat (s.rd f.b).bits.toNat)
    (hone : (s.rd f.a).bits.toNat / 2 ^ 63 = 0) :
    exec (.dlvl f) s = .next ((s.dlvlQueue ((s.rd f.a).bits.toNat / 2 ^ 8 % 16) ((s.rd f.a).bits.toNat % 64)
      ((s.rd f.b).bits.toNat % 4) (bitOf (s.rd f.b).bits.toNat 2)).goOn s.pc8) := by
  obtain ⟨hctx, -, -⟩ := s.dlvlQueue_frame ((s.rd f.a).bits.toNat / 2 ^ 8 % 16) ((s.rd f.a).bits.toNat % 64)
    ((s.rd f.b).bits.toNat % 4) (bitOf (s.rd f.b).bits.toNat 2)
  refine seqInstr_done (srcs := [f.a, f.b]) (dsts := []) hp ?_ (congrArg Ctx.qbinds hctx)
  rw [consume_clean (hc f.a (by simp)), consume_clean (hc f.b (by simp))]
  refine (if_neg hn).trans ?_
  rw [(bitOf_top (s.rd f.a).bits.isLt).mpr hone, bitsOf_low, bitsOf_low]
  rfl

theorem dlvl_faults (hbad : DlvlBad s (s.rd f.a).bits.toNat (s.rd f.b).bits.toNat) :
    ∃ t : State, ∃ x, exec (.dlvl f) s = .next (t.fault (Cause.seq 0x05#8 0 x)) ∧ t.ctx = s.ctx ∧
      t.qlevels = s.qlevels := by
  refine ⟨s.useFree, _, seqInstr_trap (srcs := [f.a, f.b]) (dsts := []) hp (c := s.dataFault) ?_, rfl, rfl⟩
  rw [consume_clean (hc f.a (by simp)), consume_clean (hc f.b (by simp))]
  exact if_pos hbad

end

/-! ### Cancels -/

/-- The operands of a cancel: reserved bits (R325). -/
theorem cancel_reserved {b : Nat} (hb : b < 2 ^ 64) :
    (bitsOf b 3 5 ≠ 0 ∨ bitsOf b 12 52 ≠ 0) ↔ (b / 2 ^ 12 ≠ 0 ∨ b / 2 ^ 3 % 2 ^ 5 ≠ 0) := by
  unfold bitsOf
  omega

theorem bitOf_two (b : Nat) : bitOf b 2 = decide (b / 4 % 2 = 1) := by
  simp [bitOf, Bool.beq_eq_decide_eq]

section
variable {f : FDAB} {i : Instr} (hi : i = .cancel f ∨ i = .cancelClear f) (hp : s.Plain [f.a, f.b, f.d])
  (hc : s.Clean [f.a, f.b])
include hi

theorem exec_cancels : exec i s = seqInstr [f.a, f.b] [f.d] (cancelBody f) s := by
  rcases hi with rfl | rfl <;> rfl

include hp

theorem cancel_traps {s2 : State} {c : Cause} (hb : cancelBody f s = .trap s2 c) : exec i s = .next (s2.fault c) :=
  (exec_cancels hi).trans (seqInstr_trap hp hb)

/-- A cancel that writes D. -/
theorem cancel_writes {s1 : State} {v : Word} (hb : cancelBody f s = .done (s1.wrc f.d v))
    (hq : s1.ctx.qbinds = s.ctx.qbinds) : exec i s = .next ((s1.wrc f.d v).goOn s.pc8) :=
  (exec_cancels hi).trans (seqInstr_done hp hb (by simpa using hq))

/-- The same as a statement sees it, where the registers are as before. -/
theorem cancel_writes_zero {s1 : State} (hb : cancelBody f s = .done (s1.wrc f.d 0#64)) (hctx : s1.ctx = s.ctx) :
    ∃ t, exec i s = .next t ∧ t.ctx.pc = s.pc8 ∧ t.mem = s1.mem ∧ (f.d ≠ 0#6 → t.rd f.d = { bits := 0#64, pois := false }) ∧
      (∀ r, r ≠ f.d → t.rd r = s.rd r) ∧ t.cancels = s1.cancels := by
  have hsame : s.SameRegs s1 := ⟨by rw [hctx], fun r => by rw [State.rd, hctx]; rfl⟩
  have hw := (hsame.wr_wrote (v := { bits := 0#64, pois := false }) (hp.1 f.d (by simp))).goOn s.pc8
  exact ⟨_, cancel_writes hi hp hb (by rw [hctx]), State.goOn_pc _ _, State.goOn_mem _ _, hw.nonzero, hw.2, rfl⟩

end

section
variable {f : FDAB} (hc : s.Clean [f.a, f.b])
include hc

theorem cancelBody_eq : cancelBody f s =
    if (s.rd f.a).bits.toNat % 16 ≠ 0 then .trap s (Cause.seq cALIGN 0 (s.rd f.a).bits)
    else if bitsOf (s.rd f.b).bits.toNat 3 5 ≠ 0 ∨ bitsOf (s.rd f.b).bits.toNat 12 52 ≠ 0 then s.dataTrap
    else if (s.rd f.a).bits = 0#64 then .trap s (Cause.seq cDATA 0 (s.rd f.a).bits)
    else if !s.partEnabled ((s.rd f.b).bits.toNat / 2 ^ 8 % 16) then .done (s.wrc f.d 3#64)
    else if (s.rd f.b).bits.toNat / 4 % 2 = 1 then
      match s.clearCancel ((s.rd f.b).bits.toNat / 2 ^ 8 % 16) (s.rd f.a).bits ((s.rd f.b).bits.toNat % 4) with
      | some s1 => .done (s1.wrc f.d 0#64)
      | none => .done (s.wrc f.d 2#64)
    else match s.cancelLevel ((s.rd f.b).bits.toNat / 2 ^ 8 % 16) (s.rd f.a).bits ((s.rd f.b).bits.toNat % 4) with
      | some s1 => .done (s1.wrc f.d 0#64)
      | none => .done (s.wrc f.d 1#64) := by
  unfold cancelBody
  rw [consume_clean (hc f.a (by simp)), consume_clean (hc f.b (by simp))]
  simp only [bitsOf_low, bitOf_two, decide_eq_true_eq]
  rfl

variable (hal : (s.rd f.a).bits.toNat % 16 = 0)
  (hr : ¬ ((s.rd f.b).bits.toNat / 2 ^ 12 ≠ 0 ∨ (s.rd f.b).bits.toNat / 2 ^ 3 % 2 ^ 5 ≠ 0))
include hal hr

theorem cancelBody_null (ha : (s.rd f.a).bits = 0#64) : cancelBody f s = .trap s (Cause.seq 0x05#8 0 0#64) := by
  rw [cancelBody_eq hc, if_neg (by omega), if_neg (by rwa [cancel_reserved (s.rd f.b).bits.isLt]), if_pos ha, ha]
  rfl

variable (ha : (s.rd f.a).bits ≠ 0#64)
include ha

theorem cancelBody_disabled (he : s.partEnabled ((s.rd f.b).bits.toNat / 2 ^ 8 % 16) = false) :
    cancelBody f s = .done (s.wrc f.d 3#64) := by
  rw [cancelBody_eq hc, if_neg (by omega), if_neg (by rwa [cancel_reserved (s.rd f.b).bits.isLt]), if_neg ha,
    if_pos (by rw [he]; rfl)]

variable (he : s.partEnabled ((s.rd f.b).bits.toNat / 2 ^ 8 % 16) = true)
include he

theorem cancelBody_clear (h2 : (s.rd f.b).bits.toNat / 4 % 2 = 1) : cancelBody f s =
    match s.clearCancel ((s.rd f.b).bits.toNat / 2 ^ 8 % 16) (s.rd f.a).bits ((s.rd f.b).bits.toNat % 4) with
      | some s1 => .done (s1.wrc f.d 0#64)
      | none => .done (s.wrc f.d 2#64) := by
  rw [cancelBody_eq hc, if_neg (by omega), if_neg (by rwa [cancel_reserved (s.rd f.b).bits.isLt]), if_neg ha,
    if_neg (by rw [he]; simp)]
  exact if_pos h2

theorem cancelBody_issue (h2 : (s.rd f.b).bits.toNat / 4 % 2 = 0) : cancelBody f s =
    match s.cancelLevel ((s.rd f.b).bits.toNat / 2 ^ 8 % 16) (s.rd f.a).bits ((s.rd f.b).bits.toNat % 4) with
      | some s1 => .done (s1.wrc f.d 0#64)
      | none => .done (s.wrc f.d 1#64) := by
  rw [cancelBody_eq hc, if_neg (by omega), if_neg (by rwa [cancel_reserved (s.rd f.b).bits.isLt]), if_neg ha,
    if_neg (by rw [he]; simp)]
  exact if_neg (by omega)

end

section
variable {p lvl : Nat} {a : Word}

/-- The record of a partition, address and level (R29). -/
def CancelRec.is (p : Nat) (a : Word) (lvl : Nat) (c : CancelRec) : Bool := c.part == p && c.addr == a && c.level == lvl

theorem CancelRec.is_iff {c : CancelRec} : CancelRec.is p a lvl c = true ↔ c.part = p ∧ c.addr = a ∧ c.level = lvl := by
  simp [CancelRec.is, and_assoc]

theorem clearCancel_none (h : ∀ c ∈ s.cancels, ¬ (c.part = p ∧ c.addr = a ∧ c.level = lvl)) :
    s.clearCancel p a lvl = none := by
  refine if_neg (fun hn => ?_)
  obtain ⟨c, hc, hh⟩ := List.any_eq_true.mp hn
  exact h c hc (CancelRec.is_iff.mp hh)

/-- The records but those of a partition, address and level (R325). -/
def State.withoutCancel (s : State) (p : Nat) (a : Word) (lvl : Nat) : State :=
  { s with cancels := s.cancels.filter (fun c => !CancelRec.is p a lvl c) }

theorem clearCancel_some (h : ∃ c ∈ s.cancels, c.part = p ∧ c.addr = a ∧ c.level = lvl) : s.clearCancel p a lvl =
    some (s.withoutCancel p a lvl) := by
  obtain ⟨c, hc, hh⟩ := h
  exact if_pos (List.any_eq_true.mpr ⟨c, hc, CancelRec.is_iff.mpr hh⟩)

/-- A cancel that finds no unfinished task of its instance: its record stands (R28, R29). -/
theorem cancelLevel_record (ht : ∀ k ∈ s.tasks, k.state = .complete ∨ k.part ≠ p ∨ k.counter lvl ≠ a)
    (hn : (s.cancels.filter (fun c => c.part == p)).length < 64) :
    ∃ u, s.cancelLevel p a lvl = some u ∧ u.ctx = s.ctx ∧ u.mem = s.mem ∧
      ∀ c, c ∈ u.cancels ↔ c ∈ s.cancels ∨ c = { part := p, addr := a, level := lvl } := by
  have hhit : s.tasks.filter (fun t => t.part == p && t.state != .complete && t.counter lvl == a) = [] := by
    rw [List.filter_eq_nil_iff]
    intro k hk hn
    simp only [Bool.and_eq_true, beq_iff_eq, bne_iff_ne, ne_eq] at hn
    rcases ht k hk with h | h | h
    · exact hn.1.2 h
    · exact h hn.1.1
    · exact h hn.2
  unfold State.cancelLevel
  dsimp only
  have hroom : ¬ Config.cancelRecords ≤ (s.cancels.filter (fun c => c.part == p)).length := by
    unfold Config.cancelRecords
    omega
  rw [decide_eq_false hroom, Bool.and_false, if_neg (by simp)]
  cases hany : s.cancels.any (fun c => c.part == p && c.addr == a && c.level == lvl) with
  | true =>
    refine ⟨s, ?_, rfl, rfl, fun c => ⟨.inl, fun h => ?_⟩⟩
    · simp only [if_true, hhit]
      rfl
    · rcases h with h | rfl
      · exact h
      · obtain ⟨c, hc, hh⟩ := List.any_eq_true.mp hany
        obtain ⟨h1, h2, h3⟩ := CancelRec.is_iff.mp hh
        rw [← h1, ← h2, ← h3]
        exact hc
  | false =>
    refine ⟨{ s with cancels := s.cancels ++ [{ part := p, addr := a, level := lvl }] }, ?_, rfl, rfl, fun c => ?_⟩
    · simp only [Bool.false_eq_true, if_false, hhit]
      rfl
    · simp

end

end

end Sys2Proof.Machine

namespace Sys2Proof
open Machine

/-- PSYNC, WDOG and DLVL (R322 to R324). -/
theorem commitsWatchdogsAndLevels : Say.CommitsWatchdogsAndLevels := by
  intro s
  refine ⟨fun h => ?_, fun w h => ⟨psync_done h, psync_waits h⟩, fun f hp hc => ⟨fun hv => ?_, fun hv => ?_⟩,
    fun f hp hc => ⟨fun hg h63 he hq => ?_, fun hbad => ?_⟩⟩
  · obtain ⟨hr, hpc, hm, -⟩ := s.stagedCommit.waitAt_sees .other false
    have hw := State.waitAt_since (s := s.stagedCommit) h .other false
    obtain ⟨w, -, -, hwait⟩ := s.stagedCommit.waitAt_eq .other false
    refine ⟨_, psyncPoint s.now, psync_stages h, hpc, hm, hr, ?_, ?_, ?_, ?_, ?_, hw⟩
    · unfold psyncPoint; omega
    · unfold psyncPoint; omega
    · unfold psyncPoint; omega
    · rw [hwait]
      exact List.mem_append_right _ (List.mem_singleton.mpr rfl)
    · rw [hwait]; rfl
  · have hdie (e : Nat) : ((s.armed (s.rd f.a).bits).goOn s.pc8).die e = (s.armed (s.rd f.a).bits).die e := rfl
    refine ⟨_, wdog_arms hp hc hv, State.goOn_pc _ _, State.goOn_mem _ _, fun r => State.goOn_rd _ _ _, ?_, fun _ => ?_, ?_,
      fun e he => ?_⟩
    · rw [hdie, State.armed, State.die_setDie]
      have h0 : (s.rd f.a).bits = 0#64 ↔ (s.rd f.a).bits.toNat = 0 := ⟨fun h => by rw [h]; rfl, fun h => BitVec.eq_of_toNat_eq h⟩
      simp only [h0]
    · rw [hdie, State.armed, State.die_setDie]
    · rw [hdie, State.armed, State.die_setDie]
    · rw [hdie, State.armed, State.die_setDie_ne _ _ he]
  · refine ⟨s.useFree, _, seqInstr_trap (srcs := [f.a]) (dsts := []) hp (c := s.dataFault) ?_, rfl, rfl, rfl⟩
    rw [consume_clean (hc f.a (by simp))]
    exact if_pos hv
  · obtain ⟨hctx, hset, hne⟩ := s.dlvlQueue_frame ((s.rd f.a).bits.toNat / 2 ^ 8 % 16) ((s.rd f.a).bits.toNat % 64)
      ((s.rd f.b).bits.toNat % 4) (bitOf (s.rd f.b).bits.toNat 2)
    refine ⟨_, dlvl_sets hp hc (not_dlvlBad (s.rd f.a).bits.isLt hg h63 he hq) h63, State.goOn_pc _ _,
      fun r => (State.goOn_rd _ _ r).trans (congrArg (fun c : Ctx => c.readS r) hctx), ?_, fun i j hj hij => ?_⟩
    · refine (State.qlevel_of_qlevels rfl _ _).trans (hset.trans ?_)
      rw [bitOf_two]
      simp only [decide_eq_true_eq]
    · refine (State.qlevel_of_qlevels rfl _ _).trans (hne i j (fun h => hij ?_))
      have hlt := Nat.mod_lt (s.rd f.a).bits.toNat (show 64 > 0 by omega)
      rw [Prod.mk.injEq]
      omega
  · exact dlvl_faults hp hc (dlvlBad_of (s.rd f.a).bits.isLt (s.rd f.b).bits.isLt hbad)

/-- CANCEL (R325). -/
theorem cancelsAreRecordedAndCleared : Say.CancelsAreRecordedAndCleared := by
  intro s f i hi hp hc
  refine ⟨fun hal => ?_, fun hal hr => ?_, fun hal hr => ⟨fun ha => cancel_traps hi hp (cancelBody_null hc hal hr ha),
    fun ha he => cancel_writes hi hp (cancelBody_disabled hc hal hr ha he) rfl, fun ha he h2 => ⟨fun hno => ?_, fun hsome => ?_⟩,
    fun ha he h2 => ⟨fun hn => ?_, fun u hu hq => ?_, fun ht hlen => ?_⟩⟩⟩
  · exact cancel_traps hi hp ((cancelBody_eq hc).trans (if_pos hal))
  · refine ⟨s.useFree, _, cancel_traps hi hp (c := s.dataFault) ?_, rfl, rfl⟩
    rw [cancelBody_eq hc, if_neg (by omega), if_pos ((cancel_reserved (s.rd f.b).bits.isLt).mpr hr)]
    rfl
  · exact cancel_writes hi hp ((cancelBody_clear hc hal hr ha he h2).trans (by rw [clearCancel_none hno])) rfl
  · obtain ⟨t, hx, hpc, hm, hd, hr', hcs⟩ := cancel_writes_zero hi hp (s1 := s.withoutCancel _ _ _)
      ((cancelBody_clear hc hal hr ha he h2).trans (by rw [clearCancel_some hsome])) rfl
    refine ⟨t, hx, hpc, hm, hd, hr', fun c => ?_⟩
    rw [hcs, State.withoutCancel, List.mem_filter, Bool.not_eq_true', ← Bool.not_eq_true, CancelRec.is_iff]
  · exact cancel_writes hi hp ((cancelBody_issue hc hal hr ha he h2).trans (by rw [hn])) rfl
  · exact cancel_writes hi hp ((cancelBody_issue hc hal hr ha he h2).trans (by rw [hu])) hq
  · obtain ⟨u, hu, hctx, hm, hcs⟩ := cancelLevel_record ht hlen
    obtain ⟨t, hx, hpc, hm', hd, hr', hcs'⟩ := cancel_writes_zero hi hp
      ((cancelBody_issue hc hal hr ha he h2).trans (by rw [hu])) hctx
    exact ⟨t, hx, hpc, hm'.trans hm, hd, hr', fun c => by rw [hcs', hcs]⟩

/-- Settles O48. -/
theorem commitsWatchdogsLevelsAndCancels : Obligations.CommitsWatchdogsLevelsAndCancels :=
  ⟨commitsWatchdogsAndLevels, cancelsAreRecordedAndCleared⟩

end Sys2Proof
end
section
/-! # Translations dropped and ranges zeroed (O53) -/

namespace Sys2Proof.Machine

section
variable {s : State} {a b : Reg}

/-! ### TLBINV -/

/-- A translation that TLBINV drops (R320). -/
def TlbEntry.dropped (s : State) (sc v n x : Nat) (e : TlbEntry) : Bool :=
  e.vdn == v && e.inScope s.ctx.core sc && (n == 0 || (decide (e.vbase < x + 65536 * n) && decide (x < e.vbase + e.size)))

/-- A walk-cache entry that TLBINV drops (R320). -/
def WalkEntry.dropped (s : State) (sc : BitVec 3) (v n x : Nat) (e : WalkEntry) : Bool :=
  e.stage == 1 && e.owner == v && (sc == 3#3 || e.die == dieOf s.ctx.core) &&
    (n == 0 || (decide (e.vbase < x + 65536 * n) && decide (x < e.vbase + e.size)))

/-- The state once the translations of a range are dropped: the issuer's stores released first (R320). -/
def State.translationsDropped (s : State) (sc : BitVec 3) (v n x : Nat) : State :=
  let s1 := s.releaseAll sc.toNat
  { s1 with tlb := s1.tlb.filter (fun e => !e.dropped s sc.toNat v n x)
            walks := s1.walks.filter (fun e => !e.dropped s sc v n x) }

/-- What remains in the TLBs (R320). -/
theorem mem_translationsDropped_tlb {sc : BitVec 3} {v n x : Nat} {e : TlbEntry} :
    e ∈ (s.translationsDropped sc v n x).tlb ↔ e ∈ s.tlb ∧ ¬ (e.vdn = v ∧ e.inScope s.ctx.core sc.toNat = true ∧
      (n = 0 ∨ (e.vbase < x + 65536 * n ∧ x < e.vbase + e.size))) := by
  have ht : (s.releaseAll sc.toNat).tlb = s.tlb := by rw [s.releaseAll_flushed sc.toNat]
  unfold State.translationsDropped
  dsimp only
  rw [ht, List.mem_filter, Bool.not_eq_true', ← Bool.not_eq_true]
  simp [TlbEntry.dropped, and_assoc]

/-- What remains in the walk caches (R320). -/
theorem mem_translationsDropped_walks {sc : BitVec 3} {v n x : Nat} {e : WalkEntry} :
    e ∈ (s.translationsDropped sc v n x).walks ↔ e ∈ s.walks ∧ ¬ (e.stage = 1 ∧ e.owner = v ∧
      (sc = 3#3 ∨ e.die = dieOf s.ctx.core) ∧ (n = 0 ∨ (e.vbase < x + 65536 * n ∧ x < e.vbase + e.size))) := by
  have ht : (s.releaseAll sc.toNat).walks = s.walks := by rw [s.releaseAll_flushed sc.toNat]
  unfold State.translationsDropped
  dsimp only
  rw [ht, List.mem_filter, Bool.not_eq_true', ← Bool.not_eq_true]
  simp [WalkEntry.dropped, and_assoc]

section
variable {sc : BitVec 3} (hp : s.Plain [a, b]) (hc : s.Clean [a, b])
include hp hc

theorem tlbinv_misaligned (hx : (s.rd a).bits.toNat % 65536 ≠ 0) :
    exec (.tlbinv { scope := sc, a := a, b := b }) s = .next (s.fault (Cause.seq 0x06#8 0 (s.rd a).bits)) := by
  refine seqInstr_trap (srcs := [a, b]) (dsts := []) hp ?_
  rw [consume_clean (hc a (by simp)), consume_clean (hc b (by simp))]
  exact if_pos hx

variable (hx : (s.rd a).bits.toNat % 65536 = 0)
include hx

theorem tlbinv_reserved (hr : bitsOf (s.rd b).bits.toNat 54 10 ≠ 0 ∨ bitsOf (s.rd b).bits.toNat 40 8 ≠ 0 ∨
      (bitsOf (s.rd b).bits.toNat 0 40 = 0 ∧ (s.rd a).bits ≠ 0#64)) :
    exec (.tlbinv { scope := sc, a := a, b := b }) s = .next (s.useFree.fault s.dataFault) := by
  refine seqInstr_trap (srcs := [a, b]) (dsts := []) hp ?_
  rw [consume_clean (hc a (by simp)), consume_clean (hc b (by simp))]
  exact (if_neg (by omega)).trans (if_pos hr)

theorem tlbinv_drops (hr : ¬ (bitsOf (s.rd b).bits.toNat 54 10 ≠ 0 ∨ bitsOf (s.rd b).bits.toNat 40 8 ≠ 0 ∨
      (bitsOf (s.rd b).bits.toNat 0 40 = 0 ∧ (s.rd a).bits ≠ 0#64))) :
    exec (.tlbinv { scope := sc, a := a, b := b }) s = .next ((s.translationsDropped sc (bitsOf (s.rd b).bits.toNat 48 6)
      (bitsOf (s.rd b).bits.toNat 0 40) (s.rd a).bits.toNat).goOn s.pc8) := by
  refine seqInstr_done (srcs := [a, b]) (dsts := []) hp ?_ (s.releaseAll_flushed _).qbinds
  rw [consume_clean (hc a (by simp)), consume_clean (hc b (by simp))]
  exact (if_neg (by omega)).trans (if_neg hr)

end

/-! ### Zeroed ranges -/

/-- A cleared key reads as the default. -/
theorem Sparse.get_clear {α : Type} (d : Nat → α) (m : Sparse α) (k n j : Nat) :
    Sparse.get d (Sparse.clear m k n) j = if k ≤ j ∧ j < k + n then d j else Sparse.get d m j := by
  induction m with
  | nil => simp [Sparse.clear]
  | cons e t ih =>
    obtain ⟨i, v⟩ := e
    by_cases hi : k ≤ i ∧ i < k + n
    · have hc : Sparse.clear ((i, v) :: t) k n = Sparse.clear t k n := by simp [Sparse.clear, hi]
      rw [hc, ih, Sparse.get]
      by_cases hij : i = j
      · rw [if_pos (hij ▸ hi), if_pos (hij ▸ hi)]
      · rw [if_neg hij]
    · have hc : Sparse.clear ((i, v) :: t) k n = (i, v) :: Sparse.clear t k n :=
        List.filter_cons_of_pos (by simp; omega)
      rw [hc, Sparse.get, Sparse.get, ih]
      by_cases hij : i = j
      · rw [if_pos hij, if_pos hij, if_neg (hij ▸ hi)]
      · rw [if_neg hij, if_neg hij]

section
variable {pa z : Nat} (hpa : pa % 65536 = 0)
include hpa

/-- No line of L1 reaches out of a 64 KiB page: its bytes are dropped, none is written back (R321). -/
theorem copyClear_page (s : State) :
    s.copyClear pa 65536 =
      (s.setL1 (s.ctx.l1.filter (fun e => !(decide (pa ≤ e.1) && decide (e.1 < pa + 65536))))).zeroRange pa 65536 := by
  have hnil : ((s.setL1 (s.ctx.l1.filter (fun e => !(decide (pa ≤ e.1) && decide (e.1 < pa + 65536))))).ctx.l1Lines.filter
      (fun l => decide (pa / 256 ≤ l) && decide (256 * l < pa + 65536))) = [] := by
    rw [List.filter_eq_nil_iff]
    intro l hl hn
    simp only [Ctx.l1Lines, State.setL1, List.mem_dedup, List.mem_map, List.mem_filter] at hl
    obtain ⟨e, ⟨-, he⟩, rfl⟩ := hl
    simp only [Bool.and_eq_true, decide_eq_true_eq, Bool.not_eq_true', Bool.and_eq_false_iff, decide_eq_false_iff_not] at hn he
    omega
  unfold State.copyClear
  dsimp only
  rw [hnil]
  rfl

theorem copyClear_flushed (s : State) : s.Flushed (s.copyClear pa 65536) := by
  rw [copyClear_page hpa]
  rfl

theorem page_iff : (pa ≤ z ∧ z < pa + 65536) ↔ z / 65536 * 65536 = pa := by omega

theorem copyClear_byteAt (s : State) : (s.copyClear pa 65536).byteAt z = if z / 65536 * 65536 = pa then 0#8 else s.byteAt z := by
  rw [copyClear_page hpa]
  refine (Sparse.get_clear memDefault s.mem pa 65536 z).trans ?_
  rw [if_congr (page_iff hpa) rfl rfl]
  rfl

theorem copyClear_marked (s : State) :
    (s.copyClear pa 65536).marked z = if z / 65536 * 65536 = pa then false else s.marked z := by
  rw [copyClear_page hpa]
  refine (Sparse.get_clear (fun _ => false) s.marks (pa / 64) 1024 (z / 64)).trans ?_
  have hp : (pa / 64 ≤ z / 64 ∧ z / 64 < pa / 64 + 1024) ↔ z / 65536 * 65536 = pa := by omega
  rw [if_congr hp rfl rfl]
  rfl

end

/-- Pages zeroed in order (R321). -/
theorem clearPages {ps : List Nat} (hps : ∀ p ∈ ps, p % 65536 = 0) (s : State) :
    s.Flushed (ps.foldl (fun s pa => s.copyClear pa 65536) s) ∧
    (∀ z, (ps.foldl (fun s pa => s.copyClear pa 65536) s).byteAt z = if z / 65536 * 65536 ∈ ps then 0#8 else s.byteAt z) ∧
    ∀ z, (ps.foldl (fun s pa => s.copyClear pa 65536) s).marked z = if z / 65536 * 65536 ∈ ps then false else s.marked z := by
  induction ps generalizing s with
  | nil => exact ⟨.refl s, fun _ => rfl, fun _ => rfl⟩
  | cons p ps ih =>
    have hp : p % 65536 = 0 := hps p (by simp)
    obtain ⟨hf, hb, hm⟩ := ih (fun q hq => hps q (by simp [hq])) (s.copyClear p 65536)
    refine ⟨(copyClear_flushed hp s).trans hf, fun z => ?_, fun z => ?_⟩
    · rw [List.foldl_cons, hb, copyClear_byteAt hp]
      simp only [List.mem_cons]
      split
      · simp [*]
      · simp [*]
    · rw [List.foldl_cons, hm, copyClear_marked hp]
      simp only [List.mem_cons]
      split
      · simp [*]
      · simp [*]

/-! ### ZERORANGE -/

section
variable {s1 : State} {v w : SReg}

/-- Two registers are written, the second last. -/
theorem State.SameRegs.wr_wr (h : s.SameRegs s1) (ha : s.ctx.boundSlot a = none) (hb : s.ctx.boundSlot b = none) :
    (a ≠ b → a ≠ 0#6 → ((s1.wr a v).wr b w).rd a = v) ∧ (b ≠ 0#6 → ((s1.wr a v).wr b w).rd b = w) ∧
    ∀ r, r ≠ a → r ≠ b → ((s1.wr a v).wr b w).rd r = s.rd r := by
  have h1 := h.wr_wrote (v := v) ha
  have hbind : (s1.wr a v).ctx.boundSlot b = none := by
    rw [State.wr_ctx, Ctx.boundSlot_writeS, Ctx.boundSlot_of_qbinds h.1, hb]
  have h2 := State.wr_wrote (v := w) hbind
  refine ⟨fun hne h0 => (h2.2 a hne).trans (h1.nonzero h0), h2.nonzero, fun r hra hrb => (h2.2 r hrb).trans (h1.2 r hra)⟩

end

section
variable (hp : s.Plain [a, b]) (hc : s.Clean [a, b])
include hp

theorem plain_twice : s.Plain ([a, b] ++ [a, b]) := by
  have hsub (r : Reg) (hr : r ∈ [a, b] ++ [a, b]) : r ∈ [a, b] := by
    rcases List.mem_append.mp hr with h | h <;> exact h
  exact ⟨fun r hr => hp.1 r (hsub r hr), fun r hr => hp.2 r (hsub r hr)⟩

include hc

theorem zerorange_misaligned : ((s.rd a).bits.toNat % 65536 ≠ 0 →
      exec (.zerorange { a := a, b := b }) s = .next (s.fault (Cause.seq 0x06#8 0 (s.rd a).bits))) ∧
    ((s.rd a).bits.toNat % 65536 = 0 → (s.rd b).bits.toNat % 65536 ≠ 0 →
      exec (.zerorange { a := a, b := b }) s = .next (s.fault (Cause.seq 0x06#8 0 (s.rd b).bits))) := by
  refine ⟨fun hx => seqInstr_trap (plain_twice hp) ?_, fun hx hy => seqInstr_trap (plain_twice hp) ?_⟩
  · rw [consume_clean (hc a (by simp)), consume_clean (hc b (by simp))]
    exact if_pos hx
  · rw [consume_clean (hc a (by simp)), consume_clean (hc b (by simp))]
    exact (if_neg (by omega)).trans (if_pos hy)

variable (hx : (s.rd a).bits.toNat % 65536 = 0) (hy : (s.rd b).bits.toNat % 65536 = 0)
include hx hy

theorem zerorange_tooLong (hl : 2 ^ 48 < (s.rd a).bits.toNat + (s.rd b).bits.toNat) :
    exec (.zerorange { a := a, b := b }) s = .next (s.fault (Cause.seq 0x05#8 1 (s.rd a).bits)) := by
  refine seqInstr_trap (plain_twice hp) ?_
  rw [consume_clean (hc a (by simp)), consume_clean (hc b (by simp))]
  exact (if_neg (by omega)).trans ((if_neg (by omega)).trans (if_pos hl))

variable (hl : (s.rd a).bits.toNat + (s.rd b).bits.toNat ≤ 2 ^ 48)
include hl

theorem zerorange_unmapped {e : XFail} (he : s.ipaPages (s.rd a).bits.toNat ((s.rd b).bits.toNat / 65536) = .error e) :
    exec (.zerorange { a := a, b := b }) s =
      .next ((s.xEvent (dieOf s.ctx.core) s.ctx.part.toNat s.ctx.vdn.toNat e).fault (e.cause 0x05#8 (s.rd a).bits.toNat)) := by
  refine seqInstr_trap (plain_twice hp) ?_
  rw [consume_clean (hc a (by simp)), consume_clean (hc b (by simp))]
  refine (if_neg (by omega)).trans ((if_neg (by omega)).trans ((if_neg (by omega)).trans ?_))
  rw [he]
  rfl

variable {ps : List Nat} (hps : s.ipaPages (s.rd a).bits.toNat ((s.rd b).bits.toNat / 65536) = .ok ps)
include hps

theorem zerorange_part (hparts : s.parts = true) (hn : 1 < ps.length) :
    exec (.zerorange { a := a, b := b }) s = .next ((((s.copyClear (ps.headD 0) 65536).wrc a ((s.rd a).bits + 65536#64)).wrc b
      ((s.rd b).bits - 65536#64)).waitAt .part false) := by
  refine seqInstr_wait (plain_twice hp) ?_
  rw [consume_clean (hc a (by simp)), consume_clean (hc b (by simp))]
  refine (if_neg (by omega)).trans ((if_neg (by omega)).trans ((if_neg (by omega)).trans ?_))
  rw [hps]
  exact if_pos (by simp [hparts, hn, hp.1 a (by simp), hp.1 b (by simp)])

theorem zerorange_whole (hparts : s.parts = false) (hal : ∀ p ∈ ps, p % 65536 = 0) :
    exec (.zerorange { a := a, b := b }) s = .next ((((ps.foldl (fun s pa => s.copyClear pa 65536) s).wrc a
      ((s.rd a).bits + (s.rd b).bits)).wrc b 0#64).goOn s.pc8) := by
  obtain ⟨hf, -, -⟩ := clearPages hal s
  refine seqInstr_done (plain_twice hp) ?_ (by simp [hf.qbinds])
  rw [consume_clean (hc a (by simp)), consume_clean (hc b (by simp))]
  refine (if_neg (by omega)).trans ((if_neg (by omega)).trans ((if_neg (by omega)).trans ?_))
  rw [hps]
  exact if_neg (by simp [hparts])

end

end

end Sys2Proof.Machine

namespace Sys2Proof
open Machine

/-- TLBINV and ZERORANGE (R320, R321). -/
theorem translationsDropAndRangesZero : Say.TranslationsDropAndRangesZero := by
  intro s a b hp hc
  refine ⟨fun sc => ?_, ?_⟩
  · have hy := (s.rd b).bits.isLt
    have hres : (bitsOf (s.rd b).bits.toNat 54 10 ≠ 0 ∨ bitsOf (s.rd b).bits.toNat 40 8 ≠ 0 ∨
        (bitsOf (s.rd b).bits.toNat 0 40 = 0 ∧ (s.rd a).bits ≠ 0#64)) ↔ ((s.rd b).bits.toNat / 2 ^ 54 ≠ 0 ∨
        (s.rd b).bits.toNat / 2 ^ 40 % 2 ^ 8 ≠ 0 ∨ ((s.rd b).bits.toNat % 2 ^ 40 = 0 ∧ (s.rd a).bits ≠ 0#64)) := by
      have htop : bitsOf (s.rd b).bits.toNat 54 10 = (s.rd b).bits.toNat / 2 ^ 54 := Nat.mod_eq_of_lt (by omega)
      rw [bitsOf_low, htop]
      rfl
    refine ⟨tlbinv_misaligned hp hc, fun hx hr => ⟨s.useFree, _, tlbinv_reserved hp hc hx (hres.mpr hr), rfl, rfl, rfl⟩,
      fun hx hr => ⟨_, tlbinv_drops hp hc hx (hres.not.mpr hr), State.goOn_pc _ _, fun r => ?_, fun e => ?_, fun e => ?_⟩⟩
    · exact (State.goOn_rd _ _ r).trans ((s.releaseAll_flushed sc.toNat).rd r)
    · rw [← bitsOf_low]
      exact mem_translationsDropped_tlb
    · rw [← bitsOf_low]
      exact mem_translationsDropped_walks
  · obtain ⟨hx, hy⟩ := zerorange_misaligned hp hc
    refine ⟨hx, hy, fun hx hy => ⟨zerorange_tooLong hp hc hx hy, fun e hl he => zerorange_unmapped hp hc hx hy hl he,
      fun ps hl hps hparts hn hal hab ha0 hb0 => ?_, fun ps hl hps hparts hal => ?_⟩⟩
    · have hf := copyClear_flushed hal s
      obtain ⟨h1, h2, h3⟩ := hf.sameRegs.wr_wr (v := { bits := (s.rd a).bits + 65536#64, pois := false })
        (w := { bits := (s.rd b).bits - 65536#64, pois := false }) (hp.1 a (by simp)) (hp.1 b (by simp))
      obtain ⟨hr, hpc, hm, -⟩ := (((s.copyClear (ps.headD 0) 65536).wrc a ((s.rd a).bits + 65536#64)).wrc b
        ((s.rd b).bits - 65536#64)).waitAt_sees .part false
      refine ⟨_, zerorange_part hp hc hx hy hl hps hparts hn, hpc.trans (by simpa using hf.pc), hm.trans ?_,
        (hr a).trans (h1 hab ha0), (hr b).trans (h2 hb0), fun r hra hrb => (hr r).trans (h3 r hra hrb)⟩
      rw [copyClear_page hal]
      rfl
    · obtain ⟨hf, hb, hm⟩ := clearPages hal s
      obtain ⟨h1, h2, h3⟩ := hf.sameRegs.wr_wr (v := { bits := (s.rd a).bits + (s.rd b).bits, pois := false })
        (w := { bits := 0#64, pois := false }) (hp.1 a (by simp)) (hp.1 b (by simp))
      exact ⟨_, zerorange_whole hp hc hx hy hl hps hparts hal, State.goOn_pc _ _, hb, hm,
        fun hab ha0 => (State.goOn_rd _ _ _).trans (h1 hab ha0), fun hb0 => (State.goOn_rd _ _ _).trans (h2 hb0),
        fun r hra hrb => (State.goOn_rd _ _ _).trans (h3 r hra hrb)⟩

end Sys2Proof
end
section
/-! # The contexts of a state, and what a write-out of one leaves

Which context an identity names after the focus moves, after a replacement, after an operation on another context; then
the identity, program counter, hold and bindings of a context that is written out (R19, R54, R355). -/

namespace Sys2Proof.Machine

section
variable {s t : State} {c d : Ctx} {k n : Nat}

/-! ### Naming a context -/

theorem State.findCtx_ctx (s : State) : s.findCtx s.ctx.id = some s.ctx := if_pos rfl

theorem State.findCtx_ne (h : s.ctx.id ≠ k) : s.findCtx k = s.ctxs.find? (fun c => c.id == k) := if_neg h

theorem State.findCtx_id (h : s.findCtx k = some c) : c.id = k := by
  unfold State.findCtx at h
  split at h
  · rename_i hk
    rw [← Option.some.inj h, hk]
  · simpa using List.find?_some h

theorem State.focus_self (s : State) : s.focus s.ctx.id = s := if_pos rfl

/-- The focus moves to the context of the identity, where there is one. -/
theorem State.focus_ctx (h : s.findCtx k = some c) : (s.focus k).ctx = c := by
  unfold State.focus State.findCtx at *
  split at h
  · rw [if_pos ‹_›]
    exact Option.some.inj h
  · rw [if_neg ‹_›, h]

theorem State.focus_other (hne : s.ctx.id ≠ k) (h : s.findCtx k = some c) :
    s.focus k = { s with ctx := c, ctxs := s.ctx :: s.ctxs.filter (fun d => d.id != k) } := by
  rw [State.findCtx_ne hne] at h
  unfold State.focus
  rw [if_neg hne, h]

/-- The contexts of other identities are not those that a filter takes out. -/
theorem find?_filter_ne {l : List Ctx} (h : n ≠ k) : (l.filter (fun d => d.id != k)).find? (fun c => c.id == n) =
    l.find? (fun c => c.id == n) := by
  rw [List.find?_filter]
  congr 1
  funext d
  by_cases hd : d.id = n
  · simp [hd, h]
  · simp [hd]

/-- Moving the focus renames no context. -/
theorem State.findCtx_focus (s : State) (k n : Nat) : (s.focus k).findCtx n = s.findCtx n := by
  by_cases hk : s.ctx.id = k
  · rw [← hk, State.focus_self]
  · cases hf : s.findCtx k with
    | none =>
      rw [State.findCtx_ne hk] at hf
      have : s.focus k = s := by
        unfold State.focus
        rw [if_neg hk, hf]
      rw [this]
    | some c =>
      have hc := State.findCtx_id hf
      rw [State.focus_other hk hf]
      unfold State.findCtx
      dsimp only
      by_cases hn : c.id = n
      · rw [if_pos hn, ← hn, hc, if_neg hk]
        exact hf.symm.trans (State.findCtx_ne hk)
      · rw [if_neg hn, List.find?_cons]
        by_cases hs : s.ctx.id = n
        · simp [hs]
        · rw [if_neg hs]
          simp only [beq_eq_false_iff_ne.mpr hs]
          exact find?_filter_ne (fun e => hn (hc.trans e.symm))

/-- Of the contexts, with one replaced by another of its identity. -/
theorem find?_map_replace (l : List Ctx) (c : Ctx) (n : Nat) :
    (l.map (fun d => if d.id = c.id then c else d)).find? (fun d => d.id == n) =
      if n = c.id then (l.find? (fun d => d.id == n)).map (fun _ => c) else l.find? (fun d => d.id == n) := by
  induction l with
  | nil => simp
  | cons d l ih =>
    rw [List.map_cons, List.find?_cons, List.find?_cons, ih]
    by_cases hd : d.id = c.id
    · by_cases hn : n = c.id
      · simp [hd, hn]
      · have hb : (c.id == n) = false := beq_eq_false_iff_ne.mpr (Ne.symm hn)
        simp [hd, hn, hb]
    · by_cases hn : d.id = n
      · simp [hn, hn ▸ hd]
      · have hb : (d.id == n) = false := beq_eq_false_iff_ne.mpr hn
        simp [hd, hb]

/-- A replaced context is the one of its identity. -/
theorem State.findCtx_putCtx (s : State) (c : Ctx) (n : Nat) :
    (s.putCtx c).findCtx n = if n = c.id then (s.findCtx n).map (fun _ => c) else s.findCtx n := by
  unfold State.putCtx
  by_cases hk : s.ctx.id = c.id
  · rw [if_pos hk]
    by_cases hn : n = c.id
    · rw [if_pos hn, hn, ← hk, State.findCtx_ctx]
      exact if_pos hk.symm
    · rw [if_neg hn]
      unfold State.findCtx
      rw [if_neg (fun h => hn h.symm), if_neg (fun h => hn (h.symm.trans hk))]
  · rw [if_neg hk]
    by_cases hs : s.ctx.id = n
    · rw [if_neg (fun h => hk (hs.trans h))]
      unfold State.findCtx
      dsimp only
      rw [if_pos hs, if_pos hs]
    · rw [State.findCtx_ne hs, State.findCtx_ne (by exact hs)]
      exact find?_map_replace s.ctxs c n

/-- A changed context keeps its identity. -/
theorem State.findCtx_mapCtx {f : Ctx → Ctx} (hf : ∀ c, (f c).id = c.id) (s : State) (k n : Nat) :
    (s.mapCtx k f).findCtx n = if n = k then (s.findCtx n).map f else s.findCtx n := by
  unfold State.mapCtx
  cases hk : s.findCtx k with
  | none =>
    dsimp only
    split
    · rename_i hn
      rw [hn, hk]
      rfl
    · rfl
  | some c =>
    have hc := State.findCtx_id hk
    dsimp only
    rw [State.findCtx_putCtx, hf, hc]
    split
    · rename_i hn
      rw [hn, hk]
      rfl
    · rfl

theorem State.mapCtx_ctx {f : Ctx → Ctx} (hf : ∀ c, (f c).id = c.id) (hk : s.ctx.id ≠ k) : (s.mapCtx k f).ctx = s.ctx := by
  unfold State.mapCtx
  cases h : s.findCtx k with
  | none => rfl
  | some c =>
    dsimp only
    unfold State.putCtx
    rw [if_neg (by rw [hf, State.findCtx_id h]; exact hk)]

/-- A context put at the end, in the place of the others of its identity, is the one of it. -/
theorem find?_appended (l : List Ctx) (c : Ctx) :
    (l.filter (fun d => d.id != c.id) ++ [c]).find? (fun d => d.id == c.id) = some c := by
  have hnone : (l.filter (fun d => d.id != c.id)).find? (fun d => d.id == c.id) = none := by
    rw [List.find?_eq_none]
    intro d hd
    simpa using (List.mem_filter.mp hd).2
  rw [List.find?_append, hnone]
  simp

/-- A context added is the one of its identity. -/
theorem State.findCtx_added (s : State) (c : Ctx) : (s.addCtx c).findCtx c.id = some c := by
  unfold State.addCtx
  split
  · exact if_pos rfl
  · rename_i h
    unfold State.findCtx
    dsimp only
    rw [if_neg fun e => h (Or.inl e)]
    exact find?_appended s.ctxs c

/-- A context added under its own identity, which no focused context has. -/
theorem State.findCtx_addCtx (hid : s.ctx.id ≠ c.id) (hp : s.ctx.place ≠ .nowhere) : (s.addCtx c).ctx = s.ctx ∧
    (s.addCtx c).findCtx c.id = some c ∧ ∀ n, n ≠ c.id → (s.addCtx c).findCtx n = s.findCtx n := by
  have h : s.addCtx c = { s with ctxs := s.ctxs.filter (fun d => d.id != c.id) ++ [c] } :=
    if_neg (fun h => h.elim hid (fun h => hp h.1))
  rw [h]
  refine ⟨rfl, h ▸ s.findCtx_added c, fun n hn => ?_⟩
  · unfold State.findCtx
    dsimp only
    by_cases hs : s.ctx.id = n
    · rw [if_pos hs, if_pos hs]
    · rw [if_neg hs, if_neg hs, List.find?_append, find?_filter_ne hn]
      have : [c].find? (fun d => d.id == n) = none := by simp [Ne.symm hn]
      rw [this, Option.or_none]

/-- An operation on another context, which changes that one and no other, leaves the focused one as it is. -/
theorem State.onCtx_local {f : State → State} (hid : s.ctx.id ≠ k) (hk : s.findCtx k = some c)
    (hctxs : (f (s.focus k)).ctxs = (s.focus k).ctxs) (hf : (f (s.focus k)).ctx.id = k) :
    (s.onCtx k f).ctx = s.ctx ∧ (s.onCtx k f).findCtx k = some (f (s.focus k)).ctx ∧
    (s.onCtx k f).tasks = (f (s.focus k)).tasks := by
  have hfoc : (s.focus k).ctxs = s.ctx :: s.ctxs.filter (fun d => d.id != k) := by rw [State.focus_other hid hk]
  have hback : (f (s.focus k)).findCtx s.ctx.id = some s.ctx := by
    rw [State.findCtx_ne (by rw [hf]; exact Ne.symm hid), hctxs, hfoc]
    simp
  have h : s.onCtx k f = (f (s.focus k)).focus s.ctx.id := by
    unfold State.onCtx
    rw [hk]
  rw [h]
  refine ⟨State.focus_ctx hback, ?_, ?_⟩
  · rw [State.findCtx_focus]
    exact if_pos hf
  · rw [State.focus_other (by rw [hf]; exact Ne.symm hid) hback]

/-! ### What a write-out leaves of a context -/

/-- What no bank, gutter, channel, send or tile of a context shows: its identity, where it stands, its hold, its
bindings. -/
def Ctx.face (c : Ctx) : Nat × Word × Bool × Bool × Sparse QBinding := (c.id, c.pc, c.held, c.saveReq, c.qbinds)

/-- A list of changes that each leave the face. -/
theorem foldl_face {β : Type} {f : Ctx → β → Ctx} (hf : ∀ c b, (f c b).face = c.face) (l : List β) (c : Ctx) :
    (l.foldl f c).face = c.face := by
  induction l generalizing c with
  | nil => rfl
  | cons b l ih => exact (ih _).trans (hf c b)

@[simp] theorem Ctx.setPadBank_face (c : Ctx) (b : Nat) (v : PadBank) : (c.setPadBank b v).face = c.face := rfl
@[simp] theorem Ctx.setGutter_face (c : Ctx) (n : Nat) (g : Gutter) : (c.setGutter n g).face = c.face := rfl
@[simp] theorem Ctx.setSend_face (c : Ctx) (n : Nat) (v : SendSlot) : (c.setSend n v).face = c.face := rfl
@[simp] theorem Ctx.putPad_face (c : Ctx) (ws : List Put) : (c.putPad ws).face = c.face := rfl

theorem Ctx.padTo_face (c : Ctx) (b : Nat) (st : Supply) : (c.padTo b st).face = c.face := by
  unfold Ctx.padTo
  dsimp only
  split <;> rfl

theorem Ctx.padPolicy_face (c : Ctx) (b : Nat) : (c.padPolicy b).face = c.face := by
  unfold Ctx.padPolicy
  split
  · rfl
  · exact c.padTo_face _ _

theorem Ctx.padWake_face (c : Ctx) (b : Nat) : (c.padWake b).face = c.face := by
  unfold Ctx.padWake
  dsimp only
  split <;> rfl

theorem Ctx.padWoken_face (c : Ctx) (b : Nat) : (c.padWoken b).face = c.face := by
  unfold Ctx.padWoken
  dsimp only
  split
  · rfl
  · split
    · split
      · rfl
      · exact c.padTo_face _ _
    · rfl

theorem Ctx.padLastUse_face (c : Ctx) (a n : Nat) : (c.padLastUse a n).face = c.face := by
  refine (foldl_face (fun d b => ?_) _ _).trans rfl
  split
  · exact d.padPolicy_face b
  · rfl

theorem Ctx.takeSend_face (c : Ctx) (n : Nat) : (c.takeSend n).face = c.face := by
  unfold Ctx.takeSend
  dsimp only
  split
  · rfl
  · split
    · exact foldl_face Ctx.padWake_face _ _
    · rw [Ctx.setSend_face]
      refine foldl_face (fun d b => ?_) _ _
      split
      · exact d.padLastUse_face _ _
      · rfl

theorem Ctx.takeSends_face (c : Ctx) : c.takeSends.face = c.face := by
  have sends (l : List Nat) (d : Ctx) : (l.foldl Ctx.takeSend d).face = d.face := foldl_face Ctx.takeSend_face l d
  have woken (l : List Nat) (d : Ctx) : (l.foldl Ctx.padWoken d).face = d.face := foldl_face Ctx.padWoken_face l d
  unfold Ctx.takeSends
  dsimp only
  have chans (d : Ctx) (l : List (Nat × Chan)) : ({ d with chans := l } : Ctx).face = d.face := rfl
  exact (sends _ _).trans ((woken _ _).trans ((chans _ _).trans (sends _ c)))

theorem Ctx.fillGutter_face (c : Ctx) (n : Nat) (out : List Put) : (c.fillGutter n out).face = c.face := by
  unfold Ctx.fillGutter
  dsimp only
  split <;> rfl

theorem Ctx.settleFlights_face (n k : Nat) (c : Ctx) : (Ctx.settleFlights n k c).face = c.face := by
  induction k generalizing c with
  | zero => rfl
  | succ k ih =>
    unfold Ctx.settleFlights
    split
    · exact (ih _).trans (c.fillGutter_face _ _)
    · rfl

theorem Ctx.endArrivals_face (c : Ctx) (n : Nat) : (c.endArrivals n).face = c.face :=
  Ctx.settleFlights_face n _ _

theorem Ctx.settleLate_face (c : Ctx) : c.settleLate.face = c.face := by
  have h (l : List LateCell) : (c.putLate l).face = c.face := by
    refine foldl_face (fun d x => ?_) l c
    split
    · split <;> rfl
    · rfl
  unfold Ctx.settleLate
  dsimp only
  split
  · rfl
  · exact h _

/-- The area of a context is in memory. -/
theorem State.writeArea_ctxs (s : State) (c : Ctx) : (s.writeArea c).ctx = s.ctx ∧ (s.writeArea c).ctxs = s.ctxs ∧
    (s.writeArea c).cores = s.cores ∧ (s.writeArea c).tasks = s.tasks := by
  unfold State.writeArea
  refine foldl_rel (R := fun a b : State => b.ctx = a.ctx ∧ b.ctxs = a.ctxs ∧ b.cores = a.cores ∧ b.tasks = a.tasks)
    (fun _ => ⟨rfl, rfl, rfl, rfl⟩) (fun h h' => ⟨h'.1.trans h.1, h'.2.1.trans h.2.1, h'.2.2.1.trans h.2.2.1,
      h'.2.2.2.trans h.2.2.2⟩) (fun t e => ?_) _ _
  obtain ⟨m, c, h⟩ := t.homeWrite_eq (c.id + e.1) e.2 false
  rw [h]
  exact ⟨rfl, rfl, rfl, rfl⟩

end

end Sys2Proof.Machine
end
section
/-! # What is kept of every context

A relation of two states: of the focused context and of each one that an identity names, a reading g is the same. It is
built up along the operations that reports and posts are made of. -/

namespace Sys2Proof.Machine

/-- Every context of s is in t with the same reading g, and the focus is on the same one. -/
def State.Keeps {β : Type} (g : Ctx → β) (s t : State) : Prop :=
  (t.ctx.id = s.ctx.id ∧ g t.ctx = g s.ctx) ∧ ∀ k, (t.findCtx k).map g = (s.findCtx k).map g

section
variable {β : Type} {g : Ctx → β} {s t u : State} {c d : Ctx} {k : Nat}

namespace State.Keeps

theorem refl (s : State) : s.Keeps g s := ⟨⟨rfl, rfl⟩, fun _ => rfl⟩

theorem trans (h : s.Keeps g t) (h' : t.Keeps g u) : s.Keeps g u :=
  ⟨⟨h'.1.1.trans h.1.1, h'.1.2.trans h.1.2⟩, fun k => (h'.2 k).trans (h.2 k)⟩

theorem id (h : s.Keeps g t) : t.ctx.id = s.ctx.id := h.1.1

theorem ctx (h : s.Keeps g t) : g t.ctx = g s.ctx := h.1.2

theorem find (h : s.Keeps g t) (hc : s.findCtx k = some c) : ∃ d, t.findCtx k = some d ∧ g d = g c := by
  have hk := h.2 k
  rw [hc] at hk
  exact Option.map_eq_some_iff.mp hk

theorem isSome (h : s.Keeps g t) (k : Nat) : (t.findCtx k).isSome = (s.findCtx k).isSome := by
  have hk := congrArg Option.isSome (h.2 k)
  simpa using hk

/-- What changes at most the focused context, and not what g reads there. -/
theorem of_ctx (hs : t.ctxs = s.ctxs) (hid : t.ctx.id = s.ctx.id) (hg : g t.ctx = g s.ctx) : s.Keeps g t := by
  refine ⟨⟨hid, hg⟩, fun k => ?_⟩
  unfold State.findCtx
  rw [hs, hid]
  split
  · exact congrArg some hg
  · rfl

/-- What changes no context. -/
theorem of_eq (hc : t.ctx = s.ctx) (hs : t.ctxs = s.ctxs) : s.Keeps g t := of_ctx hs (by rw [hc]) (by rw [hc])

end State.Keeps

/-- A context replaced by one with the same reading. -/
theorem State.keeps_putCtx (hc : s.findCtx c.id = some d) (hg : g c = g d) : s.Keeps g (s.putCtx c) := by
  have hfind (k : Nat) : ((s.putCtx c).findCtx k).map g = (s.findCtx k).map g := by
    rw [State.findCtx_putCtx]
    split
    · rename_i hk
      rw [hk, hc]
      exact congrArg some hg
    · rfl
  refine ⟨?_, hfind⟩
  by_cases hk : s.ctx.id = c.id
  · have hput : s.putCtx c = { s with ctx := c } := if_pos hk
    have hd : s.ctx = d := Option.some.inj ((State.findCtx_ctx s).symm.trans (hk ▸ hc))
    rw [hput, hd]
    exact ⟨(State.findCtx_id hc).symm, hg⟩
  · have hput : (s.putCtx c).ctx = s.ctx := by rw [State.putCtx, if_neg hk]
    rw [hput]
    exact ⟨rfl, rfl⟩

theorem State.keeps_mapCtx {f : Ctx → Ctx} (hf : ∀ c, (f c).id = c.id ∧ g (f c) = g c) (s : State) (k : Nat) :
    s.Keeps g (s.mapCtx k f) := by
  unfold State.mapCtx
  cases hk : s.findCtx k with
  | none => exact .refl s
  | some c =>
    have hc : s.findCtx (f c).id = some c := by rw [(hf c).1, State.findCtx_id hk, hk]
    exact State.keeps_putCtx hc (hf c).2

/-- A step of another context that keeps the readings under its focus keeps them when the focus is back. -/
theorem State.keeps_onCtx {f : State → State} (hf : ∀ c, s.findCtx k = some c → (s.focus k).Keeps g (f (s.focus k))) :
    s.Keeps g (s.onCtx k f) := by
  unfold State.onCtx
  cases hk : s.findCtx k with
  | none => exact .refl s
  | some c =>
    dsimp only
    have hall (n : Nat) : ((f (s.focus k)).findCtx n).map g = (s.findCtx n).map g :=
      ((hf c hk).2 n).trans (by rw [State.findCtx_focus])
    obtain ⟨d, hd, hg⟩ := Option.map_eq_some_iff.mp ((hall s.ctx.id).trans (by rw [State.findCtx_ctx]; rfl))
    refine ⟨?_, fun n => by rw [State.findCtx_focus]; exact hall n⟩
    rw [State.focus_ctx hd]
    exact ⟨State.findCtx_id hd, hg⟩

theorem State.keeps_event (s : State) (die code part vd a0 a1 : Nat) : s.Keeps g (s.event die code part vd a0 a1) := by
  obtain ⟨m, k, c, d, h⟩ := s.event_eq die code part vd a0 a1
  rw [h]
  exact .of_eq rfl rfl

theorem State.keeps_xEvent (s : State) (die part vd : Nat) (f : XFail) : s.Keeps g (s.xEvent die part vd f) := by
  cases f with
  | malformed n a => exact s.keeps_event _ _ _ _ _ _
  | _ => exact .refl s

/-- A cause posted changes no more than the list of posted causes. -/
theorem State.keeps_post (hg : ∀ c l, g { c with posted := l } = g c) (s : State) (k : Nat) (p : Posted) :
    s.Keeps g (s.post k p) :=
  s.keeps_mapCtx (fun c => by
    unfold Ctx.post
    split
    · exact ⟨rfl, rfl⟩
    · exact ⟨rfl, hg c _⟩) k

theorem State.keeps_postSteward (hg : ∀ c l, g { c with posted := l } = g c) (s : State) (d : Nat) (p : Posted) :
    s.Keeps g (s.postSteward d p) := by
  unfold State.postSteward
  split
  · exact s.keeps_post hg _ p
  · exact .refl s

theorem State.keeps_agentFails (hg : ∀ c l, g { c with posted := l } = g c) (s : State) (die part vd agent va : Nat)
    (f : XFail) : s.Keeps g (s.agentFails die part vd agent va f) := by
  have h2 : s.Keeps g (if f.isStage2 then (s.xEvent die part vd f).event die 0x0B part vd va agent
      else s.xEvent die part vd f) := by
    split
    · exact (s.keeps_xEvent die part vd f).trans (State.keeps_event ..)
    · exact s.keeps_xEvent die part vd f
  unfold State.agentFails
  dsimp only
  split
  · split
    · exact h2
    · exact h2.trans (State.keeps_postSteward hg ..)
  · exact h2

end

end Sys2Proof.Machine
end
section
/-! # CTXSAVE and CTXLOAD

What a context is after it has been written out and held, which contexts a CTXLOAD brings, and what either leaves of the
issuing context (R19, R318, R319). -/

namespace Sys2Proof.Machine

/-- What scalar operands and bindings of a context are read from, with its identity and place. -/
def Ctx.look (c : Ctx) : Nat × Place × Sparse QBinding × RegBank := (c.id, c.place, c.qbinds, c.bank)

section
variable {s t s1 : State} {c : Ctx} {k : Nat}

theorem State.Keeps.sameRegs (h : s.Keeps Ctx.look t) : s.SameRegs t := by
  have hl := h.ctx
  simp only [Ctx.look, Prod.mk.injEq] at hl
  obtain ⟨-, -, hq, hb⟩ := hl
  refine ⟨hq, fun r => ?_⟩
  unfold State.rd Ctx.readS Ctx.boundSlot Ctx.qbind
  rw [hq, hb]

theorem State.Keeps.place (h : s.Keeps Ctx.look t) : t.ctx.place = s.ctx.place := by
  have hl := h.ctx
  simp only [Ctx.look, Prod.mk.injEq] at hl
  exact hl.2.1

/-! ### A context written out -/

theorem Ctx.face_parts {x : Ctx} (h : x.face = c.face) : x.id = c.id ∧ x.pc = c.pc ∧ x.held = c.held ∧ x.saveReq = c.saveReq := by
  unfold Ctx.face at h
  simp only [Prod.mk.injEq] at h
  exact ⟨h.1, h.2.1, h.2.2.1, h.2.2.2.1⟩

theorem State.writeBack_ctxs (s : State) (p : Nat → L1Byte → Bool) : (s.writeBack p).ctxs = s.ctxs ∧
    (s.writeBack p).tasks = s.tasks ∧ (s.writeBack p).cores = s.cores ∧ (s.writeBack p).ctx.face = s.ctx.face := by
  rw [s.writeBack_flushed p]
  exact ⟨rfl, rfl, rfl, rfl⟩

/-- A context put in the place of the focused one, L1 given up. -/
theorem State.restedAs_frame (u : State) (c : Ctx) : ({ u.setL1 [] with ctx := c } : State).ctxs = u.ctxs ∧
    ({ u.setL1 [] with ctx := c } : State).tasks = u.tasks ∧ ({ u.setL1 [] with ctx := c } : State).cores = u.cores :=
  ⟨rfl, rfl, rfl⟩

/-- The last part of a write-out: the area written, the context in memory. -/
theorem State.written_frame (u : State) (c d : Ctx) : ({ (u.writeArea c) with ctx := d } : State).ctxs = u.ctxs ∧
    ({ (u.writeArea c) with ctx := d } : State).tasks = u.tasks ∧ ({ (u.writeArea c) with ctx := d } : State).cores = u.cores ∧
    ({ (u.writeArea c) with ctx := d } : State).ctx = d :=
  ⟨(u.writeArea_ctxs c).2.1, (u.writeArea_ctxs c).2.2.2, (u.writeArea_ctxs c).2.2.1, rfl⟩

theorem Ctx.rested_face (c : Ctx) (l : List Nat) : (l.foldl Ctx.endArrivals c.settleLate.takeSends).face = c.face :=
  (foldl_face Ctx.endArrivals_face l _).trans ((Ctx.takeSends_face _).trans c.settleLate_face)

theorem Ctx.face_saved (c : Ctx) (n : Nat) (p : Place) : ({ c with savet := n, place := p } : Ctx).face = c.face := rfl

/-- A write-out leaves the context in memory, and of it what says what it is. -/
theorem State.saveFocus_frame (s : State) : s.saveFocus.ctxs = s.ctxs ∧ s.saveFocus.tasks = s.tasks ∧
    s.saveFocus.cores = s.cores ∧ s.saveFocus.ctx.face = s.ctx.face ∧ s.saveFocus.ctx.place = .memory := by
  obtain ⟨hcs, hts, hco, hf⟩ := s.writeBack_ctxs (fun _ _ => true)
  unfold State.saveFocus
  generalize List.range 16 = l
  extract_lets s1 c1 c2 s2 s3
  have hface : c2.face = s.ctx.face := (c1.face_saved s.now c1.place).trans ((Ctx.rested_face s1.ctx l).trans hf)
  obtain ⟨r1, r2, r3⟩ := State.restedAs_frame (s.writeBack (fun _ _ => true)) c2
  obtain ⟨h1, h2, h3, h4⟩ := State.written_frame s2 c2 { c2 with place := .memory }
  exact ⟨h1.trans (r1.trans hcs), h2.trans (r2.trans hts), h3.trans (r3.trans hco),
    (congrArg Ctx.face h4).trans ((c2.face_saved c2.savet .memory).trans hface), congrArg Ctx.place h4⟩

/-- A property of every listed value and of the defaults is one of each value that is read. -/
theorem Sparse.get_of_all {α : Type} {d : Nat → α} {P : α → Prop} {m : Sparse α} (hd : ∀ k, P (d k)) (hm : ∀ e ∈ m, P e.2)
    (k : Nat) : P (Sparse.get d m k) := by
  induction m with
  | nil => exact hd k
  | cons e m ih =>
    obtain ⟨j, v⟩ := e
    unfold Sparse.get
    split
    · exact hm (j, v) (by simp)
    · exact ih fun e he => hm e (by simp [he])

theorem State.vacate_run (s : State) (k p : Nat) : ((s.vacate k).coreSlot p).run ≠ some k := by
  refine Sparse.get_of_all (P := fun c : CoreSlot => c.run ≠ some k) (fun _ => by simp [CoreSlot.zero]) (fun e he => ?_) p
  unfold State.vacate at he
  obtain ⟨e0, -, rfl⟩ := List.mem_map.mp (List.mem_filter.mp he).1
  dsimp only
  split
  · simp
  · assumption

/-- A context of another identity leaves its core: it is in memory, and nothing else is another. -/
theorem State.leaveCore_frame (hid : s.ctx.id ≠ k) (hk : s.findCtx k = some c) : (s.leaveCore k).ctx = s.ctx ∧
    (∃ x, (s.leaveCore k).findCtx k = some x ∧ x.face = c.face ∧ x.place = .memory) ∧ (s.leaveCore k).tasks = s.tasks ∧
    ∀ p, ((s.leaveCore k).coreSlot p).run ≠ some k := by
  have hfoc := State.focus_ctx hk
  obtain ⟨hcs, hts, -, hface, hpl⟩ := (s.focus k).saveFocus_frame
  rw [hfoc] at hface
  have hidk : (s.focus k).saveFocus.ctx.id = k := (Ctx.face_parts hface).1.trans (State.findCtx_id hk)
  obtain ⟨hctx, hfind, hrest⟩ := State.onCtx_local hid hk hcs hidk
  have htasks : (s.onCtx k State.saveFocus).tasks = s.tasks := by
    have hfocus : (s.focus k).tasks = s.tasks := by rw [State.focus_other hid hk]
    exact hrest.trans (hts.trans hfocus)
  exact ⟨hctx, ⟨_, hfind, hface, hpl⟩, htasks, State.vacate_run _ k⟩

/-- L1 given up by the focused context. -/
def State.restedL1 (s : State) : State := { (s.writeBack (fun _ _ => true)).setL1 [] with
  ctx := ((s.writeBack (fun _ _ => true)).setL1 []).ctx.settleLate }

theorem State.cleanL1_eq (s : State) (k : Nat) : s.cleanL1 k = s.onCtx k State.restedL1 := rfl

theorem State.restedL1_frame (s : State) : s.restedL1.ctxs = s.ctxs ∧ s.restedL1.tasks = s.tasks ∧
    s.restedL1.ctx.face = s.ctx.face := by
  obtain ⟨hcs, hts, -, hface⟩ := s.writeBack_ctxs (fun _ _ => true)
  obtain ⟨r1, r2, -⟩ := State.restedAs_frame (s.writeBack (fun _ _ => true))
    ((s.writeBack (fun _ _ => true)).setL1 []).ctx.settleLate
  exact ⟨r1.trans hcs, r2.trans hts, (Ctx.settleLate_face ((s.writeBack (fun _ _ => true)).setL1 []).ctx).trans hface⟩

theorem State.cleanL1_frame (hid : s.ctx.id ≠ k) (hk : s.findCtx k = some c) : (s.cleanL1 k).ctx = s.ctx ∧
    (∃ x, (s.cleanL1 k).findCtx k = some x ∧ x.face = c.face) ∧ (s.cleanL1 k).tasks = s.tasks := by
  obtain ⟨hcs, hts, hface⟩ := (s.focus k).restedL1_frame
  rw [State.focus_ctx hk] at hface
  obtain ⟨hctx, hfind, hrest⟩ := State.onCtx_local hid hk hcs ((Ctx.face_parts hface).1.trans (State.findCtx_id hk))
  have hfocus : (s.focus k).tasks = s.tasks := by rw [State.focus_other hid hk]
  rw [State.cleanL1_eq]
  exact ⟨hctx, ⟨_, hfind, hface⟩, hrest.trans (hts.trans hfocus)⟩

/-! ### A context held -/

/-- The mark that a CTXSAVE leaves on a context. -/
def Ctx.onHold (c : Ctx) : Ctx := { c with held := true, saveReq := false }

/-- A context put on hold and written out. -/
theorem State.leaveCore_onHold (hid : s.ctx.id ≠ k) (hk : s.findCtx k = some c) :
    ((s.mapCtx k Ctx.onHold).leaveCore k).ctx = s.ctx ∧
    (∃ x, ((s.mapCtx k Ctx.onHold).leaveCore k).findCtx k = some x ∧ x.held = true ∧ x.place = .memory ∧ x.pc = c.pc) ∧
    ((s.mapCtx k Ctx.onHold).leaveCore k).tasks = s.tasks ∧
    ∀ p, (((s.mapCtx k Ctx.onHold).leaveCore k).coreSlot p).run ≠ some k := by
  have hctx : (s.mapCtx k Ctx.onHold).ctx = s.ctx := State.mapCtx_ctx (f := Ctx.onHold) (fun _ => rfl) hid
  have hfind : (s.mapCtx k Ctx.onHold).findCtx k = some c.onHold := by
    rw [State.findCtx_mapCtx (f := Ctx.onHold) (fun _ => rfl), if_pos rfl, hk]
    rfl
  have htasks : (s.mapCtx k Ctx.onHold).tasks = s.tasks := by
    unfold State.mapCtx State.putCtx
    rw [hk]
    dsimp only
    split <;> rfl
  obtain ⟨h1, ⟨x, hx, hface, hpl⟩, h3, h4⟩ := State.leaveCore_frame (by rw [hctx]; exact hid) hfind
  obtain ⟨-, hpc, hheld, -⟩ := Ctx.face_parts hface
  exact ⟨h1.trans hctx, ⟨x, hx, hheld, hpl, hpc⟩, h3.trans htasks, h4⟩

/-- A context without a task is held. -/
theorem State.holdCtx_idle (hid : s.ctx.id ≠ c.id) (hk : s.findCtx c.id = some c) (ht : c.task = none) :
    (s.holdCtx c).ctx = s.ctx ∧
    (∃ x, (s.holdCtx c).findCtx c.id = some x ∧ x.held = true ∧ x.place = .memory ∧ x.pc = c.pc) := by
  have h : s.holdCtx c = (s.mapCtx c.id Ctx.onHold).leaveCore c.id := by
    unfold State.holdCtx
    rw [ht]
    rfl
  obtain ⟨h1, h2, -, -⟩ := State.leaveCore_onHold hid hk
  rw [h]
  exact ⟨h1, h2⟩

/-- The task of a number among tasks that are each changed but for their number and what g reads of them. -/
theorem find?_map_same {β : Type} {g : Task → β} {f : Task → Task} (hf : ∀ t, (f t).id = t.id ∧ g (f t) = g t)
    (l : List Task) (n : Nat) :
    ((l.map f).find? (fun t => t.id == n)).map g = (l.find? (fun t => t.id == n)).map g := by
  rw [List.find?_map]
  have h : (fun t : Task => t.id == n) ∘ f = fun t => t.id == n := by
    funext t
    exact congrArg (· == n) (hf t).1
  rw [h, Option.map_map]
  congr 1
  funext t
  exact (hf t).2

/-- A heap's settling changes no more of a task than its place in the heap or the overflow list (R332). -/
theorem State.findTask_settleHeap {β : Type} {g : Task → β} (hg : ∀ t b, g { t with overflow := b } = g t)
    (s : State) (p n : Nat) : ((s.settleHeap p).findTask n).map g = (s.findTask n).map g := by
  refine find?_map_same (fun t => ?_) s.tasks n
  split
  · exact ⟨rfl, hg t _⟩
  · exact ⟨rfl, rfl⟩

/-- A replaced task is the one of its number. -/
theorem find?_replaceTask {l : List Task} {k k' : Task} {n : Nat} (h : l.find? (fun t => t.id == n) = some k) (hn : k.id = n)
    (hk : k'.id = k.id) :
    ((l.map (fun j => if j.id = k'.id then k' else j)).find? (fun t => t.id == n)) = some k' := by
  induction l with
  | nil => simp at h
  | cons t l ih =>
    rw [List.map_cons, List.find?_cons]
    rw [List.find?_cons] at h
    by_cases ht : t.id = n
    · simp [ht, hk, hn]
    · have hb : (t.id == n) = false := beq_eq_false_iff_ne.mpr ht
      rw [hb] at h
      rw [if_neg (by rw [hk, hn]; exact ht), hb]
      exact ih h

/-- The one member of a running task is held: the task is READY, the core given up. -/
theorem State.holdCtx_member {p n : Nat} {k : Task} (hid : s.ctx.id ≠ c.id) (hk : s.findCtx c.id = some c)
    (hpl : c.place = .core p) (hh : c.inHandler = false) (ht : c.task = some n) (hf : s.findTask n = some k) (hn : k.id = n)
    (hm : k.members = [c.id]) (hrun : (s.coreSlot p).run = some c.id) (h2 : (s.coreSlot p).second = none)
    (hst : k.state = .running) : (s.holdCtx c).ctx = s.ctx ∧
    (∃ x, (s.holdCtx c).findCtx c.id = some x ∧ x.held = true ∧ x.place = .memory ∧ x.pc = c.pc) ∧
    ((s.holdCtx c).coreSlot p).run ≠ some c.id ∧ ((s.holdCtx c).findTask n).map Task.state = some .ready := by
  obtain ⟨hcx, ⟨x, hx, hface⟩, hts⟩ := State.cleanL1_frame hid hk
  have hstop : s.stopCrew c.task =
      (s.cleanL1 c.id).setCore p { (s.cleanL1 c.id).coreSlot p with run := none, second := some c.id } := by
    have hone : s.stopCrew c.task = if (s.findCtx c.id).all Ctx.inHandler then s else s.displace [] c.id := by
      unfold State.stopCrew
      rw [ht, Option.bind_some, hf]
      dsimp only
      rw [hm]
      rfl
    rw [hone, hk, if_neg (by simp [hh]), State.displace, hk]
    dsimp only
    rw [hpl]
    dsimp only
    rw [if_pos hrun, h2]
  let u := (s.stopCrew c.task).readyTask k
  have hready : (s.stopCrew c.task).taskReady c.task = u := by
    have hfind : (s.stopCrew c.task).findTask n = some k := by
      rw [hstop]
      exact (congrArg (List.find? _) hts).trans hf
    unfold State.taskReady
    rw [ht]
    dsimp only
    rw [← ht, hfind]
    dsimp only
    exact if_pos (Or.inl hst)
  have huctx : u.ctx = s.ctx := by
    refine Eq.trans ?_ hcx
    show (s.stopCrew c.task).ctx = _
    rw [hstop]
    rfl
  have hufind : u.findCtx c.id = some x := by
    refine Eq.trans ?_ hx
    show (s.stopCrew c.task).findCtx c.id = _
    rw [hstop]
    rfl
  have hutask : (u.findTask n).map Task.state = some .ready := by
    refine (State.findTask_settleHeap (fun _ _ => rfl) _ _ n).trans ?_
    have hlist : (s.stopCrew c.task).tasks = s.tasks := by rw [hstop]; exact hts
    unfold State.findTask State.putTask
    dsimp only
    rw [hlist]
    exact Option.map_eq_some_iff.mpr ⟨_, find?_replaceTask (k' := { k with state := .ready, overflow := true, paused := (s.stopCrew c.task).vdPaused k.vdn })
      hf hn rfl, rfl⟩
  have hhold : s.holdCtx c = (u.mapCtx c.id Ctx.onHold).leaveCore c.id := by
    unfold State.holdCtx
    rw [hready]
    rfl
  obtain ⟨h1, ⟨y, hy, hheld, hmem, hpc⟩, h3, h4⟩ := State.leaveCore_onHold (by rw [huctx]; exact hid) hufind
  rw [hhold]
  refine ⟨h1.trans huctx, ⟨y, hy, hheld, hmem, hpc.trans (Ctx.face_parts hface).2.1⟩, h4 p, ?_⟩
  unfold State.findTask at *
  rw [h3]
  exact hutask

/-! ### A context joined to the module -/

/-- What a context keeps whichever context is brought besides it: what its operands are read from, its identity and
place. -/
theorem State.addCtx_looks {u : State} (h : s.Keeps Ctx.look u) (hid : s.ctx.id ≠ c.id) (hp : s.ctx.place ≠ .nowhere) :
    (u.addCtx c).ctx = u.ctx ∧ (u.addCtx c).findCtx c.id = some c :=
  ⟨(State.findCtx_addCtx (by rw [h.id]; exact hid) (by rw [h.place]; exact hp)).1,
    (State.findCtx_addCtx (by rw [h.id]; exact hid) (by rw [h.place]; exact hp)).2.1⟩

theorem State.recordOf_looks (s : State) (c : Ctx) : s.Keeps Ctx.look (s.recordOf c).1 := by
  unfold State.recordOf
  split
  · split
    · exact s.keeps_postSteward (fun _ _ => rfl) _ _
    · exact .refl s
  · exact s.keeps_agentFails (fun _ _ => rfl) _ _ _ _ _ _

/-- Where a context is joined to the module. -/
def State.Joined (s t : State) (k : Nat) : Prop :=
  s.SameRegs t ∧ t.ctx.id = s.ctx.id ∧ (t.findCtx k).isSome = true

theorem State.SameRegs.of_looks {u : State} (h : s.Keeps Ctx.look u) (h' : u.Keeps Ctx.look t) : s.SameRegs t :=
  (h.trans h').sameRegs

theorem State.joined_addCtx {u : State} (h : s.Keeps Ctx.look u) (hid : s.ctx.id ≠ c.id) (hp : s.ctx.place ≠ .nowhere) :
    s.Joined (u.addCtx c) c.id := by
  obtain ⟨hctx, hfind⟩ := State.addCtx_looks h hid hp
  have hq := h.sameRegs
  exact ⟨⟨by rw [hctx]; exact hq.1, fun r => by rw [State.rd, hctx]; exact hq.2 r⟩, by rw [hctx]; exact h.id, by rw [hfind]; rfl⟩

theorem State.Joined.keeps {u : State} (h : s.Joined u k) (h' : u.Keeps Ctx.look t) : s.Joined t k := by
  obtain ⟨⟨hq, hr⟩, hid, hsome⟩ := h
  obtain ⟨hq', hr'⟩ := h'.sameRegs
  exact ⟨⟨hq'.trans hq, fun r => (hr' r).trans (hr r)⟩, h'.id.trans hid, (h'.isSome k).trans hsome⟩

/-- Members released from their hold. -/
theorem State.keeps_released (l : List Nat) (s : State) :
    s.Keeps Ctx.look (l.foldl (fun s m => s.mapCtx m (fun x => { x with held := false })) s) :=
  foldl_rel State.Keeps.refl State.Keeps.trans
    (fun s m => s.keeps_mapCtx (f := fun x => { x with held := false }) (fun _ => ⟨rfl, rfl⟩) m) l s

theorem State.joined_adopt (hid : s.ctx.id ≠ c.id) (hp : s.ctx.place ≠ .nowhere) : s.Joined (s.adopt c) c.id := by
  have join {u : State} (h : s.Keeps Ctx.look u) (n : Nat) (t : Task) (b : Bool) (l : List Nat) :
      s.Joined (if b then l.foldl (fun s m => s.mapCtx m (fun x => { x with held := false }))
          ((u.addCtx { c with held := true, task := some n }).putTask t)
        else (u.addCtx { c with held := true, task := some n }).putTask t) c.id := by
    have hadd : s.Joined (u.addCtx { c with held := true, task := some n }) c.id :=
      State.joined_addCtx (c := { c with held := true, task := some n }) h hid hp
    have hput : s.Joined ((u.addCtx { c with held := true, task := some n }).putTask t) c.id := hadd.keeps (.of_eq rfl rfl)
    split
    · exact hput.keeps (State.keeps_released l _)
    · exact hput
  unfold State.adopt
  dsimp only
  split
  · have hheld (b : Bool) : s.Joined (s.addCtx { c with held := b }) c.id :=
      State.joined_addCtx (c := { c with held := b }) (.refl s) hid hp
    exact hheld _
  · split
    · exact join (.refl s) _ _ _ _
    · have hrec := s.recordOf_looks c
      split
      · rename_i heq
        rw [heq] at hrec
        exact State.joined_addCtx hrec hid hp
      · rename_i heq
        rw [heq] at hrec
        have hpost (u : State) (hu : s.Keeps Ctx.look u) (l : List Task) (n : Nat) :
            s.Keeps Ctx.look { u with tasks := l, postSeq := n } := hu.trans (.of_eq rfl rfl)
        exact join (hpost _ hrec _ _) _ _ _ _

/-! ### The two instructions -/

theorem ite_id {p : Prop} [Decidable p] {a b : Ctx} {n : Nat} (ha : a.id = n) (hb : b.id = n) :
    (if p then a else b).id = n := by
  split <;> assumption

theorem Ctx.poisonSector_id (c : Ctx) (o : Nat) : (c.poisonSector o).id = c.id := by
  have hset (t : Nat) (v : Tile) : (c.setTile t v).id = c.id := rfl
  have hplane (p : Nat) (v : Plane) : (c.setPlane p v).id = c.id := rfl
  have hmark (n m : Nat) : (c.padMark n m).id = c.id := rfl
  unfold Ctx.poisonSector
  extract_lets tile plane
  have htile (t i n : Nat) : (tile t i n).id = c.id := ite_id (hset _ _) rfl
  have hpl (p i n : Nat) : (plane p i n).id = c.id := ite_id rfl (hplane _ _)
  refine ite_id rfl (ite_id (htile _ _ _) (ite_id (htile _ _ _) (ite_id (hpl _ _ _) (ite_id (hpl _ _ _) (ite_id rfl ?_)))))
  refine ite_id rfl (ite_id rfl (ite_id (ite_id rfl rfl) (ite_id rfl (ite_id (hmark _ _) rfl))))

/-- A context read from its area is the one of its address (R353). -/
theorem State.restoreMarks_id (s : State) (c : Ctx) : (s.restoreMarks c).id = c.id := by
  have h {f : Ctx → Nat × Bool → Ctx} (hf : ∀ d e, (f d e).id = d.id) (l : List (Nat × Bool)) (d : Ctx) :
      (l.foldl f d).id = d.id := by
    induction l generalizing d with
    | nil => rfl
    | cons e l ih => exact (ih _).trans (hf d e)
  exact h (fun d e => d.poisonSector_id _) _ c

theorem State.readArea_id (s : State) (pa : Nat) : (s.readArea pa).id = pa := by
  unfold State.readArea
  dsimp only
  exact s.restoreMarks_id _

section
variable {f : FDA} (hp : s.Plain [f.a, f.d]) (hc : s.Clean [f.a])

section
include hp

/-- What a status written by an instruction that goes on leaves. -/
theorem State.status_frame (h : s.SameRegs s1) (hid : s1.ctx.id = s.ctx.id) (v : Word) :
    ((s1.wrc f.d v).goOn s.pc8).ctx.pc = s.pc8 ∧
    (f.d ≠ 0#6 → ((s1.wrc f.d v).goOn s.pc8).rd f.d = { bits := v, pois := false }) ∧
    (∀ r, r ≠ f.d → ((s1.wrc f.d v).goOn s.pc8).rd r = s.rd r) ∧
    ∀ n, n ≠ s.ctx.id → ((s1.wrc f.d v).goOn s.pc8).findCtx n = s1.findCtx n := by
  have hw := (h.wr_wrote (v := { bits := v, pois := false }) (hp.1 f.d (by simp))).goOn s.pc8
  refine ⟨State.goOn_pc _ _, hw.nonzero, hw.2, fun n hn => ?_⟩
  have hne : ((s1.wrc f.d v).goOn s.pc8).ctx.id ≠ n := by
    simpa [State.goOn_ctx, hid] using Ne.symm hn
  rw [State.findCtx_ne hne, State.findCtx_ne (by rw [hid]; exact Ne.symm hn)]
  rfl

end

/-- The body of CTXSAVE, its address given. -/
def ctxsaveBody (f : FDA) (s : State) (a : Word) : SeqOut :=
  if a.toNat % 4096 ≠ 0 then .trap s (Cause.seq cALIGN 0 a)
  else match s.findCtx a.toNat with
    | none => .done (s.wrc f.d 3#64)
    | some c => match c.place with
      | .nowhere => .done (s.wrc f.d 3#64)
      | .memory => .done (((s.mapCtx c.id (fun x => { x with held := true, saveReq := false })).markHeld c.id).wrc f.d
          (if c.saveReq then 0#64 else 1#64))
      | .core _ =>
        if c.inHandler then .wait (s.mapCtx c.id (fun x => { x with saveReq := true })) .other false
        else if c.id = s.ctx.id then
          let s1 := (s.wrc f.d 0#64).setPc (s.ctx.pc + 8#64)
          .done (s1.holdCtx s1.ctx)
        else .done ((s.holdCtx c).wrc f.d 0#64)

/-- A context with what its area gives again, held where its device is paused (R385). -/
def State.rereadCtx (s : State) (c : Ctx) : Ctx :=
  { s.rereadArea c with held := c.level == .tenant && s.vdPaused c.vdn.toNat }

/-- The module after a CTXLOAD of a context in memory, by its status. -/
def State.reloaded (s : State) (c : Ctx) (n : Nat) : State := if n = 0 then s.putCtx (s.rereadCtx c) else s

/-- The module after a CTXLOAD of a context that it has not written, by its status. -/
def State.loaded (s : State) (c : Ctx) (n : Nat) : State :=
  if n = 0 then s.adopt c else if n = 2 then s.addCtx { c with held := true } else s

/-- A context as its area gives it, kept where it stands (R353). -/
def State.areaCtx (s : State) (pa : Nat) : Ctx := { s.readArea pa with kept := true }

/-- The body of CTXLOAD where the module has not written the context (R319). -/
def ctxloadNew (f : FDA) (s : State) (a : Word) : SeqOut :=
  let st := s.loadStatus a.toNat (s.areaCtx a.toNat)
  .done ((s.loaded (s.areaCtx a.toNat) st).wrc f.d (BitVec.ofNat 64 st))

/-- The body of CTXLOAD, its address given. -/
def ctxloadBody (f : FDA) (s : State) (a : Word) : SeqOut :=
  if a.toNat % 4096 ≠ 0 then .trap s (Cause.seq cALIGN 0 a)
  else match s.findCtx a.toNat with
    | some c => match c.place with
      | .memory =>
        let st := s.loadStatus a.toNat (s.rereadArea c)
        .done ((s.reloaded c st).wrc f.d (BitVec.ofNat 64 st))
      | .core _ => .done (s.wrc f.d 0#64)
      | .nowhere => ctxloadNew f s a
    | none => ctxloadNew f s a

theorem exec_ctxsave : exec (.ctxsave f) s = seqInstr [f.a] [f.d] (fun s => consume s f.a 1 (ctxsaveBody f s)) s := rfl

theorem exec_ctxload : exec (.ctxload f) s = seqInstr [f.a] [f.d] (fun s => consume s f.a 1 (ctxloadBody f s)) s := by
  show execCtxload f s = _
  unfold execCtxload ctxloadBody ctxloadNew State.reloaded State.loaded State.rereadCtx State.areaCtx
  rfl

section
include hp hc

theorem ctxsave_traps {u : State} {x : Cause} (h : ctxsaveBody f s (s.rd f.a).bits = .trap u x) :
    exec (.ctxsave f) s = .next (u.fault x) :=
  seqInstr_trap hp ((consume_clean (hc f.a (by simp))).trans h)

theorem ctxsave_waits {u : State} (h : ctxsaveBody f s (s.rd f.a).bits = .wait u .other false) :
    exec (.ctxsave f) s = .next (u.waitAt .other false) :=
  seqInstr_wait hp ((consume_clean (hc f.a (by simp))).trans h)

theorem ctxsave_writes {v : Word} (h : ctxsaveBody f s (s.rd f.a).bits = .done (s1.wrc f.d v))
    (hq : s1.ctx.qbinds = s.ctx.qbinds) : exec (.ctxsave f) s = .next ((s1.wrc f.d v).goOn s.pc8) :=
  seqInstr_done hp ((consume_clean (hc f.a (by simp))).trans h) (by simpa using hq)

theorem ctxload_traps {u : State} {x : Cause} (h : ctxloadBody f s (s.rd f.a).bits = .trap u x) :
    exec (.ctxload f) s = .next (u.fault x) :=
  exec_ctxload.trans <| seqInstr_trap hp ((consume_clean (hc f.a (by simp))).trans h)

theorem ctxload_writes {v : Word} (h : ctxloadBody f s (s.rd f.a).bits = .done (s1.wrc f.d v))
    (hq : s1.ctx.qbinds = s.ctx.qbinds) : exec (.ctxload f) s = .next ((s1.wrc f.d v).goOn s.pc8) :=
  exec_ctxload.trans <| seqInstr_done hp ((consume_clean (hc f.a (by simp))).trans h) (by simpa using hq)

end

section
variable {a : Word} (ha : a.toNat % 4096 = 0)
include ha

theorem ctxsaveBody_unknown (h : s.findCtx a.toNat = none) : ctxsaveBody f s a = .done (s.wrc f.d 3#64) := by
  rw [ctxsaveBody, if_neg (not_not_intro ha), h]

theorem ctxsaveBody_memory (h : s.findCtx a.toNat = some c) (hpl : c.place = .memory) : ctxsaveBody f s a =
    .done (((s.mapCtx c.id Ctx.onHold).markHeld c.id).wrc f.d (if c.saveReq then 0#64 else 1#64)) := by
  rw [ctxsaveBody, if_neg (not_not_intro ha), h]
  dsimp only
  rw [hpl]
  rfl

theorem ctxsaveBody_handler {p : Nat} (h : s.findCtx a.toNat = some c) (hpl : c.place = .core p) (hh : c.inHandler = true) :
    ctxsaveBody f s a = .wait (s.mapCtx c.id (fun x => { x with saveReq := true })) .other false := by
  rw [ctxsaveBody, if_neg (not_not_intro ha), h]
  dsimp only
  rw [hpl]
  exact if_pos hh

theorem ctxsaveBody_holds {p : Nat} (h : s.findCtx a.toNat = some c) (hpl : c.place = .core p) (hh : c.inHandler = false)
    (hid : c.id ≠ s.ctx.id) : ctxsaveBody f s a = .done ((s.holdCtx c).wrc f.d 0#64) := by
  rw [ctxsaveBody, if_neg (not_not_intro ha), h]
  dsimp only
  rw [hpl]
  exact (if_neg (by simp [hh])).trans (if_neg hid)

theorem ctxloadBody_memory (h : s.findCtx a.toNat = some c) (hpl : c.place = .memory) : ctxloadBody f s a =
    .done ((s.reloaded c (s.loadStatus a.toNat (s.rereadArea c))).wrc f.d
      (BitVec.ofNat 64 (s.loadStatus a.toNat (s.rereadArea c)))) := by
  rw [ctxloadBody, if_neg (not_not_intro ha), h]
  dsimp only
  rw [hpl]

theorem ctxloadBody_resident {p : Nat} (h : s.findCtx a.toNat = some c) (hpl : c.place = .core p) :
    ctxloadBody f s a = .done (s.wrc f.d 0#64) := by
  rw [ctxloadBody, if_neg (not_not_intro ha), h]
  dsimp only
  rw [hpl]

theorem ctxloadBody_new (h : s.findCtx a.toNat = none ∨ s.findCtx a.toNat = some c ∧ c.place = .nowhere) :
    ctxloadBody f s a = .done ((s.loaded (s.areaCtx a.toNat) (s.loadStatus a.toNat (s.areaCtx a.toNat))).wrc f.d
      (BitVec.ofNat 64 (s.loadStatus a.toNat (s.areaCtx a.toNat)))) := by
  refine Eq.trans (b := ctxloadNew f s a) ?_ rfl
  rw [ctxloadBody, if_neg (not_not_intro ha)]
  obtain h | ⟨h, hpl⟩ := h
  · rw [h]
  · rw [h]
    dsimp only
    rw [hpl]

end

theorem ctxsaveBody_misaligned {a : Word} (ha : a.toNat % 4096 ≠ 0) :
    ctxsaveBody f s a = .trap s (Cause.seq 0x06#8 0 a) := if_pos ha

theorem ctxloadBody_misaligned {a : Word} (ha : a.toNat % 4096 ≠ 0) :
    ctxloadBody f s a = .trap s (Cause.seq 0x06#8 0 a) := if_pos ha

/-- What another context shows once it is noted in it that a CTXSAVE waits. -/
theorem State.waitAt_findCtx (u : State) (k : Wait) (ch : Bool) {n : Nat} (hn : u.ctx.id ≠ n) :
    (u.waitAt k ch).findCtx n = u.findCtx n := by
  obtain ⟨w, -, -, h⟩ := u.waitAt_eq k ch
  rw [h, State.findCtx_ne hn, State.findCtx_ne (by simpa using hn)]
  rfl

/-- A context put on hold, its area marked. -/
theorem State.markHeld_frame (s : State) (n : Nat) : (s.markHeld n).ctx = s.ctx ∧ (s.markHeld n).ctxs = s.ctxs := by
  obtain ⟨m, x, h⟩ := s.homeWrite_eq (n + 11) [s.byteAt (n + 11) ||| 4#8] false
  unfold State.markHeld
  rw [h]
  exact ⟨rfl, rfl⟩

theorem State.findCtx_of_eq {u : State} (hc : u.ctx = s.ctx) (hs : u.ctxs = s.ctxs) (n : Nat) : u.findCtx n = s.findCtx n := by
  unfold State.findCtx
  rw [hc, hs]

theorem State.sameRegs_of_ctx {u : State} (h : u.ctx = s.ctx) : s.SameRegs u := ⟨by rw [h], fun r => by rw [State.rd, h]; rfl⟩

/-- CTXSAVE of another context (R318). -/
theorem ctxsave_others (hp : s.Plain [f.a, f.d]) (hc : s.Clean [f.a]) (ha : (s.rd f.a).bits.toNat % 4096 = 0)
    (hf : s.findCtx (s.rd f.a).bits.toNat = some c) (hid : c.id ≠ s.ctx.id) :
    (c.place = .memory → ∃ t, exec (.ctxsave f) s = .next t ∧ t.ctx.pc = s.pc8 ∧
      (f.d ≠ 0#6 → t.rd f.d = { bits := if c.saveReq then 0#64 else 1#64, pois := false }) ∧
      (∀ r, r ≠ f.d → t.rd r = s.rd r) ∧
      (t.findCtx c.id).map (fun x => (x.held, x.saveReq)) = some (true, false)) ∧
    (∀ p, c.place = .core p → c.inHandler = true → ∃ t, exec (.ctxsave f) s = .next t ∧ t.ctx.pc = s.ctx.pc ∧
      (∀ r, t.rd r = s.rd r) ∧ t.mem = s.mem ∧ t.tasks = s.tasks ∧
      (t.findCtx c.id).map (fun x => (x.saveReq, x.place)) = some (true, .core p)) ∧
    (∀ p, c.place = .core p → c.inHandler = false → c.task = none → ∃ t, exec (.ctxsave f) s = .next t ∧
      t.ctx.pc = s.pc8 ∧ (f.d ≠ 0#6 → t.rd f.d = { bits := 0#64, pois := false }) ∧
      (∀ r, r ≠ f.d → t.rd r = s.rd r) ∧
      (t.findCtx c.id).map (fun x => (x.held, x.place)) = some (true, .memory)) ∧
    (∀ p n k, c.place = .core p → c.inHandler = false → c.task = some n → s.findTask n = some k → k.id = n →
      k.members = [c.id] → (s.coreSlot p).run = some c.id → (s.coreSlot p).second = none → k.state = .running →
      ∃ t, exec (.ctxsave f) s = .next t ∧ t.ctx.pc = s.pc8 ∧
        (f.d ≠ 0#6 → t.rd f.d = { bits := 0#64, pois := false }) ∧ (∀ r, r ≠ f.d → t.rd r = s.rd r) ∧
        (t.findCtx c.id).map (fun x => (x.held, x.place, x.pc)) = some (true, .memory, c.pc) ∧
        (t.coreSlot p).run ≠ some c.id ∧ (t.findTask n).map Task.state = some .ready) := by
  have hk : s.findCtx c.id = some c := by rw [State.findCtx_id hf, hf]
  refine ⟨fun hpl => ?_, fun p hpl hh => ?_, fun p hpl hh ht => ?_, fun p n k hpl hh ht htk hn hm hrun h2 hst => ?_⟩
  · have hctx : ((s.mapCtx c.id Ctx.onHold).markHeld c.id).ctx = s.ctx :=
      (State.markHeld_frame _ _).1.trans (State.mapCtx_ctx (f := Ctx.onHold) (fun _ => rfl) (Ne.symm hid))
    obtain ⟨h1, h2, h3, h4⟩ := State.status_frame hp (State.sameRegs_of_ctx hctx) (by rw [hctx])
      (if c.saveReq then 0#64 else 1#64)
    refine ⟨_, ctxsave_writes hp hc (ctxsaveBody_memory ha hf hpl) (by rw [hctx]), h1, h2, h3, ?_⟩
    rw [h4 _ hid, State.findCtx_of_eq (State.markHeld_frame _ _).1 (State.markHeld_frame _ _).2,
      State.findCtx_mapCtx (f := Ctx.onHold) (fun _ => rfl), if_pos rfl, hk]
    rfl
  · have hctx : (s.mapCtx c.id (fun x => { x with saveReq := true })).ctx = s.ctx :=
      State.mapCtx_ctx (f := fun x => { x with saveReq := true }) (fun _ => rfl) (Ne.symm hid)
    have hrest : (s.mapCtx c.id (fun x => { x with saveReq := true })).mem = s.mem ∧
        (s.mapCtx c.id (fun x => { x with saveReq := true })).tasks = s.tasks := by
      unfold State.mapCtx State.putCtx
      rw [hk]
      dsimp only
      split <;> exact ⟨rfl, rfl⟩
    obtain ⟨hrd, hpc, hmem, -⟩ := (s.mapCtx c.id (fun x => { x with saveReq := true })).waitAt_sees .other false
    refine ⟨_, ctxsave_waits hp hc (ctxsaveBody_handler ha hf hpl hh), hpc.trans (by rw [hctx]),
      fun r => (hrd r).trans (by rw [State.rd, hctx]; rfl), hmem.trans hrest.1, hrest.2, ?_⟩
    rw [State.waitAt_findCtx _ _ _ (by rw [hctx]; exact Ne.symm hid),
      State.findCtx_mapCtx (f := fun x => { x with saveReq := true }) (fun _ => rfl), if_pos rfl, hk]
    exact congrArg (fun x => some (true, x)) hpl
  · obtain ⟨hctx, x, hx, hheld, hmem, -⟩ := State.holdCtx_idle (Ne.symm hid) hk ht
    obtain ⟨h1, h2, h3, h4⟩ := State.status_frame hp (State.sameRegs_of_ctx hctx) (by rw [hctx]) 0#64
    refine ⟨_, ctxsave_writes hp hc (ctxsaveBody_holds ha hf hpl hh hid) (by rw [hctx]), h1, h2, h3, ?_⟩
    rw [h4 _ hid, hx, Option.map_some, hheld, hmem]
  · obtain ⟨hctx, ⟨x, hx, hheld, hmem, hpc⟩, hcore, htask⟩ :=
      State.holdCtx_member (Ne.symm hid) hk hpl hh ht htk hn hm hrun h2 hst
    obtain ⟨h1, h2, h3, h4⟩ := State.status_frame hp (State.sameRegs_of_ctx hctx) (by rw [hctx]) 0#64
    refine ⟨_, ctxsave_writes hp hc (ctxsaveBody_holds ha hf hpl hh hid) (by rw [hctx]), h1, h2, h3, ?_, hcore, htask⟩
    rw [h4 _ hid, hx, Option.map_some, hheld, hmem, hpc]

theorem State.rereadCtx_id (s : State) (c : Ctx) : (s.rereadCtx c).id = c.id := by
  unfold State.rereadCtx State.rereadArea
  dsimp only

theorem State.rereadCtx_held (s : State) (c : Ctx) :
    (s.rereadCtx c).held = (decide (c.level = .tenant) && s.vdPaused c.vdn.toNat) := by
  unfold State.rereadCtx
  dsimp only
  cases c.level <;> rfl

theorem State.reloaded_frame (hid : c.id ≠ s.ctx.id) (n : Nat) : (s.reloaded c n).ctx = s.ctx ∧ (s.reloaded c n).mem = s.mem := by
  unfold State.reloaded State.putCtx
  rw [State.rereadCtx_id, if_neg (Ne.symm hid)]
  split <;> exact ⟨rfl, rfl⟩

/-- A context loaded again is held where its device is paused (R385). -/
theorem State.reloaded_held (hk : s.findCtx c.id = some c) : ((s.reloaded c 0).findCtx c.id).map Ctx.held =
    some (decide (c.level = .tenant) && s.vdPaused c.vdn.toNat) := by
  rw [State.reloaded, if_pos rfl, State.findCtx_putCtx, State.rereadCtx_id, if_pos rfl, hk, Option.map_some, Option.map_some,
    State.rereadCtx_held]

/-- CTXLOAD of another context of the module (R319). -/
theorem ctxload_known (hp : s.Plain [f.a, f.d]) (hc : s.Clean [f.a]) (ha : (s.rd f.a).bits.toNat % 4096 = 0)
    (hf : s.findCtx (s.rd f.a).bits.toNat = some c) (hid : c.id ≠ s.ctx.id) :
    (∀ p, c.place = .core p → exec (.ctxload f) s = .next ((s.wrc f.d 0#64).goOn s.pc8)) ∧
    (c.place = .memory →
      let n := s.loadStatus (s.rd f.a).bits.toNat (s.rereadArea c)
      ∃ t, exec (.ctxload f) s = .next t ∧ t.ctx.pc = s.pc8 ∧
        (f.d ≠ 0#6 → t.rd f.d = { bits := BitVec.ofNat 64 n, pois := false }) ∧ (∀ r, r ≠ f.d → t.rd r = s.rd r) ∧
        t.mem = s.mem ∧ (n = 0 → (t.findCtx c.id).map Ctx.held =
          some (decide (c.level = .tenant) && s.vdPaused c.vdn.toNat)) ∧ (n ≠ 0 → t.ctxs = s.ctxs)) := by
  refine ⟨fun p hpl => ctxload_writes hp hc (ctxloadBody_resident ha hf hpl) rfl, fun hpl => ?_⟩
  have hbody := ctxloadBody_memory (f := f) ha hf hpl
  generalize s.loadStatus (s.rd f.a).bits.toNat (s.rereadArea c) = n at hbody ⊢
  have hk : s.findCtx c.id = some c := by rw [State.findCtx_id hf, hf]
  obtain ⟨hctx, hmem⟩ := State.reloaded_frame hid n
  obtain ⟨h1, h2, h3, h4⟩ := State.status_frame hp (State.sameRegs_of_ctx hctx) (by rw [hctx]) (BitVec.ofNat 64 n)
  refine ⟨_, ctxload_writes hp hc hbody (by rw [hctx]), h1, h2, h3, hmem, fun hn => ?_, fun hn => ?_⟩
  · rw [h4 _ hid, hn]
    exact State.reloaded_held hk
  · have hkept : s.reloaded c n = s := if_neg hn
    rw [hkept]
    rfl

/-- What of the module a CTXLOAD of an unknown area leaves, and whom it brings. -/
theorem State.loaded_frame (hid : s.ctx.id ≠ c.id) (hs : s.ctx.place ≠ .nowhere) (n : Nat) :
    s.SameRegs (s.loaded c n) ∧ (s.loaded c n).ctx.id = s.ctx.id ∧
    (n = 0 → ((s.loaded c n).findCtx c.id).isSome = true) ∧
    (n = 2 → ((s.loaded c n).findCtx c.id).map Ctx.held = some true) := by
  unfold State.loaded
  by_cases h0 : n = 0
  · obtain ⟨hsame, hcid, hsome⟩ := State.joined_adopt hid hs
    rw [if_pos h0]
    exact ⟨hsame, hcid, fun _ => hsome, fun h2 => by omega⟩
  · rw [if_neg h0]
    by_cases h2 : n = 2
    · obtain ⟨hctx, hfind, -⟩ := State.findCtx_addCtx (c := { c with held := true }) hid hs
      rw [if_pos h2]
      exact ⟨State.sameRegs_of_ctx hctx, by rw [hctx], fun h => absurd h h0, fun _ => congrArg (Option.map Ctx.held) hfind⟩
    · rw [if_neg h2]
      exact ⟨State.sameRegs_of_ctx rfl, rfl, fun h => absurd h h0, fun h => absurd h h2⟩

theorem State.areaCtx_id (s : State) (pa : Nat) : (s.areaCtx pa).id = pa := s.readArea_id pa

/-- CTXLOAD of an area that no context of the module has written (R319). -/
theorem ctxload_unknown (hp : s.Plain [f.a, f.d]) (hc : s.Clean [f.a]) (ha : (s.rd f.a).bits.toNat % 4096 = 0)
    (hf : s.findCtx (s.rd f.a).bits.toNat = none ∨ s.findCtx (s.rd f.a).bits.toNat = some c ∧ c.place = .nowhere)
    (hs : s.ctx.place ≠ .nowhere) :
    let n := s.loadStatus (s.rd f.a).bits.toNat (s.areaCtx (s.rd f.a).bits.toNat)
    ∃ t, exec (.ctxload f) s = .next t ∧ t.ctx.pc = s.pc8 ∧
      (f.d ≠ 0#6 → t.rd f.d = { bits := BitVec.ofNat 64 n, pois := false }) ∧ (∀ r, r ≠ f.d → t.rd r = s.rd r) ∧
      (n = 1 ∨ n = 3 → t = (s.wrc f.d (BitVec.ofNat 64 n)).goOn s.pc8) ∧
      (n = 0 → (t.findCtx (s.rd f.a).bits.toNat).isSome = true) ∧
      (n = 2 → (t.findCtx (s.rd f.a).bits.toNat).map Ctx.held = some true) := by
  have hbody := ctxloadBody_new (f := f) ha hf
  have hcid := s.areaCtx_id (s.rd f.a).bits.toNat
  generalize s.areaCtx (s.rd f.a).bits.toNat = c1 at hbody hcid ⊢
  generalize s.loadStatus (s.rd f.a).bits.toNat c1 = n at hbody ⊢
  have hid : s.ctx.id ≠ c1.id := by
    rw [hcid]
    intro h
    rw [← h, State.findCtx_ctx] at hf
    obtain hf | ⟨hf, hpl⟩ := hf
    · exact absurd hf (by simp)
    · exact hs (Option.some.inj hf ▸ hpl)
  obtain ⟨hsame, hcid', h0, h2⟩ := State.loaded_frame hid hs n
  obtain ⟨f1, f2, f3, f4⟩ := State.status_frame hp hsame hcid' (BitVec.ofNat 64 n)
  rw [← hcid]
  refine ⟨_, ctxload_writes hp hc hbody hsame.1, f1, f2, f3, fun hn => ?_, fun hn => ?_, fun hn => ?_⟩
  · have hkept : s.loaded c1 n = s := (if_neg (by omega)).trans (if_neg (by omega))
    rw [hkept]
  · rw [f4 _ (Ne.symm hid)]
    exact h0 hn
  · rw [f4 _ (Ne.symm hid)]
    exact h2 hn

/-- The statuses of CTXLOAD (R319, R386). -/
theorem loadStatus_cases (s : State) (pa : Nat) (x : Ctx) :
    (s.areaOk pa = false → s.loadStatus pa x = 1) ∧
    (s.areaOk pa = true → s.partEnabled x.part.toNat = false → s.loadStatus pa x = 3) ∧
    (s.areaOk pa = true → s.partEnabled x.part.toNat = true → x.level = .tenant →
      (∀ y, Sparse.get (fun _ => none) s.shapes x.vdn.toNat = some y → y = s.shapeOf x.part.toNat) →
      x.lcore.toNat < (s.coresOf x.part.toNat).length →
      ((∃ p ∈ s.coresOf x.part.toNat, (s.coreSlot p).fits x.spbanks x.l1size.toNat (x.fullt || x.regabs) x.liveMask = true) →
        s.loadStatus pa x = 0) ∧
      ((∀ p ∈ s.coresOf x.part.toNat, (s.coreSlot p).fits x.spbanks x.l1size.toNat (x.fullt || x.regabs) x.liveMask = false) →
        s.loadStatus pa x = 2)) ∧
    (s.areaOk pa = true → s.partEnabled x.part.toNat = true → x.level = .tenant →
      (∃ y, Sparse.get (fun _ => none) s.shapes x.vdn.toNat = some y ∧ y ≠ s.shapeOf x.part.toNat) →
      s.loadStatus pa x = 2) := by
  unfold State.loadStatus
  dsimp only
  refine ⟨fun h => by simp [h], fun h he => by simp [h, he], fun h he hl hy hlen => ?_, fun h he hl hy => ?_⟩
  · have hmet : s.shapeMet x.vdn.toNat x.part.toNat = true := by
      unfold State.shapeMet
      rw [Option.all_eq_true]
      exact fun y h => beq_iff_eq.mpr (hy y h)
    rw [h, he, hmet, if_neg (by decide), if_neg (by decide), if_neg (by simp), if_neg (by omega)]
    refine ⟨fun hany => ?_, fun hnone => ?_⟩
    · rw [List.any_eq_true.mpr hany]
      rfl
    · rw [List.any_eq_false.mpr fun p hp => by rw [hnone p hp]; decide]
      rfl
  · obtain ⟨y, hget, hne⟩ := hy
    have hmet : s.shapeMet x.vdn.toNat x.part.toNat = false := by
      unfold State.shapeMet
      rw [hget]
      exact beq_false_of_ne hne
    rw [h, he, hmet, hl]
    rfl

theorem contextsSaveAndLoad : Say.ContextsSaveAndLoad := by
  intro s f hp hc
  dsimp only
  refine ⟨fun ha => ⟨ctxsave_traps hp hc (ctxsaveBody_misaligned ha), ctxload_traps hp hc (ctxloadBody_misaligned ha)⟩,
    fun ha => ⟨fun hf => ctxsave_writes hp hc (ctxsaveBody_unknown ha hf) rfl, fun c hf hid => ?_⟩,
    fun c ha hf hs => ctxload_unknown hp hc ha hf hs, fun ha x => loadStatus_cases s _ x⟩
  obtain ⟨h1, h2, h3, h4⟩ := ctxsave_others hp hc ha hf hid
  obtain ⟨h5, h6⟩ := ctxload_known hp hc ha hf hid
  exact ⟨h1, h2, h3, h4, h5, h6⟩

end
end
end Sys2Proof.Machine

namespace Sys2Proof
open Machine

/-- Settles O53: a write-out keeps the face of a context, every other context is untouched by it, and the tables of
translations and the pages of a range are filtered and cleared one by one. -/
theorem contextsMoveAndTranslationsDrop : Obligations.ContextsMoveAndTranslationsDrop :=
  ⟨contextsSaveAndLoad, translationsDropAndRangesZero⟩

end Sys2Proof
end
section
/-! # A miss that completes a task makes another READY

A counterexample to the frame that O37 gives a completing miss: the missed task's member waits in the creation of a
mirrored version that exists at one die's home only. Its completion makes the version exist at both (R104, R117), and a
WAITING task whose one pair asks for that version is examined again and is READY (R333). -/

namespace Sys2Proof.Machine

/-- Tasks of partition 1, posted with MISS = 1, alike but for their number. -/
def missTask (n : Nat) : Task where
  id := n
  record := 0#64
  part := 1
  queue := 0
  vdn := 1
  die := 0
  entry0 := 0#64
  entry1 := none
  entry2 := none
  entry3 := none
  arg := 0#64
  release := 0
  deadline := 10
  sched := 10
  budget := 100
  prog := 0
  cls := 1
  miss := 1
  fullt := false
  regabs := false
  ptag := false
  pairs := []
  crew := 1
  lnote := 0#32
  claunch := 0#64
  cgraph := 0#64
  cphase := 0#64
  cjob := 0#64
  state := .running
  disp := 0
  dispatched := true
  members := [4096]
  slots := [4096]
  missed := false
  used := 0
  overflow := false
  pfw := 0
  yielded := false
  paused := false
  hostq := none
  deadTold := false
  overTold := false

/-- A mirrored region of partition 1 whose first sector has version 5 on die 1 only. -/
def missRegion : Region where
  part := 1
  base := 65536#64
  sectors := 256
  floor := 0
  retain := 0
  mirror := true
  atts := [4096]
  secs := [(0, { vers := [{ num := 5, exist := true, data := 0, marks := 0, scope := 0, who := .core 0, only := some 1 }]
                 waiters := [] })]

/-- The running member of the missed task, in the creation of that version. -/
def missMember : Ctx := { Ctx.blank with
  id := 4096
  place := .core 0
  part := 1
  vdn := 1
  task := some 1
  base := { RegBank.entry with
    wait := some { pc := 0#64, kind := .mirror 65536#64 5, since := 0, checked := false, cover := [], given := .nothing } } }

/-- The task that waits for version 5, released and not yet dispatched. -/
def missWaiter : Task := { missTask 2 with
  state := .waiting
  sched := 100
  dispatched := false
  members := []
  slots := []
  pairs := [{ base := 65536#64, first := 0, count := 1, mode := 0, version := 5 }] }

/-- Package time has reached the deadline of task 1; task 2 waits. -/
def missState : State := { State.reset with
  now := 10
  ctx := missMember
  cores := [(0, { CoreSlot.zero with run := some 4096 })]
  regions := [missRegion]
  tasks := [missTask 1, missWaiter] }

/-- The state after the miss. -/
def missAfter : State := (missState.putTask { missTask 1 with missed := true }).missAction { missTask 1 with missed := true }

theorem missAfter_readies : (missAfter.findTask 2).map Task.state = some .ready := by decide +kernel

theorem missState_waits : (missState.findTask 2).map Task.state = some .waiting := by decide +kernel

/-- The event of a deadline that is missed. -/
theorem exec_deadlineMiss {s : State} {n : Nat} {k : Task} (hf : s.findTask n = some k) (hs : k.state ≠ .complete)
    (hm : k.missed = false) (hn : k.sched ≤ s.now) : exec (.deadlineMiss n) s =
    .next ((s.putTask { k with missed := true }).missAction { k with missed := true }) := by
  show execDeadlineMiss n s = _
  unfold execDeadlineMiss
  rw [hf]
  dsimp only
  rw [if_pos ⟨hs, hm, hn⟩]

theorem exec_missState : exec (.deadlineMiss 1) missState = .next missAfter :=
  exec_deadlineMiss (k := missTask 1) (by decide +kernel) (by decide) (by decide) (by decide)

end Sys2Proof.Machine

namespace Sys2Proof
open Machine

/-- Refutes O37: the miss of task 1 completes it and changes another task but for its place in the heap, the WAITING task 2
turning READY, since the version that task 1's member was creating exists at both homes once the member has ended. -/
theorem not_tasksAreReleasedAndJudged : ¬ Obligations.TasksAreReleasedAndJudged := by
  intro h
  obtain ⟨-, -, hmiss, -⟩ := h missState 1
  obtain ⟨t, ht, ⟨-, hother⟩, -⟩ := hmiss (missTask 1) (by decide +kernel) (by decide) (by decide) (by decide)
  have hafter : missAfter = t := Host.Outcome.next.inj (exec_missState.symm.trans ht)
  have hsame := congrArg (Option.map Task.state) (hother 2 (by decide))
  rw [← hafter, Option.map_map, Option.map_map] at hsame
  have hstate : (missAfter.findTask 2).map Task.state = (missState.findTask 2).map Task.state := hsame
  rw [missAfter_readies, missState_waits] at hstate
  exact absurd hstate (by decide)

end Sys2Proof
end
section
/-! # What reports, ends of records and ends of contexts leave

The package time, the rotation's turn, the focus and every context's queue bindings stay through a step's reports and
posts, through the end of a record and of a channel, and through the end of a context but for the one that ends. -/

namespace Sys2Proof.Machine

/-- Package time and the turn of the quarantine rotation (R397). -/
def State.turn (s : State) : Nat × Nat × Nat × List (Nat × Nat) := (s.now, s.demCur, s.demAt, s.demoted)

/-- From a to s the turn is the same, and every context has its bindings, the focused one the same. -/
def State.Stays (a s : State) : Prop := s.turn = a.turn ∧ a.Keeps Ctx.qbinds s

section
variable {a s t : State}

namespace State.Stays

theorem refl (s : State) : s.Stays s := ⟨rfl, .refl s⟩

theorem trans (h : a.Stays s) (h' : s.Stays t) : a.Stays t := ⟨h'.1.trans h.1, h.2.trans h'.2⟩

/-- What changes at most the focused context, its bindings apart. -/
theorem focused (h : a.Stays s) (ht : t.turn = s.turn) (hs : t.ctxs = s.ctxs) (hid : t.ctx.id = s.ctx.id)
    (hq : t.ctx.qbinds = s.ctx.qbinds) : a.Stays t :=
  ⟨ht.trans h.1, h.2.trans (.of_ctx hs hid hq)⟩

/-- What changes neither contexts nor the turn. -/
theorem same (h : a.Stays s) (ht : t.turn = s.turn) (hc : t.ctx = s.ctx) (hs : t.ctxs = s.ctxs) : a.Stays t :=
  h.focused ht hs (by rw [hc]) (by rw [hc])

theorem setCtx (h : a.Stays s) {c : Ctx} (hid : c.id = s.ctx.id) (hq : c.qbinds = s.ctx.qbinds) : a.Stays (s.setCtx c) :=
  h.focused rfl rfl hid hq

theorem foldl {β : Type} {f : State → β → State} (hf : ∀ (u : State) x, u.Stays (f u x)) (l : List β) (h : a.Stays s) :
    a.Stays (l.foldl f s) :=
  h.trans (foldl_rel refl trans hf l s)

/-- One change of every context. -/
theorem mapped (h : a.Stays s) {f : Ctx → Ctx} (hf : ∀ c, (f c).id = c.id ∧ (f c).qbinds = c.qbinds) (ht : t.turn = s.turn)
    (hc : t.ctx = f s.ctx) (hs : t.ctxs = s.ctxs.map f) : a.Stays t := by
  refine h.trans ⟨ht, ⟨?_, fun k => ?_⟩⟩
  · rw [hc]
    exact hf s.ctx
  · unfold State.findCtx
    rw [hc, hs, (hf s.ctx).1]
    split
    · exact congrArg some (hf s.ctx).2
    · rw [List.find?_map]
      have hp : (fun c : Ctx => c.id == k) ∘ f = fun c => c.id == k := funext fun c => congrArg (· == k) (hf c).1
      rw [hp, Option.map_map]
      exact congrFun (congrArg Option.map (funext fun c => (hf c).2)) _

theorem flushed (h : a.Stays s) (hf : s.Flushed t) : a.Stays t := by
  rw [hf]
  exact h.focused rfl rfl rfl rfl

theorem onCtx (h : a.Stays s) {f : State → State} (hf : ∀ u : State, u.Stays (f u)) (k : Nat) : a.Stays (s.onCtx k f) := by
  refine h.trans ⟨?_, State.keeps_onCtx fun c _ => (hf _).2⟩
  have hfocus (u : State) (k : Nat) : (u.focus k).turn = u.turn := by
    unfold State.focus
    split
    · rfl
    · split <;> rfl
  unfold State.onCtx
  split
  · rfl
  · exact (hfocus _ _).trans ((hf _).1.trans (hfocus _ _))

/-! ### Writes, events and posts -/

theorem writeBack (h : a.Stays s) (p : Nat → L1Byte → Bool) : a.Stays (s.writeBack p) := h.flushed (s.writeBack_flushed p)

theorem setL1 (h : a.Stays s) (m : Sparse (Option L1Byte)) : a.Stays (s.setL1 m) := h.focused rfl rfl rfl rfl

theorem evictLine (h : a.Stays s) (n : Nat) : a.Stays (s.evictLine n) := (h.writeBack _).setL1 _

theorem releaseAll (h : a.Stays s) (sc : Nat) : a.Stays (s.releaseAll sc) := h.flushed (s.releaseAll_flushed sc)

theorem rawWrite (h : a.Stays s) (pa : Nat) (bs : List Byte) : a.Stays (s.rawWrite pa bs) := h

theorem homeWrite (h : a.Stays s) (pa : Nat) (bs : List Byte) (p : Bool) : a.Stays (s.homeWrite pa bs p) := by
  obtain ⟨m, c, e⟩ := s.homeWrite_eq pa bs p
  rw [e]
  exact h

theorem signalAt (h : a.Stays s) (w : Who) (sc pa n : Nat) : a.Stays (s.signalAt w sc pa n) := by
  obtain ⟨c, e⟩ := s.signalAt_eq w sc pa n
  rw [e]
  exact h

theorem event (h : a.Stays s) (die code part vd a0 a1 : Nat) : a.Stays (s.event die code part vd a0 a1) := by
  obtain ⟨m, k, c, d, e⟩ := s.event_eq die code part vd a0 a1
  rw [e]
  exact h

theorem xEvent (h : a.Stays s) (die part vd : Nat) (f : XFail) : a.Stays (s.xEvent die part vd f) := by
  cases f with
  | malformed n x => exact h.event _ _ _ _ _ _
  | _ => exact h

/-- A context replaced by one of its bindings. -/
theorem putCtx (h : a.Stays s) {c d : Ctx} (hc : s.findCtx c.id = some d) (hq : c.qbinds = d.qbinds) : a.Stays (s.putCtx c) := by
  refine h.trans ⟨?_, State.keeps_putCtx hc hq⟩
  unfold State.putCtx
  split <;> rfl

theorem mapCtx (h : a.Stays s) {f : Ctx → Ctx} (hf : ∀ c, (f c).id = c.id ∧ (f c).qbinds = c.qbinds) (k : Nat) :
    a.Stays (s.mapCtx k f) := by
  unfold State.mapCtx
  cases hk : s.findCtx k with
  | none => exact h
  | some c => exact h.putCtx (d := c) (by rw [(hf c).1, State.findCtx_id hk, hk]) (hf c).2

end State.Stays

/-- A cause posted is one more in the list of posted causes. -/
theorem Ctx.post_frame (c : Ctx) (p : Posted) : (c.post p).id = c.id ∧ (c.post p).qbinds = c.qbinds := by
  unfold Ctx.post
  split <;> exact ⟨rfl, rfl⟩

namespace State.Stays

theorem postSteward (h : a.Stays s) (d : Nat) (p : Posted) : a.Stays (s.postSteward d p) := by
  unfold State.postSteward
  split
  · exact h.mapCtx (fun c => c.post_frame p) _
  · exact h

theorem agentFails (h : a.Stays s) (die part vd agent va : Nat) (f : XFail) : a.Stays (s.agentFails die part vd agent va f) := by
  have h2 : a.Stays (if f.isStage2 then (s.xEvent die part vd f).event die 0x0B part vd va agent
      else s.xEvent die part vd f) := by
    split
    · exact (h.xEvent die part vd f).event _ _ _ _ _ _
    · exact h.xEvent die part vd f
  unfold State.agentFails
  dsimp only
  split
  · split
    · exact h2
    · exact h2.postSteward _ _
  · exact h2

/-! ### Tasks and versions -/

theorem putTask (h : a.Stays s) (k : Task) : a.Stays (s.putTask k) := h
theorem putRegion (h : a.Stays s) (r : Region) : a.Stays (s.putRegion r) := h

theorem examine (h : a.Stays s) (k : Task) : a.Stays (s.examine k) := by
  unfold State.examine
  dsimp only
  split
  · exact h
  · split
    · split
      · exact h
      · exact (h.putTask { k with state := .waiting, deadTold := true }).event _ _ _ _ _ _
    · exact h

theorem examineAll (h : a.Stays s) (p : Nat) : a.Stays (s.examineAll p) :=
  foldl (fun u k => (refl u).examine k) _ h

end State.Stays

/-- A waiting load that finds a version is a named context's. -/
theorem State.nextLoad_find {r : Region} {i : Nat} {c : Ctx} {w : WaitSt} {f : Found} (h : s.nextLoad r i = some (c, w, f)) :
    s.findCtx c.id = some c := by
  obtain ⟨k, -, hk⟩ := List.exists_of_findSome?_eq_some h
  split at hk
  · contradiction
  · rename_i d hd
    split at hk
    · contradiction
    · split at hk
      · split at hk
        · contradiction
        · obtain ⟨rfl, -⟩ := Prod.mk.inj (Option.some.inj hk)
          rw [State.findCtx_id hd, hd]
      · contradiction

namespace State.Stays

theorem giveLoads (h : a.Stays s) (part : Nat) (base : Word) (i n : Nat) : a.Stays (State.giveLoads part base i n s) := by
  induction n generalizing s with
  | zero => exact h
  | succ n ih =>
    unfold State.giveLoads
    split
    · exact h
    · rename_i r hr
      split
      · exact h
      · rename_i c w f hload
        have hfind : (s.putRegion (r.dropWaiter i c.id)).findCtx c.id = some c :=
          (State.nextLoad_find hload : s.findCtx c.id = some c)
        exact ih ((h.putRegion _).putCtx (by rw [Ctx.setBank_id]; exact hfind) (by simp))

theorem created (h : a.Stays s) (r : Region) (i : Nat) : a.Stays (s.created r i) := by
  unfold State.created
  refine State.Stays.examineAll ?_ _
  split
  · exact h.giveLoads _ _ _ _
  · exact h

theorem unreserveAll (h : a.Stays s) (l : List (Word × Nat)) : a.Stays (s.unreserveAll l) := by
  unfold State.unreserveAll
  refine foldl (fun u x => ?_) l h
  have hu := refl u
  split
  · dsimp only
    split
    · exact (hu.putRegion _).created _ _
    · exact hu
  · exact hu

theorem dropWaits (h : a.Stays s) (k : Nat) : a.Stays (s.dropWaits k) := h

theorem progressEvent (h : a.Stays s) : a.Stays s.progressEvent := h.focused rfl rfl rfl rfl

theorem finishBuild (h : a.Stays s) (b : Build) (sc : Nat) : a.Stays (s.finishBuild b sc) := by
  unfold State.finishBuild
  extract_lets s1 c s2
  have h2 : a.Stays s2 := (h.releaseAll _).focused rfl rfl rfl rfl
  split
  · exact h2
  · exact ((h2.putRegion _).created _ _).progressEvent

theorem finishBuilds (h : a.Stays s) (p : Build → Bool) (sc : Nat) : a.Stays (s.finishBuilds p sc) :=
  foldl (fun u b => (refl u).finishBuild b sc) _ h

theorem spillVer (h : a.Stays s) (pa : Nat) (v : Ver) : a.Stays (s.spillVer pa v) :=
  foldl (fun u _ => (refl u).homeWrite _ _ _) _ h

theorem zeroRange (h : a.Stays s) (pa n : Nat) : a.Stays (s.zeroRange pa n) := h

theorem loseRegion (h : a.Stays s) (r : Region) : a.Stays (s.loseRegion r) := by
  refine h.mapped (f := fun c => if c.part.toNat = r.part then
    { c with chans := c.chans.map (fun e => (e.1, e.2.loseRegion r)) } else c) (fun c => ?_) rfl rfl rfl
  split <;> exact ⟨rfl, rfl⟩

theorem discardRegion (h : a.Stays s) (vdn : Nat) (r : Region) : a.Stays (s.discardRegion vdn r) := by
  unfold State.discardRegion
  extract_lets s1
  have h1 : a.Stays s1 := by
    refine foldl (fun u i => ?_) _ h
    split
    · exact refl u
    · refine foldl (fun v pa => ?_) _ (refl u)
      split
      · exact (refl v).spillVer _ _
      · exact (refl v).zeroRange _ _
  have h2 (l : List Region) : a.Stays { s1 with regions := l } := h1
  exact (h2 _).loseRegion r

theorem detach (h : a.Stays s) (k vdn : Nat) (r : Region) : a.Stays (s.detach k vdn r) := by
  unfold State.detach
  dsimp only
  split
  · exact h.discardRegion _ _
  · exact h

theorem detachAll (h : a.Stays s) : a.Stays s.detachAll := by
  unfold State.detachAll
  extract_lets s1 id v mine s2
  have h2 : a.Stays s2 := by
    refine foldl (fun u r => ?_) _ (h.finishBuilds _ _)
    split
    · exact (refl u).detach _ _ _
    · exact refl u
  exact h2.focused rfl rfl rfl rfl

/-! ### Records of copy channels and how they end -/

theorem copyFails (h : a.Stays s) (n va : Nat) (f : XFail) : a.Stays (s.copyFails n va f) := by
  have h1 := h.agentFails s.ctx.copyDie s.ctx.ownPart s.ctx.ownDevice 5 va f
  unfold State.copyFails
  dsimp only
  split
  · split
    · exact h1.postSteward _ _
    · exact h1.setCtx (Ctx.post_frame _ _).1 (Ctx.post_frame _ _).2
  · exact h1

theorem giveWay (h : a.Stays s) (ws : List Put) : a.Stays (s.giveWay ws) := by
  unfold State.giveWay
  split
  · exact h
  · exact foldl (fun u n => (refl u).evictLine n) _ (h.setL1 _)

theorem putMem (h : a.Stays s) (ws : List Put) : a.Stays (s.putMem ws) := by
  have hput (u : State) (w : Put) : u.Stays ((u.rawWrite w.1 [w.2.1]).clearScopes w.1 1) := refl u
  have hmark (u : State) (sec : Nat) (v : Bool) : u.Stays (u.setMark sec v) := refl u
  unfold State.putMem
  dsimp only
  refine foldl (fun u sec => ?_) _ (foldl hput ws (h.giveWay ws))
  split
  · exact hmark _ _ _
  · split
    · exact hmark _ _ _
    · exact refl u

theorem copyStore (h : a.Stays s) (n va : Nat) (bs : List Byte) : a.Stays (s.copyStore n va bs) := by
  unfold State.copyStore
  split
  · exact h.copyFails _ _ _
  · exact h.putMem _

theorem recSignal (h : a.Stays s) (n hd code : Nat) : a.Stays (s.recSignal n hd code) := by
  unfold State.recSignal
  dsimp only
  split
  · exact h
  · split
    · split
      · exact h
      · split
        · exact (h.evictLine _).signalAt _ _ _ _
        · exact (h.evictLine _).rawWrite _ _
    · exact h
    · split
      · exact h.copyFails _ _ _
      · exact h

theorem recStatus (h : a.Stays s) (n x hd : Nat) (e : RecEnd) : a.Stays (s.recStatus n x hd e) :=
  ((h.copyStore _ _ _).copyStore _ _ _).copyStore _ _ _

theorem copyError (h : a.Stays s) (n code : Nat) (x : Word) : a.Stays (s.copyError n code x) :=
  h.setCtx (Ctx.post_frame _ _).1 (Ctx.post_frame _ _).2

theorem setChan (h : a.Stays s) (n : Nat) (k : Chan) : a.Stays (s.setCtx (s.ctx.setChan n k)) := h.setCtx rfl rfl

theorem pmcAgent (h : a.Stays s) (v i n : Nat) : a.Stays (s.pmcAgent v i n) := by
  unfold State.pmcAgent
  split <;> exact h

theorem freeReserve (h : a.Stays s) (u : PowerUnit) : a.Stays (s.freeReserve u) := by
  unfold State.freeReserve
  dsimp only
  split <;> exact h

theorem endRecord (h : a.Stays s) (n x hd : Nat) (e0 : RecEnd) : a.Stays (s.endRecord n x hd e0) := by
  unfold State.endRecord
  extract_lets e s0 s1 s2 s3
  have h0 : a.Stays s0 := by
    show a.Stays (if _ then s else _)
    split
    · exact h
    · exact h.unreserveAll _
  have h1 : a.Stays s1 := (h0.recStatus _ _ _ _).recSignal _ _ _
  have h2 : a.Stays s2 := by
    show a.Stays (if _ then s1 else _)
    split
    · exact h1
    · exact h1.copyError _ _ _
  exact ((h2.setChan _ _).pmcAgent _ _ _).freeReserve _

theorem dropProducer (h : a.Stays s) (p : Producer) : a.Stays (s.dropProducer p) :=
  h.mapped (f := fun c => { c with gutters := c.gutters.map (fun e =>
    (e.1, { e.2 with waiters := e.2.waiters.filter (fun w => w != p) })) }) (fun _ => ⟨rfl, rfl⟩) rfl rfl rfl

theorem endFlights (h : a.Stays s) (p : Producer) (out : List Put) : a.Stays (s.endFlights p out) :=
  h.mapped (f := fun c => { c with gutters := c.gutters.map (fun e =>
    (e.1, { e.2 with flight := e.2.flight.map (fun (l : GLanding) =>
      if l.prod = p ∧ l.ended = none then { l with ended := some out } else l) })) }) (fun _ => ⟨rfl, rfl⟩) rfl rfl rfl

theorem recordFails (h : a.Stays s) (n : Nat) : a.Stays (s.recordFails n) := by
  unfold State.recordFails
  split
  · split
    · exact h.copyFails _ _ _
    · exact h
  · exact h

theorem stopChan (h : a.Stays s) (n : Nat) : a.Stays (s.stopChan n) := by
  unfold State.stopChan
  extract_lets k s0 me s1
  have h0 : a.Stays s0 := h.setChan _ _
  have h1 : a.Stays s1 := (h0.dropProducer _).endFlights _ _
  split
  · exact h0
  · split
    · exact h0.setChan _ _
    · split
      · exact ((h1.recordFails _).unreserveAll _).setChan _ _
      · exact h1.endRecord _ _ _ _

/-! ### The end of a context -/

theorem addPrefetch (h : a.Stays s) (p : Prefetch) : a.Stays (s.addPrefetch p) := h.rawWrite _ _

theorem endFocus (h : a.Stays s) (keepBuilds : Bool) : a.Stays (s.endFocus keepBuilds) := by
  unfold State.endFocus
  generalize List.range 8 = chans
  generalize List.range 32 = slots
  extract_lets sb t regs c s0 s1 s2 s3
  have hb : a.Stays sb := foldl (fun u n => (refl u).stopChan n) _ h
  have ht : a.Stays t := foldl (fun u (b : RegBank) => (refl u).unreserveAll b.creations) _ hb
  have h0 : a.Stays s0 := by
    show a.Stays (if _ then t else _)
    split
    · exact ht
    · have hr : a.Stays regs := by
        refine foldl (fun u b => ?_) _ ht
        split
        · exact (refl u).putRegion _
        · exact refl u
      exact hr.focused rfl rfl rfl rfl
  have h1 : a.Stays s1 := (h0.writeBack _).setL1 _
  have h2 : a.Stays s2 := (foldl (fun u p => (refl u).addPrefetch p) _ h1).detachAll
  have h3 : a.Stays s3 := by
    refine foldl (fun u i => ?_) _ h2
    dsimp only
    split <;> exact refl u
  exact h3.focused rfl rfl rfl rfl

end State.Stays

end

end Sys2Proof.Machine
end
section
/-! # What posting and completing tasks leave of the focused context

A completion ends contexts, the focused one perhaps among them; its identity, its bindings and the rotation's turn stay
through it and through a posting (R24, R29, R184). -/

namespace Sys2Proof.Machine

/-- From a to s the turn is the same, and the focused context its identity and bindings. -/
def State.Holds (a s : State) : Prop := s.turn = a.turn ∧ s.ctx.id = a.ctx.id ∧ s.ctx.qbinds = a.ctx.qbinds

section
variable {a s t : State}

theorem State.Stays.holds (h : a.Stays s) : a.Holds s := ⟨h.1, h.2.id, h.2.ctx⟩

namespace State.Holds

theorem refl (s : State) : s.Holds s := ⟨rfl, rfl, rfl⟩

theorem trans (h : a.Holds s) (h' : s.Holds t) : a.Holds t :=
  ⟨h'.1.trans h.1, h'.2.1.trans h.2.1, h'.2.2.trans h.2.2⟩

theorem stays (h : a.Holds s) (h' : s.Stays t) : a.Holds t := h.trans h'.holds

theorem foldl {β : Type} {f : State → β → State} (hf : ∀ (u : State) x, u.Holds (f u x)) (l : List β) (h : a.Holds s) :
    a.Holds (l.foldl f s) :=
  h.trans (foldl_rel refl trans hf l s)

theorem endCtx (h : a.Holds s) (k : Nat) (b : Bool) : a.Holds (s.endCtx k b) := by
  have h0 : a.Holds (s.onCtx k (fun s => s.endFocus b)) :=
    h.stays ((State.Stays.refl s).onCtx (fun u => (State.Stays.refl u).endFocus b) k)
  unfold State.endCtx
  extract_lets s0 s1 s2
  have h1 : a.Holds s1 := by
    show a.Holds (match s0.findCtx k with | some c => s0.putResidue c | none => s0)
    split <;> exact h0
  exact h1

theorem writeStatus (h : a.Holds s) (k : Task) (v : Nat) : a.Holds (s.writeStatus k v) := by
  have hs := State.Stays.refl s
  unfold State.writeStatus
  split
  · exact h.stays (hs.agentFails _ _ _ _ _ _)
  · exact h.stays (hs.homeWrite _ _ _)

theorem countAt (h : a.Holds s) (k : Task) (b : Bool) (lvl : Nat) : a.Holds (s.countAt k b lvl) := by
  have hs := State.Stays.refl s
  unfold State.countAt
  dsimp only
  split
  · exact h
  · split
    · exact h.stays ((hs.agentFails _ _ _ _ _ _).event _ _ _ _ _ _)
    · split
      · exact h.stays ((hs.signalAt _ _ _ _).signalAt _ _ _ _)
      · exact h.stays (hs.signalAt _ _ _ _)

theorem setLevel (h : a.Holds s) (die p q lvl : Nat) : a.Holds (s.setLevel die p q lvl) := by
  have hq (v : QLevel) : s.Stays (s.setQlevel p q v) := .refl s
  unfold State.setLevel
  dsimp only
  split
  · exact h
  · exact h.stays ((hq _).event _ _ _ _ _ _)

theorem admitGroup (h : a.Holds s) (p : Nat) (v : Option Nat) (num den : Nat) : a.Holds (s.admitGroup p v num den) := by
  have step (qs : List Nat) (up : Bool) : a.Holds (s.stepLevels p qs up) := by
    unfold State.stepLevels
    dsimp only
    split
    · exact h
    · exact foldl (fun u q => (refl u).setLevel _ _ _ _) _ h
  unfold State.admitGroup
  extract_lets w qs ts d c
  split
  · exact step _ _
  · split
    · exact step _ _
    · exact h

theorem admission (h : a.Holds s) (p : Nat) : a.Holds (s.admission p) := by
  unfold State.admission
  dsimp only
  split
  · exact h.admitGroup _ _ _ _
  · exact foldl (fun u v => (refl u).admitGroup _ _ _ _) _ h

theorem putTask (h : a.Holds s) (k : Task) : a.Holds (s.putTask k) := h
theorem settleHeap (h : a.Holds s) (p : Nat) : a.Holds (s.settleHeap p) := h

theorem completeTask (h : a.Holds s) (k cause : Nat) : a.Holds (s.completeTask k cause) := by
  unfold State.completeTask
  split
  · exact h
  · split
    · exact h
    · generalize List.range 4 = levels
      extract_lets late why t s0 s1 s2 s3
      have h0 : a.Holds s0 := by
        show a.Holds (if _ then _ else s)
        split
        · exact h.setLevel _ _ _ _
        · exact h
      have h1 : a.Holds s1 := foldl (fun u m => (refl u).endCtx m false) _ h0
      have h3 : a.Holds s3 := foldl (fun u l => (refl u).countAt _ _ l) _ (h1.writeStatus _ _)
      exact ((h3.putTask _).settleHeap _).admission _

theorem postOne (h : a.Holds s) (k : Task) : a.Holds (s.postOne k) := by
  unfold State.postOne
  extract_lets t1 s0 s1
  have h0 : a.Holds s0 := h.writeStatus _ _
  have h1 : a.Holds s1 := h0
  split
  · exact h1.completeTask _ _
  · exact h1

theorem postAll (h : a.Holds s) (ts : List Task) (p : Nat) : a.Holds (s.postAll ts p) :=
  (foldl (fun u k => (refl u).postOne k) ts h).admission p

end State.Holds

/-! ### HALT, YIELD and PHASE -/

/-- An instruction without operands that completes goes on, whatever it has changed. -/
theorem seqRun_bare {body : State → SeqOut} {s2 : State} (hb : body s = .done s2) :
    seqRun [] [] body s = s2.goOn s.pc8 := by
  rw [seqRun_plain s.plain_nil, hb]
  exact finish_unbound [] [] s s2 s.pc8 none (fun _ h => absurd h List.not_mem_nil) (fun _ h => absurd h List.not_mem_nil)

theorem halt_handler (h : s.ctx.inHandler = true) :
    exec .halt s = .next (s.fault (Cause.seq 0x01#8 0 0x1100000000000000#64)) :=
  seqInstr_trap s.plain_nil (if_pos h)

/-- The state in which HALT looks whether it may complete: the builds exist, waiting tasks examined (R104, R171). -/
def State.haltState (s : State) : State := (s.finishBuilds (fun _ => true) 3).examineAll s.ctx.part.toNat

theorem halt_base (h : s.ctx.inHandler = false) : exec .halt s = .next (if s.haltState.mayHalt = true then
    s.haltState.haltMember.goOn s.pc8 else s.haltState.waitAt .other false) := by
  have hb : (if s.ctx.inHandler then SeqOut.trap s (Cause.seq cILLEGAL 0 (encode .halt))
      else if s.haltState.mayHalt then .done s.haltState.haltMember else .wait s.haltState .other false) =
      if s.haltState.mayHalt then .done s.haltState.haltMember else .wait s.haltState .other false :=
    if_neg (by simp [h])
  by_cases hm : s.haltState.mayHalt = true
  · rw [if_pos hm]
    exact congrArg Host.Outcome.next (seqRun_bare (hb.trans (if_pos hm)))
  · rw [if_neg hm]
    exact seqInstr_wait s.plain_nil (hb.trans (if_neg hm))

theorem yield_idle (h : s.ctx.task = none) : exec .yield s = .next (s.goOn s.pc8) := by
  show execYield s = _
  unfold execYield
  rw [seqRun_bare rfl, h]

theorem yield_task {n : Nat} {k : Task} (h : s.ctx.task = some n) (hk : s.findTask n = some k) (hc : k.crew = 1)
    (hs : k.state = .running) : exec .yield s = .next ((s.goOn s.pc8).yieldTo k) := by
  have hfind : (s.goOn s.pc8).findTask n = some k := hk
  show execYield s = _
  unfold execYield
  rw [seqRun_bare rfl, h]
  dsimp only
  rw [hfind]
  exact congrArg Host.Outcome.next (if_pos ⟨hc, hs⟩)

/-- Of the tasks after a task has taken a new number and is marked, the one of that number. -/
theorem find?_reposted {l : List Task} {n : Nat} {k k' : Task} (hn : k.id = n) (hn' : k'.id = n) (hl : ∀ u ∈ l, u.id ≠ n) (m : Nat) :
    (((l.filter (fun u => u.id != m)) ++ [k]).map (fun j => if j.id = k'.id then k' else j)).find? (fun t => t.id == n) =
      some k' := by
  have hnone : ((l.filter (fun u => u.id != m)).map (fun j => if j.id = k'.id then k' else j)).find? (fun t => t.id == n) =
      none := by
    rw [List.find?_eq_none]
    intro t ht
    obtain ⟨u, hu, rfl⟩ := List.mem_map.mp ht
    have hne := hl u (List.mem_filter.mp hu).1
    rw [if_neg (by rw [hn']; exact hne)]
    simpa using hne
  rw [List.map_append, List.find?_append, hnone]
  simp [hn, hn']

/-- A YIELD in a handler: the task takes the next number and is marked; the switch is looked for later (R352). -/
theorem yieldTo_handler {k : Task} (h : s.ctx.inHandler = true) (hu : ∀ u ∈ s.tasks, u.id ≠ s.postSeq) :
    ((s.goOn s.pc8).yieldTo k).ctx.pc = s.pc8 ∧ ((s.goOn s.pc8).yieldTo k).mem = s.mem ∧
    ((s.goOn s.pc8).yieldTo k).postSeq = s.postSeq + 1 ∧
    ((s.goOn s.pc8).yieldTo k).findTask s.postSeq = some { k with id := s.postSeq, yielded := true } := by
  have hhand : (s.goOn s.pc8).ctx.inHandler = true := by simpa [State.goOn_ctx, Ctx.inHandler] using h
  have hto : (s.goOn s.pc8).yieldTo k =
      ((s.goOn s.pc8).repost k).1.putTask { ((s.goOn s.pc8).repost k).2 with yielded := true } := if_pos hhand
  rw [hto]
  refine ⟨?_, rfl, rfl, ?_⟩
  · refine Eq.trans ?_ (State.goOn_pc s s.pc8)
    unfold State.repost State.putTask
    dsimp only
    split <;> rfl
  · exact find?_reposted (n := s.postSeq) (k := { k with id := s.postSeq }) (k' := { k with id := s.postSeq, yielded := true })
      rfl rfl hu k.id

theorem phase_answers {f : FPhase} (hp : s.Plain [f.d]) : exec (.phase f) s = .next
    (if f.wait && !s.quiet s.ctx.part.toNat f.tag s.ctx.task then s.waitAt .other false
      else (s.wrc f.d (if s.quiet s.ctx.part.toNat f.tag s.ctx.task then 1#64 else 0#64)).goOn s.pc8) := by
  by_cases hw : (f.wait && !s.quiet s.ctx.part.toNat f.tag s.ctx.task) = true
  · rw [if_pos hw]
    exact seqInstr_wait (srcs := []) (dsts := [f.d]) hp (if_pos hw)
  · rw [if_neg hw]
    exact seqInstr_done (srcs := []) (dsts := [f.d]) hp (if_neg hw) (by simp)

/-! ### SPAWN -/

theorem spawnStatus_eq (c i : Nat) (hc : c < 256) (hi : i < 65536) : spawnStatus c i = BitVec.ofNat 64 (c + 256 * i) := by
  unfold spawnStatus packWord
  congr 1
  simp only [packFields]
  omega

theorem readRecords_length {va n : Nat} {rs : List (Nat × Nat)} (h : s.readRecords va n = .ok rs) : rs.length = n := by
  induction n generalizing va rs with
  | zero =>
    obtain rfl : [] = rs := Except.ok.inj h
    rfl
  | succ n ih =>
    unfold State.readRecords at h
    split at h
    · contradiction
    · split at h
      · contradiction
      · rename_i hs hrs
        obtain rfl := Except.ok.inj h
        rw [List.length_cons, ih hrs]

section
variable {f : FDAB} (hp : s.Plain [f.a, f.b, f.d]) (hc : s.Clean [f.a, f.b])

/-- SPAWN once its records have been read: the first malformed one is reported, else all are posted (R184). -/
def spawnRead (f : FDAB) (s1 : State) (p : Nat) (rs : List (Nat × Nat)) : SeqOut :=
  match rs.findIdx? (fun r => s1.recordBad p r.1 r.2) with
  | some i => .done (s1.wrc f.d (spawnStatus 1 i))
  | none =>
    let ts := rs.map (fun r => s1.taskOf p s1.ctx.vdn.toNat (BitVec.ofNat 64 r.1) r.2 none)
    if !s1.overflowRoom ts p then .done (s1.wrc f.d (spawnStatus 3 0))
    else .done ((s1.postAll ts p).wrc f.d (spawnStatus 0 0))

/-- The body of SPAWN, its operands given. -/
def spawnBody (f : FDAB) (s : State) (a b : Word) : SeqOut :=
  if b.toNat = 0 ∨ 256 < b.toNat then .done (s.wrc f.d (spawnStatus 2 0))
  else match (s.releaseAll 3).readRecords a.toNat b.toNat with
    | .error (s2, c) => .trap s2 c
    | .ok rs => spawnRead f (s.releaseAll 3) s.ctx.part.toNat rs

theorem exec_spawn : exec (.spawn f) s =
    seqInstr [f.a, f.b] [f.d] (fun s => consume s f.a 1 (fun a => consume s f.b 2 (fun b => spawnBody f s a b))) s := rfl

include hp hc

theorem spawn_writes {s1 : State} {v : Word} (h : spawnBody f s (s.rd f.a).bits (s.rd f.b).bits = .done (s1.wrc f.d v))
    (hq : s1.ctx.qbinds = s.ctx.qbinds) : exec (.spawn f) s = .next ((s1.wrc f.d v).goOn s.pc8) :=
  seqInstr_done (srcs := [f.a, f.b]) (dsts := [f.d]) hp
    ((consume_clean (hc f.a (by simp))).trans ((consume_clean (hc f.b (by simp))).trans h)) (by simpa using hq)

theorem spawn_count (h : (s.rd f.b).bits.toNat = 0 ∨ 256 < (s.rd f.b).bits.toNat) :
    exec (.spawn f) s = .next ((s.wrc f.d 2#64).goOn s.pc8) :=
  spawn_writes hp hc (if_pos h) rfl

section
variable {rs : List (Nat × Nat)} (h1 : 1 ≤ (s.rd f.b).bits.toNat) (h256 : (s.rd f.b).bits.toNat ≤ 256)
  (hrs : (s.releaseAll 3).readRecords (s.rd f.a).bits.toNat (s.rd f.b).bits.toNat = .ok rs)
include h1 h256 hrs

omit hp hc in
theorem spawnBody_read : spawnBody f s (s.rd f.a).bits (s.rd f.b).bits =
    spawnRead f (s.releaseAll 3) s.ctx.part.toNat rs := by
  unfold spawnBody
  rw [if_neg (by omega), hrs]

theorem spawn_malformed {i : Nat} (hi : rs.findIdx? (fun r => (s.releaseAll 3).recordBad s.ctx.part.toNat r.1 r.2) = some i) :
    exec (.spawn f) s = .next (((s.releaseAll 3).wrc f.d (BitVec.ofNat 64 (1 + 256 * i))).goOn s.pc8) := by
  have hlen : i < 65536 := by
    have hlt := (List.findIdx?_eq_some_iff_getElem.mp hi).1
    have := readRecords_length hrs
    omega
  have hb := spawnBody_read (f := f) h1 h256 hrs
  rw [spawnRead, hi] at hb
  rw [← spawnStatus_eq 1 i (by omega) hlen]
  exact spawn_writes hp hc hb (s.releaseAll_flushed 3).qbinds

theorem spawn_posts (hgood : rs.all (fun r => !(s.releaseAll 3).recordBad s.ctx.part.toNat r.1 r.2) = true) :
    let ts := rs.map (fun r => (s.releaseAll 3).taskOf s.ctx.part.toNat s.ctx.vdn.toNat (BitVec.ofNat 64 r.1) r.2 none)
    ((s.releaseAll 3).overflowRoom ts s.ctx.part.toNat = false →
      exec (.spawn f) s = .next (((s.releaseAll 3).wrc f.d 3#64).goOn s.pc8)) ∧
    ((s.releaseAll 3).overflowRoom ts s.ctx.part.toNat = true →
      exec (.spawn f) s = .next ((((s.releaseAll 3).postAll ts s.ctx.part.toNat).wrc f.d 0#64).goOn s.pc8)) := by
  intro ts
  have hnone : rs.findIdx? (fun r => (s.releaseAll 3).recordBad s.ctx.part.toNat r.1 r.2) = none := by
    rw [List.findIdx?_eq_none_iff]
    intro r hr
    simpa using List.all_eq_true.mp hgood r hr
  have hv : (s.releaseAll 3).ctx.vdn = s.ctx.vdn := by rw [s.releaseAll_flushed 3]
  have hb := spawnBody_read (f := f) h1 h256 hrs
  rw [spawnRead, hnone, hv] at hb
  refine ⟨fun hroom => ?_, fun hroom => ?_⟩
  · exact spawn_writes hp hc (hb.trans (if_pos (by simpa using hroom))) (s.releaseAll_flushed 3).qbinds
  · refine spawn_writes hp hc (hb.trans (if_neg (by simpa using hroom))) ?_
    exact ((State.Holds.refl _).postAll ts _).2.2.trans (s.releaseAll_flushed 3).qbinds

end
end

end

end Sys2Proof.Machine

namespace Sys2Proof
open Machine

/-- Settles O10: HALT and PHASE by their own conditions, YIELD by the number the task takes, and SPAWN with the bindings of
the issuing context kept through every posting. -/
theorem taskEndsAndWorkIsPosted : Obligations.TaskEndsAndWorkIsPosted := by
  intro s
  refine ⟨halt_handler, halt_base, yield_idle, fun t k ht hk hc hs => ⟨yield_task ht hk hc hs, fun hh hu => ?_⟩,
    fun f hp hc => ⟨spawn_count hp hc, fun h1 h256 rs hrs => ⟨fun i hi => spawn_malformed hp hc h1 h256 hrs hi,
      fun hgood => ?_⟩⟩, fun f hp => phase_answers hp⟩
  · obtain ⟨hpc, hmem, hseq, hfind⟩ := yieldTo_handler (k := k) hh hu
    exact ⟨_, yield_task ht hk hc hs, hpc, hmem, hseq, hfind⟩
  · obtain ⟨hfull, hroom⟩ := spawn_posts hp hc h1 h256 hrs hgood
    exact ⟨hfull, fun h => ⟨_, hroom h, rfl⟩⟩

end Sys2Proof
end
section
/-! # The events that end waits

An event finds the context that it is told; where that one runs and waits, without a cause, for what the event brings, its
instruction is performed again; a parked one makes its task READY (R19, R22, R333). -/

namespace Sys2Proof.Machine

section
variable {s t : State} {w : WaitSt} {i : Instr}

/-- The wait of the running code is at its program counter. -/
theorem State.waitHere?_wait (h : s.waitHere? = some w) : s.ctx.bank.wait = some w ∧ w.pc = s.ctx.pc := by
  unfold State.waitHere? State.bank at h
  split at h
  · rename_i v hv
    split at h
    · rename_i hpc
      obtain rfl := Option.some.inj h
      exact ⟨hv, hpc⟩
    · contradiction
  · contradiction

theorem State.takeEntry_frame {u u1 : State} {who : Who} {q : QDesc} {sc : Nat} {v : SReg}
    (h : u.takeEntry who q sc = .ok (u1, v)) : u.Flushed u1 := by
  unfold State.takeEntry at h
  split at h
  · contradiction
  · obtain ⟨rfl, -⟩ := Prod.mk.inj (Except.ok.inj h)
    exact (u.flushBytes_flushed _ _).trans (((u.flushBytes _ _).rawWrite_flushed _ _).trans (State.scopeTakeN_flushed _ _ _ _ _))

theorem State.queueCheck_frame {u u1 : State} {d : Word} {sc : Nat} {q : QDesc} (h : u.queueCheck d sc = .ok (u1, q)) :
    u.Flushed u1 := by
  unfold State.queueCheck at h
  dsimp only at h
  split at h
  · contradiction
  · split at h
    · contradiction
    · split at h
      · contradiction
      · split at h
        · contradiction
        · split at h
          · contradiction
          · obtain ⟨rfl, -⟩ := Prod.mk.inj (Except.ok.inj h)
            exact u.flushBytes_flushed _ _

/-- A pop that gives an entry leaves the context at its instruction. -/
theorem State.popQueue_entry_frame {d : Word} {sc : Nat} {v : SReg} (h : s.popQueue d sc = .entry t v) :
    t.ctx.id = s.ctx.id ∧ t.ctx.pc = s.ctx.pc := by
  unfold State.popQueue at h
  split at h
  · obtain ⟨rfl, -⟩ := QRes.entry.inj h
    have hf := State.acquireAll_flushed (s.setBank { s.bank with wait := none })
    exact ⟨hf.id.trans (by simp), hf.pc.trans (by simp)⟩
  · split at h
    · contradiction
    · rename_i hq
      have h1 := State.queueCheck_frame hq
      split at h
      · split at h
        · contradiction
        · rename_i ht
          obtain ⟨rfl, -⟩ := QRes.entry.inj h
          have hf := h1.trans ((State.takeEntry_frame ht).trans (State.acquireAll_flushed _))
          exact ⟨hf.id, hf.pc⟩
      · split at h <;> contradiction

theorem State.progressEvent_bank (s : State) : s.progressEvent.bank = s.bank := rfl

theorem State.endWait_wait (s : State) : s.endWait.bank.wait = none := by simp [State.endWait]

theorem State.endWait_frame (s : State) : s.endWait.ctx.id = s.ctx.id ∧ s.endWait.ctx.pc = s.ctx.pc ∧
    s.endWait.ctx.qbinds = s.ctx.qbinds := by simp [State.endWait]

/-- A binding replaced, the wait over, a progress event told. -/
theorem State.heldEntry_frame (s : State) (n : Nat) (b : QBinding) :
    ((s.setCtx (s.ctx.setQbind n b)).endWait).progressEvent.ctx.id = s.ctx.id ∧
    ((s.setCtx (s.ctx.setQbind n b)).endWait).progressEvent.ctx.pc = s.ctx.pc ∧
    ((s.setCtx (s.ctx.setQbind n b)).endWait).progressEvent.ctx.qbinds = (s.ctx.setQbind n b).qbinds := by
  have hprog (u : State) : u.progressEvent.ctx.id = u.ctx.id ∧ u.progressEvent.ctx.pc = u.ctx.pc ∧
      u.progressEvent.ctx.qbinds = u.ctx.qbinds := ⟨rfl, rfl, rfl⟩
  have hset (c : Ctx) : (s.setCtx c).ctx = c := rfl
  have hbind : (s.ctx.setQbind n b).id = s.ctx.id ∧ (s.ctx.setQbind n b).pc = s.ctx.pc := ⟨rfl, rfl⟩
  obtain ⟨h1, h2, h3⟩ := hprog (s.setCtx (s.ctx.setQbind n b)).endWait
  obtain ⟨e1, e2, e3⟩ := (s.setCtx (s.ctx.setQbind n b)).endWait_frame
  rw [hset] at e1 e2 e3
  exact ⟨h1.trans (e1.trans hbind.1), h2.trans (e2.trans hbind.2), h3.trans e3⟩

section
variable (h : Say.Here s w i)
include h

/-- The event of a wait's kind carries the waiting instruction on. -/
theorem carryOn_here {kind : Wait → Bool} (hk : kind w.kind = true) (met : State → Bool) (go : State → State) :
    s.carryOn s.ctx.id kind met go = (go s).focus s.ctx.id := by
  obtain ⟨hrun, hcause, hspent, hw, -⟩ := h
  obtain ⟨hwait, hpc⟩ := State.waitHere?_wait hw
  have hno : (s.ctx.hasCause || s.ctx.spent) = false := by
    rw [hcause, Bool.false_or]
    unfold Ctx.spent
    cases ht : s.ctx.thnd <;> cases hs : s.ctx.shnd <;> simp_all
  have hany : (s.ctx.bank.wait).any (fun w => w.pc == s.ctx.pc && kind w.kind) = true := by
    rw [hwait]
    simp [hpc, hk]
  unfold State.carryOn State.onCtx
  rw [State.findCtx_ctx, State.focus_self]
  dsimp only
  rw [hany, hrun, hno]
  rfl

/-- An event of another kind changes nothing. -/
theorem carryOn_other {kind : Wait → Bool} (hk : kind w.kind = false) (met : State → Bool) (go : State → State) :
    s.carryOn s.ctx.id kind met go = s := by
  obtain ⟨hwait, -⟩ := State.waitHere?_wait h.2.2.2.1
  have hany : (s.ctx.bank.wait).any (fun w => w.pc == s.ctx.pc && kind w.kind) = false := by
    rw [hwait]
    simp [hk]
  unfold State.carryOn
  rw [State.findCtx_ctx]
  dsimp only
  rw [hany]
  rfl

/-- The event leaves the state where what it carries on does. -/
theorem carryOn_idle {kind : Wait → Bool} {met : State → Bool} {go : State → State} (hk : kind w.kind = true) (hgo : go s = s) :
    s.carryOn s.ctx.id kind met go = s := by
  rw [carryOn_here h hk, hgo, State.focus_self]

theorem waitKind_here : s.waitKind = some w.kind := by
  unfold State.waitKind
  rw [h.2.2.2.1]
  rfl

theorem waiting_here : s.waiting = some i := h.2.2.2.2

theorem creationLate_here {va : Word} {v : Nat} (hk : w.kind = .creation va v) : s.creationLate s.ctx =
    (w.given != .met && s.ctx.vwlim != 0#20 && decide (w.since + 1000 * s.ctx.vwlim.toNat ≤ s.now)) := by
  obtain ⟨hwait, -⟩ := State.waitHere?_wait h.2.2.2.1
  unfold State.creationLate
  rw [hwait]
  simp [hk]

/-! ### Counters, times and gutters -/

theorem counterMet_here {pa : Nat} {v : Word} (hk : w.kind = .counter pa v) :
    s.counterMet = (w.given == .met || decide (v.toNat ≤ s.natAt pa 8)) := by
  unfold State.counterMet
  rw [h.2.2.2.1]
  dsimp only
  rw [hk]

/-- CWAIT is performed again where its counter has reached the value, now or before (R124, R127). -/
theorem cwaitSatisfied_here {pa : Nat} {v : Word} {f : FMCs} (hk : w.kind = .counter pa v) (hi : i = .cwait f) :
    (v.toNat ≤ s.natAt pa 8 → Say.Again s (.cwaitSatisfied s.ctx.id) i) ∧
    (w.given = .met → Say.Again s (.cwaitSatisfied s.ctx.id) i) ∧
    (s.natAt pa 8 < v.toNat → w.given ≠ .met → exec (.cwaitSatisfied s.ctx.id) s = .next s) := by
  have hmet := counterMet_here h hk
  have again (hm : s.counterMet = true) : Say.Again s (.cwaitSatisfied s.ctx.id) i := by
    refine ⟨cwaitRun f s, by rw [hi]; rfl, congrArg Host.Outcome.next ?_⟩
    refine (carryOn_here h (by rw [hk]) _ _).trans ?_
    rw [waiting_here h, hi]
    dsimp only
    rw [if_pos hm]
  refine ⟨fun hv => again (by simp [hmet, hv]), fun hg => again (by simp [hmet, hg]), fun hv hg => ?_⟩
  refine congrArg Host.Outcome.next (carryOn_idle h (by rw [hk]) ?_)
  have hno : s.counterMet = false := by simp [hmet, hg, hv]
  rw [waiting_here h, hi]
  dsimp only
  rw [if_neg (by simp [hno])]

theorem waittExpiry_here {v : Word} {f : FA1} (hk : w.kind = .time v) (hi : i = .waitt f) :
    Say.Again s (.waittExpiry s.ctx.id) i := by
  refine ⟨waittRun f s, by rw [hi]; rfl, congrArg Host.Outcome.next ((carryOn_here h (by rw [hk]) _ _).trans ?_)⟩
  rw [waiting_here h, hi]

theorem gwaitSatisfied_here {g k : Nat} {f : FGu} (hk : w.kind = .gutter g k) (hi : i = .gwait f) :
    Say.Again s (.gwaitSatisfied s.ctx.id) i := by
  refine ⟨gwaitRun f s, by rw [hi]; rfl, congrArg Host.Outcome.next ((carryOn_here h (by rw [hk]) _ _).trans ?_)⟩
  rw [waiting_here h, hi]

/-! ### Queues -/

theorem givenEntry_here : s.givenEntry.isSome = true ↔ ∃ v, w.given = .entry v := by
  unfold State.givenEntry
  rw [h.2.2.2.1]
  dsimp only
  cases w.given <;> simp

/-- The model's condition of a pop's wait is what the statement says of it. -/
theorem popMet_here {d : Word} {b : Option Nat} {r : BitVec 3} {q : QDesc} (hk : w.kind = .pop d b r)
    (hq : s.qdesc d.toNat = some q) : s.popMet = true ↔
    (b.any (fun n => (s.ctx.qbind n).held.isSome) = true ∨ Say.PopComes s w q) := by
  have hgiven := givenEntry_here h
  unfold State.popMet Say.PopComes
  rw [waitKind_here h, hk, h.2.2.2.1]
  dsimp only
  rw [hq]
  simp only [Bool.or_eq_true, hgiven, Option.any_some, beq_iff_eq, Bool.and_eq_true, bne_iff_ne, ne_eq, Bool.not_eq_true',
    List.any_eq_false, Bool.not_eq_true]
  tauto

theorem queueEntryDelivered_idle (hno : s.popMet = false) {d : Word} {b : Option Nat} {r : BitVec 3} (hk : w.kind = .pop d b r) :
    exec (.queueEntryDelivered s.ctx.id) s = .next s :=
  congrArg Host.Outcome.next (carryOn_idle h (by rw [hk]) (if_neg (by simp [hno])))

theorem queueEntryDelivered_met (hm : s.popMet = true) {d : Word} {b : Option Nat} {r : BitVec 3} (hk : w.kind = .pop d b r) :
    exec (.queueEntryDelivered s.ctx.id) s = .next (s.deliver.focus s.ctx.id) :=
  congrArg Host.Outcome.next ((carryOn_here h (by rw [hk]) _ _).trans (by rw [if_pos hm]))

/-- A QPOP is performed again where its entry has come, or its queue has ended (R33, R180). -/
theorem qpop_here {d : Word} {r : BitVec 3} {q : QDesc} {f : FQPop} (hk : w.kind = .pop d none r) (hi : i = .qpop f)
    (hq : s.qdesc d.toNat = some q) :
    (Say.PopComes s w q → Say.Again s (.queueEntryDelivered s.ctx.id) i) ∧
    (¬ Say.PopComes s w q → exec (.queueEntryDelivered s.ctx.id) s = .next s) := by
  have hmet := popMet_here h hk hq
  simp only [Option.any_none, Bool.false_eq_true, false_or] at hmet
  refine ⟨fun hp => ⟨qpopRun f s, by rw [hi]; rfl, (queueEntryDelivered_met h (hmet.mpr hp) hk).trans ?_⟩,
    fun hp => queueEntryDelivered_idle h (by simpa using mt hmet.mp hp) hk⟩
  unfold State.deliver
  rw [waitKind_here h, hk, waiting_here h, hi]

/-- A bound register's pop that holds its entry is over (R156). -/
theorem boundPop_held {d : Word} {n : Nat} {r : BitVec 3} {v : SReg} (hk : w.kind = .pop d (some n) r)
    (hv : (s.ctx.qbind n).held = some v) : ∃ t, exec (.queueEntryDelivered s.ctx.id) s = .next t ∧
      (t.ctx.qbind n).held = some v ∧ t.bank.wait = none ∧ t.mem = s.mem ∧ t.ctx.pc = s.ctx.pc := by
  have hmet : s.popMet = true := by
    unfold State.popMet
    rw [waitKind_here h, hk]
    simp [hv]
  have hdel : s.deliver = s.endWait := by
    unfold State.deliver
    rw [waitKind_here h, hk]
    dsimp only
    rw [hv]
    rfl
  have hid : s.endWait.ctx.id = s.ctx.id := by simp [State.endWait]
  refine ⟨s.endWait, (queueEntryDelivered_met h hmet hk).trans ?_, ?_, ?_, rfl, ?_⟩
  · rw [hdel, ← hid, State.focus_self]
  · simpa [State.endWait, Ctx.qbind] using hv
  · simp [State.endWait]
  · simp [State.endWait]

/-- A bound register's pop whose entry comes holds it (R33, R156). -/
theorem boundPop_comes {d : Word} {n : Nat} {r : BitVec 3} {q : QDesc} {s1 : State} {v : SReg}
    (hk : w.kind = .pop d (some n) r) (hq : s.qdesc d.toNat = some q) (hp : Say.PopComes s w q)
    (hnone : (s.ctx.qbind n).held = none)
    (hpop : s.popQueue ((s.ctx.qbind n).desc.getD 0#64) (s.ctx.qbind n).scope.toNat = .entry s1 v) :
    ∃ t, exec (.queueEntryDelivered s.ctx.id) s = .next t ∧ (t.ctx.qbind n).held = some v ∧ t.bank.wait = none ∧
      t.mem = s1.mem ∧ t.ctx.pc = s.ctx.pc := by
  have hmet : s.popMet = true := (popMet_here h hk hq).mpr (Or.inr hp)
  obtain ⟨hid, hpc⟩ := State.popQueue_entry_frame hpop
  let u : State := ((s1.setCtx (s1.ctx.setQbind n { s.ctx.qbind n with held := some v })).endWait).progressEvent
  have hdel : s.deliver = u := by
    unfold State.deliver
    rw [waitKind_here h, hk]
    dsimp only
    rw [hnone, hpop]
    rfl
  have hctx : u.ctx.id = s1.ctx.id ∧ u.ctx.pc = s1.ctx.pc ∧ u.ctx.qbinds = (s1.ctx.setQbind n
      { s.ctx.qbind n with held := some v }).qbinds := State.heldEntry_frame ..
  have hu : u.ctx.id = s.ctx.id := hctx.1.trans hid
  refine ⟨u, (queueEntryDelivered_met h hmet hk).trans ?_, ?_, ?_, rfl, ?_⟩
  · rw [hdel, ← hu, State.focus_self]
  · have hq : u.ctx.qbind n = { s.ctx.qbind n with held := some v } := by
      unfold Ctx.qbind
      rw [hctx.2.2]
      exact Ctx.qbind_setQbind_self
    rw [hq]
  · exact (congrArg RegBank.wait (State.progressEvent_bank _)).trans (State.endWait_wait (s1.setCtx _))
  · exact hctx.2.1.trans hpc

/-! ### Versions -/

theorem versionAgain_here {va : Word} {m v : Nat} (hk : w.kind = .version va m v) (hi : ∃ f, i = .vld f ∨ ∃ f, i = .vlds f) :
    ∃ t, exec i s = .next t ∧ s.versionAgain s.ctx.id = t.focus s.ctx.id := by
  have hgo := carryOn_here h (kind := fun k => match k with
    | .version _ _ _ => true
    | _ => false) (by rw [hk]) State.versionMet (fun s => match s.waiting with
      | some (.vld f) => vldRun f s
      | some (.vlds f) => vldsRun f s
      | _ => s)
  have hw := waiting_here h
  obtain ⟨f, rfl | ⟨g, rfl⟩⟩ := hi
  · exact ⟨vldRun f s, rfl, hgo.trans (by rw [hw])⟩
  · exact ⟨vldsRun g s, rfl, hgo.trans (by rw [hw])⟩

theorem versionWake_given (hg : w.given = .missing ∨ ∃ u, w.given = .line u) :
    exec (.versionWaitWake s.ctx.id) s = .next (s.versionAgain s.ctx.id) := by
  obtain ⟨hwait, -⟩ := State.waitHere?_wait h.2.2.2.1
  show execVersionWaitWake _ _ = _
  unfold execVersionWaitWake Ctx.versionGiven
  rw [State.findCtx_ctx]
  dsimp only
  rw [hwait]
  obtain hg | ⟨u, hg⟩ := hg <;> simp [hg]

theorem versionWake_kept (hg : w.given = .nothing ∨ ∃ n, w.given = .retry n) :
    exec (.versionWaitWake s.ctx.id) s = .next s := by
  obtain ⟨hwait, -⟩ := State.waitHere?_wait h.2.2.2.1
  show execVersionWaitWake _ _ = _
  unfold execVersionWaitWake Ctx.versionGiven
  rw [State.findCtx_ctx]
  dsimp only
  rw [hwait]
  obtain hg | ⟨n, hg⟩ := hg <;> simp [hg]

theorem versionRetry_due {n : Nat} (hg : w.given = .retry n) :
    exec (.versionWaitRetry s.ctx.id) s = .next (if n ≤ s.now then s.versionAgain s.ctx.id else s) := by
  obtain ⟨hwait, -⟩ := State.waitHere?_wait h.2.2.2.1
  show execVersionWaitRetry _ _ = _
  unfold execVersionWaitRetry Ctx.retryDue
  rw [State.findCtx_ctx]
  dsimp only
  rw [hwait]
  simp [hg]

theorem versionRetry_kept (hg : ∀ n, w.given ≠ .retry n) : exec (.versionWaitRetry s.ctx.id) s = .next s := by
  obtain ⟨hwait, -⟩ := State.waitHere?_wait h.2.2.2.1
  show execVersionWaitRetry _ _ = _
  unfold execVersionWaitRetry Ctx.retryDue
  rw [State.findCtx_ctx]
  dsimp only
  rw [hwait]
  cases hv : w.given with
  | retry n => exact absurd hv (hg n)
  | _ => simp [hv]

/-- A version load goes on at its wake, or at its retry, and at no other event (R107, R109). -/
theorem version_here {va : Word} {m v : Nat} (hk : w.kind = .version va m v) (hi : ∃ f, i = .vld f ∨ ∃ f, i = .vlds f) :
    ((w.given = .missing ∨ ∃ u, w.given = .line u) → Say.Again s (.versionWaitWake s.ctx.id) i ∧
      exec (.versionWaitRetry s.ctx.id) s = .next s) ∧
    (∀ n, w.given = .retry n → exec (.versionWaitWake s.ctx.id) s = .next s ∧
      (n ≤ s.now → Say.Again s (.versionWaitRetry s.ctx.id) i) ∧
      (s.now < n → exec (.versionWaitRetry s.ctx.id) s = .next s)) ∧
    (w.given = .nothing → exec (.versionWaitWake s.ctx.id) s = .next s ∧ exec (.versionWaitRetry s.ctx.id) s = .next s) := by
  obtain ⟨t, ht, hagain⟩ := versionAgain_here h hk hi
  refine ⟨fun hg => ⟨⟨t, ht, by rw [versionWake_given h hg, hagain]⟩, versionRetry_kept h fun n hn => ?_⟩,
    fun n hg => ⟨versionWake_kept h (.inr ⟨n, hg⟩), fun hn => ⟨t, ht, ?_⟩, fun hn => ?_⟩,
    fun hg => ⟨versionWake_kept h (.inl hg), versionRetry_kept h fun n hn => ?_⟩⟩
  · obtain hg | ⟨u, hg⟩ := hg <;> rw [hg] at hn <;> contradiction
  · rw [versionRetry_due h hg, if_pos hn, hagain]
  · rw [versionRetry_due h hg, if_neg (by omega)]
  · rw [hg] at hn
    contradiction

/-! ### Creations -/

/-- A creation is performed again, and fails past its limit where it has not been given its room (R103). -/
theorem creation_here {va : Word} {v : Nat} (hk : w.kind = .creation va v) :
    ((∃ f, i = .vst f ∨ ∃ f, i = .vsts f) → Say.Again s (.creationRetry (.ctx s.ctx.id)) i) ∧
    (w.given = .met → exec (.versionTimeout (.ctx s.ctx.id)) s = .next s) ∧
    (w.given ≠ .met → s.ctx.vwlim ≠ 0#20 → w.since + 1000 * s.ctx.vwlim.toNat ≤ s.now →
      exec (.versionTimeout (.ctx s.ctx.id)) s = .next ((s.fault (Cause.seq 0x0C#8 0
        (BitVec.ofNat 64 (va.toNat / 256 * 256)))).focus s.ctx.id)) ∧
    (s.ctx.vwlim = 0#20 ∨ s.now < w.since + 1000 * s.ctx.vwlim.toNat →
      exec (.versionTimeout (.ctx s.ctx.id)) s = .next s) := by
  have hlate := creationLate_here h hk
  have hw := waiting_here h
  have idle (hno : s.creationLate s.ctx = false) : exec (.versionTimeout (.ctx s.ctx.id)) s = .next s := by
    refine congrArg Host.Outcome.next (carryOn_idle h (by rw [hk]) ?_)
    rw [waitKind_here h, hk]
    dsimp only
    rw [if_neg (by simp [hno])]
  refine ⟨fun hi => ?_, fun hg => idle (by simp [hlate, hg]), fun hg hl hn => ?_, fun hl => idle ?_⟩
  · obtain ⟨f, rfl | ⟨g, rfl⟩⟩ := hi
    · exact ⟨vstRun f s, rfl, congrArg Host.Outcome.next ((carryOn_here h (by rw [hk]) _ _).trans (by rw [hw]))⟩
    · exact ⟨vstsRun g s, rfl, congrArg Host.Outcome.next ((carryOn_here h (by rw [hk]) _ _).trans (by rw [hw]))⟩
  · refine congrArg Host.Outcome.next ((carryOn_here h (by rw [hk]) _ _).trans ?_)
    have hyes : s.creationLate s.ctx = true := by simp [hlate, hg, hl, hn]
    rw [waitKind_here h, hk]
    dsimp only
    rw [if_pos hyes]
    rfl
  · rw [hlate]
    obtain hl | hl := hl
    · simp [hl]
    · simp [hl]

/-- No event of another kind touches the waiting context. -/
theorem otherWait_kept (hk : w.kind = .other) {ev : Instr} (hev : ev ∈ [Instr.cwaitSatisfied s.ctx.id, .waittExpiry s.ctx.id,
    .gwaitSatisfied s.ctx.id, .queueEntryDelivered s.ctx.id, .creationRetry (.ctx s.ctx.id), .versionTimeout (.ctx s.ctx.id)]) :
    exec ev s = .next s := by
  simp only [List.mem_cons, List.not_mem_nil, or_false] at hev
  obtain rfl | rfl | rfl | rfl | rfl | rfl := hev
  all_goals exact congrArg Host.Outcome.next (carryOn_other h (by rw [hk]) _ _)

end

/-! ### Parked tasks -/

theorem State.focus_frame (s : State) (k : Nat) : (s.focus k).mem = s.mem ∧ (s.focus k).tasks = s.tasks ∧
    (s.focus k).now = s.now ∧ (s.focus k).voff = s.voff := by
  unfold State.focus
  split
  · exact ⟨rfl, rfl, rfl, rfl⟩
  · split <;> exact ⟨rfl, rfl, rfl, rfl⟩

/-- Replacing a task leaves those of other numbers. -/
theorem find?_replaceTask_ne {l : List Task} {k : Task} {m : Nat} (h : m ≠ k.id) :
    (l.map (fun j => if j.id = k.id then k else j)).find? (fun t => t.id == m) = l.find? (fun t => t.id == m) := by
  induction l with
  | nil => rfl
  | cons t l ih =>
    rw [List.map_cons, List.find?_cons, List.find?_cons, ih]
    by_cases ht : t.id = k.id
    · have hk : (k.id == m) = false := beq_eq_false_iff_ne.mpr (Ne.symm h)
      simp [ht, hk]
    · simp [ht]

theorem State.findTask_id {n : Nat} {k : Task} (h : s.findTask n = some k) : k.id = n := by
  simpa using List.find?_some h

/-- A task made READY, every other left as it is but for the heap (R332, R333). -/
theorem State.readyTask_done {n : Nat} {k : Task} (h : s.findTask n = some k) :
    Say.TaskDone s (s.readyTask k) n (fun u => u.state = .ready) := by
  have hid := State.findTask_id h
  unfold Say.TaskDone State.readyTask
  refine ⟨?_, fun m hm => ?_⟩
  · have hput : (s.putTask { k with state := .ready, overflow := true, paused := s.vdPaused k.vdn }).findTask n =
        some { k with state := .ready, overflow := true, paused := s.vdPaused k.vdn } := find?_replaceTask h hid rfl
    have hset := State.findTask_settleHeap (g := Task.state) (fun _ _ => rfl)
      (s.putTask { k with state := .ready, overflow := true, paused := s.vdPaused k.vdn }) k.runPart n
    rw [hput] at hset
    exact Option.map_eq_some_iff.mp hset
  · refine (State.findTask_settleHeap (fun _ _ => rfl) _ _ m).trans (congrArg (Option.map _) ?_)
    exact find?_replaceTask_ne (k := { k with state := .ready, overflow := true, paused := s.vdPaused k.vdn })
      (by rw [← hid] at hm; exact hm)

/-- The event of a parked task's wait, met, makes the task READY (R19, R333). -/
theorem carryOn_parked {c n : Nat} {x : Ctx} {k : Task} (hx : s.findCtx c = some x) (hrun : s.running x = false)
    (hw : x.bank.wait = some w) (hpc : w.pc = x.pc) (hn : x.task = some n) (hk : s.findTask n = some k)
    (hst : k.state = .parked) {kind : Wait → Bool} (hkind : kind w.kind = true) {met : State → Bool}
    (hmet : met (s.focus c) = true) (go : State → State) :
    (s.carryOn c kind met go).mem = s.mem ∧ Say.TaskDone s (s.carryOn c kind met go) n (fun u => u.state = .ready) := by
  obtain ⟨hmem, htasks, -, -⟩ := s.focus_frame c
  have hkf : (s.focus c).findTask n = some k := by
    unfold State.findTask
    rw [htasks]
    exact hk
  have hun : (s.focus c).unpark c = (s.focus c).readyTask k := by
    unfold State.unpark
    rw [State.findCtx_focus, hx]
    dsimp only
    rw [hn]
    dsimp only
    rw [hkf]
    exact if_pos hst
  have hall : s.carryOn c kind met go = ((s.focus c).readyTask k).focus s.ctx.id := by
    unfold State.carryOn State.onCtx
    rw [hx]
    dsimp only
    rw [hw, hrun, hmet, hun]
    simp [hpc, hkind]
  obtain ⟨hmem', htasks', -, -⟩ := ((s.focus c).readyTask k).focus_frame s.ctx.id
  obtain ⟨hdone, hother⟩ := State.readyTask_done hkf
  rw [hall]
  refine ⟨hmem'.trans hmem, ?_, fun m hm => ?_⟩
  · unfold State.findTask at *
    rw [htasks']
    exact hdone
  · have h := hother m hm
    unfold State.findTask at *
    rw [htasks', h, htasks]

theorem parked_wakes {c n : Nat} {x : Ctx} {k : Task} (hx : s.findCtx c = some x) (hrun : s.running x = false)
    (hw : x.bank.wait = some w) (hpc : w.pc = x.pc) (hn : x.task = some n) (hk : s.findTask n = some k)
    (hst : k.state = .parked) :
    (∀ pa v, w.kind = .counter pa v → v.toNat ≤ s.natAt pa 8 → ∃ t, exec (.cwaitSatisfied c) s = .next t ∧
      t.mem = s.mem ∧ Say.TaskDone s t n (fun u => u.state = .ready)) ∧
    (∀ v, w.kind = .time v → v.toNat ≤ (Say.guest s x.vdn.toNat).toNat → ∃ t, exec (.waittExpiry c) s = .next t ∧
      t.mem = s.mem ∧ Say.TaskDone s t n (fun u => u.state = .ready)) := by
  obtain ⟨hmem, -, hnow, hvoff⟩ := s.focus_frame c
  have hctx := State.focus_ctx hx
  have hhere : (s.focus c).waitHere? = some w := by
    unfold State.waitHere? State.bank
    rw [hctx, hw]
    exact if_pos hpc
  refine ⟨fun pa v hkind hv => ⟨_, rfl, carryOn_parked hx hrun hw hpc hn hk hst (by rw [hkind]) ?_ _⟩,
    fun v hkind hv => ⟨_, rfl, carryOn_parked hx hrun hw hpc hn hk hst (by rw [hkind]) ?_ _⟩⟩
  · unfold State.counterMet
    rw [hhere]
    dsimp only
    rw [hkind]
    dsimp only
    rw [State.natAt_of_mem hmem]
    simp [hv]
  · unfold State.timeMet State.waitKind State.guest
    rw [hhere, Option.map_some, hkind, hctx, hnow, hvoff]
    exact decide_eq_true hv

/-! ### Copy channels that wait for room -/

/-- A step of the focused context's own copy engine. -/
theorem asCopier_here (hid : s.ctx.id < 2 ^ 64) (f : State → State) : s.asCopier s.ctx.id f = (f s).focus s.ctx.id := by
  unfold State.asCopier State.onCtx
  rw [if_pos hid, State.findCtx_ctx, State.focus_self]

theorem copierUp_here (hid : s.ctx.id < 2 ^ 64) (hres : s.ctx.resident = true) : s.copierUp s.ctx.id = true := by
  unfold State.copierUp
  rw [if_pos hid, State.findCtx_ctx]
  exact hres

theorem Chan.after_error (k : Chan) {code : Nat} (next : Nat) (h15 : code ≠ 15) (h0 : code ≠ 0) (h7 : code ≠ 7) :
    (k.after code next).run = false ∧ (k.after code next).err = true ∧ (k.after code next).ecode = BitVec.ofNat 8 code := by
  unfold Chan.after
  dsimp only
  rw [if_neg h15, if_pos ⟨h0, h7⟩]
  exact ⟨rfl, rfl, rfl⟩

/-- What ends a record leaves of its channel (R272, R280). -/
theorem State.endRecord_chan (s : State) (n a h : Nat) (e : RecEnd) :
    ∃ k : Chan, (s.endRecord n a h e).ctx.chan n = k.after e.code (bitsOf h 0 64) := by
  have hpmc (u : State) (v i n : Nat) : (u.pmcAgent v i n).ctx = u.ctx := by
    unfold State.pmcAgent
    split <;> rfl
  have hfree (u : State) : (u.freeReserve .copy).ctx = u.ctx := by
    unfold State.freeReserve
    dsimp only
    split <;> rfl
  have hcode (p : Prop) [Decidable p] : (if p then { e with bytes := 0 } else e).code = e.code := by split <;> rfl
  unfold State.endRecord
  extract_lets e1 s0 s1 s2 s3
  refine ⟨s2.ctx.chan n, ?_⟩
  rw [hfree, hpmc]
  refine (Sparse.get_set_self (fun _ => Chan.idle) _ n _).trans ?_
  rw [hcode]

/-- A record past its limit ends with code 11, its channel in ERROR (R103, R280). -/
theorem lateRecord_ends {ch since lim a h : Nat} (hph : (s.ctx.chan ch).phase = .version since lim) (hl : lim ≠ 0)
    (hn : since + lim ≤ s.now) (hrec : s.curRecord ch = some (a, h)) :
    ∃ u, s.lateRecord ch = u ∧ u.ctx.id = s.ctx.id ∧ (u.ctx.chan ch).run = false ∧ (u.ctx.chan ch).err = true ∧
      (u.ctx.chan ch).ecode = 11#8 := by
  have hlate : (s.ctx.chan ch).late s.now = true := by
    unfold Chan.late
    rw [hph]
    simp [hl, hn]
  have heq : s.lateRecord ch = s.endRecord ch a h ((s.ctx.chan ch).ending 11 0) := by
    unfold State.lateRecord
    rw [if_pos hlate, hrec]
  obtain ⟨k, hk⟩ := s.endRecord_chan ch a h ((s.ctx.chan ch).ending 11 0)
  obtain ⟨h1, h2, h3⟩ := k.after_error (code := 11) (bitsOf h 0 64) (by decide) (by decide) (by decide)
  have hid := ((State.Stays.refl s).endRecord ch a h ((s.ctx.chan ch).ending 11 0)).2.id
  refine ⟨_, heq, hid, ?_⟩
  rw [hk]
  exact ⟨h1, h2, h3⟩

theorem channel_late {ch since lim a h : Nat} {ev : Instr}
    (hev : ev ∈ [Instr.versionTimeout (.channel s.ctx.id ch), .creationRetry (.channel s.ctx.id ch)])
    (hid : s.ctx.id < 2 ^ 64) (hres : s.ctx.resident = true) (hph : (s.ctx.chan ch).phase = .version since lim) (hl : lim ≠ 0)
    (hn : since + lim ≤ s.now) (hrec : s.curRecord ch = some (a, h)) :
    ∃ t, exec ev s = .next t ∧ (t.ctx.chan ch).run = false ∧ (t.ctx.chan ch).err = true ∧ (t.ctx.chan ch).ecode = 11#8 := by
  obtain ⟨u, hu, huid, hchan⟩ := lateRecord_ends hph hl hn hrec
  have hlate : (s.ctx.chan ch).late s.now = true := by
    unfold Chan.late
    rw [hph]
    simp [hl, hn]
  have hup := copierUp_here hid hres
  refine ⟨u, ?_, hchan⟩
  simp only [List.mem_cons, List.not_mem_nil, or_false] at hev
  obtain rfl | rfl := hev
  · refine congrArg Host.Outcome.next ((if_pos hup).trans ((asCopier_here hid _).trans ?_))
    rw [hu, ← huid, State.focus_self]
  · refine congrArg Host.Outcome.next ((if_pos hup).trans ((asCopier_here hid _).trans ?_))
    rw [hph]
    dsimp only
    rw [if_pos hlate, hu, ← huid, State.focus_self]

theorem channel_retries {ch since lim : Nat} (hid : s.ctx.id < 2 ^ 64) (hres : s.ctx.resident = true)
    (hph : (s.ctx.chan ch).phase = .version since lim) (hl : lim = 0 ∨ s.now < since + lim) :
    exec (.creationRetry (.channel s.ctx.id ch)) s = .next ((s.runRecord ch []).focus s.ctx.id) := by
  have hlate : (s.ctx.chan ch).late s.now = false := by
    unfold Chan.late
    rw [hph]
    obtain hl | hl := hl
    · simp [hl]
    · simp [hl]
  refine congrArg Host.Outcome.next ((if_pos (copierUp_here hid hres)).trans ((asCopier_here hid _).trans ?_))
  rw [hph]
  dsimp only
  rw [if_neg (by simp [hlate])]

end

end Sys2Proof.Machine

namespace Sys2Proof
open Machine

/-- Settles O40: an event of the focused context's kind of wait carries its instruction on, every other one changes nothing, and
the limit of a copied creation ends its record. -/
theorem waitsEndWhenTheyAreMet : Obligations.WaitsEndWhenTheyAreMet := by
  intro s
  dsimp only
  refine ⟨fun w i h => ⟨fun pa v f hk hi => cwaitSatisfied_here h hk hi, fun v f hk hi => waittExpiry_here h hk hi,
      fun g k f hk hi => gwaitSatisfied_here h hk hi, fun d r q f hk hi hq => qpop_here h hk hi hq,
      fun d n r q s1 v hk hq hp hn hpop => boundPop_comes h hk hq hp hn hpop, fun d n r v hk hv => boundPop_held h hk hv,
      fun va m v hk hi => version_here h hk hi, fun va v hk => creation_here h hk, fun hk ev hev => otherWait_kept h hk hev⟩,
    fun c x w n k hx hrun hw hpc hn hk hst => parked_wakes hx hrun hw hpc hn hk hst,
    fun ch since lim a h ev hev hid hres hph hl hn hrec => channel_late hev hid hres hph hl hn hrec,
    fun ch since lim hid hres hph hl => channel_retries hid hres hph hl⟩

end Sys2Proof
end
section
/-! # Time slices and the quarantine's rotation

Placing, stopping and completing tasks leave package time and the rotation's turn, so that a rotation that is due leaves
the turn that it sets (R397); a slice's end and start post a pre-emption or move the slice (R383). -/

namespace Sys2Proof.Machine

section
variable {s t : State}

/-! ### The turn -/

theorem State.turn_focus (s : State) (k : Nat) : (s.focus k).turn = s.turn := by
  unfold State.focus
  split
  · rfl
  · split <;> rfl

theorem State.turn_onCtx {f : State → State} (hf : ∀ u : State, (f u).turn = u.turn) (s : State) (k : Nat) :
    (s.onCtx k f).turn = s.turn := by
  unfold State.onCtx
  split
  · rfl
  · exact (State.turn_focus _ _).trans ((hf _).trans (State.turn_focus _ _))

theorem State.turn_foldl {β : Type} {f : State → β → State} (hf : ∀ (u : State) x, (f u x).turn = u.turn) (l : List β) (s : State) :
    (l.foldl f s).turn = s.turn :=
  foldl_rel (R := fun a b : State => b.turn = a.turn) (fun _ => rfl) (fun h h' => h'.trans h) hf l s

theorem State.turn_writeBack (s : State) (p : Nat → L1Byte → Bool) : (s.writeBack p).turn = s.turn :=
  ((State.Stays.refl s).writeBack p).1

theorem State.turn_restedL1 (s : State) : s.restedL1.turn = s.turn :=
  have hset (u : State) (c : Ctx) : ({ u.setL1 [] with ctx := c } : State).turn = u.turn := rfl
  (hset _ _).trans (s.turn_writeBack (fun _ _ => true))

theorem State.turn_cleanL1 (s : State) (k : Nat) : (s.cleanL1 k).turn = s.turn := State.turn_onCtx State.turn_restedL1 s k

theorem State.turn_writeArea (s : State) (c : Ctx) : (s.writeArea c).turn = s.turn := by
  unfold State.writeArea
  exact State.turn_foldl (fun u e => ((State.Stays.refl u).homeWrite _ _ _).1) _ _

theorem State.turn_saveFocus (s : State) : s.saveFocus.turn = s.turn := by
  unfold State.saveFocus
  generalize List.range 16 = l
  extract_lets s1 c1 c2 s2 s3
  have hctx (u : State) (c : Ctx) : ({ u with ctx := c } : State).turn = u.turn := rfl
  have h1 : s1.turn = s.turn := s.turn_writeBack (fun _ _ => true)
  exact (hctx s3 _).trans ((s2.turn_writeArea c2).trans ((hctx s1 c2).trans h1))

theorem State.turn_leaveCore (s : State) (k : Nat) : (s.leaveCore k).turn = s.turn := State.turn_onCtx State.turn_saveFocus s k

theorem State.turn_displace (l : List Nat) (s : State) (k : Nat) : (State.displace l s k).turn = s.turn := by
  unfold State.displace
  split
  · rfl
  · split
    · split
      · refine (State.turn_cleanL1 _ k).trans ?_
        split
        · split
          · rfl
          · exact s.turn_leaveCore _
        · rfl
      · rfl
    · rfl

theorem State.turn_preemptTask (s : State) (l : List Nat) (k : Task) : (s.preemptTask l k).turn = s.turn :=
  have hready (u : State) : ((u.readyTask k).pmcAdd k.vdn 15 1).turn = u.turn := rfl
  (hready _).trans (State.turn_foldl (State.turn_displace l) k.members s)

theorem State.turn_putCtx (s : State) (c : Ctx) : (s.putCtx c).turn = s.turn := by
  unfold State.putCtx
  split <;> rfl

theorem State.turn_addCtx (s : State) (c : Ctx) : (s.addCtx c).turn = s.turn := by
  unfold State.addCtx
  split <;> rfl

theorem State.turn_mapCtx (s : State) (k : Nat) (f : Ctx → Ctx) : (s.mapCtx k f).turn = s.turn := by
  unfold State.mapCtx
  split
  · exact s.turn_putCtx _
  · rfl

theorem State.turn_placeCtx (s : State) (k p n : Nat) : (s.placeCtx k p n).turn = s.turn := by
  unfold State.placeCtx
  split
  · rfl
  · extract_lets c1 t15 c2 s1 s2
    have h2 : s2.turn = s.turn := by
      show (match (s1.coreSlot p).run with | some o => s1.displace [] o | none => s1).turn = s.turn
      split
      · exact State.turn_displace [] s1 _
      · rfl
    exact (State.turn_putCtx _ _).trans h2

theorem State.turn_completeTask (s : State) (k cause : Nat) : (s.completeTask k cause).turn = s.turn :=
  ((State.Holds.refl s).completeTask k cause).1

theorem State.turn_admission (s : State) (p : Nat) : (s.admission p).turn = s.turn := ((State.Holds.refl s).admission p).1

theorem State.turn_loseCtx (s : State) (c : Ctx) : (s.loseCtx c).turn = s.turn := by
  unfold State.loseCtx
  extract_lets s1
  have h1 : s1.turn = s.turn :=
    ((State.Stays.refl _).postSteward _ _).1.trans (s.turn_mapCtx c.id (fun x => { x with held := true }))
  split
  · exact (s1.turn_completeTask _ _).trans h1
  · exact h1

theorem State.turn_dispatch (s : State) (k : Task) (ks : List Nat) (lvl : Nat) (pc : Word) :
    (s.dispatch k ks lvl pc).turn = s.turn := by
  unfold State.dispatch
  split
  · extract_lets s1
    have h1 : s1.turn = s.turn := State.turn_foldl (fun u mk => u.turn_placeCtx _ _ _) _ s
    exact (State.turn_admission _ _).trans h1
  · extract_lets slots order cs ids s0 s1
    have h1 : s1.turn = s.turn := by
      refine (State.turn_foldl (fun u c => ?_) cs s0).trans rfl
      refine (State.turn_addCtx _ c).trans ?_
      show (match (u.coreSlot c.core).run with | some o => u.displace [] o | none => u).turn = u.turn
      split
      · exact State.turn_displace [] u _
      · rfl
    exact (State.turn_admission _ _).trans h1

theorem State.turn_consider (s : State) (taken : List Nat) (k : Task) : (s.consider taken k).1.turn = s.turn := by
  unfold State.consider
  extract_lets need lvl free idles cs
  split
  · rfl
  · split
    · rfl
    · split
      · exact State.turn_completeTask _ _ _
      · split
        · exact s.turn_loseCtx _
        · extract_lets best
          split
          extract_lets us
          split
          · rfl
          · exact (State.turn_dispatch _ _ _ _ _).trans (State.turn_foldl (fun u x => u.turn_preemptTask _ x) _ s)

theorem State.turn_selectLoop (p die n : Nat) (seen taken : List Nat) (s : State) :
    (State.selectLoop p die n seen taken s).turn = s.turn := by
  induction n generalizing seen taken s with
  | zero => rfl
  | succ n ih =>
    unfold State.selectLoop
    split
    · rfl
    · exact (ih _ _ _).trans (s.turn_consider _ _)

theorem State.turn_select (s : State) (p die : Nat) : (s.select p die).turn = s.turn := State.turn_selectLoop _ _ _ _ _ _

/-- A rotation that is due makes the next demoted queue the current one (R397). -/
theorem quarantineRotation_turns {i die : Nat} (hi : s.nextDemoted = some i) (ha : (s.die die).alive = true)
    (hdue : s.demAt + 1000000 ≤ s.now) (hshut : ∀ u ∈ s.tasks, u.cls = 3 → u.state = .running → ∀ m ∈ u.members, ∀ c,
      s.findCtx m = some c → c.thnd = false ∧ c.shnd = false) :
    ∃ t, exec (.quarantineRotation die) s = .next t ∧ t.demCur = i ∧ t.demAt = s.now ∧ t.demoted = s.demoted := by
  let runs := s.tasks.filter (fun t => t.cls == 3 && t.state == .running)
  have hopen : runs.any (fun t => t.members.any (fun m => (s.findCtx m).any Ctx.inHandler)) = false := by
    rw [List.any_eq_false]
    intro u hu
    obtain ⟨hmem, hcls⟩ := List.mem_filter.mp hu
    simp only [Bool.and_eq_true, beq_iff_eq] at hcls
    rw [Bool.not_eq_true, List.any_eq_false]
    intro m hm
    cases hc : s.findCtx m with
    | none => simp
    | some c =>
      obtain ⟨h1, h2⟩ := hshut u hmem hcls.1 hcls.2 m hm c hc
      simp [Ctx.inHandler, h1, h2]
  let s1 := runs.foldl (fun s t => s.preemptTask [] t) s
  let s2 : State := { s1 with demCur := i, demAt := s1.now }
  have h1 : s1.turn = s.turn := State.turn_foldl (fun u k => u.turn_preemptTask [] k) runs s
  have hend : ((s2.select 15 0).select 15 1).turn = (s1.now, i, s1.now, s1.demoted) :=
    (State.turn_select _ _ _).trans (State.turn_select _ _ _)
  have hexec : exec (.quarantineRotation die) s = .next ((s2.select 15 0).select 15 1) := by
    show execQuarantineRotation die s = _
    unfold execQuarantineRotation
    rw [hi]
    refine congrArg Host.Outcome.next (if_neg ?_)
    simp only [hdue, decide_true, Bool.true_or, ha, Bool.true_eq_false, false_or, or_false]
    rw [hopen]
    decide
  simp only [State.turn, Prod.mk.injEq] at h1 hend
  obtain ⟨hn1, -, -, hd1⟩ := h1
  obtain ⟨-, hcur, hat, hdem⟩ := hend
  exact ⟨_, hexec, hcur, hat.trans hn1, hdem.trans hd1⟩

/-! ### Slices -/

/-- A cause posted stands among the posted ones, or one of its code does. -/
theorem Ctx.post_has (c : Ctx) (p : Posted) : ∃ q ∈ (c.post p).posted, q.code = p.code := by
  unfold Ctx.post
  split
  · rename_i h
    obtain ⟨q, hq, hcode⟩ := List.any_eq_true.mp h
    simp only [Bool.and_eq_true, beq_iff_eq] at hcode
    exact ⟨q, hq, hcode.1⟩
  · exact ⟨p, by simp, rfl⟩

/-- PREEMPT posted to a running context of a device whose slice is over (R383). -/
theorem State.sliceOut_running {c : Ctx} (hf : s.findCtx c.id = some c) (hrun : s.running c = true) (till : Nat) :
    Say.Pending (State.sliceOut till s c) c.id 0x12#8 ∧ (State.sliceOut till s c).mem = s.mem ∧
    (State.sliceOut till s c).slices = s.slices := by
  let p : Posted := { code := cPREEMPT, sub := 0#8, val := BitVec.ofNat 64 till, unit := 0, ch := 0 }
  have hout : State.sliceOut till s c = s.post c.id p := if_pos hrun
  have hid (x : Ctx) : (x.post p).id = x.id := (x.post_frame p).1
  have hmap : s.post c.id p = s.putCtx (c.post p) := by
    unfold State.post State.mapCtx
    rw [hf]
  rw [hout]
  refine ⟨⟨c.post p, ?_, c.post_has p⟩, ?_⟩
  · rw [State.post, State.findCtx_mapCtx hid, if_pos rfl, hf]
    rfl
  · rw [hmap]
    unfold State.putCtx
    split <;> exact ⟨rfl, rfl⟩

theorem State.slice_setSlice (s : State) (p : Nat) (x : Option SliceSt) : (s.setSlice p x).slice p = x :=
  Sparse.get_set_self _ _ _ _

theorem State.slice_of_slices (h : t.slices = s.slices) (p : Nat) : t.slice p = s.slice p := by
  unfold State.slice
  rw [h]

/-- The end of a slice that has run its length (R383). -/
theorem sliceEnd_ends {p : Nat} {x : SliceSt} {c : Ctx} (hx : s.slice p = some x) (he : x.ended = false)
    (hvs : 2 ≤ (s.devicesOf p).length) (hn : x.start + 1000 * s.cfgField (0x5C0 + x.vdn) 36 20 ≤ s.now)
    (hres : s.residents x.vdn = [c]) (hrun : s.running c = true) (hf : s.findCtx c.id = some c) :
    ∃ t, exec (.sliceEnd p) s = .next t ∧ t.slice p = some { x with ended := true } ∧ Say.Pending t c.id 0x12#8 ∧
      t.mem = s.mem := by
  let till := x.start + 1000 * s.cfgField (0x5C0 + x.vdn) 36 20
  obtain ⟨hpend, hmem, hsl⟩ := State.sliceOut_running (s := s.setSlice p (some { x with ended := true })) hf hrun till
  have hexec : exec (.sliceEnd p) s = .next (State.sliceOut till (s.setSlice p (some { x with ended := true })) c) := by
    show execSliceEnd p s = _
    unfold execSliceEnd
    rw [hx]
    refine congrArg Host.Outcome.next ((if_pos ⟨he, hvs, hn⟩).trans ?_)
    rw [hres]
    rfl
  exact ⟨_, hexec, (State.slice_of_slices hsl p).trans (s.slice_setSlice p _), hpend, hmem⟩

/-! ### The start of a slice -/

theorem State.devicesOf_sorted (s : State) (p : Nat) : (s.devicesOf p).Pairwise (· < ·) :=
  List.pairwise_lt_range.filter _

/-- Of the lists of distinct keys, only one of which is not empty. -/
theorem flatMap_single {α : Type} {f : Nat → List α} {l : List Nat} {w : Nat} (hl : l.Nodup) (hw : w ∈ l)
    (h : ∀ v ∈ l, v ≠ w → f v = []) : l.flatMap f = f w := by
  induction l with
  | nil => contradiction
  | cons v l ih =>
    obtain ⟨hv, hl⟩ := List.nodup_cons.mp hl
    rw [List.flatMap_cons]
    by_cases hvw : v = w
    · have hrest : l.flatMap f = [] :=
        List.flatMap_eq_nil_iff.mpr fun u hu => h u (by simp [hu]) (fun e => hv (hvw.trans e.symm ▸ hu))
      rw [hvw, hrest, List.append_nil]
    · have hin : w ∈ l := (List.mem_cons.mp hw).resolve_left (Ne.symm hvw)
      rw [h v (by simp) hvw, List.nil_append]
      exact ih hl hin fun u hu => h u (by simp [hu])

/-- The device that follows is the next in ascending order, the first after the last (R383). -/
theorem nextDevice_next {vs : List Nat} (hs : vs.Pairwise (· < ·)) (hne : vs ≠ []) (x : Nat) :
    ∃ v ∈ vs, nextDevice vs x = some v ∧
      ((x < v ∧ ∀ w ∈ vs, x < w → v ≤ w) ∨ ((∀ w ∈ vs, w ≤ x) ∧ vs.head? = some v)) := by
  unfold nextDevice
  cases hfind : vs.find? (fun w => decide (x < w)) with
  | none =>
    obtain ⟨v, vs', rfl⟩ := List.exists_cons_of_ne_nil hne
    refine ⟨v, by simp, rfl, .inr ⟨fun w hw => ?_, rfl⟩⟩
    have := List.find?_eq_none.mp hfind w hw
    simpa using this
  | some v =>
    obtain ⟨hv, as, bs, rfl, has⟩ := List.find?_eq_some_iff_append.mp hfind
    refine ⟨v, by simp, rfl, .inl ⟨by simpa using hv, fun w hw hxw => ?_⟩⟩
    obtain hw | hw := List.mem_append.mp hw
    · have := has w hw
      simp [hxw] at this
    · obtain rfl | hw := List.mem_cons.mp hw
      · exact le_rfl
      · have hpair := List.pairwise_append.mp hs
        exact Nat.le_of_lt (List.rel_of_pairwise_cons hpair.2.1 hw)

/-- What a start of a slice does, by the number of devices and the slice that there is (R383). -/
theorem sliceStart_none {p : Nat} (hvs : 2 ≤ (s.devicesOf p).length) (hx : s.slice p = none) : exec (.sliceStart p) s =
    .next (if (((s.devicesOf p).drop 1).flatMap s.residents).isEmpty then
      s.setSlice p ((s.devicesOf p).head?.map (fun v => { vdn := v, start := s.now, ended := false }))
      else (((s.devicesOf p).drop 1).flatMap s.residents).foldl (State.sliceOut s.now) s) := by
  show execSliceStart p s = _
  unfold execSliceStart
  dsimp only
  rw [if_neg (by omega), hx]

theorem sliceStart_one {p : Nat} (hvs : (s.devicesOf p).length ≤ 1) : exec (.sliceStart p) s = .next (s.setSlice p none) :=
  if_pos hvs

theorem sliceStart_running {p : Nat} {x : SliceSt} (hvs : 2 ≤ (s.devicesOf p).length) (hx : s.slice p = some x)
    (he : x.ended = false) (hin : x.vdn ∈ s.devicesOf p) : exec (.sliceStart p) s = .next s := by
  have hpast : (x.ended || !(s.devicesOf p).contains x.vdn) = false := by
    rw [he, List.contains_iff_mem.mpr hin]
    rfl
  show execSliceStart p s = _
  unfold execSliceStart
  dsimp only
  rw [if_neg (by omega), hx]
  dsimp only
  rw [hpast]
  rfl

theorem sliceStart_past {p : Nat} {x : SliceSt} (hvs : 2 ≤ (s.devicesOf p).length) (hx : s.slice p = some x)
    (he : x.ended = true) (hres : s.residents x.vdn = []) : exec (.sliceStart p) s =
    .next (s.setSlice p ((nextDevice (s.devicesOf p) x.vdn).map (fun v => { vdn := v, start := s.now, ended := false }))) := by
  show execSliceStart p s = _
  unfold execSliceStart
  dsimp only
  rw [if_neg (by omega), hx]
  dsimp only
  rw [he, hres]
  simp only [List.filter_nil, List.foldl_nil, ite_self, hres]
  exact congrArg Host.Outcome.next (if_pos ⟨rfl, rfl⟩)

theorem State.sliceStart_next (s : State) (p : Nat) : ∃ t, exec (.sliceStart p) s = .next t := by
  show ∃ t, execSliceStart p s = .next t
  unfold execSliceStart
  dsimp only
  split
  · exact ⟨_, rfl⟩
  · split
    · exact ⟨_, rfl⟩
    · exact ⟨_, rfl⟩

/-- The start of a slice (R383). -/
theorem sliceStart_starts (s : State) (p : Nat) : ∃ t, exec (.sliceStart p) s = .next t ∧
    let vs := s.devicesOf p
    (vs.length ≤ 1 → t.slice p = none ∧ t.mem = s.mem ∧ t.ctx = s.ctx) ∧
    (2 ≤ vs.length → s.slice p = none → (∀ w ∈ vs, vs.head? ≠ some w → s.residents w = []) →
      (∃ v, vs.head? = some v ∧ t.slice p = some { vdn := v, start := s.now, ended := false }) ∧
        t.mem = s.mem ∧ t.ctx = s.ctx) ∧
    (∀ w (c : Ctx), 2 ≤ vs.length → s.slice p = none → w ∈ vs → vs.head? ≠ some w → s.residents w = [c] →
      (∀ v ∈ vs, vs.head? ≠ some v → v ≠ w → s.residents v = []) → s.running c = true → s.findCtx c.id = some c →
      t.slice p = none ∧ Say.Pending t c.id 0x12#8 ∧ t.mem = s.mem) ∧
    (∀ x, 2 ≤ vs.length → s.slice p = some x → x.ended = true → s.residents x.vdn = [] →
      t.mem = s.mem ∧ t.ctx = s.ctx ∧ ∃ v ∈ vs, t.slice p = some { vdn := v, start := s.now, ended := false } ∧
        ((x.vdn < v ∧ ∀ w ∈ vs, x.vdn < w → v ≤ w) ∨ ((∀ w ∈ vs, w ≤ x.vdn) ∧ vs.head? = some v))) ∧
    (∀ x, 2 ≤ vs.length → s.slice p = some x → x.ended = false → x.vdn ∈ vs → t = s) := by
  dsimp only
  by_cases hvs : (s.devicesOf p).length ≤ 1
  · exact ⟨_, sliceStart_one hvs, fun _ => ⟨s.slice_setSlice p none, rfl, rfl⟩, fun h => absurd hvs (by omega),
      fun _ _ h => absurd hvs (by omega), fun _ h => absurd hvs (by omega), fun _ h => absurd hvs (by omega)⟩
  · have h2 : 2 ≤ (s.devicesOf p).length := by omega
    have hne : s.devicesOf p ≠ [] := fun h => by rw [h] at h2; simp at h2
    cases hx : s.slice p with
    | none =>
      obtain ⟨v, vs, hcons⟩ := List.exists_cons_of_ne_nil hne
      have hsorted := s.devicesOf_sorted p
      have hstart := sliceStart_none h2 hx
      rw [hcons] at hsorted hstart ⊢
      rw [List.drop_one, List.tail_cons, List.head?_cons] at hstart
      have hnodup : vs.Nodup := (List.pairwise_cons.mp hsorted).2.imp Nat.ne_of_lt
      have hhead (u : Nat) (hu : u ∈ vs) : (v :: vs).head? ≠ some u := by
        have := (List.pairwise_cons.mp hsorted).1 u hu
        simpa using Nat.ne_of_lt this
      refine ⟨_, hstart, fun h => absurd h (by rw [← hcons]; omega), fun _ _ hw => ?_, fun w c _ _ hw hh hres hothers hrun hf => ?_,
        fun x _ h => by contradiction, fun x _ h => by contradiction⟩
      · have hnil : vs.flatMap s.residents = [] :=
          List.flatMap_eq_nil_iff.mpr fun u hu => hw u (by simp [hu]) (hhead u hu)
        rw [hnil]
        exact ⟨⟨v, rfl, s.slice_setSlice p _⟩, rfl, rfl⟩
      · have hin : w ∈ vs := (List.mem_cons.mp hw).resolve_left fun e => hh (by simp [e])
        have hone : vs.flatMap s.residents = [c] := by
          rw [flatMap_single hnodup hin fun u hu huw => hothers u (by simp [hu]) (hhead u hu) huw, hres]
        obtain ⟨hpend, hmem, hsl⟩ := State.sliceOut_running hf hrun s.now
        rw [hone]
        exact ⟨(State.slice_of_slices hsl p).trans hx, hpend, hmem⟩
    | some x =>
      by_cases he : x.ended = false
      · by_cases hin : x.vdn ∈ s.devicesOf p
        · refine ⟨s, sliceStart_running h2 hx he hin, fun h => absurd h hvs, fun _ h => by contradiction,
            fun _ _ _ h => by contradiction, fun y _ hy hye => ?_, fun _ _ _ _ _ => rfl⟩
          obtain rfl := Option.some.inj hy
          exact absurd he (by simp [hye])
        · obtain ⟨t, ht⟩ := s.sliceStart_next p
          refine ⟨t, ht, fun h => absurd h hvs, fun _ h => by contradiction, fun _ _ _ h => by contradiction,
            fun y _ hy hye => ?_, fun y _ hy _ hyin => ?_⟩
          all_goals obtain rfl := Option.some.inj hy
          · exact absurd he (by simp [hye])
          · exact absurd hyin hin
      · have hended : x.ended = true := by simpa using he
        by_cases hres : s.residents x.vdn = []
        · obtain ⟨v, hv, hnext, horder⟩ := nextDevice_next (s.devicesOf_sorted p) hne x.vdn
          have hstart := sliceStart_past h2 hx hended hres
          rw [hnext] at hstart
          refine ⟨_, hstart, fun h => absurd h hvs, fun _ h => by contradiction, fun _ _ _ h => by contradiction,
            fun y _ hy _ _ => ?_, fun y _ hy hye => ?_⟩
          all_goals obtain rfl := Option.some.inj hy
          · exact ⟨rfl, rfl, v, hv, s.slice_setSlice p _, horder⟩
          · exact absurd hye he
        · obtain ⟨t, ht⟩ := s.sliceStart_next p
          refine ⟨t, ht, fun h => absurd h hvs, fun _ h => by contradiction, fun _ _ _ h => by contradiction,
            fun y _ hy _ hyres => ?_, fun y _ hy hye => ?_⟩
          all_goals obtain rfl := Option.some.inj hy
          · exact absurd hyres hres
          · exact absurd hye he

end

end Sys2Proof.Machine
end
section
/-! # The dispatch of a task on an empty partition

A selection in which one READY task finds one core: nothing is stopped, woken, placed or evicted before it, its heap entry
stands, the one cluster of the core is taken, and its member is created there (R17, R334, R335, R373). -/

namespace Sys2Proof.Machine

/-- One READY task of crew 1, not yet dispatched, the only one of the module, no core running and no context in the way; one
core is eligible for it. -/
structure State.Lone (s : State) (p die : Nat) (k : Task) (core sl : Nat) (rest : List Nat) (pc : Word) : Prop where
  tasks : s.tasks = [k]
  alive : (s.die die).alive = true
  enabled : s.partEnabled p = true
  may : s.mayConsider p die k = true
  crew : k.crew = 1
  fresh : k.dispatched = false
  members : k.members = []
  quota : 0 < s.cfgField (0x400 + p) 40 13
  entry : k.entry (s.qlevel k.part k.queue).level = some pc
  slots : s.freeSlots k.part = sl :: rest
  away : ∀ c ∈ s.allCtxs, c.resident = false ∧ (c.task = none → c.place ≠ .memory)
  idle : ∀ j, (s.coreSlot j).run = none
  real : core < 640
  fits : s.eligible k core = true
  only : ∀ j, s.eligible k j = true → j = core

section
variable {s : State} {p die core sl : Nat} {k : Task} {rest : List Nat} {pc : Word}

/-- What may be considered is a READY task of the partition and die, in the heap. -/
theorem State.mayConsider_parts (h : s.mayConsider p die k = true) :
    k.state = .ready ∧ k.runPart = p ∧ k.die = die ∧ k.overflow = false ∧ s.deviceMayRun k.part k.vdn = true := by
  unfold State.mayConsider at h
  simp only [Bool.and_eq_true, beq_iff_eq, Bool.not_eq_true'] at h
  obtain ⟨⟨⟨⟨⟨⟨h1, h2⟩, h3⟩, h4⟩, h5⟩, -⟩, -⟩ := h
  exact ⟨h1, h2, h3, h4, h5⟩

theorem State.mayConsider_running {k' : Task} (h : k'.state = .running) : s.mayConsider p die k' = false := by
  unfold State.mayConsider
  simp [h]

theorem State.not_running {c : Ctx} (h : c.resident = false) : s.running c = false := by
  unfold State.running
  unfold Ctx.resident at h
  split
  · rename_i hpl
    simp [hpl] at h
  · rfl

namespace State.Lone
variable (h : s.Lone p die k core sl rest pc)
include h

/-! ### Before the selection -/

theorem stopStragglers : s.stopStragglers = s := by
  have hnil : s.allCtxs.filter s.straggles = [] := by
    rw [List.filter_eq_nil_iff]
    intro c hc
    unfold State.straggles
    simp [State.not_running (h.away c hc).1]
  unfold State.stopStragglers
  rw [hnil]
  rfl

theorem wakeParked : s.wakeParked p die = s := by
  have hst := (State.mayConsider_parts h.may).1
  unfold State.wakeParked
  rw [h.tasks]
  simp [hst]

theorem evictStrangers : s.evictStrangers = s := by
  have hnil : s.allCtxs.filter (fun c => c.resident && s.movable c && s.ownerOf c.core != s.homePart c) = [] := by
    rw [List.filter_eq_nil_iff]
    intro c hc
    simp [(h.away c hc).1]
  unfold State.evictStrangers
  rw [hnil]
  rfl

theorem placeLoose : s.placeLoose p die = s := by
  have hnil : s.allCtxs.filter (fun c => c.task.isNone && c.place == .memory && !c.held && !c.halted && c.part.toNat == p &&
      (c.level == .steward || s.deviceMayRun p c.vdn.toNat)) = [] := by
    rw [List.filter_eq_nil_iff]
    intro c hc
    cases ht : c.task with
    | some n => simp
    | none => simp [(h.away c hc).2 ht]
  unfold State.placeLoose
  rw [hnil]
  rfl

theorem die_lt : k.die < 2 := by
  have hf := h.fits
  unfold State.eligible at hf
  simp only [Bool.and_eq_true, beq_iff_eq] at hf
  obtain ⟨⟨⟨-, hd⟩, -⟩, -⟩ := hf
  have hcore := h.real
  rw [← hd]
  simp only [dieOf, Config.coresPerDie]
  omega

/-- The task keeps its heap entry (R332). -/
theorem settleTasks : s.settleTasks p [k] = [k] := by
  obtain ⟨hst, hp, -, hov, hrun⟩ := State.mayConsider_parts h.may
  have hpause : s.vdPaused k.vdn = false := by
    unfold State.deviceMayRun at hrun
    simp only [Bool.and_eq_true, Bool.not_eq_true'] at hrun
    exact hrun.1
  have hq : k.queued = true := by simp [Task.queued, hst]
  obtain ⟨n, hn⟩ := Nat.exists_eq_add_of_lt h.quota
  have hsame : { k with overflow := false } = k := by rw [← hov]
  have hdie : k.die = 0 ∨ k.die = 1 := by
    have := h.die_lt
    omega
  unfold State.settleTasks
  rw [hn]
  obtain hd | hd := hdie
  · simpa [hp, hd, hq, hpause, sortBy, insertBy] using hsame
  · simpa [hp, hd, hq, hpause, sortBy, insertBy] using hsame

theorem settleHeap : s.settleHeap p = s := by
  unfold State.settleHeap
  rw [h.tasks, h.settleTasks, ← h.tasks]

/-! ### The core that the task takes -/

theorem core_owned : s.ownerOf core = k.runPart ∧ (s.coreSlot core).disabled = false ∧ dieOf core = k.die := by
  have hf := h.fits
  unfold State.eligible CoreSlot.fits at hf
  simp only [Bool.and_eq_true, beq_iff_eq, Bool.not_eq_true'] at hf
  obtain ⟨⟨⟨ho, hd⟩, hk⟩, -⟩ := hf
  exact ⟨ho, hk.1.1.1, hd⟩

theorem idleCore (j : Nat) : s.idle j = true := by
  unfold State.idle
  rw [h.idle j]
  rfl

/-- The cores of a cluster that are free for the task: the one core, in its cluster. -/
theorem freeCores (c : Nat) : (s.clusterCores k.runPart c).filter (fun j =>
    s.eligible k j && !([] : List Nat).contains j && (s.idle j || s.victimFor k j)) = if c = core / 16 then [core] else [] := by
  obtain ⟨ho, hdis, -⟩ := h.core_owned
  have hone (j : Nat) : ((s.ownerOf j == k.runPart && !(s.coreSlot j).disabled) &&
      (s.eligible k j && !([] : List Nat).contains j && (s.idle j || s.victimFor k j))) = (j == core) := by
    by_cases hj : j = core
    · subst hj
      simp [ho, hdis, h.fits, h.idleCore j]
    · have hno : s.eligible k j = false := Bool.eq_false_iff.mpr fun he => hj (h.only j he)
      simp [hno, hj]
  have hnodup : ((List.range 16).map (fun i => 16 * c + i)).Nodup :=
    List.nodup_range.map fun a b hab => by omega
  have hmem : core ∈ (List.range 16).map (fun i => 16 * c + i) ↔ c = core / 16 := by
    rw [List.mem_map]
    constructor
    · rintro ⟨i, hi, rfl⟩
      rw [List.mem_range] at hi
      omega
    · intro hc
      exact ⟨core % 16, List.mem_range.mpr (by omega), by omega⟩
  unfold State.clusterCores
  rw [List.filter_filter]
  have hfun : (fun j => (s.eligible k j && !([] : List Nat).contains j && (s.idle j || s.victimFor k j)) &&
      (s.ownerOf j == k.runPart && !(s.coreSlot j).disabled)) = fun j => j == core := by
    funext j
    rw [Bool.and_comm]
    exact hone j
  rw [hfun, List.filter_beq]
  split
  · rename_i hc
    rw [List.count_eq_one_of_mem hnodup (hmem.mpr hc)]
    rfl
  · rename_i hc
    rw [List.count_eq_zero_of_not_mem (mt hmem.mp hc)]
    rfl

/-- The one cluster in which the task's crew can be gathered. -/
theorem clusters : (List.range 40).filter (fun c => c / 20 == k.die && decide (1 ≤ ((s.clusterCores k.runPart c).filter (fun j =>
    s.eligible k j && !([] : List Nat).contains j && (s.idle j || s.victimFor k j))).length)) = [core / 16] := by
  obtain ⟨-, -, hd⟩ := h.core_owned
  have hreal := h.real
  have hfun : (fun c => c / 20 == k.die && decide (1 ≤ ((s.clusterCores k.runPart c).filter (fun j =>
      s.eligible k j && !([] : List Nat).contains j && (s.idle j || s.victimFor k j))).length)) = fun c => c == core / 16 := by
    funext c
    rw [h.freeCores c]
    by_cases hc : c = core / 16
    · have hdie : core / 16 / 20 = k.die := by
        rw [← hd]
        simp only [dieOf, Config.coresPerDie]
        omega
      simp [hc, hdie]
    · simp [hc]
  rw [hfun, List.filter_beq, List.count_eq_one_of_mem List.nodup_range (List.mem_range.mpr (by omega))]
  rfl

theorem coresFor : s.coresFor k 1 [core] = ([core], []) := by
  unfold State.coresFor
  simp [h.members, h.idleCore, sortBy]

/-- The task is dispatched onto the core. -/
theorem consider : s.consider [] k = (s.dispatch k [core] (s.qlevel k.part k.queue).level pc, []) := by
  have hcs := h.clusters
  have hfree := h.freeCores
  unfold State.consider
  rw [h.fresh, h.crew]
  simp only [Bool.false_eq_true, if_false]
  rw [hcs, h.entry, h.slots, h.members]
  dsimp only
  rw [if_neg (by simp)]
  simp only [List.filterMap_nil, List.find?_nil, List.foldl_nil, hfree, if_true, h.coresFor, List.any_nil, Bool.false_eq_true,
    if_false]

/-- The selection is the dispatch. -/
theorem select : s.select p die = s.dispatch k [core] (s.qlevel k.part k.queue).level pc := by
  unfold State.select
  rw [h.settleHeap]
  dsimp only
  rw [h.tasks, List.length_singleton]
  unfold State.selectLoop
  have hfilter : [k].filter (fun t => s.mayConsider p die t && !([] : List Nat).contains t.id) = [k] := by simp [h.may]
  rw [h.tasks, hfilter]
  show State.selectLoop p die 0 _ _ (s.consider [] k).1 = _
  rw [h.consider]
  rfl

end State.Lone

/-! ### The dispatch -/

/-- The context that the one member begins in (R17, R373). -/
def State.firstMember (s : State) (k : Task) (core sl : Nat) (pc : Word) : Ctx :=
  s.entryCtx k sl 0 (s.qlevel k.part k.queue).level core pc

/-- The task once its member runs. -/
def State.dispatched (s : State) (k : Task) (id : Nat) : Task :=
  { k with state := .running, dispatched := true, disp := (s.qlevel k.part k.queue).level, members := [id], slots := [id]
           overflow := false }

/-- The module with the member on its core. -/
def State.manned (s : State) (core : Nat) (c : Ctx) : State :=
  (({ s with residues := s.residues.filter (fun x => !([c.id]).contains x.id) } : State).setCore core
    { s.coreSlot core with run := some c.id }).addCtx c

theorem State.firstMember_core : (s.firstMember k core sl pc).core = core := rfl

namespace State.Lone
variable (h : s.Lone p die k core sl rest pc)
include h

theorem dispatch : s.dispatch k [core] (s.qlevel k.part k.queue).level pc =
    ((((s.manned core (s.firstMember k core sl pc)).putTask (s.dispatched k (s.firstMember k core sl pc).id)).settleHeap
      k.runPart).admission k.runPart) := by
  unfold State.dispatch
  rw [if_neg (by simp [h.fresh])]
  extract_lets slots order cs ids s0 s1
  have hslots : slots = [sl] := by
    show (s.freeSlots k.part).take k.crew = [sl]
    rw [h.slots, h.crew]
    rfl
  have hcs : cs = [s.firstMember k core sl pc] := by
    show (List.range k.crew).map (fun i => s.entryCtx k (slots.getD i 0) i (s.qlevel k.part k.queue).level (order.getD i 0) pc) = _
    rw [h.crew, hslots]
    rfl
  have hids : ids = [(s.firstMember k core sl pc).id] := by
    show cs.map Ctx.id = _
    rw [hcs]
    rfl
  have hs1 : s1 = s.manned core (s.firstMember k core sl pc) := by
    have hrun : (s0.coreSlot (s.firstMember k core sl pc).core).run = none := h.idle core
    have hs0 : s0 = { s with residues := s.residues.filter (fun x => !([(s.firstMember k core sl pc).id]).contains x.id) } := by
      rw [← hids]
    show cs.foldl _ s0 = _
    rw [hcs, List.foldl_cons, List.foldl_nil]
    dsimp only
    rw [hrun]
    dsimp only
    rw [hs0]
    rfl
  rw [hs1, hids]
  rfl

end State.Lone

/-! ### What admission and the settling of a heap leave -/

/-- Contexts, cores and tasks of t are those of s. -/
def State.SamePlaces (s t : State) : Prop := t.ctx = s.ctx ∧ t.ctxs = s.ctxs ∧ t.cores = s.cores ∧ t.tasks = s.tasks

theorem State.SamePlaces.foldl {β : Type} {f : State → β → State} (hf : ∀ (u : State) x, u.SamePlaces (f u x)) (l : List β)
    (s : State) : s.SamePlaces (l.foldl f s) :=
  foldl_rel (fun _ => ⟨rfl, rfl, rfl, rfl⟩) (fun h h' => ⟨h'.1.trans h.1, h'.2.1.trans h.2.1, h'.2.2.1.trans h.2.2.1,
    h'.2.2.2.trans h.2.2.2⟩) hf l s

theorem State.setLevel_places (s : State) (die p q lvl : Nat) : s.SamePlaces (s.setLevel die p q lvl) := by
  unfold State.setLevel
  dsimp only
  split
  · exact ⟨rfl, rfl, rfl, rfl⟩
  · obtain ⟨m, k, c, d, h⟩ := (s.setQlevel p q { s.qlevel p q with level := lvl }).event_eq die 0x01 p
      (Sparse.get (fun _ => QCfg.zero) s.qcfgs (p * 64 + q)).vd (p * 256 + q) ((s.qlevel p q).level + 256 * lvl)
    rw [h]
    exact ⟨rfl, rfl, rfl, rfl⟩

theorem State.admitGroup_places (s : State) (p : Nat) (v : Option Nat) (num den : Nat) :
    s.SamePlaces (s.admitGroup p v num den) := by
  have hsame : s.SamePlaces s := ⟨rfl, rfl, rfl, rfl⟩
  have step (qs : List Nat) (up : Bool) : s.SamePlaces (s.stepLevels p qs up) := by
    unfold State.stepLevels
    dsimp only
    split
    · exact hsame
    · exact .foldl (fun u q => u.setLevel_places _ _ _ _) _ s
  unfold State.admitGroup
  extract_lets w qs ts d c
  split
  · exact step _ _
  · split
    · exact step _ _
    · exact hsame

theorem State.admission_places (s : State) (p : Nat) : s.SamePlaces (s.admission p) := by
  unfold State.admission
  dsimp only
  split
  · exact s.admitGroup_places _ _ _ _
  · exact .foldl (fun u v => u.admitGroup_places _ _ _ _) _ s

/-- A heap without queued tasks is left as it is. -/
theorem State.settleTasks_running {k' : Task} (h : k'.state = .running) (p : Nat) : s.settleTasks p [k'] = [k'] := by
  have hq : k'.queued = false := by simp [Task.queued, h]
  unfold State.settleTasks
  simp [hq]

/-! ### The end of the selection -/

/-- The module at the end of the selection. -/
def State.staffed (s : State) (k : Task) (core : Nat) (c : Ctx) : State :=
  (((s.manned core c).putTask (s.dispatched k c.id)).settleHeap k.runPart).admission k.runPart

theorem State.addCtx_places (s : State) (c : Ctx) : (s.addCtx c).cores = s.cores ∧ (s.addCtx c).tasks = s.tasks := by
  unfold State.addCtx
  split <;> exact ⟨rfl, rfl⟩

theorem State.coreSlot_of_cores {u t : State} (h : t.cores = u.cores) (j : Nat) : t.coreSlot j = u.coreSlot j := by
  unfold State.coreSlot
  rw [h]

theorem State.coreSlot_setCore (s : State) (j : Nat) (c : CoreSlot) : (s.setCore j c).coreSlot j = c :=
  Sparse.get_set_self _ _ _ _

namespace State.Lone
variable (h : s.Lone p die k core sl rest pc)
include h

theorem staffed_tasks (c : Ctx) : (s.staffed k core c).tasks = [s.dispatched k c.id] := by
  have hput : ((s.manned core c).putTask (s.dispatched k c.id)).tasks = [s.dispatched k c.id] := by
    have htasks : (s.manned core c).tasks = [k] := (State.addCtx_places _ c).2.trans h.tasks
    unfold State.putTask
    dsimp only
    rw [htasks]
    exact congrArg (fun x => [x]) (if_pos rfl)
  refine (State.admission_places _ _).2.2.2.trans ?_
  unfold State.settleHeap
  dsimp only
  rw [hput]
  exact State.settleTasks_running rfl _

omit h in
theorem staffed_ctx (c : Ctx) : (s.staffed k core c).findCtx c.id = some c := by
  obtain ⟨hc, hs, -, -⟩ := State.admission_places (((s.manned core c).putTask (s.dispatched k c.id)).settleHeap k.runPart)
    k.runPart
  have hput : (((s.manned core c).putTask (s.dispatched k c.id)).settleHeap k.runPart).findCtx c.id =
      (s.manned core c).findCtx c.id := rfl
  exact (State.findCtx_of_eq hc hs c.id).trans (hput.trans (State.findCtx_added _ c))

omit h in
theorem staffed_core (c : Ctx) : ((s.staffed k core c).coreSlot core).run = some c.id := by
  have hcores : (s.staffed k core c).cores = (({ s with residues := s.residues.filter (fun x => !([c.id]).contains x.id) } :
      State).setCore core { s.coreSlot core with run := some c.id }).cores :=
    (State.admission_places _ _).2.2.1.trans (State.addCtx_places _ c).1
  exact congrArg CoreSlot.run ((State.coreSlot_of_cores hcores core).trans (State.coreSlot_setCore _ _ _))

/-- The selection staffs the core, and nothing is left to place. -/
theorem selection : exec (.schedulerSelection p die) s = .next (s.staffed k core (s.firstMember k core sl pc)) := by
  have hsel : ((s.stopStragglers.wakeParked p die).evictStrangers.placeLoose p die).select p die =
      s.staffed k core (s.firstMember k core sl pc) := by
    rw [h.stopStragglers, h.wakeParked, h.evictStrangers, h.placeLoose, h.select, h.dispatch]
    rfl
  have hoffer : s.offer p die = s.staffed k core (s.firstMember k core sl pc) := by
    unfold State.offer
    dsimp only
    rw [hsel, h.staffed_tasks]
    refine if_neg ?_
    rw [List.any_cons, State.mayConsider_running rfl]
    simp
  exact congrArg Host.Outcome.next ((if_pos ⟨h.alive, h.enabled⟩).trans hoffer)

end State.Lone

/-! ### The member -/

theorem RegBank.getS_setS (b : RegBank) (r q : Nat) (v : SReg) :
    (b.setS r v).getS q = if q = r then v else b.getS q := by
  split
  · rename_i h
    rw [h, RegBank.getS_setS_self]
  · exact RegBank.getS_setS_ne b v ‹_›

/-- The registers of a member at its entry (R17). -/
theorem firstMember_regs (hc : k.crew = 1) (r : Nat) : (s.firstMember k core sl pc).base.getS r =
    { pois := false, bits := if r = 1 then k.arg else if r = 3 then 1#64
        else if r = 4 then BitVec.ofNat 64 (s.qlevel k.part k.queue).level else if r = 5 then k.record
        else if r = 61 then (s.qcfg k.part k.queue).tp
        else if r = 62 then (s.qcfg k.part k.queue).stack + BitVec.ofNat 64 (2 ^ (s.qcfg k.part k.queue).ssh * (sl + 1))
        else 0#64 } := by
  unfold State.firstMember State.entryCtx
  dsimp only
  simp only [RegBank.getS_setS, hc]
  by_cases h62 : r = 62
  · simp [h62]
  by_cases h61 : r = 61
  · simp [h61]
  by_cases h5 : r = 5
  · simp [h5]
  by_cases h4 : r = 4
  · simp [h4]
  by_cases h3 : r = 3
  · simp [h3]
  by_cases h1 : r = 1
  · simp [h1]
  simp only [h62, h61, h5, h4, h3, h1, if_false]
  split <;> rfl

/-- The token counts of a member at its entry, from the task's note (R17). -/
theorem firstMember_tokens {i : Nat} (hi : i < 8) :
    (s.firstMember k core sl pc).base.fifo.list[i]? = some (k.lnote.toNat / 16 ^ i % 16) := by
  have hfifo : (s.firstMember k core sl pc).base.fifo =
      fifosOf ((List.range 8).map (fun i => bitsOf k.lnote.toNat (4 * i) 4)) := rfl
  have hbits (j : Nat) : bitsOf k.lnote.toNat (4 * j) 4 = k.lnote.toNat / 16 ^ j % 16 := by
    unfold bitsOf
    rw [Nat.pow_mul]
    norm_num
  simp only [hbits] at hfifo
  rw [hfifo]
  interval_cases i <;> rfl

end

end Sys2Proof.Machine

namespace Sys2Proof
open Machine

/-- Settles O38: a selection with one task to place is one dispatch; a slice that ends or begins posts PREEMPT or moves to the next
device; and no placement moves the rotation's turn. -/
theorem coresAreGivenAndSliced : Obligations.CoresAreGivenAndSliced := by
  intro s p die
  refine ⟨fun k core sl rest pc ht ha he hm _ hcrew hfresh hmem hq hentry hslots haway hidle hreal hfits honly => ?_,
    fun x c hx he hvs hn hres hrun hf => sliceEnd_ends hx he hvs hn hres hrun hf, sliceStart_starts s p,
    fun i hi ha hdue hshut => quarantineRotation_turns hi ha hdue hshut⟩
  have h : s.Lone p die k core sl rest pc :=
    ⟨ht, ha, he, hm, hcrew, hfresh, hmem, hq, hentry, hslots, haway, hidle, hreal, hfits, honly⟩
  have htasks := h.staffed_tasks (s.firstMember k core sl pc)
  refine ⟨_, s.firstMember k core sl pc, h.selection, State.Lone.staffed_ctx _, State.Lone.staffed_core _,
    ⟨⟨s.dispatched k (s.firstMember k core sl pc).id, ?_, rfl, rfl, rfl, rfl⟩,
    fun m hmk => ?_⟩, rfl, rfl, rfl, rfl, rfl, rfl, fun r _ => firstMember_regs hcrew r, fun i hi => firstMember_tokens hi,
    rfl, rfl, rfl⟩
  · unfold State.findTask
    rw [htasks]
    exact List.find?_cons_of_pos (by simp [State.dispatched])
  · unfold State.findTask
    have hid : (s.dispatched k (s.firstMember k core sl pc).id).id = k.id := rfl
    rw [htasks, ht, List.find?_cons, List.find?_cons, hid, beq_eq_false_iff_ne.mpr (Ne.symm hmk)]

end Sys2Proof
end

section
/-! # What a scalar write and a retirement leave alone (O4) -/

namespace Sys2Proof.Machine

/-- A scalar write of the running bank: one slot of it, none for s0 (R38). -/
theorem State.wr_bank (s : State) (d : Reg) (v : SReg) :
    (s.wr d v).bank = if d = 0#6 then s.bank else s.bank.setS d.toNat v := by
  unfold State.wr Ctx.writeS State.bank
  split
  · rfl
  · exact Ctx.bank_setBank _ _

/-- It leaves everything of the bank but its scalar slots. -/
theorem State.wr_bank_frame (s : State) (d : Reg) (v : SReg) : { (s.wr d v).bank with s := s.bank.s } = s.bank := by
  rw [State.wr_bank]
  split <;> rfl

/-- A scalar write leaves everything of the context but the running bank. -/
theorem Ctx.writeS_setBank (c : Ctx) (d : Reg) (v : SReg) : (c.writeS d v).setBank c.bank = c := by
  unfold Ctx.writeS
  split
  · exact Ctx.setBank_bank c
  · rw [Ctx.setBank_setBank, Ctx.setBank_bank]

/-- A counter after another or the same one has been counted up (R308). -/
theorem State.pmcGet_pmcAdd (s : State) (v i n k : Nat) : (s.pmcAdd v i n).pmcGet (k / 16) (k % 16) =
    s.pmcGet (k / 16) (k % 16) + if k = v * 16 + i then BitVec.ofNat 64 n else 0#64 := by
  unfold State.pmcAdd State.pmcGet
  rw [Nat.div_add_mod' k 16, Sparse.get_set]
  split
  · rename_i h; rw [h]
  · simp

end Sys2Proof.Machine

namespace Sys2Proof
open Machine

/-- Settles O4. -/
theorem retirementFrame : Obligations.RetirementFrame := by
  intro s d r v pc hd t
  have hb : t.bank = { (s.wr d v).bank with wait := none } := State.goOn_bank _ _
  have hf := State.wr_bank_frame s d v
  refine ⟨?_, ?_, rfl, ?_, fun k => ?_, rfl⟩
  · rw [State.goOn_rd]
    exact Ctx.readS_writeS s.ctx d r v hd
  · rw [hb, ← hf]
    exact ⟨rfl, rfl, rfl, rfl, rfl, rfl, rfl, rfl, rfl, rfl, rfl, rfl⟩
  · calc t.ctx.setBank s.bank
      _ = { ((s.wr d v).ctx.setBank { (s.wr d v).bank with wait := none }).setBank s.bank with pc := pc } :=
        Ctx.setBank_withPc _ _ _
      _ = { s.ctx with pc := pc } := by
        rw [Ctx.setBank_setBank]
        exact congrArg (fun c : Ctx => { c with pc := pc }) (Ctx.writeS_setBank s.ctx d v)
  · have h := State.pmcGet_pmcAdd (s.wr d v) s.ctx.vdn.toNat 1 1 k
    have hv : (s.wr d v).ctx.vdn = s.ctx.vdn := Ctx.writeS_vdn _ _ _
    calc t.pmcGet (k / 16) (k % 16)
      _ = ((s.wr d v).pmcAdd (s.wr d v).ctx.vdn.toNat 1 1).pmcGet (k / 16) (k % 16) := by
        show (((s.wr d v).endWait.setPc pc).pmcAdd (s.wr d v).ctx.vdn.toNat 1 1).pmcGet _ _ = _
        rfl
      _ = _ := by rw [hv]; exact h

end Sys2Proof
end

section
/-! # A bank whose drop is still owed (O16) -/

namespace Sys2Proof.Machine

/-- Scratchpad bank 0 of a context awake, its drop put off until the copies that came to it during its wake have run (R216,
R351): the wake is over, the drop is owed. -/
def dropOwed : State :=
  { State.reset with ctx := { State.reset.ctx with
      banks := [(0, { state := .full, pol := .off, waking := false, dropAtWake := true })] } }

/-- BDROP of that bank leaves the drop owed: the bank is not OFF. -/
theorem exec_bdrop_dropOwed : ∀ t, exec (.bdrop { kind := true, idx := 0#6 }) dropOwed = .next t →
    (t.ctx.padBank 0).state = .full := by
  intro t ht
  have h : (match exec (.bdrop { kind := true, idx := 0#6 }) dropOwed with
    | .next t => (t.ctx.padBank 0).state
    | _ => .full) = .full := by decide
  rw [ht] at h
  exact h

end Sys2Proof.Machine

namespace Sys2Proof
open Machine

/-- Refutes O16: a scratchpad bank that is awake, its wake over, may still owe the drop that BDROP asked for during the wake;
another BDROP leaves it so, and not OFF. -/
theorem not_bankSupplyInstructions : ¬ Obligations.BankSupplyInstructions := by
  intro h
  obtain ⟨-, -, t, ht, -, -, hoff, -⟩ := (h dropOwed).2.1 0 0#6 rfl (by decide) (by decide) (by decide) (by decide)
  rw [exec_bdrop_dropOwed t ht] at hoff
  exact absurd hoff (by decide)

end Sys2Proof
end

section
/-! # The checks of an engine word's scratchpad address (O22)

The words whose bytes are known at issue are engine words whose `read` gives the fault of the base register, and with all
registers clean that of the address. -/

namespace Sys2Proof.Machine

section
variable {s : State} {read : State → Except Cause Taken} {rs : List Reg} {a : Reg} {off : BitVec 16} {al n : Nat}

/-- The read of a word with a scratchpad address: poison of the base comes first, then alignment and range (R224). -/
structure ReadChecks (s : State) (read : State → Except Cause Taken) (rs : List Reg) (a : Reg) (off : BitVec 16)
    (al n : Nat) : Prop where
  poisoned : (s.rd a).pois = true → read s = .error (Cause.poison 1)
  failed : ∀ c, s.Clean rs → s.padRange (Say.engAddr s a off) al n = .error c → read s = .error c

theorem engineAddr_poisoned (h : (s.rd a).pois = true) : s.engineAddr a off = .error (Cause.poison 1) := by
  simp [State.engineAddr, h]

theorem lRead_checks {f : FLN} {dst : Option Nat} {arr : Bool} :
    ReadChecks s (lRead f n dst arr) (f.a :: lineRegs f.line) f.a f.off 64 n where
  poisoned h := by rw [lRead, engineAddr_poisoned h]; rfl
  failed c hc hr := by
    obtain ⟨hp, hl⟩ := State.clean_cons.mp hc
    rw [lRead, engineAddr_clean hp, ok_bind, index_clean hl, ok_bind, hr]; rfl

theorem sRead_checks {b : Bool} {x : BitVec 6} {len : State → Nat} (hn : len s = n)
    (hx : s.Clean rs → (s.rd a).pois = false ∧ s.Clean (if b then [x] else [])) :
    ReadChecks s (sRead b x a off al len) rs a off al n where
  poisoned h := by rw [sRead, engineAddr_poisoned h]; rfl
  failed c hc hr := by
    rw [sRead, engineAddr_clean (hx hc).1, ok_bind, index_clean (hx hc).2, ok_bind, hn, hr]; rfl

theorem padRange_misaligned {ad : Word} (h : ad.toNat % al ≠ 0) : s.padRange ad al n = .error (Cause.seq cALIGN 0 ad) := by
  simp [State.padRange, h]

theorem padRange_past {ad : Word} (ha : ad.toNat % al = 0) (h : ¬ Say.InPad s ad al n) (hs : s.bank.emode.getLsbD 3 = false) :
    s.padRange ad al n = .error (Cause.seq cDATA 0 ad) := by
  have hr : n ≠ 0 ∧ s.ctx.spSize < ad.toNat + n := by
    have hz : s.ctx.spSize = 16384 * s.ctx.spbanks := rfl
    simp only [Say.InPad, ha, true_and] at h
    omega
  have hspec : s.spec = false := hs
  simp [State.padRange, ha, hr, hspec]

/-- Every word of `Say.span` is an engine word with these checks. -/
theorem exec_checks {i : Instr} {e : Eng} {tok : Tok} {k : Taken} {ok : Prop} (h : Say.issue s i = some (e, tok, rs, k, ok))
    (hs : Say.span s i = some (a, off, al, n)) : ∃ rel srcs read work, srcs ⊆ rs ∧ ReadChecks s read rs a off al n ∧
      exec i s = engineInstr e i tok rel srcs read work s := by
  cases i with
  | lline f | ltile f | ltrans f | lgath f | lmask f =>
    cases h; cases hs
    exact ⟨_, _, _, _, by simp, lRead_checks, rfl⟩
  | lwgt f =>
    cases h; cases hs
    refine ⟨_, _, _, _, by simp, ?_, rfl⟩
    simp only [ite_mul]
    exact lRead_checks
  | sline f =>
    cases h; cases hs
    exact ⟨_, _, _, _, by simp, sRead_checks rfl State.clean_cons.mp, rfl⟩
  | stile f | strans f | sacc f =>
    cases h; cases hs
    exact ⟨_, _, _, _, by simp, sRead_checks rfl fun hc => ⟨(State.clean_cons.mp hc).1, by simp [State.Clean]⟩, rfl⟩
  | _ => cases hs

/-- A word whose read fails raises the fault, and nothing else happens. -/
theorem engineInstr_trap {e : Eng} {i : Instr} {tok : Tok} {rel : Option Nat} {srcs : List Reg}
    {work : Entry → State → EngOut} {c : Cause} (ha : s.acting = none) (hp : s.Plain srcs) (hr : read s = .error c) :
    ∃ t : State, engineInstr e i tok rel srcs read work s = .next (t.fault c) ∧ t.ctx = s.ctx ∧ t.mem = s.mem ∧
      t.ctxs = s.ctxs := by
  refine ⟨s.useFree, ?_, rfl, rfl, rfl⟩
  rw [engineInstr_forward ha]
  exact seqInstr_trap (by rwa [List.append_nil]) (by rw [forward, hr])

end

end Sys2Proof.Machine

namespace Sys2Proof
open Machine

/-- Settles O22: the fault is that of the word's `read` (`exec_checks`), which is raised as it is (`engineInstr_trap`). -/
theorem engineAddressesAreChecked : Obligations.EngineAddressesAreChecked := by
  intro i s e tok rs k ok a off al n h hs ha hp
  obtain ⟨rel, srcs, read, work, hsub, hchk, hx⟩ := exec_checks h hs
  rw [hx]
  exact ⟨fun hpois => engineInstr_trap ha (hp.mono hsub) (hchk.poisoned hpois),
    fun hc hal => engineInstr_trap ha (hp.mono hsub) (hchk.failed _ hc (padRange_misaligned hal)),
    fun hc hal hn hspec => engineInstr_trap ha (hp.mono hsub) (hchk.failed _ hc (padRange_past hal hn hspec))⟩

end Sys2Proof
end

section
/-! # System registers read and written (O18, O19) -/

namespace Sys2Proof.Machine

@[simp] theorem State.goOn_core (s : State) (pc : Word) : (s.goOn pc).ctx.core = s.ctx.core := by
  simp [Ctx.core, State.goOn_ctx]

@[simp] theorem State.wr_core (s : State) (d : Reg) (v : SReg) : (s.wr d v).ctx.core = s.ctx.core := by simp [Ctx.core]

@[simp] theorem State.goOn_dies (s : State) (pc : Word) : (s.goOn pc).dies = s.dies := rfl

section
variable (s : State)

/-- A scalar write leaves VC, ASHAPE, EMODE, SQP and ESTAT of the running bank. -/
theorem State.wr_modes (d : Reg) (v : SReg) : (s.wr d v).bank.vc = s.bank.vc ∧ (s.wr d v).bank.ashape = s.bank.ashape ∧
    (s.wr d v).bank.emode = s.bank.emode ∧ (s.wr d v).bank.sqp = s.bank.sqp ∧ (s.wr d v).bank.estat = s.bank.estat := by
  rw [← State.wr_bank_frame s d v]
  exact ⟨rfl, rfl, rfl, rfl, rfl⟩

/-! ### What the plainly read registers read as -/

/-- Their values, in the order of `Say.plainCsrs`. -/
theorem State.plainCsrs_values : Say.plainCsrs.map s.csrValue =
    [s.bank.vc.setWidth 64, s.bank.ashape.setWidth 64, s.bank.emode.setWidth 64, s.bank.sqp.setWidth 64,
      s.ctx.vwlim.setWidth 64, s.ctx.pbud.setWidth 64, s.ctx.tvec, s.ctx.tepc, s.ctx.tscr, s.ctx.svec, s.ctx.sepc, s.ctx.sscr,
      s.ctx.spmsel.setWidth 64, (s.die (dieOf s.ctx.core)).sevcons.setWidth 64, (s.die (dieOf s.ctx.core)).sevcnt] := rfl

/-- Two states whose plainly read registers read alike. -/
def State.SameCsrs (s t : State) : Prop := Say.plainCsrs.map t.csrValue = Say.plainCsrs.map s.csrValue

theorem State.SameCsrs.value {s t : State} (h : s.SameCsrs t) {m : Nat} (hm : m ∈ Say.plainCsrs) :
    t.csrValue m = s.csrValue m :=
  List.map_inj_left.mp h m hm

theorem State.goOn_csrs (pc : Word) : s.SameCsrs (s.goOn pc) := by
  simp only [State.SameCsrs, State.plainCsrs_values, State.goOn_core, State.die, State.goOn_dies, State.goOn_bank]
  simp [State.goOn_ctx]

theorem State.wr_csrs (d : Reg) (v : SReg) : s.SameCsrs (s.wr d v) := by
  obtain ⟨hvc, hsh, hem, hsq, -⟩ := s.wr_modes d v
  simp only [State.SameCsrs, State.plainCsrs_values, State.wr_core, State.die, hvc, hsh, hem, hsq]
  simp

/-! ### The fields as they are written -/

theorem word_of_toNat {w : Word} {n : Nat} (h : w.toNat = n) : w = BitVec.ofNat 64 n := by
  rw [← h, BitVec.ofNat_toNat, BitVec.setWidth_eq]

/-- A field of k bits. -/
theorem setWidth_setWidth_toNat (v : Word) {k : Nat} (hk : k ≤ 64) : ((v.setWidth k).setWidth 64).toNat = v.toNat % 2 ^ k := by
  simp only [BitVec.toNat_setWidth]
  exact Nat.mod_eq_of_lt ((Nat.mod_lt _ (by positivity)).trans_le (Nat.pow_le_pow_right (by decide) hk))

theorem vcOf_toNat (v : Word) : ((vcOf (v &&& 0x7F#64)).setWidth 64).toNat = min (v.toNat % 128) 64 := by
  have h : (v &&& 0x7F#64).toNat = v.toNat % 128 := by
    rw [BitVec.toNat_and]; exact Nat.and_two_pow_sub_one_eq_mod _ 7
  rw [vcOf_eq, h]
  simp only [BitVec.toNat_setWidth, BitVec.toNat_ofNat]
  omega

theorem ashapeOf_toNat (old : BitVec 4) (v : Word) : ((ashapeOf old v).setWidth 64).toNat =
    if v.toNat % 16 = 0 then (old.setWidth 64 : Word).toNat else v.toNat % 16 := by
  have hz : v.setWidth 4 = 0#4 ↔ v.toNat % 16 = 0 := by
    rw [← BitVec.toNat_inj, BitVec.toNat_setWidth]; rfl
  unfold ashapeOf
  by_cases h : v.toNat % 16 = 0
  · rw [if_pos h, if_pos (hz.mpr h)]
  · rw [if_neg h, if_neg (fun hn => h (hz.mp hn)), setWidth_setWidth_toNat v (by decide)]; rfl

/-- EMODE turns on the low four bits of what is written. -/
theorem emode_bits : ∀ old x : BitVec 4, ((x &&& 8#4) ||| (if 5 ≤ (x &&& 7#4).toNat then old &&& 7#4 else x &&& 7#4)).toNat =
    (if x.toNat % 8 < 5 then x.toNat % 8 else old.toNat % 8) + x.toNat / 8 % 2 * 8 := by
  decide

theorem emodeOf_toNat (old : BitVec 4) (v : Word) : ((emodeOf old v).setWidth 64).toNat =
    (if v.toNat % 8 < 5 then v.toNat % 8 else (old.setWidth 64 : Word).toNat % 8) + v.toNat / 8 % 2 * 8 := by
  have h := emode_bits old (v.setWidth 4)
  have hx : (v.setWidth 4).toNat = v.toNat % 16 := BitVec.toNat_setWidth ..
  have ho : (old.setWidth 64 : Word).toNat = old.toNat := by simp; omega
  have h8 : (v &&& 8#64).setWidth 4 = v.setWidth 4 &&& 8#4 := BitVec.setWidth_and
  have h7 : (v &&& 7#64).setWidth 4 = v.setWidth 4 &&& 7#4 := BitVec.setWidth_and
  have he : ((emodeOf old v).setWidth 64).toNat = (emodeOf old v).toNat := by simp; omega
  rw [he, ho, emodeOf]
  simp only [h8, h7]
  rw [h, hx]
  have e1 : v.toNat % 16 % 8 = v.toNat % 8 := by omega
  have e2 : v.toNat % 16 / 8 % 2 = v.toNat / 8 % 2 := by omega
  rw [e1, e2]

theorem pbud_toNat (v : Word) : ((BitVec.ofNat 18 (max 2000 (min 200000 (v.toNat % 2 ^ 18)))).setWidth 64 : Word).toNat =
    max 2000 (min 200000 (v.toNat % 2 ^ 18)) := by
  simp only [BitVec.toNat_setWidth, BitVec.toNat_ofNat]
  omega

theorem low3_toNat (v : Word) : (v >>> 3 <<< 3).toNat = v.toNat / 8 * 8 := by
  simp only [BitVec.toNat_shiftLeft, BitVec.toNat_ushiftRight, Nat.shiftLeft_eq, Nat.shiftRight_eq_div_pow]
  omega

/-- The readings after a new running bank. -/
theorem State.setBank_csrs (b : RegBank) : Say.plainCsrs.map (s.setBank b).csrValue =
    [b.vc.setWidth 64, b.ashape.setWidth 64, b.emode.setWidth 64, b.sqp.setWidth 64] ++ (Say.plainCsrs.map s.csrValue).drop 4 := by
  have hd (n : Nat) : (s.setBank b).die n = s.die n := rfl
  have hc : (s.setBank b).ctx.core = s.ctx.core := Ctx.core_setBank _ _
  simp only [State.plainCsrs_values, State.bank_setBank, hd, hc]
  simp

/-- The readings after new registers of the core's die. -/
theorem State.setDie_csrs (d : Die) : Say.plainCsrs.map (s.setDie (dieOf s.ctx.core) d).csrValue =
    (Say.plainCsrs.map s.csrValue).take 13 ++ [d.sevcons.setWidth 64, d.sevcnt] := by
  have hd : (s.setDie (dieOf s.ctx.core) d).die (dieOf (s.setDie (dieOf s.ctx.core) d).ctx.core) = d := s.die_setDie _ d
  rw [State.plainCsrs_values, State.plainCsrs_values, hd]
  rfl

/-- A write of a plainly read register: it reads as its field of what is written, the others as before (R302). -/
theorem State.csrPut_values {n : Nat} (v w : Word) (hn : n ∈ Say.plainCsrs) :
    Say.plainCsrs.map (s.csrPut n v w).csrValue = (Say.plainCsrs.map s.csrValue).set (Say.plainCsrs.idxOf n)
      (BitVec.ofNat 64 (Say.csrHolds n (s.csrValue n).toNat v.toNat)) := by
  simp only [Say.plainCsrs, List.mem_cons, List.not_mem_nil, or_false] at hn
  have hlow : v >>> 3 <<< 3 = BitVec.ofNat 64 (v.toNat / 8 * 8) := word_of_toNat (low3_toNat v)
  have hfield {k : Nat} (hk : k ≤ 64) := word_of_toNat (setWidth_setWidth_toNat v hk)
  have hall : v = BitVec.ofNat 64 v.toNat := word_of_toNat rfl
  rcases hn with rfl | rfl | rfl | rfl | rfl | rfl | rfl | rfl | rfl | rfl | rfl | rfl | rfl | rfl | rfl
  · exact (s.setBank_csrs _).trans (congrArg (· :: _) (word_of_toNat (vcOf_toNat v)))
  · exact (s.setBank_csrs _).trans (congrArg (_ :: · :: _) (word_of_toNat (ashapeOf_toNat s.bank.ashape v)))
  · exact (s.setBank_csrs _).trans (congrArg (_ :: _ :: · :: _) (word_of_toNat (emodeOf_toNat s.bank.emode v)))
  · exact (s.setBank_csrs _).trans (congrArg (_ :: _ :: _ :: · :: _) (hfield (k := 12) (by decide)))
  all_goals rw [State.plainCsrs_values, State.plainCsrs_values]
  · rw [Say.csrHolds, ← hfield (k := 20) (by decide)]; rfl
  · rw [Say.csrHolds, ← word_of_toNat (pbud_toNat v)]; rfl
  · rw [show Say.csrHolds 0x100 (s.csrValue 0x100).toNat v.toNat = v.toNat / 8 * 8 from rfl, ← hlow]; rfl
  · rw [show Say.csrHolds 0x101 (s.csrValue 0x101).toNat v.toNat = v.toNat / 8 * 8 from rfl, ← hlow]; rfl
  · rw [Say.csrHolds, ← hall]; rfl
  · rw [show Say.csrHolds 0x200 (s.csrValue 0x200).toNat v.toNat = v.toNat / 8 * 8 from rfl, ← hlow]; rfl
  · rw [show Say.csrHolds 0x201 (s.csrValue 0x201).toNat v.toNat = v.toNat / 8 * 8 from rfl, ← hlow]; rfl
  · rw [Say.csrHolds, ← hall]; rfl
  · rw [show Say.csrHolds 0x210 (s.csrValue 0x210).toNat v.toNat = v.toNat % 2 ^ 6 from rfl, ← hfield (k := 6) (by decide)]; rfl
  · exact (s.setDie_csrs _).trans (congrArg (fun x : Word => (Say.plainCsrs.map s.csrValue).take 13 ++ [x, _]) (hfield (k := 32) (by decide)))
  · exact (s.setDie_csrs _).trans (congrArg (fun x : Word => (Say.plainCsrs.map s.csrValue).take 13 ++ [_, x]) hlow)

/-- What a write of a register of a context or a die leaves: the bindings, the scalar registers, memory. -/
theorem State.csrPut_frame (n : Nat) (v w : Word) : s.SameRegs (s.csrPut n v w) ∧ (s.csrPut n v w).mem = s.mem := by
  have h : (s.csrPut n v w).ctx.qbinds = s.ctx.qbinds ∧ (s.csrPut n v w).bank.s = s.bank.s ∧ (s.csrPut n v w).mem = s.mem := by
    unfold State.csrPut
    split <;> refine ⟨?_, ?_, rfl⟩ <;> first | rfl | simp
  obtain ⟨hq, hs, hm⟩ := h
  exact ⟨⟨hq, fun r => Ctx.readS_congr hq hs r⟩, hm⟩

end

/-! ### The CSR instructions -/

/-- D, where there is one, receives the old value (R302). -/
def State.oldTo (s : State) (d : Option Reg) (old : Word) : State := match d with
  | some r => s.wrc r old
  | none => s

section
variable {s s1 : State} {d : Option Reg} {a : Reg} {n : Nat} {o : CsrOp}

@[simp] theorem State.oldTo_mem (d : Option Reg) (old : Word) : (s.oldTo d old).mem = s.mem := by cases d <;> rfl
@[simp] theorem State.oldTo_dies (d : Option Reg) (old : Word) : (s.oldTo d old).dies = s.dies := by cases d <;> rfl
@[simp] theorem State.oldTo_staged (d : Option Reg) (old : Word) : (s.oldTo d old).staged = s.staged := by cases d <;> rfl
@[simp] theorem State.oldTo_committed (d : Option Reg) (old : Word) : (s.oldTo d old).committed = s.committed := by
  cases d <;> rfl
@[simp] theorem State.oldTo_qterm (d : Option Reg) (old : Word) : (s.oldTo d old).ctx.qterm = s.ctx.qterm := by
  cases d <;> simp [State.oldTo]
@[simp] theorem State.oldTo_qlast (d : Option Reg) (old : Word) : (s.oldTo d old).ctx.qlast = s.ctx.qlast := by
  cases d <;> simp [State.oldTo]
@[simp] theorem State.oldTo_qbinds (d : Option Reg) (old : Word) : (s.oldTo d old).ctx.qbinds = s.ctx.qbinds := by
  cases d <;> simp [State.oldTo]
@[simp] theorem State.oldTo_estat (d : Option Reg) (old : Word) : (s.oldTo d old).bank.estat = s.bank.estat := by
  cases d with
  | none => rfl
  | some r => exact (s.wr_modes r _).2.2.2.2

theorem State.oldTo_csrs (d : Option Reg) (old : Word) : s.SameCsrs (s.oldTo d old) := by
  cases d with
  | none => rfl
  | some r => exact s.wr_csrs r _

theorem State.SameCsrs.trans {t u : State} (h : s.SameCsrs t) (h' : t.SameCsrs u) : s.SameCsrs u := Eq.trans h' h

/-- The scalar registers after D has received the old value. -/
theorem State.SameRegs.oldTo {old : Word} (h : s.SameRegs s1) (hd : ∀ r ∈ d, s.ctx.boundSlot r = none) :
    (∀ r, some r ≠ d → (s1.oldTo d old).rd r = s.rd r) ∧
    (∀ r, d = some r → r ≠ 0#6 → (s1.oldTo d old).rd r = { bits := old, pois := false }) := by
  cases d with
  | none => exact ⟨fun r _ => h.2 r, fun r hr => nomatch hr⟩
  | some x =>
    have hw := h.wr_wrote (v := { bits := old, pois := false }) (hd x rfl)
    exact ⟨fun r hr => hw.2 r (fun he => hr (congrArg some he)), fun r hr h0 => by cases hr; exact hw.nonzero h0⟩

/-- A CSR instruction that writes, where the write is done. -/
theorem csrWriting_done (hp : s.Plain (a :: d.toList)) (hc : s.Clean [a]) (h : csrApply s n o (s.rd a).bits = .done s1)
    (hq : s1.ctx.qbinds = s.ctx.qbinds) : csrWriting d a n o s = .next ((s1.oldTo d (s.csrValue n)).goOn s.pc8) := by
  refine seqInstr_done hp ?_ ((State.oldTo_qbinds d _).trans hq)
  rw [consume_clean (hc a (by simp)), h]
  rfl

/-- A register that is neither staged nor a descriptor or counter. -/
theorem csrApply_put (hn : n < 0x010 ∨ 0x050 ≤ n ∧ n < 0x400) (v : Word) :
    csrApply s n o v = .done (s.csrPut n (o.rw (s.csrValue n) v) (o.w1c v)) := by
  unfold csrApply
  rw [if_neg (by omega), if_neg (by omega), if_neg (by omega), if_neg (by omega)]

theorem csrApply_staged (hn : 0x400 ≤ n) (v : Word) : csrApply s n o v =
    .done { s with staged := Sparse.set cfgReset s.staged n (stagedValue n (s.stg n) (o.rw (s.stg n) v)) } := by
  unfold csrApply
  rw [if_pos hn]

/-- The write of a plain, an ESTAT or a QSTAT register by a CSR instruction. -/
theorem csrWriting_put (hp : s.Plain (a :: d.toList)) (hc : s.Clean [a]) (hn : n < 0x010 ∨ 0x050 ≤ n ∧ n < 0x400) :
    csrWriting d a n o s = .next (((s.csrPut n (o.rw (s.csrValue n) (s.rd a).bits) (o.w1c (s.rd a).bits)).oldTo d
      (s.csrValue n)).goOn s.pc8) :=
  csrWriting_done hp hc (csrApply_put hn _) (s.csrPut_frame _ _ _).1.1

theorem plainCsrs_put (hn : n ∈ Say.plainCsrs) : n < 0x010 ∨ 0x050 ≤ n ∧ n < 0x400 := by
  revert n
  decide

/-- The readings after a plainly read register has been written. -/
theorem csrPut_reads {v w : Word} (hn : n ∈ Say.plainCsrs) :
    (s.csrPut n v w).csrValue n = BitVec.ofNat 64 (Say.csrHolds n (s.csrValue n).toNat v.toNat) ∧
    ∀ m ∈ Say.plainCsrs, m ≠ n → (s.csrPut n v w).csrValue m = s.csrValue m := by
  have h := s.csrPut_values v w hn
  have hat (m : Nat) (hm : m ∈ Say.plainCsrs) : some ((s.csrPut n v w).csrValue m) = ((Say.plainCsrs.map s.csrValue).set
      (Say.plainCsrs.idxOf n) (BitVec.ofNat 64 (Say.csrHolds n (s.csrValue n).toNat v.toNat)))[Say.plainCsrs.idxOf m]? := by
    rw [← h, List.getElem?_map, List.getElem?_idxOf hm]; rfl
  refine ⟨Option.some.inj ?_, fun m hm hne => Option.some.inj ?_⟩
  · rw [hat n hn, List.getElem?_set_self (by rw [List.length_map]; exact List.idxOf_lt_length_iff.mpr hn)]
  · rw [hat m hm, List.getElem?_set_ne (fun he => hne ((List.idxOf_inj hm).mp he.symm)), List.getElem?_map,
      List.getElem?_idxOf hm]; rfl

/-- What a field holds fits its register. -/
theorem csrHolds_lt (n : Nat) (old v : Word) : Say.csrHolds n old.toNat v.toNat < 2 ^ 64 := by
  have hv := v.isLt
  have ho := old.isLt
  unfold Say.csrHolds
  repeat' split
  all_goals omega

/-- CSRW, CSRS and CSRC are one instruction with three ways to make the new value (R302). -/
theorem csr_writers {i : Instr} {new : Word → Word → Word}
    (hi : (∃ f, i = .csrw f ∧ a = f.a ∧ d = none ∧ n = f.csr.toNat ∧ new = fun _ v => v) ∨
      (∃ f, i = .csrs f ∧ a = f.a ∧ d = some f.d ∧ n = f.csr.toNat ∧ new = fun old v => old ||| v) ∨
      (∃ f, i = .csrc f ∧ a = f.a ∧ d = some f.d ∧ n = f.csr.toNat ∧ new = fun old v => old &&& ~~~v)) :
    ∃ o : CsrOp, exec i s = csrWriting d a n o s ∧ new = o.rw ∧ ((∃ f, i = .csrs f) ↔ o = .set) := by
  rcases hi with ⟨f, rfl, rfl, rfl, rfl, rfl⟩ | ⟨f, rfl, rfl, rfl, rfl, rfl⟩ | ⟨f, rfl, rfl, rfl, rfl, rfl⟩
  · exact ⟨.write, rfl, rfl, by simp⟩
  · exact ⟨.set, rfl, rfl, by simp⟩
  · exact ⟨.clear, rfl, rfl, by simp⟩

/-- The bits that the write clears (R302). -/
theorem CsrOp.w1c_set (v : Word) : CsrOp.set.w1c v = 0#64 := rfl

theorem CsrOp.w1c_other (h : o ≠ .set) (v : Word) : o.w1c v = v := by
  cases o with
  | set => exact absurd rfl h
  | write | clear => rfl

/-- The state after a register has been written (R302). -/
def State.csrWritten (s : State) (d : Option Reg) (a : Reg) (n : Nat) (o : CsrOp) : State :=
  ((s.csrPut n (o.rw (s.csrValue n) (s.rd a).bits) (o.w1c (s.rd a).bits)).oldTo d (s.csrValue n)).goOn s.pc8

theorem csrWritten_plain (hp : s.Plain (a :: d.toList)) (hn : n ∈ Say.plainCsrs) :
    let t := s.csrWritten d a n o
    (t.csrValue n).toNat = Say.csrHolds n (s.csrValue n).toNat (o.rw (s.csrValue n) (s.rd a).bits).toNat ∧
    (∀ m ∈ Say.plainCsrs, m ≠ n → t.csrValue m = s.csrValue m) ∧
    (∀ r, some r ≠ d → t.rd r = s.rd r) ∧
    (∀ r, d = some r → r ≠ 0#6 → t.rd r = { bits := s.csrValue n, pois := false }) ∧ t.mem = s.mem := by
  obtain ⟨hregs, hmem⟩ := s.csrPut_frame n (o.rw (s.csrValue n) (s.rd a).bits) (o.w1c (s.rd a).bits)
  obtain ⟨hself, hothers⟩ := csrPut_reads (s := s) (v := o.rw (s.csrValue n) (s.rd a).bits) (w := o.w1c (s.rd a).bits) hn
  obtain ⟨hr, hd⟩ := hregs.oldTo (d := d) (old := s.csrValue n) fun r hr => hp.1 r (by simp_all)
  have hsame : (s.csrPut n (o.rw (s.csrValue n) (s.rd a).bits) (o.w1c (s.rd a).bits)).SameCsrs (s.csrWritten d a n o) :=
    (State.oldTo_csrs d (s.csrValue n)).trans (State.goOn_csrs _ s.pc8)
  refine ⟨?_, fun m hm hne => (hsame.value hm).trans (hothers m hm hne), fun r h => (State.goOn_rd ..).trans (hr r h), fun r h h0 => (State.goOn_rd ..).trans (hd r h h0), (State.oldTo_mem ..).trans hmem⟩
  rw [hsame.value hn, hself, BitVec.toNat_ofNat, Nat.mod_eq_of_lt (csrHolds_lt n _ _)]

theorem csrWritten_estat : (s.csrWritten d a 0x003 o).bank.estat = s.bank.estat &&& ~~~((o.w1c (s.rd a).bits).setWidth 7) := by
  have h : (s.csrPut 0x003 (o.rw (s.csrValue 0x003) (s.rd a).bits) (o.w1c (s.rd a).bits)).bank.estat =
      s.bank.estat &&& ~~~((o.w1c (s.rd a).bits).setWidth 7) := by
    simp only [State.csrPut, State.bank_setBank]; rfl
  rw [State.csrWritten, State.goOn_bank]
  exact (State.oldTo_estat ..).trans h

theorem csrWritten_qterm : (s.csrWritten d a 0x00C o).ctx.qterm =
    s.ctx.qterm &&& ~~~(((o.w1c (s.rd a).bits) >>> 8).setWidth 4) ∧ (s.csrWritten d a 0x00C o).ctx.qlast = s.ctx.qlast := by
  rw [State.csrWritten, State.goOn_qterm, State.goOn_qlast, State.oldTo_qterm, State.oldTo_qlast]
  exact ⟨rfl, rfl⟩

/-- A write of a staged register. -/
theorem csrWriting_staged (hp : s.Plain (a :: d.toList)) (hc : s.Clean [a]) (hn : 0x400 ≤ n) :
    ∃ t, csrWriting d a n o s = .next t ∧ t.ctx.pc = s.pc8 ∧ t.stg n = stagedValue n (s.stg n) (o.rw (s.stg n) (s.rd a).bits) ∧
      (∀ m, m ≠ n → t.stg m = s.stg m) ∧ t.committed = s.committed ∧ t.mem = s.mem := by
  have hst (u : State) (old : Word) : ((u.oldTo d old).goOn s.pc8).stg = u.stg :=
    congrArg (Sparse.get cfgReset) (u.oldTo_staged d old)
  refine ⟨_, csrWriting_done hp hc (csrApply_staged hn _) rfl, rfl, ?_, fun m hm => ?_, State.oldTo_committed .., State.oldTo_mem ..⟩
  · rw [hst]; exact Sparse.get_set_self ..
  · rw [hst]; exact Sparse.get_set_ne _ _ _ hm

/-! ### CSRR -/

/-- A read: D receives the value, and a field that a read clears is cleared (R302). -/
theorem csrReading_done {r : Reg} (hp : s.Plain [r]) : csrReading r n s =
    .next (((s.csrClear n).wrc r (s.csrValue n)).goOn s.pc8) := by
  refine seqInstr_done hp rfl ?_
  rw [State.wrc_ctx, Ctx.writeS_qbinds]
  unfold State.csrClear
  split
  · rfl
  · split <;> rfl

/-- What a read of a register clears. -/
theorem State.csrClear_frame (s : State) (n : Nat) : s.SameRegs (s.csrClear n) ∧ (s.csrClear n).mem = s.mem ∧
    (s.csrClear n).ctx.core = s.ctx.core ∧
    (s.csrClear n).ctx.cpfail = (if n = 0x00D then 0#32 else s.ctx.cpfail) ∧ (n ≠ 0x303 → (s.csrClear n).dies = s.dies) ∧
    (n = 0x303 → ((s.csrClear n).die (dieOf s.ctx.core)).sevlost = 0#32) := by
  unfold State.csrClear
  by_cases h : n = 0x00D
  · rw [if_pos h, if_pos h]
    exact ⟨⟨rfl, fun _ => rfl⟩, rfl, rfl, rfl, fun _ => rfl, fun h' => absurd (h.symm.trans h') (by decide)⟩
  · rw [if_neg h, if_neg h]
    split
    · exact ⟨⟨rfl, fun _ => rfl⟩, rfl, rfl, rfl, fun h' => absurd ‹_› h', fun _ => by simp⟩
    · exact ⟨⟨rfl, fun _ => rfl⟩, rfl, rfl, rfl, fun _ => rfl, fun h' => absurd h' ‹_›⟩

/-- A read: the register it writes, what it clears, and what it leaves (R302). -/
theorem csrReading_effect {r : Reg} (hp : s.Plain [r]) : ∃ t, csrReading r n s = .next t ∧ t.ctx.pc = s.pc8 ∧ t.mem = s.mem ∧
    (r ≠ 0#6 → t.rd r = { bits := s.csrValue n, pois := false }) ∧ (∀ q, q ≠ r → t.rd q = s.rd q) ∧
    t.ctx.cpfail = (if n = 0x00D then 0#32 else s.ctx.cpfail) ∧ (n ≠ 0x303 → t.dies = s.dies) ∧
    (n = 0x303 → (t.die (dieOf s.ctx.core)).sevlost = 0#32) := by
  obtain ⟨hregs, hmem, -, hcp, hdies, hlost⟩ := s.csrClear_frame n
  have hw := (hregs.wr_wrote (v := { bits := s.csrValue n, pois := false }) (hp.1 r (by simp))).goOn s.pc8
  exact ⟨_, csrReading_done hp, rfl, hmem, hw.nonzero, hw.2, by simpa [State.goOn_ctx] using hcp, hdies, hlost⟩

end

end Sys2Proof.Machine

namespace Sys2Proof
open Machine

/-- Settles O18: a CSR instruction that writes is one write of its register (`csrWriting_put`, `csrWriting_staged`), whose
readings `State.csrPut_values` says; a read is `csrReading_effect`. -/
theorem systemRegistersReadAndWrite : Obligations.SystemRegistersReadAndWrite := by
  intro s
  refine ⟨fun f hp => ?_, fun i a d n new hi hp hc => ?_⟩
  · obtain ⟨t, he, hpc, hmem, hd, hr, hcp, hdies, hlost⟩ := csrReading_effect (n := f.csr.toNat) hp
    exact ⟨t, he, hpc, hmem, hd, hr, fun h => hcp.trans (if_pos h), hlost, fun h => hcp.trans (if_neg h), hdies⟩
  obtain ⟨o, hx, rfl, hset⟩ := csr_writers (s := s) hi
  rw [hx]
  refine ⟨fun hn => ?_, fun hn => ?_, fun hn => ?_, csrWriting_staged hp hc⟩
  · obtain ⟨hself, hothers, hr, hd, hmem⟩ := csrWritten_plain (o := o) hp hn
    exact ⟨_, csrWriting_put hp hc (plainCsrs_put hn), rfl, hmem, hself, hothers, hr, hd⟩
  · subst hn
    refine ⟨_, csrWriting_put hp hc (by decide), rfl, fun h => ?_, fun h => ?_⟩
    · exact csrWritten_estat.trans (by rw [hset.mp h, CsrOp.w1c_set]; exact BitVec.and_allOnes)
    · exact csrWritten_estat.trans (by rw [CsrOp.w1c_other (fun he => h (hset.mpr he))])
  · subst hn
    refine ⟨_, csrWriting_put hp hc (by decide), rfl, fun h => ?_, fun h => ?_, csrWritten_qterm.2⟩
    · exact csrWritten_qterm.1.trans (by rw [hset.mp h, CsrOp.w1c_set]; exact BitVec.and_allOnes)
    · exact csrWritten_qterm.1.trans (by rw [CsrOp.w1c_other (fun he => h (hset.mpr he))]; rfl)

end Sys2Proof
end

section
/-! # Gutters, landing buffers and event registers written (O19) -/

namespace Sys2Proof.Machine

section
variable {s s1 : State} {c : Ctx} {d : Reg} {n : Nat}

/-- Starting the wakes of banks changes the banks only. -/
theorem Ctx.padWakeAll_banks (c : Ctx) (bs : List Nat) : ∃ bk, (c.padWakeAll bs).1 = { c with banks := bk } := by
  have h (bs : List Nat) : ∃ bk, bs.foldl Ctx.padWake c = { c with banks := bk } := by
    induction bs using List.reverseRecOn with
    | nil => exact ⟨c.banks, rfl⟩
    | append_singleton bs b ih =>
      obtain ⟨bk, hk⟩ := ih
      rw [List.foldl_append, hk, List.foldl_cons, List.foldl_nil, Ctx.padWake]
      split
      · exact ⟨_, rfl⟩
      · exact ⟨bk, rfl⟩
  exact h bs

theorem State.goOn_gutter (s : State) (pc : Word) (m : Nat) : (s.goOn pc).ctx.gutter m = s.ctx.gutter m := by
  simp [State.goOn_ctx, Ctx.gutter]

theorem State.goOn_lbuf (s : State) (pc : Word) (m : Nat) : (s.goOn pc).ctx.lbuf m = s.ctx.lbuf m := by
  simp [State.goOn_ctx, Ctx.lbuf]

/-! ### The fields of a descriptor -/

/-- Bit 63 of a word. -/
theorem bitOf_word (v : Word) : bitOf v.toNat 63 = decide (v.toNat / 2 ^ 63 = 1) := by
  have hv := v.isLt
  have h : v.toNat / 2 ^ 63 < 2 := by omega
  rw [bitOf, Nat.mod_eq_of_lt h]
  exact Bool.beq_eq_decide_eq _ _

theorem bitOf_on {v : Word} (h : v.toNat / 2 ^ 63 = 1) : bitOf v.toNat 63 = true := by
  rw [bitOf_word, decide_eq_true h]

theorem bitOf_off {v : Word} (h : v.toNat / 2 ^ 63 ≠ 1) : bitOf v.toNat 63 = false := by
  rw [bitOf_word, decide_eq_false h]

/-- A field of k bits of a number. -/
theorem ofNat_bitsOf_toNat (w lo k : Nat) : (BitVec.ofNat k (bitsOf w lo k)).toNat = w / 2 ^ lo % 2 ^ k := by
  rw [BitVec.toNat_ofNat, bitsOf, Nat.mod_mod]

/-- A gutter that is written with a configuration (R90). -/
def Gutter.configured (g : Gutter) (w : Nat) : Gutter :=
  { g with base := BitVec.ofNat 12 (bitsOf w 32 12), slotg := BitVec.ofNat 8 (bitsOf w 16 8)
           nslot := BitVec.ofNat 12 (bitsOf w 0 12), err := false }

/-- Whether the gutter that a word describes can be enabled (R90). -/
def Ctx.gutterFits (c : Ctx) (w : Nat) : Prop :=
  1 ≤ w / 2 ^ 16 % 2 ^ 8 ∧ w / 2 ^ 16 % 2 ^ 8 ≤ 64 ∧ 1 ≤ w % 2 ^ 12 ∧
    c.spanFree (w / 2 ^ 32 % 2 ^ 12, w / 2 ^ 16 % 2 ^ 8 * (w % 2 ^ 12)) = true

/-- The state with a gutter replaced, the banks aside. -/
def State.WithGutter (s s1 : State) (n : Nat) (h : Gutter) : Prop :=
  ∃ bk, s1 = s.setCtx { s.ctx.setGutter n h with banks := bk }

theorem State.withGutter (s : State) (n : Nat) (h : Gutter) : s.WithGutter (s.setCtx (s.ctx.setGutter n h)) n h :=
  ⟨s.ctx.banks, rfl⟩

section
variable {v : Word}

theorem gcfgWrite_rejected (he : v.toNat / 2 ^ 63 = 1) (h : (s.ctx.gutter n).en = true ∨ ¬ s.ctx.gutterFits v.toNat) :
    gcfgWrite s n v = .done (s.setCtx (s.ctx.setGutter n { s.ctx.gutter n with err := true })) := by
  unfold gcfgWrite
  simp only [bitOf_on he, if_true, ofNat_bitsOf_toNat]
  by_cases hg : (s.ctx.gutter n).en = true
  · rw [if_pos hg]
  · have hf := h.resolve_left hg
    rw [if_neg hg, if_neg fun hn => hf ?_]
    obtain ⟨h1, h2, h3, h4⟩ := hn
    rw [pow_zero, Nat.div_one] at h4
    refine ⟨h1, h2, Nat.pos_of_ne_zero fun h0 => h3 ?_, h4⟩
    rw [bitsOf_low, h0]

theorem gcfgWrite_enables (he : v.toNat / 2 ^ 63 = 1) (hg : (s.ctx.gutter n).en = false) (hf : s.ctx.gutterFits v.toNat) :
    ∃ s1, gcfgWrite s n v = .done s1 ∧ s.WithGutter s1 n
      { (s.ctx.gutter n).configured v.toNat with
        en := true, free := v.toNat % 2 ^ 12, filled := 0, head := 0, lens := [], flight := [] } := by
  obtain ⟨h1, h2, h3, h4⟩ := hf
  have h0 : BitVec.ofNat 12 (bitsOf v.toNat 0 12) ≠ 0#12 := fun hn => by
    have := congrArg BitVec.toNat hn
    rw [ofNat_bitsOf_toNat] at this
    simp at this h3
    omega
  unfold gcfgWrite
  simp only [bitOf_on he, hg, if_true, ofNat_bitsOf_toNat, Bool.false_eq_true, if_false]
  rw [if_pos ⟨h1, h2, h0, by rwa [pow_zero, Nat.div_one]⟩]
  refine ⟨_, rfl, ?_⟩
  unfold Ctx.pinSpan
  obtain ⟨bk, hk⟩ := Ctx.padWakeAll_banks (s.ctx.setGutter n { (s.ctx.gutter n).configured v.toNat with
    en := true, free := v.toNat % 2 ^ 12, filled := 0, head := 0, lens := [], flight := [] }) (banksOf (256 * (v.toNat / 2 ^ 32 % 2 ^ 12))
      (256 * (v.toNat / 2 ^ 16 % 2 ^ 8 * (v.toNat % 2 ^ 12))))
  refine ⟨bk, ?_⟩
  rw [← hk]
  simp [Gutter.configured]

theorem gcfgWrite_disables (he : v.toNat / 2 ^ 63 ≠ 1) (hg : (s.ctx.gutter n).en = true) (hf : (s.ctx.gutter n).flight = []) :
    gcfgWrite s n v = .done (s.setCtx (s.ctx.setGutter n { (s.ctx.gutter n).configured v.toNat with
      en := false, free := 0, filled := 0, head := 0, lens := [] })) := by
  unfold gcfgWrite
  simp [bitOf_off he, hg, hf, Gutter.configured]

theorem gcfgWrite_idle (he : v.toNat / 2 ^ 63 ≠ 1) (hg : (s.ctx.gutter n).en = false) :
    gcfgWrite s n v = .done (s.setCtx (s.ctx.setGutter n ((s.ctx.gutter n).configured v.toNat))) := by
  unfold gcfgWrite
  simp [bitOf_off he, hg, Gutter.configured]

theorem gcfgWrite_waits (he : v.toNat / 2 ^ 63 ≠ 1) (hg : (s.ctx.gutter n).en = true) (hf : (s.ctx.gutter n).flight ≠ []) :
    gcfgWrite s n v = .wait s .other false := by
  unfold gcfgWrite
  simp [bitOf_off he, hg, hf]

end

/-! ### Landing buffers -/

/-- The landing buffer that a word describes (R94). -/
def LBuf.described (en : Bool) (w : Nat) : LBuf :=
  { en := en, inuse := false, base := BitVec.ofNat 12 (bitsOf w 32 12), sizeg := BitVec.ofNat 9 (bitsOf w 16 9) }

/-- Whether it can be enabled (R94). -/
def Ctx.lbufFits (c : Ctx) (w : Nat) : Prop :=
  1 ≤ w / 2 ^ 16 % 2 ^ 9 ∧ w / 2 ^ 16 % 2 ^ 9 ≤ 256 ∧ c.spanFree (w / 2 ^ 32 % 2 ^ 12, w / 2 ^ 16 % 2 ^ 9) = true

/-- A write of LBDn: the buffer enabled, left or disabled (R94). -/
theorem lbdWrite_eq (s : State) (n : Nat) (v : Word) : ∃ lb bk, lbdWrite s n v =
      .done (s.setCtx { s.ctx with lbufs := lb, banks := bk }) ∧
    (∀ m, m ≠ n → Sparse.get (fun _ => LBuf.zero) lb m = s.ctx.lbuf m) ∧
    (v.toNat / 2 ^ 63 = 1 → (s.ctx.lbuf n).en = false → s.ctx.lbufFits v.toNat →
      Sparse.get (fun _ => LBuf.zero) lb n = LBuf.described true v.toNat) ∧
    (v.toNat / 2 ^ 63 = 1 → ((s.ctx.lbuf n).en = true ∨ ¬ s.ctx.lbufFits v.toNat) →
      Sparse.get (fun _ => LBuf.zero) lb n = s.ctx.lbuf n) ∧
    (v.toNat / 2 ^ 63 ≠ 1 → Sparse.get (fun _ => LBuf.zero) lb n = LBuf.described false v.toNat) := by
  have hput (x : LBuf) : (∀ m, m ≠ n → Sparse.get (fun _ => LBuf.zero) (Sparse.set (fun _ => LBuf.zero) s.ctx.lbufs n x) m = s.ctx.lbuf m) ∧
      Sparse.get (fun _ => LBuf.zero) (Sparse.set (fun _ => LBuf.zero) s.ctx.lbufs n x) n = x :=
    ⟨fun m hm => Sparse.get_set_ne _ _ _ hm, Sparse.get_set_self ..⟩
  unfold lbdWrite
  simp only [ofNat_bitsOf_toNat]
  by_cases he : v.toNat / 2 ^ 63 = 1
  · rw [bitOf_on he]
    by_cases hg : (s.ctx.lbuf n).en = true
    · rw [if_pos hg]
      exact ⟨s.ctx.lbufs, s.ctx.banks, rfl, fun _ _ => rfl, fun _ h => absurd (hg.symm.trans h) (by decide), fun _ _ => rfl,
        fun h => absurd he h⟩
    rw [if_neg hg, if_pos rfl]
    by_cases hf : s.ctx.lbufFits v.toNat <;> have hcond := hf <;> unfold Ctx.lbufFits at hcond
    · obtain ⟨bk, hk⟩ := Ctx.padWakeAll_banks (s.ctx.setLBuf n (LBuf.described true v.toNat))
        (banksOf (256 * (v.toNat / 2 ^ 32 % 2 ^ 12)) (256 * (v.toNat / 2 ^ 16 % 2 ^ 9)))
      obtain ⟨hne, hself⟩ := hput (LBuf.described true v.toNat)
      rw [if_pos hcond]
      exact ⟨_, bk, congrArg (fun c => SeqOut.done (s.setCtx c)) hk, hne, fun _ _ _ => hself,
        fun _ h => absurd h (not_or.mpr ⟨hg, not_not.mpr hf⟩), fun h => absurd he h⟩
    · rw [if_neg hcond]
      exact ⟨s.ctx.lbufs, s.ctx.banks, rfl, fun _ _ => rfl, fun _ _ h => absurd h hf, fun _ _ => rfl, fun h => absurd he h⟩
  · obtain ⟨hne, hself⟩ := hput (LBuf.described false v.toNat)
    refine ⟨_, s.ctx.banks, ?_, hne, fun h => absurd h he, fun h => absurd h he, fun _ => hself⟩
    simp [bitOf_off he, Ctx.setLBuf, LBuf.described]

/-! ### The instructions -/

section
variable {a : Reg} {v : Word}

/-- What leaves the bindings and the running bank leaves what the registers read as. -/
theorem State.sameRegs_of (hq : s1.ctx.qbinds = s.ctx.qbinds) (hb : s1.bank = s.bank) : s.SameRegs s1 :=
  ⟨hq, fun r => Ctx.readS_congr hq (congrArg RegBank.s hb) r⟩

/-- CSRW to GCFGn whose write is done. -/
theorem execGcfgWrite_done {f : FCsrG} (hp : s.Plain [f.a]) (hc : s.Clean [f.a])
    (h : gcfgWrite s f.n.toNat (s.rd f.a).bits = .done s1) (hq : s1.ctx.qbinds = s.ctx.qbinds) :
    exec (.gcfgWrite f) s = .next (s1.goOn s.pc8) := by
  have hn := f.n.isLt
  refine csrWriting_done (d := none) hp hc ?_ hq
  rw [csrApply, if_neg (by omega), if_pos (by omega), Nat.add_sub_cancel_left]
  exact h

theorem execGcfgWrite_waits {f : FCsrG} (hp : s.Plain [f.a]) (hc : s.Clean [f.a])
    (h : gcfgWrite s f.n.toNat (s.rd f.a).bits = .wait s .other false) :
    exec (.gcfgWrite f) s = .next (s.waitAt .other false) := by
  have hn := f.n.isLt
  refine seqInstr_wait (srcs := [f.a]) (dsts := []) hp ?_
  rw [consume_clean (hc f.a (by simp)), csrApply, if_neg (by omega), if_pos (by omega), Nat.add_sub_cancel_left]
  exact congrArg (fun o : SeqOut => match o with
    | .done s1 => SeqOut.done s1
    | r => r) h

theorem execLbdWrite_done {f : FCsrL} (hp : s.Plain [f.a]) (hc : s.Clean [f.a])
    (h : lbdWrite s f.n.toNat (s.rd f.a).bits = .done s1) (hq : s1.ctx.qbinds = s.ctx.qbinds) :
    exec (.lbdWrite f) s = .next (s1.goOn s.pc8) := by
  have hn := f.n.isLt
  refine csrWriting_done (d := none) hp hc ?_ hq
  rw [csrApply, if_neg (by omega), if_neg (by omega), if_pos (by omega), Nat.add_sub_cancel_left]
  exact h

/-- The state that a write of GCFGn leaves: its gutter, the others, registers and memory. -/
theorem State.WithGutter.effect {h : Gutter} (hw : s.WithGutter s1 n h) : s1.ctx.qbinds = s.ctx.qbinds ∧
    (s1.goOn s.pc8).mem = s.mem ∧ (∀ r, (s1.goOn s.pc8).rd r = s.rd r) ∧
    (∀ m, m ≠ n → (s1.goOn s.pc8).ctx.gutter m = s.ctx.gutter m) ∧ (s1.goOn s.pc8).ctx.gutter n = h := by
  obtain ⟨bk, rfl⟩ := hw
  refine ⟨rfl, rfl, fun r => (State.goOn_rd ..).trans ((State.sameRegs_of rfl rfl).2 r), fun m hm => ?_, ?_⟩
  · exact (State.goOn_gutter ..).trans (Sparse.get_set_ne _ _ _ hm)
  · exact (State.goOn_gutter ..).trans (Sparse.get_set_self ..)

/-- A write of GCFGn that does not wait, by its cases (R90). -/
theorem gcfgWrite_cases (hw : ¬ ((s.ctx.gutter n).en = true ∧ v.toNat / 2 ^ 63 ≠ 1 ∧ (s.ctx.gutter n).flight ≠ [])) :
    ∃ s1 h, gcfgWrite s n v = .done s1 ∧ s.WithGutter s1 n h ∧
      (v.toNat / 2 ^ 63 = 1 → (s.ctx.gutter n).en = false → s.ctx.gutterFits v.toNat → h = { (s.ctx.gutter n).configured v.toNat with
        en := true, free := v.toNat % 2 ^ 12, filled := 0, head := 0, lens := [], flight := [] }) ∧
      (v.toNat / 2 ^ 63 = 1 → ((s.ctx.gutter n).en = true ∨ ¬ s.ctx.gutterFits v.toNat) → h = { s.ctx.gutter n with err := true }) ∧
      (v.toNat / 2 ^ 63 ≠ 1 → h.en = false ∧ h = { (s.ctx.gutter n).configured v.toNat with
        en := h.en, free := h.free, filled := h.filled, head := h.head, lens := h.lens }) ∧
      (v.toNat / 2 ^ 63 ≠ 1 → (s.ctx.gutter n).en = true → h.free = 0 ∧ h.filled = 0 ∧ h.head = 0 ∧ h.flight = []) := by
  by_cases he : v.toNat / 2 ^ 63 = 1
  · by_cases hr : (s.ctx.gutter n).en = true ∨ ¬ s.ctx.gutterFits v.toNat
    · refine ⟨_, _, gcfgWrite_rejected he hr, s.withGutter n _, fun _ hg hf => ?_, fun _ _ => rfl, fun h => absurd he h,
        fun h => absurd he h⟩
      rcases hr with hg' | hf'
      · rw [hg] at hg'; exact absurd hg' (by decide)
      · exact absurd hf hf'
    · obtain ⟨hg, hf⟩ := not_or.mp hr
      obtain ⟨s1, h1, h2⟩ := gcfgWrite_enables he (by simpa using hg) (not_not.mp hf)
      exact ⟨s1, _, h1, h2, fun _ _ _ => rfl, fun _ h => absurd h hr, fun h => absurd he h, fun h => absurd he h⟩
  · by_cases hg : (s.ctx.gutter n).en = true
    · have hf : (s.ctx.gutter n).flight = [] := not_not.mp fun hf => hw ⟨hg, he, hf⟩
      exact ⟨_, _, gcfgWrite_disables he hg hf, s.withGutter n _, fun h => absurd h he, fun h => absurd h he,
        fun _ => ⟨rfl, rfl⟩, fun _ _ => ⟨rfl, rfl, rfl, hf⟩⟩
    · have hg0 : (s.ctx.gutter n).en = false := by simpa using hg
      exact ⟨_, _, gcfgWrite_idle he hg0, s.withGutter n _, fun h => absurd h he, fun h => absurd h he,
        fun _ => ⟨hg0, rfl⟩, fun _ h => absurd h hg⟩

/-- SEVBASE keeps the address bits that are written; the pointers start again (R311). -/
theorem csrPut_sevbase (s : State) (v w : Word) : ∃ d : Die, s.csrPut 0x300 v w = s.setDie (dieOf s.ctx.core) d ∧
    d.sevprod = 0#32 ∧ d.sevcons = 0#32 ∧ d.sevlost = (s.die (dieOf s.ctx.core)).sevlost ∧
    d.sevbase.toNat / 4096 = v.toNat / 4096 := by
  refine ⟨_, rfl, rfl, rfl, rfl, ?_⟩
  have hlow (x : Word) : (x &&& 31#64).toNat / 2 ^ 12 = 0 := by
    have : (x &&& 31#64).toNat ≤ 31 := by rw [BitVec.toNat_and]; exact Nat.and_le_right
    omega
  have hkeep (p : Prop) [Decidable p] (x y : Word) : (if p then x &&& 31#64 else y &&& 31#64).toNat / 2 ^ 12 = 0 := by
    split <;> exact hlow _
  have hdiv (x k : Word) (hk : k.toNat / 2 ^ 12 = 0) : ((x >>> 12 <<< 12) ||| k).toNat / 4096 = x.toNat / 4096 := by
    have hx := x.isLt
    rw [BitVec.toNat_or, show 4096 = 2 ^ 12 from rfl, Nat.or_div_two_pow, hk, Nat.or_zero, BitVec.toNat_shiftLeft,
      BitVec.toNat_ushiftRight, Nat.shiftLeft_eq, Nat.shiftRight_eq_div_pow]
    omega
  exact hdiv v _ (hkeep _ _ _)

/-- CSRW to SEVBASE. -/
theorem execSevbaseWrite_done {f : FA1x} {x : Die} (hp : s.Plain [f.a]) (hc : s.Clean [f.a])
    (h : s.csrPut 0x300 (s.rd f.a).bits (s.rd f.a).bits = s.setDie (dieOf s.ctx.core) x) :
    exec (.sevbaseWrite f) s = .next ((s.setDie (dieOf s.ctx.core) x).goOn s.pc8) := by
  rw [← h]
  exact csrWriting_put (d := none) (n := 0x300) (o := .write) hp hc (by decide)

end
end

end Sys2Proof.Machine

namespace Sys2Proof
open Machine

/-- Settles O19: the cases of a gutter's write (`gcfgWrite_cases`), a buffer's (`lbdWrite_eq`), SEVBASE's (`csrPut_sevbase`),
and the two reads that clear (`csrReading_effect`). -/
theorem descriptorAndEventRegisters : Obligations.DescriptorAndEventRegisters := by
  intro s
  refine ⟨fun f hp hc => ?_, fun f hp hc => ?_, fun f hp hc => ?_, fun f hp hd => ⟨?_, ?_⟩⟩
  · refine ⟨fun hw => ?_, fun hg he hf => execGcfgWrite_waits hp hc (gcfgWrite_waits he hg hf)⟩
    obtain ⟨s1, h, hx, hg, hfit, hrej, hoff, hcount⟩ := gcfgWrite_cases hw
    obtain ⟨hq, hmem, hrd, hothers, hself⟩ := hg.effect
    refine ⟨_, execGcfgWrite_done hp hc hx hq, rfl, hmem, hrd, hothers, ?_⟩
    rw [hself]
    refine ⟨fun he hen hf => ?_, hrej, fun he => ?_, hcount⟩
    · rw [hfit he hen hf]
      simp only [Gutter.configured, ofNat_bitsOf_toNat, pow_zero, Nat.div_one, and_self]
    · obtain ⟨h1, h2⟩ := hoff he
      rw [h2]
      simp only [Gutter.configured, ofNat_bitsOf_toNat, pow_zero, Nat.div_one, h1, and_self]
  · obtain ⟨lb, bk, hx, hothers, hon, hkept, hoff⟩ := lbdWrite_eq s f.n.toNat (s.rd f.a).bits
    exact ⟨_, execLbdWrite_done hp hc hx rfl, rfl, rfl, fun r => (State.goOn_rd ..).trans ((State.sameRegs_of rfl rfl).2 r),
      fun m hm => (State.goOn_lbuf ..).trans (hothers m hm), fun he hb hf => (State.goOn_lbuf ..).trans (hon he hb hf),
      fun he hr => (State.goOn_lbuf ..).trans (hkept he hr), fun he => (State.goOn_lbuf ..).trans (hoff he)⟩
  · obtain ⟨d, hput, hprod, hcons, hlost, hbase⟩ := csrPut_sevbase s (s.rd f.a).bits (s.rd f.a).bits
    have hdie (e : Nat) : ((s.setDie (dieOf s.ctx.core) d).goOn s.pc8).die e = (s.setDie (dieOf s.ctx.core) d).die e := rfl
    have hself := (hdie (dieOf s.ctx.core)).trans (s.die_setDie _ d)
    refine ⟨_, execSevbaseWrite_done hp hc hput, rfl, rfl, fun r => State.goOn_rd .., ?_, ?_, ?_, ?_,
      fun e he => (hdie e).trans (State.die_setDie_ne s d he)⟩
    · rw [hself, hprod]
    · rw [hself, hcons]
    · rw [hself, hlost]
    · rw [hself, hbase]
  · obtain ⟨t, hx, hpc, hmem, hval, hothers, hcp, -⟩ := csrReading_effect (n := 0x00D) hp
    exact ⟨t, hx, hpc, hmem, hval hd, hcp, hothers⟩
  · obtain ⟨t, hx, hpc, hmem, hval, hothers, -, -, hlost⟩ := csrReading_effect (n := 0x303) hp
    exact ⟨t, hx, hpc, hmem, hval hd, hlost rfl, hothers⟩

end Sys2Proof
end

section
/-! # A prefetch whose counter stands in a page table (O33) -/

namespace Sys2Proof.Machine

/-- A tenant whose two stages of tables are the one at 0x1000, its 1 GiB page the identity with its leaf at 0x2000; L1 holds, dirty,
a byte of the leaf that makes it invalid. The die's event ring is at 0x10000. Register 1 is 0, register 2 is 1, register 3
the leaf's address. -/
def leafInL1 : State :=
  { State.reset with
    committed := [(0x440, 0x1000#64), (0x600, 0x1000#64)]
    mem := [(0x1000, 0x03#8), (0x1001, 0x20#8), (0x2000, 0x1D#8)]
    dies := [(0, { Die.zero with sevbase := 0x10007#64 })]
    ctx := { State.reset.ctx with
      l1size := 1#2
      l1 := [(0x2000, some { val := 0#8, dirty := true, pois := false, va := 0x2000 })]
      base := { State.reset.ctx.base with
        s := [(1, { bits := 0#64, pois := false }), (2, { bits := 1#64, pois := false }),
          (3, { bits := 0x2000#64, pois := false })] } } }

/-- A CPFL2 of one byte at 0 that counts at the leaf. -/
def prefetchAtLeaf : FCpf := { scope := 0#3, a := 1#6, b := 2#6, c := 3#6, val := 1#24 }

/-- The translation of the counter: the whole of memory is the identity. -/
theorem leafInL1_counter : leafInL1.checkData 0x2000 8 .rw = .ok [(0x2000, { pa := 0x2000, nl1 := false, m := false })] := by
  have h : (match leafInL1.checkData 0x2000 8 .rw with
      | .ok ps => decide (ps = [(0x2000, { pa := 0x2000, nl1 := false, m := false })])
      | .error _ => false) = true := by decide
  cases hx : leafInL1.checkData 0x2000 8 .rw with
  | ok ps => rw [hx] at h; exact congrArg _ (of_decide_eq_true h)
  | error e => rw [hx] at h; exact absurd h Bool.false_ne_true

/-- The byte at 0 translates before the instruction. -/
theorem leafInL1_translates : ∀ v ∈ linesOf 0 1, leafInL1.prefetchFails v = none := by
  decide

/-- The instruction performs the stores to its counter first, the line no longer translates, and the event of that is in the
ring: code 0x0B. -/
theorem exec_cpfl2_leafInL1 : ∀ t, exec (.cpfl2 prefetchAtLeaf) leafInL1 = .next t → t.byteAt 0x10000 = 0x0B#8 := by
  intro t ht
  have h : (match exec (.cpfl2 prefetchAtLeaf) leafInL1 with
    | .next t => t.byteAt 0x10000
    | _ => 0x0B#8) = 0x0B#8 := by decide
  rw [ht] at h
  exact h

end Sys2Proof.Machine

namespace Sys2Proof
open Machine

/-- Refutes O33: every line of the prefetch translates as CPFL2 finds the machine, but CPFL2 first performs the issuer's own
stores to the counter's granule, which here is a page-table entry held dirty in L1; the prefetch then fails to translate and
its event is written to the ring. -/
theorem not_sendsAndPrefetchesAreAccepted : ¬ Obligations.SendsAndPrefetchesAreAccepted := by
  intro h
  obtain ⟨-, -, hcpf⟩ := h leafInL1
  obtain ⟨-, -, hgo⟩ := hcpf prefetchAtLeaf ⟨by decide, by decide⟩ (by unfold State.Clean; decide)
  obtain ⟨-, hdone⟩ := hgo _ (by decide) (by decide) leafInL1_counter (by decide)
  obtain ⟨t, ht, -, -, -, hmem⟩ := hdone (by decide)
  have hm := (hmem (by decide)).1 leafInL1_translates
  have hb : t.byteAt 0x10000 = (leafInL1.flushGranule 0x2000).byteAt 0x10000 := congrArg (fun m => Sparse.get memDefault m 0x10000) hm
  rw [exec_cpfl2_leafInL1 t ht] at hb
  exact absurd hb (by decide)

end Sys2Proof
end

section
/-! # A load through a translation that is not aligned to lines (O11) -/

namespace Sys2Proof.Machine

/-- A core whose TLB maps page 0 to 252 onward, so that a line of its addresses stands in two lines of memory, and whose L1 holds
one byte, poisoned, of the second of them. -/
def skewedPage : State :=
  { State.reset with
    tlb := [{ core := true, unit := 0, vdn := 0, vbase := 0, size := 65536, pa := 252, r := true, w := true, x := true,
              nl1 := false, m := false }]
    ctx := { State.reset.ctx with
      l1size := 1#2
      l1 := [(300, some { val := 0#8, dirty := false, pois := true, va := 48 })] } }

/-- The page that it translates 0 by. -/
def skewedPages : List (Nat × XOk) := [(0, { pa := 252, nl1 := false, m := false })]

/-- LD of 8 bytes at 0 to register 2. -/
def loadAtZero : FMLd := { sp := false, w := 3#2, a := 1#6, d := 2#6, off := 0#24 }

theorem skewedPage_translates (need : Need) : skewedPage.checkData 0 8 need = .ok skewedPages := by
  cases need <;> rfl

theorem skewedPage_noWindow (va n : Nat) : skewedPage.inWindow va n = none := rfl

/-- A byte of a line as a fetch leaves it: the one that L1 holds, else the home's (R193). -/
def State.fetchedByte (s : State) (base vb i : Nat) : Option L1Byte := match s.l1At (base + i) with
  | some b => some b
  | none => some { val := s.byteAt (base + i), dirty := false, pois := s.marked (base + i), va := vb + i }

/-- A line fetched into an L1 that has room (R193). -/
theorem State.l1Fill_eq {s : State} {va pa : Nat} (h : s.ctx.l1Has (pa / 256) = true) : s.l1Fill va pa =
    s.setL1 (Sparse.setList (fun _ => none) s.ctx.l1 (pa / 256 * 256)
      ((List.range 256).map (s.fetchedByte (pa / 256 * 256) (va / 256 * 256)))) := by
  have hroom : s.l1Room (pa / 256) = s := by rw [State.l1Room, if_pos h]
  simp only [State.l1Fill, hroom]
  congr 2

/-- Its bytes are there, every other byte is as before (R193). -/
theorem State.l1Fill_l1At {s : State} {va pa : Nat} (h : s.ctx.l1Has (pa / 256) = true) (x : Nat) :
    (s.l1Fill va pa).l1At x = if pa / 256 * 256 ≤ x ∧ x < pa / 256 * 256 + 256 then
      s.fetchedByte (pa / 256 * 256) (va / 256 * 256) (x - pa / 256 * 256) else s.l1At x := by
  have hfill : (s.l1Fill va pa).l1At x = Sparse.get (fun _ => none) (Sparse.setList (fun _ => none) s.ctx.l1 (pa / 256 * 256)
      ((List.range 256).map (s.fetchedByte (pa / 256 * 256) (va / 256 * 256)))) x := by
    rw [State.l1Fill_eq h, State.l1At, State.setL1]
  have hlen : ((List.range 256).map (s.fetchedByte (pa / 256 * 256) (va / 256 * 256))).length = 256 := by
    rw [List.length_map, List.length_range]
  rw [hfill]
  split
  next hx =>
    obtain ⟨i, rfl⟩ : ∃ i, x = pa / 256 * 256 + i := ⟨x - pa / 256 * 256, by omega⟩
    rw [Sparse.get_setList_inside _ _ _ i _ (by omega), List.getElem_map, List.getElem_range, Nat.add_sub_cancel_left]
  next hx => exact Sparse.get_setList_outside _ _ _ _ _ (by omega)

/-- The bindings and the scalar registers stay. -/
theorem State.l1Fill_sameRegs {s : State} {va pa : Nat} (h : s.ctx.l1Has (pa / 256) = true) : s.SameRegs (s.l1Fill va pa) := by
  rw [State.l1Fill_eq h]
  exact ⟨rfl, fun _ => rfl⟩

/-- The core after the one line that the load fetches. -/
def skewedFilled : State := (skewedPage.l1Fill 0 252).pmcAdd 0 14 1

theorem skewedPage_l1At (x : Nat) (h : x ≠ 300) : skewedPage.l1At x = none :=
  if_neg (Ne.symm h)

theorem skewedFilled_l1At (x : Nat) : skewedFilled.l1At x =
    if x < 256 then some { val := 0#8, dirty := false, pois := false, va := x } else skewedPage.l1At x := by
  refine (State.l1Fill_l1At (s := skewedPage) (va := 0) (pa := 252) (by decide) x).trans ?_
  by_cases hx : x < 256
  · rw [if_pos (by omega), if_pos hx, State.fetchedByte, show 252 / 256 * 256 + (x - 252 / 256 * 256) = x by omega,
      skewedPage_l1At x (by omega)]
    simp [State.byteAt, State.marked, skewedPage, State.reset, memDefault]
  · rw [if_neg (by omega), if_neg hx]

/-- None of the eight bytes is read poisoned: the first four are of the line fetched, the others of the home. -/
theorem skewedFilled_clean : ∀ i < 8, (skewedFilled.readByte true (252 + i)).2 = false := by
  intro i hi
  unfold State.readByte
  rw [if_pos rfl, skewedFilled_l1At]
  by_cases h : i < 4
  · rw [if_pos (by omega)]
    dsimp only
    have hall (k : Nat) (hk : k < 64) : skewedFilled.l1At ((252 + i) / 64 * 64 + k) =
        some { val := 0#8, dirty := false, pois := false, va := (252 + i) / 64 * 64 + k } := by
      rw [skewedFilled_l1At, if_pos (by omega)]
    simp only [State.l1Poison, Bool.or_eq_false_iff, Bool.and_eq_false_iff, List.any_map, List.any_eq_false, List.mem_range]
    exact ⟨fun k hk => by simp [hall k hk], .inl fun k hk => by simp [hall k hk]⟩
  · rw [if_neg (by omega), skewedPage_l1At _ (by omega)]
    rfl

/-- The lines that a read near the core fetches (R193). -/
def State.missLines (s : State) (ps : List (Nat × XOk)) (va n : Nat) : List Nat :=
  (linesOf va n).filter (fun v => pageL1 s ps v &&
    (List.range (min (va + n) (v / 256 * 256 + 256) - v)).any (fun i => (s.l1At (physOf ps v + i)).isNone))

/-- The state after they are fetched, and counted where the read counts them (R308). -/
def State.fetchLines (s : State) (counted : Bool) (ps : List (Nat × XOk)) (va n : Nat) : State :=
  let miss := s.missLines ps va n
  let s1 := miss.foldl (fun s v => s.l1Fill v (physOf ps v)) s
  if miss.isEmpty || !counted then s1 else s1.pmcAdd s.ctx.vdn.toNat 14 miss.length

/-- A byte of a read, with the lines fetched. -/
def State.nearByte (s u : State) (ps : List (Nat × XOk)) (va i : Nat) : Byte × Bool :=
  u.readByte (pageL1 s ps (va + i)) (physOf ps (va + i))

/-- A read outside windows: its lines fetched, its bytes as the core then sees them (R193). -/
theorem State.readAs_near {s : State} {ps : List (Nat × XOk)} {va n : Nat} (counted : Bool) (hw : s.inWindow va n = none) :
    s.readAs counted ps va n = (s.fetchLines counted ps va n,
      ((List.range n).map (s.nearByte (s.fetchLines counted ps va n) ps va)).map Prod.fst,
      ((List.range n).map (s.nearByte (s.fetchLines counted ps va n) ps va)).any Prod.snd) := by
  unfold State.readAs
  simp only [hw, Option.any_none, Bool.false_eq_true, if_false, Option.isSome_none, Bool.not_false, Bool.and_true]
  rfl

/-- A read that fetches one line. -/
theorem State.fetchLines_one {s : State} {ps : List (Nat × XOk)} {va n v : Nat} (h : s.missLines ps va n = [v]) :
    s.fetchLines true ps va n = (s.l1Fill v (physOf ps v)).pmcAdd s.ctx.vdn.toNat 14 1 := by
  rw [State.fetchLines, h]
  rfl

theorem skewedPage_fetches : skewedPage.fetchLines true skewedPages 0 8 = skewedFilled := by
  have hv : skewedPage.ctx.vdn.toNat = 0 := by decide
  have hpa : physOf skewedPages 0 = 252 := by decide
  rw [State.fetchLines_one (v := 0) (by decide), hv, hpa, skewedFilled]

theorem skewedPage_reads : skewedPage.readData skewedPages 0 8 =
    (skewedFilled, ((List.range 8).map (skewedPage.nearByte skewedFilled skewedPages 0)).map Prod.fst, false) := by
  have hclean : ((List.range 8).map (skewedPage.nearByte skewedFilled skewedPages 0)).any Prod.snd = false := by
    simp only [List.any_map, List.any_eq_false, List.mem_range]
    intro i hi
    have hl : ∀ i < 8, pageL1 skewedPage skewedPages (0 + i) = true := by decide
    have ha : ∀ i < 8, physOf skewedPages (0 + i) = 252 + i := by decide
    rw [Function.comp_apply, State.nearByte, hl i hi, ha i hi, skewedFilled_clean i hi]
    decide
  rw [State.readData, State.readAs_near _ (skewedPage_noWindow 0 8), skewedPage_fetches, hclean]

/-- A load whose access is performed whole in this step: D receives what it reads (R191). -/
theorem loadGlobal_whole {s s1 : State} {f : FMLd} {signed : Bool} {ps : List (Nat × XOk)} {bs : List Byte} {p : Bool}
    (ha : (s.rd f.a).pois = false) (hx : s.checkData (moAddr (s.rd f.a).bits f.off).toNat (widthOf f.w) .r = .ok ps)
    (hpart : s.partBytes = ([], false)) (honly : s.byteOnly (moAddr (s.rd f.a).bits f.off).toNat (widthOf f.w) = false)
    (hr : s.readData ps (moAddr (s.rd f.a).bits f.off).toNat (widthOf f.w) = (s1, bs, p)) :
    loadGlobal f signed s = .done (s1.wrLoaded f.d (extendTo signed (widthOf f.w) (natOfBytes bs)) p) := by
  unfold loadGlobal
  rw [consume_clean ha]
  dsimp only
  rw [hx]
  simp only [honly, hpart, List.length_nil, Nat.add_zero, Nat.sub_zero, hr, List.nil_append, Bool.false_or]
  simp

/-- The load finds no poison. -/
theorem exec_ld_skewedPage : ∀ t, exec (.ld loadAtZero) skewedPage = .next t → (t.rd 2#6).pois = false := by
  intro t ht
  have haddr : (moAddr (skewedPage.rd loadAtZero.a).bits loadAtZero.off).toNat = 0 := by decide
  have hlen : widthOf loadAtZero.w = 8 := rfl
  have hb := loadGlobal_whole (s := skewedPage) (f := loadAtZero) (signed := false) (by decide)
    (by rw [haddr, hlen]; exact skewedPage_translates .r) rfl (by decide) (hlen ▸ haddr ▸ skewedPage_reads)
  have hregs : skewedPage.SameRegs skewedFilled := State.l1Fill_sameRegs (s := skewedPage) (va := 0) (pa := 252) (by decide)
  have hw := hregs.wr_wrote (d := 2#6) (v := { bits := extendTo false (widthOf loadAtZero.w) (natOfBytes
    (((List.range (widthOf loadAtZero.w)).map (skewedPage.nearByte skewedFilled skewedPages 0)).map Prod.fst)), pois := false }) rfl
  rw [show exec (.ld loadAtZero) skewedPage = seqInstr [1#6] [2#6] (loadGlobal loadAtZero false) skewedPage from rfl,
    seqInstr_done (srcs := [1#6]) (dsts := [2#6]) ⟨by decide, by decide⟩ hb ((Ctx.writeS_qbinds ..).trans hregs.1)] at ht
  rw [← Host.Outcome.next.inj ht]
  exact congrArg SReg.pois ((hw.goOn skewedPage.pc8).nonzero (by decide))

end Sys2Proof.Machine

namespace Sys2Proof
open Machine

/-- Refutes O11: a byte of the load is of a sector that L1 holds poisoned in part, in a second line of memory which the load's one line
of addresses also reaches; the load does not fetch that line, and its destination is clean. -/
theorem not_loadsReadWhatTheCoreSees : ¬ Obligations.LoadsReadWhatTheCoreSees := by
  intro h
  have haddr : (Say.addr skewedPage loadAtZero.a loadAtZero.off).toNat = 0 := by decide
  have hlen : Say.bytes loadAtZero.w = 8 := rfl
  obtain ⟨hload, -⟩ := h skewedPage loadAtZero ⟨by decide, by decide⟩ (by unfold State.Clean; decide)
  rw [haddr, hlen] at hload
  obtain ⟨t, ht, -, -, hbad, -⟩ := hload (.ld loadAtZero) _ (skewedPage_translates .r) (.inl rfl) ⟨by decide, by decide⟩
    (fun w hw => by rw [skewedPage_noWindow] at hw; cases hw)
  have hp := hbad (by unfold Say.Roomy; decide) (by decide) (by decide)
  rw [show loadAtZero.d = 2#6 from rfl, exec_ld_skewedPage t ht] at hp
  exact absurd hp (by decide)

end Sys2Proof
end

section
/-! # A store that makes room in an L1 whose table holds bytes twice (O12) -/

namespace Sys2Proof.Machine

/-- A dirty byte of L1. -/
def dirtyByte (v : Byte) : Option L1Byte := some { val := v, dirty := true, pois := false, va := 0 }

/-- The first byte of each of 256 lines, dirty. -/
def heldAs (v : Byte) : Sparse (Option L1Byte) := (List.range 256).map (fun k => (256 * k, dirtyByte v))

/-- Each of these bytes twice, as 1 and as 2. -/
def twiceHeld : Sparse (Option L1Byte) := heldAs 1#8 ++ heldAs 2#8

/-- A core whose L1, of 64 KiB, is full of them; its TLB maps low addresses to themselves. -/
def fullL1 : State :=
  { State.reset with
    tlb := [{ core := true, unit := 0, vdn := 0, vbase := 0, size := 0x20000, pa := 0, r := true, w := true, x := true,
              nl1 := false, m := false }]
    ctx := { State.reset.ctx with l1size := 1#2, l1 := twiceHeld } }

/-- The page of 0x10000. -/
def fullPages : List (Nat × XOk) := [(0x10000, { pa := 0x10000, nl1 := false, m := false })]

/-- ST of one byte at 0x10000. -/
def storeByte : FMSt := { w := 0#2, a := 1#6, b := 2#6, off := 0x10000#24 }

theorem fullL1_translates : fullL1.checkData 0x10000 1 .w = .ok fullPages := rfl

theorem fullL1_inL1 : pageL1 fullL1 fullPages 0x10000 = true := by decide

theorem fullL1_noWindow (va n : Nat) : fullL1.inWindow va n = none := rfl

theorem fullL1_l1 : fullL1.ctx.l1 = heldAs 1#8 ++ heldAs 2#8 := rfl

theorem mem_fullL1_lines (k : Nat) : k ∈ fullL1.ctx.l1Lines ↔ k < 256 := by
  have h (v : Byte) : k ∈ (heldAs v).map (fun e => e.1 / 256) ↔ k < 256 := by
    simp [heldAs, List.mem_map]
  rw [Ctx.l1Lines, fullL1_l1, List.mem_dedup, List.map_append, List.mem_append, h, h, or_self]

/-- L1 has no room for the line of the store. -/
theorem fullL1_full : fullL1.ctx.l1Has 256 = false := by
  have hlen : (List.range 256).length ≤ fullL1.ctx.l1Lines.length :=
    (List.nodup_range.subperm fun k hk => (mem_fullL1_lines k).mpr (List.mem_range.mp hk)).length_le
  have hcap : l1Capacity fullL1.ctx.l1size = 256 := rfl
  rw [List.length_range] at hlen
  simp only [Ctx.l1Has, List.contains_eq_mem, mem_fullL1_lines, hcap, Bool.or_eq_false_iff, decide_eq_false_iff_not]
  omega

/-- Each byte reads as the first of its two values. -/
theorem fullL1_l1At {k : Nat} (hk : k < 256) : fullL1.l1At (256 * k) = dirtyByte 1#8 := by
  have h (l : List Nat) (m : Sparse (Option L1Byte)) (hl : k ∈ l) :
      Sparse.get (fun _ => none) (l.map (fun k => (256 * k, dirtyByte 1#8)) ++ m) (256 * k) = dirtyByte 1#8 := by
    induction l with
    | nil => cases hl
    | cons a l ih =>
      rw [List.map_cons, List.cons_append, Sparse.get]
      split
      · rfl
      · exact ih (List.mem_of_ne_of_mem (by omega) hl)
  exact h _ _ (List.mem_range.mpr hk)

/-- The dirty bytes of one line: the byte's two values, in order. -/
theorem fullL1_dirty {k : Nat} (hk : k < 256) : dirtyBytes (fun a _ => a / 256 == k) fullL1.ctx.l1 =
    [(256 * k, { val := 1#8, dirty := true, pois := false, va := 0 }), (256 * k, { val := 2#8, dirty := true, pois := false, va := 0 })] := by
  have hone : (List.range 256).filter (· == k) = [k] := by
    rw [List.filter_beq, List.count_eq_one_of_mem List.nodup_range (List.mem_range.mpr hk)]; rfl
  have h (v : Byte) : dirtyBytes (fun a _ => a / 256 == k) (heldAs v) = [(256 * k, { val := v, dirty := true, pois := false, va := 0 })] := by
    rw [dirtyBytes, heldAs, List.filterMap_map]
    refine (List.filterMap_congr (g := fun j => (Option.guard (· == k) j).map fun j =>
      (256 * j, { val := v, dirty := true, pois := false, va := 0 })) fun j _ => ?_).trans ?_
    · by_cases hj : j = k <;> simp [dirtyByte, Option.guard, hj]
    · rw [← List.map_filterMap, List.filterMap_eq_filter, hone]; rfl
  rw [fullL1_l1, dirtyBytes, List.filterMap_append]
  exact congrArg₂ (· ++ ·) (h 1#8) (h 2#8)

/-- Memory after bytes performed at their homes: each is written in its turn. -/
theorem performBytes_mem (l : List (Nat × L1Byte)) (s : State) : (performBytes l s).mem =
    l.foldl (fun m e => Sparse.setList memDefault m e.1 [e.2.val]) s.mem := by
  have hmarks (secs : List Nat) (u : State) : (secs.foldl (fun s sec =>
      let mine := l.filter (fun e => e.1 / 64 == sec)
      if mine.any (fun e => e.2.pois) then s.setMark sec true
      else if mine.length = 64 then s.setMark sec false else s) u).mem = u.mem := by
    induction secs generalizing u with
    | nil => rfl
    | cons a secs ih =>
      rw [List.foldl_cons, ih]
      dsimp only
      split
      · rfl
      · split <;> rfl
  have hbytes (l : List (Nat × L1Byte)) (u : State) : (l.foldl (fun s e => (s.rawWrite e.1 [e.2.val]).clearScopes e.1 1) u).mem =
      l.foldl (fun m e => Sparse.setList memDefault m e.1 [e.2.val]) u.mem := by
    induction l generalizing u with
    | nil => rfl
    | cons a l ih => exact ih _
  exact (hmarks _ _).trans (hbytes l s)

theorem State.evictLine_qbinds (s : State) (k : Nat) : (s.evictLine k).ctx.qbinds = s.ctx.qbinds :=
  (s.writeBack_flushed (fun a _ => a / 256 == k)).qbinds

theorem State.evictLine_byteAt (s : State) (k x : Nat) : (s.evictLine k).byteAt x =
    (performBytes (dirtyBytes (fun a _ => a / 256 == k) s.ctx.l1) s).byteAt x := rfl

theorem State.goOn_byteAt (s : State) (pc : Word) (x : Nat) : (s.goOn pc).byteAt x = s.byteAt x := rfl

/-- The home receives the second value. -/
theorem fullL1_evicted {k : Nat} (hk : k < 256) : (fullL1.evictLine k).byteAt (256 * k) = 2#8 := by
  rw [State.evictLine_byteAt, fullL1_dirty hk, State.byteAt, performBytes_mem]
  simp only [List.foldl_cons, List.foldl_nil]
  exact Sparse.get_setList_inside memDefault _ (256 * k) 0 [2#8] (by decide)

/-! ### The store -/

/-- A store whose access is performed whole in this step (R192). -/
theorem storeGlobal_whole {s : State} {f : FMSt} {ps : List (Nat × XOk)}
    (ha : (s.rd f.a).pois = false) (hx : s.checkData (moAddr (s.rd f.a).bits f.off).toNat (widthOf f.w) .w = .ok ps)
    (hw : (s.inWindow (moAddr (s.rd f.a).bits f.off).toNat (widthOf f.w)).isSome = false)
    (hpart : s.partBytes = ([], false)) (honly : s.byteOnly (moAddr (s.rd f.a).bits f.off).toNat (widthOf f.w) = false) :
    storeGlobal f s = .done (s.writeData ps (moAddr (s.rd f.a).bits f.off).toNat
      (bytesOfNat (widthOf f.w) (s.rd f.b).bits.toNat) (s.rd f.b).pois) := by
  unfold storeGlobal
  rw [consume_clean ha]
  dsimp only
  rw [hx]
  simp only [hw, honly, hpart, List.length_nil, Nat.add_zero, List.drop_zero, Bool.false_eq_true, if_false]

/-- A store of bytes of one line to a page that uses L1. -/
theorem State.writeData_line {s : State} {ps : List (Nat × XOk)} {va : Nat} {bs : List Byte} {p : Bool} (hl : linesOf va bs.length = [va])
    (h1 : pageL1 s ps va = true) (x : Nat) :
    (s.writeData ps va bs p).byteAt x = (s.l1Room (physOf ps va / 256)).byteAt x ∧
    (s.writeData ps va bs p).ctx.qbinds = (s.l1Room (physOf ps va / 256)).ctx.qbinds := by
  unfold State.writeData
  rw [hl, List.foldl_cons, List.foldl_nil]
  dsimp only
  rw [if_pos h1]
  split <;> exact ⟨rfl, rfl⟩

/-- The store gives up one of the lines, and its byte's home then holds the second value. -/
theorem exec_st_fullL1 : ∀ t, exec (.st storeByte) fullL1 = .next t → ∃ k < 256, t.byteAt (256 * k) = 2#8 := by
  intro t ht
  have haddr : (moAddr (fullL1.rd storeByte.a).bits storeByte.off).toNat = 0x10000 := by decide
  have hlen : widthOf storeByte.w = 1 := rfl
  have hbs : (bytesOfNat 1 (fullL1.rd storeByte.b).bits.toNat).length = 1 := rfl
  obtain ⟨k, hk, hroom⟩ : ∃ k < 256, fullL1.l1Room 256 = (fullL1.evictLine k).useFree := by
    rw [State.l1Room, if_neg (by rw [fullL1_full]; decide)]
    have hpos : 0 < fullL1.ctx.l1Lines.length := List.length_pos_of_mem ((mem_fullL1_lines 0).mpr (by decide))
    refine ⟨_, (mem_fullL1_lines _).mp ?_, rfl⟩
    rw [List.getD_eq_getElem _ _ (Nat.mod_lt _ hpos)]
    exact List.getElem_mem _
  have hb := storeGlobal_whole (s := fullL1) (f := storeByte) (by decide) (by rw [haddr, hlen]; exact fullL1_translates)
    (by rw [fullL1_noWindow]; rfl) rfl (by decide)
  rw [haddr, hlen] at hb
  have hpa : physOf fullPages 0x10000 / 256 = 256 := by decide
  obtain ⟨hbyte, hq⟩ := State.writeData_line (s := fullL1) (ps := fullPages) (va := 0x10000) (p := (fullL1.rd storeByte.b).pois)
    (bs := bytesOfNat 1 (fullL1.rd storeByte.b).bits.toNat) (by rw [hbs]; decide) fullL1_inL1 (256 * k)
  rw [hpa, hroom] at hbyte hq
  rw [show exec (.st storeByte) fullL1 = seqInstr [1#6, 2#6] [] (storeGlobal storeByte) fullL1 from rfl,
    seqInstr_done (srcs := [1#6, 2#6]) (dsts := []) ⟨by decide, by decide⟩ hb (hq.trans (fullL1.evictLine_qbinds k))] at ht
  rw [← Host.Outcome.next.inj ht]
  refine ⟨k, hk, ?_⟩
  rw [State.goOn_byteAt]
  exact hbyte.trans (fullL1_evicted hk)

end Sys2Proof.Machine

namespace Sys2Proof
open Machine

/-- Refutes O12: the L1 of the core holds bytes twice, dirty, as the table's arbitrary form allows; the line given up to make room for
the store writes the second of the two values, which is neither memory's byte nor the one that L1 reads as. -/
theorem not_storesWriteTheirBytesAndNoOther : ¬ Obligations.StoresWriteTheirBytesAndNoOther := by
  intro h
  have haddr : (Say.addr fullL1 storeByte.a storeByte.off).toNat = 0x10000 := by decide
  have hlen : Say.bytes storeByte.w = 1 := rfl
  obtain ⟨hst, -⟩ := h fullL1 storeByte ⟨by decide, by decide⟩ (by unfold State.Clean; decide)
  rw [haddr, hlen] at hst
  obtain ⟨t, ht, -, -, hev, -⟩ := hst fullPages fullL1_translates rfl ⟨rfl, by decide⟩ (by omega)
  obtain ⟨k, hk, hbyte⟩ := exec_st_fullL1 t ht
  have hmem : fullL1.byteAt (256 * k) = 0#8 := rfl
  have hother : ∀ i < 1, 256 * k ≠ physOf fullPages (0x10000 + i) := by
    intro i hi hx
    have hpa : physOf fullPages (0x10000 + 0) = 0x10000 := by decide
    rw [Nat.lt_one_iff.mp hi, hpa] at hx
    omega
  rcases hev (256 * k) hother with heq | ⟨b, hb, -, heq⟩
  · rw [hbyte, hmem] at heq
    exact absurd heq (by decide)
  · rw [fullL1_l1At hk] at hb
    rw [hbyte, ← Option.some.inj hb] at heq
    exact absurd heq (by decide)

end Sys2Proof
end

section
/-! # Lines of tile registers

Where the lanes of a line stand, and what writing a line leaves of a tile register. -/

namespace Sys2Proof.Machine

section
variable {α β : Type} [DecidableEq α] {d : Nat → α}

/-- A table after writes none of which is at a key. -/
theorem get_foldl_set_other (key : β → Nat) (val : β → α) (l : List β) (m : Sparse α) {k : Nat} (h : ∀ b ∈ l, key b ≠ k) :
    Sparse.get d (l.foldl (fun m b => Sparse.set d m (key b) (val b)) m) k = Sparse.get d m k := by
  induction l generalizing m with
  | nil => rfl
  | cons a l ih =>
    rw [List.foldl_cons, ih _ (fun b hb => h b (List.mem_cons_of_mem _ hb)),
      Sparse.get_set_ne _ _ _ (h a List.mem_cons_self).symm]

/-- A table after writes at keys that all differ, at one of them. -/
theorem get_foldl_set_mem (key : β → Nat) (val : β → α) {l : List β} (m : Sparse α) (hl : l.Pairwise (fun a b => key a ≠ key b))
    {b : β} (hb : b ∈ l) : Sparse.get d (l.foldl (fun m b => Sparse.set d m (key b) (val b)) m) (key b) = val b := by
  induction l generalizing m with
  | nil => cases hb
  | cons a l ih =>
    obtain ⟨ha, hl⟩ := List.pairwise_cons.mp hl
    rw [List.foldl_cons]
    rcases List.mem_cons.mp hb with rfl | hb
    · rw [get_foldl_set_other _ _ _ _ (fun c hc => (ha c hc).symm), Sparse.get_set_self]
    · exact ih _ hl hb

end

/-! ### Tile registers -/

@[simp] theorem Ctx.tile_setTile_self (c : Ctx) (t : Nat) (v : Tile) : (c.setTile t v).tile t = v := Sparse.get_set_self ..

theorem Ctx.tile_setTile_ne (c : Ctx) {t m : Nat} (v : Tile) (h : m ≠ t) : (c.setTile t v).tile m = c.tile m :=
  Sparse.get_set_ne _ _ _ h

/-- A cell of a register with new contents. -/
theorem Ctx.cell_setTile_self (c : Ctx) (t : Nat) (v : Tile) (row col : Nat) :
    (c.setTile t v).cell t row col = Sparse.get (fun _ => Cell.zero) v.cells (64 * row + col) := by
  rw [Ctx.cell, Ctx.tile_setTile_self]

theorem Ctx.cell_setTile_ne (c : Ctx) {t m : Nat} (v : Tile) (h : m ≠ t) (row col : Nat) :
    (c.setTile t v).cell m row col = c.cell m row col := by
  rw [Ctx.cell, Ctx.tile_setTile_ne c v h, Ctx.cell]

/-- A cell stands in the register's table. -/
theorem Ctx.cell_of_tiles {c d : Ctx} (h : d.tiles = c.tiles) (m row col : Nat) : d.cell m row col = c.cell m row col := by
  rw [Ctx.cell, Ctx.tile, h]; rfl

/-- What is awake is not woken. -/
theorem Ctx.wakeTile_full {c : Ctx} {t : Nat} (h : (c.tile t).state = .full) : c.wakeTile t = c := by
  rw [Ctx.wakeTile, h, if_neg (by decide)]

theorem Tile.ready_of {t : Tile} (h : t.state = .full) (hw : t.waking = false) : t.ready = true := by
  rw [Tile.ready, h, hw]; rfl

/-- A destination that is awake is ready (R54). -/
theorem readyDst_awake {s : State} {t : Nat} (h : Say.Awake s t) : readyDst t s = (s, true) := by
  obtain ⟨hfull, hwake⟩ := h
  have hc : s.ctx.wakeTiles [t] = s.ctx := Ctx.wakeTile_full hfull
  rw [readyDst, hc, Tile.ready_of hfull hwake]
  rfl

/-! ### Lanes (R40, R141) -/

theorem lineCell_eq (dir : BitVec 2) (i j : Nat) : lineCell dir i j = Say.laneCell dir i j := by
  have h (x : BitVec 2) : x = 0#2 ∨ x = 1#2 ∨ x = 2#2 ∨ x = 3#2 := by revert x; decide
  rcases h dir with rfl | rfl | rfl | rfl
  · rfl
  · rfl
  · show (j, (j + i) % 64) = (j, (i + j) % 64)
    rw [Nat.add_comm]
  · rfl

/-- The key of a lane in its register's table. -/
def laneKey (dir : BitVec 2) (i j : Nat) : Nat := 64 * (lineCell dir i j).1 + (lineCell dir i j).2

/-- The lanes of a line are in the register. -/
theorem lineCell_lt (dir : BitVec 2) {i j : Nat} (hi : i < 64) (hj : j < 64) : (lineCell dir i j).1 < 64 ∧ (lineCell dir i j).2 < 64 := by
  unfold lineCell
  split <;> dsimp only <;> omega

/-- Two lanes of a line are two cells. -/
theorem laneKey_inj (dir : BitVec 2) {i j k : Nat} (_hi : i < 64) (_hj : j < 64) (_hk : k < 64) (h : laneKey dir i j = laneKey dir i k) :
    j = k := by
  unfold laneKey lineCell at h
  split at h <;> dsimp only at h <;> omega

/-- A cell that is of no lane has another key. -/
theorem laneKey_ne (dir : BitVec 2) {i j row col : Nat} (hi : i < 64) (hj : j < 64) (hc : col < 64)
    (h : (row, col) ≠ Say.laneCell dir i j) : laneKey dir i j ≠ 64 * row + col := by
  rw [← lineCell_eq] at h
  obtain ⟨-, h2⟩ := lineCell_lt dir hi hj
  intro he
  refine h (Prod.ext ?_ ?_) <;> unfold laneKey at he <;> dsimp only <;> omega

/-! ### A line written -/

section
variable {s : State} {t i : Nat} {dir : BitVec 2} {js : List Nat} {f : Nat → Nat × Bool}

/-- The cells of a register after lanes of a line have been written. -/
theorem putLine_ctx (s : State) (t : Nat) (dir : BitVec 2) (i : Nat) (js : List Nat) (f : Nat → Nat × Bool) :
    (putLine s t dir i (js.map fun j => (j, f j))).ctx = s.ctx.setTile t { s.ctx.tile t with
      cells := (js.foldl (fun m j => Sparse.set (fun _ => Cell.zero) m (laneKey dir i j) (newCell s (64 * i + j) (f j)))
        (s.ctx.tile t).cells) } := by
  have h (tl : Tile) : (js.map fun j => (j, f j)).foldl (fun (tl : Tile) e =>
      tl.put (lineCell dir i e.1).1 (lineCell dir i e.1).2 (newCell s (64 * i + e.1) e.2)) tl =
      { tl with cells := (js.foldl (fun m j => Sparse.set (fun _ => Cell.zero) m (laneKey dir i j) (newCell s (64 * i + j) (f j)))
          tl.cells) } := by
    induction js generalizing tl with
    | nil => rfl
    | cons j js ih => exact ih _
  exact congrArg (s.ctx.setTile t) (h _)

/-- A lane written holds its new cell. -/
theorem putLine_lane (hi : i < 64) (hjs : js.Nodup) (hlt : ∀ j ∈ js, j < 64) {j : Nat} (hj : j ∈ js) :
    (putLine s t dir i (js.map fun j => (j, f j))).ctx.cell t (Say.laneCell dir i j).1 (Say.laneCell dir i j).2 =
      newCell s (64 * i + j) (f j) := by
  rw [putLine_ctx, Ctx.cell_setTile_self, ← lineCell_eq]
  refine get_foldl_set_mem (laneKey dir i) (fun j => newCell s (64 * i + j) (f j)) _ ?_ hj
  exact hjs.imp_of_mem fun {a b} ha hb hne he => hne (laneKey_inj dir hi (hlt a ha) (hlt b hb) he)

/-- Every other cell is as before. -/
theorem putLine_other (hi : i < 64) (hlt : ∀ j ∈ js, j < 64) {m row col : Nat} (hc : col < 64)
    (h : m ≠ t ∨ ∀ j ∈ js, (row, col) ≠ Say.laneCell dir i j) :
    (putLine s t dir i (js.map fun j => (j, f j))).ctx.cell m row col = s.ctx.cell m row col := by
  rw [putLine_ctx]
  by_cases hm : m = t
  · subst hm
    rw [Ctx.cell_setTile_self]
    have hne := h.resolve_left (fun hn => hn rfl)
    exact get_foldl_set_other (laneKey dir i) _ _ _ (fun j hj => laneKey_ne dir hi (hlt j hj) hc (hne j hj))
  · exact Ctx.cell_setTile_ne _ _ hm row col

/-- A clean new cell. -/
theorem newCell_clean (s : State) (k v : Nat) : newCell s k (v, false) = { bits := BitVec.ofNat 32 v, pois := false } := rfl

theorem newCell_pois (s : State) (k : Nat) (v : Nat × Bool) : (newCell s k v).pois = v.2 := by
  unfold newCell; cases v.2 <;> rfl

end

end Sys2Proof.Machine
end

section
/-! # Version loads (O14)

A load that R107 gives a version, none, or has wait; VLD writes a line of a tile register, VLDS two scalar registers. -/

namespace Sys2Proof.Machine

section
variable {s s1 : State} {f : FVLd} {g : FVLds} {k : Wait} {u : Ver} {pc : Word}

/-! ### Finding the version (R107, R109) -/

/-- The line index of an operand. -/
theorem carriedIx_toNat (s : State) (l : Line) : (Say.carriedIx s l.fromReg l.idx).toNat = Say.lineIx s l := by
  unfold Say.carriedIx Say.lineIx
  split
  · exact BitVec.toNat_setWidth ..
  · rfl

theorem lineIx_lt (s : State) (l : Line) : Say.lineIx s l < 64 := by
  rw [← carriedIx_toNat]; exact (Say.carriedIx s l.fromReg l.idx).isLt

/-- An instruction that begins has been given nothing. -/
theorem State.given_none (h : s.waitHere? = none) (k : Wait) : s.given k = .nothing := by
  rw [State.given, h]

theorem State.reachVersion_ok {sp : Bool} {va n : Nat} {r : Region} (h : s.versioned va n .r = .ok r) :
    s.reachVersion sp va n = .ok (some r) := by
  rw [State.reachVersion, h]

/-- A load that begins looks for its version. -/
theorem State.examineLoad_begins (h : s.waitHere? = none) (k : Wait) (sp : Bool) (va mode v sc : Nat) (r : Region) :
    s.examineLoad k sp va mode v sc r = s.findVersion sp va mode v sc r := by
  have hk : ¬ (s.waitKind = some k ∧ (r.sec (r.index va)).waiters.contains s.ctx.id = true) := by
    rw [State.waitKind, h]; simp
  unfold State.examineLoad
  rw [State.given_none h]
  exact if_neg hk

section
variable {sp : Bool} {va mode v sc : Nat} {r : Region}

theorem State.loadsVer_ok (h : versionScopeOk s.me sc u = true) : s.loadsVer va sc u = .got s u := by
  rw [State.loadsVer, if_pos h]

theorem State.findVersion_ver (h : r.find (dieOf s.ctx.core) (r.index va) mode v = .ver u) (hsc : versionScopeOk s.me sc u = true) :
    s.findVersion sp va mode v sc r = .got (s.putRegion (r.dropWaiter (r.index va) s.ctx.id)) u := by
  unfold State.findVersion
  simp only [h]
  exact State.loadsVer_ok hsc

theorem State.findVersion_missing (h : r.find (dieOf s.ctx.core) (r.index va) mode v = .missing) :
    s.findVersion sp va mode v sc r = (s.putRegion (r.dropWaiter (r.index va) s.ctx.id)).missesVer sp va := by
  unfold State.findVersion
  simp only [h]

theorem State.findVersion_wait (h : r.find (dieOf s.ctx.core) (r.index va) mode v = .wait) :
    s.findVersion sp va mode v sc r = .wait (s.putRegion (r.addWaiter (r.index va) s.ctx.id).1) (r.addWaiter (r.index va) s.ctx.id).2 := by
  unfold State.findVersion
  simp only [h]

end

/-- The wait of a load: recorded at the instruction, everything else as before (R109). -/
theorem State.versionWait_stays (s : State) (k : Wait) (rec : Bool) : ∃ s2, s.versionWait k rec = .wait s2 k false ∧
    (s2.waitAt k false).ctx.pc = s.ctx.pc ∧ (s2.waitAt k false).mem = s.mem ∧ (∀ r, (s2.waitAt k false).rd r = s.rd r) ∧
    (s2.waitAt k false).bank.wait.map (fun x => x.kind) = some k := by
  have hold (g : Given) : ∃ w, s.hold k g = s.setBank { s.bank with wait := w } := by
    obtain ⟨w, -, -, hw⟩ := State.waitAt_eq s k false
    refine ⟨some { w with given := g }, ?_⟩
    rw [State.hold, hw]
    dsimp only
    rw [State.bank_setBank, State.setBank_setBank]
    rfl
  have hkeep (s2 : State) (w : Option WaitSt) (h2 : s2 = s.setBank { s.bank with wait := w }) :
      (s2.waitAt k false).ctx.pc = s.ctx.pc ∧ (s2.waitAt k false).mem = s.mem ∧ (∀ r, (s2.waitAt k false).rd r = s.rd r) ∧
      (s2.waitAt k false).bank.wait.map (fun x => x.kind) = some k := by
    obtain ⟨w2, -, hk, hw2⟩ := State.waitAt_eq s2 k false
    rw [hw2]
    refine ⟨?_, ?_, fun r => ?_, ?_⟩
    · rw [h2]; simp [State.setBank]
    · rw [h2]; rfl
    · rw [State.setWait_rd, h2, State.setWait_rd]
    · rw [State.bank_setBank]; exact congrArg some hk
  obtain ⟨w, hw⟩ := hold (if rec then .nothing else .retry (match s.given k with
    | .retry t => if s.now < t then t else s.now + 512
    | _ => s.now + 512))
  exact ⟨_, rfl, hkeep _ w hw⟩

end

/-! ### VLD (R207) -/

section
variable {s s1 : State} {f : FVLd} {k : Wait} {u : Ver} {pc : Word}

/-- The lanes of a version, and of none. -/
def versionLanes (v : Option Ver) (j : Nat) : Nat × Bool := match v with
  | some u => (u.data.toNat / 2 ^ (32 * j) % 2 ^ 32, u.markAt (4 * j))
  | none => (0, true)

theorem putVersion_eq (t : Nat) (dir : BitVec 2) (ix : Nat) (v : Option Ver) (s : State) :
    putVersion t dir ix v s = (putLine s t dir ix ((List.range 64).map fun j => (j, versionLanes v j))).useFree := by
  cases v <;> rfl

/-- D of a VLD: the number, or poison. -/
def versionNumber (v : Option Ver) : SReg := match v with
  | some u => { bits := BitVec.ofNat 64 u.num, pois := false }
  | none => { bits := 0#64, pois := true }

/-- What a VLD leaves: the line of what was found, and D. -/
def State.lineLoaded (s : State) (f : FVLd) (ix : Nat) (v : Option Ver) : State :=
  let s2 := putVersion f.line.tile.toNat f.line.dir ix v s
  (match v with
    | some _ => s2.acquireAll
    | none => s2).wr f.d (versionNumber v)

theorem loadLine_awake (h : Say.Awake s f.line.tile.toNat) (k : Wait) (ix : BitVec 6) (v : Option Ver) :
    loadLine f k ix v s = .done (s.lineLoaded f ix.toNat v) := by
  unfold loadLine
  simp only [readyDst_awake h]
  cases v <;> rfl

/-- The tile registers after a VLD: those after its line has been written. -/
theorem State.lineLoaded_tiles (s : State) (f : FVLd) (ix : Nat) (v : Option Ver) : (s.lineLoaded f ix v).ctx.tiles =
    (putLine s f.line.tile.toNat f.line.dir ix ((List.range 64).map fun j => (j, versionLanes v j))).ctx.tiles := by
  unfold State.lineLoaded
  rw [putVersion_eq]
  cases v <;> exact Ctx.writeS_tiles ..

theorem State.lineLoaded_qbinds (s : State) (f : FVLd) (ix : Nat) (v : Option Ver) :
    (s.lineLoaded f ix v).ctx.qbinds = s.ctx.qbinds := by
  unfold State.lineLoaded
  cases v <;> exact Ctx.writeS_qbinds ..

/-- Memory and the scalar registers but D stay. -/
theorem State.lineLoaded_regs (hd : s.ctx.boundSlot f.d = none) (ix : Nat) (v : Option Ver) :
    (s.lineLoaded f ix v).mem = s.mem ∧ Wrote s (s.lineLoaded f ix v) f.d (versionNumber v) := by
  have h (v : Option Ver) : s.SameRegs (putVersion f.line.tile.toNat f.line.dir ix v s) := State.sameRegs_of rfl rfl
  unfold State.lineLoaded
  cases v with
  | none => exact ⟨rfl, (h none).wr_wrote hd⟩
  | some u =>
    have hs : s.SameRegs (putVersion f.line.tile.toNat f.line.dir ix (some u) s).acquireAll := State.sameRegs_of rfl rfl
    exact ⟨rfl, hs.wr_wrote hd⟩

/-- The cells after a VLD. -/
theorem State.lineLoaded_cells {ix : Nat} (hi : ix < 64) (v : Option Ver) :
    (∀ j < 64, (s.lineLoaded f ix v).ctx.cell f.line.tile.toNat (Say.laneCell f.line.dir ix j).1 (Say.laneCell f.line.dir ix j).2 =
      newCell s (64 * ix + j) (versionLanes v j)) ∧
    (∀ m row col, (m ≠ f.line.tile.toNat ∨ ∀ j < 64, (row, col) ≠ Say.laneCell f.line.dir ix j) → row < 64 → col < 64 →
      (s.lineLoaded f ix v).ctx.cell m row col = s.ctx.cell m row col) := by
  have hlt : ∀ j ∈ List.range 64, j < 64 := fun j hj => List.mem_range.mp hj
  refine ⟨fun j hj => ?_, fun m row col h _ hc => ?_⟩
  · rw [Ctx.cell_of_tiles (s.lineLoaded_tiles f ix v)]
    exact putLine_lane hi List.nodup_range hlt (List.mem_range.mpr hj)
  · rw [Ctx.cell_of_tiles (s.lineLoaded_tiles f ix v)]
    exact putLine_other hi hlt hc (h.imp_right fun h j hj => h j (hlt j hj))

/-- The registers of a VLD, sources first. -/
theorem vld_regs : ([f.a, f.b] ++ lineRegs f.line) ++ [f.d] ⊆ [f.a, f.b, f.d] ++ lineRegs f.line := by
  intro r hr
  simp only [List.mem_append, List.mem_cons, List.not_mem_nil, or_false] at hr ⊢
  tauto

/-- VLD that has been given a version by its wait (R107). -/
theorem execVld_given (hp : s.Plain ([f.a, f.b, f.d] ++ lineRegs f.line)) (hc : s.Clean ([f.a, f.b] ++ lineRegs f.line))
    (hg : s.given (.version (s.rd f.a).bits f.mode.toNat ((s.rd f.b).bits.toNat % 2 ^ 32)) = .line u)
    (hsc : versionScopeOk s.me f.scope.toNat u = true) (ha : Say.Awake s f.line.tile.toNat) :
    exec (.vld f) s = .next ((s.lineLoaded f (Say.lineIx s f.line) (some u)).goOn s.pc8) := by
  obtain ⟨hab, hl⟩ := State.clean_append.mp hc
  obtain ⟨hca, hb⟩ := State.clean_cons.mp hab
  refine seqInstr_done (srcs := [f.a, f.b] ++ lineRegs f.line) (dsts := [f.d]) (hp.mono vld_regs) ?_
    (State.lineLoaded_qbinds ..)
  rw [consume_clean hca, consume_clean (State.clean_cons.mp hb).1, index_clean hl]
  simp only [hg, State.loadsVer_ok hsc, VFind.line, loadLine_awake ha, carriedIx_toNat]

/-- The body of a VLD that begins, once its checks have passed: what R107 finds (R207). -/
theorem seqInstr_vld {o : SeqOut} {r : Region} (hc : s.Clean ([f.a, f.b] ++ lineRegs f.line)) (hw : s.waitHere? = none)
    (hal : (s.rd f.a).bits.toNat % 256 = 0) (hr : s.versioned (s.rd f.a).bits.toNat 256 .r = .ok r)
    (ha : Say.Awake s f.line.tile.toNat) (hb : s.ctx.inHandler = false) (ht : s.tileBusy f.line.tile.toNat = false)
    (ho : (s.findVersion f.sp (s.rd f.a).bits.toNat f.mode.toNat ((s.rd f.b).bits.toNat % 2 ^ 32) f.scope.toNat r).line f
      (.version (s.rd f.a).bits f.mode.toNat ((s.rd f.b).bits.toNat % 2 ^ 32)) (Say.carriedIx s f.line.fromReg f.line.idx) = o) :
    ∃ body, exec (.vld f) s = seqInstr ([f.a, f.b] ++ lineRegs f.line) [f.d] body s ∧ body s = o := by
  obtain ⟨hab, hl⟩ := State.clean_append.mp hc
  obtain ⟨hca, hcb⟩ := State.clean_cons.mp hab
  have hpresent : (s.ctx.tile f.line.tile.toNat).state ≠ .absent := by rw [ha.1]; decide
  have hopen : s.ctx.tileProtected f.line.tile.toNat = false := by rw [Ctx.tileProtected, hb, Bool.false_and]
  refine ⟨_, rfl, ?_⟩
  rw [consume_clean hca, consume_clean (State.clean_cons.mp hcb).1, index_clean hl]
  simp only [State.given_none hw, hal, State.reachVersion_ok hr, hpresent, tileWritable_open hopen, ht,
    State.examineLoad_begins hw, ho]
  rfl

/-- What a VLD leaves as it goes on: memory, D, the other registers, the line and the other cells. -/
theorem State.lineLoaded_effect (hd : s.ctx.boundSlot f.d = none) (v : Option Ver) (pc : Word) :
    let t := (s.lineLoaded f (Say.lineIx s f.line) v).goOn pc
    t.ctx.pc = pc ∧ t.mem = s.mem ∧ (f.d ≠ 0#6 → t.rd f.d = versionNumber v) ∧ (∀ q, q ≠ f.d → t.rd q = s.rd q) ∧
    (∀ j < 64, Say.lane t f.line (Say.lineIx s f.line) j = newCell s (64 * Say.lineIx s f.line + j) (versionLanes v j)) ∧
    (∀ m row col, (m ≠ f.line.tile.toNat ∨ ∀ j < 64, (row, col) ≠ Say.laneCell f.line.dir (Say.lineIx s f.line) j) →
      row < 64 → col < 64 → t.ctx.cell m row col = s.ctx.cell m row col) := by
  obtain ⟨hmem, hw⟩ := State.lineLoaded_regs hd (Say.lineIx s f.line) v
  obtain ⟨hlanes, hothers⟩ := State.lineLoaded_cells (s := s) (f := f) (lineIx_lt s f.line) v
  have hcell (m row col : Nat) : ((s.lineLoaded f (Say.lineIx s f.line) v).goOn pc).ctx.cell m row col =
      (s.lineLoaded f (Say.lineIx s f.line) v).ctx.cell m row col := Ctx.cell_of_tiles (Ctx.setBank_tiles ..) m row col
  exact ⟨rfl, hmem, (hw.goOn pc).nonzero, (hw.goOn pc).2, fun j hj => (hcell ..).trans (hlanes j hj),
    fun m row col h hr hc => (hcell ..).trans (hothers m row col h hr hc)⟩

end

/-! ### VLDS (R208) -/

section
variable {s s1 : State} {f : FVLds} {u : Ver} {r : Region}

/-- The body of a VLDS that begins (R208). -/
theorem seqInstr_vlds {o : SeqOut} (hc : s.Clean [f.a, f.b]) (hw : s.waitHere? = none)
    (hal : (s.rd f.a).bits.toNat % 8 = 0) (hr : s.versioned (s.rd f.a).bits.toNat 8 .r = .ok r)
    (ho : (s.findVersion f.sp (s.rd f.a).bits.toNat f.mode.toNat ((s.rd f.b).bits.toNat % 2 ^ 32) f.scope.toNat r).word f
      (.version (s.rd f.a).bits f.mode.toNat ((s.rd f.b).bits.toNat % 2 ^ 32)) ((s.rd f.a).bits.toNat % 256) = o) :
    ∃ body, exec (.vlds f) s = seqInstr [f.a, f.b] (if f.d = f.c then [f.c] else [f.d, f.c]) body s ∧ body s = o := by
  obtain ⟨hca, hcb⟩ := State.clean_cons.mp hc
  refine ⟨_, rfl, ?_⟩
  rw [consume_clean hca, consume_clean (State.clean_cons.mp hcb).1]
  simp only [State.given_none hw, hal, State.reachVersion_ok hr, State.examineLoad_begins hw, ho]
  rfl

/-- The registers of a VLDS, sources first. -/
theorem vlds_regs : [f.a, f.b] ++ (if f.d = f.c then [f.c] else [f.d, f.c]) ⊆ [f.a, f.b, f.d, f.c] := by
  split <;> simp_all

/-- What a VLDS that finds a version leaves. -/
theorem vldsPut_some (hd : s.ctx.boundSlot f.d = none) (hc : s.ctx.boundSlot f.c = none) (off : Nat) (u : Ver) (hs : s.SameRegs s1) :
    (vldsPut f off (some u) s1).mem = s1.mem ∧ (vldsPut f off (some u) s1).ctx.qbinds = s.ctx.qbinds ∧
    (f.c ≠ 0#6 → (vldsPut f off (some u) s1).rd f.c = { bits := BitVec.ofNat 64 u.num, pois := false }) ∧
    (f.d ≠ 0#6 → f.d ≠ f.c → ((vldsPut f off (some u) s1).rd f.d).pois = u.markAt off ∧ (u.markAt off = false →
      ((vldsPut f off (some u) s1).rd f.d).bits = BitVec.ofNat 64 (u.data.toNat / 2 ^ (8 * off)))) ∧
    (∀ q, q ≠ f.d → q ≠ f.c → (vldsPut f off (some u) s1).rd q = s.rd q) := by
  have hacq : s.SameRegs s1.acquireAll := hs
  have hload : ∃ v : SReg, s1.acquireAll.wrLoaded f.d (BitVec.ofNat 64 (u.data.toNat / 2 ^ (8 * off))) (u.markAt off) =
      { s1.acquireAll.wr f.d v with free := if u.markAt off then s1.acquireAll.free + 1 else s1.acquireAll.free } ∧
      v.pois = u.markAt off ∧ (u.markAt off = false → v.bits = BitVec.ofNat 64 (u.data.toNat / 2 ^ (8 * off))) := by
    unfold State.wrLoaded
    cases u.markAt off with
    | true => exact ⟨_, rfl, rfl, fun h => nomatch h⟩
    | false => exact ⟨_, rfl, rfl, fun _ => rfl⟩
  obtain ⟨v, hv, hvp, hvb⟩ := hload
  obtain ⟨h1, h2, h3⟩ := hacq.wr_wr (v := v) (w := { bits := BitVec.ofNat 64 u.num, pois := false }) hd hc
  have hput : ∀ q, (vldsPut f off (some u) s1).rd q = ((s1.acquireAll.wr f.d v).wr f.c { bits := BitVec.ofNat 64 u.num, pois := false }).rd q := by
    intro q
    unfold vldsPut
    dsimp only
    rw [hv]
    rfl
  refine ⟨?_, ?_, fun h0 => (hput _).trans (h2 h0), fun h0 hne => ?_, fun q hqd hqc => (hput q).trans (h3 q hqd hqc)⟩
  · unfold vldsPut; dsimp only; rw [hv]; rfl
  · unfold vldsPut; dsimp only; rw [hv]
    exact (Ctx.writeS_qbinds ..).trans ((Ctx.writeS_qbinds ..).trans hs.1)
  · rw [hput, h1 hne h0]
    exact ⟨hvp, hvb⟩

/-- What a VLDS that misses under SP leaves. -/
theorem vldsPut_none (hd : s.ctx.boundSlot f.d = none) (hc : s.ctx.boundSlot f.c = none) (off : Nat) (hs : s.SameRegs s1) :
    (vldsPut f off none s1).mem = s1.mem ∧ (vldsPut f off none s1).ctx.qbinds = s.ctx.qbinds ∧
    (f.d ≠ 0#6 → ((vldsPut f off none s1).rd f.d).pois = true) ∧ (f.c ≠ 0#6 → ((vldsPut f off none s1).rd f.c).pois = true) ∧
    (∀ q, q ≠ f.d → q ≠ f.c → (vldsPut f off none s1).rd q = s.rd q) := by
  obtain ⟨h1, h2, h3⟩ := hs.wr_wr (v := { bits := s1.freshBits 0, pois := true }) (w := { bits := 0#64, pois := true }) hd hc
  have hput : ∀ q, (vldsPut f off none s1).rd q = ((s1.wr f.d { bits := s1.freshBits 0, pois := true }).wr f.c { bits := 0#64, pois := true }).rd q :=
    fun _ => rfl
  refine ⟨rfl, (Ctx.writeS_qbinds ..).trans ((Ctx.writeS_qbinds ..).trans hs.1), fun h0 => ?_, fun h0 => ?_,
    fun q hqd hqc => (hput q).trans (h3 q hqd hqc)⟩
  · by_cases hne : f.d = f.c
    · rw [hput]
      exact congrArg SReg.pois ((congrArg (State.rd _) hne).trans (h2 (hne ▸ h0)))
    · rw [hput, h1 hne h0]
  · rw [hput, h2 h0]

end

end Sys2Proof.Machine

namespace Sys2Proof
open Machine

/-- Settles O14: what the load finds (`State.findVersion_ver`, `State.findVersion_missing`, `State.findVersion_wait`) decides what its
body comes to (`seqInstr_vld`, `seqInstr_vlds`), whose effects `State.lineLoaded_effect` and `vldsPut_some` say. -/
theorem versionLoadsReadTheChosenVersion : Obligations.VersionLoadsReadTheChosenVersion := by
  intro s r
  refine ⟨fun f hp hc => ⟨fun u hg hsc ha _ _ => ?_, fun hw hal hr ha hb ht => ?_⟩, fun f hp hc hw hal hr => ?_⟩
  · obtain ⟨hpc, hmem, hd, hq, -⟩ := State.lineLoaded_effect (hp.1 f.d (by simp)) (some u) s.pc8
    exact ⟨_, execVld_given hp hc hg hsc ha, hpc, hmem, hd, hq⟩
  · have hd0 := hp.1 f.d (by simp)
    have hp1 := hp.mono vld_regs
    have haw (q : Region) : Say.Awake (s.putRegion q) f.line.tile.toNat := ha
    refine ⟨fun u hu hsc => ?_, fun hm hsp => ?_, fun hm hsp => ?_, fun hwt => ?_⟩
    · obtain ⟨body, hx, hbody⟩ := seqInstr_vld hc hw hal hr ha hb ht rfl
      rw [State.findVersion_ver hu hsc, VFind.line, loadLine_awake (haw _), carriedIx_toNat] at hbody
      obtain ⟨hpc, hmem, hd, hq, hlanes, hothers⟩ := State.lineLoaded_effect
        (s := s.putRegion (r.dropWaiter (r.index (s.rd f.a).bits.toNat) s.ctx.id)) (f := f) hd0 (some u) s.pc8
      refine ⟨_, hx.trans (seqInstr_done hp1 hbody (State.lineLoaded_qbinds ..)), hpc, hmem, hd, hq,
        fun j hj => ?_, hothers⟩
      have hlane := hlanes j hj
      have hmark : u.markAt (4 * j) = u.marks.getLsbD (j / 16) := by
        rw [Ver.markAt, show 4 * j / 64 = j / 16 by omega]
      refine ⟨(congrArg Cell.pois hlane).trans ((newCell_pois ..).trans hmark), fun hclean => (congrArg Cell.bits hlane).trans ?_⟩
      rw [versionLanes, hmark, hclean, newCell_clean]
      apply BitVec.eq_of_toNat_eq
      simp only [BitVec.toNat_ofNat, Nat.mod_mod]
    · obtain ⟨body, hx, hbody⟩ := seqInstr_vld hc hw hal hr ha hb ht rfl
      rw [State.findVersion_missing hm, State.missesVer, hsp] at hbody
      exact hx.trans (seqInstr_trap hp1 hbody)
    · obtain ⟨body, hx, hbody⟩ := seqInstr_vld hc hw hal hr ha hb ht rfl
      rw [State.findVersion_missing hm, State.missesVer, hsp, if_pos rfl, VFind.line, loadLine_awake (haw _), carriedIx_toNat] at hbody
      obtain ⟨hpc, hmem, hd, hq, hlanes, hothers⟩ := State.lineLoaded_effect
        (s := s.putRegion (r.dropWaiter (r.index (s.rd f.a).bits.toNat) s.ctx.id)) (f := f) hd0 none s.pc8
      exact ⟨_, hx.trans (seqInstr_done hp1 hbody (State.lineLoaded_qbinds ..)), hpc, hmem,
        fun h0 => congrArg SReg.pois (hd h0), hq, fun j hj => (congrArg Cell.pois (hlanes j hj)).trans (newCell_pois ..), hothers⟩
    · obtain ⟨body, hx, hbody⟩ := seqInstr_vld hc hw hal hr ha hb ht rfl
      rw [State.findVersion_wait hwt, VFind.line] at hbody
      obtain ⟨s2, h2, hpc, hmem, -, hkind⟩ := (s.putRegion (r.addWaiter (r.index (s.rd f.a).bits.toNat) s.ctx.id).1).versionWait_stays
        (.version (s.rd f.a).bits f.mode.toNat ((s.rd f.b).bits.toNat % 2 ^ 32)) (r.addWaiter (r.index (s.rd f.a).bits.toNat) s.ctx.id).2
      exact ⟨_, hx.trans (seqInstr_wait hp1 (hbody.trans h2)), hpc, hmem, hkind⟩
  · have hd0 := hp.1 f.d (by simp)
    have hc0 := hp.1 f.c (by simp)
    have hp1 := hp.mono vlds_regs
    have hregs (q : Region) : s.SameRegs (s.putRegion q) := State.sameRegs_of rfl rfl
    obtain ⟨body, hx, hbody⟩ := seqInstr_vlds (f := f) hc hw hal hr rfl
    refine ⟨fun u hu hsc => ?_, fun hm hsp => ?_, fun hm hsp => ?_, fun hwt => ?_⟩
    · rw [State.findVersion_ver hu hsc, VFind.word] at hbody
      obtain ⟨hmem, hqb, hc1, hd1, hq⟩ := vldsPut_some hd0 hc0 ((s.rd f.a).bits.toNat % 256) u (hregs _)
      exact ⟨_, hx.trans (seqInstr_done hp1 hbody hqb), rfl, hmem, fun h0 => (State.goOn_rd ..).trans (hc1 h0),
        fun h0 hne => by rw [State.goOn_rd]; exact hd1 h0 hne, fun q h h' => (State.goOn_rd ..).trans (hq q h h')⟩
    · rw [State.findVersion_missing hm, State.missesVer, hsp] at hbody
      exact hx.trans (seqInstr_trap hp1 hbody)
    · rw [State.findVersion_missing hm, State.missesVer, hsp, if_pos rfl, VFind.word] at hbody
      obtain ⟨hmem, hqb, hd1, hc1, hq⟩ := vldsPut_none hd0 hc0 ((s.rd f.a).bits.toNat % 256) (hregs _)
      exact ⟨_, hx.trans (seqInstr_done hp1 hbody hqb), rfl, hmem, fun h0 => by rw [State.goOn_rd]; exact hd1 h0,
        fun h0 => by rw [State.goOn_rd]; exact hc1 h0, fun q h h' => (State.goOn_rd ..).trans (hq q h h')⟩
    · rw [State.findVersion_wait hwt, VFind.word] at hbody
      obtain ⟨s2, h2, hpc, hmem, hrd, hkind⟩ := (s.putRegion (r.addWaiter (r.index (s.rd f.a).bits.toNat) s.ctx.id).1).versionWait_stays
        (.version (s.rd f.a).bits f.mode.toNat ((s.rd f.b).bits.toNat % 2 ^ 32)) (r.addWaiter (r.index (s.rd f.a).bits.toNat) s.ctx.id).2
      exact ⟨_, hx.trans (seqInstr_wait hp1 (hbody.trans h2)), hpc, hmem, hrd, hkind⟩

end Sys2Proof
end

section
/-! # A poison line of a register read while it was OFF (O29) -/

namespace Sys2Proof.Machine

/-- VPOIS of line 0 of t0 to itself. -/
def poisItself : FV3 :=
  { tok := { wl := false, wr := false, gl := false, gr := false }
    dst := { tile := 0#4, dir := 0#2, fromReg := false, idx := 0#6 }
    src1 := { tile := 0#4, dir := 0#2, fromReg := false, idx := 0#6, last := false }
    src2 := { tile := 0#4, dir := 0#2, fromReg := false, idx := 0#6, last := false }
    et := 4#3, sat := false, k := 0#3 }

/-- Its entry under SPEC after it has met t0 OFF and had it woken to be written: it has noted that its source reads as
poison (R54). -/
def noted : Entry :=
  { instr := .vpois poisItself, val := 0#64, i1 := 0#6, i2 := 0#6, idst := 0#6, bad := false, sPend := false
    popsTaken := true, pushOwed := false, rows := 0, offs := [0], late := [], stall := .wake
    stamp := { vc := 1#7, ashape := 1#4, emode := 8#4, sqp := 0#12 }, addr := 0#64 }

/-- V runs that entry; t0 has woken, its cells clean zero. -/
def wokenToWrite : State :=
  { State.reset with
    acting := some (.v, noted)
    ctx := { State.reset.ctx with
      tiles := [(0, { Tile.entry with state := .full })]
      base := { State.reset.ctx.base with qV := [noted] } } }

/-- The lane is written as poisoned. -/
theorem exec_vpois_wokenToWrite : ∀ t, exec (.vpois poisItself) wokenToWrite = .next t → (t.ctx.cell 0 0 0).bits = 1#32 := by
  intro t ht
  have h : (match exec (.vpois poisItself) wokenToWrite with
    | .next t => (t.ctx.cell 0 0 0).bits
    | _ => 1#32) = 1#32 := by decide
  rw [ht] at h
  exact h

end Sys2Proof.Machine

namespace Sys2Proof
open Machine

/-- Refutes O29: a speculative VPOIS whose source was OFF when it began reads it as poison, though the register, which is its
destination as well, has been woken meanwhile and its cells are clean; the lanes are written 1. -/
theorem not_masksAndScalarsComputed : ¬ Obligations.MasksAndScalarsComputed := by
  intro h
  obtain ⟨-, -, -, hpois⟩ := h wokenToWrite noted (by decide) rfl
  obtain ⟨t, ht, -, -, -, -, hlane, -⟩ :=
    hpois poisItself ⟨rfl, rfl, rfl, rfl, Or.inl rfl⟩ ⟨by decide, by decide⟩ ⟨⟨by decide, by decide⟩, by decide⟩
  have hbits := congrArg Cell.bits (hlane 0 (by decide) (by decide))
  have hw : (t.ctx.cell 0 0 0).bits = 1#32 := exec_vpois_wokenToWrite t ht
  exact absurd (hw.symm.trans hbits) (by decide)

end Sys2Proof
end

section
/-! # An XMMA that R235 reserves (O25) -/

namespace Sys2Proof.Machine

/-- XMMA of one step from the feed with AT scaled: STILE names t0, which an XMMA from the feed does not ready. -/
def feedScaled : FXM :=
  { tok := { wl := false, wr := false, gl := false, gr := false }
    p := false
    line := { tile := 0#4, dir := 0#2, fromReg := false, idx := 0#6, last := false }
    at_ := 17#5, bt := 17#5, nstep := 1#8, param := 4#12 }

/-- Its entry, its tokens taken. -/
def feedScaledEntry : Entry :=
  { instr := .xmma feedScaled, val := 0#64, i1 := 0#6, i2 := 0#6, idst := 0#6, bad := false, sPend := false
    popsTaken := true, pushOwed := false, rows := 0, offs := [], late := [], stall := .none
    stamp := { vc := 1#7, ashape := 1#4, emode := 0#4, sqp := 0#12 }, addr := 0#64 }

/-- X runs that entry with 16 clean rows in the slot; the cell of t0 that would be a scale is poisoned. -/
def scalePoisoned : State :=
  { State.reset with
    acting := some (.x, feedScaledEntry)
    ctx := { State.reset.ctx with
      tiles := [(0, { Tile.entry with state := .full, cells := [(0, { bits := 0#32, pois := true })] })]
      feed := List.replicate 16 { bytes := [], pois := [] }
      base := { State.reset.ctx.base with qX := [feedScaledEntry] } } }

/-- The slot, the weights and the mask are clean; no tile register is a source. -/
theorem scalePoisoned_clean : Say.xClean scalePoisoned feedScaled := by
  refine ⟨fun k hk => absurd hk (List.not_mem_nil (a := k)), fun r hr g => ?_, fun g => ⟨rfl, rfl⟩, rfl⟩
  rw [List.eq_of_mem_replicate hr]
  rfl

/-- The step consumes the scale's poison and is not counted. -/
theorem exec_xmma_scalePoisoned : ∀ t, exec (.xmma feedScaled) scalePoisoned = .next t →
    t.pmcGet scalePoisoned.ctx.vdn.toNat 10 = 0#64 := by
  intro t ht
  have h : (match exec (.xmma feedScaled) scalePoisoned with
    | .next t => t.pmcGet scalePoisoned.ctx.vdn.toNat 10
    | _ => 0#64) = 0#64 := by decide
  rw [ht] at h
  exact h

end Sys2Proof.Machine

namespace Sys2Proof
open Machine

/-- Refutes O25: it speaks of every XMMA, also of one that R235 reserves, from the feed with AT scaled. Its scales are
cells of STILE, which is no source that it readies or that the statement takes as clean: a poisoned one makes the step fault. -/
theorem not_macroOperationsStep : ¬ Obligations.MacroOperationsStep := by
  intro h
  obtain ⟨t, ht, -, -, -, -, -, -, -, hpmc, -⟩ :=
    h scalePoisoned feedScaled feedScaledEntry 0 (by decide) ⟨rfl, rfl, rfl, rfl, Or.inl rfl⟩ rfl rfl scalePoisoned_clean
      (by decide) (fun _ => by decide) (fun hfeed => absurd (by decide) hfeed)
  rw [exec_xmma_scalePoisoned t ht] at hpmc
  exact absurd hpmc (by decide)

end Sys2Proof
end

section
/-! # The forced save of a handler that publishes (O39)

A handler whose forced save comes between the two homes of a MIRROR creation leaves the version existing on both, and that may
make other tasks READY. -/

namespace Sys2Proof.Machine

section
variable {s t : State} {m : Nat}

/-! ### What a forced save leaves of the tasks -/

/-- The state of a task. -/
def State.taskState (s : State) (m : Nat) : Option TState := (s.findTask m).map Task.state

theorem State.taskState_of_tasks (h : t.tasks = s.tasks) (m : Nat) : t.taskState m = s.taskState m := by
  rw [State.taskState, State.findTask, h]; rfl

theorem State.onCtx_tasks {f : State → State} (hf : ∀ u, (f u).tasks = u.tasks) (s : State) (k : Nat) :
    (s.onCtx k f).tasks = s.tasks := by
  have hfocus (u : State) (j : Nat) : (u.focus j).tasks = u.tasks := (u.focus_frame j).2.1
  unfold State.onCtx
  split
  · rfl
  · rw [hfocus, hf, hfocus]

theorem State.leaveCore_tasks (s : State) (k : Nat) : (s.leaveCore k).tasks = s.tasks :=
  State.onCtx_tasks (fun u => u.saveFocus_frame.2.1) s k

theorem State.cleanL1_tasks (s : State) (k : Nat) : (s.cleanL1 k).tasks = s.tasks :=
  State.onCtx_tasks (fun u => u.restedL1_frame.2.1) s k

theorem State.displace_tasks (l : List Nat) (s : State) (k : Nat) : (s.displace l k).tasks = s.tasks := by
  unfold State.displace
  split
  · rfl
  · split
    · split
      · refine (State.cleanL1_tasks _ k).trans ?_
        split
        · split
          · rfl
          · exact State.leaveCore_tasks s _
        · rfl
      · rfl
    · rfl

theorem State.vacate_tasks (s : State) (k : Nat) : (s.vacate k).tasks = s.tasks := rfl

/-- A crew's stop leaves the tasks to be made READY (R19). -/
theorem State.stopCrew_tasks (s : State) (n : Option Nat) : (s.stopCrew n).tasks = s.tasks := by
  unfold State.stopCrew
  split
  · rfl
  · refine foldl_rel (R := fun a b : State => b.tasks = a.tasks) (fun _ => rfl) (fun h h' => h'.trans h) (fun u j => ?_) _ _
    split
    · rfl
    · exact u.displace_tasks [] j

theorem State.countStop_tasks (s : State) (c : Ctx) : (s.countStop c).tasks = s.tasks := by
  unfold State.countStop
  split <;> rfl

theorem State.ctxEvent_tasks (s : State) (code a b : Nat) : (s.ctxEvent code a b).tasks = s.tasks := by
  obtain ⟨mem, marks, scopes, dies, h⟩ := s.event_eq (dieOf s.ctx.core) code s.ctx.part.toNat s.ctx.vdn.toNat a b
  rw [State.ctxEvent, h]

/-- A task made READY leaves the state of every other. -/
theorem State.taskReady_other {n : Option Nat} (hm : n ≠ some m) : (s.taskReady n).taskState m = s.taskState m := by
  unfold State.taskReady
  split
  · rfl
  · rename_i j
    split
    · rename_i k hk
      split
      · obtain ⟨-, hother⟩ := State.readyTask_done hk
        have h := congrArg (Option.map Task.state) (hother m (fun he => hm (by rw [he])))
        rwa [Option.map_map, Option.map_map] at h
      · rfl
    · rfl

/-- Of the tasks but its own, a forced save changes at most those that the versions it lets go change (R351). -/
theorem State.forceSave_other
    (ht : (s.unreserveAll s.ctx.tbank.creations).ctx.task ≠ some m) :
    s.forceSave.taskState m = (s.unreserveAll s.ctx.tbank.creations).taskState m := by
  unfold State.forceSave
  extract_lets u code slice c s1 s2 s3
  have h3 : s3.tasks = u.tasks := by
    have h2 : s2.tasks = u.tasks := s1.ctxEvent_tasks 4 u.ctx.id code
    refine Eq.trans ?_ h2
    show (if slice = true then s2.countStop s2.ctx else s2).tasks = s2.tasks
    split
    · exact s2.countStop_tasks s2.ctx
    · rfl
  rw [State.taskReady_other ht]
  refine State.taskState_of_tasks ?_ m
  rw [State.stopCrew_tasks, State.vacate_tasks, s3.saveFocus_frame.2.1, h3]

end

/-! ### The handler -/

/-- Version 3 of the region's first sector as a MIRROR creation has made it on die 0 only. -/
def halfMade : Ver := { Tests.ver3 with only := some 0 }

/-- A tenant handler at the end of its budget, its VST waiting for the second home of that version; task 0, whose member it is,
runs, and task 1 on die 1 waits for the version. -/
def handlerPublishes : State :=
  { Tests.stT with
    regions := [{ Tests.regionT [halfMade] with mirror := true }]
    tasks := [{ Tests.taskT with state := .running, dispatched := true, members := [4096] },
      { Tests.taskT with id := 1, die := 1, state := .waiting, pairs := [{ base := 0x80000#64, first := 0, count := 1, mode := 0, version := 3 }] }]
    ctx := { Tests.ctxT with
      thnd := true
      task := some 0
      tbank := { RegBank.entry with
        wait := some { pc := 0x10000#64, kind := .mirror 0x80000#64 3, since := 0, checked := false, cover := [], given := .nothing } } } }

theorem handlerPublishes_idle : Say.Idle handlerPublishes.ctx.tbank :=
  ⟨rfl, fun e en he => by cases e <;> cases he⟩

/-- Nothing is under way: the forced save is made at once. -/
theorem exec_forcedSave_handlerPublishes :
    exec (.forcedSave handlerPublishes.ctx.id) handlerPublishes = .next (handlerPublishes.forceSave.focus handlerPublishes.ctx.id) := by
  have hgo : handlerPublishes.forceEnd = handlerPublishes.forceSave := if_neg (by decide)
  have hon : handlerPublishes.onCtx handlerPublishes.ctx.id State.forceEnd =
      handlerPublishes.forceSave.focus handlerPublishes.ctx.id := by
    rw [State.onCtx, State.findCtx_ctx, State.focus_self, hgo]
  show execForcedSave handlerPublishes.ctx.id handlerPublishes = _
  have hspent : handlerPublishes.ctx.spent = true ∧ handlerPublishes.running handlerPublishes.ctx = true := by decide
  rw [execForcedSave, State.findCtx_ctx, ← hon]
  dsimp only
  rw [if_pos hspent]

end Sys2Proof.Machine

namespace Sys2Proof
open Machine

/-- Refutes O39: the forced save lets go a publication that has reached one of its two homes, the version comes to exist on both,
and a task that waited for it becomes READY, besides the saved context's own. -/
theorem not_causesAreTakenInOrder : ¬ Obligations.CausesAreTakenInOrder := by
  intro h
  obtain ⟨-, -, hsave, -⟩ := h handlerPublishes
  obtain ⟨t, x, ht, -, -, -, -, -, -, -, hdone⟩ :=
    hsave rfl rfl rfl (by decide) handlerPublishes_idle rfl rfl
  obtain ⟨-, hother⟩ := hdone 0 { Tests.taskT with state := .running, dispatched := true, members := [4096] } rfl rfl rfl
  rw [exec_forcedSave_handlerPublishes] at ht
  have hnext : handlerPublishes.forceSave.focus handlerPublishes.ctx.id = t := Host.Outcome.next.inj ht
  have hready : t.taskState 1 = some .ready := by
    rw [← hnext, State.taskState_of_tasks (State.focus_frame _ _).2.1, State.forceSave_other (by decide)]
    decide
  have hwaits : t.taskState 1 = handlerPublishes.taskState 1 := by
    have h1 := congrArg (Option.map Task.state) (hother 1 (by decide))
    rwa [Option.map_map, Option.map_map] at h1
  rw [hready] at hwaits
  exact absurd hwaits (by decide)

end Sys2Proof
end

section
/-! # An entry's turn performed whole

The state in which the work of an entry that an engine runs starts, and what its end leaves of the state that the work has
come to (R147, R248, R344). -/

namespace Sys2Proof.Machine

/-! ### What a context holds besides its registers -/

/-- A context without its register banks and L1. -/
def Ctx.body (c : Ctx) : Ctx :=
  { c with base := RegBank.entry, tbank := RegBank.entry, sbank := RegBank.entry, l1 := [] }

@[simp] theorem Ctx.body_setBank (c : Ctx) (b : RegBank) : (c.setBank b).body = c.body := by
  unfold Ctx.setBank
  split
  · rfl
  · split <;> rfl

section
variable {c d : Ctx}

theorem Ctx.tiles_of_body (h : d.body = c.body) : d.tiles = c.tiles :=
  (congrArg Ctx.tiles h : d.body.tiles = c.body.tiles)
theorem Ctx.acc_of_body (h : d.body = c.body) : d.acc = c.acc :=
  (congrArg Ctx.acc h : d.body.acc = c.body.acc)
theorem Ctx.pad_of_body (h : d.body = c.body) : d.pad = c.pad :=
  (congrArg Ctx.pad h : d.body.pad = c.body.pad)
theorem Ctx.gpois_of_body (h : d.body = c.body) : d.gpois = c.gpois :=
  (congrArg Ctx.gpois h : d.body.gpois = c.body.gpois)
theorem Ctx.banks_of_body (h : d.body = c.body) : d.banks = c.banks :=
  (congrArg Ctx.banks h : d.body.banks = c.body.banks)
theorem Ctx.spbanks_of_body (h : d.body = c.body) : d.spbanks = c.spbanks :=
  (congrArg Ctx.spbanks h : d.body.spbanks = c.body.spbanks)
theorem Ctx.pc_of_body (h : d.body = c.body) : d.pc = c.pc :=
  (congrArg Ctx.pc h : d.body.pc = c.body.pc)

theorem Ctx.tile_of_body (h : d.body = c.body) (t : Nat) : d.tile t = c.tile t := by
  rw [Ctx.tile, Ctx.tiles_of_body h]; rfl

theorem Ctx.padBank_of_body (h : d.body = c.body) (b : Nat) : d.padBank b = c.padBank b := by
  rw [Ctx.padBank, Ctx.banks_of_body h]; rfl

theorem Ctx.padBytes_of_body (h : d.body = c.body) (a n : Nat) : d.padBytes a n = c.padBytes a n := by
  rw [Ctx.padBytes, Ctx.pad_of_body h]; rfl

theorem Ctx.padPoison_of_body (h : d.body = c.body) (a n : Nat) : d.padPoison a n = c.padPoison a n := by
  rw [Ctx.padPoison, Ctx.gpois_of_body h]; rfl

end

/-! ### The tokens an entry takes -/

/-- The counts of the FIFOs once an entry's pops are taken. -/
def State.taken (s : State) (e : Eng) (tok : Tok) (en : Entry) : Fifos :=
  (if en.popsTaken then some s.bank.fifo else s.bank.fifo.pop (popsOf e tok)).getD s.bank.fifo

/-- The state in which the work of an entry at the head starts. -/
def State.turned (s : State) (e : Eng) (tok : Tok) (en : Entry) : State :=
  ({ s with acting := none } : State).setBank
    ((s.bank.setFifo (s.taken e tok en)).setQueue e (en.begun :: (s.bank.queue e).tail))

section
variable {s v : State} {e : Eng} {tok : Tok} {en : Entry} {n : Nat}

theorem State.taken_eq (h : Say.Runs s e tok en) :
    (if en.popsTaken then some s.bank.fifo else s.bank.fifo.pop (popsOf e tok)) = some (s.taken e tok en) := by
  obtain ⟨-, -, -, -, hpops⟩ := h
  unfold State.taken
  cases htaken : en.popsTaken with
  | true => rfl
  | false =>
    obtain ⟨g, hg, -⟩ := Fifos.pop_there (List.nodup_range.sublist (popsOf_sublist e tok)) (hpops.resolve_left (by simp [htaken]))
    simp [hg]

/-- A FIFO that the entry does not pop now keeps its count. -/
theorem State.taken_at (h : Say.Runs s e tok en) (hn : n < 8) (hp : en.popsTaken = true ∨ n ∉ popsOf e tok) :
    (s.taken e tok en).at n = s.bank.fifo.at n := by
  have heq := State.taken_eq h
  obtain ⟨-, -, -, -, hpops⟩ := h
  cases htaken : en.popsTaken with
  | true =>
    rw [htaken, if_pos rfl] at heq
    rw [← Option.some.inj heq]
  | false =>
    obtain ⟨g, hg, hat⟩ := Fifos.pop_there (List.nodup_range.sublist (popsOf_sublist e tok)) (hpops.resolve_left (by simp [htaken]))
    rw [htaken, if_neg (by simp), hg] at heq
    rw [← Option.some.inj heq, hat n hn, if_neg (hp.resolve_left (by simp [htaken]))]

@[simp] theorem State.turned_acting : (s.turned e tok en).acting = none := rfl
@[simp] theorem State.turned_mem : (s.turned e tok en).mem = s.mem := rfl
@[simp] theorem State.turned_parts : (s.turned e tok en).parts = s.parts := rfl
@[simp] theorem State.turned_body : (s.turned e tok en).ctx.body = s.ctx.body := Ctx.body_setBank _ _

theorem State.turned_bank : (s.turned e tok en).bank =
    (s.bank.setFifo (s.taken e tok en)).setQueue e (en.begun :: (s.bank.queue e).tail) := State.bank_setBank _ _

/-- The registers are not the entry's to change as its tokens are taken. -/
theorem State.turned_regs : (s.turned e tok en).bank.s = s.bank.s ∧ (s.turned e tok en).bank.k = s.bank.k ∧
    (s.turned e tok en).bank.estat = s.bank.estat := by
  rw [State.turned_bank]
  cases e <;> exact ⟨rfl, rfl, rfl⟩

theorem State.turned_awake {t : Nat} (h : Say.Awake s t) : Say.Awake (s.turned e tok en) t := by
  unfold Say.Awake
  rw [Ctx.tile_of_body State.turned_body]
  exact h

theorem State.turned_cell (m r c : Nat) : (s.turned e tok en).ctx.cell m r c = s.ctx.cell m r c :=
  Ctx.cell_of_tiles (Ctx.tiles_of_body State.turned_body) m r c

/-! ### The end of a turn -/

/-- The release of an entry with REL (R133). -/
def State.released (s : State) (rel : Option Nat) : State := match rel with
  | some sc => s.releaseAll sc
  | none => s

theorem State.released_flushed (s : State) (rel : Option Nat) : s.Flushed (s.released rel) := by
  cases rel with
  | none => exact .refl s
  | some sc => exact s.releaseAll_flushed sc

/-- The turn of an entry of L, V or S. -/
theorem engineRun_runs (h : Say.Runs s e tok en) (he : e ≠ .x) (rel : Option Nat) (work : Entry → State → EngOut) :
    engineRun e en tok rel work { s with acting := none } =
      match work en.begun (s.turned e tok en) with
      | .wait v w => v.onHead e (fun x => { x with stall := w })
      | .part v => v.holdCells e (s.turned e tok en).ctx
      | .done v => (v.released rel).complete e en.begun tok (s.turned e tok en).ctx
      | .fault v code sub => (v.complete e en.begun tok (s.turned e tok en).ctx).engineFault e code sub en.addr := by
  have htaken := State.taken_eq h
  obtain ⟨-, -, hlate, howed, -⟩ := h
  have hstart : (({ s with acting := none } : State).setBank { s.bank with fifo := s.taken e tok en }).setHead e en.begun =
      s.turned e tok en := by
    rw [State.setHead_head (RegBank.lead_other _ he), State.setBank_setBank, State.bank_setBank]
    unfold State.turned
    cases e <;> rfl
  rw [engineRun_work (s := { s with acting := none }) hlate howed htaken]
  dsimp only
  have hb : ({ s with acting := none } : State).bank = s.bank := rfl
  rw [hb]
  rw [show ({ en with popsTaken := true, stall := .none } : Entry) = en.begun from rfl, hstart]
  cases work en.begun (s.turned e tok en) with
  | done v => cases rel <;> rfl
  | _ => rfl

/-- An entry's turn that completes: the release, then the pushes. -/
theorem exec_done {i : Instr} {rel : Option Nat} {rs : List Reg} {rd : State → Except Cause Taken} {work : Entry → State → EngOut}
    (hi : exec i s = engineInstr e i tok rel rs rd work s) (h : Say.Runs s e tok en) (he : e ≠ .x)
    (hw : work en.begun (s.turned e tok en) = .done v) (hv : v.parts = false) :
    exec i s = .next (pushOut e en.begun tok (v.released rel)) := by
  have hparts : (v.released rel).parts = false := by
    rw [v.released_flushed rel]; exact hv
  rw [hi, engineInstr_run h.1, engineRun_runs h he, hw]
  exact congrArg _ (State.complete_whole hparts (RegBank.lead_other _ he) _ _ _)

/-- What the end of an entry's turn leaves of the state its work has come to. -/
theorem pushOut_released (e : Eng) (en : Entry) (tok : Tok) (v : State) (rel : Option Nat) :
    (pushOut e en tok (v.released rel)).acting = v.acting ∧
    (rel = none → (pushOut e en tok (v.released rel)).mem = v.mem) ∧
    (pushOut e en tok (v.released rel)).ctx.body = v.ctx.body ∧
    (pushOut e en tok (v.released rel)).bank = v.bank.pushed e en tok := by
  obtain ⟨hact, hmem, -⟩ := pushOut_frame e en tok (v.released rel)
  have hf := v.released_flushed rel
  refine ⟨hact.trans (by rw [hf]), fun hr => by rw [hmem, hr]; rfl, ?_, by rw [pushOut_bank, hf.bank]⟩
  obtain ⟨c, hc⟩ := pushOut_eq e en tok (v.released rel)
  rw [hc]
  show ((v.released rel).ctx.setBank _).body = _
  rw [Ctx.body_setBank, hf]
  rfl

/-- An entry's pushes leave the other registers. -/
theorem RegBank.pushed_regs (b : RegBank) (e : Eng) (en : Entry) (tok : Tok) : (b.pushed e en tok).s = b.s ∧
    (b.pushed e en tok).k = b.k ∧ (b.pushed e en tok).estat = b.estat := by
  unfold RegBank.pushed
  split <;> cases e <;> exact ⟨rfl, rfl, rfl⟩

theorem Ctx.inHandler_of_body {c d : Ctx} (h : d.body = c.body) : d.inHandler = c.inHandler :=
  (congrArg Ctx.inHandler h : d.body.inHandler = c.body.inHandler)

theorem Ctx.latches_of_body {c d : Ctx} (h : d.body = c.body) : d.latches = c.latches :=
  (congrArg Ctx.latches h : d.body.latches = c.body.latches)

theorem Ctx.latch_setLatch (c : Ctx) (n : Nat) (l : Option Latch) : (c.setLatch n l).latch n = l := Sparse.get_set_self ..

/-- An entry of base code that faults: its pushes are made and the fault stands in its engine's latch, which was empty
(R344). -/
theorem exec_fault {i : Instr} {rel : Option Nat} {rs : List Reg} {rd : State → Except Cause Taken} {work : Entry → State → EngOut}
    {code sub : BitVec 8} (hi : exec i s = engineInstr e i tok rel rs rd work s) (h : Say.Runs s e tok en) (he : e ≠ .x)
    (hw : work en.begun (s.turned e tok en) = .fault v code sub)
    (hv : v.parts = s.parts ∧ v.ctx.body = s.ctx.body) (hb : s.ctx.inHandler = false) (hl : s.ctx.latch e.num = none) :
    ∃ t, exec i s = .next t ∧ t.acting = v.acting ∧ t.mem = v.mem ∧ t.bank = v.bank.pushed e en.begun tok ∧
      t.ctx.body = (s.ctx.setLatch e.num (some { code := code, sub := sub, addr := en.addr })).body := by
  obtain ⟨hparts, hbody⟩ := hv
  obtain ⟨pact, pmem, pbody, pbank⟩ := pushOut_released e en.begun tok v none
  have hcomplete : v.complete e en.begun tok (s.turned e tok en).ctx = pushOut e en.begun tok v :=
    State.complete_whole (hparts.trans h.2.1) (RegBank.lead_other _ he) _ _ _
  generalize hp : pushOut e en.begun tok v = p at hcomplete
  have hpp : pushOut e en.begun tok (v.released none) = p := hp
  rw [hpp] at pact pmem pbody pbank
  have hlatch : p.ctx.latch e.num = none := by
    rw [Ctx.latch, Ctx.latches_of_body (pbody.trans hbody)]
    exact hl
  have hfault : p.engineFault e code sub en.addr =
      { p with ctx := p.ctx.setLatch e.num (some { code := code, sub := sub, addr := en.addr }) } := by
    rw [engineFault_base ((Ctx.inHandler_of_body (pbody.trans hbody)).trans hb), State.latchFault, hlatch]
  refine ⟨p.engineFault e code sub en.addr, ?_, ?_, ?_, ?_, ?_⟩
  · rw [hi, engineInstr_run h.1, engineRun_runs h he, hw]
    dsimp only
    rw [hcomplete]
  · rw [hfault]; exact pact
  · rw [hfault]; exact pmem rfl
  · rw [hfault]; exact pbank
  · have hl : p.ctx.latches = s.ctx.latches := Ctx.latches_of_body (pbody.trans hbody)
    have hset (c : Ctx) (l : Option Latch) : (c.setLatch e.num l).body = c.body.setLatch e.num l := rfl
    rw [hfault]
    show (p.ctx.setLatch _ _).body = _
    rw [hset, hset, pbody.trans hbody]

end

end Sys2Proof.Machine
end

section
/-! # Entries of L (O24)

What an L entry reads and readies where its registers and banks serve accesses, the tile loads, and what their cells hold
(R224 to R227). -/

namespace Sys2Proof.Machine

/-! ### Operands that serve accesses -/

section
variable {s : State} {c : Ctx}

theorem Ctx.wakeTiles_full {ts : List Nat} (h : ∀ t ∈ ts, (c.tile t).state = .full) : c.wakeTiles ts = c := by
  induction ts with
  | nil => rfl
  | cons t ts ih =>
    obtain ⟨ht, hts⟩ := List.forall_mem_cons.mp h
    show (c.wakeTile t).wakeTiles ts = c
    rw [Ctx.wakeTile_full ht, ih hts]

/-- An entry whose registers serve accesses, its destination unlocked, goes on (R50, R54). -/
theorem prepTiles_awake {srcs : List Nat} {dst : Option Nat} (hs : ∀ t ∈ srcs, Say.Awake s t) (hd : ∀ t ∈ dst, Say.Writable s t)
    (spec : Bool) : prepTiles spec srcs dst s = .ok s [] := by
  have hall : ∀ t ∈ srcs ++ dst.toList, Say.Awake s t := fun t ht =>
    (List.mem_append.mp ht).elim (hs t) (fun h => (hd t (Option.mem_toList.mp h)).1)
  have habsent : (srcs ++ dst.toList).find? (fun t => (s.ctx.tile t).state == .absent) = none :=
    List.find?_eq_none.mpr fun t ht => by rw [(hall t ht).1]; decide
  have hlock : dst.any (fun t => (s.ctx.tile t).lock) = false := by
    cases dst with
    | none => rfl
    | some t => exact (hd t rfl).2
  have hoff : srcs.filter (fun t => (s.ctx.tile t).state == .off) = [] :=
    List.filter_eq_nil_iff.mpr fun t ht => by rw [(hs t ht).1]; decide
  have hon : srcs.filter (fun t => !([] : List Nat).contains t) = srcs := List.filter_eq_self.mpr fun _ _ => rfl
  have hready : srcs.all (fun t => (s.ctx.tile t).ready) = true :=
    List.all_eq_true.mpr fun t ht => Tile.ready_of (hs t ht).1 (hs t ht).2
  unfold prepTiles
  simp only [habsent, hlock, hoff, hon, Ctx.wakeTiles_full fun t ht => (hs t ht).1, hready, ite_self]
  rfl

theorem Ctx.padWakeAll_full {bs : List Nat} (h : ∀ b ∈ bs, (c.padBank b).state = .full ∧ (c.padBank b).waking = false) :
    c.padWakeAll bs = (c, true) := by
  have hfold : bs.foldl Ctx.padWake c = c := by
    induction bs with
    | nil => rfl
    | cons b bs ih =>
      obtain ⟨hb, hbs⟩ := List.forall_mem_cons.mp h
      have hone : c.padWake b = c := by simp [Ctx.padWake, hb.1]
      rw [List.foldl_cons, hone, ih hbs]
  have hready : bs.all c.padReady = true :=
    List.all_eq_true.mpr fun b hb => by simp [Ctx.padReady, h b hb]
  rw [Ctx.padWakeAll, hfold, hready]

/-- Banks that serve accesses are ready to be read (R54). -/
theorem prepPad_awake {spans : List (Nat × Nat)} (h : ∀ sp ∈ spans, Say.PadAwake s sp.1 sp.2) (spec : Bool) :
    prepPad spec spans s = .ok s [] := by
  have hbs : ∀ b ∈ (spans.flatMap (fun sp => banksOf sp.1 sp.2)).dedup,
      (s.ctx.padBank b).state = .full ∧ (s.ctx.padBank b).waking = false := fun b hb => by
    obtain ⟨sp, hsp, hb⟩ := List.mem_flatMap.mp (List.mem_dedup.mp hb)
    exact h sp hsp b hb
  have hoff : ((spans.flatMap (fun sp => banksOf sp.1 sp.2)).dedup).filter (fun b => (s.ctx.padBank b).state == .off) = [] :=
    List.filter_eq_nil_iff.mpr fun b hb => by rw [(hbs b hb).1]; decide
  have hon (l : List Nat) : l.filter (fun b => !([] : List Nat).contains b) = l := List.filter_eq_self.mpr fun _ _ => rfl
  unfold prepPad
  simp only [hoff, hon, Ctx.padWakeAll_full hbs, ite_self]
  rfl

theorem padBad_none (c : Ctx) (a n : Nat) : padBad c [] a n = c.padPoison a n := by simp [padBad]

/-- A number of scratchpad bytes as the entry reads it. -/
theorem padNum_turned (s : State) (e : Eng) (tok : Tok) (en : Entry) (a n : Nat) :
    padNum (s.turned e tok en).ctx [] a n = (Say.padNat s a n, s.ctx.padPoison a n) := by
  rw [padNum, padBad_none, Ctx.padBytes_of_body State.turned_body, Ctx.padPoison_of_body State.turned_body]
  rfl

theorem natOfBytes_lt (l : List Byte) : natOfBytes l < 256 ^ l.length := by
  induction l with
  | nil => exact Nat.one_pos
  | cons b l ih =>
    rw [natOfBytes, List.length_cons, pow_succ]
    have := b.isLt
    omega

theorem padNat_lt (s : State) (a n : Nat) : Say.padNat s a n < 256 ^ n := by
  have h := natOfBytes_lt ((List.range n).map (fun i => s.ctx.padByte (a + i)))
  rwa [List.length_map, List.length_range] at h

end

/-! ### Last uses (R57) -/

/-- A context without its registers, L1 and scratchpad. -/
def Ctx.offPad (c : Ctx) : Ctx := { c.body with pad := [], gpois := [], glive := [], banks := [] }

theorem Ctx.offPad_of_body {c d : Ctx} (h : d.body = c.body) : d.offPad = c.offPad := by rw [Ctx.offPad, h]; rfl

theorem Ctx.padTo_offPad (c : Ctx) (b : Nat) (st : Supply) : (c.padTo b st).offPad = c.offPad := by
  unfold Ctx.padTo
  dsimp only
  split <;> rfl

theorem Ctx.padLastUse_offPad (c : Ctx) (a n : Nat) : (c.padLastUse a n).offPad = c.offPad := by
  unfold Ctx.padLastUse
  dsimp only
  refine (foldl_rel (R := fun c d : Ctx => d.offPad = c.offPad) (fun _ => rfl) (fun h h' => h'.trans h) (fun d b => ?_) _ _).trans rfl
  split
  · unfold Ctx.padPolicy
    split
    · rfl
    · exact d.padTo_offPad _ _
  · rfl

/-- SLU changes banks and their contents only (R57). -/
theorem sluSpans_eq (slu : Bool) (spans : List (Nat × Nat)) (s : State) :
    ∃ c, sluSpans slu spans s = s.setCtx c ∧ c.offPad = s.ctx.offPad ∧ (slu = false → c = s.ctx) := by
  cases slu with
  | false => exact ⟨s.ctx, rfl, rfl, fun _ => rfl⟩
  | true =>
    refine ⟨_, rfl, ?_, fun h => absurd h (by decide)⟩
    exact foldl_rel (R := fun c d : Ctx => d.offPad = c.offPad) (fun _ => rfl) (fun h h' => h'.trans h)
      (fun (c : Ctx) (sp : Nat × Nat) => c.padLastUse_offPad sp.1 sp.2) _ _

theorem State.countPort_eq (s : State) (spans : List (Nat × Nat)) : ∃ p, s.countPort spans = { s with pmc := p } := by
  unfold State.countPort
  dsimp only
  split
  · exact ⟨s.pmc, rfl⟩
  · exact ⟨_, rfl⟩

theorem State.countPort_frame (s : State) (spans : List (Nat × Nat)) : (s.countPort spans).ctx = s.ctx ∧
    (s.countPort spans).acting = s.acting ∧ (s.countPort spans).mem = s.mem ∧ (s.countPort spans).parts = s.parts := by
  obtain ⟨p, hp⟩ := s.countPort_eq spans
  rw [hp]
  exact ⟨rfl, rfl, rfl, rfl⟩

theorem State.countPort_nil (s : State) : s.countPort [] = s := by
  unfold State.countPort
  exact if_pos (by decide)

/-! ### The work of an entry of L -/

/-- How an entry reads its scratchpad numbers: as poison where its range has failed (R44, R224). -/
def readAs (s : State) (en : Entry) (a n : Nat) : Nat × Bool :=
  if en.bad then (0, true) else (Say.padNat s a n, s.ctx.padPoison a n)

section
variable {s : State} {tok : Tok} {en : Entry} {i : Instr} {rel : Option Nat} {rs : List Reg} {rd : State → Except Cause Taken}
  {work : Entry → State → EngOut} {slu : Bool} {spans : List (Nat × Nat)} {dst : Option Nat}
  {put : (Nat → Nat → Nat × Bool) → State → State}

/-- The end of an L entry's work that has come to v but for the last uses of its spans. -/
theorem exec_lSlu {v : State} (hi : exec i s = engineInstr .l i tok rel rs rd work s) (h : Say.Runs s .l tok en)
    (hw : work en.begun (s.turned .l tok en) = .done (sluSpans slu spans v))
    (hv : v.acting = none ∧ v.mem = s.mem ∧ v.parts = s.parts) :
    ∃ t, exec i s = .next t ∧ t.acting = none ∧ (rel = none → t.mem = s.mem) ∧ t.ctx.offPad = v.ctx.offPad ∧
      (slu = false → t.ctx.pad = v.ctx.pad) := by
  obtain ⟨hact, hmem, hparts⟩ := hv
  obtain ⟨c, hc, hoff, hsame⟩ := sluSpans_eq slu spans v
  rw [hc] at hw
  have hrun := exec_done hi h (by decide) hw (hparts.trans h.2.1)
  obtain ⟨tact, tmem, tbody, -⟩ := pushOut_released .l en.begun tok (v.setCtx c) rel
  refine ⟨_, hrun, tact.trans hact, fun hr => (tmem hr).trans hmem, (Ctx.offPad_of_body tbody).trans hoff, fun hs => ?_⟩
  have hcv : c = v.ctx := hsame hs
  exact (Ctx.pad_of_body tbody).trans (congrArg Ctx.pad hcv)

/-- The same with the port's conflicts counted (R83). -/
theorem exec_lDone {u : State} (hi : exec i s = engineInstr .l i tok rel rs rd work s) (h : Say.Runs s .l tok en)
    (hw : work en.begun (s.turned .l tok en) = .done (sluSpans slu spans (u.countPort spans)))
    (hu : u.acting = none ∧ u.mem = s.mem ∧ u.parts = s.parts) :
    ∃ t, exec i s = .next t ∧ t.acting = none ∧ (rel = none → t.mem = s.mem) ∧ t.ctx.offPad = u.ctx.offPad ∧
      (slu = false → t.ctx.pad = u.ctx.pad) := by
  obtain ⟨hact, hmem, hparts⟩ := hu
  obtain ⟨pctx, pact, pmem, pparts⟩ := u.countPort_frame spans
  obtain ⟨t, ht, tact, tmem, toff, tpad⟩ := exec_lSlu hi h hw ⟨pact.trans hact, pmem.trans hmem, pparts.trans hparts⟩
  rw [pctx] at toff tpad
  exact ⟨t, ht, tact, tmem, toff, tpad⟩

/-- An entry whose range has failed, its destination ready, writes what it reads as poison (R44, R224). -/
theorem lWork_bad {u : State} (hdst : ∀ t ∈ dst, Say.Writable u t) (hbad : en.bad = true) :
    lWork slu spans dst put en u = .done (put (fun _ _ => (0, true)) u).useFree := by
  unfold lWork
  rw [prepTiles_awake (srcs := []) (by simp) hdst]
  cases dst with
  | none => simp [hbad]
  | some t => simp [hbad, readyDst_awake (hdst t rfl).1]

/-- An entry whose destination and banks serve accesses writes what it reads (R224, R225). -/
theorem lWork_reads {u : State} (hdst : ∀ t ∈ dst, Say.Writable u t) (hbad : en.bad = false)
    (hpad : ∀ sp ∈ spans, Say.PadAwake u sp.1 sp.2) :
    lWork slu spans dst put en u = .done (sluSpans slu spans ((put (padNum u.ctx []) u).useFree.countPort spans)) := by
  unfold lWork
  rw [prepTiles_awake (srcs := []) (by simp) hdst]
  cases dst with
  | none => simp [hbad, prepPad_awake hpad]
  | some t => simp [hbad, prepPad_awake hpad, readyDst_awake (hdst t rfl).1]

/-- The turn of an L entry that writes what it has read by `put`. -/
theorem exec_lWork (hi : exec i s = engineInstr .l i tok rel rs rd work s)
    (hw : work en.begun (s.turned .l tok en) = lWork slu spans dst put en.begun (s.turned .l tok en)) (h : Say.Runs s .l tok en) (hdst : ∀ t ∈ dst, Say.Writable s t)
    (hpad : en.bad = false → ∀ sp ∈ spans, Say.PadAwake s sp.1 sp.2) (hput : ∀ rd u, ∃ c, put rd u = u.setCtx c) :
    ∃ t, exec i s = .next t ∧ t.acting = none ∧ (rel = none → t.mem = s.mem) ∧
      t.ctx.offPad = (put (readAs s en) (s.turned .l tok en)).ctx.offPad ∧
      (slu = false → t.ctx.pad = (put (readAs s en) (s.turned .l tok en)).ctx.pad) := by
  have hdst' : ∀ t ∈ dst, Say.Writable (s.turned .l tok en) t := fun t ht => by
    obtain ⟨hawake, hlock⟩ := hdst t ht
    exact ⟨State.turned_awake hawake, by rw [Ctx.tile_of_body State.turned_body]; exact hlock⟩
  obtain ⟨c, hc⟩ := hput (readAs s en) (s.turned .l tok en)
  have hfree : (put (readAs s en) (s.turned .l tok en)).useFree.acting = none ∧
      (put (readAs s en) (s.turned .l tok en)).useFree.mem = s.mem ∧
      (put (readAs s en) (s.turned .l tok en)).useFree.parts = s.parts := by
    rw [hc]
    exact ⟨rfl, rfl, rfl⟩
  cases hbad : en.bad with
  | true =>
    have hrd : (fun _ _ => (0, true)) = readAs s en := by
      funext a n
      rw [readAs, if_pos hbad]
    have hwork : work en.begun (s.turned .l tok en) =
        .done (sluSpans false [] (((put (readAs s en) (s.turned .l tok en)).useFree).countPort [])) := by
      rw [hw, lWork_bad (en := en.begun) hdst' hbad, hrd, State.countPort_nil]
      rfl
    obtain ⟨t, ht, hact, hmem, hoff, hsame⟩ := exec_lDone hi h hwork hfree
    exact ⟨t, ht, hact, hmem, hoff, fun _ => hsame rfl⟩
  | false =>
    have hrd : padNum (s.turned .l tok en).ctx [] = readAs s en := by
      funext a n
      rw [readAs, if_neg (by simp [hbad]), padNum_turned]
    have hpad' : ∀ sp ∈ spans, Say.PadAwake (s.turned .l tok en) sp.1 sp.2 := fun sp hsp b hb => by
      rw [Ctx.padBank_of_body State.turned_body]
      exact hpad hbad sp hsp b hb
    have hwork : work en.begun (s.turned .l tok en) =
        .done (sluSpans slu spans (((put (readAs s en) (s.turned .l tok en)).useFree).countPort spans)) := by
      rw [hw, lWork_reads (en := en.begun) hdst' hbad hpad', hrd]
    obtain ⟨t, ht, hact, hmem, hoff, hsame⟩ := exec_lDone hi h hwork hfree
    exact ⟨t, ht, hact, hmem, hoff, hsame⟩

end

/-! ### Cells written (R226) -/

/-- A cell of four bytes holds them, or their poison. -/
theorem newCell_holds (s u : State) (k a : Nat) : Say.Holds s (newCell u k (Say.padNat s a 4, s.ctx.padPoison a 4)) a 4 := by
  refine ⟨newCell_pois u k _, fun hclean => ?_⟩
  rw [hclean, newCell_clean]
  have hlt : Say.padNat s a 4 < 2 ^ 32 := lt_of_lt_of_eq (padNat_lt s a 4) (by norm_num)
  rw [BitVec.toNat_ofNat, Nat.mod_eq_of_lt hlt]

theorem get_sparseOf {α : Type} [DecidableEq α] (d : Nat → α) (f : Nat → α) {n k : Nat} (h : k < n) :
    Sparse.get d (sparseOf d n f) k = f k := by
  have := Sparse.get_setList_inside d [] 0 k ((List.range n).map f) (by simpa using h)
  simpa [sparseOf] using this

/-- A register written whole. -/
theorem putTile_cell (s : State) (t : Nat) (f : Nat → Nat → Nat × Bool) {r c : Nat} (hr : r < 64) (hc : c < 64) :
    (putTile s t f).ctx.cell t r c = newCell s (64 * r + c) (f r c) := by
  rw [putTile, show ∀ d, (s.setCtx d).ctx = d from fun _ => rfl, Ctx.cell_setTile_self]
  dsimp only
  rw [get_sparseOf _ _ (show 64 * r + c < 4096 by omega), show (64 * r + c) / 64 = r by omega, show (64 * r + c) % 64 = c by omega]

theorem putTile_other (s : State) {t m : Nat} (f : Nat → Nat → Nat × Bool) (h : m ≠ t) (r c : Nat) :
    (putTile s t f).ctx.cell m r c = s.ctx.cell m r c := Ctx.cell_setTile_ne _ _ h r c

/-! ### Packed elements (R42) -/

theorem packBits_lt (w : Nat) (l : List Nat) : packBits w l < 2 ^ (w * l.length) := by
  induction l with
  | nil => exact Nat.one_pos
  | cons v l ih =>
    have hv : v % 2 ^ w < 2 ^ w := Nat.mod_lt _ (by positivity)
    have hl : 2 ^ w * packBits w l + 2 ^ w ≤ 2 ^ w * 2 ^ (w * l.length) := by
      rw [← Nat.mul_succ]
      exact Nat.mul_le_mul_left _ ih
    rw [packBits, List.length_cons, Nat.mul_succ, Nat.add_comm (w * l.length), pow_add]
    omega

/-- Element q of packed ones. -/
theorem packBits_element (w : Nat) (l : List Nat) (q : Nat) : packBits w l / 2 ^ (w * q) % 2 ^ w = l.getD q 0 % 2 ^ w := by
  induction l generalizing q with
  | nil => simp [packBits]
  | cons v l ih =>
    cases q with
    | zero => simp [packBits]
    | succ q =>
      have hpow : 2 ^ (w * (q + 1)) = 2 ^ w * 2 ^ (w * q) := by rw [← pow_add]; congr 1; ring
      have hdiv : (v % 2 ^ w + 2 ^ w * packBits w l) / 2 ^ w = packBits w l := by
        rw [Nat.add_mul_div_left _ _ (by positivity), Nat.div_eq_of_lt (Nat.mod_lt _ (by positivity)), Nat.zero_add]
      rw [packBits, hpow, ← Nat.div_div_eq_div_mul, hdiv, ih]
      simp

end Sys2Proof.Machine
end

section
/-! # Tile loads (O24)

LLINE, LTILE, LTRANS and LZERO write one tile register (R226, R227). -/

namespace Sys2Proof.Machine

theorem relScope_none {rel : Bool} (h : rel = false) (sc : BitVec 3) : relScope rel sc = none := by rw [h]; rfl

section
variable {c d : Ctx}

theorem Ctx.tiles_of_offPad (h : d.offPad = c.offPad) : d.tiles = c.tiles := (congrArg Ctx.tiles h : d.offPad.tiles = c.offPad.tiles)
theorem Ctx.pc_of_offPad (h : d.offPad = c.offPad) : d.pc = c.pc := (congrArg Ctx.pc h : d.offPad.pc = c.offPad.pc)

end

section
variable {s : State} {tok : Tok} {en : Entry} {i : Instr} {rel : Option Nat} {rs : List Reg} {rd : State → Except Cause Taken}
  {work : Entry → State → EngOut} {slu : Bool} {spans : List (Nat × Nat)} {m : Nat}
  {put : (Nat → Nat → Nat × Bool) → State → State} {f : FLN}

/-- An entry that loads one tile register: what it leaves, and the registers' cells. -/
theorem exec_tileLoad (hi : exec i s = engineInstr .l i tok rel rs rd work s)
    (hw : work en.begun (s.turned .l tok en) = lWork slu spans (some m) put en.begun (s.turned .l tok en)) (h : Say.Runs s .l tok en) (hdst : Say.Writable s m)
    (hpad : en.bad = false → ∀ sp ∈ spans, Say.PadAwake s sp.1 sp.2)
    (hput : ∀ rd u, ∃ v, put rd u = u.setCtx (u.ctx.setTile m v)) :
    ∃ t, exec i s = .next t ∧ t.acting = none ∧ (slu = false → t.ctx.pad = s.ctx.pad) ∧ (rel = none → t.mem = s.mem) ∧
      t.ctx.pc = s.ctx.pc ∧ ∀ k r c, t.ctx.cell k r c = (put (readAs s en) (s.turned .l tok en)).ctx.cell k r c := by
  have hctx (rd : Nat → Nat → Nat × Bool) (u : State) : ∃ c, put rd u = u.setCtx c := by
    obtain ⟨v, hv⟩ := hput rd u
    exact ⟨_, hv⟩
  obtain ⟨t, ht, hact, hmem, hoff, hsame⟩ := exec_lWork hi hw h (fun k hk => Option.mem_some.mp hk ▸ hdst) hpad hctx
  obtain ⟨v, hv⟩ := hput (readAs s en) (s.turned .l tok en)
  refine ⟨t, ht, hact, fun hs => ?_, hmem, ?_, fun k r c => Ctx.cell_of_tiles (Ctx.tiles_of_offPad hoff) k r c⟩
  · have hstart : (s.turned .l tok en).ctx.pad = s.ctx.pad := Ctx.pad_of_body State.turned_body
    rw [hsame hs, hv]
    exact hstart
  · have hstart : (s.turned .l tok en).ctx.pc = s.ctx.pc := Ctx.pc_of_body State.turned_body
    rw [Ctx.pc_of_offPad hoff, hv]
    exact hstart

/-- LLINE: the lanes of its line hold what it has read. -/
theorem lline_loads (h : Say.Runs s .l f.tok en) (hdst : Say.Writable s f.line.tile.toNat)
    (hpad : en.bad = false → Say.PadAwake s en.val.toNat 256) :
    ∃ t, exec (.lline f) s = .next t ∧ t.acting = none ∧ (f.slu = false → t.ctx.pad = s.ctx.pad) ∧
      (f.rel = false → t.mem = s.mem) ∧ t.ctx.pc = s.ctx.pc ∧
      (∀ j < 64, Say.lane t f.line en.i1.toNat j =
        newCell (s.turned .l f.tok en) (64 * en.i1.toNat + j) (readAs s en (en.val.toNat + 4 * j) 4)) ∧
      Say.CellsBut s t (fun n r c => n = f.line.tile.toNat ∧ ∃ j < 64, (r, c) = Say.laneCell f.line.dir en.i1.toNat j) := by
  obtain ⟨t, ht, hact, hpadt, hmem, hpc, hcell⟩ := exec_tileLoad (i := .lline f) (m := f.line.tile.toNat) rfl rfl h hdst
    (fun hb sp hsp => List.mem_singleton.mp hsp ▸ hpad hb)
    (fun rd u => ⟨_, rfl⟩)
  have hix : en.i1.toNat < 64 := en.i1.isLt
  refine ⟨t, ht, hact, hpadt, fun hr => hmem (relScope_none hr _), hpc, fun j hj => ?_, fun n r c hr hc hn => ?_⟩
  · rw [Say.lane, hcell]
    exact putLine_lane hix List.nodup_range (fun j hj => List.mem_range.mp hj) (List.mem_range.mpr hj)
  · rw [hcell]
    refine (putLine_other hix (fun j hj => List.mem_range.mp hj) hc ?_).trans (State.turned_cell n r c)
    by_cases hm : n = f.line.tile.toNat
    · exact Or.inr fun j hj he => hn ⟨hm, j, List.mem_range.mp hj, he⟩
    · exact Or.inl hm

/-- LTILE: every cell of its register holds what it has read. -/
theorem ltile_loads (h : Say.Runs s .l f.tok en) (hdst : Say.Writable s f.line.tile.toNat)
    (hpad : en.bad = false → ∀ r < 64, Say.PadAwake s (en.val.toNat + r * tilePitch f.param) 256) :
    ∃ t, exec (.ltile f) s = .next t ∧ t.acting = none ∧ (f.slu = false → t.ctx.pad = s.ctx.pad) ∧
      (f.rel = false → t.mem = s.mem) ∧ t.ctx.pc = s.ctx.pc ∧
      (∀ r < 64, ∀ j < 64, t.ctx.cell f.line.tile.toNat r j = newCell (s.turned .l f.tok en) (64 * r + j)
        (readAs s en (en.val.toNat + r * tilePitch f.param + 4 * j) 4)) ∧
      Say.CellsBut s t (fun n _ _ => n = f.line.tile.toNat) := by
  obtain ⟨t, ht, hact, hpadt, hmem, hpc, hcell⟩ := exec_tileLoad (i := .ltile f) (m := f.line.tile.toNat) rfl rfl h hdst
    (fun hb sp hsp => by
      obtain ⟨r, hr, rfl⟩ := List.mem_map.mp hsp
      exact hpad hb r (List.mem_range.mp hr))
    (fun rd u => ⟨_, rfl⟩)
  refine ⟨t, ht, hact, hpadt, fun hr => hmem (relScope_none hr _), hpc, fun r hr j hj => ?_, fun n r c hr hc hn => ?_⟩
  · rw [hcell]
    rw [putTile_cell _ _ _ hr hj]
    rfl
  · rw [hcell, putTile_other _ _ hn]
    exact State.turned_cell n r c

/-- LTRANS: every cell of its register packs the elements it has read. -/
theorem ltrans_loads (h : Say.Runs s .l f.tok en) (hdst : Say.Writable s f.line.tile.toNat)
    (hpad : en.bad = false → ∀ k < 256 / transBytes f.param,
      Say.PadAwake s (en.val.toNat + k * transPitch f.param) (64 * transBytes f.param)) :
    ∃ t, exec (.ltrans f) s = .next t ∧ t.acting = none ∧ (f.slu = false → t.ctx.pad = s.ctx.pad) ∧
      (f.rel = false → t.mem = s.mem) ∧ t.ctx.pc = s.ctx.pc ∧
      (∀ r < 64, ∀ j < 64, t.ctx.cell f.line.tile.toNat r j = newCell (s.turned .l f.tok en) (64 * r + j)
        (packElems (transBytes f.param) ((List.range (4 / transBytes f.param)).map (fun q => readAs s en
          (en.val.toNat + (j * (4 / transBytes f.param) + q) * transPitch f.param + transBytes f.param * r) (transBytes f.param))))) ∧
      Say.CellsBut s t (fun n _ _ => n = f.line.tile.toNat) := by
  obtain ⟨t, ht, hact, hpadt, hmem, hpc, hcell⟩ := exec_tileLoad (i := .ltrans f) (m := f.line.tile.toNat) rfl rfl h hdst
    (fun hb sp hsp => by
      obtain ⟨k, hk, rfl⟩ := List.mem_map.mp hsp
      exact hpad hb k (List.mem_range.mp hk))
    (fun rd u => ⟨_, rfl⟩)
  refine ⟨t, ht, hact, hpadt, fun hr => hmem (relScope_none hr _), hpc, fun r hr j hj => ?_, fun n r c hr hc hn => ?_⟩
  · rw [hcell]
    rw [putTile_cell _ _ _ hr hj]
    rfl
  · rw [hcell, putTile_other _ _ hn]
    exact State.turned_cell n r c

/-- LZERO: every cell of its register is clean zero (R227). -/
theorem lzero_clears (h : Say.Runs s .l f.tok en) (hdst : Say.Writable s f.line.tile.toNat) :
    ∃ t, exec (.lzero f) s = .next t ∧ t.acting = none ∧ t.ctx.pad = s.ctx.pad ∧ t.mem = s.mem ∧
      (∀ r < 64, ∀ c < 64, t.ctx.cell f.line.tile.toNat r c = { bits := 0#32, pois := false }) ∧
      Say.CellsBut s t (fun n _ _ => n = f.line.tile.toNat) := by
  obtain ⟨t, ht, hact, hpadt, hmem, -, hcell⟩ := exec_tileLoad (i := .lzero f) (m := f.line.tile.toNat) rfl rfl h hdst
    (fun _ sp hsp => absurd hsp List.not_mem_nil) (fun rd u => ⟨_, rfl⟩)
  refine ⟨t, ht, hact, hpadt rfl, hmem rfl, fun r hr j hj => ?_, fun n r c hr hc hn => ?_⟩
  · rw [hcell]
    rw [putTile_cell _ _ _ hr hj]
    rfl
  · rw [hcell, putTile_other _ _ hn]
    exact State.turned_cell n r c

/-- The bytes of an element of LTRANS and STRANS. -/
theorem transBytes_cases {p : BitVec 6} (h : p.toNat / 16 ≤ 2) : transBytes p = 4 ∨ transBytes p = 2 ∨ transBytes p = 1 := by
  have hp : p.toNat / 16 = 0 ∨ p.toNat / 16 = 1 ∨ p.toNat / 16 = 2 := by omega
  unfold transBytes
  rcases hp with hp | hp | hp <;> simp [hp]

/-- A cell of elements read: its poison is theirs, and where it is clean they stand in it, the first lowest (R42). -/
theorem newCell_elems (s u : State) (k e : Nat) (he : e = 4 ∨ e = 2 ∨ e = 1) (at_ : Nat → Nat) :
    let c := newCell u k (packElems e ((List.range (4 / e)).map (fun q => (Say.padNat s (at_ q) e, s.ctx.padPoison (at_ q) e))))
    c.pois = (List.range (4 / e)).any (fun q => s.ctx.padPoison (at_ q) e) ∧
    (c.pois = false → ∀ q < 4 / e, c.bits.toNat / 2 ^ (8 * e * q) % 2 ^ (8 * e) = Say.padNat s (at_ q) e) := by
  have hvals : ((List.range (4 / e)).map (fun q => (Say.padNat s (at_ q) e, s.ctx.padPoison (at_ q) e))).map Prod.fst =
      (List.range (4 / e)).map (fun q => Say.padNat s (at_ q) e) := by rw [List.map_map]; rfl
  have hpois : ((List.range (4 / e)).map (fun q => (Say.padNat s (at_ q) e, s.ctx.padPoison (at_ q) e))).any Prod.snd =
      (List.range (4 / e)).any (fun q => s.ctx.padPoison (at_ q) e) := by rw [List.any_map]; rfl
  have hwide : packBits (8 * e) ((List.range (4 / e)).map (fun q => Say.padNat s (at_ q) e)) < 2 ^ 32 := by
    refine (packBits_lt _ _).trans_le (le_of_eq ?_)
    rw [List.length_map, List.length_range]
    rcases he with rfl | rfl | rfl <;> rfl
  intro c
  have hcp : c.pois = (List.range (4 / e)).any (fun q => s.ctx.padPoison (at_ q) e) := by
    rw [← hpois]
    exact newCell_pois u k _
  refine ⟨hcp, fun hclean q hq => ?_⟩
  have hbits : c.bits.toNat = packBits (8 * e) ((List.range (4 / e)).map (fun q => Say.padNat s (at_ q) e)) := by
    have hcell : c = { bits := BitVec.ofNat 32 (packBits (8 * e) ((List.range (4 / e)).map (fun q => Say.padNat s (at_ q) e)))
                       pois := false } := by
      rw [hcp] at hclean
      show newCell u k (packElems e _) = _
      rw [packElems, hvals, hpois, hclean, newCell_clean]
    rw [hcell, BitVec.toNat_ofNat, Nat.mod_eq_of_lt hwide]
  have hlt : Say.padNat s (at_ q) e < 2 ^ (8 * e) := by
    have h := padNat_lt s (at_ q) e
    rwa [show 256 = 2 ^ 8 from rfl, ← pow_mul] at h
  rw [hbits, packBits_element, List.getD_eq_getElem?_getD]
  simp [hq, Nat.mod_eq_of_lt hlt]

end

end Sys2Proof.Machine

namespace Sys2Proof
open Machine

/-- Settles O24: each load writes one tile register by what its numbers read as, and what an entry's end leaves is the same for
all of them. -/
theorem loadEntriesFillTiles : Obligations.LoadEntriesFillTiles := by
  intro s f en h hdst m ad ix Rest
  have hread (hb : en.bad = false) (a n : Nat) : readAs s en a n = (Say.padNat s a n, s.ctx.padPoison a n) := if_neg (by simp [hb])
  refine ⟨fun hb hpad => ?_, fun hb => ?_, ?_, ?_, lzero_clears h hdst⟩
  · obtain ⟨t, ht, hact, hpadt, hmem, hpc, hlane, hbut⟩ := lline_loads h hdst (fun _ => hpad)
    refine ⟨t, ht, ⟨hact, hpadt, hmem, hpc⟩, fun j hj => ?_, hbut⟩
    rw [hlane j hj, hread hb]
    exact newCell_holds _ _ _ _
  · obtain ⟨t, ht, hact, hpadt, hmem, hpc, hlane, hbut⟩ := lline_loads h hdst (fun hb' => absurd (hb.symm.trans hb') (by decide))
    refine ⟨t, ht, ⟨hact, hpadt, hmem, hpc⟩, fun j hj => ?_, hbut⟩
    rw [hlane j hj, newCell_pois, readAs, if_pos hb]
  · intro p hb hpad
    obtain ⟨t, ht, hact, hpadt, hmem, hpc, hcell, hbut⟩ := ltile_loads h hdst (fun _ => hpad)
    refine ⟨t, ht, ⟨hact, hpadt, hmem, hpc⟩, fun r hr j hj => ?_, hbut⟩
    rw [hcell r hr j hj, hread hb]
    exact newCell_holds _ _ _ _
  · intro p e hb htype hpad
    obtain ⟨t, ht, hact, hpadt, hmem, hpc, hcell, hbut⟩ := ltrans_loads h hdst (fun _ => hpad)
    refine ⟨t, ht, ⟨hact, hpadt, hmem, hpc⟩, hbut, fun i hi col hcol => ?_⟩
    intro at_
    rw [hcell i hi col hcol]
    simp only [hread hb]
    exact newCell_elems s _ _ _ (transBytes_cases htype) at_

end Sys2Proof
end

section
/-! # The matrix-feed slot (O50)

LSETF and LFEED: offset registers and feed rows (R229, R230). -/

namespace Sys2Proof.Machine

/-! ### Reading what a fold of changes leaves -/

section
variable {α β γ : Type} {f : α → β → α} {read : α → γ} {l : List β}

/-- A reading that no change of a fold touches. -/
theorem foldl_read_other (h : ∀ a, ∀ b ∈ l, read (f a b) = read a) (a : α) : read (l.foldl f a) = read a := by
  induction l generalizing a with
  | nil => rfl
  | cons b l ih =>
    rw [List.foldl_cons, ih fun a c hc => h a c (List.mem_cons_of_mem _ hc)]
    exact h a b List.mem_cons_self

/-- A reading that one change of a fold determines and the others do not touch. -/
theorem foldl_read_at {b : β} {v : γ} (hb : b ∈ l) (hself : ∀ a, read (f a b) = v)
    (hother : ∀ a, ∀ c ∈ l, c ≠ b → read (f a c) = read a) (a : α) : read (l.foldl f a) = v := by
  induction l using List.reverseRecOn generalizing a with
  | nil => cases hb
  | append_singleton l c ih =>
    rw [List.foldl_append, List.foldl_cons, List.foldl_nil]
    by_cases hc : c = b
    · rw [hc]
      exact hself _
    · rw [hother _ c (by simp) hc]
      exact ih ((List.mem_append.mp hb).resolve_right fun h => hc (List.mem_singleton.mp h).symm)
        (fun a d hd => hother a d (List.mem_append_left _ hd)) a

end

/-! ### Feed offset registers (R49, R229) -/

section
variable {c d : Ctx}

theorem Ctx.foff_of_offPad (h : d.offPad = c.offPad) : d.foff = c.foff := (congrArg Ctx.foff h : d.offPad.foff = c.offPad.foff)
theorem Ctx.feed_of_offPad (h : d.offPad = c.offPad) : d.feed = c.feed := (congrArg Ctx.feed h : d.offPad.feed = c.offPad.feed)
theorem Ctx.active_of_offPad (h : d.offPad = c.offPad) : d.active = c.active :=
  (congrArg Ctx.active h : d.offPad.active = c.offPad.active)
theorem Ctx.shadow_of_offPad (h : d.offPad = c.offPad) : d.shadow = c.shadow :=
  (congrArg Ctx.shadow h : d.offPad.shadow = c.offPad.shadow)
theorem Ctx.mask_of_offPad (h : d.offPad = c.offPad) : d.mask = c.mask := (congrArg Ctx.mask h : d.offPad.mask = c.offPad.mask)

theorem Ctx.foffAt_of_offPad (h : d.offPad = c.offPad) (n : Nat) : d.foffAt n = c.foffAt n := by
  rw [Ctx.foffAt, Ctx.foff_of_offPad h]; rfl

theorem Ctx.foffAt_setFoff (c : Ctx) (m n : Nat) (v : BitVec 32) :
    (c.setFoff m v).foffAt n = if n = m then v else c.foffAt n := by
  unfold Ctx.setFoff Ctx.foffAt
  dsimp only
  by_cases h : n = m
  · rw [if_pos h, h, Sparse.get_set_self]
  · rw [if_neg h, Sparse.get_set_ne _ _ _ h]

/-- Feed offset registers changed by a rule, each once. -/
def Ctx.stepFoff (g : BitVec 32 → BitVec 32) (ns : List Nat) (c : Ctx) : Ctx :=
  ns.foldl (fun c n => c.setFoff n (g (c.foffAt n))) c

theorem Ctx.stepFoff_foffAt (g : BitVec 32 → BitVec 32) {ns : List Nat} (hns : ns.Nodup) (c : Ctx) (n : Nat) :
    (c.stepFoff g ns).foffAt n = if n ∈ ns then g (c.foffAt n) else c.foffAt n := by
  induction ns generalizing c with
  | nil => rfl
  | cons m ms ih =>
    obtain ⟨hm, hms⟩ := List.nodup_cons.mp hns
    show ((c.setFoff m (g (c.foffAt m))).stepFoff g ms).foffAt n = _
    rw [ih hms, Ctx.foffAt_setFoff]
    by_cases hn : n = m
    · subst hn
      simp [hm]
    · simp [hn]

/-- Only the registers change. -/
theorem Ctx.stepFoff_eq (g : BitVec 32 → BitVec 32) (ns : List Nat) (c : Ctx) : ∃ o, c.stepFoff g ns = { c with foff := o } := by
  refine foldl_rel (R := fun c d : Ctx => ∃ o, d = { c with foff := o }) (fun c => ⟨c.foff, rfl⟩) ?_ (fun c n => ⟨_, rfl⟩) _ _
  rintro a b d ⟨o, rfl⟩ ⟨p, rfl⟩
  exact ⟨p, rfl⟩

end

section
variable {s u : State} {f : FLN} {en : Entry}

/-- What an entry of L that takes no pad numbers to a tile leaves, read off the state its work has come to. -/
theorem exec_lSetCtx {i : Instr} {rs : List Reg} {rd : State → Except Cause Taken} {work : Entry → State → EngOut} {c : Ctx} {tok : Tok}
    (hi : exec i s = engineInstr .l i tok none rs rd work s) (h : Say.Runs s .l tok en)
    (hw : work en.begun (s.turned .l tok en) = .done ((s.turned .l tok en).setCtx c)) :
    ∃ t, exec i s = .next t ∧ t.acting = none ∧ t.mem = s.mem ∧ t.ctx.offPad = c.offPad ∧ t.ctx.pad = c.pad := by
  have hdone : work en.begun (s.turned .l tok en) =
      .done (sluSpans false [] (((s.turned .l tok en).setCtx c).countPort [])) := by
    rw [hw, State.countPort_nil]
    rfl
  obtain ⟨t, ht, hact, hmem, hoff, hpad⟩ := exec_lDone hi h hdone ⟨rfl, rfl, rfl⟩
  exact ⟨t, ht, hact, hmem rfl, hoff, hpad rfl⟩

/-- LSETF sets or advances the registers it names (R229). -/
theorem lsetf_sets (h : Say.Runs s .l f.tok en) :
    ∃ t, exec (.lsetf f) s = .next t ∧ t.acting = none ∧ t.ctx.tiles = s.ctx.tiles ∧ t.mem = s.mem ∧ t.ctx.pad = s.ctx.pad ∧
      ∀ n < 8, t.ctx.foffAt n =
        if f.param.getLsbD 3 = true ∨ n = f.param.toNat % 8 then
          (if f.param.getLsbD 4 then s.ctx.foffAt n + en.val.setWidth 32 else en.val.setWidth 32)
        else s.ctx.foffAt n := by
  generalize hns : (if f.param.getLsbD 3 then List.range 8 else [f.param.toNat % 8]) = ns
  generalize hu : s.turned .l f.tok en = u
  have hbody : u.ctx.body = s.ctx.body := hu ▸ State.turned_body
  have hfoff (n : Nat) : u.ctx.foffAt n = s.ctx.foffAt n := Ctx.foffAt_of_offPad (Ctx.offPad_of_body hbody) n
  let g : BitVec 32 → BitVec 32 := fun x => if f.param.getLsbD 4 then x + en.val.setWidth 32 else en.val.setWidth 32
  obtain ⟨o, ho⟩ := Ctx.stepFoff_eq g ns u.ctx
  obtain ⟨t, ht, hact, hmem, hoff, hpad⟩ := exec_lSetCtx (i := .lsetf f) (c := u.ctx.stepFoff g ns) rfl h
    (by rw [hu, ← hns]; rfl)
  have hnodup : ns.Nodup := by
    rw [← hns]
    split
    · exact List.nodup_range
    · exact List.nodup_singleton _
  refine ⟨t, ht, hact, ?_, hmem, ?_, fun n hn => ?_⟩
  · have htiles : u.ctx.tiles = s.ctx.tiles := Ctx.tiles_of_body hbody
    rw [Ctx.tiles_of_offPad hoff, ho]
    exact htiles
  · have hsame : u.ctx.pad = s.ctx.pad := Ctx.pad_of_body hbody
    rw [hpad, ho]
    exact hsame
  · have hmem : n ∈ ns ↔ f.param.getLsbD 3 = true ∨ n = f.param.toNat % 8 := by
      rw [← hns]
      cases f.param.getLsbD 3 <;> simp [hn]
    rw [Ctx.foffAt_of_offPad hoff, Ctx.stepFoff_foffAt g hnodup, hfoff]
    simp only [hmem]
    rfl

/-! ### Feed rows (R230) -/

/-- The bytes of an LFEED's row, one by one. -/
def feedBytes (param : BitVec 6) (c : Ctx) (rd : Nat → Nat → Nat × Bool) : List (Nat × Bool) :=
  (feedSpans param c).flatMap (fun sp => (List.range sp.2).map (fun i => rd (sp.1 + i) 1))

/-- The width of an LFEED's row. -/
def feedWidth (param : BitVec 6) : Nat := if param.getLsbD 5 then 128 else 64

/-- Equal pieces in a row: an element of the whole is one of its piece. -/
theorem getElem?_flatMap_pieces {α β : Type} (g : α → Nat → β) {w : Nat} (hw : 0 < w) (l : List α) (k : Nat) :
    (l.flatMap (fun a => (List.range w).map (g a)))[k]? = (l[k / w]?).map (fun a => g a (k % w)) := by
  induction l generalizing k with
  | nil => simp
  | cons a l ih =>
    rw [List.flatMap_cons]
    by_cases hk : k < w
    · rw [List.getElem?_append_left (by simpa using hk), Nat.div_eq_of_lt hk, Nat.mod_eq_of_lt hk]
      simp [hk]
    · have hw' : ((List.range w).map (g a)).length = w := by simp
      rw [List.getElem?_append_right (by simpa using hk), hw', ih, show k = (k - w) + w by omega, Nat.add_sub_cancel,
        Nat.add_div_right _ hw, Nat.add_mod_right]
      rfl

theorem feedBytes_get (param : BitVec 6) (s : State) (c : Ctx) (hc : ∀ n, c.foffAt n = s.ctx.foffAt n) (rd : Nat → Nat → Nat × Bool) (k : Nat) :
    (feedBytes param c rd)[k]? =
      if k < feedWidth param then some (rd (Say.feedAt s (param.getLsbD 4) (feedWidth param) k) 1) else none := by
  have hw : 0 < feedWidth param ∧ 0 < feedWidth param / 8 ∧ feedWidth param = 8 * (feedWidth param / 8) := by
    unfold feedWidth
    split <;> decide
  obtain ⟨hw, hw8, hdiv⟩ := hw
  unfold feedBytes feedSpans Say.feedAt
  cases param.getLsbD 4 with
  | true =>
    have hpieces : ((List.range 8).map (fun n => ((c.foffAt n).toNat, feedWidth param / 8))).flatMap
        (fun sp => (List.range sp.2).map (fun i => rd (sp.1 + i) 1)) =
        (List.range 8).flatMap (fun n => (List.range (feedWidth param / 8)).map (fun i => rd ((c.foffAt n).toNat + i) 1)) := by
      rw [List.flatMap_map]
    have hk : k / (feedWidth param / 8) < 8 ↔ k < feedWidth param := by
      rw [Nat.div_lt_iff_lt_mul hw8, ← hdiv]
    show (((List.range 8).map (fun n => ((c.foffAt n).toNat, feedWidth param / 8))).flatMap _)[k]? = _
    rw [hpieces, getElem?_flatMap_pieces (fun n i => rd ((c.foffAt n).toNat + i) 1) hw8]
    by_cases h : k < feedWidth param
    · simp [hk.mpr h, h, hc]
    · have hout : ¬ k / (feedWidth param / 8) < 8 := fun hl => h (hk.mp hl)
      simp [h, Nat.not_lt.mp hout]
  | false =>
    show ([((c.foffAt 0).toNat, feedWidth param)].flatMap (fun sp => (List.range sp.2).map (fun i => rd (sp.1 + i) 1)))[k]? = _
    rw [List.flatMap_singleton]
    by_cases h : k < feedWidth param
    · simp [h, hc]
    · simp [h]

/-- Elements at consecutive places of a list, where it has them. -/
theorem any_drop_take {α : Type} (p : α → Bool) (l : List α) (k n : Nat) :
    ((l.drop k).take n).any p = (List.range n).any (fun b => (l[k + b]?).any p) := by
  refine Bool.eq_iff_iff.mpr ?_
  simp only [List.any_eq_true, List.mem_range, Option.any_eq_true]
  constructor
  · rintro ⟨x, hx, hp⟩
    obtain ⟨b, hb⟩ := List.mem_iff_getElem?.mp hx
    rw [List.getElem?_take] at hb
    split at hb
    · rw [List.getElem?_drop] at hb
      exact ⟨b, ‹_›, x, hb, hp⟩
    · cases hb
  · rintro ⟨b, hlt, x, hx, hp⟩
    refine ⟨x, List.mem_iff_getElem?.mpr ⟨b, ?_⟩, hp⟩
    rw [List.getElem?_take_of_lt hlt, List.getElem?_drop, hx]

/-- A table of a list's values, past them the default. -/
theorem get_setList_zero {α : Type} [DecidableEq α] (d : Nat → α) (l : List α) (i : Nat) :
    Sparse.get d (Sparse.setList d [] 0 l) i = l.getD i (d i) := by
  by_cases hi : i < l.length
  · have h := Sparse.get_setList_inside d [] 0 i l hi
    rw [Nat.zero_add] at h
    rw [h, List.getD_eq_getElem?_getD, List.getElem?_eq_getElem hi]
    rfl
  · rw [Sparse.get_setList_outside _ _ _ _ _ (Or.inr (by omega)), List.getD_eq_getElem?_getD,
      List.getElem?_eq_none (Nat.not_lt.mp hi)]
    rfl

/-- A row of bytes read: its poison by groups of four, its bytes where their group is clean, zero past its width (R223). -/
theorem feedRow_get (u : State) (param : BitVec 6) (c : Ctx) (rd : Nat → Nat → Nat × Bool) :
    (∀ g < 32, Sparse.get (fun _ => false) (feedRow u (feedSpans param c) rd).pois g =
      (List.range 4).any (fun b => ((feedBytes param c rd)[4 * g + b]?).any Prod.snd)) ∧
    (∀ i < 128, Sparse.get (fun _ => false) (feedRow u (feedSpans param c) rd).pois (i / 4) = false →
      Sparse.get memDefault (feedRow u (feedSpans param c) rd).bytes i =
        ((feedBytes param c rd)[i]?).elim 0#8 (fun v => BitVec.ofNat 8 v.1)) := by
  have hpois : ∀ g < 32, Sparse.get (fun _ => false) (feedRow u (feedSpans param c) rd).pois g =
      (((feedBytes param c rd).drop (4 * g)).take 4).any Prod.snd := fun g hg => by
    unfold feedRow
    dsimp only
    rw [get_setList_zero, List.getD_eq_getElem?_getD, List.getElem?_map, List.getElem?_range hg]
    rfl
  refine ⟨fun g hg => (hpois g hg).trans (any_drop_take _ _ _ _), fun i hi hclean => ?_⟩
  rw [hpois _ (by omega)] at hclean
  unfold feedRow
  dsimp only
  rw [get_setList_zero, List.getD_eq_getElem?_getD, List.getElem?_mapIdx]
  change ((((feedBytes param c rd)[i]?).map fun v => (freeOr u i 1 (v.1,
    (((feedBytes param c rd).drop (4 * (i / 4))).take 4).any Prod.snd)).headD 0#8).getD _) = _
  rw [hclean]
  cases (feedBytes param c rd)[i]? with
  | none => rfl
  | some v => simp [freeOr, bytesOfNat]

/-! ### LFEED (R230) -/

/-- Part of an entry's work done: the entry stays (R230). -/
theorem exec_part {e : Eng} {tok : Tok} {i : Instr} {rel : Option Nat} {rs : List Reg} {rd : State → Except Cause Taken}
    {work : Entry → State → EngOut} {v : State}
    (hi : exec i s = engineInstr e i tok rel rs rd work s) (h : Say.Runs s e tok en) (he : e ≠ .x)
    (hw : work en.begun (s.turned e tok en) = .part v) (hv : v.parts = false) : exec i s = .next v := by
  rw [hi, engineInstr_run h.1, engineRun_runs h he, hw]
  exact congrArg _ (State.holdCells_whole hv _ _)

/-- The context once a row is in the slot and the registers have advanced. -/
def Ctx.fed (c : Ctx) (param : BitVec 6) (d : BitVec 32) (row : FeedRow) : Ctx :=
  feedStep param d { c with feed := c.feed ++ [row] }

theorem Ctx.fed_eq (c : Ctx) (param : BitVec 6) (d : BitVec 32) (row : FeedRow) :
    (∃ o, c.fed param d row = { c with feed := c.feed ++ [row], foff := o }) ∧
    ∀ n < 8, (c.fed param d row).foffAt n = if param.getLsbD 4 = true ∨ n = 0 then c.foffAt n + d else c.foffAt n := by
  have hfed : c.fed param d row = ({ c with feed := c.feed ++ [row] } : Ctx).stepFoff (fun x => x + d)
    (if param.getLsbD 4 then List.range 8 else [0]) := rfl
  have hnodup : (if param.getLsbD 4 then List.range 8 else [0]).Nodup := by
    split
    · exact List.nodup_range
    · exact List.nodup_singleton _
  refine ⟨?_, fun n hn => ?_⟩
  · obtain ⟨o, ho⟩ := Ctx.stepFoff_eq (fun x => x + d) (if param.getLsbD 4 then List.range 8 else [0]) { c with feed := c.feed ++ [row] }
    exact ⟨o, hfed.trans ho⟩
  · rw [hfed, Ctx.stepFoff_foffAt _ hnodup]
    cases param.getLsbD 4 <;> simp [hn] <;> rfl

theorem Ctx.fed_offPad (c : Ctx) (param : BitVec 6) (d : BitVec 32) (row : FeedRow) :
    (c.fed param d row).offPad = c.offPad.fed param d row := by
  exact (foldl_image (g := Ctx.offPad) (f := fun (c : Ctx) n => c.setFoff n (c.foffAt n + d)) (fun _ _ => rfl)
    (if param.getLsbD 4 then List.range 8 else [0]) { c with feed := c.feed ++ [row] }).symm

/-- A row pushed into the slot; the entry stays, one row more counted, unless it was the last (R230). -/
theorem feedPush_eq (f : FLN) (en : Entry) (row : FeedRow) (u : State) : ∃ c : Ctx, c.offPad = u.ctx.offPad ∧
    (f.slu = false → c.pad = u.ctx.pad) ∧
    feedPush f en row f.slu u =
      if en.rows = f.param.toNat % 16 then .done (u.setCtx (c.fed f.param (en.val.setWidth 32) row)).useFree
      else .part ((u.setCtx (c.fed f.param (en.val.setWidth 32) row)).useFree.setHead .l { en with rows := en.rows + 1 }) := by
  obtain ⟨c, hc, hoff, hsame⟩ := sluSpans_eq f.slu (feedSpans f.param u.ctx) u
  refine ⟨c, hoff, fun hs => congrArg Ctx.pad (hsame hs), ?_⟩
  unfold feedPush
  rw [hc]
  rfl

/-- LFEED of a row that can be read. -/
theorem lfeed_pushes (h : Say.Runs s .l f.tok en) (hroom : s.ctx.feed.length < 16)
    (hreads : ∀ sp ∈ feedSpans f.param s.ctx, sp.1 % (if f.param.getLsbD 4 then feedWidth f.param / 8 else 8) = 0 ∧
      sp.1 + sp.2 ≤ s.ctx.spSize ∧ Say.PadAwake s sp.1 sp.2) :
    ∃ t, exec (.lfeed f) s = .next t ∧ t.acting = none ∧ (f.rel = false → t.mem = s.mem) ∧ (f.slu = false → t.ctx.pad = s.ctx.pad) ∧
      t.ctx.offPad = (s.ctx.fed f.param (en.val.setWidth 32)
        (feedRow (s.turned .l f.tok en) (feedSpans f.param s.ctx) (padNum (s.turned .l f.tok en).ctx []))).offPad ∧
      (en.rows ≠ f.param.toNat % 16 → ∃ en1, (t.bank.queue .l).head? = some en1 ∧ en1.rows = en.rows + 1 ∧
        en1.pushOwed = false) := by
  generalize hu : s.turned .l f.tok en = u
  have hbody : u.ctx.body = s.ctx.body := hu ▸ State.turned_body
  have hspans : feedSpans f.param u.ctx = feedSpans f.param s.ctx := by
    have hat (n : Nat) : u.ctx.foffAt n = s.ctx.foffAt n := Ctx.foffAt_of_offPad (Ctx.offPad_of_body hbody) n
    unfold feedSpans
    simp only [hat]
  have halign : (if f.param.getLsbD 4 then (if f.param.getLsbD 5 then 16 else 8) else 8) =
      (if f.param.getLsbD 4 then feedWidth f.param / 8 else 8) := by
    unfold feedWidth
    cases f.param.getLsbD 5 <;> rfl
  have hgood : (feedSpans f.param s.ctx).any (fun sp =>
      sp.1 % (if f.param.getLsbD 4 then feedWidth f.param / 8 else 8) != 0) = false :=
    List.any_eq_false.mpr fun sp hsp => by
      rw [(hreads sp hsp).1]
      decide
  have hin : (feedSpans f.param s.ctx).any (fun sp => decide (u.ctx.spSize < sp.1 + sp.2)) = false :=
    List.any_eq_false.mpr fun sp hsp => by
      have hsize : u.ctx.spSize = s.ctx.spSize := congrArg (fun n => Config.bankBytes * n) (Ctx.spbanks_of_body hbody)
      have := (hreads sp hsp).2.1
      simp [hsize, this]
  have hawake : ∀ sp ∈ feedSpans f.param s.ctx, Say.PadAwake u sp.1 sp.2 := fun sp hsp b hb => by
    rw [Ctx.padBank_of_body hbody]
    exact (hreads sp hsp).2.2 b hb
  have hlen : ¬ 16 ≤ u.ctx.feed.length := by
    rw [Ctx.feed_of_offPad (Ctx.offPad_of_body hbody)]
    omega
  generalize hrow : feedRow u (feedSpans f.param s.ctx) (padNum u.ctx []) = row
  obtain ⟨c, hoff, hsame, hpush⟩ := feedPush_eq f en.begun row (u.countPort (feedSpans f.param s.ctx))
  obtain ⟨pctx, pact, pmem, pparts⟩ := u.countPort_frame (feedSpans f.param s.ctx)
  generalize hport : u.countPort (feedSpans f.param s.ctx) = w at hoff hsame hpush pctx pact pmem pparts
  rw [pctx] at hoff hsame
  have hfed : (c.fed f.param (en.val.setWidth 32) row).offPad = (s.ctx.fed f.param (en.val.setWidth 32) row).offPad := by
    rw [Ctx.fed_offPad, Ctx.fed_offPad, hoff.trans (Ctx.offPad_of_body hbody)]
  have hpad (hs : f.slu = false) : (c.fed f.param (en.val.setWidth 32) row).pad = s.ctx.pad := by
    obtain ⟨⟨o, ho⟩, -⟩ := c.fed_eq f.param (en.val.setWidth 32) row
    have hcu : c.pad = u.ctx.pad := hsame hs
    rw [ho]
    exact hcu.trans (Ctx.pad_of_body hbody)
  have hact : w.acting = none := pact.trans (hu ▸ rfl)
  have hmem : w.mem = s.mem := pmem.trans (hu ▸ rfl)
  have hparts : w.parts = false := pparts.trans (hu ▸ h.2.1)
  by_cases hlast : en.rows = f.param.toNat % 16
  · rw [if_pos (show en.begun.rows = _ from hlast)] at hpush
    have hrun := exec_done (i := .lfeed f) (v := (w.setCtx (c.fed f.param (en.val.setWidth 32) row)).useFree) rfl h (by decide) (by
      rw [hu]
      dsimp only
      rw [if_neg hlen, hspans, halign, hgood, hin, if_neg Bool.false_ne_true, if_neg Bool.false_ne_true]
      dsimp only
      rw [prepPad_awake hawake]
      dsimp only
      rw [hrow, hport]
      exact hpush) hparts
    obtain ⟨tact, tmem, tbody, -⟩ := pushOut_released .l en.begun f.tok
      (w.setCtx (c.fed f.param (en.val.setWidth 32) row)).useFree (relScope f.rel f.scope)
    refine ⟨_, hrun, tact.trans hact, fun hr => (tmem (relScope_none hr _)).trans hmem, fun hs => ?_,
      (Ctx.offPad_of_body tbody).trans hfed, fun hn => absurd hlast hn⟩
    exact (Ctx.pad_of_body tbody).trans (hpad hs)
  · rw [if_neg (show ¬ en.begun.rows = _ from hlast)] at hpush
    have hrun := exec_part (i := .lfeed f) (v := (w.setCtx (c.fed f.param (en.val.setWidth 32) row)).useFree.setHead .l
      { en.begun with rows := en.begun.rows + 1 }) rfl h (by decide) (by
      rw [hu]
      dsimp only
      rw [if_neg hlen, hspans, halign, hgood, hin, if_neg Bool.false_ne_true, if_neg Bool.false_ne_true]
      dsimp only
      rw [prepPad_awake hawake]
      dsimp only
      rw [hrow, hport]
      exact hpush) hparts
    generalize hv : (w.setCtx (c.fed f.param (en.val.setWidth 32) row)).useFree = v at hrun
    have hhead := State.setHead_head (s := v) (RegBank.lead_other _ (by decide : Eng.l ≠ .x)) { en.begun with rows := en.begun.rows + 1 }
    have hctx : v.ctx = c.fed f.param (en.val.setWidth 32) row := hv ▸ rfl
    rw [hhead] at hrun
    refine ⟨_, hrun, ?_, fun _ => ?_, fun hs => ?_, ?_, fun _ => ⟨{ en.begun with rows := en.begun.rows + 1 }, ?_, rfl, h.2.2.2.1⟩⟩
    · rw [← hv]; exact hact
    · rw [← hv]; exact hmem
    · rw [State.setBank_ctx, Ctx.setBank_pad, hctx]
      exact hpad hs
    · rw [State.setBank_ctx, Ctx.offPad_of_body (Ctx.body_setBank _ _), hctx]
      exact hfed
    · rw [State.bank_setBank, RegBank.queue_setQueue]
      rfl

end

end Sys2Proof.Machine
end

section
/-! # Weights and masks (O50)

Rows of a weight plane; LWGT and LMASK (R231, R233). -/

namespace Sys2Proof.Machine

/-! ### Bytes of a number read -/

theorem natOfBytes_byte (l : List Byte) (b : Nat) : natOfBytes l / 256 ^ b % 256 = (l.getD b 0#8).toNat := by
  induction l generalizing b with
  | nil => simp [natOfBytes]
  | cons x l ih =>
    have hx := x.isLt
    cases b with
    | zero =>
      rw [natOfBytes, pow_zero, Nat.div_one, show (x.toNat + 256 * natOfBytes l) % 256 = x.toNat by omega]
      rfl
    | succ b =>
      rw [natOfBytes, pow_succ', ← Nat.div_div_eq_div_mul, show (x.toNat + 256 * natOfBytes l) / 256 = natOfBytes l by omega, ih]
      rfl

/-- A byte of a number of scratchpad bytes. -/
theorem padNat_byte (s : State) (a : Nat) {n b : Nat} (h : b < n) :
    BitVec.ofNat 8 (Say.padNat s a n / 256 ^ b) = s.ctx.padByte (a + b) := by
  apply BitVec.eq_of_toNat_eq
  rw [BitVec.toNat_ofNat, Say.padNat, show 2 ^ 8 = 256 from rfl, natOfBytes_byte, List.getD_eq_getElem?_getD]
  simp [h]

/-- A group as it is stored: four bytes; those of its number where it is clean. -/
theorem freeOr_get (s u : State) (k a : Nat) {b : Nat} (hb : b < 4) (h : s.ctx.padPoison a 4 = false) :
    (freeOr u k 4 (Say.padNat s a 4, s.ctx.padPoison a 4)).getD b 0#8 = s.ctx.padByte (a + b) := by
  rw [h, ← padNat_byte s a hb]
  simp [freeOr, bytesOfNat, List.getD_eq_getElem?_getD, hb]

@[simp] theorem freeOr_length (u : State) (k n : Nat) (v : Nat × Bool) : (freeOr u k n v).length = n := by
  unfold freeOr
  split <;> simp

/-! ### Rows of a plane (R223) -/

section
variable {u : State} {p : WPlane} {row b0 n : Nat} {g : Nat → Nat × Bool}

/-- A row's groups are written into its bytes and their poison. -/
theorem putRow_eq (u : State) (p : WPlane) (row b0 n : Nat) (g : Nat → Nat × Bool) :
    ∃ bs ps, p.putRow u row b0 n g = { p with bytes := bs, pois := ps } := by
  refine foldl_rel (R := fun p q : WPlane => ∃ bs ps, q = { p with bytes := bs, pois := ps }) (fun p => ⟨p.bytes, p.pois, rfl⟩) ?_
    (fun p k => ⟨_, _, rfl⟩) _ _
  rintro a b c ⟨_, _, rfl⟩ ⟨bs, ps, rfl⟩
  exact ⟨bs, ps, rfl⟩

theorem putRow_byte {k b : Nat} (hk : k < n) (hb : b < 4) :
    Say.wByte (p.putRow u row b0 n g) (256 * row + b0 + 4 * k + b) = (freeOr u (256 * row + b0 + 4 * k) 4 (g k)).getD b 0#8 := by
  refine foldl_read_at (read := fun q : WPlane => Say.wByte q (256 * row + b0 + 4 * k + b)) (List.mem_range.mpr hk) (fun q => ?_)
    (fun q j _ hj => ?_) p
  · refine (Sparse.get_setList_inside memDefault q.bytes _ b _ (by simpa using hb)).trans ?_
    rw [List.getD_eq_getElem?_getD, List.getElem?_eq_getElem]
    rfl
  · exact Sparse.get_setList_outside memDefault q.bytes _ _ _ (by rw [freeOr_length]; omega)

theorem putRow_byte_other {i : Nat} (hi : i < 256 * row + b0 ∨ 256 * row + b0 + 4 * n ≤ i) :
    Say.wByte (p.putRow u row b0 n g) i = Say.wByte p i := by
  refine foldl_read_other (read := fun q : WPlane => Say.wByte q i) (fun q j hj => ?_) p
  have hlt := List.mem_range.mp hj
  exact Sparse.get_setList_outside memDefault q.bytes _ _ _ (by rw [freeOr_length]; omega)

theorem putRow_pois {k : Nat} (hk : k < n) : Say.wPois (p.putRow u row b0 n g) (64 * row + b0 / 4 + k) = (g k).2 := by
  refine foldl_read_at (read := fun q : WPlane => Say.wPois q (64 * row + b0 / 4 + k)) (List.mem_range.mpr hk) (fun q => ?_)
    (fun q j _ hj => ?_) p
  · exact Sparse.get_set_self ..
  · exact Sparse.get_set_ne _ _ _ (by omega)

theorem putRow_pois_other {i : Nat} (hi : i < 64 * row + b0 / 4 ∨ 64 * row + b0 / 4 + n ≤ i) :
    Say.wPois (p.putRow u row b0 n g) i = Say.wPois p i := by
  refine foldl_read_other (read := fun q : WPlane => Say.wPois q i) (fun q j hj => ?_) p
  have hlt := List.mem_range.mp hj
  exact Sparse.get_set_ne _ _ _ (by omega)

/-- Successive whole rows. -/
def putRows (u : State) (p : WPlane) (row rb n : Nat) (g : Nat → Nat → Nat × Bool) : WPlane :=
  (List.range n).foldl (fun p k => p.putRow u (row + k) 0 (rb / 4) (g k)) p

theorem putRows_eq (u : State) (p : WPlane) (row rb n : Nat) (g : Nat → Nat → Nat × Bool) :
    ∃ bs ps, putRows u p row rb n g = { p with bytes := bs, pois := ps } := by
  refine foldl_rel (R := fun p q : WPlane => ∃ bs ps, q = { p with bytes := bs, pois := ps }) (fun p => ⟨p.bytes, p.pois, rfl⟩) ?_
    (fun p k => putRow_eq ..) _ _
  rintro a b c ⟨_, _, rfl⟩ ⟨bs, ps, rfl⟩
  exact ⟨bs, ps, rfl⟩

theorem putRows_get {row rb n : Nat} {g : Nat → Nat → Nat × Bool} (hrb : rb ≤ 256) {k j : Nat} (hk : k < n) (hj : j < rb / 4) :
    Say.wPois (putRows u p row rb n g) (64 * (row + k) + j) = (g k j).2 ∧
    ∀ b < 4, Say.wByte (putRows u p row rb n g) (256 * (row + k) + 4 * j + b) =
      (freeOr u (256 * (row + k) + 4 * j) 4 (g k j)).getD b 0#8 := by
  refine ⟨?_, fun b hb => ?_⟩
  · refine foldl_read_at (read := fun q : WPlane => Say.wPois q (64 * (row + k) + j)) (List.mem_range.mpr hk) (fun q => ?_)
      (fun q i _ hi => ?_) p
    · simpa using putRow_pois (u := u) (p := q) (row := row + k) (b0 := 0) (g := g k) hj
    · exact putRow_pois_other (by omega)
  · refine foldl_read_at (read := fun q : WPlane => Say.wByte q (256 * (row + k) + 4 * j + b)) (List.mem_range.mpr hk) (fun q => ?_)
      (fun q i _ hi => ?_) p
    · simpa using putRow_byte (u := u) (p := q) (row := row + k) (b0 := 0) (g := g k) hj hb
    · exact putRow_byte_other (by omega)

theorem putRows_other {row rb n : Nat} {g : Nat → Nat → Nat × Bool} {i : Nat} (hrb : rb ≤ 256)
    (hi : ¬ (row ≤ i / 256 ∧ i / 256 < row + n ∧ i % 256 < rb)) : Say.wByte (putRows u p row rb n g) i = Say.wByte p i := by
  refine foldl_read_other (read := fun q : WPlane => Say.wByte q i) (fun q k hk => ?_) p
  have hlt := List.mem_range.mp hk
  refine putRow_byte_other ?_
  by_contra hin
  exact hi ⟨by omega, by omega, by omega⟩

end

/-! ### LWGT (R231) -/

/-- The presence bits of a course. -/
theorem courseBits_get : ∀ c < 4, ∀ i < 32, (courseBits c).getLsbD i = decide (i / 8 = c) := by decide

/-- The shadow plane with the rows of a course written. -/
def weightRows (u : State) (p : WPlane) (course rb : Nat) (all : Bool) (g : Nat → Nat → Nat × Bool) : WPlane :=
  let p1 := putRows u p (16 * course) rb (if all then 64 else 16) g
  { p1 with presence := p1.presence ||| (if all then BitVec.allOnes 32 else courseBits course) }

/-- The shadow plane with its scales written. -/
def weightScales (u : State) (p : WPlane) (g : Nat → Nat × Bool) : WPlane :=
  (List.range 128).foldl (fun p k => { p with
    scales := Sparse.setList memDefault p.scales (4 * k) (freeOr u (4 * k) 4 (g k))
    spois := Sparse.set (fun _ => false) p.spois k (g k).2 }) p

theorem weightScales_get (u : State) (p : WPlane) (g : Nat → Nat × Bool) :
    (∀ k < 128, Say.wSpois (weightScales u p g) k = (g k).2 ∧
      ∀ b < 4, Say.wScale (weightScales u p g) (4 * k + b) = (freeOr u (4 * k) 4 (g k)).getD b 0#8) ∧
    ∃ sc sp, weightScales u p g = { p with scales := sc, spois := sp } := by
  refine ⟨fun k hk => ⟨?_, fun b hb => ?_⟩, ?_⟩
  · refine foldl_read_at (read := fun q : WPlane => Say.wSpois q k) (List.mem_range.mpr hk) (fun q => ?_) (fun q j _ hj => ?_) p
    · exact Sparse.get_set_self ..
    · exact Sparse.get_set_ne _ _ _ hj.symm
  · refine foldl_read_at (read := fun q : WPlane => Say.wScale q (4 * k + b)) (List.mem_range.mpr hk) (fun q => ?_)
      (fun q j _ hj => ?_) p
    · refine (Sparse.get_setList_inside memDefault q.scales _ b _ (by simpa using hb)).trans ?_
      rw [List.getD_eq_getElem?_getD, List.getElem?_eq_getElem]
      rfl
    · exact Sparse.get_setList_outside memDefault q.scales _ _ _ (by rw [freeOr_length]; omega)
  · refine foldl_rel (R := fun p q : WPlane => ∃ sc sp, q = { p with scales := sc, spois := sp }) (fun p => ⟨p.scales, p.spois, rfl⟩) ?_
      (fun p k => ⟨_, _, rfl⟩) _ _
    rintro a b c ⟨_, _, rfl⟩ ⟨sc, sp, rfl⟩
    exact ⟨sc, sp, rfl⟩

section
variable {s : State} {f : FLN} {en : Entry}

theorem readAs_good (hb : en.bad = false) : readAs s en = fun a n => (Say.padNat s a n, s.ctx.padPoison a n) := by
  funext a n
  exact if_neg (by simp [hb])

theorem turned_offPad (s : State) (tok : Tok) (en : Entry) : (s.turned .l tok en).ctx.offPad = s.ctx.offPad :=
  Ctx.offPad_of_body State.turned_body

/-- What an entry that writes the shadow plane leaves, and the plane. -/
theorem exec_shadowLoad {i : Instr} {rel : Option Nat} {rs : List Reg} {rd : State → Except Cause Taken}
    {work : Entry → State → EngOut} {slu : Bool} {spans : List (Nat × Nat)} {tok : Tok}
    {put : (Nat → Nat → Nat × Bool) → State → State} {P : WPlane}
    (hi : exec i s = engineInstr .l i tok rel rs rd work s)
    (hw : work en.begun (s.turned .l tok en) = lWork slu spans none put en.begun (s.turned .l tok en)) (h : Say.Runs s .l tok en)
    (hpad : ∀ sp ∈ spans, Say.PadAwake s sp.1 sp.2) (hput : ∀ rd u, ∃ p, put rd u = u.setShadow p)
    (hplane : put (readAs s en) (s.turned .l tok en) = (s.turned .l tok en).setShadow P) :
    ∃ t, exec i s = .next t ∧ t.acting = none ∧ t.ctx.tiles = s.ctx.tiles ∧ (slu = false → t.ctx.pad = s.ctx.pad) ∧
      (rel = none → t.mem = s.mem) ∧ t.ctx.active = s.ctx.active ∧ t.ctx.shadow = { P with zmask := false } := by
  have hctx (rd : Nat → Nat → Nat × Bool) (u : State) : ∃ c, put rd u = u.setCtx c := by
    obtain ⟨p, hp⟩ := hput rd u
    exact ⟨_, hp⟩
  obtain ⟨t, ht, hact, hmem, hoff, hsame⟩ := exec_lWork hi hw h (fun k hk => absurd hk (by simp)) (fun _ => hpad) hctx
  rw [hplane] at hoff hsame
  have htiles : (s.turned .l tok en).ctx.tiles = s.ctx.tiles := Ctx.tiles_of_body State.turned_body
  have hpads : (s.turned .l tok en).ctx.pad = s.ctx.pad := Ctx.pad_of_body State.turned_body
  have hactive : (s.turned .l tok en).ctx.active = s.ctx.active := Ctx.active_of_offPad (turned_offPad s tok en)
  exact ⟨t, ht, hact, (Ctx.tiles_of_offPad hoff).trans htiles, fun hs => (hsame hs).trans hpads, hmem,
    (Ctx.active_of_offPad hoff).trans hactive, Ctx.shadow_of_offPad hoff⟩

/-- LWGT of rows. -/
theorem lwgt_rows (h : Say.Runs s .l f.tok en) (hb : en.bad = false) (hscale : f.param.getLsbD 3 = false) :
    let course := f.param.toNat % 4
    let all := f.param.getLsbD 2
    let rb := if f.param.getLsbD 4 then 256 else 128
    let n := if all then 64 else 16
    Say.PadAwake s en.val.toNat (n * rb) →
    ∃ t, exec (.lwgt f) s = .next t ∧ (t.acting = none ∧ t.ctx.tiles = s.ctx.tiles ∧ (f.slu = false → t.ctx.pad = s.ctx.pad) ∧
      (f.rel = false → t.mem = s.mem) ∧ t.ctx.active = s.ctx.active) ∧
      (∀ k < n, ∀ g < rb / 4,
        Say.wPois t.ctx.shadow (64 * (16 * course + k) + g) = s.ctx.padPoison (en.val.toNat + k * rb + 4 * g) 4 ∧
        (s.ctx.padPoison (en.val.toNat + k * rb + 4 * g) 4 = false → ∀ b < 4,
          Say.wByte t.ctx.shadow (256 * (16 * course + k) + 4 * g + b) = s.ctx.padByte (en.val.toNat + k * rb + 4 * g + b))) ∧
      (∀ i, ¬ (16 * course ≤ i / 256 ∧ i / 256 < 16 * course + n ∧ i % 256 < rb) →
        Say.wByte t.ctx.shadow i = Say.wByte s.ctx.shadow i) ∧
      (∀ i < 32, t.ctx.shadow.presence.getLsbD i = (s.ctx.shadow.presence.getLsbD i || all || decide (i / 8 = course))) ∧
      t.ctx.shadow.scales = s.ctx.shadow.scales ∧ t.ctx.shadow.spois = s.ctx.shadow.spois := by
  intro course all rb n hpad
  have hrb : rb ≤ 256 := by
    show (if f.param.getLsbD 4 then 256 else 128) ≤ 256
    split <;> decide
  let g : Nat → Nat → Nat × Bool := fun k j => readAs s en (en.val.toNat + k * rb + 4 * j) 4
  generalize hu : s.turned .l f.tok en = u
  have hshadow : u.ctx.shadow = s.ctx.shadow := Ctx.shadow_of_offPad (hu ▸ turned_offPad s f.tok en)
  obtain ⟨t, ht, hact, htiles, hpadt, hmem, hactive, hsh⟩ := exec_shadowLoad (i := .lwgt f) (P := weightRows u u.ctx.shadow course rb all g)
    rfl rfl h (fun sp hsp => by
      have hn : (if all then 64 * rb else 16 * rb) = n * rb := by
        show _ = (if all then 64 else 16) * rb
        split <;> rfl
      rw [List.mem_singleton.mp hsp, hscale]
      show Say.PadAwake s en.val.toNat (if all then 64 * rb else 16 * rb)
      rwa [hn])
    (fun rd v => by
      dsimp only
      split
      · exact ⟨_, rfl⟩
      · exact ⟨_, rfl⟩)
    (by
      rw [hu]
      dsimp only
      rw [if_neg (by rw [hscale]; decide)]
      rfl)
  obtain ⟨bs, ps, heq⟩ := putRows_eq u u.ctx.shadow (16 * course) rb n g
  have hrows : ({ weightRows u u.ctx.shadow course rb all g with zmask := false } : WPlane) =
      { putRows u u.ctx.shadow (16 * course) rb n g with
        presence := (putRows u u.ctx.shadow (16 * course) rb n g).presence ||| (if all then BitVec.allOnes 32 else courseBits course)
        zmask := false } := rfl
  have hgk (k j : Nat) : g k j = (Say.padNat s (en.val.toNat + k * rb + 4 * j) 4, s.ctx.padPoison (en.val.toNat + k * rb + 4 * j) 4) :=
    congrFun (congrFun (readAs_good hb) _) _
  rw [hrows] at hsh
  refine ⟨t, ht, ⟨hact, htiles, hpadt, fun hr => hmem (relScope_none hr _), hactive⟩, fun k hk j hj => ?_, fun i hi => ?_,
    fun i hi => ?_, ?_, ?_⟩
  · obtain ⟨hp, hbyte⟩ := putRows_get (u := u) (p := u.ctx.shadow) (row := 16 * course) (g := g) hrb hk hj
    rw [hsh]
    refine ⟨hp.trans (congrArg Prod.snd (hgk k j)), fun hclean b hb4 => ?_⟩
    refine (hbyte b hb4).trans ?_
    rw [hgk]
    exact freeOr_get s u _ _ hb4 hclean
  · rw [hsh, ← hshadow]
    exact putRows_other (u := u) (g := g) hrb hi
  · have hpres : (putRows u u.ctx.shadow (16 * course) rb n g).presence = s.ctx.shadow.presence := by rw [heq, hshadow]
    have hcourse : course < 4 := Nat.mod_lt _ (by decide)
    rw [hsh]
    show ((putRows u u.ctx.shadow (16 * course) rb n g).presence ||| (if all then BitVec.allOnes 32 else courseBits course)).getLsbD i = _
    rw [BitVec.getLsbD_or, hpres, Bool.or_assoc]
    congr 1
    cases all with
    | true => rw [if_pos rfl, BitVec.getLsbD_allOnes, decide_eq_true hi, Bool.true_or]
    | false => rw [if_neg Bool.false_ne_true, courseBits_get _ hcourse _ hi, Bool.false_or]
  · rw [hsh, heq, hshadow]
  · rw [hsh, heq, hshadow]

/-- LWGT of scales. -/
theorem lwgt_scales (h : Say.Runs s .l f.tok en) (hb : en.bad = false) (hscale : f.param.getLsbD 3 = true)
    (hpad : Say.PadAwake s en.val.toNat 512) :
    ∃ t, exec (.lwgt f) s = .next t ∧ (t.acting = none ∧ t.ctx.tiles = s.ctx.tiles ∧ (f.slu = false → t.ctx.pad = s.ctx.pad) ∧
      (f.rel = false → t.mem = s.mem) ∧ t.ctx.active = s.ctx.active) ∧
      (∀ k < 128, Say.wSpois t.ctx.shadow k = s.ctx.padPoison (en.val.toNat + 4 * k) 4 ∧
        (s.ctx.padPoison (en.val.toNat + 4 * k) 4 = false → ∀ b < 4,
          Say.wScale t.ctx.shadow (4 * k + b) = s.ctx.padByte (en.val.toNat + 4 * k + b))) ∧
      t.ctx.shadow.bytes = s.ctx.shadow.bytes ∧ t.ctx.shadow.pois = s.ctx.shadow.pois ∧
      t.ctx.shadow.presence = s.ctx.shadow.presence := by
  let g : Nat → Nat × Bool := fun k => readAs s en (en.val.toNat + 4 * k) 4
  generalize hu : s.turned .l f.tok en = u
  have hshadow : u.ctx.shadow = s.ctx.shadow := Ctx.shadow_of_offPad (hu ▸ turned_offPad s f.tok en)
  obtain ⟨t, ht, hact, htiles, hpadt, hmem, hactive, hsh⟩ := exec_shadowLoad (i := .lwgt f) (P := weightScales u u.ctx.shadow g)
    rfl rfl h (fun sp hsp => by
      rw [List.mem_singleton.mp hsp, hscale]
      exact hpad)
    (fun rd v => by
      dsimp only
      split
      · exact ⟨_, rfl⟩
      · exact ⟨_, rfl⟩)
    (by
      rw [hu]
      dsimp only
      rw [if_pos hscale]
      rfl)
  obtain ⟨hget, sc, sp, heq⟩ := weightScales_get u u.ctx.shadow g
  have hgk (k : Nat) : g k = (Say.padNat s (en.val.toNat + 4 * k) 4, s.ctx.padPoison (en.val.toNat + 4 * k) 4) :=
    congrFun (congrFun (readAs_good hb) _) _
  refine ⟨t, ht, ⟨hact, htiles, hpadt, fun hr => hmem (relScope_none hr _), hactive⟩, fun k hk => ?_, ?_, ?_, ?_⟩
  · obtain ⟨hp, hbyte⟩ := hget k hk
    rw [hsh]
    refine ⟨hp.trans (congrArg Prod.snd (hgk k)), fun hclean b hb4 => ?_⟩
    refine (hbyte b hb4).trans ?_
    rw [hgk]
    exact freeOr_get s u _ _ hb4 hclean
  · rw [hsh, heq, hshadow]
  · rw [hsh, heq, hshadow]
  · rw [hsh, heq, hshadow]

end

end Sys2Proof.Machine
end

section
/-! # The mask block and sparse images (O50)

LMASK and LGATH (R232, R233). -/

namespace Sys2Proof.Machine

/-! ### LMASK (R233) -/

/-- The mask parameter block read from the address. -/
def maskBlock (u : State) (ad : Nat) (rd : Nat → Nat → Nat × Bool) : MaskBlock :=
  let num (k a n : Nat) : Nat := if (rd ad 576).2 then (u.freshBits k).toNat else (rd a n).1
  { rows := Sparse.setList (fun _ => 0#64) [] 0 ((List.range 64).map (fun m => BitVec.ofNat 64 (num m (ad + 8 * m) 8)))
    fill := BitVec.ofNat 48 (num 64 (ad + 512) 6)
    half := bitOf (num 65 (ad + 520) 1) 0
    out := bitOf (num 65 (ad + 520) 1) 1
    pois := (rd ad 576).2
    zmask := false }

theorem padNat_one (s : State) (a : Nat) : Say.padNat s a 1 = (s.ctx.padByte a).toNat := by
  simp [Say.padNat, natOfBytes]

/-- The block of clean bytes holds them. -/
theorem maskBlock_get (u s : State) (ad : Nat) (rd : Nat → Nat → Nat × Bool) (hpois : (rd ad 576).2 = false)
    (hrd : ∀ a n, (rd a n).1 = Say.padNat s a n) :
    (∀ m < 64, (Sparse.get (fun _ => 0#64) (maskBlock u ad rd).rows m).toNat = Say.padNat s (ad + 8 * m) 8) ∧
    (maskBlock u ad rd).fill.toNat = Say.padNat s (ad + 512) 6 ∧
    (maskBlock u ad rd).half = (s.ctx.padByte (ad + 520)).getLsbD 0 ∧
    (maskBlock u ad rd).out = (s.ctx.padByte (ad + 520)).getLsbD 1 := by
  have hnum (k a n : Nat) : (if (rd ad 576).2 then (u.freshBits k).toNat else (rd a n).1) = Say.padNat s a n := by
    rw [if_neg (by simp [hpois]), hrd]
  have hbit (b : Nat) : bitOf (Say.padNat s (ad + 520) 1) b = (s.ctx.padByte (ad + 520)).getLsbD b := by
    rw [bitOf_eq_testBit, padNat_one]; rfl
  unfold maskBlock
  dsimp only
  simp only [hnum]
  refine ⟨fun m hm => ?_, ?_, hbit 0, hbit 1⟩
  · rw [get_setList_zero, List.getD_eq_getElem?_getD, List.getElem?_map, List.getElem?_range hm]
    exact (BitVec.toNat_ofNat ..).trans (Nat.mod_eq_of_lt ((padNat_lt s _ 8).trans_eq (by norm_num)))
  · exact (BitVec.toNat_ofNat ..).trans (Nat.mod_eq_of_lt ((padNat_lt s _ 6).trans_eq (by norm_num)))

section
variable {s : State} {f : FLN} {en : Entry}

/-- An XMMAM is open whatever the other engines do. -/
theorem maskInUse_turned (s : State) (tok : Tok) (en : Entry) : (s.turned .l tok en).maskInUse = s.maskInUse := by
  have hprog : (s.turned .l tok en).ctx.prog = s.ctx.prog :=
    (congrArg Ctx.prog (State.turned_body (s := s) (e := .l) (tok := tok) (en := en)) : _ = s.ctx.body.prog)
  unfold State.maskInUse
  rw [hprog, State.turned_bank]
  rfl

/-- LMASK gives the mask block its rows and fields, or records poison. -/
theorem lmask_sets (h : Say.Runs s .l f.tok en) (hb : en.bad = false) (hfree : s.maskInUse = false)
    (hpad : Say.PadAwake s en.val.toNat 576) :
    ∃ t, exec (.lmask f) s = .next t ∧ (t.acting = none ∧ t.ctx.tiles = s.ctx.tiles ∧ (f.slu = false → t.ctx.pad = s.ctx.pad) ∧
      (f.rel = false → t.mem = s.mem) ∧ t.ctx.active = s.ctx.active) ∧ t.ctx.shadow = s.ctx.shadow ∧
      t.ctx.mask.pois = s.ctx.padPoison en.val.toNat 576 ∧
      (s.ctx.padPoison en.val.toNat 576 = false →
        (∀ m < 64, (Sparse.get (fun _ => 0#64) t.ctx.mask.rows m).toNat = Say.padNat s (en.val.toNat + 8 * m) 8) ∧
        t.ctx.mask.fill.toNat = Say.padNat s (en.val.toNat + 512) 6 ∧
        t.ctx.mask.half = (s.ctx.padByte (en.val.toNat + 520)).getLsbD 0 ∧
        t.ctx.mask.out = (s.ctx.padByte (en.val.toNat + 520)).getLsbD 1) := by
  generalize hu : s.turned .l f.tok en = u
  have hoffu : u.ctx.offPad = s.ctx.offPad := hu ▸ turned_offPad s f.tok en
  have htilesu : u.ctx.tiles = s.ctx.tiles := Ctx.tiles_of_offPad hoffu
  have hactiveu : u.ctx.active = s.ctx.active := Ctx.active_of_offPad hoffu
  have hshadowu : u.ctx.shadow = s.ctx.shadow := Ctx.shadow_of_offPad hoffu
  have hpadu : u.ctx.pad = s.ctx.pad := Ctx.pad_of_body (hu ▸ State.turned_body)
  obtain ⟨t, ht, hact, hmem, hoff, hsame⟩ := exec_lWork (i := .lmask f) (dst := none) (slu := f.slu) (spans := [(en.val.toNat, 576)])
    (put := fun rd v => v.setCtx { v.ctx with mask := maskBlock v en.val.toNat rd })
    rfl (if_neg (by rw [maskInUse_turned, hfree]; decide)) h (fun k hk => absurd hk (by simp))
    (fun _ sp hsp => by rw [List.mem_singleton.mp hsp]; exact hpad) (fun rd v => ⟨_, rfl⟩)
  rw [hu] at hoff hsame
  have hmask : t.ctx.mask = maskBlock u en.val.toNat (readAs s en) := Ctx.mask_of_offPad hoff
  have hpois : (readAs s en en.val.toNat 576).2 = s.ctx.padPoison en.val.toNat 576 := by rw [readAs_good hb]
  refine ⟨t, ht, ⟨hact, (Ctx.tiles_of_offPad hoff).trans htilesu, fun hs => (hsame hs).trans hpadu,
    fun hr => hmem (relScope_none hr _), (Ctx.active_of_offPad hoff).trans hactiveu⟩,
    (Ctx.shadow_of_offPad hoff).trans hshadowu, ?_, fun hclean => ?_⟩
  · rw [hmask]
    exact hpois
  · rw [hmask]
    exact maskBlock_get u s _ _ (hpois.trans hclean) (fun a n => by rw [readAs_good hb])

end

/-! ### The header of a sparse image (R232) -/

/-- Entry e stands in block row c. -/
def InBlockRow (rp : Nat → Nat) (c e : Nat) : Prop := rp c ≤ e ∧ e < rp (c + 1)

/-- A well-formed image: row pointers and column indexes that rise, within the scratchpad. -/
def GoodImage (rp ci : Nat → Nat) (ad bb size : Nat) : Prop :=
  rp 0 = 0 ∧ (∀ c < 4, rp c ≤ rp (c + 1)) ∧ rp 4 ≤ 32 ∧ (∀ c < 4, ∀ e < 32, InBlockRow rp c e → ci e ≤ 7) ∧
    (∀ c < 4, ∀ e < 32, InBlockRow rp c e → InBlockRow rp c (e + 1) → ci e < ci (e + 1)) ∧ ad + 64 + rp 4 * bb ≤ size

/-- The entries of a block row, each with its block row and column block. -/
def blockRow (rp ci : Nat → Nat) (c : Nat) : List (Nat × Nat × Nat) :=
  (List.range (rp (c + 1) - rp c)).map (fun i => (c, rp c + i, ci (rp c + i)))

/-- The entries of an image. -/
def blockList (rp ci : Nat → Nat) : List (Nat × Nat × Nat) := ((List.range 4).map (blockRow rp ci)).flatten

section
variable {rp ci : Nat → Nat} {ad bb size c e b : Nat}

theorem mem_blockRow {x : Nat × Nat × Nat} : x ∈ blockRow rp ci c ↔ ∃ e, InBlockRow rp c e ∧ x = (c, e, ci e) := by
  unfold blockRow InBlockRow
  rw [List.mem_map]
  constructor
  · rintro ⟨i, hi, rfl⟩
    have := List.mem_range.mp hi
    exact ⟨rp c + i, ⟨by omega, by omega⟩, rfl⟩
  · rintro ⟨e, ⟨hlo, hhi⟩, rfl⟩
    refine ⟨e - rp c, List.mem_range.mpr (by omega), ?_⟩
    rw [Nat.add_sub_cancel' hlo]

theorem mem_blockList {x : Nat × Nat × Nat} : x ∈ blockList rp ci ↔ ∃ c < 4, ∃ e, InBlockRow rp c e ∧ x = (c, e, ci e) := by
  unfold blockList
  rw [List.mem_flatten]
  constructor
  · rintro ⟨l, hl, hx⟩
    obtain ⟨c, hc, rfl⟩ := List.mem_map.mp hl
    exact ⟨c, List.mem_range.mp hc, mem_blockRow.mp hx⟩
  · rintro ⟨c, hc, hx⟩
    exact ⟨_, List.mem_map.mpr ⟨c, List.mem_range.mpr hc, rfl⟩, mem_blockRow.mpr hx⟩

/-- Row pointers that rise stay below the last. -/
theorem InBlockRow.lt_last (hmono : ∀ c < 4, rp c ≤ rp (c + 1)) (hc : c < 4) (h : InBlockRow rp c e) : e < rp 4 := by
  have h1 : rp 1 ≤ rp 2 := hmono 1 (by decide)
  have h2 : rp 2 ≤ rp 3 := hmono 2 (by decide)
  have h3 : rp 3 ≤ rp 4 := hmono 3 (by decide)
  obtain ⟨-, hlt⟩ := h
  interval_cases c <;> norm_num at hlt <;> omega

/-- The column indexes of a block row rise from one entry to the next. -/
theorem blockRow_rising : ((blockRow rp ci c).zip (blockRow rp ci c).tail).all (fun e => decide (e.1.2.2 < e.2.2.2)) = true ↔
    ∀ e, InBlockRow rp c e → InBlockRow rp c (e + 1) → ci e < ci (e + 1) := by
  rw [List.all_eq_true]
  unfold InBlockRow
  constructor
  · rintro h e ⟨hlo, hhi⟩ ⟨-, hnext⟩
    have hlen : e - rp c < ((blockRow rp ci c).zip (blockRow rp ci c).tail).length := by simp [blockRow]; omega
    have hmem := h _ (List.getElem_mem hlen)
    have hge : rp c + (e - rp c) = e := by omega
    simpa [blockRow, ← Nat.add_assoc, hge] using hmem
  · intro h x hx
    obtain ⟨i, hi, rfl⟩ := List.mem_iff_getElem.mp hx
    have hlen : i < rp (c + 1) - rp c - 1 := by simpa [blockRow] using hi
    have := h (rp c + i) ⟨by omega, by omega⟩ ⟨by omega, by omega⟩
    simpa [blockRow, ← Nat.add_assoc] using this

theorem blockRow_columns : (blockRow rp ci c).all (fun e => decide (e.2.2 ≤ 7)) = true ↔ ∀ e, InBlockRow rp c e → ci e ≤ 7 := by
  simp only [List.all_eq_true, mem_blockRow, decide_eq_true_eq]
  constructor
  · exact fun h e he => h _ ⟨e, he, rfl⟩
  · rintro h _ ⟨e, he, rfl⟩
    exact h e he

/-- The model's check of an image's header. -/
theorem gathBlocks_eq (rd : Nat → Nat → Nat) (ad bb size : Nat) :
    let rp := fun c => rd (ad + 2 * c) 2
    let ci := fun e => rd (ad + 16 + e) 1
    (GoodImage rp ci ad bb size → gathBlocks rd ad bb size = some (blockList rp ci)) ∧
    (¬ GoodImage rp ci ad bb size → gathBlocks rd ad bb size = none) := by
  intro rp ci
  let rising (l : List (Nat × Nat × Nat)) : Bool :=
    l.all (fun e => decide (e.2.2 ≤ 7)) && (l.zip l.tail).all (fun e => decide (e.1.2.2 < e.2.2.2))
  have hcond : GoodImage rp ci ad bb size ↔ (rp 0 = 0 ∧ (List.range 4).all (fun c => decide (rp c ≤ rp (c + 1))) ∧ rp 4 ≤ 32 ∧
      ((List.range 4).map (blockRow rp ci)).all rising ∧ ad + 64 + rp 4 * bb ≤ size) := by
    have hrising (c : Nat) : rising (blockRow rp ci c) = true ↔ (∀ e, InBlockRow rp c e → ci e ≤ 7) ∧
        ∀ e, InBlockRow rp c e → InBlockRow rp c (e + 1) → ci e < ci (e + 1) := by
      rw [← blockRow_columns, ← blockRow_rising]
      exact Bool.and_eq_true_iff
    unfold GoodImage
    simp only [List.all_eq_true, List.mem_range, decide_eq_true_eq, List.mem_map, forall_exists_index, and_imp,
      forall_apply_eq_imp_iff₂, hrising]
    constructor
    · rintro ⟨h0, hmono, h4, hcol, hup, hsize⟩
      have hlt {c e : Nat} (hc : c < 4) (he : InBlockRow rp c e) : e < 32 := (he.lt_last hmono hc).trans_le h4
      exact ⟨h0, hmono, h4, fun c hc => ⟨fun e he => hcol c hc e (hlt hc he) he, fun e he => hup c hc e (hlt hc he) he⟩, hsize⟩
    · rintro ⟨h0, hmono, h4, hrows, hsize⟩
      exact ⟨h0, hmono, h4, fun c hc e _ he => (hrows c hc).1 e he, fun c hc e _ he => (hrows c hc).2 e he, hsize⟩
  exact ⟨fun h => if_pos (hcond.mp h), fun h => if_neg fun hc => h (hcond.mpr hc)⟩

/-- Two entries of a block row with one column block are one entry. -/
theorem GoodImage.column_injective (h : GoodImage rp ci ad bb size) (hc : c < 4) {e₁ e₂ : Nat} (h₁ : InBlockRow rp c e₁)
    (h₂ : InBlockRow rp c e₂) (heq : ci e₁ = ci e₂) : e₁ = e₂ := by
  obtain ⟨-, hmono, h4, -, hup, -⟩ := h
  have hlt : ∀ n e, InBlockRow rp c e → InBlockRow rp c (e + n + 1) → ci e < ci (e + n + 1) := by
    intro n
    induction n with
    | zero => exact fun e he hn => hup c hc e ((he.lt_last hmono hc).trans_le h4) he hn
    | succ n ih =>
      intro e he hn
      have hmid : InBlockRow rp c (e + n + 1) := ⟨he.1.trans (by omega), lt_of_le_of_lt (by omega) hn.2⟩
      exact (ih e he hmid).trans (hup c hc _ ((hmid.lt_last hmono hc).trans_le h4) hmid hn)
  rcases lt_trichotomy e₁ e₂ with hl | hl | hl
  · obtain ⟨n, rfl⟩ := Nat.exists_eq_add_of_lt hl
    exact absurd heq (hlt n e₁ h₁ h₂).ne
  · exact hl
  · obtain ⟨n, rfl⟩ := Nat.exists_eq_add_of_lt hl
    exact absurd heq.symm (hlt n e₂ h₂ h₁).ne

end

/-! ### The blocks of an image (R232) -/

/-- A block of a plane: its 16 rows of 16 elements, and its presence bit. -/
def putBlock (u : State) (es : Nat) (g : Nat → Nat → Nat → Nat × Bool) (p : WPlane) (x : Nat × Nat × Nat) : WPlane :=
  let p1 := (List.range 16).foldl (fun p r => p.putRow u (16 * x.1 + r) (16 * x.2.2 * es) (4 * es) (g x.2.1 r)) p
  { p1 with presence := p1.presence ||| BitVec.ofNat 32 (2 ^ (8 * x.1 + x.2.2)) }

section
variable {u : State} {es : Nat} {g : Nat → Nat → Nat → Nat × Bool} {p : WPlane} {c e b : Nat}

theorem putBlock_eq (u : State) (es : Nat) (g : Nat → Nat → Nat → Nat × Bool) (p : WPlane) (x : Nat × Nat × Nat) :
    ∃ bs ps, putBlock u es g p x =
      { p with bytes := bs, pois := ps, presence := p.presence ||| BitVec.ofNat 32 (2 ^ (8 * x.1 + x.2.2)) } := by
  obtain ⟨bs, ps, h⟩ : ∃ bs ps, (List.range 16).foldl
      (fun p r => p.putRow u (16 * x.1 + r) (16 * x.2.2 * es) (4 * es) (g x.2.1 r)) p = { p with bytes := bs, pois := ps } := by
    refine foldl_rel (R := fun p q : WPlane => ∃ bs ps, q = { p with bytes := bs, pois := ps }) (fun p => ⟨p.bytes, p.pois, rfl⟩) ?_
      (fun p k => putRow_eq ..) _ _
    rintro a b c ⟨_, _, rfl⟩ ⟨bs, ps, rfl⟩
    exact ⟨bs, ps, rfl⟩
  refine ⟨bs, ps, ?_⟩
  unfold putBlock
  rw [h]

/-- What the groups of a block hold once it is written. -/
theorem putBlock_get (hes : es = 1 ∨ es = 2) (hb : b ≤ 7) {r k : Nat} (hr : r < 16) (hk : k < 4 * es) :
    Say.wPois (putBlock u es g p (c, e, b)) ((256 * (16 * c + r) + 16 * b * es + 4 * k) / 4) = (g e r k).2 ∧
    ∀ j < 4, Say.wByte (putBlock u es g p (c, e, b)) (256 * (16 * c + r) + 16 * b * es + 4 * k + j) =
      (freeOr u (256 * (16 * c + r) + 16 * b * es + 4 * k) 4 (g e r k)).getD j 0#8 := by
  have hcol : 16 * b * es + 16 * es ≤ 256 ∧ 16 * b * es / 4 + 4 * es ≤ 64 ∧ 16 * b * es % 4 = 0 := by
    rcases hes with rfl | rfl <;> omega
  obtain ⟨hcol, hcol4, hmod⟩ := hcol
  generalize hb0 : 16 * b * es = b0 at hcol hcol4 hmod ⊢
  refine ⟨?_, fun j hj => ?_⟩
  · refine foldl_read_at (read := fun q : WPlane => Say.wPois q ((256 * (16 * c + r) + b0 + 4 * k) / 4)) (List.mem_range.mpr hr)
      (fun q => ?_) (fun q i _ hi => ?_) p
    · rw [show (256 * (16 * c + r) + b0 + 4 * k) / 4 = 64 * (16 * c + r) + b0 / 4 + k by omega]
      exact (congrArg (fun n => Say.wPois (q.putRow u (16 * c + r) n (4 * es) (g e r)) _) hb0).trans (putRow_pois hk)
    · rw [hb0]
      exact putRow_pois_other (by omega)
  · refine foldl_read_at (read := fun q : WPlane => Say.wByte q (256 * (16 * c + r) + b0 + 4 * k + j)) (List.mem_range.mpr hr)
      (fun q => ?_) (fun q i _ hi => ?_) p
    · exact (congrArg (fun n => Say.wByte (q.putRow u (16 * c + r) n (4 * es) (g e r)) _) hb0).trans (putRow_byte hk hj)
    · rw [hb0]
      exact putRow_byte_other (by omega)

/-- Another block of the plane stays. -/
theorem putBlock_other (hes : es = 1 ∨ es = 2) (hb : b ≤ 7) {c' b' : Nat} (hb' : b' ≤ 7) (hne : c ≠ c' ∨ b ≠ b') {r x : Nat}
    (hr : r < 16) (hx : x < 16 * es) :
    Say.wPois (putBlock u es g p (c, e, b)) ((256 * (16 * c' + r) + 16 * b' * es + x) / 4) =
      Say.wPois p ((256 * (16 * c' + r) + 16 * b' * es + x) / 4) ∧
    Say.wByte (putBlock u es g p (c, e, b)) (256 * (16 * c' + r) + 16 * b' * es + x) =
      Say.wByte p (256 * (16 * c' + r) + 16 * b' * es + x) := by
  have hcol : 16 * b * es + 16 * es ≤ 256 ∧ 16 * b' * es + 16 * es ≤ 256 ∧ 16 * b * es % 16 = 0 ∧ 16 * b' * es % 16 = 0 ∧
      (b ≠ b' → 16 * b * es + 16 * es ≤ 16 * b' * es ∨ 16 * b' * es + 16 * es ≤ 16 * b * es) := by
    rcases hes with rfl | rfl <;> omega
  obtain ⟨hcol, hcol', hmod, hmod', hcols⟩ := hcol
  generalize hb0 : 16 * b * es = b0 at hcol hmod hcols ⊢
  generalize hb0' : 16 * b' * es = b0' at hcol' hmod' hcols ⊢
  refine ⟨?_, ?_⟩
  · refine foldl_read_other (read := fun q : WPlane => Say.wPois q ((256 * (16 * c' + r) + b0' + x) / 4)) (fun q i hi => ?_) p
    have hi16 := List.mem_range.mp hi
    rw [hb0]
    exact putRow_pois_other (by omega)
  · refine foldl_read_other (read := fun q : WPlane => Say.wByte q (256 * (16 * c' + r) + b0' + x)) (fun q i hi => ?_) p
    have hi16 := List.mem_range.mp hi
    rw [hb0]
    exact putRow_byte_other (by omega)

/-- A bit that each change of a fold may set. -/
theorem foldl_or {α β : Type} {f : α → β → α} {read : α → Bool} {q : β → Bool} (h : ∀ a b, read (f a b) = (read a || q b))
    (l : List β) (a : α) : read (l.foldl f a) = (read a || l.any q) := by
  induction l generalizing a with
  | nil => simp
  | cons b l ih => rw [List.foldl_cons, ih, h, List.any_cons, Bool.or_assoc]

theorem putBlock_presence (u : State) (es : Nat) (g : Nat → Nat → Nat → Nat × Bool) (p : WPlane) (x : Nat × Nat × Nat) {i : Nat}
    (hi : i < 32) : (putBlock u es g p x).presence.getLsbD i = (p.presence.getLsbD i || decide (8 * x.1 + x.2.2 = i)) := by
  obtain ⟨bs, ps, h⟩ := putBlock_eq u es g p x
  rw [h]
  show (p.presence ||| BitVec.ofNat 32 (2 ^ (8 * x.1 + x.2.2))).getLsbD i = _
  rw [BitVec.getLsbD_or, BitVec.getLsbD_ofNat, decide_eq_true hi, Bool.true_and, Nat.testBit_two_pow]

end

end Sys2Proof.Machine
end

section
/-! # LGATH, and the entries that feed the array (O50) -/

namespace Sys2Proof.Machine

/-- Banks of a part of a span. -/
theorem PadAwake.of_span {s : State} {a n a' n' : Nat} (h : Say.PadAwake s a n) (hlo : a ≤ a') (hhi : a' + n' ≤ a + n) :
    Say.PadAwake s a' n' := by
  intro b hb
  refine h b ?_
  unfold banksOf at hb ⊢
  rw [List.mem_ite_nil_left] at hb ⊢
  obtain ⟨hn, hb⟩ := hb
  obtain ⟨i, hi, rfl⟩ := List.mem_map.mp hb
  have hi' := List.mem_range.mp hi
  refine ⟨by omega, List.mem_map.mpr ⟨a' / 16384 + i - a / 16384, List.mem_range.mpr ?_, ?_⟩⟩ <;> omega

/-- The shadow plane with the blocks of an image and no other. -/
def imagePlane (u : State) (es : Nat) (g : Nat → Nat → Nat → Nat × Bool) (blocks : List (Nat × Nat × Nat)) (p : WPlane) : WPlane :=
  blocks.foldl (putBlock u es g) { p with bytes := [], pois := [], presence := 0#32 }

section
variable {u : State} {es : Nat} {g : Nat → Nat → Nat → Nat × Bool} {p : WPlane} {rp ci : Nat → Nat} {ad bb size : Nat}

theorem imagePlane_scales (u : State) (es : Nat) (g : Nat → Nat → Nat → Nat × Bool) (blocks : List (Nat × Nat × Nat)) (p : WPlane) :
    (imagePlane u es g blocks p).scales = p.scales ∧ (imagePlane u es g blocks p).spois = p.spois := by
  refine foldl_rel (R := fun p q : WPlane => q.scales = p.scales ∧ q.spois = p.spois) (fun p => ⟨rfl, rfl⟩) ?_ (fun p x => ?_) _ _
  · rintro a b c ⟨h, h'⟩ ⟨k, k'⟩
    exact ⟨k.trans h, k'.trans h'⟩
  · obtain ⟨bs, ps, h⟩ := putBlock_eq u es g p x
    rw [h]
    exact ⟨rfl, rfl⟩

/-- The presence bits are those of the image's blocks. -/
theorem imagePlane_presence (h : GoodImage rp ci ad bb size) {c b : Nat} (hc : c < 4) (hb : b < 8) :
    (imagePlane u es g (blockList rp ci) p).presence.getLsbD (8 * c + b) = true ↔ ∃ e < 32, InBlockRow rp c e ∧ ci e = b := by
  obtain ⟨-, hmono, h4, hcol, -, -⟩ := h
  have hread := foldl_or (read := fun q : WPlane => q.presence.getLsbD (8 * c + b))
    (fun q x => putBlock_presence u es g q x (show 8 * c + b < 32 by omega)) (blockList rp ci)
    { p with bytes := [], pois := [], presence := 0#32 }
  refine (Eq.to_iff (congrArg (· = true) hread)).trans ?_
  rw [show (0#32).getLsbD (8 * c + b) = false from BitVec.getLsbD_zero, Bool.false_or, List.any_eq_true]
  constructor
  · rintro ⟨x, hx, hxb⟩
    obtain ⟨c', hc', e, he, rfl⟩ := mem_blockList.mp hx
    have he32 := (he.lt_last hmono hc').trans_le h4
    have h7 := hcol c' hc' e he32 he
    have hsum : 8 * c' + ci e = 8 * c + b := of_decide_eq_true hxb
    obtain rfl : c' = c := by omega
    exact ⟨e, he32, he, by omega⟩
  · rintro ⟨e, -, he, rfl⟩
    exact ⟨_, mem_blockList.mpr ⟨c, hc, e, he, rfl⟩, decide_eq_true rfl⟩

/-- An entry's block stands in its block row and column block. -/
theorem imagePlane_block (h : GoodImage rp ci ad bb size) (hes : es = 1 ∨ es = 2) {c e : Nat} (hc : c < 4) (he : InBlockRow rp c e)
    {r k : Nat} (hr : r < 16) (hk : k < 4 * es) :
    Say.wPois (imagePlane u es g (blockList rp ci) p) ((256 * (16 * c + r) + 16 * ci e * es + 4 * k) / 4) = (g e r k).2 ∧
    ∀ j < 4, Say.wByte (imagePlane u es g (blockList rp ci) p) (256 * (16 * c + r) + 16 * ci e * es + 4 * k + j) =
      (freeOr u (256 * (16 * c + r) + 16 * ci e * es + 4 * k) 4 (g e r k)).getD j 0#8 := by
  obtain ⟨-, hmono, h4, hcol, -, -⟩ := id h
  have h7 {c' e' : Nat} (hc' : c' < 4) (he' : InBlockRow rp c' e') : ci e' ≤ 7 :=
    hcol c' hc' e' ((he'.lt_last hmono hc').trans_le h4) he'
  have hmem : (c, e, ci e) ∈ blockList rp ci := mem_blockList.mpr ⟨c, hc, e, he, rfl⟩
  have hne {x : Nat × Nat × Nat} (hx : x ∈ blockList rp ci) (hxne : x ≠ (c, e, ci e)) :
      ∃ c' e', x = (c', e', ci e') ∧ ci e' ≤ 7 ∧ (c' ≠ c ∨ ci e' ≠ ci e) := by
    obtain ⟨c', hc', e', he', rfl⟩ := mem_blockList.mp hx
    refine ⟨c', e', rfl, h7 hc' he', ?_⟩
    by_contra hsame
    obtain ⟨rfl, hci⟩ : c' = c ∧ ci e' = ci e := by simpa using hsame
    exact hxne (by rw [h.column_injective hc he' he hci])
  refine ⟨?_, fun j hj => ?_⟩
  · refine foldl_read_at (f := putBlock u es g) (read := fun q : WPlane => Say.wPois q _) hmem (fun q => (putBlock_get hes (h7 hc he) hr hk).1)
      (fun q x hx hxne => ?_) _
    obtain ⟨c', e', rfl, hc7, hdis⟩ := hne hx hxne
    exact (putBlock_other hes hc7 (h7 hc he) hdis hr (show 4 * k < 16 * es by omega)).1
  · refine foldl_read_at (f := putBlock u es g) (read := fun q : WPlane => Say.wByte q _) hmem (fun q => (putBlock_get hes (h7 hc he) hr hk).2 j hj)
      (fun q x hx hxne => ?_) _
    obtain ⟨c', e', rfl, hc7, hdis⟩ := hne hx hxne
    rw [Nat.add_assoc _ (4 * k) j]
    exact (putBlock_other hes hc7 (h7 hc he) hdis hr (show 4 * k + j < 16 * es by omega)).2

/-- A block that no entry names is clean zero. -/
theorem imagePlane_zero (h : GoodImage rp ci ad bb size) (hes : es = 1 ∨ es = 2) {c b : Nat} (hb : b < 8)
    (hno : ¬ ∃ e < 32, InBlockRow rp c e ∧ ci e = b) {r x : Nat} (hr : r < 16) (hx : x < 16 * es) :
    Say.wByte (imagePlane u es g (blockList rp ci) p) (256 * (16 * c + r) + 16 * b * es + x) = 0#8 ∧
    Say.wPois (imagePlane u es g (blockList rp ci) p) ((256 * (16 * c + r) + 16 * b * es + x) / 4) = false := by
  obtain ⟨-, hmono, h4, hcol, -, -⟩ := h
  have hother {y : Nat × Nat × Nat} (hy : y ∈ blockList rp ci) : ∃ c' e', y = (c', e', ci e') ∧ ci e' ≤ 7 ∧ (c' ≠ c ∨ ci e' ≠ b) := by
    obtain ⟨c', hc', e', he', rfl⟩ := mem_blockList.mp hy
    have he32 := (he'.lt_last hmono hc').trans_le h4
    refine ⟨c', e', rfl, hcol c' hc' e' he32 he', ?_⟩
    by_contra hsame
    obtain ⟨rfl, hci⟩ : c' = c ∧ ci e' = b := by simpa using hsame
    exact hno ⟨e', he32, he', hci⟩
  refine ⟨?_, ?_⟩
  · refine (foldl_read_other (f := putBlock u es g) (read := fun q : WPlane => Say.wByte q _) (fun q y hy => ?_) _).trans rfl
    obtain ⟨c', e', rfl, hc7, hdis⟩ := hother hy
    exact (putBlock_other hes hc7 (by omega) hdis hr hx).2
  · refine (foldl_read_other (f := putBlock u es g) (read := fun q : WPlane => Say.wPois q _) (fun q y hy => ?_) _).trans rfl
    obtain ⟨c', e', rfl, hc7, hdis⟩ := hother hy
    exact (putBlock_other hes hc7 (by omega) hdis hr hx).1

end

/-! ### LGATH (R232) -/

section
variable {s : State} {f : FLN} {en : Entry}

/-- The bytes of an element of an LGATH's image. -/
def gathElem (f : FLN) : Nat := if f.param.getLsbD 0 then 2 else 1

/-- An image's header, as the entry reads it. -/
def ImageAt (s : State) (f : FLN) (ad : Nat) : Prop :=
  GoodImage (fun c => Say.padNat s (ad + 2 * c) 2) (fun e => (s.ctx.padByte (ad + 16 + e)).toNat) ad (256 * gathElem f) s.ctx.spSize

theorem spSize_turned (s : State) (tok : Tok) (en : Entry) : (s.turned .l tok en).ctx.spSize = s.ctx.spSize := by
  rw [Ctx.spSize, Ctx.spbanks_of_body State.turned_body]; rfl

theorem padAwake_turned {e : Eng} {tok : Tok} {a n : Nat} (h : Say.PadAwake s a n) : Say.PadAwake (s.turned e tok en) a n :=
  fun b hb => by rw [Ctx.padBank_of_body State.turned_body]; exact h b hb

/-- The check of the header as the turn makes it. -/
theorem gathBlocks_turned (s : State) (f : FLN) (en : Entry) :
    (ImageAt s f en.val.toNat → gathBlocks (fun a n => (padNum (s.turned .l f.tok en).ctx [] a n).1) en.val.toNat (256 * gathElem f)
      (s.turned .l f.tok en).ctx.spSize = some (blockList (fun c => Say.padNat s (en.val.toNat + 2 * c) 2)
        (fun e => (s.ctx.padByte (en.val.toNat + 16 + e)).toNat))) ∧
    (¬ ImageAt s f en.val.toNat → gathBlocks (fun a n => (padNum (s.turned .l f.tok en).ctx [] a n).1) en.val.toNat (256 * gathElem f)
      (s.turned .l f.tok en).ctx.spSize = none) := by
  have h := gathBlocks_eq (fun a n => (padNum (s.turned .l f.tok en).ctx [] a n).1) en.val.toNat (256 * gathElem f)
    (s.turned .l f.tok en).ctx.spSize
  simp only [padNum_turned, padNat_one, spSize_turned] at h ⊢
  exact h

/-- What LGATH leaves besides the shadow plane. -/
theorem exec_lGath {spans : List (Nat × Nat)} {v : State} {P : WPlane} {i : Instr} {rel : Option Nat} {rs : List Reg}
    {rd : State → Except Cause Taken} {work : Entry → State → EngOut} {tok : Tok} {slu : Bool}
    (hi : exec i s = engineInstr .l i tok rel rs rd work s) (h : Say.Runs s .l tok en)
    (hw : work en.begun (s.turned .l tok en) = .done (sluSpans slu spans v))
    (hv : v.acting = none ∧ v.mem = s.mem ∧ v.parts = s.parts ∧ v.ctx = { (s.turned .l tok en).ctx with shadow := P }) :
    ∃ t, exec i s = .next t ∧ t.acting = none ∧ t.ctx.tiles = s.ctx.tiles ∧ t.ctx.active = s.ctx.active ∧ t.ctx.shadow = P := by
  obtain ⟨hact, hmem, hparts, hctx⟩ := hv
  obtain ⟨t, ht, tact, -, toff, -⟩ := exec_lSlu hi h hw ⟨hact, hmem, hparts⟩
  have htilesu : (s.turned .l tok en).ctx.tiles = s.ctx.tiles := Ctx.tiles_of_body State.turned_body
  have hactiveu : (s.turned .l tok en).ctx.active = s.ctx.active := Ctx.active_of_offPad (turned_offPad s tok en)
  have htiles : v.ctx.tiles = s.ctx.tiles := by rw [hctx]; exact htilesu
  have hactive : v.ctx.active = s.ctx.active := by rw [hctx]; exact hactiveu
  have hshadow : v.ctx.shadow = P := by rw [hctx]
  exact ⟨t, ht, tact, (Ctx.tiles_of_offPad toff).trans htiles, (Ctx.active_of_offPad toff).trans hactive,
    (Ctx.shadow_of_offPad toff).trans hshadow⟩

/-- A header with a marked byte poisons the plane. -/
theorem lgath_poisons (h : Say.Runs s .l f.tok en) (hb : en.bad = false) (hpad : Say.PadAwake s en.val.toNat 64)
    (hpois : s.ctx.padPoison en.val.toNat 64 = true) :
    ∃ t, exec (.lgath f) s = .next t ∧ t.acting = none ∧ t.ctx.tiles = s.ctx.tiles ∧ t.ctx.active = s.ctx.active ∧
      t.ctx.shadow = { s.ctx.shadow.poisonAll with zmask := false } := by
  generalize hu : s.turned .l f.tok en = u
  have hshadow : u.ctx.shadow = s.ctx.shadow := Ctx.shadow_of_offPad (hu ▸ turned_offPad s f.tok en)
  have hbad : padBad u.ctx [] en.val.toNat 64 = true := by
    rw [padBad_none, ← hu, Ctx.padPoison_of_body State.turned_body, hpois]
  refine exec_lGath (i := .lgath f) (slu := f.slu) (spans := [(en.val.toNat, 64)]) (v := u.setShadow u.ctx.shadow.poisonAll) rfl h ?_ ?_
  · rw [hu]
    dsimp only
    rw [if_neg (show ¬ en.begun.bad = true by rw [show en.begun.bad = en.bad from rfl, hb]; decide),
      prepPad_awake (fun sp hsp => by rw [List.mem_singleton.mp hsp, ← hu]; exact padAwake_turned hpad)]
    dsimp only
    rw [show en.begun.val = en.val from rfl, hbad]
    rfl
  · rw [← hshadow, ← hu]
    exact ⟨rfl, rfl, rfl, rfl⟩

/-- A malformed header latches DATA_FAULT. -/
theorem lgath_faults (h : Say.Runs s .l f.tok en) (hb : en.bad = false) (hpad : Say.PadAwake s en.val.toNat 64)
    (hpois : s.ctx.padPoison en.val.toNat 64 = false) (hbad : ¬ ImageAt s f en.val.toNat) (hspec : en.stamp.emode.getLsbD 3 = false)
    (hbase : s.ctx.inHandler = false) (hl : s.ctx.latch 0 = none) :
    ∃ t, exec (.lgath f) s = .next t ∧
      t.ctx.body = (s.ctx.setLatch 0 (some { code := 0x05#8, sub := 0#8, addr := en.addr })).body := by
  obtain ⟨-, hnone⟩ := gathBlocks_turned s f en
  have hbadn : padBad (s.turned .l f.tok en).ctx [] en.val.toNat 64 = false := by
    rw [padBad_none, Ctx.padPoison_of_body State.turned_body, hpois]
  obtain ⟨t, ht, -, -, -, hbody⟩ := exec_fault (i := .lgath f) (v := s.turned .l f.tok en) (code := cDATA) (sub := 0#8) rfl h (by decide)
    (by
      dsimp only
      rw [if_neg (show ¬ en.begun.bad = true by rw [show en.begun.bad = en.bad from rfl, hb]; decide),
        prepPad_awake (fun sp hsp => by rw [List.mem_singleton.mp hsp]; exact padAwake_turned hpad)]
      dsimp only
      rw [show en.begun.val = en.val from rfl, hbadn, if_neg Bool.false_ne_true]
      have := hnone hbad
      rw [gathElem] at this
      rw [this, show en.begun.spec = false from hspec]
      rfl)
    ⟨State.turned_parts, State.turned_body⟩ hbase hl
  exact ⟨t, ht, hbody⟩

/-- The groups of an image's blocks. -/
def imageGroups (c : Ctx) (f : FLN) (ad e r k : Nat) : Nat × Bool :=
  padNum c [] (ad + 64 + e * (256 * gathElem f) + 16 * gathElem f * r + 4 * k) 4

/-- A clean well-formed image fills the shadow plane. -/
theorem lgath_fills (h : Say.Runs s .l f.tok en) (hb : en.bad = false) (hpois : s.ctx.padPoison en.val.toNat 64 = false)
    (hgood : ImageAt s f en.val.toNat)
    (hpad : Say.PadAwake s en.val.toNat (64 + Say.padNat s (en.val.toNat + 2 * 4) 2 * (256 * gathElem f))) :
    ∃ t, exec (.lgath f) s = .next t ∧ t.acting = none ∧ t.ctx.tiles = s.ctx.tiles ∧ t.ctx.active = s.ctx.active ∧
      t.ctx.shadow = { imagePlane (s.turned .l f.tok en) (gathElem f) (imageGroups (s.turned .l f.tok en).ctx f en.val.toNat)
        (blockList (fun c => Say.padNat s (en.val.toNat + 2 * c) 2) (fun e => (s.ctx.padByte (en.val.toNat + 16 + e)).toNat))
        s.ctx.shadow with zmask := false } := by
  obtain ⟨hsome, -⟩ := gathBlocks_turned s f en
  have hblocks := hsome hgood
  generalize hbl : blockList (fun c => Say.padNat s (en.val.toNat + 2 * c) 2)
    (fun e => (s.ctx.padByte (en.val.toNat + 16 + e)).toNat) = blocks at hblocks ⊢
  have hspan : ∀ sp ∈ blocks.map (fun e => (en.val.toNat + 64 + e.2.1 * (256 * gathElem f), 256 * gathElem f)),
      Say.PadAwake s sp.1 sp.2 := fun sp hsp => by
    obtain ⟨x, hx, rfl⟩ := List.mem_map.mp hsp
    rw [← hbl] at hx
    obtain ⟨c, hc, e, he, rfl⟩ := mem_blockList.mp hx
    obtain ⟨-, hmono, -⟩ := hgood
    have hlt := Nat.mul_le_mul_right (256 * gathElem f) (Nat.succ_le_of_lt (he.lt_last hmono hc))
    rw [Nat.succ_mul] at hlt
    exact PadAwake.of_span hpad (by dsimp only; omega) (by dsimp only; omega)
  generalize hu : s.turned .l f.tok en = u at hblocks ⊢
  have hshadow : u.ctx.shadow = s.ctx.shadow := Ctx.shadow_of_offPad (hu ▸ turned_offPad s f.tok en)
  have hbad : padBad u.ctx [] en.val.toNat 64 = false := by
    rw [padBad_none, ← hu, Ctx.padPoison_of_body State.turned_body, hpois]
  have hhead : Say.PadAwake u en.val.toNat 64 := hu ▸ padAwake_turned (PadAwake.of_span hpad le_rfl (by omega))
  generalize hspans : blocks.map (fun e => (en.val.toNat + 64 + e.2.1 * (256 * gathElem f), 256 * gathElem f)) = spans at hspan
  obtain ⟨pctx, pact, pmem, pparts⟩ := (u.setShadow (imagePlane u (gathElem f) (imageGroups u.ctx f en.val.toNat) blocks
    u.ctx.shadow)).countPort_frame ((en.val.toNat, 64) :: spans)
  refine exec_lGath (i := .lgath f) (slu := f.slu) (spans := (en.val.toNat, 64) :: spans)
    (v := ((u.setShadow (imagePlane u (gathElem f) (imageGroups u.ctx f en.val.toNat) blocks u.ctx.shadow)).countPort
      ((en.val.toNat, 64) :: spans)).useFree) rfl h ?_ ?_
  · rw [hu]
    dsimp only
    rw [if_neg (show ¬ en.begun.bad = true by rw [show en.begun.bad = en.bad from rfl, hb]; decide),
      prepPad_awake (fun sp hsp => by rw [List.mem_singleton.mp hsp]; exact hhead)]
    dsimp only
    rw [show en.begun.val = en.val from rfl, hbad, if_neg Bool.false_ne_true]
    rw [gathElem] at hblocks hspans
    rw [hblocks]
    dsimp only
    rw [hspans, prepPad_awake (fun sp hsp => by rw [← hu]; exact padAwake_turned (hspan sp hsp))]
    rfl
  · rw [← hshadow, hu]
    exact ⟨pact.trans (by rw [← hu]; rfl), pmem.trans (by rw [← hu]; rfl), pparts.trans (by rw [← hu]; rfl), pctx⟩

end

end Sys2Proof.Machine
end

section
/-! # Entries that feed the array and its planes (O50) -/

namespace Sys2Proof.Machine

section
variable {s : State} {f : FLN} {en : Entry}

/-- LFEED appends the row that its addresses hold (R230). -/
theorem lfeed_row (h : Say.Runs s .l f.tok en) :
    let seg := f.param.getLsbD 4
    let w := feedWidth f.param
    s.ctx.feed.length < 16 → (∀ r ∈ feedSpans f.param s.ctx, r.1 % (if seg then w / 8 else 8) = 0 ∧ r.1 + r.2 ≤ s.ctx.spSize ∧
      Say.PadAwake s r.1 r.2) →
    ∃ t row, exec (.lfeed f) s = .next t ∧ (t.acting = none ∧ t.ctx.tiles = s.ctx.tiles ∧ (f.slu = false → t.ctx.pad = s.ctx.pad) ∧
      (f.rel = false → t.mem = s.mem) ∧ t.ctx.active = s.ctx.active) ∧ t.ctx.feed = s.ctx.feed ++ [row] ∧
      (∀ g < 32, Sparse.get (fun _ => false) row.pois g =
        (List.range 4).any (fun b => decide (4 * g + b < w) && s.ctx.padPoison (Say.feedAt s seg w (4 * g + b)) 1)) ∧
      (∀ i < 128, Sparse.get (fun _ => false) row.pois (i / 4) = false →
        Sparse.get memDefault row.bytes i = if i < w then s.ctx.padByte (Say.feedAt s seg w i) else 0#8) ∧
      (∀ n < 8, t.ctx.foffAt n = if seg = true ∨ n = 0 then s.ctx.foffAt n + en.val.setWidth 32 else s.ctx.foffAt n) ∧
      (en.rows ≠ f.param.toNat % 16 → ∃ en1, (t.bank.queue .l).head? = some en1 ∧ en1.rows = en.rows + 1 ∧
        en1.pushOwed = false) := by
  intro seg w hroom hreads
  obtain ⟨t, ht, hact, hmem, hpad, hoff, hhead⟩ := lfeed_pushes h hroom hreads
  generalize hrow : feedRow (s.turned .l f.tok en) (feedSpans f.param s.ctx) (padNum (s.turned .l f.tok en).ctx []) = row at hoff
  obtain ⟨⟨o, ho⟩, hfoff⟩ := s.ctx.fed_eq f.param (en.val.setWidth 32) row
  obtain ⟨hpois, hbytes⟩ := feedRow_get (s.turned .l f.tok en) f.param s.ctx (padNum (s.turned .l f.tok en).ctx [])
  have hget (k : Nat) : (feedBytes f.param s.ctx (padNum (s.turned .l f.tok en).ctx []))[k]? =
      if k < w then some (Say.padNat s (Say.feedAt s seg w k) 1, s.ctx.padPoison (Say.feedAt s seg w k) 1) else none := by
    rw [feedBytes_get f.param s s.ctx (fun _ => rfl), padNum_turned]
  rw [hrow] at hpois hbytes
  have htiles : t.ctx.tiles = (s.ctx.fed f.param (en.val.setWidth 32) row).tiles := Ctx.tiles_of_offPad hoff
  have hactive : t.ctx.active = (s.ctx.fed f.param (en.val.setWidth 32) row).active := Ctx.active_of_offPad hoff
  have hfeed : t.ctx.feed = (s.ctx.fed f.param (en.val.setWidth 32) row).feed := Ctx.feed_of_offPad hoff
  refine ⟨t, row, ht, ⟨hact, htiles.trans (by rw [ho]), hpad, hmem, hactive.trans (by rw [ho])⟩, hfeed.trans (by rw [ho]),
    fun g hg => ?_, fun i hi hclean => ?_, fun n hn => (Ctx.foffAt_of_offPad hoff n).trans (hfoff n hn), hhead⟩
  · rw [hpois g hg]
    refine congrArg (List.any (List.range 4)) (funext fun b => ?_)
    rw [hget]
    by_cases hb : 4 * g + b < w
    · simp [hb]
    · simp [hb]
  · rw [hbytes i hi hclean, hget]
    by_cases hw : i < w
    · rw [if_pos hw, if_pos hw, Option.elim_some, padNat_one, BitVec.ofNat_toNat, BitVec.setWidth_eq]
    · rw [if_neg hw, if_neg hw, Option.elim_none]

/-- Every group of a poisoned plane is poisoned. -/
theorem poisonAll_pois (p : WPlane) (z : Bool) {g : Nat} (hg : g < 4096) :
    Say.wPois { p.poisonAll with zmask := z } g = true := by
  simp only [Say.wPois, WPlane.poisonAll]
  rw [get_sparseOf _ _ hg]

end

end Sys2Proof.Machine

namespace Sys2Proof
open Machine

theorem loadEntriesFeedTheArray : Say.LoadEntriesFeedTheArray := by
  intro s f en h hb ad Rest
  refine ⟨lsetf_sets h, ?_, ?_, fun hscale hpad => lwgt_scales h hb hscale hpad, fun hfree hpad => lmask_sets h hb hfree hpad⟩
  · intro seg w reads hroom hreads
    exact lfeed_row h hroom hreads
  · intro course all rb n hscale _ hpad
    exact lwgt_rows h hb hscale hpad

theorem sparseImagesFillTheShadowPlane : Say.SparseImagesFillTheShadowPlane := by
  intro s f en h hb hpad ad es rp ci inRow good
  have hes : gathElem f = 1 ∨ gathElem f = 2 := by
    unfold gathElem
    split
    · exact Or.inr rfl
    · exact Or.inl rfl
  refine ⟨fun hclean hgood hall => ?_, fun hpois => ?_, fun hclean hbad hspec hbase hl => ?_⟩
  · have himg : ImageAt s f en.val.toNat := hgood
    obtain ⟨t, ht, hact, htiles, hactive, hshadow⟩ := lgath_fills h hb hclean himg hall
    obtain ⟨hscales, hspois⟩ := imagePlane_scales (s.turned .l f.tok en) (gathElem f)
      (imageGroups (s.turned .l f.tok en).ctx f en.val.toNat) (blockList rp ci) s.ctx.shadow
    refine ⟨t, ht, hact, htiles, hactive, by rw [hshadow]; exact hscales, by rw [hshadow]; exact hspois,
      fun c hc b hb8 => by rw [hshadow]; exact imagePlane_presence himg hc hb8, fun c hc e _ he r hr g hg => ?_,
      fun c hc b hb8 hno r hr x hx => by rw [hshadow]; exact imagePlane_zero himg hes hb8 hno hr hx⟩
    intro from_ to_
    obtain ⟨hp, hbytes⟩ := imagePlane_block (u := s.turned .l f.tok en)
      (g := imageGroups (s.turned .l f.tok en).ctx f en.val.toNat) (p := s.ctx.shadow) himg hes hc he hr hg
    have hgroup : imageGroups (s.turned .l f.tok en).ctx f en.val.toNat e r g = (Say.padNat s from_ 4, s.ctx.padPoison from_ 4) :=
      padNum_turned ..
    rw [hshadow]
    refine ⟨hp.trans (congrArg Prod.snd hgroup), fun hfrom b hb4 => (hbytes b hb4).trans ?_⟩
    rw [hgroup]
    exact freeOr_get s _ _ _ hb4 hfrom
  · obtain ⟨t, ht, hact, htiles, hactive, hshadow⟩ := lgath_poisons h hb hpad hpois
    refine ⟨t, ht, hact, htiles, hactive, by rw [hshadow]; rfl, fun g hg => ?_, by rw [hshadow]; rfl⟩
    rw [hshadow]
    exact poisonAll_pois s.ctx.shadow false hg
  · obtain ⟨t, ht, hbody⟩ := lgath_faults h hb hpad hclean hbad hspec hbase hl
    generalize hc : s.ctx.setLatch 0 (some { code := 0x05#8, sub := 0#8, addr := en.addr }) = c at hbody
    have hoff := Ctx.offPad_of_body hbody
    have htiles : t.ctx.tiles = s.ctx.tiles := (Ctx.tiles_of_offPad hoff).trans (by rw [← hc]; rfl)
    have hactive : t.ctx.active = s.ctx.active := (Ctx.active_of_offPad hoff).trans (by rw [← hc]; rfl)
    have hshadow : t.ctx.shadow = s.ctx.shadow := (Ctx.shadow_of_offPad hoff).trans (by rw [← hc]; rfl)
    refine ⟨t, ht, htiles, hshadow, hactive, ?_⟩
    rw [Ctx.latch, Ctx.latches_of_body hbody]
    rw [← hc]
    exact Ctx.latch_setLatch s.ctx 0 _

/-- Settles O50: an entry's end leaves what it has written of the feed, the planes and the mask block, and what it writes is read
off the scratchpad group by group. -/
theorem loadEntriesFeedTheArrayAndItsPlanes : Obligations.LoadEntriesFeedTheArrayAndItsPlanes :=
  ⟨loadEntriesFeedTheArray, sparseImagesFillTheShadowPlane⟩

end Sys2Proof
end

section
/-! # Elements of a lane (O27, O30)

The element rules of the V words as the statements give them are the model's, element by element and packed into lanes. -/

namespace Sys2Proof.Machine

/-! ### Integers narrowed (R61, R71) -/

theorem narrow_eq (sg : Bool) (w : Nat) (sat : Bool) (v : Int) : narrow sg w sat v = Say.narrowed sg w sat v := by
  have hclamp : clampTo (minOf sg w) (maxOf sg w) v =
      (max (Say.least sg w) (min (Say.most sg w) v), decide (v < Say.least sg w ∨ Say.most sg w < v)) := by
    have hle : Say.least sg w ≤ Say.most sg w := by
      have hpow : (0 : Int) < 2 ^ (w - 1) := by positivity
      have hpow' : (0 : Int) < 2 ^ w := by positivity
      unfold Say.least Say.most
      cases sg <;> simp only [if_true, Bool.false_eq_true, if_false] <;> omega
    show (if Say.most sg w < v then (Say.most sg w, true) else if v < Say.least sg w then (Say.least sg w, true) else (v, false)) = _
    by_cases hhi : Say.most sg w < v
    · rw [if_pos hhi, min_eq_left hhi.le, max_eq_right hle, decide_eq_true (Or.inr hhi)]
    · rw [if_neg hhi, min_eq_right (not_lt.mp hhi)]
      by_cases hlo : v < Say.least sg w
      · rw [if_pos hlo, max_eq_left hlo.le, decide_eq_true (Or.inl hlo)]
      · rw [if_neg hlo, max_eq_right (not_lt.mp hlo), decide_eq_false (by tauto)]
  cases sat with
  | false => rfl
  | true =>
    unfold narrow Say.narrowed
    rw [if_pos rfl, if_pos rfl, hclamp]
    by_cases h : v < Say.least sg w ∨ Say.most sg w < v
    · simp only [h]; rfl
    · simp only [h]; rfl

/-- A value that a clamp does not change. -/
theorem narrowed_false (sg : Bool) (w : Nat) (v : Int) : Say.narrowed sg w false v = ((v % 2 ^ w).toNat, 0#7) := rfl

theorem arith2_eq (ty : ETy) (m : Rm) (sat : Bool) (fi : Int → Int → Int) (ff : Val → Val → Val) (a b : Nat) :
    arith2 ty m sat fi ff a b = Say.made ty m sat (fi (Say.iv ty a) (Say.iv ty b)) (ff (Say.fv ty a) (Say.fv ty b)) := by
  cases ty with
  | int sg w => exact narrow_eq ..
  | flt t => rfl

theorem arith3_eq (ty : ETy) (m : Rm) (sat : Bool) (fi : Int → Int → Int → Int) (ff : Val → Val → Val → Val) (a b d : Nat) :
    arith3 ty m sat fi ff a b d =
      Say.made ty m sat (fi (Say.iv ty a) (Say.iv ty b) (Say.iv ty d)) (ff (Say.fv ty a) (Say.fv ty b) (Say.fv ty d)) := by
  cases ty with
  | int sg w => exact narrow_eq ..
  | flt t => rfl

/-! ### Signs and shifts (R249, R251) -/

/-- A signed element is its bits modulo 2ʷ. -/
theorem iv_emod (sg : Bool) (w a : Nat) : (2 ^ w : Int) ∣ Say.iv (.int sg w) a - a := by
  unfold Say.iv Say.sgn
  dsimp only
  split
  · split
    · simp
    · exact ⟨-1, by ring⟩
  · simp

/-- The range of a signed element. -/
theorem iv_range {sg : Bool} {w a : Nat} (ha : a < 2 ^ w) : -(2 ^ w : Int) ≤ Say.iv (.int sg w) a ∧ Say.iv (.int sg w) a < 2 ^ w := by
  have ha' : (a : Int) < 2 ^ w := by exact_mod_cast ha
  have hpow : (0 : Int) < 2 ^ w := by positivity
  unfold Say.iv Say.sgn
  dsimp only
  split
  · split <;> omega
  · omega

theorem iv_zero_iff {sg : Bool} {w a : Nat} (ha : a < 2 ^ w) : Say.iv (.int sg w) a = 0 ↔ a = 0 := by
  have ha' : (a : Int) < 2 ^ w := by exact_mod_cast ha
  have hpow : (0 : Nat) < 2 ^ (w - 1) := by positivity
  unfold Say.iv Say.sgn
  dsimp only
  split
  · split <;> omega
  · omega

/-- The bounds of a type lie within 2ʷ. -/
theorem bounds_lt (sg : Bool) {w : Nat} (hw : 0 < w) : -(2 ^ w : Int) < Say.least sg w ∧ Say.most sg w < 2 ^ w ∧ Say.least sg w ≤ 0 ∧
    (sg = false → Say.least sg w = 0) ∧ 0 ≤ Say.most sg w := by
  obtain ⟨n, rfl⟩ := Nat.exists_eq_succ_of_ne_zero hw.ne'
  have hpow : (0 : Int) < 2 ^ n := by positivity
  have hpow' : (2 ^ (n + 1) : Int) = 2 * 2 ^ n := by ring
  unfold Say.least Say.most
  cases sg <;> simp only [Nat.succ_eq_add_one, Nat.add_sub_cancel, if_true, Bool.false_eq_true, if_false, hpow'] <;>
    refine ⟨?_, ?_, ?_, ?_, ?_⟩ <;> simp <;> omega

/-- A value past the range of its type, narrowed under the saturate bit. -/
theorem narrowed_outside {sg : Bool} {w : Nat} (hw : 0 < w) {v : Int} :
    ((2 ^ w : Int) ≤ v → Say.narrowed sg w true v = (wrapTo w (maxOf sg w), flagSAT)) ∧
    (v ≤ -(2 ^ w : Int) → Say.narrowed sg w true v = (wrapTo w (minOf sg w), flagSAT)) := by
  obtain ⟨hlo, hhi, hlo0, -, hhi0⟩ := bounds_lt sg hw
  have hle : Say.least sg w ≤ Say.most sg w := hlo0.trans hhi0
  refine ⟨fun hv => ?_, fun hv => ?_⟩
  · have hlt : Say.most sg w < v := hhi.trans_le hv
    unfold Say.narrowed
    rw [if_pos rfl, min_eq_left hlt.le, max_eq_right hle, if_pos (Or.inr hlt)]
    rfl
  · have hlt : v < Say.least sg w := hv.trans_lt hlo
    unfold Say.narrowed
    rw [if_pos rfl, min_eq_right (hlt.le.trans hle), max_eq_left hlt.le, if_pos (Or.inl hlt)]
    rfl

theorem narrowed_zero {sg : Bool} {w : Nat} (hw : 0 < w) : Say.narrowed sg w true 0 = (0, 0#7) := by
  obtain ⟨-, -, hlo, -, hhi⟩ := bounds_lt sg hw
  unfold Say.narrowed
  rw [if_pos rfl, min_eq_right hhi, max_eq_right hlo, if_neg (by omega)]
  rfl

section
variable {sg : Bool} {w a : Nat}

/-- A left shift that does not saturate. -/
theorem shiftElem_left_wrap (c : Nat) :
    shiftElem (.int sg w) 0 false a c = Say.narrowed sg w false (Say.iv (.int sg w) a * 2 ^ c) := by
  have hmod : Say.iv (.int sg w) a * 2 ^ c % 2 ^ w = ((a * 2 ^ c % 2 ^ w : Nat) : Int) := by
    have heq : (a : Int) * 2 ^ c ≡ Say.iv (.int sg w) a * 2 ^ c [ZMOD 2 ^ w] :=
      (Int.modEq_iff_dvd.mpr (iv_emod sg w a)).mul_right _
    rw [← heq.eq]
    push_cast
    rfl
  rw [narrowed_false, hmod, Int.toNat_natCast]
  show (if w ≤ c then 0 else a * 2 ^ c % 2 ^ w, 0#7) = _
  by_cases hc : w ≤ c
  · rw [if_pos hc, Nat.mod_eq_zero_of_dvd (Dvd.dvd.mul_left (pow_dvd_pow 2 hc) a)]
  · rw [if_neg hc]

/-- A left shift under the saturate bit, whatever the count. -/
theorem shiftElem_left_sat (hw : 0 < w) (ha : a < 2 ^ w) (c : Nat) :
    shiftElem (.int sg w) 0 true a c = Say.narrowed sg w true (Say.iv (.int sg w) a * 2 ^ c) := by
  show (if w ≤ c then (if a = 0 then (0, 0#7) else
    (wrapTo w (if Say.iv (.int sg w) a < 0 then minOf sg w else maxOf sg w), flagSAT)) else narrow sg w true _) = _
  by_cases hc : w ≤ c
  · rw [if_pos hc]
    have hpow : (2 ^ w : Int) ≤ 2 ^ c := pow_le_pow_right₀ (by norm_num) hc
    obtain ⟨hmax, hmin⟩ := narrowed_outside (sg := sg) hw (v := Say.iv (.int sg w) a * 2 ^ c)
    by_cases h0 : a = 0
    · have hiv : Say.iv (.int sg w) a = 0 := (iv_zero_iff ha).mpr h0
      rw [if_pos h0, hiv, zero_mul, narrowed_zero hw]
    · have hiv : Say.iv (.int sg w) a ≠ 0 := fun h => h0 ((iv_zero_iff ha).mp h)
      rw [if_neg h0]
      by_cases hneg : Say.iv (.int sg w) a < 0
      · rw [if_pos hneg, hmin (by nlinarith)]
      · rw [if_neg hneg, hmax (by nlinarith [show 1 ≤ Say.iv (.int sg w) a by omega])]
  · rw [if_neg hc]
    exact narrow_eq ..

theorem shiftElem_left (hw : 0 < w) (ha : a < 2 ^ w) (sat : Bool) (c : Nat) :
    shiftElem (.int sg w) 0 sat a c = Say.narrowed sg w sat (Say.iv (.int sg w) a * 2 ^ c) := by
  cases sat with
  | false => exact shiftElem_left_wrap c
  | true => exact shiftElem_left_sat hw ha c

/-- A logical right shift, whatever the count. -/
theorem shiftElem_right (ha : a < 2 ^ w) (sat : Bool) (c : Nat) : shiftElem (.int sg w) 1 sat a c = (a / 2 ^ c, 0#7) := by
  show (if w ≤ c then 0 else a / 2 ^ c, 0#7) = _
  by_cases hc : w ≤ c
  · rw [if_pos hc, Nat.div_eq_of_lt (ha.trans_le (pow_le_pow_right₀ (by norm_num) hc))]
  · rw [if_neg hc]

/-- Past its width an arithmetic shift gives the sign. -/
theorem ediv_pow_of_range {v : Int} {c : Nat} (hlo : -(2 ^ w : Int) ≤ v) (hhi : v < 2 ^ w) (hc : w ≤ c) : v / 2 ^ c = v / 2 ^ w := by
  have hpow : (2 ^ w : Int) ≤ 2 ^ c := pow_le_pow_right₀ (by norm_num) hc
  have hpos : (0 : Int) < 2 ^ w := by positivity
  by_cases hv : 0 ≤ v
  · rw [Int.ediv_eq_zero_of_lt hv hhi, Int.ediv_eq_zero_of_lt hv (hhi.trans_le hpow)]
  · have hneg {p : Int} (hp : 0 < p) (hle : -p ≤ v) : v / p = -1 :=
      (Int.ediv_eq_iff_of_pos hp).mpr ⟨by omega, by omega⟩
    rw [hneg hpos hlo, hneg (hpos.trans_le hpow) (by omega)]

/-- An arithmetic right shift, whatever the count. -/
theorem shiftElem_arith (ha : a < 2 ^ w) (sat : Bool) (c : Nat) :
    shiftElem (.int sg w) 2 sat a c = ((Say.iv (.int sg w) a / 2 ^ c % 2 ^ w).toNat, 0#7) := by
  have hdiv : Say.iv (.int sg w) a / 2 ^ min c w = Say.iv (.int sg w) a / 2 ^ c := by
    rcases le_total c w with hc | hc
    · rw [min_eq_left hc]
    · obtain ⟨hlo, hhi⟩ := iv_range (sg := sg) ha
      rw [min_eq_right hc, ediv_pow_of_range hlo hhi hc]
  show (wrapTo w (Say.iv (.int sg w) a / 2 ^ min c w), 0#7) = _
  rw [hdiv]
  rfl

/-- The sign of a float element changed. -/
theorem add_pow_mod (n : Nat) (ha : a < 2 ^ (n + 1)) : (a + 2 ^ n) % 2 ^ (n + 1) = a ^^^ 2 ^ n := by
  refine Nat.eq_of_testBit_eq fun i => ?_
  rw [Nat.testBit_mod_two_pow, Nat.testBit_xor, Nat.testBit_two_pow, Nat.add_comm a]
  rcases lt_trichotomy i n with hi | rfl | hi
  · rw [Nat.testBit_two_pow_add_gt hi, decide_eq_true (by omega : i < n + 1), decide_eq_false (by omega : ¬ n = i), Bool.xor_false,
      Bool.true_and]
  · rw [Nat.testBit_two_pow_add_eq, decide_eq_true (by omega : i < i + 1), decide_eq_true rfl, Bool.xor_true, Bool.true_and]
  · rw [Nat.testBit_lt_two_pow (ha.trans_le (pow_le_pow_right₀ (by norm_num) hi)), decide_eq_false (by omega : ¬ i < n + 1),
      decide_eq_false (by omega : ¬ n = i)]
    rfl

end

/-! ### Elements packed into lanes (R42, R245) -/

theorem sum_zipIdx_eq_packBits (w : Nat) (es : List (Nat × BitVec 7)) (k : Nat) :
    ((es.zipIdx k).map (fun e => e.1.1 % 2 ^ w * 2 ^ (w * e.2))).sum = 2 ^ (w * k) * packBits w (es.map Prod.fst) := by
  induction es generalizing k with
  | nil => rfl
  | cons e es ih =>
    rw [List.zipIdx_cons, List.map_cons, List.sum_cons, ih, List.map_cons, packBits, Nat.mul_succ, pow_add]
    ring

/-- A lane as the statements pack it is the model's. -/
theorem cellOf_eq (w : Nat) (g : Nat → Nat × BitVec 7) : Say.cellOf w g = one (laneOf w g) := by
  have hflags (l : List (Nat × BitVec 7)) (a : BitVec 7) :
      l.foldl (fun a e => a ||| e.2) a = (l.map Prod.snd).foldl (fun a b => a ||| b) a := by
    rw [List.foldl_map]
  have hsum := sum_zipIdx_eq_packBits w ((List.range (32 / w)).map g) 0
  rw [Nat.mul_zero, pow_zero, Nat.one_mul] at hsum
  unfold Say.cellOf one laneOf orFlags
  dsimp only
  rw [hflags]
  exact congrArg (fun v => ([v], _)) hsum

theorem laneOf_congr {w : Nat} {g g' : Nat → Nat × BitVec 7} (h : ∀ e < 32 / w, g e = g' e) : laneOf w g = laneOf w g' := by
  unfold laneOf
  rw [List.map_congr_left fun e he => h e (List.mem_range.mp he)]

theorem etOf_width (t : Nat) : (etOf t).width = 8 ∨ (etOf t).width = 16 ∨ (etOf t).width = 32 := by
  unfold etOf
  split <;> decide

/-- A lane of clean results without flags. -/
theorem laneOf_clean (w : Nat) (h : Nat → Nat) : laneOf w (fun e => (h e, 0#7)) = (packBits w ((List.range (32 / w)).map h), 0#7) := by
  have hzero : ∀ n : Nat, orFlags ((List.range n).map (fun _ => 0#7)) = 0#7 := fun n => by
    unfold orFlags
    rw [List.foldl_map]
    exact List.foldl_fixed' (fun _ => rfl) _
  unfold laneOf
  dsimp only
  rw [List.map_map, List.map_map]
  exact congrArg (Prod.mk _) (hzero _)

/-- The elements of a lane packed again. -/
theorem packBits_el {w x : Nat} (hw : w = 8 ∨ w = 16 ∨ w = 32) (hx : x < 2 ^ 32) :
    packBits w ((List.range (32 / w)).map (Say.el w x)) = x := by
  rcases hw with rfl | rfl | rfl <;> simp [List.range_succ, packBits, Say.el] <;> omega

/-- A bitwise rule on whole lanes is the rule on their elements. -/
theorem laneOf_bits {w x : Nat} {h : Nat → Nat} (hw : w = 8 ∨ w = 16 ∨ w = 32) (hx : x < 2 ^ 32) (hh : ∀ e < 32 / w, h e = Say.el w x e) :
    laneOf 32 (fun _ => (x, 0#7)) = laneOf w (fun e => (h e, 0#7)) := by
  rw [laneOf_clean, laneOf_clean, List.map_congr_left (fun e he => hh e (List.mem_range.mp he)), packBits_el hw hx]
  refine Prod.ext ?_ rfl
  show x % 2 ^ 32 + 2 ^ 32 * 0 = x
  rw [Nat.mod_eq_of_lt hx, Nat.mul_zero, Nat.add_zero]

theorem el_and (w x y e : Nat) : Nat.land (Say.el w x e) (Say.el w y e) = Say.el w (x &&& y) e := by
  unfold Say.el
  rw [Nat.and_div_two_pow, Nat.and_mod_two_pow]
  rfl

theorem el_or (w x y e : Nat) : Nat.lor (Say.el w x e) (Say.el w y e) = Say.el w (x ||| y) e := by
  unfold Say.el
  rw [Nat.or_div_two_pow, Nat.or_mod_two_pow]
  rfl

theorem el_xor (w x y e : Nat) : Nat.xor (Say.el w x e) (Say.el w y e) = Say.el w (x ^^^ y) e := by
  unfold Say.el
  rw [Nat.xor_div_two_pow, Nat.xor_mod_two_pow]
  rfl

theorem el_not {w x e : Nat} (hw : w = 8 ∨ w = 16 ∨ w = 32) (hx : x < 2 ^ 32) (he : e < 32 / w) :
    2 ^ w - 1 - Say.el w x e = Say.el w (2 ^ 32 - 1 - x) e := by
  unfold Say.el
  rcases hw with rfl | rfl | rfl
  · have he4 : e < 4 := he
    interval_cases e <;> norm_num <;> omega
  · have he2 : e < 2 := he
    interval_cases e <;> norm_num <;> omega
  · obtain rfl : e = 0 := Nat.lt_one_iff.mp he
    norm_num
    omega

theorem el_lt (w x e : Nat) : Say.el w x e < 2 ^ w := Nat.mod_lt _ (by positivity)

end Sys2Proof.Machine
end

section
/-! # The element-by-element words (O27, O30)

Each is the model's element rule of the number of sources and the width that its form says. -/

namespace Sys2Proof.Machine

/-- The width of the elements of an element-by-element word. -/
def elemWidth (i : Instr) (f : FV3) : Nat := match i with
  | .vmov _ => 32
  | _ => (etOf f.et.toNat).width

/-- A lane computed element by element from the lanes of its sources. -/
def elemLane (w n : Nat) (useD : Bool) (op : Nat → Nat → Nat → Nat × BitVec 7) (x y z : Nat) : Nat × BitVec 7 :=
  laneOf w (fun e => op (bitsOf x (w * e) w) (if n = 2 then bitsOf y (w * e) w else 0) (if useD then bitsOf z (w * e) w else 0))

/-- What the model does of a word that has a rule: as many sources as the rule, and its results. -/
def ElemExec (m : Rm) (i : Instr) (f : FV3) (n : Nat) (op : Nat → Nat → Nat → Nat × BitVec 7) : Prop :=
  ∃ w op', (∀ s, exec i s = vElem i f (if 2 ≤ n then 2 else 1) (decide (n = 3)) w op' s) ∧
    ∀ x y z, x < 2 ^ 32 → y < 2 ^ 32 → elemLane w (if 2 ≤ n then 2 else 1) (decide (n = 3)) (op' m) x y z =
      laneOf (elemWidth i f) (fun e => op (Say.el (elemWidth i f) x e) (Say.el (elemWidth i f) y e) (Say.el (elemWidth i f) z e))

section
variable {m : Rm} {i : Instr} {f : FV3} {op : Nat → Nat → Nat → Nat × BitVec 7} {n : Nat}

/-- A word whose rule is the model's on every element. -/
theorem ElemExec.of_elements {op' : Rm → Nat → Nat → Nat → Nat × BitVec 7}
    (hexec : ∀ s, exec i s = vElem i f (if 2 ≤ n then 2 else 1) (decide (n = 3)) (elemWidth i f) op' s)
    (hop : ∀ a b d, a < 2 ^ elemWidth i f → op' m a (if 2 ≤ n then b else 0) (if n = 3 then d else 0) = op a b d) :
    ElemExec m i f n op := by
  refine ⟨elemWidth i f, op', hexec, fun x y z _ _ => laneOf_congr fun e _ => ?_⟩
  have h := hop (Say.el (elemWidth i f) x e) (Say.el (elemWidth i f) y e) (Say.el (elemWidth i f) z e) (el_lt ..)
  have hb (v : Nat) : bitsOf v (elemWidth i f * e) (elemWidth i f) = Say.el (elemWidth i f) v e := rfl
  have h2 : (if 2 ≤ n then 2 else 1) = 2 ↔ 2 ≤ n := by
    by_cases hn : 2 ≤ n <;> simp [hn]
  simp only [h2, hb, decide_eq_true_eq]
  exact h

/-- A word on whole lanes whose rule on elements is the same. -/
theorem ElemExec.of_bits {op' : Rm → Nat → Nat → Nat → Nat × BitVec 7} {q : Nat → Nat → Nat} (hi : elemWidth i f = (etOf f.et.toNat).width)
    (hexec : ∀ s, exec i s = vElem i f (if 2 ≤ n then 2 else 1) (decide (n = 3)) 32 op' s)
    (hop : ∀ a b d, op' m a (if 2 ≤ n then b else 0) d = (q a b, 0#7)) (hlt : ∀ x y, x < 2 ^ 32 → y < 2 ^ 32 → q x y < 2 ^ 32)
    (hel : ∀ x y z e, x < 2 ^ 32 → y < 2 ^ 32 → e < 32 / elemWidth i f →
      op (Say.el (elemWidth i f) x e) (Say.el (elemWidth i f) y e) (Say.el (elemWidth i f) z e) =
        (Say.el (elemWidth i f) (q x y) e, 0#7)) :
    ElemExec m i f n op := by
  refine ⟨32, op', hexec, fun x y z hx hy => ?_⟩
  rw [laneOf_congr fun e he => hel x y z e hx hy he]
  refine Eq.trans ?_ (laneOf_bits (hi ▸ etOf_width _) (hlt x y hx hy) (fun _ _ => rfl))
  refine laneOf_congr fun e he => ?_
  obtain rfl : e = 0 := Nat.lt_one_iff.mp he
  have h32 {v : Nat} (hv : v < 2 ^ 32) : bitsOf v (32 * 0) 32 = v := by
    unfold bitsOf
    rw [Nat.mul_zero, pow_zero, Nat.div_one, Nat.mod_eq_of_lt hv]
  have h2 : (if 2 ≤ n then 2 else 1) = 2 ↔ 2 ≤ n := by
    by_cases hn : 2 ≤ n <;> simp [hn]
  simp only [h2, h32 hx, h32 hy, hop]

end

section
variable {ty : ETy} {sat : Bool} {a b : Nat}

/-- VMIN and VMAX (R250). -/
theorem extremeElem_eq (ty : ETy) (isMax sat : Bool) (a b : Nat) : extremeElem ty isMax sat a b = match ty with
    | .int sg w => (if Say.iv (.int sg w) a < Say.iv (.int sg w) b then (if isMax then b else a) else (if isMax then a else b), 0#7)
    | .flt t => if sat then t.round .rne true (t.decode (minMax (.flt t) isMax a b)) else (minMax (.flt t) isMax a b, 0#7) := by
  cases ty with
  | flt t => rfl
  | int sg w =>
    show (if (decide (Say.iv (.int sg w) a < Say.iv (.int sg w) b) != isMax) then a else b, 0#7) = _
    by_cases h : Say.iv (.int sg w) a < Say.iv (.int sg w) b <;> cases isMax <;> simp [h]

/-- VABS (R249). -/
theorem absElem_eq (ty : ETy) (sat : Bool) (a : Nat) : absElem ty sat a = match ty with
    | .int sg w => Say.narrowed sg w sat (Say.iv (.int sg w) a).natAbs
    | .flt t => (if (t.decode a).isNan then t.nanBits else a % 2 ^ (t.width - 1), 0#7) := by
  cases ty with
  | int sg w => exact narrow_eq ..
  | flt t =>
    have hw : t.width - 1 = t.e + t.f := by unfold Fmt.width; omega
    unfold absElem
    dsimp only
    rw [hw]
    split <;> rfl

/-- VNEG (R249). -/
theorem negElem_eq (ty : ETy) (sat : Bool) (a : Nat) : a < 2 ^ ty.width → negElem ty sat a = match ty with
    | .int sg w => Say.narrowed sg w sat (-(Say.iv (.int sg w) a))
    | .flt t => (if (t.decode a).isNan then t.nanBits else a ^^^ 2 ^ (t.width - 1), 0#7) := by
  intro ha
  cases ty with
  | int sg w => exact narrow_eq ..
  | flt t =>
    have hw : t.width = t.e + t.f + 1 := by unfold Fmt.width; omega
    have ha' : a < 2 ^ (t.e + t.f + 1) := hw ▸ ha
    unfold negElem
    dsimp only
    rw [hw, Nat.add_sub_cancel, add_pow_mod _ ha']
    split <;> rfl

theorem etOf_width_pos (t : Nat) : 0 < (etOf t).width := by
  rcases etOf_width t with h | h | h <;> omega

/-- The shifts (R251): of a float type nothing. -/
theorem shiftElem_eq (t : Nat) (sat : Bool) {a : Nat} (ha : a < 2 ^ (etOf t).width) (c : Nat) :
    (shiftElem (etOf t) 0 sat a c = match etOf t with
      | .int sg w => Say.narrowed sg w sat (Say.iv (.int sg w) a * 2 ^ c)
      | .flt _ => (a, 0#7)) ∧
    (shiftElem (etOf t) 1 sat a c = match etOf t with
      | .int _ _ => (a / 2 ^ c, 0#7)
      | .flt _ => (a, 0#7)) ∧
    (shiftElem (etOf t) 2 sat a c = match etOf t with
      | .int sg w => ((Say.iv (.int sg w) a / 2 ^ c % 2 ^ w).toNat, 0#7)
      | .flt _ => (a, 0#7)) := by
  have hpos := etOf_width_pos t
  revert ha hpos
  generalize etOf t = ty
  intro ha hpos
  cases ty with
  | int sg w => exact ⟨shiftElem_left hpos ha sat c, shiftElem_right ha sat c, shiftElem_arith ha sat c⟩
  | flt t => exact ⟨rfl, rfl, rfl⟩

end

/-- Every rule is the model's. -/
theorem elemOp_exec {m : Rm} {i : Instr} {f : FV3} {n : Nat} {op : Nat → Nat → Nat → Nat × BitVec 7}
    (h : Say.elemOp m i = some (f, n, op)) : ElemExec m i f n op := by
  unfold Say.elemOp at h
  split at h
  case h_24 => cases h
  all_goals
    obtain ⟨rfl, hrule⟩ := Prod.mk.inj (Option.some.inj h)
    obtain ⟨rfl, rfl⟩ := Prod.mk.inj hrule
  case h_1 f =>
    exact .of_elements (fun s => show execVadd f s = _ from rfl) fun a b d _ => arith2_eq ..
  case h_2 f =>
    exact .of_elements (fun s => show execVsub f s = _ from rfl) fun a b d _ => arith2_eq ..
  case h_3 f =>
    exact .of_elements (fun s => show execVmul f s = _ from rfl) fun a b d _ => arith2_eq ..
  case h_4 f =>
    exact .of_elements (fun s => show execVfma f s = _ from rfl) fun a b d _ => arith3_eq ..
  case h_5 f =>
    exact .of_elements (fun s => show execVfms f s = _ from rfl) fun a b d _ => arith3_eq ..
  case h_6 f =>
    exact .of_elements (fun s => show execVfnma f s = _ from rfl) fun a b d _ => arith3_eq ..
  case h_7 f =>
    exact .of_elements (fun s => show execVmin f s = _ from rfl) fun a b d _ => extremeElem_eq ..
  case h_8 f =>
    exact .of_elements (fun s => show execVmax f s = _ from rfl) fun a b d _ => extremeElem_eq ..
  case h_9 f =>
    exact .of_elements (fun s => show execVabs f s = _ from rfl) fun a b d _ => absElem_eq ..
  case h_10 f =>
    exact .of_elements (fun s => show execVneg f s = _ from rfl) fun a b d ha => negElem_eq _ _ _ ha
  case h_11 f =>
    exact .of_bits rfl (fun s => show execVand f s = _ from rfl) (fun a b d => rfl) (fun x y hx hy => Nat.and_lt_two_pow _ hy)
      fun x y z e _ _ _ => congrArg (·, 0#7) (el_and ..)
  case h_12 f =>
    exact .of_bits rfl (fun s => show execVor f s = _ from rfl) (fun a b d => rfl) (fun x y hx hy => Nat.or_lt_two_pow hx hy)
      fun x y z e _ _ _ => congrArg (·, 0#7) (el_or ..)
  case h_13 f =>
    exact .of_bits rfl (fun s => show execVxor f s = _ from rfl) (fun a b d => rfl) (fun x y hx hy => Nat.xor_lt_two_pow hx hy)
      fun x y z e _ _ _ => congrArg (·, 0#7) (el_xor ..)
  case h_14 f =>
    exact .of_bits (q := fun x _ => 2 ^ 32 - 1 - x) rfl (fun s => show execVnot f s = _ from rfl) (fun a b d => rfl)
      (fun x y hx hy => by omega) fun x y z e hx _ he => congrArg (·, 0#7) (el_not (etOf_width _) hx he)
  case h_15 f =>
    exact .of_elements (fun s => show execVshl f s = _ from rfl) fun a b d ha => (shiftElem_eq _ _ ha b).1
  case h_16 f =>
    exact .of_elements (fun s => show execVshr f s = _ from rfl) fun a b d ha => (shiftElem_eq _ _ ha b).2.1
  case h_17 f =>
    exact .of_elements (fun s => show execVshra f s = _ from rfl) fun a b d ha => (shiftElem_eq _ _ ha b).2.2
  case h_18 f =>
    exact .of_elements (fun s => show execVexp2 f s = _ from rfl) fun a b d _ => rfl
  case h_19 f =>
    exact .of_elements (fun s => show execVlog2 f s = _ from rfl) fun a b d _ => rfl
  case h_20 f =>
    exact .of_elements (fun s => show execVrcp f s = _ from rfl) fun a b d _ => rfl
  case h_21 f =>
    exact .of_elements (fun s => show execVrsq f s = _ from rfl) fun a b d _ => rfl
  case h_22 f =>
    exact .of_elements (fun s => show execVtanh f s = _ from rfl) fun a b d _ => rfl
  case h_23 f =>
    exact .of_elements (fun s => show execVmov f s = _ from rfl) fun a b d _ => rfl

/-- The form of an element-by-element word. -/
theorem elemForm_eq {s : State} {en : Entry} {i : Instr} {f : FV3} {n : Nat} {op : Nat → Nat → Nat → Nat × BitVec 7}
    (h : Say.elemOp en.stamp.rm i = some (f, n, op)) :
    Say.elemForm s en i = some (f.tok, f.dst, f.k, false,
      [f.src1] ++ (if 2 ≤ n then [f.src2] else []) ++ (if n = 3 then [dlineLine f.dst] else []),
      fun j => Say.cellOf (elemWidth i f) (fun e => op (Say.el (elemWidth i f) (Say.bitsAt s f.src1.tile f.src1.dir en.i1.toNat j) e)
        (Say.el (elemWidth i f) (Say.bitsAt s f.src2.tile f.src2.dir en.i2.toNat j) e)
        (Say.el (elemWidth i f) (Say.bitsAt s f.dst.tile f.dst.dir en.idst.toNat j) e))) := by
  unfold Say.elemForm
  rw [h]
  rfl

end Sys2Proof.Machine
end

section
/-! # A V entry that writes a line (O27, O30)

Last uses of tile registers, a line written, and the work of a V entry whose registers are ready (R56, R245, R246). -/

namespace Sys2Proof.Machine

/-! ### Last uses of tile registers (R56) -/

/-- A last use changes one register at most. -/
theorem Ctx.tileLastUse_eq (c : Ctx) (t : Nat) : (∃ ts, c.tileLastUse t = { c with tiles := ts }) ∧
    ∀ m, m ≠ t → (c.tileLastUse t).tile m = c.tile m := by
  unfold Ctx.tileLastUse
  dsimp only
  split
  · exact ⟨⟨c.tiles, rfl⟩, fun _ _ => rfl⟩
  · split
    · exact ⟨⟨_, rfl⟩, fun m hm => Ctx.tile_setTile_ne c _ hm⟩
    · exact ⟨⟨_, rfl⟩, fun m hm => Ctx.tile_setTile_ne c _ hm⟩

/-- The last uses of an entry change the registers they name, but for its destination. -/
theorem lastUses_eq (s : State) (off : List Nat) (ls : List Line) (dst : Option Nat) :
    ∃ c : Ctx, lastUses s off ls dst = s.setCtx c ∧ (∃ ts, c = { s.ctx with tiles := ts }) ∧
      ∀ m, (∀ l ∈ ls, l.last = true → dst ≠ some l.tile.toNat → l.tile.toNat ≠ m) → c.tile m = s.ctx.tile m := by
  refine ⟨_, rfl, ?_⟩
  generalize s.ctx = c
  induction ls generalizing c with
  | nil => exact ⟨⟨c.tiles, rfl⟩, fun _ _ => rfl⟩
  | cons l ls ih =>
    rw [List.foldl_cons]
    dsimp only
    split
    case isTrue huse =>
      obtain ⟨⟨ts, hts⟩, hother⟩ := c.tileLastUse_eq l.tile.toNat
      obtain ⟨⟨ts', hts'⟩, hrest⟩ := ih (c.tileLastUse l.tile.toNat)
      refine ⟨⟨ts', hts'.trans (by rw [hts])⟩, fun m hm => ?_⟩
      obtain ⟨⟨hlast, -⟩, hdst⟩ : (l.last = true ∧ off.contains l.tile.toNat = false) ∧ dst ≠ some l.tile.toNat := by simpa using huse
      rw [hrest m fun k hk => hm k (List.mem_cons_of_mem _ hk)]
      exact hother m (hm l List.mem_cons_self hlast hdst).symm
    case isFalse =>
      obtain ⟨hts, hrest⟩ := ih c
      exact ⟨hts, fun m hm => hrest m fun k hk => hm k (List.mem_cons_of_mem _ hk)⟩

/-! ### A line written with its last uses and flags -/

/-- The state once lanes of a line are written. -/
def State.lineDone (u : State) (dst : DLine) (ix : Nat) (js : List Nat) (g : Nat → Nat × Bool) (tiles : List Line) (fl : BitVec 7) : State :=
  (lastUses (putLine u dst.tile.toNat dst.dir ix (js.map fun j => (j, g j))).useFree [] tiles (some dst.tile.toNat)).setFlags fl

section
variable (u : State) (dst : DLine) (ix : Nat) (js : List Nat) (g : Nat → Nat × Bool) (tiles : List Line) (fl : BitVec 7)

theorem State.lineDone_frame : (u.lineDone dst ix js g tiles fl).acting = u.acting ∧ (u.lineDone dst ix js g tiles fl).mem = u.mem ∧
    (u.lineDone dst ix js g tiles fl).parts = u.parts ∧
    (∃ ts, (u.lineDone dst ix js g tiles fl).ctx.body = { u.ctx.body with tiles := ts }) ∧
    (u.lineDone dst ix js g tiles fl).bank = { u.bank with estat := u.bank.estat ||| fl } := by
  obtain ⟨c, hc, ⟨ts, hts⟩, -⟩ := lastUses_eq (putLine u dst.tile.toNat dst.dir ix (js.map fun j => (j, g j))).useFree [] tiles
    (some dst.tile.toNat)
  have hline : (putLine u dst.tile.toNat dst.dir ix (js.map fun j => (j, g j))).useFree.ctx =
      (putLine u dst.tile.toNat dst.dir ix (js.map fun j => (j, g j))).ctx := rfl
  rw [hline, putLine_ctx] at hts
  unfold State.lineDone
  rw [hc]
  refine ⟨rfl, rfl, rfl, ⟨ts, ?_⟩, ?_⟩
  · rw [State.setFlags_ctx, Ctx.body_setBank]
    show c.body = _
    rw [hts]
    rfl
  · show ((State.setCtx _ c).setBank _).bank = _
    rw [State.bank_setBank]
    show { c.bank with estat := c.bank.estat ||| fl } = _
    rw [hts]
    rfl

/-- A cell after a line is written, where no last use names its register. -/
theorem State.lineDone_cell {m row col : Nat}
    (hm : ∀ l ∈ tiles, l.last = true → some dst.tile.toNat ≠ some l.tile.toNat → l.tile.toNat ≠ m) :
    (u.lineDone dst ix js g tiles fl).ctx.cell m row col =
      (putLine u dst.tile.toNat dst.dir ix (js.map fun j => (j, g j))).ctx.cell m row col := by
  obtain ⟨c, hc, -, htile⟩ := lastUses_eq (putLine u dst.tile.toNat dst.dir ix (js.map fun j => (j, g j))).useFree [] tiles
    (some dst.tile.toNat)
  have hcell : (u.lineDone dst ix js g tiles fl).ctx.cell m row col = c.cell m row col := by
    unfold State.lineDone
    rw [hc]
    exact Ctx.cell_of_tiles (Ctx.setBank_tiles _ _) m row col
  rw [hcell, Ctx.cell, htile m hm]
  rfl

end

/-! ### The work of an entry whose registers are ready (R245, R246) -/

/-- The lanes that an entry sees: its sources', and its mask's. -/
def seenLane (en : Entry) (kr : KReg) (use : MaskUse) (look : Nat → Nat → Nat × Bool) (n j : Nat) : Nat × Bool :=
  if n = maskSrc then (b2n (kr.bits.getLsbD j), use != .plain && decide (j < en.stamp.vc.toNat) && kr.pois.getLsbD j)
  else if n = coverSrc then (b2n ((lanesOf en kr (use == MaskUse.select)).contains j), false)
  else look n j

/-- The operand numbers under which the entry would consume poison. -/
def poisonHits (en : Entry) (kr : KReg) (use : MaskUse) (subs : List Nat) (c : Nat → Nat → Nat × Bool)
    (deps : (Nat → Nat → Nat × Bool) → Nat → List (Nat × Nat)) : List Nat :=
  ((lanesOf en kr (use == MaskUse.select)).flatMap (fun j => (deps c j).filterMap (fun d =>
    if (c d.1 d.2).2 then some (if d.1 = maskSrc then 7 else subs.getD d.1 1) else none))) ++
  (if use != .plain && maskPoison en kr then [7] else [])

/-- The results of the lanes that the entry writes, each with its flags and poison. -/
def laneResults (en : Entry) (lanes : List Nat) (c : Nat → Nat → Nat × Bool)
    (deps : (Nat → Nat → Nat × Bool) → Nat → List (Nat × Nat))
    (val : Entry → (Nat → Nat → Nat × Bool) → Nat → List Nat × BitVec 7) : List (Nat × (List Nat × BitVec 7) × Bool) :=
  lanes.map (fun j => (j, val en c j, (c maskSrc j).2 || (deps c j).any (fun d => (c d.1 d.2).2)))

/-- The results written to the destination line and those after it. -/
def putResults (u : State) (dst : DLine) (ix : Nat) (res : List (Nat × (List Nat × BitVec 7) × Bool)) : State :=
  (List.range ((res.map (fun r => r.2.1.1.length)).foldl max 1)).foldl (fun s i =>
    putLine s dst.tile.toNat dst.dir ((ix + i) % 64) (res.map (fun r => (r.1, (r.2.1.1.getD i 0, r.2.2))))) u

section
variable {u : State} {dst : DLine} {k : BitVec 3} {use : MaskUse} {tiles : List Line} {subs : List Nat}
  {look : Entry → State → List Nat → Nat → Nat → Nat × Bool} {deps : (Nat → Nat → Nat × Bool) → Nat → List (Nat × Nat)}
  {val : Entry → (Nat → Nat → Nat × Bool) → Nat → List Nat × BitVec 7} {en : Entry}

/-- The work of an entry whose sources are awake and whose destination can be written. -/
theorem vWork_ready (hsrc : ∀ l ∈ tiles, Say.Awake u l.tile.toNat) (hdst : Say.Writable u dst.tile.toNat) (hoffs : en.offs = []) :
    vWork dst k use tiles subs look deps val en u =
      match (if en.spec then none else (poisonHits en (u.bank.getK k.toNat) use subs
        (seenLane en (u.bank.getK k.toNat) use (look en u [])) deps).min?) with
      | some n => .fault u cPOISON (BitVec.ofNat 8 n)
      | none =>
        let res := laneResults en (lanesOf en (u.bank.getK k.toNat) (use == MaskUse.select))
          (seenLane en (u.bank.getK k.toNat) use (look en u [])) deps val
        .done (if (lanesOf en (u.bank.getK k.toNat) (use == MaskUse.select)).isEmpty then lastUses u [] tiles (some dst.tile.toNat)
          else (lastUses (putResults u dst en.idst.toNat res).useFree [] tiles (some dst.tile.toNat)).setFlags
            (orFlags (res.map (fun r => if r.2.2 then 0#7 else r.2.1.2)))) := by
  unfold vWork
  dsimp only
  rw [prepTiles_awake (fun t ht => by obtain ⟨l, hl, rfl⟩ := List.mem_map.mp ht; exact hsrc l hl) (fun t ht => by
    obtain rfl := Option.mem_some_iff.mp ht; exact hdst)]
  dsimp only
  rw [hoffs, readyDst_awake hdst.1]
  change (match (if en.spec then none else (poisonHits en (u.bank.getK k.toNat) use subs
        (seenLane en (u.bank.getK k.toNat) use (look en u [])) deps).min?) with
      | some n => EngOut.fault u cPOISON (BitVec.ofNat 8 n)
      | none => if (lanesOf en (u.bank.getK k.toNat) (use == MaskUse.select)).isEmpty then .done (lastUses u [] tiles (some dst.tile.toNat))
        else _) = _
  split
  · rfl
  · by_cases hl : (lanesOf en (u.bank.getK k.toNat) (use == MaskUse.select)).isEmpty
    · rw [if_pos hl, if_pos hl]
    · rw [if_neg hl, if_neg hl]
      rfl

end

end Sys2Proof.Machine
end

section
/-! # Faults and results of the element-by-element words (O27, O30) -/

namespace Sys2Proof.Machine

/-! ### A fault latched (R344) -/

section
variable {s : State} {e : Eng} {tok : Tok} {en : Entry} {i : Instr} {rel : Option Nat} {rs : List Reg}
  {rd : State → Except Cause Taken} {work : Entry → State → EngOut} {code sub : BitVec 8}

/-- An entry that faults before it has changed anything. -/
theorem exec_latched (hi : exec i s = engineInstr e i tok rel rs rd work s) (h : Say.Runs s e tok en) (he : e ≠ .x)
    (hw : work en.begun (s.turned e tok en) = .fault (s.turned e tok en) code sub) (hb : s.ctx.inHandler = false)
    (hl : s.ctx.latch e.num = none) :
    ∃ t, exec i s = .next t ∧ t.acting = none ∧ t.mem = s.mem ∧ t.ctx.tiles = s.ctx.tiles ∧ t.ctx.pad = s.ctx.pad ∧
      t.ctx.latch e.num = some { code := code, sub := sub, addr := en.addr } ∧
      ((∀ n ∈ pushesOf e tok, s.bank.fifo.at n < 8 ∧ (en.popsTaken = true ∨ n ∉ popsOf e tok)) →
        t.bank.queue e = (s.bank.queue e).tail) := by
  obtain ⟨t, ht, hact, hmem, hbank, hbody⟩ := exec_fault hi h he hw ⟨State.turned_parts, State.turned_body⟩ hb hl
  generalize hc : s.ctx.setLatch e.num (some { code := code, sub := sub, addr := en.addr }) = c at hbody
  have htiles : t.ctx.tiles = s.ctx.tiles := (Ctx.tiles_of_body hbody).trans (by rw [← hc]; rfl)
  have hpad : t.ctx.pad = s.ctx.pad := (Ctx.pad_of_body hbody).trans (by rw [← hc]; rfl)
  refine ⟨t, ht, hact, hmem, htiles, hpad, ?_, fun hroom => ?_⟩
  · rw [Ctx.latch, Ctx.latches_of_body hbody, ← hc]
    exact Ctx.latch_setLatch s.ctx e.num _
  · have hlt : ∀ n ∈ pushesOf e tok, (s.turned e tok en).bank.fifo.at n < 8 := fun n hn => by
      obtain ⟨hroom, hpop⟩ := hroom n hn
      rw [State.turned_bank, RegBank.fifo_setQueue]
      have hfifo : (s.bank.setFifo (s.taken e tok en)).fifo = s.taken e tok en := rfl
      have hn8 : n < 8 := List.mem_range.mp ((pushesOf_sublist e tok).subset hn)
      rw [hfifo, State.taken_at h hn8 hpop]
      exact hroom
    obtain ⟨f, hf, -⟩ := RegBank.pushed_room hlt en.begun
    rw [hbank, hf]
    have hqueue (b : RegBank) (f : Fifos) : (b.setFifo f).queue e = b.queue e := by cases e <;> rfl
    rw [hqueue, RegBank.queue_setQueue, State.turned_bank, RegBank.queue_setQueue]
    rfl

end

/-! ### The lanes and sources of an element-by-element word -/

/-- The sources of a word of N sources that may also read its destination. -/
def elemSources (f : FV3) (N : Nat) (D : Bool) : List Line :=
  [f.src1] ++ (if N = 2 then [f.src2] else []) ++ (if D then [dlineLine f.dst] else [])

/-- The line of each source. -/
def elemLine (f : FV3) (en : Entry) : Nat → Line × BitVec 6
  | 0 => (f.src1, en.i1)
  | 1 => (f.src2, en.i2)
  | _ => (dlineLine f.dst, en.idst)

/-- The lanes of each source as the entry reads them. -/
def elemLook (f : FV3) (en : Entry) (u : State) (off : List Nat) (q j : Nat) : Nat × Bool :=
  match q with
  | 0 => lineAt u off f.src1 en.i1 0 j
  | 1 => lineAt u off f.src2 en.i2 0 j
  | _ => lineAt u off (dlineLine f.dst) en.idst 0 j

/-- The source lanes that a lane takes. -/
def elemDeps (N : Nat) (D : Bool) (j : Nat) : List (Nat × Nat) :=
  [(0, j)] ++ (if N = 2 then [(1, j)] else []) ++ (if D then [(2, j)] else [])

/-- What holds of the lane of one of the sources that count. -/
def ofSource (N : Nat) (D : Bool) (p : Nat → Nat → Bool) (q j : Nat) : Bool :=
  match q with
  | 0 => p 0 j
  | 1 => decide (N = 2) && p 1 j
  | _ => D && p 2 j

/-- A lane's value as the entry computes it. -/
def elemVal (w N : Nat) (D : Bool) (op : Rm → Nat → Nat → Nat → Nat × BitVec 7) (en : Entry) (c : Nat → Nat → Nat × Bool) (j : Nat) :
    List Nat × BitVec 7 :=
  one (elemLane w N D (op en.stamp.rm) (c 0 j).1 (c 1 j).1 (c 2 j).1)

section
variable {N : Nat} {D : Bool} {p : Nat → Nat → Bool} {j : Nat}

theorem mem_elemDeps {d : Nat × Nat} : d ∈ elemDeps N D j ↔ ∃ q < 3, d = (q, j) ∧ (q = 1 → N = 2) ∧ (q = 2 → D = true) := by
  unfold elemDeps
  simp only [List.mem_append, List.mem_singleton, List.mem_ite_nil_right]
  constructor
  · rintro ((rfl | ⟨hN, rfl⟩) | ⟨hD, rfl⟩)
    · exact ⟨0, by omega, rfl, by omega, by omega⟩
    · exact ⟨1, by omega, rfl, fun _ => hN, by omega⟩
    · exact ⟨2, by omega, rfl, by omega, fun _ => hD⟩
  · rintro ⟨q, hq, rfl, h1, h2⟩
    interval_cases q
    · exact Or.inl (Or.inl rfl)
    · exact Or.inl (Or.inr ⟨h1 rfl, rfl⟩)
    · exact Or.inr ⟨h2 rfl, rfl⟩

/-- What holds of some lane that a lane takes. -/
theorem any_elemDeps : (elemDeps N D j).any (fun d => p d.1 d.2) = (ofSource N D p 0 j || ofSource N D p 1 j || ofSource N D p 2 j) := by
  unfold elemDeps ofSource
  by_cases hN : N = 2 <;> cases D <;> simp [hN, Bool.or_assoc]

end

/-- What an element-by-element word does as an engine's entry. -/
theorem vElem_eq (i : Instr) (f : FV3) (N : Nat) (D : Bool) (w : Nat) (op : Rm → Nat → Nat → Nat → Nat × BitVec 7) (s : State) :
    vElem i f N D w op s = engineInstr .v i f.tok none (v3Regs f) (v3Read f) (vWork f.dst f.k .lanes (elemSources f N D) [1, 2, 4]
      (elemLook f) (fun _ => elemDeps N D) (elemVal w N D op)) s := rfl

section
variable {s : State} {f : FV3} {en : Entry} {j : Nat}

/-- A lane of a source as the turn reads it. -/
theorem lineAt_turned (s : State) (tok : Tok) (l : Line) (ix : BitVec 6) (j : Nat) :
    lineAt (s.turned .v tok en) [] l ix 0 j = (Say.bitsAt s l.tile l.dir ix.toNat j, (Say.lane s l ix.toNat j).pois) := by
  have hix : ix.toNat % 64 = ix.toNat := Nat.mod_eq_of_lt ix.isLt
  unfold lineAt srcCell Say.bitsAt Say.lane
  rw [Nat.add_zero, hix, lineCell_eq]
  dsimp only
  rw [State.turned_cell]
  rfl

theorem elemLook_turned (s : State) (f : FV3) (en : Entry) (tok : Tok) (q j : Nat) : elemLook f en.begun (s.turned .v tok en) [] q j =
    (Say.bitsAt s (elemLine f en q).1.tile (elemLine f en q).1.dir (elemLine f en q).2.toNat j,
      (Say.lane s (elemLine f en q).1 (elemLine f en q).2.toNat j).pois) := by
  unfold elemLook elemLine
  split <;> exact lineAt_turned ..

/-- Whether the lane of source q, where it counts, is poisoned. -/
def elemBad (s : State) (f : FV3) (en : Entry) (N : Nat) (D : Bool) : Nat → Nat → Bool :=
  ofSource N D (fun q j => (Say.lane s (elemLine f en q).1 (elemLine f en q).2.toNat j).pois)

/-- The lanes that the entry writes are those the statements cover. -/
theorem mem_lanesOf (hvc : en.stamp.vc.toNat ≤ 64) (tok : Tok) (k : BitVec 3) :
    j ∈ lanesOf en.begun ((s.turned .v tok en).bank.getK k.toNat) false ↔ j < 64 ∧ Say.covers s en k false j = true := by
  have hk : (s.turned .v tok en).bank.getK k.toNat = s.bank.getK k.toNat := by
    unfold RegBank.getK
    rw [State.turned_regs.2.1]
  unfold lanesOf Say.covers
  rw [hk, List.mem_filter, List.mem_range, Bool.and_eq_true, decide_eq_true_eq]
  constructor
  · rintro ⟨hj, hbit⟩
    exact ⟨lt_of_lt_of_le hj hvc, hj, hbit⟩
  · rintro ⟨-, hj, hbit⟩
    exact ⟨hj, hbit⟩

end

end Sys2Proof.Machine
end

section
/-! # The turn of an element-by-element word (O27, O30) -/

namespace Sys2Proof.Machine

/-- What an element-by-element word's turn needs: its registers ready, its mask clean. -/
structure ElemReady (s : State) (f : FV3) (en : Entry) (N : Nat) (D : Bool) : Prop where
  runs : Say.Runs s .v f.tok en
  sources : ∀ l ∈ elemSources f N D, Say.Awake s l.tile.toNat
  dst : Say.Writable s f.dst.tile.toNat
  offs : en.offs = []
  mask : (s.bank.getK f.k.toNat).pois = 0#64
  vc : en.stamp.vc.toNat ≤ 64

/-- A lane of the destination as the entry computes it. -/
def elemResult (s : State) (f : FV3) (en : Entry) (w N : Nat) (D : Bool) (op : Rm → Nat → Nat → Nat → Nat × BitVec 7) (j : Nat) :
    Nat × BitVec 7 :=
  elemLane w N D (op en.stamp.rm) (Say.bitsAt s f.src1.tile f.src1.dir en.i1.toNat j)
    (Say.bitsAt s f.src2.tile f.src2.dir en.i2.toNat j) (Say.bitsAt s f.dst.tile f.dst.dir en.idst.toNat j)

/-- Whether a lane that the entry computes takes poison. -/
def lanePoisoned (s : State) (f : FV3) (en : Entry) (N : Nat) (D : Bool) (j : Nat) : Bool :=
  elemBad s f en N D 0 j || elemBad s f en N D 1 j || elemBad s f en N D 2 j

section
variable {s : State} {f : FV3} {en : Entry} {N w : Nat} {D : Bool} {i : Instr} {op : Rm → Nat → Nat → Nat → Nat × BitVec 7}

theorem turned_getK (s : State) (e : Eng) (tok : Tok) (en : Entry) (n : Nat) : (s.turned e tok en).bank.getK n = s.bank.getK n := by
  unfold RegBank.getK
  rw [State.turned_regs.2.1]

/-- The lanes seen of a source are the source's. -/
theorem seenLane_source {kr : KReg} {use : MaskUse} {look : Nat → Nat → Nat × Bool} {q j : Nat} (hq : q < 3) :
    seenLane en kr use look q j = look q j := by
  unfold seenLane
  rw [if_neg (by unfold maskSrc; omega), if_neg (by unfold coverSrc; omega)]

/-- A clean mask has no poison to consume. -/
theorem seenLane_mask {kr : KReg} {use : MaskUse} {look : Nat → Nat → Nat × Bool} {j : Nat} (h : kr.pois = 0#64) :
    (seenLane en kr use look maskSrc j).2 = false := by
  unfold seenLane
  rw [if_pos rfl, h, BitVec.getLsbD_zero, Bool.and_false]

theorem maskPoison_clean {kr : KReg} (h : kr.pois = 0#64) : maskPoison en kr = false := by
  unfold maskPoison
  rw [h]
  exact List.any_eq_false.mpr fun j _ => by rw [BitVec.getLsbD_zero]; decide

/-- The lanes of an element-by-element word as its turn sees them. -/
def elemSees (s : State) (f : FV3) (en : Entry) : Nat → Nat → Nat × Bool :=
  seenLane en.begun ((s.turned .v f.tok en).bank.getK f.k.toNat) .lanes (elemLook f en.begun (s.turned .v f.tok en) [])

theorem elemSees_source (s : State) (f : FV3) (en : Entry) {q : Nat} (hq : q < 3) (j : Nat) : elemSees s f en q j =
    (Say.bitsAt s (elemLine f en q).1.tile (elemLine f en q).1.dir (elemLine f en q).2.toNat j,
      (Say.lane s (elemLine f en q).1 (elemLine f en q).2.toNat j).pois) := by
  rw [elemSees, seenLane_source hq, elemLook_turned]

/-- What a lane takes is poisoned where a source that counts is. -/
theorem elemSees_any (s : State) (f : FV3) (en : Entry) (N : Nat) (D : Bool) (j : Nat) :
    (elemDeps N D j).any (fun d => (elemSees s f en d.1 d.2).2) = lanePoisoned s f en N D j := by
  rw [any_elemDeps (p := fun q j => (elemSees s f en q j).2)]
  unfold lanePoisoned elemBad ofSource
  simp only [elemSees_source s f en (show 0 < 3 by decide), elemSees_source s f en (show 1 < 3 by decide),
    elemSees_source s f en (show 2 < 3 by decide)]

/-- The operand number of source q. -/
def elemSub (q : Nat) : Nat := ([1, 2, 4] : List Nat).getD q 1

/-- The operand numbers under which an element-by-element word would consume poison. -/
theorem mem_poisonHits (h : ElemReady s f en N D) {x : Nat} :
    x ∈ poisonHits en.begun ((s.turned .v f.tok en).bank.getK f.k.toNat) .lanes [1, 2, 4] (elemSees s f en) (fun _ => elemDeps N D) ↔
      ∃ q < 3, x = elemSub q ∧ ∃ j < 64, Say.covers s en f.k false j = true ∧ elemBad s f en N D q j = true := by
  have hmask : ((s.turned .v f.tok en).bank.getK f.k.toNat).pois = 0#64 := by rw [turned_getK]; exact h.mask
  have hbad {q j : Nat} (hq : q < 3) : (elemSees s f en q j).2 = (Say.lane s (elemLine f en q).1 (elemLine f en q).2.toNat j).pois := by
    rw [elemSees_source s f en hq]
  unfold poisonHits
  rw [maskPoison_clean hmask]
  simp only [Bool.and_false, Bool.false_eq_true, if_false, List.append_nil, List.mem_flatMap, List.mem_filterMap]
  constructor
  · rintro ⟨j, hj, d, hd, hx⟩
    obtain ⟨hj64, hcov⟩ := (mem_lanesOf h.vc f.tok f.k).mp hj
    obtain ⟨q, hq, rfl, h1, h2⟩ := mem_elemDeps.mp hd
    split at hx
    case isFalse => cases hx
    case isTrue hp =>
      rw [if_neg (by unfold maskSrc; dsimp only; omega)] at hx
      refine ⟨q, hq, (Option.some.inj hx).symm, j, hj64, hcov, ?_⟩
      rw [hbad hq] at hp
      unfold elemBad ofSource
      interval_cases q
      · exact hp
      · rw [h1 rfl]; exact hp
      · rw [h2 rfl]; exact hp
  · rintro ⟨q, hq, rfl, j, hj64, hcov, hp⟩
    have hcount : (q = 1 → N = 2) ∧ (q = 2 → D = true) ∧ (Say.lane s (elemLine f en q).1 (elemLine f en q).2.toNat j).pois = true := by
      unfold elemBad ofSource at hp
      interval_cases q
      · exact ⟨by omega, by omega, hp⟩
      · obtain ⟨hN, hp⟩ := Bool.and_eq_true_iff.mp hp
        exact ⟨fun _ => of_decide_eq_true hN, by omega, hp⟩
      · obtain ⟨hD, hp⟩ := Bool.and_eq_true_iff.mp hp
        exact ⟨by omega, fun _ => hD, hp⟩
    obtain ⟨h1, h2, hp⟩ := hcount
    refine ⟨j, (mem_lanesOf h.vc f.tok f.k).mpr ⟨hj64, hcov⟩, (q, j), mem_elemDeps.mpr ⟨q, hq, rfl, h1, h2⟩, ?_⟩
    rw [if_pos (by rw [hbad hq]; exact hp), if_neg (by unfold maskSrc; dsimp only; omega)]
    rfl

/-- The work of an element-by-element word whose registers are ready. -/
theorem elem_work (h : ElemReady s f en N D) :
    vWork f.dst f.k .lanes (elemSources f N D) [1, 2, 4] (elemLook f) (fun _ => elemDeps N D) (elemVal w N D op) en.begun
      (s.turned .v f.tok en) =
      match (if en.spec then none else (poisonHits en.begun ((s.turned .v f.tok en).bank.getK f.k.toNat) .lanes [1, 2, 4]
        (elemSees s f en) (fun _ => elemDeps N D)).min?) with
      | some n => .fault (s.turned .v f.tok en) cPOISON (BitVec.ofNat 8 n)
      | none =>
        let res := laneResults en.begun (lanesOf en.begun ((s.turned .v f.tok en).bank.getK f.k.toNat) false)
          (elemSees s f en) (fun _ => elemDeps N D) (elemVal w N D op)
        .done (if (lanesOf en.begun ((s.turned .v f.tok en).bank.getK f.k.toNat) false).isEmpty then
            lastUses (s.turned .v f.tok en) [] (elemSources f N D) (some f.dst.tile.toNat)
          else (lastUses (putResults (s.turned .v f.tok en) f.dst en.idst.toNat res).useFree [] (elemSources f N D)
            (some f.dst.tile.toNat)).setFlags (orFlags (res.map (fun r => if r.2.2 then 0#7 else r.2.1.2)))) := by
  have hlock : ((s.turned .v f.tok en).ctx.tile f.dst.tile.toNat).lock = false := by
    rw [Ctx.tile_of_body State.turned_body]; exact h.dst.2
  exact vWork_ready (en := en.begun) (fun l hl => State.turned_awake (h.sources l hl)) ⟨State.turned_awake h.dst.1, hlock⟩ h.offs

/-- Poison that a word consumes is latched under the operand number of the first source that has it (R246, R347). -/
theorem elem_latches (hi : exec i s = vElem i f N D w op s) (h : ElemReady s f en N D) (hspec : en.spec = false)
    (hb : s.ctx.inHandler = false) (hl : s.ctx.latch 2 = none) {q : Nat} (hq : q < 3)
    (hbad : ∃ j < 64, Say.covers s en f.k false j = true ∧ elemBad s f en N D q j = true)
    (hfirst : ∀ r < q, ∀ j < 64, Say.covers s en f.k false j = true → elemBad s f en N D r j = false) :
    ∃ t, exec i s = .next t ∧ t.acting = none ∧ t.mem = s.mem ∧ t.ctx.tiles = s.ctx.tiles ∧ t.ctx.pad = s.ctx.pad ∧
      t.ctx.latch 2 = some { code := cPOISON, sub := BitVec.ofNat 8 (elemSub q), addr := en.addr } ∧
      ((∀ n ∈ pushesOf .v f.tok, s.bank.fifo.at n < 8 ∧ (en.popsTaken = true ∨ n ∉ popsOf .v f.tok)) →
        t.bank.queue .v = (s.bank.queue .v).tail) := by
  have hmin : (poisonHits en.begun ((s.turned .v f.tok en).bank.getK f.k.toNat) .lanes [1, 2, 4] (elemSees s f en)
      (fun _ => elemDeps N D)).min? = some (elemSub q) := by
    refine List.min?_eq_some_iff.mpr ⟨(mem_poisonHits h).mpr ⟨q, hq, rfl, hbad⟩, fun x hx => ?_⟩
    obtain ⟨r, hr, rfl, j, hj, hcov, hp⟩ := (mem_poisonHits h).mp hx
    have hqr : q ≤ r := not_lt.mp fun hlt => by simp [hfirst r hlt j hj hcov] at hp
    interval_cases q <;> interval_cases r <;> decide
  refine exec_latched (e := .v) (hi.trans (vElem_eq ..)) h.runs (by decide) ?_ hb hl
  rw [elem_work h, hspec, if_neg Bool.false_ne_true, hmin]

end

end Sys2Proof.Machine
end

section
/-! # What an element-by-element word writes (O27, O30) -/

namespace Sys2Proof.Machine

/-! ### Results of one value -/

theorem foldl_max_ones {l : List Nat} (h : ∀ x ∈ l, x = 1) : l.foldl max 1 = 1 := by
  induction l with
  | nil => rfl
  | cons a l ih =>
    rw [List.foldl_cons, h a List.mem_cons_self]
    exact ih fun x hx => h x (List.mem_cons_of_mem _ hx)

/-- Results of one value each fill the destination's line. -/
theorem putResults_single (u : State) (dst : DLine) (ix : Nat) {res : List (Nat × (List Nat × BitVec 7) × Bool)}
    (h : ∀ r ∈ res, r.2.1.1.length = 1) : putResults u dst ix res =
      putLine u dst.tile.toNat dst.dir (ix % 64) (res.map (fun r => (r.1, (r.2.1.1.getD 0 0, r.2.2)))) := by
  have hn : (res.map (fun r => r.2.1.1.length)).foldl max 1 = 1 := foldl_max_ones fun x hx => by
    obtain ⟨r, hr, rfl⟩ := List.mem_map.mp hx
    exact h r hr
  unfold putResults
  rw [hn]
  rfl

section
variable {s : State} {f : FV3} {en : Entry} {N w : Nat} {D : Bool} {i : Instr} {op : Rm → Nat → Nat → Nat → Nat × BitVec 7}

/-- The lanes that the entry writes. -/
def elemLanes (s : State) (f : FV3) (en : Entry) : List Nat := lanesOf en.begun ((s.turned .v f.tok en).bank.getK f.k.toNat) false

/-- The value and the poison of a lane that the entry writes. -/
def elemCell (s : State) (f : FV3) (en : Entry) (w N : Nat) (D : Bool) (op : Rm → Nat → Nat → Nat → Nat × BitVec 7) (j : Nat) :
    Nat × Bool := ((elemResult s f en w N D op j).1, lanePoisoned s f en N D j)

/-- The flags of the lanes that the entry writes clean. -/
def elemFlags (s : State) (f : FV3) (en : Entry) (w N : Nat) (D : Bool) (op : Rm → Nat → Nat → Nat → Nat × BitVec 7) : BitVec 7 :=
  orFlags ((elemLanes s f en).map (fun j => if lanePoisoned s f en N D j then 0#7 else (elemResult s f en w N D op j).2))

/-- The state the work of an element-by-element word comes to. -/
def elemDone (s : State) (f : FV3) (en : Entry) (w N : Nat) (D : Bool) (op : Rm → Nat → Nat → Nat → Nat × BitVec 7) : State :=
  if (elemLanes s f en).isEmpty then lastUses (s.turned .v f.tok en) [] (elemSources f N D) (some f.dst.tile.toNat)
  else (s.turned .v f.tok en).lineDone f.dst en.idst.toNat (elemLanes s f en) (elemCell s f en w N D op) (elemSources f N D)
    (elemFlags s f en w N D op)

theorem elem_results (h : ElemReady s f en N D) :
    laneResults en.begun (elemLanes s f en) (elemSees s f en) (fun _ => elemDeps N D) (elemVal w N D op) =
      (elemLanes s f en).map (fun j => (j, one (elemResult s f en w N D op j), lanePoisoned s f en N D j)) := by
  have hmask : ((s.turned .v f.tok en).bank.getK f.k.toNat).pois = 0#64 := by rw [turned_getK]; exact h.mask
  refine List.map_congr_left fun j _ => ?_
  have hp : ((elemSees s f en maskSrc j).2 || (elemDeps N D j).any (fun d => (elemSees s f en d.1 d.2).2)) =
      lanePoisoned s f en N D j := by
    rw [elemSees_any, elemSees, seenLane_mask hmask, Bool.false_or]
  have hv : elemVal w N D op en.begun (elemSees s f en) j = one (elemResult s f en w N D op j) := by
    unfold elemVal elemResult
    rw [elemSees_source s f en (show 0 < 3 by decide), elemSees_source s f en (show 1 < 3 by decide),
      elemSees_source s f en (show 2 < 3 by decide)]
    rfl
  rw [hp, hv]

theorem elem_done (h : ElemReady s f en N D)
    (hgo : en.spec = true ∨ ∀ q < 3, ∀ j < 64, Say.covers s en f.k false j = true → elemBad s f en N D q j = false) :
    vWork f.dst f.k .lanes (elemSources f N D) [1, 2, 4] (elemLook f) (fun _ => elemDeps N D) (elemVal w N D op) en.begun
      (s.turned .v f.tok en) = .done (elemDone s f en w N D op) := by
  have hnone : (if en.spec then none else (poisonHits en.begun ((s.turned .v f.tok en).bank.getK f.k.toNat) .lanes [1, 2, 4]
      (elemSees s f en) (fun _ => elemDeps N D)).min?) = none := by
    rcases hgo with hspec | hclean
    · rw [if_pos hspec]
    · have hnil : poisonHits en.begun ((s.turned .v f.tok en).bank.getK f.k.toNat) .lanes [1, 2, 4] (elemSees s f en)
          (fun _ => elemDeps N D) = [] := List.eq_nil_iff_forall_not_mem.mpr fun x hx => by
        obtain ⟨q, hq, -, j, hj, hcov, hp⟩ := (mem_poisonHits h).mp hx
        rw [hclean q hq j hj hcov] at hp
        cases hp
      rw [hnil, List.min?_nil, ite_self]
  have hix : en.idst.toNat % 64 = en.idst.toNat := Nat.mod_eq_of_lt en.idst.isLt
  rw [elem_work h, hnone]
  dsimp only
  rw [show lanesOf en.begun ((s.turned .v f.tok en).bank.getK f.k.toNat) false = elemLanes s f en from rfl, elem_results h,
    putResults_single _ _ _ (fun r hr => by obtain ⟨j, -, rfl⟩ := List.mem_map.mp hr; rfl), hix, List.map_map, List.map_map]
  rfl

theorem elemLanes_nodup (s : State) (f : FV3) (en : Entry) : (elemLanes s f en).Nodup := List.nodup_range.filter _

theorem mem_elemLanes (h : ElemReady s f en N D) {j : Nat} : j ∈ elemLanes s f en ↔ j < 64 ∧ Say.covers s en f.k false j = true :=
  mem_lanesOf h.vc f.tok f.k

theorem elemDone_frame (s : State) (f : FV3) (en : Entry) (w N : Nat) (D : Bool) (op : Rm → Nat → Nat → Nat → Nat × BitVec 7) :
    (elemDone s f en w N D op).acting = none ∧ (elemDone s f en w N D op).mem = s.mem ∧
    (elemDone s f en w N D op).parts = s.parts ∧ (∃ ts, (elemDone s f en w N D op).ctx.body = { s.ctx.body with tiles := ts }) ∧
    (elemDone s f en w N D op).bank =
      { (s.turned .v f.tok en).bank with estat := (s.turned .v f.tok en).bank.estat ||| elemFlags s f en w N D op } := by
  have hbody : (s.turned .v f.tok en).ctx.body = s.ctx.body := State.turned_body
  unfold elemDone
  by_cases hnil : (elemLanes s f en).isEmpty
  · obtain ⟨c, hc, ⟨ts, hts⟩, -⟩ := lastUses_eq (s.turned .v f.tok en) [] (elemSources f N D) (some f.dst.tile.toNat)
    have hfl : elemFlags s f en w N D op = 0#7 := by
      unfold elemFlags
      rw [List.isEmpty_iff.mp hnil]
      rfl
    rw [if_pos hnil, hc, hfl, BitVec.or_zero]
    refine ⟨rfl, rfl, rfl, ⟨ts, ?_⟩, by rw [hts]; rfl⟩
    rw [← hbody]
    exact congrArg Ctx.body hts
  · rw [if_neg hnil]
    obtain ⟨hact, hmem, hparts, ⟨ts, hts⟩, hbank⟩ := (s.turned .v f.tok en).lineDone_frame f.dst en.idst.toNat (elemLanes s f en)
      (elemCell s f en w N D op) (elemSources f N D) (elemFlags s f en w N D op)
    exact ⟨hact, hmem, hparts, ⟨ts, by rw [hts, hbody]⟩, hbank⟩

/-- A cell of a register that no last use names. -/
theorem elemDone_cell (s : State) (f : FV3) (en : Entry) (w N : Nat) (D : Bool) (op : Rm → Nat → Nat → Nat → Nat × BitVec 7)
    {m row col : Nat} (hm : ∀ l ∈ elemSources f N D, l.last = true → some f.dst.tile.toNat ≠ some l.tile.toNat → l.tile.toNat ≠ m) :
    (elemDone s f en w N D op).ctx.cell m row col = (putLine (s.turned .v f.tok en) f.dst.tile.toNat f.dst.dir en.idst.toNat
      ((elemLanes s f en).map fun j => (j, elemCell s f en w N D op j))).ctx.cell m row col := by
  unfold elemDone
  by_cases hnil : (elemLanes s f en).isEmpty
  · obtain ⟨c, hc, -, htile⟩ := lastUses_eq (s.turned .v f.tok en) [] (elemSources f N D) (some f.dst.tile.toNat)
    have hput : (putLine (s.turned .v f.tok en) f.dst.tile.toNat f.dst.dir en.idst.toNat ((elemLanes s f en).map
        fun j => (j, elemCell s f en w N D op j))).ctx.cell m row col = (s.turned .v f.tok en).ctx.cell m row col := by
      rw [List.isEmpty_iff.mp hnil, putLine_ctx]
      by_cases hmt : m = f.dst.tile.toNat
      · rw [hmt, Ctx.cell_setTile_self]
        rfl
      · exact Ctx.cell_setTile_ne _ _ hmt row col
    rw [if_pos hnil, hput, hc, State.setCtx_ctx, Ctx.cell, htile m hm]
    rfl
  · rw [if_neg hnil]
    exact State.lineDone_cell _ _ _ _ _ _ _ hm

/-- What an element-by-element word leaves. -/
theorem elem_writes (hi : exec i s = vElem i f N D w op s) (h : ElemReady s f en N D)
    (hgo : en.spec = true ∨ ∀ q < 3, ∀ j < 64, Say.covers s en f.k false j = true → elemBad s f en N D q j = false) :
    ∃ t, exec i s = .next t ∧ (t.acting = none ∧ t.mem = s.mem ∧ t.ctx.pad = s.ctx.pad ∧ t.ctx.acc = s.ctx.acc ∧
      t.ctx.latches = s.ctx.latches ∧ t.bank.s = s.bank.s ∧ t.bank.k = s.bank.k) ∧
      (∀ j < 64, Say.covers s en f.k false j = true →
        t.ctx.cell f.dst.tile.toNat (Say.laneCell f.dst.dir en.idst.toNat j).1 (Say.laneCell f.dst.dir en.idst.toNat j).2 =
          newCell (s.turned .v f.tok en) (64 * en.idst.toNat + j) (elemCell s f en w N D op j)) ∧
      ((∀ l ∈ elemSources f N D, l.last = true → l.tile = f.dst.tile) → Say.CellsBut s t (fun n r c => n = f.dst.tile.toNat ∧
        ∃ j < 64, Say.covers s en f.k false j = true ∧ (r, c) = Say.laneCell f.dst.dir en.idst.toNat j)) ∧
      t.bank.estat = s.bank.estat ||| elemFlags s f en w N D op := by
  have hix : en.idst.toNat < 64 := en.idst.isLt
  have hlt : ∀ j ∈ elemLanes s f en, j < 64 := fun j hj => ((mem_elemLanes h).mp hj).1
  obtain ⟨vact, vmem, vparts, ⟨ts, vbody⟩, vbank⟩ := elemDone_frame s f en w N D op
  have hrun := exec_done (e := .v) (hi.trans (vElem_eq ..)) h.runs (by decide) (elem_done h hgo) (vparts.trans h.runs.2.1)
  obtain ⟨tact, tmem, tbody, tbank⟩ := pushOut_released .v en.begun f.tok (elemDone s f en w N D op) none
  generalize pushOut .v en.begun f.tok ((elemDone s f en w N D op).released none) = t at hrun tact tmem tbody tbank
  have hpad : t.ctx.body.pad = s.ctx.body.pad := by rw [tbody, vbody]
  have hacc : t.ctx.body.acc = s.ctx.body.acc := by rw [tbody, vbody]
  have hlatches : t.ctx.body.latches = s.ctx.body.latches := by rw [tbody, vbody]
  obtain ⟨ps, pk, pe⟩ := RegBank.pushed_regs (elemDone s f en w N D op).bank .v en.begun f.tok
  obtain ⟨us, uk, ue⟩ := State.turned_regs (s := s) (e := .v) (tok := f.tok) (en := en)
  have tcell (m r c : Nat) : t.ctx.cell m r c = (elemDone s f en w N D op).ctx.cell m r c :=
    Ctx.cell_of_tiles (Ctx.tiles_of_body tbody) m r c
  refine ⟨t, hrun, ⟨tact.trans vact, (tmem rfl).trans vmem, hpad, hacc, hlatches, ?_, ?_⟩,
    fun j hj hcov => ?_, fun hlast m r c _ hc hno => ?_, ?_⟩
  · rw [tbank, ps, vbank]; exact us
  · rw [tbank, pk, vbank]; exact uk
  · rw [tcell, elemDone_cell _ _ _ _ _ _ _ (fun l _ _ hne he => hne (by rw [he]))]
    exact putLine_lane hix (elemLanes_nodup s f en) hlt ((mem_elemLanes h).mpr ⟨hj, hcov⟩)
  · rw [tcell, elemDone_cell _ _ _ _ _ _ _ (fun l hl hll hne _ => hne (by rw [hlast l hl hll]))]
    refine (putLine_other hix hlt hc ?_).trans (State.turned_cell m r c)
    by_contra hcon
    rw [not_or] at hcon
    obtain ⟨hm, hj⟩ := hcon
    push Not at hm hj
    obtain ⟨j, hjl, hj⟩ := hj
    obtain ⟨hj64, hcov⟩ := (mem_elemLanes h).mp hjl
    exact hno ⟨hm, j, hj64, hcov, hj⟩
  · rw [tbank, pe, vbank]
    show (s.turned .v f.tok en).bank.estat ||| _ = _
    rw [ue]

end

end Sys2Proof.Machine
end

section
/-! # Vector elements computed (O27) -/

namespace Sys2Proof.Machine

/-- A flag is in a union where it is in a member. -/
theorem orFlags_getLsbD (l : List (BitVec 7)) (b : Nat) : (orFlags l).getLsbD b = l.any (fun v => v.getLsbD b) := by
  have h (l : List (BitVec 7)) (a : BitVec 7) : (l.foldl (fun a b => a ||| b) a).getLsbD b = (a.getLsbD b || l.any (fun v => v.getLsbD b)) := by
    induction l generalizing a with
    | nil => simp
    | cons v l ih => rw [List.foldl_cons, ih, BitVec.getLsbD_or, List.any_cons, Bool.or_assoc]
  unfold orFlags
  rw [h, BitVec.getLsbD_zero, Bool.false_or]

/-- A form of an element-by-element word is one of its rule. -/
theorem elemForm_some {s : State} {en : Entry} {i : Instr} {F : Say.Form} (h : Say.elemForm s en i = some F) :
    ∃ f n op, Say.elemOp en.stamp.rm i = some (f, n, op) := by
  unfold Say.elemForm at h
  split at h
  · cases h
  · rename_i f n op hop
    exact ⟨f, n, op, hop⟩

/-- The number of sources besides the destination, as the model counts them. -/
def elemCount (n : Nat) : Nat := if 2 ≤ n then 2 else 1

theorem elemCount_eq_two {n : Nat} : elemCount n = 2 ↔ 2 ≤ n := by
  unfold elemCount
  by_cases h : 2 ≤ n <;> simp [h]

/-- The sources of a form. -/
theorem elemSources_form (f : FV3) (n : Nat) : elemSources f (elemCount n) (decide (n = 3)) =
    [f.src1] ++ (if 2 ≤ n then [f.src2] else []) ++ (if n = 3 then [dlineLine f.dst] else []) := by
  unfold elemSources
  simp only [elemCount_eq_two, decide_eq_true_eq]

section
variable {s : State} {f : FV3} {en : Entry} {n : Nat} {i : Instr} {op : Nat → Nat → Nat → Nat × BitVec 7}

/-- The lines of the sources that count are among them. -/
theorem elemLine_mem {N : Nat} {D : Bool} {q : Nat} (hq : q < 3) (h1 : q = 1 → N = 2) (h2 : q = 2 → D = true) :
    (elemLine f en q).1 ∈ elemSources f N D := by
  unfold elemSources
  interval_cases q
  · exact List.mem_append_left _ (List.mem_append_left _ List.mem_cons_self)
  · rw [h1 rfl]; exact List.mem_append_left _ (List.mem_append_right _ List.mem_cons_self)
  · rw [h2 rfl]; exact List.mem_append_right _ List.mem_cons_self

/-- Clean sources have no poisoned lane. -/
theorem elemBad_clean {N : Nat} {D : Bool}
    (h : ∀ l ∈ elemSources f N D, ∀ r < 64, ∀ c < 64, (s.ctx.cell l.tile.toNat r c).pois = false) {q j : Nat} (hq : q < 3) (hj : j < 64) :
    elemBad s f en N D q j = false := by
  have hlane (hl : (elemLine f en q).1 ∈ elemSources f N D) :
      (Say.lane s (elemLine f en q).1 (elemLine f en q).2.toNat j).pois = false := by
    obtain ⟨hr, hc⟩ := lineCell_lt (elemLine f en q).1.dir (elemLine f en q).2.isLt hj
    rw [lineCell_eq] at hr hc
    exact h _ hl _ hr _ hc
  unfold elemBad ofSource
  interval_cases q
  · exact hlane (elemLine_mem (by omega) (by omega) (by omega))
  · show (decide (N = 2) && _) = false
    by_cases hN : N = 2
    · exact (congrArg (decide (N = 2) && ·) (hlane (elemLine_mem (by omega) (fun _ => hN) (by omega)))).trans (Bool.and_false _)
    · rw [decide_eq_false hN, Bool.false_and]
  · show (D && _) = false
    cases D with
    | true => exact hlane (elemLine_mem (by omega) (by omega) (fun _ => rfl))
    | false => rfl

end

/-- An element-by-element word computes its form: its sources, and each lane's value. -/
theorem elemForm_exec {s : State} {en : Entry} {i : Instr} {F : Say.Form} (h : Say.elemForm s en i = some F) :
    ∃ f n op w op', Say.elemOp en.stamp.rm i = some (f, n, op) ∧ (∀ s, exec i s = vElem i f (elemCount n) (decide (n = 3)) w op' s) ∧
      F = (f.tok, f.dst, f.k, false, elemSources f (elemCount n) (decide (n = 3)),
        fun j => one (elemResult s f en w (elemCount n) (decide (n = 3)) op' j)) := by
  obtain ⟨f, n, op, hop⟩ := elemForm_some h
  obtain ⟨w, op', hexec, hval⟩ := elemOp_exec hop
  refine ⟨f, n, op, w, op', hop, hexec, ?_⟩
  have hlt (tile : BitVec 4) (dir : BitVec 2) (k j : Nat) : Say.bitsAt s tile dir k j < 2 ^ 32 := BitVec.isLt _
  rw [elemForm_eq hop] at h
  rw [← Option.some.inj h, elemSources_form]
  simp only [Prod.mk.injEq, true_and]
  funext j
  rw [cellOf_eq]
  exact congrArg one (hval _ _ _ (hlt ..) (hlt ..)).symm

end Sys2Proof.Machine

namespace Sys2Proof
open Machine

/-- Settles O27: the element rules are the model's, and an element-by-element word whose sources are clean writes their results to
the lanes that it covers. -/
theorem vectorElementsComputed : Obligations.VectorElementsComputed := by
  intro s en i F hform hlines
  obtain ⟨f, n, op, w, op', -, hexec, rfl⟩ := elemForm_exec hform
  obtain ⟨hruns, -, hoffs, hvc, hdst, hmask, hsrc⟩ := hlines
  have hready : ElemReady s f en (elemCount n) (decide (n = 3)) :=
    ⟨hruns, fun l hl => (hsrc l hl).1, hdst, hoffs, hmask, hvc⟩
  have hclean : ∀ q < 3, ∀ j < 64, elemBad s f en (elemCount n) (decide (n = 3)) q j = false :=
    fun q hq j hj => elemBad_clean (fun l hl => (hsrc l hl).2) hq hj
  have hpois : ∀ j < 64, lanePoisoned s f en (elemCount n) (decide (n = 3)) j = false := fun j hj => by
    unfold lanePoisoned
    rw [hclean 0 (by decide) j hj, hclean 1 (by decide) j hj, hclean 2 (by decide) j hj]
    rfl
  have hix : (en.idst.toNat + 0) % 64 = en.idst.toNat := Nat.mod_eq_of_lt en.idst.isLt
  obtain ⟨t, ht, ⟨hact, hmem, hpad, hacc, -, hs, hk⟩, hcell, hbut, hestat⟩ := elem_writes (w := w) (op := op') (hexec s) hready
    (Or.inr fun q hq j hj _ => hclean q hq j hj)
  refine ⟨t, ht, hact, hmem, hpad, hacc, hs, hk, fun j hj hcov x hx => ?_, fun hlast => ?_, fun b _ => ?_⟩
  · obtain rfl : x = 0 := Nat.lt_one_iff.mp hx
    rw [hix]
    refine (hcell j hj hcov).trans ?_
    rw [elemCell, hpois j hj, newCell_clean]
    rfl
  · intro m r c hr hc hno
    refine hbut hlast m r c hr hc fun ⟨hm, j, hj, hcov, hrc⟩ => hno ⟨hm, j, hj, 0, Nat.one_pos, hcov, ?_⟩
    rw [hix]
    exact hrc
  · rw [hestat, BitVec.getLsbD_or, elemFlags, orFlags_getLsbD, List.any_map]
    refine congrArg (s.bank.estat.getLsbD b || ·) (Bool.eq_iff_iff.mpr ?_)
    simp only [List.any_eq_true, Bool.and_eq_true, List.mem_range, mem_elemLanes hready, Function.comp_apply]
    refine exists_congr fun j => ?_
    rw [and_assoc]
    refine and_congr_right fun hj => and_congr_right fun _ => ?_
    rw [hpois j hj]
    rfl

end Sys2Proof
end

section
/-! # Faults of the V words that write lines (O30) -/

namespace Sys2Proof.Machine

/-- A V word that writes a line: its engine's work is `vWork` with its destination, mask and sources. -/
def WritesLines (i : Instr) (tok : Tok) (dst : DLine) (k : BitVec 3) (srcs : List Line) : Prop :=
  ∃ regs read use subs look deps val, ∀ s, exec i s = engineInstr .v i tok none regs read (vWork dst k use srcs subs look deps val) s

section
variable {s : State} {en : Entry} {i : Instr} {tok : Tok} {dst : DLine} {k : BitVec 3} {all : Bool} {srcs : List Line}
  {val : Nat → List Nat × BitVec 7}

/-- The words that combine lanes or lines write them. -/
theorem mixForm_writes (h : Say.mixForm s en i = some (tok, dst, k, all, srcs, val)) : WritesLines i tok dst k srcs := by
  unfold Say.mixForm at h
  dsimp only at h
  split at h
  case h_13 => cases h
  all_goals
    simp only [Option.some.injEq, Prod.mk.injEq] at h
    obtain ⟨rfl, rfl, rfl, -, rfl, -⟩ := h
  case h_3 f =>
    by_cases hs : scaledType f.dt.toNat
    · exact ⟨_, _, _, _, _, _, _, fun s => show execVcvt f s = _ from if_pos hs⟩
    · exact ⟨_, _, _, _, _, _, _, fun s => show execVcvt f s = _ from if_neg hs⟩
  case h_1 f => exact ⟨_, _, _, _, _, _, _, fun s => show execVrsh f s = _ from rfl⟩
  case h_2 f => exact ⟨_, _, _, _, _, _, _, fun s => show execVsel f s = _ from rfl⟩
  case h_4 f => exact ⟨_, _, _, _, _, _, _, fun s => show execVredsum f s = _ from rfl⟩
  case h_5 f => exact ⟨_, _, _, _, _, _, _, fun s => show execVredmax f s = _ from rfl⟩
  case h_6 f => exact ⟨_, _, _, _, _, _, _, fun s => show execVredmin f s = _ from rfl⟩
  case h_7 f => exact ⟨_, _, _, _, _, _, _, fun s => show execVscanadd f s = _ from rfl⟩
  case h_8 f => exact ⟨_, _, _, _, _, _, _, fun s => show execVbcast f s = _ from rfl⟩
  case h_9 f => exact ⟨_, _, _, _, _, _, _, fun s => show execVperm f s = _ from rfl⟩
  case h_10 f => exact ⟨_, _, _, _, _, _, _, fun s => show execViota f s = _ from rfl⟩
  case h_11 f => exact ⟨_, _, _, _, _, _, _, fun s => show execVhash f s = _ from rfl⟩
  case h_12 f => exact ⟨_, _, _, _, _, _, _, fun s => show execVacc f s = _ from rfl⟩

/-- The element-by-element words write their lines. -/
theorem elemForm_writes (h : Say.elemForm s en i = some (tok, dst, k, all, srcs, val)) : WritesLines i tok dst k srcs := by
  obtain ⟨f, n, op, w, op', -, hexec, hF⟩ := elemForm_exec h
  simp only [Prod.mk.injEq] at hF
  obtain ⟨rfl, rfl, rfl, -, rfl, -⟩ := hF
  exact ⟨_, _, _, _, _, _, _, fun s => (hexec s).trans (vElem_eq ..)⟩

/-! ### Registers that are not ready (R50, R54) -/

theorem prepTiles_absent {spec : Bool} {ts : List Nat} {t m : Nat} {u : State}
    (h : (ts ++ [t]).find? (fun x => (u.ctx.tile x).state == .absent) = some m) :
    prepTiles spec ts (some t) u = .fault cABSENT (BitVec.ofNat 8 m) := by
  unfold prepTiles
  dsimp only [Option.toList]
  rw [h]

theorem prepTiles_lock {spec : Bool} {ts : List Nat} {t : Nat} {u : State} (h : ∀ x ∈ ts ++ [t], (u.ctx.tile x).state ≠ .absent)
    (hl : (u.ctx.tile t).lock = true) : prepTiles spec ts (some t) u = .wait u .lock := by
  have hnone : (ts ++ [t]).find? (fun x => (u.ctx.tile x).state == .absent) = none :=
    List.find?_eq_none.mpr fun x hx => by simpa using h x hx
  unfold prepTiles
  dsimp only [Option.toList]
  rw [hnone]
  exact if_pos hl

theorem prepTiles_off {ts : List Nat} {t m : Nat} {u : State} (h : ∀ x ∈ ts ++ [t], (u.ctx.tile x).state ≠ .absent)
    (hl : (u.ctx.tile t).lock = false) (hm : ts.find? (fun x => (u.ctx.tile x).state == .off) = some m) :
    prepTiles false ts (some t) u = .fault cDROPPED (BitVec.ofNat 8 m) := by
  have hnone : (ts ++ [t]).find? (fun x => (u.ctx.tile x).state == .absent) = none :=
    List.find?_eq_none.mpr fun x hx => by simpa using h x hx
  obtain ⟨rest, hrest⟩ : ∃ rest, ts.filter (fun x => (u.ctx.tile x).state == .off) = m :: rest := by
    rw [← List.head?_filter] at hm
    exact List.head?_eq_some_iff.mp hm
  unfold prepTiles
  dsimp only [Option.toList]
  rw [hnone]
  dsimp only
  rw [if_neg (show ¬ (some t).any (fun t => (u.ctx.tile t).lock) = true by rw [Option.any_some, hl]; decide),
    if_neg Bool.false_ne_true, hrest]

end

end Sys2Proof.Machine
end

section
/-! # Engine faults are latched (O30) -/

namespace Sys2Proof.Machine

section
variable {s : State} {en : Entry} {i : Instr} {tok : Tok} {dst : DLine} {k : BitVec 3} {srcs : List Line}

/-- What the statement says of a latched fault. -/
theorem exec_latchedV {rel : Option Nat} {rs : List Reg} {rd : State → Except Cause Taken} {work : Entry → State → EngOut} {code sub : BitVec 8}
    (hi : exec i s = engineInstr .v i tok rel rs rd work s) (h : Say.Runs s .v tok en)
    (hw : work en.begun (s.turned .v tok en) = .fault (s.turned .v tok en) code sub) (hb : s.ctx.inHandler = false)
    (hl : s.ctx.latch 2 = none) :
    ∃ t, exec i s = .next t ∧ t.acting = none ∧ t.mem = s.mem ∧ t.ctx.tiles = s.ctx.tiles ∧
      t.ctx.latch 2 = some { code := code, sub := sub, addr := en.addr } ∧
      ((∀ n ∈ pushesOf .v tok, s.bank.fifo.at n < 8 ∧ (en.popsTaken = true ∨ n ∉ popsOf .v tok)) →
        t.bank.queue .v = (s.bank.queue .v).tail) := by
  obtain ⟨t, ht, hact, hmem, htiles, -, hlatch, hqueue⟩ := exec_latched (e := .v) hi h (by decide) hw hb hl
  exact ⟨t, ht, hact, hmem, htiles, hlatch, hqueue⟩

theorem turned_tile (s : State) (e : Eng) (tok : Tok) (en : Entry) (x : Nat) : (s.turned e tok en).ctx.tile x = s.ctx.tile x :=
  Ctx.tile_of_body State.turned_body x

/-- An absent register is latched with its number. -/
theorem lines_absent (hi : WritesLines i tok dst k srcs) (h : Say.Runs s .v tok en) (hb : s.ctx.inHandler = false) (hl : s.ctx.latch 2 = none)
    {m : Nat} (hm : (srcs.map (fun l => l.tile.toNat) ++ [dst.tile.toNat]).find? (fun x => (s.ctx.tile x).state == .absent) = some m) :
    ∃ t, exec i s = .next t ∧ t.acting = none ∧ t.mem = s.mem ∧ t.ctx.tiles = s.ctx.tiles ∧
      t.ctx.latch 2 = some { code := cABSENT, sub := BitVec.ofNat 8 m, addr := en.addr } ∧
      ((∀ n ∈ pushesOf .v tok, s.bank.fifo.at n < 8 ∧ (en.popsTaken = true ∨ n ∉ popsOf .v tok)) →
        t.bank.queue .v = (s.bank.queue .v).tail) := by
  obtain ⟨regs, read, use, subs, look, deps, val, hexec⟩ := hi
  refine exec_latchedV (hexec s) h ?_ hb hl
  unfold vWork
  dsimp only
  rw [prepTiles_absent (by simpa only [turned_tile] using hm)]

/-- An entry whose destination is locked waits. -/
theorem lines_lock (hi : WritesLines i tok dst k srcs) (h : Say.Runs s .v tok en)
    (hpresent : ∀ x ∈ srcs.map (fun l => l.tile.toNat) ++ [dst.tile.toNat], (s.ctx.tile x).state ≠ .absent)
    (hlock : (s.ctx.tile dst.tile.toNat).lock = true) :
    ∃ t, exec i s = .next t ∧ t.acting = none ∧ t.mem = s.mem ∧ t.ctx.tiles = s.ctx.tiles ∧ t.ctx.latches = s.ctx.latches := by
  obtain ⟨regs, read, use, subs, look, deps, val, hexec⟩ := hi
  have hwork : vWork dst k use srcs subs look deps val en.begun (s.turned .v tok en) = .wait (s.turned .v tok en) .lock := by
    unfold vWork
    dsimp only
    rw [prepTiles_lock (by simpa only [turned_tile] using hpresent) (by rw [turned_tile]; exact hlock)]
  obtain ⟨b, hb⟩ : ∃ b, (s.turned .v tok en).onHead .v (fun x => { x with stall := .lock }) = (s.turned .v tok en).setBank b := by
    have hlead : (s.turned .v tok en).bank.lead .v = 0 := RegBank.lead_other _ (by decide)
    have hqueue : (s.turned .v tok en).bank.queue .v = en.begun :: (s.bank.queue .v).tail := by
      rw [State.turned_bank, RegBank.queue_setQueue]
    unfold State.onHead
    rw [hlead, List.drop_zero, hqueue]
    exact ⟨_, State.setHead_head hlead _⟩
  have hbody : ((s.turned .v tok en).setBank b).ctx.body = s.ctx.body := (Ctx.body_setBank _ b).trans State.turned_body
  refine ⟨(s.turned .v tok en).setBank b, ?_, rfl, rfl, Ctx.tiles_of_body hbody, Ctx.latches_of_body hbody⟩
  rw [hexec, engineInstr_run h.1, engineRun_runs h (by decide), hwork]
  exact congrArg _ hb

/-- A source that is off is latched with its number. -/
theorem lines_off (hi : WritesLines i tok dst k srcs) (h : Say.Runs s .v tok en) (hb : s.ctx.inHandler = false) (hl : s.ctx.latch 2 = none)
    (hpresent : ∀ x ∈ srcs.map (fun l => l.tile.toNat) ++ [dst.tile.toNat], (s.ctx.tile x).state ≠ .absent)
    (hfree : (s.ctx.tile dst.tile.toNat).lock = false) (hspec : en.spec = false) {m : Nat}
    (hm : (srcs.map (fun l => l.tile.toNat)).find? (fun x => (s.ctx.tile x).state == .off) = some m) :
    ∃ t, exec i s = .next t ∧ t.acting = none ∧ t.mem = s.mem ∧ t.ctx.tiles = s.ctx.tiles ∧
      t.ctx.latch 2 = some { code := cDROPPED, sub := BitVec.ofNat 8 m, addr := en.addr } ∧
      ((∀ n ∈ pushesOf .v tok, s.bank.fifo.at n < 8 ∧ (en.popsTaken = true ∨ n ∉ popsOf .v tok)) →
        t.bank.queue .v = (s.bank.queue .v).tail) := by
  obtain ⟨regs, read, use, subs, look, deps, val, hexec⟩ := hi
  refine exec_latchedV (hexec s) h ?_ hb hl
  unfold vWork
  dsimp only
  rw [show en.begun.spec = false from hspec, prepTiles_off (by simpa only [turned_tile] using hpresent) (by rw [turned_tile]; exact hfree)
    (by simpa only [turned_tile] using hm)]

/-- A word with an element rule combines no lanes. -/
theorem mixForm_of_elemOp {m : Rm} {x : FV3 × Nat × (Nat → Nat → Nat → Nat × BitVec 7)} (h : Say.elemOp m i = some x) :
    Say.mixForm s en i = none := by
  unfold Say.elemOp at h
  split at h
  case h_24 => cases h
  all_goals rfl

end

end Sys2Proof.Machine

namespace Sys2Proof
open Machine

/-- Settles O30: the registers' faults stand before any change of the entry's turn; of the poison that an element-by-element word
consumes the least operand number is latched, which is the first source's. -/
theorem engineFaultsAreLatched : Obligations.EngineFaultsAreLatched := by
  intro s en i tok dst k all srcs val hform hruns hbase hlatch hvc tiles spec Latched
  have hlines : WritesLines i tok dst k srcs := hform.elim elemForm_writes mixForm_writes
  refine ⟨fun m hm => lines_absent hlines hruns hbase hlatch hm, fun hpresent hlock => lines_lock hlines hruns hpresent hlock,
    fun m hpresent hfree hspec hm => lines_off hlines hruns hbase hlatch hpresent hfree hspec hm,
    fun f n op hop hoffs hawake hdst hmask => ?_⟩
  have hform : Say.elemForm s en i = some (tok, dst, k, all, srcs, val) := hform.resolve_right fun hmix => by
    rw [mixForm_of_elemOp hop] at hmix
    cases hmix
  obtain ⟨f', n', op1, w, op', hop', hexec, hF⟩ := elemForm_exec hform
  rw [hop] at hop'
  simp only [Option.some.injEq, Prod.mk.injEq] at hop' hF
  obtain ⟨rfl, rfl, rfl⟩ := hop'
  obtain ⟨rfl, rfl, rfl, rfl, rfl, rfl⟩ := hF
  have hready : ElemReady s f en (elemCount n) (decide (n = 3)) :=
    ⟨hruns, fun l hl => hawake _ (List.mem_map.mpr ⟨l, hl, rfl⟩), hdst, hoffs, hmask, hvc⟩
  intro bad some_
  have hbad (q j : Nat) (hq : q < 3) : elemBad s f en (elemCount n) (decide (n = 3)) q j = bad q j := by
    interval_cases q
    · rfl
    · show (decide (elemCount n = 2) && _) = (decide (2 ≤ n) && _)
      rw [decide_eq_decide.mpr elemCount_eq_two]
      rfl
    · rfl
  have hany (q : Nat) : some_ q = true ↔ ∃ j < 64, Say.covers s en f.k false j = true ∧ bad q j = true := by
    show (List.range 64).any _ = true ↔ _
    simp only [List.any_eq_true, List.mem_range, Bool.and_eq_true]
  refine ⟨fun q hq hsome hnone hspec => ?_, fun hspec => ?_⟩
  · obtain ⟨j, hj, hcov, hp⟩ := (hany q).mp hsome
    obtain ⟨t, ht, hact, hmem, htiles, -, hl, hqueue⟩ := elem_latches (w := w) (op := op') (hexec s) hready hspec hbase hlatch hq
      ⟨j, hj, hcov, (hbad q j hq).trans hp⟩ (fun r hr j hj hcov => by
        rw [hbad r j (hr.trans hq)]
        by_contra hp
        have := (hany r).mpr ⟨j, hj, hcov, by simpa using hp⟩
        rw [hnone r hr] at this
        cases this)
    refine ⟨t, ht, hact, hmem, htiles, hl.trans ?_, hqueue⟩
    interval_cases q <;> rfl
  · obtain ⟨t, ht, ⟨hact, hmem, -, -, hlatches, -, -⟩, hcell, -⟩ := elem_writes (w := w) (op := op') (hexec s) hready (Or.inl hspec)
    refine ⟨t, ht, hact, hmem, hlatches, fun j hj hcov => ?_⟩
    intro rc c
    have hc : c = newCell (s.turned .v f.tok en) (64 * en.idst.toNat + j) (elemCell s f en w (elemCount n) (decide (n = 3)) op' j) :=
      hcell j hj hcov
    have hpois : c.pois = lanePoisoned s f en (elemCount n) (decide (n = 3)) j := by rw [hc, newCell_pois]; rfl
    refine ⟨hpois.trans ?_, fun hclean => ?_⟩
    · unfold lanePoisoned
      rw [hbad 0 j (by decide), hbad 1 j (by decide), hbad 2 j (by decide)]
    · rw [hpois] at hclean
      rw [hc, elemCell, hclean, newCell_clean]
      rfl

end Sys2Proof
end

section
/-! # Bytes stored to the scratchpad (O31)

What a list of bytes with distinct addresses leaves of the scratchpad's contents, live granules and marks (R53, R57, R265). -/

namespace Sys2Proof.Machine

/-- A list of bytes is what a function gives by address. -/
structure Outputs (bs : List OutByte) (out : Nat → Option (Nat × Bool)) : Prop where
  nodup : (bs.map OutByte.addr).Nodup
  mem : ∀ b ∈ bs, ∃ v, out b.addr = some (v, b.pois) ∧ b.val = BitVec.ofNat 8 v
  all : ∀ a, (out a).isSome = true → ∃ b ∈ bs, b.addr = a

namespace Outputs

section
variable {bs : List OutByte} {out : Nat → Option (Nat × Bool)}

theorem isSome_iff (h : Outputs bs out) (a : Nat) : (out a).isSome = true ↔ a ∈ bs.map OutByte.addr := by
  rw [List.mem_map]
  refine ⟨h.all a, ?_⟩
  rintro ⟨b, hb, rfl⟩
  obtain ⟨v, hv, -⟩ := h.mem b hb
  rw [hv]
  rfl

theorem congr {out' : Nat → Option (Nat × Bool)} (h : Outputs bs out) (ho : ∀ a, out a = out' a) : Outputs bs out' := by
  obtain rfl : out = out' := funext ho
  exact h

theorem nil : Outputs [] (fun _ => none) :=
  ⟨List.nodup_nil, fun _ hb => absurd hb (List.not_mem_nil), fun _ ha => by cases ha⟩

end

end Outputs

/-! ### Contents, live granules, marks -/

section
variable {bs : List OutByte} {out : Nat → Option (Nat × Bool)} {c : Ctx}

/-- The contents after a store. -/
theorem padStore_byte (h : Outputs bs out) (c : Ctx) (a : Nat) : (padStore c bs).padByte a = match out a with
    | some (v, _) => BitVec.ofNat 8 v
    | none => c.padByte a := by
  have hpair : bs.Pairwise (fun b b' => b.addr ≠ b'.addr) := List.pairwise_map.mp h.nodup
  cases ho : out a with
  | none =>
    refine get_foldl_set_other OutByte.addr OutByte.val bs c.pad fun b hb he => ?_
    obtain ⟨v, hv, -⟩ := h.mem b hb
    rw [he, ho] at hv
    cases hv
  | some x =>
    obtain ⟨b, hb, rfl⟩ := h.all a (by rw [ho]; rfl)
    obtain ⟨v, hv, hval⟩ := h.mem b hb
    rw [ho] at hv
    obtain rfl := Option.some.inj hv
    exact (get_foldl_set_mem OutByte.addr OutByte.val c.pad hpair hb).trans hval

/-- The bytes of a granule, as a function gives them. -/
def granule (out : Nat → Option (Nat × Bool)) (g : Nat) : List (Option (Nat × Bool)) := (List.range 256).map (fun i => out (256 * g + i))

theorem mem_granules (h : Outputs bs out) (g : Nat) : g ∈ (bs.map (fun b => b.addr / 256)).dedup ↔ (granule out g).any Option.isSome = true := by
  unfold granule
  simp only [List.mem_dedup, List.mem_map, List.any_eq_true, List.mem_range]
  constructor
  · rintro ⟨b, hb, rfl⟩
    refine ⟨_, ⟨b.addr % 256, Nat.mod_lt _ (by decide), rfl⟩, ?_⟩
    rw [Nat.div_add_mod, h.isSome_iff]
    exact List.mem_map.mpr ⟨b, hb, rfl⟩
  · rintro ⟨_, ⟨i, hi, rfl⟩, hs⟩
    obtain ⟨b, hb, ha⟩ := h.all _ hs
    exact ⟨b, hb, by omega⟩

/-- The live granules after a store. -/
theorem padStore_live (h : Outputs bs out) (c : Ctx) (g : Nat) : Sparse.get (fun _ => false) (padStore c bs).glive g =
    ((granule out g).any Option.isSome || Sparse.get (fun _ => false) c.glive g) := by
  by_cases hg : g ∈ (bs.map (fun b => b.addr / 256)).dedup
  · rw [(mem_granules h g).mp hg, Bool.true_or]
    exact foldl_read_at (read := fun m => Sparse.get (fun _ => false) m g) hg (fun m => Sparse.get_set_self ..)
      (fun m k _ hk => Sparse.get_set_ne _ _ _ hk.symm) c.glive
  · rw [Bool.eq_false_iff.mpr (fun hs => hg ((mem_granules h g).mpr hs)), Bool.false_or]
    exact foldl_read_other (read := fun m => Sparse.get (fun _ => false) m g)
      (fun m k hk => Sparse.get_set_ne _ _ _ (fun he => hg (he ▸ hk))) c.glive

/-- The bytes of a list in a granule. -/
def granuleBytes (bs : List OutByte) (g : Nat) : List OutByte := bs.filter (fun b => b.addr / 256 == g)

theorem mem_granuleBytes {g : Nat} {b : OutByte} : b ∈ granuleBytes bs g ↔ b ∈ bs ∧ b.addr / 256 = g := by
  rw [granuleBytes, List.mem_filter, beq_iff_eq]

theorem granuleBytes_pois (h : Outputs bs out) (g : Nat) : (granuleBytes bs g).any OutByte.pois =
    (granule out g).any (fun o => (o.map Prod.snd).getD false) := by
  refine Bool.eq_iff_iff.mpr ?_
  unfold granule
  simp only [List.any_eq_true, mem_granuleBytes, List.mem_map, List.mem_range]
  constructor
  · rintro ⟨b, ⟨hb, rfl⟩, hp⟩
    refine ⟨_, ⟨b.addr % 256, Nat.mod_lt _ (by decide), rfl⟩, ?_⟩
    obtain ⟨v, hv, -⟩ := h.mem b hb
    rw [Nat.div_add_mod, hv]
    exact hp
  · rintro ⟨_, ⟨i, hi, rfl⟩, hp⟩
    cases ho : out (256 * g + i) with
    | none => rw [ho] at hp; cases hp
    | some x =>
      obtain ⟨b, hb, ha⟩ := h.all (256 * g + i) (by rw [ho]; rfl)
      obtain ⟨v, hv, -⟩ := h.mem b hb
      rw [ha, ho] at hv
      rw [ho, Option.some.inj hv] at hp
      exact ⟨b, ⟨hb, by omega⟩, hp⟩

/-- A granule is written whole where as many bytes as it has are written. -/
theorem granuleBytes_whole (h : Outputs bs out) (g : Nat) : (granuleBytes bs g).length = 256 ↔ (granule out g).all Option.isSome = true := by
  have hnodup : ((granuleBytes bs g).map OutByte.addr).Nodup := h.nodup.sublist (List.filter_sublist.map _)
  have hrange : ((List.range 256).map (fun i => 256 * g + i)).Nodup := List.nodup_range.map fun i j hij => by omega
  have hsub : (granuleBytes bs g).map OutByte.addr ⊆ (List.range 256).map (fun i => 256 * g + i) := fun a ha => by
    obtain ⟨b, hb, rfl⟩ := List.mem_map.mp ha
    obtain ⟨-, rfl⟩ := mem_granuleBytes.mp hb
    exact List.mem_map.mpr ⟨b.addr % 256, List.mem_range.mpr (Nat.mod_lt _ (by decide)), Nat.div_add_mod _ _⟩
  have hall : (granule out g).all Option.isSome = true ↔
      (List.range 256).map (fun i => 256 * g + i) ⊆ (granuleBytes bs g).map OutByte.addr := by
    unfold granule
    simp only [List.all_eq_true, List.mem_map, List.mem_range, forall_exists_index, and_imp, forall_apply_eq_imp_iff₂, List.subset_def,
      h.isSome_iff, mem_granuleBytes]
    refine forall₂_congr fun i hi => exists_congr fun b => ?_
    exact ⟨fun ⟨hb, ha⟩ => ⟨⟨hb, by omega⟩, ha⟩, fun ⟨⟨hb, _⟩, ha⟩ => ⟨hb, ha⟩⟩
  have hlen : ((List.range 256).map (fun i => 256 * g + i)).length = 256 := by rw [List.length_map, List.length_range]
  have hlen' : ((granuleBytes bs g).map OutByte.addr).length = (granuleBytes bs g).length := List.length_map ..
  rw [hall]
  constructor
  · intro hw
    have hperm := (List.subperm_of_subset hnodup hsub).perm_of_length_le (by omega)
    exact hperm.symm.subset
  · intro hs
    have h1 := (List.subperm_of_subset hnodup hsub).length_le
    have h2 := (List.subperm_of_subset hrange hs).length_le
    omega

/-- What a store does to the mark of a granule that it writes. -/
def markGranule (bs : List OutByte) (m : Sparse Bool) (g : Nat) : Sparse Bool :=
  if (granuleBytes bs g).any OutByte.pois then Sparse.set (fun _ => false) m g true
  else if (granuleBytes bs g).length = 256 then Sparse.set (fun _ => false) m g false
  else m

theorem markGranule_other (bs : List OutByte) (m : Sparse Bool) {g k : Nat} (h : k ≠ g) :
    Sparse.get (fun _ => false) (markGranule bs m k) g = Sparse.get (fun _ => false) m g := by
  unfold markGranule
  split
  · exact Sparse.get_set_ne _ _ _ h.symm
  · split
    · exact Sparse.get_set_ne _ _ _ h.symm
    · rfl

theorem markGranule_self (bs : List OutByte) (m : Sparse Bool) (g : Nat) : Sparse.get (fun _ => false) (markGranule bs m g) g =
    if (granuleBytes bs g).any OutByte.pois then true else if (granuleBytes bs g).length = 256 then false
    else Sparse.get (fun _ => false) m g := by
  unfold markGranule
  split
  · exact Sparse.get_set_self ..
  · split
    · exact Sparse.get_set_self ..
    · rfl

/-- The marks after a store. -/
theorem padStore_pois (h : Outputs bs out) (c : Ctx) (g : Nat) : Sparse.get (fun _ => false) (padStore c bs).gpois g =
    if (granule out g).any (fun o => (o.map Prod.snd).getD false) then true
    else if (granule out g).all Option.isSome then false
    else Sparse.get (fun _ => false) c.gpois g := by
  have hwhole : (if (granule out g).all Option.isSome then false else Sparse.get (fun _ => false) c.gpois g) =
      if (granuleBytes bs g).length = 256 then false else Sparse.get (fun _ => false) c.gpois g :=
    if_congr (granuleBytes_whole h g).symm rfl rfl
  rw [← granuleBytes_pois h g, hwhole]
  show Sparse.get (fun _ => false) (((bs.map (fun b => b.addr / 256)).dedup).foldl (markGranule bs) c.gpois) g = _
  by_cases hg : g ∈ (bs.map (fun b => b.addr / 256)).dedup
  · by_cases hkeep : (granuleBytes bs g).any OutByte.pois = true ∨ (granuleBytes bs g).length = 256
    · refine foldl_read_at (read := fun m => Sparse.get (fun _ => false) m g) hg (fun m => ?_)
        (fun m k _ hk => markGranule_other bs m hk) c.gpois
      rw [markGranule_self]
      rcases hkeep with hp | hw
      · rw [if_pos hp, if_pos hp]
      · rw [if_pos hw, if_pos hw]
    · rw [not_or] at hkeep
      obtain ⟨hp, hw⟩ := hkeep
      rw [if_neg hp, if_neg hw]
      refine foldl_read_other (read := fun m => Sparse.get (fun _ => false) m g) (fun m k _ => ?_) c.gpois
      by_cases hk : k = g
      · rw [hk, markGranule_self, if_neg hp, if_neg hw]
      · exact markGranule_other bs m hk
  · have hnil : granuleBytes bs g = [] := List.filter_eq_nil_iff.mpr fun b hb hbg =>
      hg (List.mem_dedup.mpr (List.mem_map.mpr ⟨b, hb, beq_iff_eq.mp hbg⟩))
    rw [hnil, if_neg (by decide), if_neg (by decide)]
    exact foldl_read_other (read := fun m => Sparse.get (fun _ => false) m g)
      (fun m k hk => markGranule_other bs m (fun he => hg (he ▸ hk))) c.gpois

/-- A context whose scratchpad is that after a store. -/
theorem padWritten_of {s t : State} (h : Outputs bs out) (hpad : t.ctx.pad = (padStore s.ctx bs).pad)
    (hlive : t.ctx.glive = (padStore s.ctx bs).glive) (hpois : t.ctx.gpois = (padStore s.ctx bs).gpois) : Say.PadWritten s t out := by
  refine ⟨fun a => ?_, fun g => ⟨?_, ?_⟩⟩
  · rw [Ctx.padByte, hpad]
    exact padStore_byte h s.ctx a
  · rw [hlive]
    exact padStore_live h s.ctx g
  · rw [hpois]
    exact padStore_pois h s.ctx g

end

/-! ### Bytes side by side and in rows -/

/-- Bytes at consecutive addresses. -/
def spanOut (base w : Nat) (g : Nat → Nat × Bool) (a : Nat) : Option (Nat × Bool) :=
  if base ≤ a ∧ a - base < w then some (g (a - base)) else none

/-- Rows of bytes at a pitch. -/
def rowsOut (base p w m : Nat) (g : Nat → Nat → Nat × Bool) (a : Nat) : Option (Nat × Bool) :=
  if base ≤ a ∧ (a - base) / p < m ∧ (a - base) % p < w then some (g ((a - base) / p) ((a - base) % p)) else none

theorem spanOut_eq_some {base w a : Nat} {g : Nat → Nat × Bool} {x : Nat × Bool} :
    spanOut base w g a = some x ↔ ∃ b < w, a = base + b ∧ x = g b := by
  unfold spanOut
  constructor
  · intro h
    split at h
    case isTrue hin => exact ⟨a - base, hin.2, by omega, (Option.some.inj h).symm⟩
    case isFalse => cases h
  · rintro ⟨b, hb, rfl, rfl⟩
    rw [Nat.add_sub_cancel_left, if_pos ⟨by omega, hb⟩]

theorem rowsOut_eq_some {base p w m a : Nat} (hw : w ≤ p) {g : Nat → Nat → Nat × Bool} {x : Nat × Bool} :
    rowsOut base p w m g a = some x ↔ ∃ k < m, ∃ b < w, a = base + k * p + b ∧ x = g k b := by
  unfold rowsOut
  constructor
  · intro h
    split at h
    case isTrue hin =>
      obtain ⟨hlo, hk, hb⟩ := hin
      refine ⟨_, hk, _, hb, ?_, (Option.some.inj h).symm⟩
      have := Nat.div_add_mod (a - base) p
      rw [Nat.mul_comm] at this
      omega
    case isFalse => cases h
  · rintro ⟨k, hk, b, hb, rfl, rfl⟩
    have hp : 0 < p := by omega
    have hsub : base + k * p + b - base = b + k * p := by omega
    rw [hsub, Nat.add_mul_div_right _ _ hp, Nat.add_mul_mod_self_right, Nat.div_eq_of_lt (hb.trans_le hw),
      Nat.mod_eq_of_lt (hb.trans_le hw), Nat.zero_add, if_pos ⟨by omega, hk, hb⟩]

namespace Outputs

/-- Pieces that lie in rows at a pitch. -/
theorem rows {base p w m : Nat} {piece : Nat → List OutByte} {g : Nat → Nat → Nat × Bool} (hw : w ≤ p)
    (h : ∀ k < m, Outputs (piece k) (spanOut (base + k * p) w (g k))) :
    Outputs ((List.range m).flatMap piece) (rowsOut base p w m g) := by
  have hat {k : Nat} (hk : k < m) {b : OutByte} (hb : b ∈ piece k) : ∃ i < w, b.addr = base + k * p + i ∧
      (g k i).2 = b.pois ∧ b.val = BitVec.ofNat 8 (g k i).1 := by
    obtain ⟨v, hv, hval⟩ := (h k hk).mem b hb
    obtain ⟨i, hi, haddr, hx⟩ := spanOut_eq_some.mp hv
    exact ⟨i, hi, haddr, by rw [← hx], by rw [← hx]; exact hval⟩
  refine ⟨?_, fun b hb => ?_, fun a ha => ?_⟩
  · rw [List.map_flatMap]
    refine List.nodup_flatMap.mpr ⟨fun k hk => (h k (List.mem_range.mp hk)).nodup, ?_⟩
    refine List.nodup_range.imp_of_mem fun {k l} hk hl hne => ?_
    intro a hak hal
    obtain ⟨b, hb, rfl⟩ := List.mem_map.mp hak
    obtain ⟨b', hb', he⟩ := List.mem_map.mp hal
    obtain ⟨i, hi, hbi, -⟩ := hat (List.mem_range.mp hk) hb
    obtain ⟨j, hj, hbj, -⟩ := hat (List.mem_range.mp hl) hb'
    have hsum : k * p + i = l * p + j := by omega
    rcases lt_or_gt_of_ne hne with hkl | hkl
    · have := Nat.mul_le_mul_right p (Nat.succ_le_of_lt hkl)
      rw [Nat.succ_mul] at this
      omega
    · have := Nat.mul_le_mul_right p (Nat.succ_le_of_lt hkl)
      rw [Nat.succ_mul] at this
      omega
  · obtain ⟨k, hk, hbk⟩ := List.mem_flatMap.mp hb
    obtain ⟨i, hi, haddr, hp, hval⟩ := hat (List.mem_range.mp hk) hbk
    exact ⟨(g k i).1, (rowsOut_eq_some hw).mpr ⟨k, List.mem_range.mp hk, i, hi, haddr, by rw [← hp]⟩, hval⟩
  · obtain ⟨x, hx⟩ := Option.isSome_iff_exists.mp ha
    obtain ⟨k, hk, i, hi, rfl, rfl⟩ := (rowsOut_eq_some hw).mp hx
    obtain ⟨b, hb, hba⟩ := (h k hk).all (base + k * p + i) (by rw [spanOut_eq_some.mpr ⟨i, hi, rfl, rfl⟩]; rfl)
    exact ⟨b, List.mem_flatMap.mpr ⟨k, List.mem_range.mpr hk, hb⟩, hba⟩

/-- Pieces side by side. -/
theorem pieces {base w m : Nat} {piece : Nat → List OutByte} {g : Nat → Nat → Nat × Bool} (hw : 0 < w)
    (h : ∀ k < m, Outputs (piece k) (spanOut (base + k * w) w (g k))) :
    Outputs ((List.range m).flatMap piece) (spanOut base (w * m) (fun o => g (o / w) (o % w))) := by
  refine (rows le_rfl h).congr fun a => ?_
  unfold rowsOut spanOut
  have hlt : (a - base) / w < m ↔ a - base < w * m := by rw [Nat.div_lt_iff_lt_mul hw, Nat.mul_comm]
  simp only [hlt, Nat.mod_lt _ hw, and_true]

/-- The bytes of a number. -/
theorem outBytes (a n : Nat) (v : Nat × Bool) : Outputs (outBytes a n v) (spanOut a n (fun b => (v.1 / 256 ^ b % 256, v.2))) := by
  have hmap : Machine.outBytes a n v = (List.range n).map (fun i => { addr := a + i, val := BitVec.ofNat 8 (v.1 / 256 ^ i), pois := v.2 }) := by
    unfold Machine.outBytes bytesOfNat
    refine List.ext_getElem (by simp) fun i h1 h2 => by simp
  rw [hmap]
  refine ⟨?_, fun b hb => ?_, fun x hx => ?_⟩
  · rw [List.map_map]
    exact List.nodup_range.map fun i j hij => Nat.add_left_cancel hij
  · obtain ⟨i, hi, rfl⟩ := List.mem_map.mp hb
    refine ⟨v.1 / 256 ^ i % 256, spanOut_eq_some.mpr ⟨i, List.mem_range.mp hi, rfl, rfl⟩, ?_⟩
    apply BitVec.eq_of_toNat_eq
    simp only [BitVec.toNat_ofNat]
    omega
  · obtain ⟨y, hy⟩ := Option.isSome_iff_exists.mp hx
    obtain ⟨i, hi, rfl, -⟩ := spanOut_eq_some.mp hy
    exact ⟨_, List.mem_map.mpr ⟨i, List.mem_range.mpr hi, rfl⟩, rfl⟩

/-- One byte. -/
theorem single (a v : Nat) (p : Bool) : Outputs [{ addr := a, val := BitVec.ofNat 8 v, pois := p }] (spanOut a 1 (fun _ => (v, p))) := by
  refine ⟨List.nodup_singleton _, fun b hb => ?_, fun x hx => ?_⟩
  · obtain rfl := List.mem_singleton.mp hb
    exact ⟨v, spanOut_eq_some.mpr ⟨0, Nat.one_pos, rfl, rfl⟩, rfl⟩
  · obtain ⟨y, hy⟩ := Option.isSome_iff_exists.mp hx
    obtain ⟨i, hi, rfl, -⟩ := spanOut_eq_some.mp hy
    exact ⟨_, List.mem_singleton_self _, by rw [Nat.lt_one_iff.mp hi, Nat.add_zero]⟩

end Outputs

end Sys2Proof.Machine
end

section
/-! # The turn of an entry of S (O31) -/

namespace Sys2Proof.Machine

section
variable {s u : State} {bs : List OutByte} {tok : Tok} {en : Entry} {i : Instr} {rel : Option Nat} {rs : List Reg}
  {rd : State → Except Cause Taken} {work : Entry → State → EngOut}

/-- The bank of a byte. -/
theorem banksOf_byte (a : Nat) : banksOf a 1 = [a / 16384] := by
  unfold banksOf
  rw [if_neg Nat.one_ne_zero, show (a + 1 - 1) / 16384 + 1 - a / 16384 = 1 by omega]
  rfl

/-- Bytes of banks that serve accesses are written at once. -/
theorem sWrite_awake (h : ∀ b ∈ bs, (u.ctx.padBank (b.addr / 16384)).state = .full ∧ (u.ctx.padBank (b.addr / 16384)).waking = false) :
    ∃ p, sWrite bs u = (some { u with ctx := padStore u.ctx bs, pmc := p }, u) := by
  have hprep : prepPadWrite (bs.map (fun b => (b.addr, 1))) u = (u, true) := by
    have hfull : ∀ k ∈ ((bs.map (fun b => (b.addr, 1))).flatMap (fun sp => banksOf sp.1 sp.2)).dedup,
        (u.ctx.padBank k).state = .full ∧ (u.ctx.padBank k).waking = false := fun k hk => by
      obtain ⟨sp, hsp, hk⟩ := List.mem_flatMap.mp (List.mem_dedup.mp hk)
      obtain ⟨b, hb, rfl⟩ := List.mem_map.mp hsp
      rw [banksOf_byte] at hk
      rw [List.mem_singleton.mp hk]
      exact h b hb
    unfold prepPadWrite
    rw [Ctx.padWakeAll_full hfull]
    rfl
  obtain ⟨p, hp⟩ := (u.setCtx (padStore u.ctx bs)).countPort_eq (bs.map (fun b => (b.addr, 1)))
  refine ⟨p, ?_⟩
  unfold sWrite
  rw [hprep]
  dsimp only
  rw [if_pos rfl, hp]
  rfl

/-- What the end of an entry that has stored bytes leaves. -/
theorem exec_stored {v : State} (hi : exec i s = engineInstr .s i tok rel rs rd work s) (h : Say.Runs s .s tok en)
    (hw : work en.begun (s.turned .s tok en) = .done v) (hv : v.acting = none ∧ v.mem = s.mem ∧ v.parts = s.parts)
    {ts : Sparse Tile} (hctx : v.ctx.body = { (padStore s.ctx bs).body with tiles := ts }) {out : Nat → Option (Nat × Bool)}
    (hout : Outputs bs out) :
    ∃ t, exec i s = .next t ∧ t.acting = none ∧ (rel = none → t.mem = s.mem) ∧ Say.PadWritten s t out ∧ t.ctx.acc = s.ctx.acc ∧
      t.ctx.tiles = ts := by
  obtain ⟨vact, vmem, vparts⟩ := hv
  have hrun := exec_done hi h (by decide) hw (vparts.trans h.2.1)
  obtain ⟨tact, tmem, tbody, -⟩ := pushOut_released .s en.begun tok v rel
  generalize pushOut .s en.begun tok (v.released rel) = t at hrun tact tmem tbody
  rw [hctx] at tbody
  have hacc : t.ctx.acc = s.ctx.acc := (congrArg Ctx.acc tbody : t.ctx.body.acc = _)
  have htiles : t.ctx.tiles = ts := (congrArg Ctx.tiles tbody : t.ctx.body.tiles = _)
  have hpad : t.ctx.pad = (padStore s.ctx bs).pad := (congrArg Ctx.pad tbody : t.ctx.body.pad = _)
  have hlive : t.ctx.glive = (padStore s.ctx bs).glive := (congrArg Ctx.glive tbody : t.ctx.body.glive = _)
  have hpois : t.ctx.gpois = (padStore s.ctx bs).gpois := (congrArg Ctx.gpois tbody : t.ctx.body.gpois = _)
  exact ⟨t, hrun, tact.trans vact, fun hr => (tmem hr).trans vmem, padWritten_of hout hpad hlive hpois, hacc, htiles⟩

/-- A store changes the scratchpad of a context only. -/
theorem padStore_body (c : Ctx) (bs : List OutByte) : (padStore c bs).body = padStore c.body bs := rfl

/-- Banks of the bytes that a function gives. -/
theorem outAwake_mem {out : Nat → Option (Nat × Bool)} (h : Say.OutAwake s out) (hout : Outputs bs out) :
    ∀ b ∈ bs, (s.ctx.padBank (b.addr / 16384)).state = .full ∧ (s.ctx.padBank (b.addr / 16384)).waking = false := fun b hb =>
  h b.addr ((hout.isSome_iff b.addr).mpr (List.mem_map.mpr ⟨b, hb, rfl⟩))

section
variable {f : FLN} {outb : (Nat → Nat → Nat × Bool) → Entry → List OutByte} {out : Nat → Option (Nat × Bool)}

/-- The cells of a register as its entry reads them. -/
def tileCells (s : State) (l : Line) (i j : Nat) : Nat × Bool := ((Say.lane s l i j).bits.toNat, (Say.lane s l i j).pois)

theorem srcCell_turned (s : State) (tok : Tok) (en : Entry) (l : Line) (i j : Nat) :
    srcCell (s.turned .s tok en) [] l.tile.toNat l.dir i j = tileCells s l i j := by
  unfold srcCell tileCells Say.lane
  rw [lineCell_eq]
  dsimp only
  rw [State.turned_cell]
  rfl

/-- An entry that stores a register's cells, its register awake. -/
theorem sTile_stores (hi : exec i s = engineInstr .s i f.tok (relScope f.rel f.scope) rs rd (sTile f outb) s) (h : Say.Runs s .s f.tok en)
    (hawake : Say.Awake s f.line.tile.toNat) (hout : Outputs (sOut en.begun (outb (tileCells s f.line) en.begun)) out)
    (hbanks : Say.OutAwake s out) :
    ∃ t, exec i s = .next t ∧ t.acting = none ∧ (f.rel = false → t.mem = s.mem) ∧ Say.PadWritten s t out ∧
      t.ctx.acc = s.ctx.acc ∧ (f.line.last = false → t.ctx.tiles = s.ctx.tiles) := by
  generalize hbs : sOut en.begun (outb (tileCells s f.line) en.begun) = bs at hout
  generalize hu : s.turned .s f.tok en = u
  have hbody : u.ctx.body = s.ctx.body := hu ▸ State.turned_body
  have hcells : (fun i j => srcCell u [] f.line.tile.toNat f.line.dir i j) = tileCells s f.line := by
    funext i j
    rw [← hu, srcCell_turned]
  obtain ⟨p, hwrite⟩ := sWrite_awake (u := u) (bs := bs) fun b hb => by
    rw [Ctx.padBank_of_body hbody]
    exact outAwake_mem hbanks hout b hb
  obtain ⟨c, hc, ⟨ts, hts⟩, -⟩ := lastUses_eq { u with ctx := padStore u.ctx bs, pmc := p } [] [f.line] none
  have hwork : sTile f outb en.begun u = .done (lastUses { u with ctx := padStore u.ctx bs, pmc := p } [] [f.line] none) := by
    have hready : ∀ t ∈ [f.line.tile.toNat], Say.Awake u t := fun t ht => by
      rw [List.mem_singleton.mp ht, ← hu]
      exact State.turned_awake hawake
    unfold sTile
    rw [prepTiles_awake (dst := none) hready (by simp)]
    dsimp only
    rw [hcells, hbs, hwrite]
  have hctx : (lastUses { u with ctx := padStore u.ctx bs, pmc := p } [] [f.line] none).ctx.body =
      { (padStore s.ctx bs).body with tiles := ts } := by
    rw [hc, State.setCtx_ctx, hts, padStore_body s.ctx, ← hbody]
    rfl
  obtain ⟨t, ht, hact, hmem, hpad, hacc, htiles⟩ := exec_stored hi h (hu ▸ hwork)
    (by rw [hc, ← hu]; exact ⟨rfl, rfl, rfl⟩) hctx hout
  refine ⟨t, ht, hact, fun hr => hmem (relScope_none hr _), hpad, hacc, fun hlast => ?_⟩
  have hsame : lastUses { u with ctx := padStore u.ctx bs, pmc := p } [] [f.line] none = { u with ctx := padStore u.ctx bs, pmc := p } := by
    unfold lastUses
    rw [List.foldl_cons, List.foldl_nil, hlast]
    rfl
  have htsu : u.ctx.tiles = s.ctx.tiles := Ctx.tiles_of_body hbody
  have hcs : c.tiles = u.ctx.tiles := by
    have : ({ u with ctx := padStore u.ctx bs, pmc := p } : State).setCtx c = { u with ctx := padStore u.ctx bs, pmc := p } := hc ▸ hsame
    exact (congrArg (fun v : State => v.ctx.tiles) this)
  rw [htiles, ← htsu, ← hcs, hts]

/-- A register that is absent or off is latched (R54, R344). -/
theorem sTile_latches (hi : exec i s = engineInstr .s i f.tok (relScope f.rel f.scope) rs rd (sTile f outb) s) (h : Say.Runs s .s f.tok en)
    (hb : s.ctx.inHandler = false) (hl : s.ctx.latch 3 = none) (hspec : en.spec = false)
    (hstate : (s.ctx.tile f.line.tile.toNat).state = .absent ∨ (s.ctx.tile f.line.tile.toNat).state = .off) :
    ∃ t, exec i s = .next t ∧ t.acting = none ∧ t.mem = s.mem ∧ t.ctx.pad = s.ctx.pad ∧ t.ctx.tiles = s.ctx.tiles ∧
      t.ctx.latch 3 = some { code := if (s.ctx.tile f.line.tile.toNat).state = .absent then 0x09#8 else 0x08#8,
                             sub := BitVec.ofNat 8 f.line.tile.toNat, addr := en.addr } := by
  have hprep : prepTiles en.begun.spec [f.line.tile.toNat] none (s.turned .s f.tok en) =
      .fault (if (s.ctx.tile f.line.tile.toNat).state = .absent then 0x09#8 else 0x08#8) (BitVec.ofNat 8 f.line.tile.toNat) := by
    rw [show en.begun.spec = false from hspec]
    unfold prepTiles
    rcases hstate with hs | hs
    · simp [turned_tile, hs, cABSENT]
    · simp [turned_tile, hs, cDROPPED]
  obtain ⟨t, ht, hact, hmem, htiles, hpad, hlatch, -⟩ := exec_latched (e := .s) hi h (by decide) (by
    unfold sTile
    rw [hprep]) hb hl
  exact ⟨t, ht, hact, hmem, hpad, htiles, hlatch⟩

end

end

end Sys2Proof.Machine
end

section
/-! # Lines, tiles and transposes stored (O31)

SLINE, STILE and STRANS (R266). -/

namespace Sys2Proof.Machine

/-- A byte of a field of a number. -/
theorem bitsOf_byte (v lo : Nat) {e b : Nat} (hb : b < e) : bitsOf v lo (8 * e) / 256 ^ b % 256 = v / 2 ^ (lo + 8 * b) % 256 := by
  have h256 : 256 ^ b = 2 ^ (8 * b) := by rw [show 256 = 2 ^ 8 from rfl, ← pow_mul]
  unfold bitsOf
  rw [h256, show (256 : Nat) = 2 ^ 8 from rfl]
  refine Nat.eq_of_testBit_eq fun i => ?_
  simp only [Nat.testBit_mod_two_pow, Nat.testBit_div_two_pow]
  by_cases hi : i < 8
  · rw [decide_eq_true hi, decide_eq_true (by omega : i + 8 * b < 8 * e), Bool.true_and, Bool.true_and, Bool.true_and]
    congr 1
    omega
  · rw [decide_eq_false hi, Bool.false_and, Bool.false_and]

theorem byteOf_whole (c : Cell) (e b : Nat) : (c.bits.toNat / 256 ^ b % 256, c.pois) = Say.byteOf c e 0 b := by
  unfold Say.byteOf
  rw [Nat.mul_zero, Nat.zero_add, show 256 ^ b = 2 ^ (8 * b) by rw [show 256 = 2 ^ 8 from rfl, ← pow_mul]]

theorem byteOf_element (c : Cell) (q : Nat) {e b : Nat} (hb : b < e) :
    (bitsOf c.bits.toNat (8 * e * q) (8 * e) / 256 ^ b % 256, c.pois) = Say.byteOf c e q b := by
  rw [bitsOf_byte _ _ hb]
  rfl

section
variable {s : State} {f : FLN} {en : Entry}

/-- Cells of four bytes side by side. -/
theorem Outputs.cells (s : State) (l : Line) (base i n : Nat) :
    Outputs ((List.range n).flatMap (fun j => Machine.outBytes (base + 4 * j) 4 (tileCells s l i j)))
      (spanOut base (4 * n) (fun o => Say.byteOf (Say.lane s l i (o / 4)) 4 0 (o % 4))) := by
  refine (Outputs.pieces (g := fun j b => Say.byteOf (Say.lane s l i j) 4 0 b) (by decide) fun j _ => ?_)
  rw [Nat.mul_comm 4 j]
  refine (Outputs.outBytes _ 4 _).congr fun a => ?_
  unfold spanOut tileCells
  simp only [byteOf_whole (Say.lane s l i j) 4]

/-- The bytes of SLINE. -/
theorem sline_outputs (s : State) (f : FLN) (en : Entry) :
    Outputs ((List.range en.stamp.vc.toNat).flatMap (fun j => outBytes (en.val.toNat + 4 * j) 4 (tileCells s f.line en.i1.toNat j)))
      (Say.lineOut s f en) := Outputs.cells s f.line en.val.toNat en.i1.toNat en.stamp.vc.toNat

theorem line_dir (hd : f.line.dir = 0#2) : ({ f.line with dir := 0#2 } : Line) = f.line := by rw [← hd]

/-- The bytes of STILE. -/
theorem stile_outputs (hd : f.line.dir = 0#2) :
    Outputs ((List.range en.stamp.vc.toNat).flatMap (fun r => (List.range 64).flatMap (fun j =>
      outBytes (en.val.toNat + r * tilePitch f.param + 4 * j) 4 (tileCells s f.line r j)))) (Say.tileOut s f en) := by
  have hrow : 256 ≤ tilePitch f.param := Nat.le_add_right _ _
  refine (Outputs.rows hrow fun r _ => Outputs.cells s f.line _ r 64).congr fun a => ?_
  unfold Say.tileOut
  rw [line_dir hd]
  rfl

/-- The bytes of STRANS. -/
theorem strans_outputs (hd : f.line.dir = 0#2) (hty : f.param.toNat / 16 ≤ 2) (hpitch : 64 * Say.transElem f.param ≤ Say.transPitch f.param)
    (hvc : en.stamp.vc.toNat ≤ 64) :
    Outputs ((List.range (256 / transBytes f.param)).flatMap (fun k => (List.range en.stamp.vc.toNat).flatMap (fun i =>
        outBytes (en.val.toNat + k * transPitch f.param + transBytes f.param * i) (transBytes f.param)
          (bitsOf (tileCells s f.line i (k / (4 / transBytes f.param))).1 (8 * transBytes f.param * (k % (4 / transBytes f.param)))
            (8 * transBytes f.param), (tileCells s f.line i (k / (4 / transBytes f.param))).2)))) (Say.transOut s f en) := by
  have helem : Say.transElem f.param = transBytes f.param := rfl
  have hpit : Say.transPitch f.param = transPitch f.param := rfl
  have hpos : 0 < transBytes f.param := by rcases transBytes_cases hty with h | h | h <;> rw [h] <;> decide
  have hout (a : Nat) : Say.transOut s f en a = rowsOut en.val.toNat (transPitch f.param) (transBytes f.param * en.stamp.vc.toNat)
      (256 / transBytes f.param) (fun k o => Say.byteOf (Say.lane s f.line (o / transBytes f.param) (k / (4 / transBytes f.param)))
        (transBytes f.param) (k % (4 / transBytes f.param)) (o % transBytes f.param)) a := by
    unfold Say.transOut
    rw [line_dir hd]
    rfl
  rw [helem, hpit] at hpitch
  generalize transBytes f.param = e at hpos hout hpitch ⊢
  have hwidth : e * en.stamp.vc.toNat ≤ transPitch f.param := (Nat.mul_le_mul_left e hvc).trans (by rw [Nat.mul_comm]; exact hpitch)
  refine (Outputs.rows hwidth fun k _ => ?_).congr fun a => (hout a).symm
  refine Outputs.pieces (g := fun i b => Say.byteOf (Say.lane s f.line i (k / (4 / e))) e (k % (4 / e)) b) hpos fun i _ => ?_
  rw [Nat.mul_comm e i]
  refine (Outputs.outBytes _ e _).congr fun a => ?_
  unfold spanOut
  refine ite_congr rfl (fun hin => ?_) fun _ => rfl
  exact congrArg some (byteOf_element (Say.lane s f.line i (k / (4 / e))) (k % (4 / e)) hin.2)

/-- The three words that store a register's cells: their entry's work and the bytes that it writes. -/
theorem stores_outputs {i : Instr} {out : Nat → Option (Nat × Bool)} (hvc : en.stamp.vc.toNat ≤ 64)
    (h : (i = .sline f ∧ out = Say.lineOut s f en) ∨ (i = .stile f ∧ f.line.dir = 0#2 ∧ out = Say.tileOut s f en) ∨
      (i = .strans f ∧ f.line.dir = 0#2 ∧ f.param.toNat / 16 ≤ 2 ∧ 64 * Say.transElem f.param ≤ Say.transPitch f.param ∧
        out = Say.transOut s f en)) :
    ∃ rs rd outb, exec i s = engineInstr .s i f.tok (relScope f.rel f.scope) rs rd (sTile f outb) s ∧
      Outputs (outb (tileCells s f.line) en.begun) out := by
  rcases h with ⟨rfl, rfl⟩ | ⟨rfl, hd, rfl⟩ | ⟨rfl, hd, hty, hpitch, rfl⟩
  · exact ⟨_, _, _, show execSline f s = _ from rfl, sline_outputs s f en⟩
  · exact ⟨_, _, _, show execStile f s = _ from rfl, stile_outputs hd⟩
  · exact ⟨_, _, _, show execStrans f s = _ from rfl, strans_outputs hd hty hpitch hvc⟩

end

end Sys2Proof.Machine
end

section
/-! # SACC, and the entries that store to the scratchpad (O31)

A plane line converted by its parameters (R267, R268). -/

namespace Sys2Proof.Machine

theorem mapIdx_map_range {α β : Type} (n : Nat) (h : Nat → α) (f : Nat → α → β) :
    ((List.range n).map h).mapIdx f = (List.range n).map (fun k => f k (h k)) :=
  List.ext_getElem (by simp) fun i _ _ => by simp

theorem mapIdx_map {α β γ : Type} (l : List α) (h : α → β) (f : Nat → β → γ) : (l.map h).mapIdx f = l.mapIdx (fun k a => f k (h a)) :=
  List.ext_getElem (by simp) fun i _ _ => by simp

/-- The elements of SACC as its entry computes them, `bad` the columns whose parameters are poisoned. -/
def saccList (u : State) (f : FSA) (en : Entry) (bad : Nat → Bool) : List (Nat × Bool × BitVec 7) :=
  (saccCols f en.stamp.vc.toNat).mapIdx (fun k c =>
    let rc := planeCell f.dir f.idx f.h k
    let x := u.ctx.pcell (b2n f.p) rc.1 rc.2
    let num (o n : Nat) : Nat := natOfBytes (u.ctx.padBytes (256 * en.stamp.sqp.toNat + o) n)
    let p := x.pois || bad c
    let (v, fl) := saccOf f.dt.toNat x.bits.toNat (num (4 * c) 4) (num (512 + 4 * c) 4) (num (1024 + c) 1 % 64)
    (if p then (u.freshBits k).toNat % 2 ^ (dtOf f.dt.toNat).width else v, p, if p then 0#7 else fl))

/-- The bytes of SACC's elements. -/
def saccBytes (u : State) (f : FSA) (en : Entry) (es : List (Nat × Bool × BitVec 7)) : List OutByte :=
  if (dtOf f.dt.toNat).width = 4 then nibbleBytes u.ctx en.val.toNat (es.map (fun e => (e.1, e.2.1)))
  else (es.mapIdx (fun k e => outBytes (en.val.toNat + k * ((dtOf f.dt.toNat).width / 8)) ((dtOf f.dt.toNat).width / 8) (e.1, e.2.1))).flatten

/-- SACC's plane line is clean, its parameters below SPSIZE, awake and clean. -/
def SaccReady (s : State) (f : FSA) (en : Entry) : Prop :=
  ∀ k < en.stamp.vc.toNat, let c := Say.saccCol f k
    (s.ctx.pcell (if f.p then 1 else 0) (if f.dir then k else f.idx.toNat) c).pois = false ∧
    ∀ sp ∈ [(256 * en.stamp.sqp.toNat + 4 * c, 4), (256 * en.stamp.sqp.toNat + 512 + 4 * c, 4),
        (256 * en.stamp.sqp.toNat + 1024 + c, 1)],
      sp.1 + sp.2 ≤ s.ctx.spSize ∧ Say.PadAwake s sp.1 sp.2 ∧ s.ctx.padPoison sp.1 sp.2 = false

section
variable {s : State} {f : FSA} {en : Entry}

theorem saccCols_eq (f : FSA) (vc : Nat) : saccCols f vc = (List.range vc).map (Say.saccCol f) := rfl

theorem planeCell_eq (f : FSA) (k : Nat) : planeCell f.dir f.idx f.h k = (if f.dir then k else f.idx.toNat, Say.saccCol f k) := by
  unfold planeCell Say.saccCol
  cases f.dir <;> rfl

/-- The spans of the parameters of the columns below VC. -/
theorem SaccReady.spans (h : SaccReady s f en) : ∀ sp ∈ (saccCols f en.stamp.vc.toNat).flatMap (saccSpans (256 * en.stamp.sqp.toNat)),
    sp.1 + sp.2 ≤ s.ctx.spSize ∧ Say.PadAwake s sp.1 sp.2 ∧ s.ctx.padPoison sp.1 sp.2 = false := fun sp hsp => by
  obtain ⟨c, hc, hsp⟩ := List.mem_flatMap.mp hsp
  rw [saccCols_eq] at hc
  obtain ⟨k, hk, rfl⟩ := List.mem_map.mp hc
  exact (h k (List.mem_range.mp hk)).2 sp hsp

theorem pcell_of_body {c d : Ctx} (h : d.body = c.body) (p m n : Nat) : d.pcell p m n = c.pcell p m n := by
  rw [Ctx.pcell, Ctx.plane, Ctx.acc_of_body h]; rfl

/-- A parameter as the entry reads it. -/
theorem sacc_param {u : State} (hu : u.ctx.body = s.ctx.body) (a n : Nat) : natOfBytes (u.ctx.padBytes a n) = Say.padNat s a n := by
  rw [Ctx.padBytes_of_body hu]
  rfl

/-- An element is converted as the statement says. -/
theorem saccOf_eq (s : State) (f : FSA) (en : Entry) (k : Nat) :
    (saccOf f.dt.toNat (s.ctx.pcell (b2n f.p) (if f.dir then k else f.idx.toNat) (Say.saccCol f k)).bits.toNat
      (Say.padNat s (256 * en.stamp.sqp.toNat + 4 * Say.saccCol f k) 4)
      (Say.padNat s (256 * en.stamp.sqp.toNat + (512 + 4 * Say.saccCol f k)) 4)
      (Say.padNat s (256 * en.stamp.sqp.toNat + (1024 + Say.saccCol f k)) 1 % 64)).1 = Say.saccElem s f en k := by
  unfold saccOf Say.saccElem
  rw [← Nat.add_assoc, ← Nat.add_assoc]
  dsimp only
  split <;> rfl

/-- The elements of a clean line with clean parameters. -/
theorem saccList_eq (h : SaccReady s f en) {u : State} (hu : u.ctx.body = s.ctx.body) {bad : Nat → Bool}
    (hbad : ∀ c ∈ saccCols f en.stamp.vc.toNat, bad c = false) :
    (saccList u f en bad).map (fun e => (e.1, e.2.1)) = (List.range en.stamp.vc.toNat).map (fun k => (Say.saccElem s f en k, false)) := by
  unfold saccList
  rw [saccCols_eq] at hbad ⊢
  rw [mapIdx_map_range, List.map_map]
  refine List.map_congr_left fun k hk => ?_
  have hpois : (u.ctx.pcell (b2n f.p) (if f.dir then k else f.idx.toNat) (Say.saccCol f k)).pois = false := by
    rw [pcell_of_body hu]
    exact (h k (List.mem_range.mp hk)).1
  have hclean : bad (Say.saccCol f k) = false := hbad _ (List.mem_map.mpr ⟨k, hk, rfl⟩)
  simp only [Function.comp_apply, planeCell_eq, hpois, hclean, Bool.or_self, Bool.false_eq_true, if_false, sacc_param hu]
  rw [pcell_of_body hu, saccOf_eq]

/-- Two elements of four bits to a byte, a half that no element fills as it was. -/
theorem nibble_outputs (c : Ctx) (a n : Nat) (v : Nat → Nat) :
    Outputs (nibbleBytes c a ((List.range n).map (fun k => (v k, false)))) (spanOut a ((n + 1) / 2) (fun o =>
      (v (2 * o) % 16 + 16 * (if 2 * o + 1 < n then v (2 * o + 1) % 16 else (c.padByte (a + o)).toNat / 16), false))) := by
  have hlist : nibbleBytes c a ((List.range n).map (fun k => (v k, false))) = (List.range ((n + 1) / 2)).flatMap (fun o =>
      [{ addr := a + o, val := BitVec.ofNat 8 (v (2 * o) % 16 + 16 * (if 2 * o + 1 < n then v (2 * o + 1) % 16
          else (c.padByte (a + o)).toNat / 16)), pois := false }]) := by
    unfold nibbleBytes ceilDiv
    rw [← List.map_eq_flatMap, List.length_map, List.length_range, show n + 2 - 1 = n + 1 by omega]
    refine List.map_congr_left fun o ho => ?_
    have hlo : 2 * o < n := by have := List.mem_range.mp ho; omega
    have hbyte : (c.padByte (a + o)).toNat / 16 % 16 = (c.padByte (a + o)).toNat / 16 := by
      have := (c.padByte (a + o)).isLt
      omega
    by_cases hhi : 2 * o + 1 < n
    · simp [List.getD_eq_getElem?_getD, hlo, hhi]
    · simp [List.getD_eq_getElem?_getD, hlo, hhi, hbyte]
  rw [hlist]
  refine (Outputs.pieces (base := a) (w := 1) (g := fun o _ => (v (2 * o) % 16 + 16 * (if 2 * o + 1 < n then v (2 * o + 1) % 16
    else (c.padByte (a + o)).toNat / 16), false)) Nat.one_pos fun o _ => ?_).congr fun x => ?_
  · rw [Nat.mul_one]
    exact Outputs.single ..
  · simp only [Nat.one_mul, Nat.div_one]

theorem dtOf_width (t : Nat) : (dtOf t).width = 4 ∨ 0 < (dtOf t).width / 8 ∧ (dtOf t).width ≠ 4 := by
  unfold dtOf
  split <;> decide

/-- The bytes of SACC. -/
theorem sacc_outputs {u : State} (hu : u.ctx.body = s.ctx.body) {es : List (Nat × Bool × BitVec 7)}
    (hes : es.map (fun e => (e.1, e.2.1)) = (List.range en.stamp.vc.toNat).map (fun k => (Say.saccElem s f en k, false))) :
    Outputs (saccBytes u f en es) (Say.saccOut s f en) := by
  unfold saccBytes
  rcases dtOf_width f.dt.toNat with hw | ⟨hpos, hw⟩
  · rw [if_pos hw, hes]
    refine (nibble_outputs u.ctx en.val.toNat en.stamp.vc.toNat (Say.saccElem s f en)).congr fun a => ?_
    have hbyte (a : Nat) : u.ctx.padByte a = s.ctx.padByte a := by
      rw [Ctx.padByte, Ctx.pad_of_body hu]; rfl
    unfold spanOut Say.saccOut
    simp only [hw, if_true, hbyte]
    by_cases ha : a < en.val.toNat
    · rw [if_pos ha, if_neg (by omega)]
    · rw [if_neg ha, Nat.add_sub_cancel' (not_lt.mp ha)]
      exact if_congr (by omega) rfl rfl
  · rw [if_neg hw]
    have hlist : (es.mapIdx (fun k e => outBytes (en.val.toNat + k * ((dtOf f.dt.toNat).width / 8)) ((dtOf f.dt.toNat).width / 8)
        (e.1, e.2.1))).flatten = (List.range en.stamp.vc.toNat).flatMap (fun k =>
          outBytes (en.val.toNat + k * ((dtOf f.dt.toNat).width / 8)) ((dtOf f.dt.toNat).width / 8) (Say.saccElem s f en k, false)) := by
      have hmap := congrArg (List.mapIdx (fun k v => outBytes (en.val.toNat + k * ((dtOf f.dt.toNat).width / 8))
        ((dtOf f.dt.toNat).width / 8) v)) hes
      rw [mapIdx_map_range, mapIdx_map] at hmap
      rw [List.flatMap_def, ← hmap]
    rw [hlist]
    refine (Outputs.pieces hpos fun k _ => Outputs.outBytes _ _ _).congr fun a => ?_
    unfold spanOut Say.saccOut
    simp only [hw, if_false]
    by_cases ha : a < en.val.toNat
    · rw [if_pos ha, if_neg (by omega)]
    · rw [if_neg ha]
      refine if_congr ?_ rfl rfl
      rw [Nat.div_lt_iff_lt_mul hpos, Nat.mul_comm]
      omega

end

end Sys2Proof.Machine
end

section
/-! # Stores to the scratchpad (O31) -/

namespace Sys2Proof.Machine

section
variable {s : State} {f : FSA} {en : Entry}

/-- SACC of a clean line with clean parameters. -/
theorem sacc_stores (h : Say.Runs s .s f.tok en) (hb : en.bad = false) (hoffs : en.offs = []) (hready : SaccReady s f en)
    (hbanks : Say.OutAwake s (Say.saccOut s f en)) :
    ∃ t, exec (.sacc f) s = .next t ∧ t.acting = none ∧ (f.rel = false → t.mem = s.mem) ∧
      Say.PadWritten s t (Say.saccOut s f en) ∧ t.ctx.acc = s.ctx.acc ∧ t.ctx.tiles = s.ctx.tiles := by
  generalize hu : s.turned .s f.tok en = u
  have hbody : u.ctx.body = s.ctx.body := hu ▸ State.turned_body
  have hspans := hready.spans
  have hsize : u.ctx.spSize = s.ctx.spSize := by
    rw [Ctx.spSize, Ctx.spbanks_of_body hbody]; rfl
  have hpast : ((saccCols f en.stamp.vc.toNat).flatMap (saccSpans (256 * en.stamp.sqp.toNat))).any
      (fun sp => decide (u.ctx.spSize < sp.1 + sp.2)) = false :=
    List.any_eq_false.mpr fun sp hsp => by
      have := (hspans sp hsp).1
      rw [hsize]
      simpa using this
  have hawake : ∀ sp ∈ (saccCols f en.stamp.vc.toNat).flatMap (saccSpans (256 * en.stamp.sqp.toNat)), Say.PadAwake u sp.1 sp.2 :=
    fun sp hsp => hu ▸ padAwake_turned (hspans sp hsp).2.1
  have hclean : ∀ c ∈ saccCols f en.stamp.vc.toNat,
      (saccSpans (256 * en.stamp.sqp.toNat) c).any (fun sp => padBad u.ctx [] sp.1 sp.2) = false := fun c hc =>
    List.any_eq_false.mpr fun sp hsp => by
      rw [padBad_none, Ctx.padPoison_of_body hbody, (hspans sp (List.mem_flatMap.mpr ⟨c, hc, hsp⟩)).2.2]
      decide
  have hnone : (saccCols f en.stamp.vc.toNat).any (fun c => (saccSpans (256 * en.stamp.sqp.toNat) c).any
      (fun sp => padBad u.ctx [] sp.1 sp.2)) = false := List.any_eq_false.mpr fun c hc => by rw [hclean c hc]; decide
  generalize hes : saccList u f en (fun c => (saccSpans (256 * en.stamp.sqp.toNat) c).any (fun sp => padBad u.ctx [] sp.1 sp.2)) = es
  have hout : Outputs (saccBytes u f en es) (Say.saccOut s f en) := sacc_outputs hbody (hes ▸ saccList_eq hready hbody hclean)
  obtain ⟨p, hwrite⟩ := sWrite_awake (u := u) (bs := saccBytes u f en es) fun b hb => by
    rw [Ctx.padBank_of_body hbody]
    exact outAwake_mem hbanks hout b hb
  obtain ⟨q, hport⟩ := ({ u with ctx := padStore u.ctx (saccBytes u f en es), pmc := p } : State).countPort_eq
    ((saccCols f en.stamp.vc.toNat).flatMap (saccSpans (256 * en.stamp.sqp.toNat)))
  obtain ⟨t, ht, hact, hmem, hpad, hacc, htiles⟩ := exec_stored (i := .sacc f) (ts := s.ctx.tiles)
    (v := (({ u with ctx := padStore u.ctx (saccBytes u f en es), pmc := q } : State).setFlags (orFlags (es.map (fun e => e.2.2)))).useFree)
    rfl h (by
      rw [hu]
      dsimp only
      rw [show en.begun.stamp = en.stamp from rfl, show en.begun.offs = [] from hoffs, hpast, Bool.false_and,
        if_neg Bool.false_ne_true, if_neg Bool.false_ne_true, prepPad_awake hawake]
      dsimp only
      simp only [List.append_nil, List.dedup_nil, Bool.false_or]
      rw [hnone, Bool.and_false, if_neg Bool.false_ne_true]
      change (match sWrite (sOut en.begun (saccBytes u f en (saccList u f en _))) u with
        | (some s2, _) => _
        | (none, s2) => _) = _
      rw [hes, show sOut en.begun (saccBytes u f en es) = saccBytes u f en es from if_neg (by rw [show en.begun.bad = en.bad from rfl, hb]; decide),
        hwrite]
      dsimp only
      rw [hport]
      subst hes
      rfl)
    (by rw [← hu]; exact ⟨rfl, rfl, rfl⟩)
    (by
      show ((padStore u.ctx (saccBytes u f en es)).setBank _).body = _
      rw [Ctx.body_setBank, padStore_body, padStore_body, hbody]
      rfl)
    hout
  exact ⟨t, ht, hact, fun hr => hmem (relScope_none hr _), hpad, hacc, htiles⟩

end

end Sys2Proof.Machine

namespace Sys2Proof
open Machine

/-- Settles O31: each of the words writes a list of bytes with distinct addresses, and what such a list leaves of the scratchpad is
the same for all of them. -/
theorem storeEntriesWriteTheScratchpad : Obligations.StoreEntriesWriteTheScratchpad := by
  intro s en hvc
  refine ⟨fun f i out hruns hword => ?_, fun f hruns hb hoffs hready hbanks => sacc_stores hruns hb hoffs hready hbanks⟩
  obtain ⟨rs, rd, outb, hexec, hout⟩ := stores_outputs hvc hword
  refine ⟨fun hb hawake hbanks => ?_, fun hb hawake => ?_, fun c hbase hlatch hspec hstate hc => ?_⟩
  · have hgood : sOut en.begun (outb (tileCells s f.line) en.begun) = outb (tileCells s f.line) en.begun :=
      if_neg (by rw [show en.begun.bad = en.bad from rfl, hb]; decide)
    exact sTile_stores hexec hruns hawake (by rw [hgood]; exact hout) hbanks
  · have hbad : sOut en.begun (outb (tileCells s f.line) en.begun) = [] := if_pos hb
    exact sTile_stores hexec hruns hawake (by rw [hbad]; exact Outputs.nil) fun a ha => by cases ha
  · subst hstate
    exact sTile_latches hexec hruns hbase hlatch hspec hc

end Sys2Proof
end
